-- ==== Sys2Proof/Word.lean ====
section
/-! DEFINITION. Word types and their plainest arithmetic: bytes, 32-bit registers, bit fields of naturals,
little-endian byte lists, saturating counts. -/

namespace Sys2Proof

/-- One byte. -/
abbrev Byte := BitVec 8

/-- A register word (R5). -/
abbrev Word := BitVec 32

/-- A string of bytes, lowest address first. -/
abbrev Bytes := List Byte

/-- Bits [hi:lo] of a natural number. -/
def bitsOf (n hi lo : Nat) : Nat := (n >>> lo) % 2 ^ (hi + 1 - lo)

/-- Bit i of a natural number. -/
def bitOf (n i : Nat) : Bool := n.testBit i

/-- Replace bits [hi:lo] of `n` by the low bits of `v`. -/
def putBits (n hi lo v : Nat) : Nat :=
  let w := hi + 1 - lo
  (n >>> (hi + 1)) <<< (hi + 1) + (v % 2 ^ w) <<< lo + n % 2 ^ lo

/-- Set or clear bit i. -/
def putBit (n i : Nat) (b : Bool) : Nat := putBits n i i (if b then 1 else 0)

/-- The mask of ones on bits [hi:lo]. -/
def maskOf (hi lo : Nat) : Nat := (2 ^ (hi + 1 - lo) - 1) <<< lo

/-- The low `k` bytes of `n`, little-endian (R4). -/
def leBytes : Nat → Nat → Bytes
  | 0, _ => []
  | k + 1, n => BitVec.ofNat 8 n :: leBytes k (n / 256)

/-- The number a little-endian byte string spells (R4). -/
def leNat : Bytes → Nat
  | [] => 0
  | b :: bs => b.toNat + 256 * leNat bs

/-- `n` bytes of `bs` from offset `o`; missing bytes read 0. -/
def sliceBytes (bs : Bytes) (o n : Nat) : Bytes :=
  let t := (bs.drop o).take n
  t ++ List.replicate (n - t.length) 0

/-- The little-endian field of `n` bytes at offset `o`. -/
def leAt (bs : Bytes) (o n : Nat) : Nat := leNat (sliceBytes bs o n)

/-- Overwrite the bytes of `bs` from offset `o` by `v` (only places `bs` has). -/
def patchBytes (bs : Bytes) (o : Nat) (v : Bytes) : Bytes :=
  bs.take o ++ (v.take (bs.length - o)) ++ bs.drop (o + v.length)

/-- A count that stops at `lim`. -/
def satAdd (lim n k : Nat) : Nat := min lim (n + k)

/-- The two's complement reading of the low `w` bits of `n`. -/
def signedOf (w n : Nat) : Int :=
  let m := n % 2 ^ w
  if m < 2 ^ (w - 1) then (m : Int) else (m : Int) - 2 ^ w

/-- The two's complement code of `i` in `w` bits. -/
def codeOf (w : Nat) (i : Int) : Nat := (i % (2 ^ w : Int)).toNat

/-- The positions of the ones among bits 0 to `n` - 1 of `m`, ascending. -/
def onesBelow (n m : Nat) : List Nat := (List.range n).filter (fun i => m.testBit i)

/-- The number whose ones are the listed positions. -/
def maskOfList (l : List Nat) : Nat := l.foldl (fun m i => m ||| 2 ^ i) 0

end Sys2Proof
end

