-- ==== Sys2Proof/Syntax.lean ====
section
/-! DEFINITION. The commands of the block: `Instr`, one constructor for each row of spec/opcode_table.json, with the
operands the command brings from outside, and the records those operands are made of.
A register-write command carries the agent that writes (0 to 255 a PCI Express function, 256 Skeldor's own path, R522)
and the whole word written. -/

namespace Sys2Proof

/-- Who a request to the narrow access path is made for (R96, R163): address, key index, context and its generation,
the queue and sequence number of the command it belongs to. -/
structure Req where
  dpa : Nat
  key : Nat
  ctx : Nat
  gen : Nat
  q : Nat
  seq : Nat
  deriving DecidableEq, Repr

/-- A link transaction as it stands on the wire: the header of R307 (R309 for a response, whose STATUS is `status`) and
its payload. -/
structure Txn where
  op : Nat
  level : Nat := 0
  cls : Nat := 0
  dst : Nat := 0
  src : Nat := 0
  tag : Nat := 0
  span : Nat := 0
  age : Nat := 0
  addr : Nat := 0
  key : Nat := 0
  attr : Nat := 0
  queue : Nat := 0
  aux : Nat := 0
  status : Nat := 0
  payload : Bytes := []
  deriving DecidableEq, Repr

/-- A block of R293 as received: the control word's fields (R295) and its 256 B body, the number of symbol errors
and of erasures in each codeword that the FEC has to correct, the outcome of the group tag when the block closes a group
(R300), and whether its slots are traffic of the port's trunk (R296, R318). -/
structure Block where
  type : Nat
  nak : Bool := false
  gend : Bool := false
  lseq : Nat := 0
  lack : Nat := 0
  crBuf : Nat := 0
  crCnt : Nat := 0
  body : Bytes := []
  crc : Nat := 0
  fecErrs : List Nat := []
  fecEras : List Nat := []
  tagOk : Bool := true
  trunk : Bool := true
  deriving DecidableEq, Repr

/-- The traffic that a request at a regulator belongs to (R336), which decides its client and its class: a mover request of a command
of queue `q`; a save or restore of context `x`; a record or fence write of queue `q`; the rebalance copier of partition `p`; a request
from a link, or of BAR2, for the region of `dpa`; a response, or a message of the COLL class, leaving `port` (`fwd`: forwarded for another
device); a forwarded request; the device's own bulk work. -/
inductive Traffic where
  | mover (q : Nat)
  | switch (x : Nat)
  | record (q : Nat)
  | copier (p : Nat)
  | remote (dpa : Nat)
  | window (dpa : Nat)
  | response (port : Nat)
  | collective (port : Nat) (fwd : Bool)
  | forwarded
  | device
  deriving DecidableEq, Repr

/-- One request that waits at a regulator (R339): its traffic, its arrival order, and whether it can issue, that is, nothing but
regulation holds it back (R337). -/
structure Waiting where
  traffic : Traffic
  age : Nat
  eligible : Bool
  deriving DecidableEq, Repr

/-- One line read that reaches a shared store (R90): what it names and where it goes. `loc` is 0 device memory,
1 a share, 2 host memory, 3 a remote segment, 4 an atomic. -/
structure LineRead where
  line : Nat
  key : Nat
  part : Nat
  loc : Nat
  dest : Nat
  ctx : Nat
  gen : Nat
  deriving DecidableEq, Repr

/-- What a shared store is asked for by an arriving line (R90): `loc` as in `LineRead`, 0 device memory or 1 a share, the line, and what
the bank's code found in a word of it (R69): 0 good, 1 uncorrectable, 3 corrected. Log 232 (DESIGN CHOICE). -/
structure LineAt where
  loc : Nat
  line : Nat
  badWord : Nat := 0
  deriving DecidableEq, Repr

/-- A mover that works on its request, and what the code found in a word that it reads (R69, R102): 0 good, 1 uncorrectable, 3 corrected;
`badLine` is the share line of that word, or, of a SAVE, from 32,768 on its cell. Log 232 (DESIGN CHOICE). -/
structure MoverRun where
  mover : Nat
  badWord : Nat := 0
  badLine : Nat := 0
  deriving DecidableEq, Repr

/-- The lanes in error of a burst (R150), and those of the second read that a wrong tag asks for (R153). -/
structure BurstErrors where
  lanes : List Nat
  again : List Nat := []
  deriving DecidableEq, Repr

/-- What memory training finds (R154): for each channel named, its failed lanes. -/
abbrev TrainIn := List (Nat × List Nat)

/-- The commands (rows of the opcode table). Log 6 (DESIGN CHOICE). -/
inductive Instr where
  -- Register accesses (17_register_map, R5, R514-R522)
  | registerWrite (fn off size : Nat) (value : BitVec 64)
  | pairLowRead (fn off : Nat)
  | pairHighRead (fn off : Nat)
  | pairLowWrite (fn off : Nat) (value : Word)
  | pairHighWrite (fn off : Nat) (value : Word)
  -- Management epoch and what it detects
  | epochBoundary (steps : Nat)
  | powerModelDivergence
  | stragglerShift
  | refreshNormalReturn (tower : Nat)
  | hangDetect (kind idx : Nat)
  | roundOverrun (slice : Nat)
  | spanWaitExpire (q seq : Nat)
  | watchdogExpire (proc : Nat)
  | retireThreshold (unit idx : Nat)
  -- Islands, seam, clocks
  | handshakeWordReceive (src dst : Nat) (seq : BitVec 16) (word : BitVec 272)
  | seamWordReceive (dir line : Nat) (seq : BitVec 16) (word : BitVec 256) (badWires : Nat) (q seqNo : Nat)
  | supplyDroop (isl band cycles : Nat)
  -- Cells and routers
  | tensorOp (core cell slot : Nat) (badProg badA badB badSide : Nat)
  | vectorOp (core cell slot : Nat) (badWord : Nat)
  | moverRequest (core cell slot : Nat)
  | roundEnd (core cell : Nat)
  | jump (core cell : Nat)
  | branch (core cell : Nat)
  | repeat_ (core cell : Nat)
  | routerTokenForward (core cell port vc : Nat)
  -- Shared store and movers
  | shstReadRequest (core : Nat) (r : LineRead)
  | shstLineArrive (core : Nat) (line : LineAt) (key part : Nat)
  | lineIn (core mover : Nat)
  | lineOut (core : Nat) (run : MoverRun)
  | spread (core : Nat) (run : MoverRun)
  | bcast (core : Nat) (run : MoverRun)
  | gather (core : Nat) (run : MoverRun)
  | xcore (core : Nat) (run : MoverRun)
  | save (core : Nat) (run : MoverRun)
  | restore (core mover : Nat)
  | moverCompletion (core mover : Nat)
  | sliceQuiescent (slice : Nat)
  -- Moulds
  | mouldRegister (q seq : Nat)
  | mouldRegistrationDone (part id : Nat)
  | mouldRelease (q seq : Nat)
  | configLoad (slice q seq : Nat)
  | configLoadDone (slice : Nat) (badWord : Bool)
  | phaseCombine (q seq : Nat)
  | phaseStart (q seq : Nat)
  | boundaryReached (q seq : Nat)
  -- Narrow access path and DRAM
  | napLineRead (r : Req)
  | napLineWrite (r : Req) (data : Bytes)
  | napShortRead (r : Req) (size : Nat)
  | napPartialWrite (r : Req) (data : Bytes)
  | atomicAdd (r : Req) (wide ret : Bool) (operand : BitVec 64)
  | atomicSmin (r : Req) (wide ret : Bool) (operand : BitVec 64)
  | atomicSmax (r : Req) (wide ret : Bool) (operand : BitVec 64)
  | atomicUmin (r : Req) (wide ret : Bool) (operand : BitVec 64)
  | atomicUmax (r : Req) (wide ret : Bool) (operand : BitVec 64)
  | atomicSwap (r : Req) (wide : Bool) (operand : BitVec 64)
  | atomicCas (r : Req) (wide : Bool) (operand comparand : BitVec 64)
  | xadd (r : Req) (acc : BitVec 320) (spec : BitVec 2)
  | dramBurstReceived (chan cl : Nat) (errs : BurstErrors) (r : Req)
  | refreshRow (tower : Nat)
  | towerTempSample (tower : Nat) (temps : List Int)
  | patrolScrubLine (chan : Nat) (badLanes : List Nat)
  | repairSweepStart (fn chan : Nat) (value : Word)
  | repairSweepLine (chan : Nat)
  | regionValidSet (fn region : Nat) (value : Word)
  | regionValidClear (fn region : Nat) (value : Word)
  -- Segments and translation
  | segmentCommit (fn ctx seg : Nat) (value : Word)
  | segmentCancel (fn ctx seg : Nat) (value : Word)
  | segmentApplied (ctx seg : Nat)
  | atsTranslationCompletion (fn page : Nat) (pages bus : Nat) (rd wr err : Bool)
  | atsTimeout (fn page : Nat)
  | invalidationRequest (fn page pages : Nat)
  | invalidationCompletion (fn : Nat)
  | hostReadCompletion (q seq : Nat) (status : Nat) (dst : Nat) (data : Bytes)
  | hostDlogFlip (fn : Nat) (value : Word)
  | hostDlogFlipDone (func : Nat)
  | deviceDlogFlip (fn part : Nat) (value : Word)
  | deviceDlogFlipDone (part : Nat)
  -- Contexts and queues
  | contextActivate (fn ctx : Nat) (value : Word)
  | contextTeardown (fn ctx : Nat) (value : Word)
  | contextQuiesced (ctx : Nat)
  | queueEnable (fn q : Nat) (value : Word)
  | queueDisable (fn q : Nat) (value : Word)
  | queueRestart (fn q : Nat) (value : Word)
  | queueClearLatch (fn q : Nat) (value : Word)
  | doorbell (fn q : Nat) (tail : Word)
  | descriptorArrive (q : Nat) (ok : Bool) (desc : Bytes)
  | commandAccept (q : Nat) (args runs : Bytes)
  | commandStart (q seq : Nat)
  | commandResolve (q seq : Nat)
  | nop (q seq : Nat)
  | compute (q seq : Nat)
  | copy (q seq : Nat)
  | fill (q seq : Nat)
  | convert (q seq : Nat)
  | wait (q seq : Nat)
  | signal (q seq : Nat)
  | event (q seq : Nat)
  | fenceRearm (fn fence : Nat) (value : Word)
  | objectCreate (fn ctx : Nat) (value : Word)
  | objectFree (fn ctx : Nat) (value : Word)
  | objectForceFree (fn ctx : Nat) (value : Word)
  | evqHeadWrite (fn evq : Nat) (value : Word)
  | msixHoldoffExpire (fn vector : Nat)
  -- Partitions, re-binding, spans
  | partitionForm (fn part : Nat) (value : Word)
  | partitionActivate (fn part : Nat) (value : Word)
  | partitionDissolve (fn part : Nat) (value : Word)
  | partRangeWrite (fn part off : Nat) (value : Word)
  | functionAttach (fn part : Nat) (value : Word)
  | functionDetach (fn part : Nat) (value : Word)
  | handleMap (fn part : Nat) (value : Word)
  | sliceGrow (part : Nat)
  | sliceShrink (part : Nat)
  | channelBind (part : Nat)
  | channelRelease (part : Nat)
  | rebalance (part : Nat)
  | portBind (part : Nat)
  | portBindTimeout (part : Nat)
  | portUnbind (part : Nat)
  | portUnbindDrainDone (port : Nat)
  | rebindAbort (fn part : Nat) (value : Word)
  | spanSlotJoin (fn part slot : Nat) (value : Word)
  | spanJoinTimeout (part slot : Nat)
  | spanSlotLeave (fn part slot : Nat) (value : Word)
  | spanLeaveComplete (part slot : Nat)
  -- Scheduling
  | rtMaskWrite (fn part : Nat) (value : Word)
  | quantumExpire (ctx : Nat)
  | npDeadlineExpire (q seq : Nat)
  | runListSwap (fn part : Nat) (value : Word)
  | runListReadDone (part : Nat) (ok : Bool) (list : Bytes)
  | runListEntryEnd (part entry : Nat)
  -- Links
  | linkBlockSend (port : Nat) (data : Bool)
  | linkBlockReceive (port : Nat) (b : Block)
  | nakRepeat (port : Nat)
  | linkRekey (fn port : Nat) (value : Word)
  | rd (port : Nat) (t : Txn)
  | wr (port : Nat) (t : Txn)
  | atom (port : Nat) (t : Txn)
  | reduce (port : Nat) (t : Txn)
  | reduceSpc (port : Nat) (t : Txn)
  | fenceSig (port : Nat) (t : Txn)
  | rsp (port : Nat) (t : Txn)
  | barrier (port : Nat) (t : Txn)
  | spanJoin (port : Nat) (t : Txn)
  | spanAns (port : Nat) (t : Txn)
  | spanLeave (port : Nat) (t : Txn)
  | cmdCheck (port : Nat) (t : Txn)
  | cmdRefuse (port : Nat) (t : Txn)
  | heartbeat (port : Nat) (t : Txn)
  | heartbeatSend (port : Nat)
  | partnerState (port : Nat) (t : Txn)
  | bindReq (port : Nat) (t : Txn)
  | bindAck (port : Nat) (t : Txn)
  | bindRefuse (port : Nat) (t : Txn)
  | unbind (port : Nat) (t : Txn)
  | cert (port : Nat) (t : Txn)
  | keyOffer (port : Nat) (t : Txn)
  | keyProof (port : Nat) (t : Txn)
  | keySwitch (port : Nat) (t : Txn)
  | trunkSync (port : Nat) (t : Txn)
  | routeAdv (port : Nat) (t : Txn)
  | routeAdvTimer
  | requestExpire (tag : Nat)
  | portTrain (port : Nat) (strong half : Bool)
  | trainingFailure (port : Nat)
  | holdDownExpire (port : Nat)
  | linkRetrain (fn port : Nat) (value : Word)
  | rteSelfWrite (fn : Nat) (value : Word)
  | routeEntryWrite (fn : Nat) (value : Word)
  | partnerLossTimeout (port : Nat)
  | routeSwitch (dest : Nat)
  -- Regulation, power, temperature
  | regulatorIssue (reg : Nat) (waiting : List Waiting)
  | counterSnapshot (fn : Nat) (value : Word)
  | powerSample (mv deciA : Nat)
  | elecLimitActivate
  | elecLimitLift
  | inputLow
  | inputLowClear
  | thermalSample (kind idx : Nat) (temp : Int)
  | thermalTrip (kind idx : Nat)
  | hardThrottleLift (kind : Nat)
  -- Keys and isolation
  | keyArm (fn slot : Nat) (value : Word)
  | keyRetire (fn slot : Nat) (value : Word)
  | keyForce (fn slot : Nat) (value : Word)
  | secProtectSet (fn : Nat) (value : Word)
  | keyLockSet (fn : Nat) (value : Word)
  | keyUnlock (fn : Nat) (value : Word)
  | kftWrite (fn word : Nat) (value : Word)
  | spdmMessage (code stream : Nat)
  | ideIntegrityFail (stream : Nat)
  | lockInterface (func : Nat)
  | stopInterface (func : Nat)
  | functionLevelReset (func : Nat)
  | attestReport (version part : Nat) (nonce : Bytes)
  | certChainGet (sel : Nat)
  | ownerRetire (slot epoch : Nat) (key sig : Bytes)
  | vendorDebugEnter (token : Bytes)
  | commitSvn (fn : Nat) (value : Word)
  -- Recovery and retirement
  | engineReset (kind idx : Nat)
  | tastingTurn (outcome : Nat)
  | partitionReset (part : Nat)
  | deviceLevelReset (cause : Nat) (train : TrainIn)
  | powerCycleRequest (cause : Nat)
  | recoveryApprove (fn : Nat) (value : Word)
  | recoveryHold (fn : Nat) (value : Word)
  | recoveryRequest (fn : Nat) (value : Word)
  | sliceRetire (slice reason : Nat)
  | channelGroupRetire (group reason : Nat)
  | portRetire (port reason : Nat)
  | retireRequest (fn : Nat) (value : Word)
  | crumbClear (fn : Nat) (value : Word)
  -- Mailboxes, sideband, pins (src 0 tray controller over the sideband, 1 physical function)
  | getStatus (src : Nat) (tag : Word)
  | setCap (src : Nat) (tag : Word) (watts window : Nat)
  | readTelemetry (src : Nat) (tag : Word)
  | fwBegin (src : Nat) (tag : Word) (stage size : Nat)
  | fwData (src : Nat) (tag : Word) (off : Nat) (data : Bytes)
  | fwEnd (src : Nat) (tag : Word)
  | fwSessionTimeout
  | retireClear (src : Nat) (tag : Word) (type idx : Nat)
  | deviceReset (src : Nat) (tag : Word)
  | sbAlarmClear (value : Word)
  | modPwrEnAssert (mv : Nat) (train : TrainIn)
  | pwrOffTimeExpire (mv : Nat) (train : TrainIn)
  | devResetNRelease (train : TrainIn)
  | devThrottleNAssert (usTenths : Nat) (toggling : Bool)
  | stageStop (mv : Nat)
  -- BAR2, event queues by function, debug
  | bar2Read (off len : Nat)
  | bar2Write (off : Nat) (data : Bytes)
  | evqFnWrite (fn : Nat) (value : Word)
  | evqCtlWrite (fn evq : Nat) (value : Word)
  | ctxEvqHeadWrite (fn ctx : Nat) (value : Word)
  | testModeWrite (fn : Nat) (value : Word)
  | islandHalt (fn : Nat) (value : Word)
  | islandResume (fn : Nat) (value : Word)
  | debugRead (fn : Nat) (value : Word)
  | debugWrite (fn : Nat) (value : Word)
  | startInterface (func : Nat)
  | pcieLinkUp (gen width : Nat)
  | portEnableClear (fn port : Nat) (value : Word)
  | sbAlarmMaskWrite (value : Word)
  | msixVectorUnmask (fn vector : Nat)
  | atsEnable (fn : Nat) (on : Bool)
  | debugAccessPort (write : Bool) (isl unit space word : Nat) (value : Word) (close : Bool)
  -- Pins and power, events without an operand (last, so that no constructor with operands has an index above 244)
  | modPwrEnRemove
  | devResetNAssert
  | perstNAssert
  | perstNRelease
  | devThrottleNRelease
  | inputStuck
  | oscillatorStop
  | railFault
  deriving DecidableEq, Repr

end Sys2Proof
end

