-- ==== Sys2Proof/Config.lean ====
section
/-! DEFINITION. What an implementation fixes and what the spec leaves open: constants without a body, so that no proof
can rest on a value. A draw is numbered by the state's count of draws. -/

namespace Sys2Proof.Config

/-- A byte of host memory as a read finds it, by draw and position: the host's memory is outside the device. Log 9 (DESIGN CHOICE). -/
opaque hostByte : Nat → Nat → Byte

/-- A 32-bit random number of the device (INCARN, R321). -/
opaque random : Nat → Word

/-- A byte of what a sealed line shows without its key (R390, R513): kind, index, epoch, DPA of the line, the
plaintext as a number, position. Log 77 (DESIGN CHOICE). -/
opaque cipherByte : Nat → Nat → Nat → Nat → Nat → Nat → Byte

/-- A byte of the tag of a sealed line (R147, R390): kind, index, epoch, DPA of the line, the plaintext as a number, position.
Log 77 (DESIGN CHOICE). -/
opaque tagByte : Nat → Nat → Nat → Nat → Nat → Nat → Byte

/-- How far the device's exp, log2, reciprocal and reciprocal square root lie from the exactly rounded result, by input (R57): units
in the last place, taken modulo 5, less 2. -/
opaque exp : Nat → Nat
opaque log2 : Nat → Nat
opaque recip : Nat → Nat
opaque rsqrt : Nat → Nat

/-- A byte of a signature or a certificate chain: what signs or which chain, position. -/
opaque sigByte : Nat → Nat → Byte

/-- Silicon stepping of the capability header (R230). -/
opaque stepping : Word

/-- The fused voltage table (R351): units of 2.5 mV by island and anchor, 600, 1,200, 1,800, 2,100 and 2,400 MHz. -/
opaque voltage : Nat → Nat → Nat

/-- A value that the spec leaves open, by draw. Log 8 (DESIGN CHOICE). -/
opaque free : Nat → Nat

/-- What the spec's mould chapter leaves unstated (R111, R112). Of a class 1 instruction: which vector operation its OP names, and the
source and target formats of a conversion. Of a tensor instruction with given OP[7:4]: which operand is sparse (0 none, 1 SRC_A,
2 SRC_B), whether SRC_A is in the second format of a mixed pair, whether SRC_B's block is the one in the stationary-operand buffer.
Of an instruction word: the scratchpad line where the scale bytes and index codes of its operands stand. Log 36 (DESIGN CHOICE). -/
opaque vectorCode : Nat → Nat
/-- Log 36 (DESIGN CHOICE). -/
opaque vectorFrom : Nat → Nat
/-- Log 36 (DESIGN CHOICE). -/
opaque vectorTo : Nat → Nat
/-- Log 45 (DESIGN CHOICE). -/
opaque sparseSide : Nat → Nat
/-- Log 31 (DESIGN CHOICE). -/
opaque pairSwapped : Nat → Bool
opaque stationary : Nat → Bool
/-- Log 45 (DESIGN CHOICE). -/
opaque sideLine : Nat → Nat

/-- Of a mover-request word: a field of the request it sends (word, field). Of an instruction word: the route and tag of the token it
sends. The cell and the scratchpad line that a broadcast group or a mover route names, and the share line where a resident tile of
an argument that does not fit is read (R127). Log 49 (DESIGN CHOICE). -/
opaque moverField : Nat → Nat → Nat
/-- Log 48 (DESIGN CHOICE). -/
opaque tokenRoute : Nat → Nat
/-- Log 48 (DESIGN CHOICE). -/
opaque tokenTag : Nat → Nat
opaque spreadCell : Nat → Nat
/-- Log 49 (DESIGN CHOICE). -/
opaque spreadLine : Nat → Nat
/-- Log 71 (DESIGN CHOICE). -/
opaque residentLine : Nat → Nat

/-- The seam channel that carries a request (R21): a fixed function of the count of active seam channels and the line address.
Log 27 (DESIGN CHOICE). -/
opaque seamChannel : Nat → Nat → Nat

/-- The device's identity certificate chain (R324, R414): its length, its bytes; a partner's chain verifies against the
manufacturing authority; the public key that a chain vouches for. -/
opaque certLen : Nat
opaque certByte : Nat → Byte
opaque chainVerify : Bytes → Bool
opaque leafKey : Bytes → Bytes

/-- The digest of the fuses without the seed, by SVN_FUSED (R414); the attestation public key and its chain by running digests and
SVN_RUN (R382); a nonce of the device, by its number, and the public key of the debug authority (R405). -/
opaque fuseDigest : Nat → Nat
opaque attestKey : List Nat → Nat → Bytes
opaque attestChain : List Nat → Nat → Bytes
opaque nonce : Nat → Bytes
opaque debugKey : Bytes

/-- The digest of an image of manufacture, by stage × 2 + bank (R379). Log 189 (DESIGN CHOICE). -/
opaque factoryDigest : Nat → Nat

/-- A byte that the spec leaves open, by draw and position. Log 8 (DESIGN CHOICE). -/
opaque freeByte : Nat → Nat → Byte

/-- The selective IDE stream that carries a function's DMA and MSI-X: its RID association stands in configuration space, outside
the registers of the spec (R410). Log 184 (DESIGN CHOICE). -/
opaque ideStream : Nat → Nat

/-- A signature verifies: key, message, signature (ECDSA P-384 with SHA-384). Log 187 (DESIGN CHOICE). -/
opaque ecdsaVerify : Bytes → Bytes → Bytes → Bool

/-- What the header of a firmware image says (R379), whose layout the spec does not give: whether the signer's key is fused and not
revoked and the signature verifies; the security version number. Log 189 (DESIGN CHOICE). -/
opaque imageSigned : Bytes → Bool
/-- Log 189 (DESIGN CHOICE). -/
opaque imageSvn : Bytes → Nat

end Sys2Proof.Config
end

