-- ==== Sys2Proof/Machine/State.lean ====
section
/-! DEFINITION. The state of the block as plain data: the registers of every page, the units' own storage, the queue of
waiting commands, the reasons a step can stop, and the state of a module that has never been powered. -/

namespace Sys2Proof.Machine

open Sys2Proof

/-- Why a step stops with a fault. No rule of the spec makes a command of this block end the machine, and no meaning
answers with it; the constructor keeps the type inhabited. Safe: nothing raises it. -/
inductive Fault where
  | never
  deriving DecidableEq, Repr

/-- Why a command has no meaning. Log 2 (DESIGN CHOICE). -/
inductive Refusal where
  /-- The row has no meaning yet. Raised by the dispatch only. Safe: the run stops. -/
  | notModelled (mnemonic : String)
  /-- The command names a unit, page, handle or identifier beyond the device's counts (R14: such a request is refused).
  Raised by any meaning whose operand is out of range. Safe: the run stops. -/
  | noSuchUnit
  deriving DecidableEq, Repr

/-- Sparse storage by number: keys strictly rising, no entry equal to what an unlisted key holds. -/
abbrev Tab (α : Type) := List (Nat × α)

/-- What leaves the module: writes and messages to the host, completions, link traffic, sideband answers. Log 10 (DESIGN CHOICE). -/
inductive Out where
  /-- A memory write to host memory at an address of a function, with AT set to Translated or not (R180, R184, R187, R209, R226). -/
  | hostWrite (fn addr : Nat) (translated : Bool) (data : Bytes)
  /-- A read request to host memory for a command. -/
  | hostRead (fn addr len : Nat) (translated : Bool)
  /-- An MSI-X message of a function's vector (R228). -/
  | msix (fn vector : Nat)
  /-- The completion of a register or BAR2 read with its data. -/
  | readData (fn : Nat) (data : Bytes)
  /-- A completion with Unsupported Request (R513, R514). -/
  | unsupported (fn : Nat)
  /-- A completion with Completer Abort (R513). -/
  | completerAbort (fn : Nat)
  /-- A PCI Express Translation Request (R180). -/
  | atsRequest (fn page : Nat)
  /-- The Invalidation Completion of a function (R182). -/
  | invalDone (fn : Nat)
  /-- A transaction sent on a link port (R307). -/
  | link (port : Nat) (t : Txn)
  /-- A block sent on a link port with the fields of its control word (R295). -/
  | block (port type : Nat) (nak : Bool) (lseq lack : Nat) (gend : Bool) (crBuf crCnt : Nat)
  /-- A read served to a fabric requester: queue and sequence number of its command and the bytes. -/
  | served (q seq : Nat) (data : Bytes)
  /-- A request answered with a bus error to its requester (R169). -/
  | busError (q seq : Nat)
  /-- The regulator's choice at an issue opportunity (R339). -/
  | issue (reg client cls age : Nat)
  /-- A DOE response: object type, status, bytes (R412). -/
  | doe (type status : Nat) (data : Bytes)
  /-- A data word returned through the debug access port (R404). -/
  | jtag (refused : Bool) (data : Word)
  deriving DecidableEq, Repr

/-- A long accumulator: A and the special state (R41). -/
structure LongAcc where
  a : BitVec 320 := 0
  spec : BitVec 2 := 0
  deriving DecidableEq, Repr

/-- A cell apart from its scratchpad (R67-R78, R111): mould configuration, registers, channels, router buffers,
program position. By long accumulator number: `part32` the chunk results of each FP32 dot product and `prods` the products of its
chunk in progress (R54, R71), `add32` its addend; `accs` the accumulators that hold an output of the round. `steps` counts the
firings of a tensor slot in the tile, `outs` the output tiles the cell has rounded in it. `reps` holds how often a REPEAT slot has
still to go back; `link` is keyed by port × 2 + channel (ports 0 north, 1 east, 2 south, 3 west, 4 local; channel 0 data,
1 control). -/
structure CellSt where
  prog : Tab (BitVec 64) := []
  routes : Tab (BitVec 64) := []
  chan : Tab Word := []
  entry : Tab Nat := []
  vreg : Tab (BitVec 512) := []
  preg : Tab (BitVec 16) := []
  lacc : Tab LongAcc := []
  part32 : Tab (List Nat) := []
  prods : Tab (List Nat) := []
  add32 : Tab (Option Nat) := []
  accs : List Nat := []
  steps : Tab Nat := []
  outs : Nat := 0
  stat : Bytes := []
  inCh : Tab (List (BitVec 272)) := []
  outCh : Tab (List (BitVec 272)) := []
  link : Tab (List (BitVec 272)) := []
  pc : Nat := 0
  fired : List Nat := []
  reps : Tab Nat := []
  ended : Bool := true
  deriving DecidableEq, Repr

/-- A request held by a data mover (R96): the operation (0 LINE_IN, 1 LINE_OUT, 2 SPREAD, 3 BCAST, 4 GATHER, 5 XCORE,
6 SAVE, 7 RESTORE), its command, its address (location as in R171) and its places on the fabric; `islands` the islands of the core
that a broadcast goes to; how many lines it has asked for, how many bytes have come back, where they lie in the command's stream of
arriving bytes; whether it belongs to the preamble of a tile (R124). -/
structure MoverReq where
  op : Nat
  q : Nat := 0
  seq : Nat := 0
  ctx : Nat := 0
  gen : Nat := 0
  key : Nat := 0
  loc : Nat := 0
  addr : Nat := 0
  dev : Nat := 0
  range : Nat := 0
  share : Nat := 0
  lines : Nat := 0
  cell : Nat := 0
  sline : Nat := 0
  group : Nat := 0
  core : Nat := 0
  route : Nat := 0
  islands : Nat := 0
  sent : Nat := 0
  back : Nat := 0
  base : Nat := 0
  pre : Bool := false
  done : Bool := false
  deriving DecidableEq, Repr

/-- Where a line read goes (R90): a cell of the core, or a line of a slice's share for a mover. -/
inductive LineDest where
  | cell (c : Nat)
  | share (slice sline mover : Nat)
  deriving DecidableEq, Repr

/-- One outstanding line read (R90, R91): location (0 device memory, 1 a share), line, key index, partition, destinations,
whether it still accepts merges. -/
structure Merge where
  loc : Nat := 0
  line : Nat
  key : Nat
  part : Nat
  dests : List LineDest
  isOpen : Bool := true
  deriving DecidableEq, Repr

/-- A shared store: merge table, the reads that issued while the table was full, movers, and the requests dropped at a share of
another partition (R88-R97). -/
structure CoreSt where
  merge : List Merge := []
  loose : List Merge := []
  movers : Tab (List MoverReq) := []
  dropped : Nat := 0
  deriving DecidableEq, Repr

/-- What a slice holds and runs: its configuration (partition, mould ID, registration serial; R120) and the one that last
failed with an uncorrectable word (R103), the context and command it serves (R268), the tile handed out (R123), its
resident tiles (R127), the requests of its tile that wait for a place in a mover's queue as (mover, request) (R95), and its marks;
`cycles` counts the firings of the present round (R430). -/
structure SliceSt where
  cfg : Option (Nat × Nat × Nat) := none
  badCfg : Option (Nat × Nat × Nat) := none
  loading : Bool := false
  groups : Tab Bytes := []
  ctx : Option Nat := none
  cmd : Option (Nat × Nat) := none
  tile : Option Nat := none
  resident : List Nat := []
  queued : List (Nat × MoverReq) := []
  leaving : Bool := false
  stopped : Bool := false
  rtHold : Bool := false
  cycles : Nat := 0
  deriving DecidableEq, Repr

/-- Which key a stored line was sealed with (R389, R390): kind 0 plaintext, 1 slot, 2 configuration key, 3 save key;
index and arming of that key, and the line address the seal binds. -/
structure Seal where
  kind : Nat := 0
  idx : Nat := 0
  epoch : Nat := 0
  line : Nat := 0
  deriving DecidableEq, Repr

/-- A line buffer of the narrow access path (R160). `since` is when it became dirty (R162). -/
structure NapBuf where
  cl : Nat
  key : Nat
  part : Nat
  dirty : Bool := false
  since : Nat := 0
  dpa : Nat := 0
  data : Bytes := []
  deriving DecidableEq, Repr

/-- A channel's lanes, repair sweep and scrub (R154, R155, R159); `dead` are spare lanes that training found failed. -/
structure ChanSt where
  eras : List Nat := []
  spared : List Nat := []
  dead : List Nat := []
  sweep : Option (Nat × Nat) := none
  scrub : Nat := 0
  deriving DecidableEq, Repr

/-- A tower's sensors and refresh (R156, R157): last readings, samples each has stood still, what every sensor read when
sensor d last changed (at 8 × d + e), the sensors whose neighbours have moved by 2 °C since, whole epochs at or below
82 °C, whole epochs all valid, whether this epoch has seen a sample above 82 °C or an invalid one, the row refreshed
next. -/
structure TowerSt where
  last : List Int := []
  still : List Nat := []
  base : List Int := []
  moved : List Nat := []
  cool : Nat := 0
  valid : Nat := 0
  warm : Bool := true
  sick : Bool := true
  row : Nat := 0
  deriving DecidableEq, Repr

/-- An entry of a partition's mould table (R104): state 0 FREE, 1 CHECKING, 2 READY, 3 RELEASING. `regBy` is the
registration that checks it; `serial` tells registrations of one ID apart (R120); `start` is the place of the copy in the
partition's mould store (R105). -/
structure Mould where
  state : Nat := 0
  digest : Nat := 0
  count : Nat := 0
  image : Bytes := []
  start : Option Nat := none
  serial : Nat := 0
  regBy : Option (Nat × Nat) := none
  deriving DecidableEq, Repr

/-- A pending narrowing change of a segment (R175): the staged words, and whether it has applied while PENDING still
reads 1. -/
structure SegPend where
  words : List Word := []
  applied : Bool := false
  rebal : Bool := false
  deriving DecidableEq, Repr

/-- A stored host translation (R178, R180, R182); `err` is a completion in error or a timeout, kept until the waiting
command is refused. -/
structure Trans where
  fn : Nat
  page : Nat
  pages : Nat
  bus : Nat
  rd : Bool
  wr : Bool
  marked : Bool := false
  err : Bool := false
  deriving DecidableEq, Repr

/-- A named range of an accepted command with its translation (R178): segment, location, resolved key index, physical
address of its first byte, length, rights used (1 read, 2 write, 4 atomic), object handle, remote device, the
host runs as (IOVA page, pages, bus address), and whether these are bus addresses (R180, R184). Log 103 (DESIGN CHOICE). -/
structure Range where
  seg : Nat := 0
  loc : Nat := 0
  key : Nat := 0
  addr : Nat := 0
  len : Nat := 0
  need : Nat := 0
  handle : Nat := 0xFFF
  dev : Nat := 0
  runs : List (Nat × Nat × Nat) := []
  bus : Bool := false
  deriving DecidableEq, Repr

/-- The spreader's cursor for a running COMPUTE (R122-R137) and its span exchange (R316): tiles handed out and done, and in
a RESIDENT phase how many of each resident tile's; the command's warnings when the phase started (R53). -/
structure Spread where
  phase : Nat := 0
  iter : Nat := 0
  next : Nat := 0
  res : Tab Nat := []
  done : Nat := 0
  active : Bool := false
  combined : Bool := false
  bar : Nat := 0
  waiting : Bool := false
  waitFrom : Nat := 0
  waitAcc : Nat := 0
  warn : Nat := 0
  deriving DecidableEq, Repr

/-- An accepted, unresolved command (R195, R52, R178). `buf` and `got` collect source bytes that arrive from the host or a link, `asked`
counts the bytes its movers have asked for. `work` is set when its work has ended; `code` is then 0 or the
fence error code it breaks with; `stop` is a code to break with at the next preemption point. `written` says that its
writes have been sent, `recorded` that its completion record has, `fenced` that its fence has already been broken
(R215, R457), at management-clock count `at_` (R209). -/
structure Cmd where
  q : Nat
  seq : Nat
  desc : Bytes
  ctx : Nat := 0
  gen : Nat := 0
  part : Nat := 0
  acw : Nat := 0
  seed : Nat := 0
  safe : Bool := false
  ranges : List Range := []
  started : Bool := false
  work : Bool := false
  skip : Bool := false
  code : Nat := 0
  detail : Nat := 0
  srcKind : Nat := 4
  srcId : Nat := 0
  remote : Nat := 0
  startNo : Nat := 0
  stop : Nat := 0
  boundary : Bool := false
  buf : Bytes := []
  got : Nat := 0
  asked : Nat := 0
  written : Bool := false
  recorded : Bool := false
  fenced : Bool := false
  at_ : Option Nat := none
  held : Bool := false
  retrans : Bool := false
  issued : Bool := false
  warn : Nat := 0
  result : Nat := 0
  spanNo : Nat := 0
  tq : Option Nat := none
  spr : Spread := {}
  deriving DecidableEq, Repr

/-- A memory object (R224): state 0 FREE, 1 LIVE, 2 FREEING. -/
structure Obj where
  state : Nat := 0
  seg : Nat := 0
  off : Nat := 0
  len : Nat := 0
  deriving DecidableEq, Repr

/-- A vector of MSI-X: masked, message held back by the mask, time of the last message, message deferred (R228). -/
structure Vec where
  masked : Bool := true
  pend : Bool := false
  last : Option Nat := none
  deferred : Bool := false
  deriving DecidableEq, Repr

/-- A partition's re-bind engine (R243-R257): the operation, its step, the step of a rebalance in it (R251) with the passes
run, the slices bound before, the request it was started with, blocks marked, commands whose boundary is awaited. -/
structure Rebind where
  op : Nat := 0
  step : Nat := 0
  sub : Nat := 0
  pass : Nat := 0
  had : Nat := 0
  slices : Nat := 0
  chans : Nat := 0
  ports : Nat := 0
  slot : Nat := 0
  move : Bool := false
  src : Nat := 0
  dst : Nat := 0
  span : Nat := 0
  log : List Nat := []
  waitFor : List (Nat × Nat) := []
  deriving DecidableEq, Repr

/-- A span slot's join in progress (R260): ranks whose join message, and whose answer, are held; ranks that have left; and
checks and refusals of span commands not yet come to here, as (command number, sender, payload; empty for a refusal). -/
structure JoinSt where
  joins : List Nat := []
  answers : List Nat := []
  left : List Nat := []
  checks : List (Nat × Nat × Bytes) := []
  deriving DecidableEq, Repr

/-- A barrier token held (R316): partition × 8 + slot, command number, barrier, rank, WAIT_ACC, arrival order. -/
structure Tok where
  slot : Nat
  cmd : Nat
  bar : Nat
  rank : Nat
  acc : Nat
  deriving DecidableEq, Repr

/-- A context under the scheduler (R268-R275): start and length of its quantum in management-clock counts, the moment its
preemption was requested, when its slice time was last counted, the configurations of its saved slices by rank (R279,
R283), and the state of its teardown (R456). -/
structure CtxSt where
  quantum : Option Nat := none
  qlen : Nat := 0
  tq : Option Nat := none
  since : Nat := 0
  saved : Option (List (Option (Nat × Nat × Nat))) := none
  tearCode : Nat := 0
  tearStep : Nat := 0
  deriving DecidableEq, Repr

/-- A partition under the scheduler: context served last at each priority (R269), the run list in force as (context,
flags, slices, duration), the one read by a SWAP, the entries of the group now running and those of them that have ended
(R286-R289), whether a switch has slices to hand over; blocks of the dirty log and of one being written out (R189). -/
structure PartSt where
  last : Tab Nat := []
  list : List (Nat × Nat × Nat × Nat) := []
  fresh : Option (List (Nat × Nat × Nat × Nat)) := none
  group : List Nat := []
  ended : List Nat := []
  switching : Bool := false
  dlog : List Nat := []
  dlogOld : List Nat := []
  deriving DecidableEq, Repr

/-- A data block in a replay buffer (R296): its LSEQ, TYPE and GEND, its place in the trunk's rotation for trunk traffic,
whether LACK covers it. -/
structure RepBlk where
  lseq : Nat
  type : Nat
  gend : Bool := false
  ord : Option Nat := none
  acked : Bool := false
  deriving DecidableEq, Repr

/-- A link port (R295-R305, R323-R326). Sender: next LSEQ, replay buffer, group counter and open group size, credits taken
by buffer, transactions that wait for credits, slots of the port's own traffic to put into blocks, times of NAKs received, the
LSEQ that the last ones asked for and how many did. Receiver: expected LSEQ, first LSEQ and trunk blocks of the group in assembly,
blocks verified and not yet taken in rotation, whether it waits for the expected LSEQ and whether its next block says NAK,
whether it discards trunk blocks until the partner's TRUNK_SYNC comes (R319 step 1), failures of the group's tag, credits owed. Keying: partner's chain
and offer, own offer, whether the chain and the proof verified, keys installed in each direction, rekey step (1 draining,
2 offer sent, 3 switch sent). Loss, hold-down and training times. Binding: span identity the port is bound to, partitions whose
BIND_REQ on it has no answer yet, in order, and the identity of a BIND_REQ that this end has not answered yet (R257, R331). -/
structure LinkSt where
  txSeq : Nat := 0
  replay : List RepBlk := []
  groups : Nat := 0
  groupLen : Nat := 0
  credits : Tab Nat := []
  shared : Nat := 3696
  queue : List Txn := []
  slots : Nat := 0
  nakTimes : List Nat := []
  nakSame : Nat × Nat := (0, 0)
  rxSeq : Nat := 0
  rxGroup : Option Nat := none
  rxTrunk : Nat := 0
  rxWait : Nat := 0
  sinceIdle : Nat := 0
  nakWait : Bool := false
  nakDue : Bool := false
  syncWait : Bool := false
  tagFails : Nat := 0
  owed : Tab Nat := []
  keyed : Bool := false
  chain : Bytes := []
  offer : Bytes := []
  ownOffer : Bytes := []
  certOk : Bool := false
  rekey : Nat := 0
  txKey : Nat := 0
  rxKey : Nat := 0
  fails : List Nat := []
  heldAt : Option Nat := none
  lostAt : Option Nat := none
  hbSeq : Nat := 0
  bindTo : Nat := 0
  bindBy : List Nat := []
  bindReq : Nat := 0
  draining : Bool := false
  deriving DecidableEq, Repr

/-- A trunk (R318, R319): data blocks placed in rotation and taken in rotation, modulo 2^32, those that the partner has taken,
slots that wait for a block, blocks to place again from `tx` on (R319 step 3), whether it is re-forming. -/
structure TrunkSt where
  tx : Nat := 0
  rx : Nat := 0
  acked : Nat := 0
  slots : Nat := 0
  redo : Nat := 0
  sync : Bool := false
  deriving DecidableEq, Repr

/-- A request of this device that has no response yet (R310): its command, destination, first-hop port and trunk, time of
issue and opcode; where the data of a read go among the command's source bytes (`base`, after `skip` bytes, `take` of
them); whether it writes a completion record; whether it is resolved already though its tag is not free (R327). -/
structure LinkReq where
  q : Nat := 0
  seq : Nat := 0
  ctx : Nat := 0
  dst : Nat := 0
  port : Nat := 0
  trunk : Nat := 0
  at_ : Nat := 0
  op : Nat := 0
  slot : Nat := 0
  base : Nat := 0
  skip : Nat := 0
  take : Nat := 0
  record : Bool := false
  dead : Bool := false
  deriving DecidableEq, Repr

/-- A route entry (R320, RTE_DATA): STATE 0 UNREACHABLE, 1 PRIMARY, 2 ALT, 3 LOCAL. `adv` lists what neighbours
advertise as (neighbour, hops); `held` the requests that wait for the switch of R322. -/
structure Route where
  valid : Bool := false
  state : Nat := 0
  next : Nat := 0
  alt : Nat := 0
  hops : Nat := 0
  learned : Bool := false
  hold : Bool := false
  adv : List (Nat × Nat) := []
  held : List (LinkReq × Txn) := []
  deriving DecidableEq, Repr

/-- A regulator (R339, R340, R348), by client × 3 + class: minimum credit in 256ths of an issue, weighted service received as a
virtual time (at 200 + class that of the class), BYTES and STALLS; last client served by class under rule 1, and under rule 2
at index 3; which of the last 255 issues rule 4 made, newest first; arrival orders of the requests that hold a request slot (R346). -/
structure Regl where
  credit : Tab Nat := []
  share : Tab Nat := []
  bytes : Tab Nat := []
  stalls : Tab Nat := []
  rr : Tab Nat := []
  hist : List Bool := []
  slots : List Nat := []
  deriving DecidableEq, Repr

/-- The clock of a compute island on its way to the effective ceiling (R86): `base` thousandths of 25 MHz at count `at_`, rising by
`rate` thousandths a count. -/
structure Ramp where
  base : Nat := 24000
  at_ : Nat := 0
  rate : Nat := 0
  deriving DecidableEq, Repr

/-- An island that runs filling (R364, R365): since which count, from which count on its time is yet to be counted, its own tensor-unit
duty before, in 1/256. -/
structure Fill where
  since : Nat
  from_ : Nat
  duty : Nat
  deriving DecidableEq, Repr

/-- Power (R353-R375). Samples of the epoch: their sum in 0.1 mW, their count, samples in a row above 2,000 W and below 1,900 W,
whether the limiter has judged the last one, current and estimate while the current stands still. Plausibility: whether the
measurement is implausible, was so in this epoch, whole epochs without. Epochs of disagreement and of agreement. Power in use of
past epochs, newest first. The estimate scale in units of 2^-40. Caps, sensor kinds above their control target; the profile word in
force, the grade trained; lever position; the electrical limits by island. Straggler of past epochs and epochs without a rise; epochs without a STEADY breach. Guardbands by island, deep-droop cycles of the
epoch, epochs without one; the clock ramps and the filling of islands, counts of filling short of an island-millisecond. -/
structure PowerSt where
  sum : Nat := 0
  count : Nat := 0
  hiRun : Nat := 0
  loRun : Nat := 0
  judged : Bool := true
  lastA : Nat := 0
  stillA : Nat := 0
  stillEst : Nat := 0
  bad : Bool := false
  badNow : Bool := false
  goodEpochs : Nat := 0
  divEpochs : Nat := 0
  agreeEpochs : Nat := 0
  hist : List Nat := []
  thermalCap : Nat := 2000
  above : List Nat := []
  trayCap : Nat := 2000
  trayWin : Nat := 10
  hostCap : Nat := 2000
  hostCeil : Nat := 96
  prof : Nat := 0x601
  grade : Nat := 0
  level : Nat := 0
  elec : Tab Nat := []
  elecOn : Bool := false
  scale : Nat := 2 ^ 40
  stragHist : List Nat := []
  stragQuiet : Nat := 0
  steadyQuiet : Nat := 256
  guard : Tab Nat := []
  deep : Tab Nat := []
  deepQuiet : Tab Nat := []
  ramps : Tab Ramp := []
  fills : Tab (Option Fill) := []
  fillRem : Nat := 0
  energyRem : Nat := 0
  deriving DecidableEq, Repr

/-- Thermal limits (R369-R372), by kind × 256 + index (1 junction, 2 tower, 3 base die, 4 power stage): last reading, samples in a
row at the trip limit; islands whose sensor is faulty; whether a trip holds. -/
structure ThermSt where
  temp : Tab (Option Int) := []
  trips : Tab Nat := []
  faulty : List Nat := []
  tripped : Bool := false
  deriving DecidableEq, Repr

/-- A firmware image (R379): whether its signature verifies and its signer is a fused, unrevoked key, its SVN, its
digest (none for the image of manufacture). -/
structure Image where
  good : Bool := true
  svn : Nat := 0
  digest : Option Nat := none
  deriving DecidableEq, Repr

/-- The serial flash (R380, R452, R480, R506): the images by stage × 2 + bank, the bank of the boot record, the images
staged for the next boot and their bank, the retirement records as (entry type, index, reason), the last power-cycle cause. -/
structure Flash where
  images : Tab Image := []
  bank : Nat := 0
  staged : Tab Image := []
  next : Nat := 0
  retired : List (Nat × Nat × Nat) := []
  cause : Nat := 0
  deriving DecidableEq, Repr

/-- The security island (R378-R420): fused SVN, digests of the running images, vendor debug, entropy health, TDI
states (0 CONFIG_UNLOCKED, 1 CONFIG_LOCKED, 2 RUN, 3 ERROR), secure IDE streams, key-flow
rows that differ from their defaults (partition × 256 + row), serials of configuration and save keys, resets that have zeroised
the keys, the partition that an unlock in progress names (R398). -/
structure SecSt where
  svnFused : Nat := 0
  svnRun : Nat := 0
  runDigest : List Nat := []
  vendor : Bool := false
  entropyBad : Bool := false
  latched : Bool := false
  tdi : Tab Nat := []
  ide : Tab Bool := []
  kft : Tab Nat := []
  cfgKey : Tab Nat := []
  saveKey : Tab Nat := []
  serial : Nat := 0
  jtag : Bool := false
  nonce : Nat := 0
  boots : Nat := 0
  unlocking : Nat := 0
  deriving DecidableEq, Repr

/-- Progress of an engine (R429), keyed by kind × 256 + index: its beacon advanced in the present epoch, and whole
epochs with work and without an advance. -/
structure Beacon where
  moved : Bool := false
  stale : Nat := 0
  deriving DecidableEq, Repr

/-- Recovery (R432-R450): suspects still to taste, all of the tasting, the command whose turn runs, the scope under tasting; times
of device-level resets; the last tasting end by scope as (count + 1); the fence code that started the level; the command that missed
its deadline; management counts since power-up before the clock last started at 0; whether the level waited for has been approved;
faults by row × 1024 + unit as (time, what); the commands whose issued requests a reset waits for (R435 step 3), with the count at
which the wait began; slices whose retirement is in progress (R453). -/
structure RcvSt where
  suspects : List Nat := []
  named : List Nat := []
  turn : Option (Nat × Nat) := none
  scope : Option (Nat × Nat) := none
  resets : List Nat := []
  tasted : Tab Nat := []
  cause : Nat := 0
  late : Option (Nat × Nat) := none
  past : Nat := 0
  approved : Bool := false
  faults : Tab (List (Nat × Nat)) := []
  drain : Option (Nat × List (Nat × Nat)) := none
  retiring : List Nat := []
  deriving DecidableEq, Repr

/-- A request collected during an epoch (R468, R469): source (0 tray controller, 1 physical function, 2 Skeldor), kind
(0 re-bind start, 1 retirement, 2 retirement clearing, 3 reset, 4 firmware staging), its arguments, and the tag of the mailbox
request it came as. -/
structure Collected where
  src : Nat
  kind : Nat
  a : Nat := 0
  b : Nat := 0
  tag : Nat := 0
  deriving DecidableEq, Repr

/-- Management (R461-R477): requests collected, epochs without the watchdog signal, the sideband's alarm registers and mailbox, the
staging session as (source, stage, size) and the bytes it has brought; the partitions whose re-bind starts were served at this boundary and,
newest first, the counts of stalls and issues of past boundaries by channel × 64 + client × 2 (R252). -/
structure MgmtSt where
  collected : List Collected := []
  wdog : Nat := 0
  alarm : Nat := 0
  alarmMask : Nat := 0
  sbReq : Bytes := []
  sbRsp : Bytes := []
  sbBusy : Bool := false
  sbDone : Bool := false
  session : Option (Nat × Nat × Nat) := none
  sessionData : List Host.Cell := []
  served : List Nat := []
  stallHist : List (Tab Nat) := []
  deriving DecidableEq, Repr

/-- The pins and the stage controller (R478-R481, R490, R501): filtered inputs, outputs, power stages. -/
structure Pins where
  pwrEn : Bool := false
  resetN : Bool := true
  perstN : Bool := true
  throttle : Bool := false
  throttleCont : Bool := false
  stuck : Bool := false
  pgood : Bool := false
  alertN : Bool := true
  tripN : Bool := true
  cycleN : Bool := true
  offTimer : Bool := false
  heldOn : Bool := false
  stopLatch : Bool := false
  oscStopped : Bool := false
  linkUp : Bool := false
  deriving DecidableEq, Repr

/-- The machine. -/
structure State where
  /-- Commands waiting, first in, first out. -/
  pending : List Instr := []
  /-- Management-clock count (R11). -/
  mclk : Nat := 0
  /-- The model's own: how many free values have been drawn. -/
  draws : Nat := 0
  /-- What has left the module, newest first. -/
  out : List Out := []
  /-- Registers of every page by BAR0 offset of the physical function (R526); an unlisted one holds its reset value. -/
  regs : Tab Word := []
  /-- High words latched by a pair read, keyed by function × 2^26 + offset of the low word (R5, R517). -/
  pairLatch : Tab (Option Word) := []
  /-- Low words held by a pair write (R5, R517). -/
  pairHeld : Tab (Option Word) := []
  /-- RWO registers written since reset (R6). -/
  rwo : Tab Bool := []
  /-- Capability entry states that differ from their defaults, keyed by type × 1024 + index (R232). -/
  capt : Tab Nat := []
  /-- Retirement reasons that the table shows, by the same key. -/
  captReason : Tab Nat := []
  captGen : Nat := 0
  ready : Bool := false
  /-- Receive sequence of each handshake channel, keyed by source × 256 + destination (R25), and its FIFO (R26). -/
  hsSeq : Tab Nat := []
  hsFifo : Tab (List (BitVec 272)) := []
  /-- Handshake errors of the islands that have no ISL page, by island number (R25). -/
  hsErr : Tab Nat := []
  /-- Seam receiving FIFOs, keyed by direction × 192 + channel (R22). -/
  seamSeq : Tab Nat := []
  seamFifo : Tab (List (BitVec 256)) := []
  /-- Words a seam island corrected and dropped, by seam channel (R20). -/
  seamErr : Tab (Nat × Nat) := []
  /-- Droop band of each compute island's supply (R85). -/
  droop : Tab Nat := []
  /-- Cells by core × 4096 + cell number (R64). -/
  cells : Tab CellSt := []
  /-- Scratchpad bytes, keyed by (core × 4096 + cell) × 32768 + byte. -/
  spad : List Host.Cell := []
  /-- Share bytes, keyed by slice × 2^23 + byte (R89). -/
  share : List Host.Cell := []
  cores : Tab CoreSt := []
  slices : Tab SliceSt := []
  /-- Gates between two slices of a core that are open, as slice × 32 + slice (R83). -/
  gates : List Nat := []
  /-- Device memory bytes as plaintext of their seal, keyed by channel × 2^31 + line × 256 + byte. -/
  mem : List Host.Cell := []
  /-- Seals of stored lines, keyed by channel × 2^23 + line. -/
  seals : Tab Seal := []
  /-- Lines whose stored burst cannot be read: 1 uncorrectable in codeword 0, 2 in codeword 1, 3 wrong in its tag bytes (R152, R153). -/
  badLines : Tab Nat := []
  nap : Tab (List NapBuf) := []
  /-- Generation copies of the narrow access paths (R163). -/
  gens : Tab Nat := []
  chans : Tab ChanSt := []
  towers : Tab TowerSt := []
  /-- Moulds by partition × 64 + ID. -/
  moulds : Tab Mould := []
  /-- Registrations that wait on a digest in CHECKING (R105). -/
  mouldWait : List (Nat × Nat) := []
  mouldSerial : Nat := 0
  /-- Staging words of segment entries, by BAR0 offset (R173). -/
  segStage : Tab Word := []
  segPend : Tab SegPend := []
  trans : List Trans := []
  /-- Translation Requests outstanding, as (function, page). -/
  xreq : List (Nat × Nat) := []
  atsOn : Tab Bool := []
  /-- Invalidations to complete, by function. -/
  inval : List Nat := []
  /-- Words of host dirty bitmaps that the device holds, by (function × 2 + bitmap) × 2^32 + word (R187, R188). -/
  dlogWords : Tab (Option Nat) := []
  /-- Queue tails (R194). -/
  tails : Tab Word := []
  /-- Fetched descriptors at the heads of queues. -/
  heads : Tab (Option Bytes) := []
  /-- Accepted, unresolved commands of each queue in sequence order. -/
  cmds : Tab (List Cmd) := []
  /-- Breaks that hold the broken latch of a queue: sequence number and first code of the chain (R214, R221). -/
  latched : Tab (List (Nat × Nat)) := []
  objs : Tab Obj := []
  /-- Function of each event queue (GLB_EVQ_FN, R527). -/
  evqFn : Tab Nat := []
  /-- Records dropped since the last OVERFLOW record (R227). -/
  evqLost : Tab Nat := []
  vecs : Tab Vec := []
  /-- Handle maps, keyed by (function × 4 + kind) × 1024 + handle (R242). -/
  maps : Tab (Option Nat) := []
  /-- Partition a function is attached to. -/
  attach : Tab (Option Nat) := []
  rebind : Tab Rebind := []
  /-- Span member tables, keyed by (partition × 8 + slot) × 4096 + rank. -/
  spanTbl : Tab Nat := []
  joins : Tab JoinSt := []
  /-- Span commands accepted so far by slot (R308). -/
  spanNo : Tab Nat := []
  toks : List Tok := []
  ctxs : Tab CtxSt := []
  parts : Tab PartSt := []
  links : Tab LinkSt := []
  /-- Trunks by ownership group × 4096 + neighbour: a group is partition × 8 + span slot, or 256 for the forward pool. -/
  trunks : Tab TrunkSt := []
  /-- Join messages that no slot of theirs waits for yet, as (span, rank, sender, payload) (R260). -/
  earlyJoins : List (Nat × Nat × Nat × Bytes) := []
  routes : Tab Route := []
  reqs : Tab (Option LinkReq) := []
  nextTag : Nat := 0
  incarn : Nat := 0
  regls : Tab Regl := []
  power : PowerSt := {}
  therm : ThermSt := {}
  flash : Flash := {}
  sec : SecSt := {}
  beacons : Tab Beacon := []
  rcv : RcvSt := {}
  mgmt : MgmtSt := {}
  pins : Pins := {}
  /-- Halted islands (R528). -/
  halted : List Nat := []
  deriving DecidableEq, Repr

/-- The module before its first power-up: no power, every register at its reset value, memory with nothing listed. Log 3 (DESIGN CHOICE). -/
def State.reset : State := {}

end Sys2Proof.Machine
end

