-- ==== Sys2Proof/Machine/Numeric.lean ====
section
/-! DEFINITION. Number formats and exact arithmetic (R34-R61): element formats, blocks and scales, the long accumulator,
rounding to an output format, the FP32 reduction tree, the vector unit's operations, conversions. -/

namespace Sys2Proof.Machine

open Sys2Proof

/-- Element formats, in the order of the output-format codes of R112. -/
inductive Fmt where
  | b4 | b6 | f8e4 | f8e5 | i8 | bf16 | fp16 | fp32 | acc
  deriving DecidableEq, Repr

/-- The format of an output-format code (R112). -/
def fmtOf : Nat → Option Fmt
  | 0 => some .b4
  | 1 => some .b6
  | 2 => some .f8e4
  | 3 => some .f8e5
  | 4 => some .i8
  | 5 => some .bf16
  | 6 => some .fp16
  | 7 => some .fp32
  | 8 => some .acc
  | _ => none

/-- Exponent width (R34). -/
def Fmt.ew : Fmt → Nat
  | .b4 => 2 | .b6 => 3 | .f8e4 => 4 | .f8e5 => 5 | .i8 => 0 | .bf16 => 8 | .fp16 => 5 | .fp32 => 8 | .acc => 0

/-- Mantissa width (R34). -/
def Fmt.mw : Fmt → Nat
  | .b4 => 1 | .b6 => 2 | .f8e4 => 3 | .f8e5 => 2 | .i8 => 0 | .bf16 => 7 | .fp16 => 10 | .fp32 => 23 | .acc => 0

/-- Exponent bias (R34). -/
def Fmt.bias : Fmt → Int
  | .b4 => 1 | .b6 => 3 | .f8e4 => 7 | .f8e5 => 15 | .i8 => 0 | .bf16 => 127 | .fp16 => 15 | .fp32 => 127 | .acc => 0

/-- Width of an element in bits (a long accumulator takes 64 B in memory, R47). -/
def Fmt.width : Fmt → Nat
  | .b4 => 4 | .b6 => 6 | .f8e4 => 8 | .f8e5 => 8 | .i8 => 8 | .bf16 => 16 | .fp16 => 16 | .fp32 => 32 | .acc => 512

/-- Whether the format stands in blocks with a scale byte (R36). -/
def Fmt.isBlock : Fmt → Bool
  | .b4 => true | .b6 => true | _ => false

/-- log2 of the smallest nonzero magnitude: 1 - bias - mantissa width (R35); 0 for I8. -/
def Fmt.unit : Fmt → Int
  | .i8 => 0
  | .acc => -140
  | f => 1 - f.bias - f.mw

/-- Exponent of the binade of the largest finite magnitude. -/
def Fmt.emax : Fmt → Int
  | .b4 => 2 | .b6 => 4 | .f8e4 => 8 | .f8e5 => 15 | .i8 => 7 | .bf16 => 127 | .fp16 => 15 | .fp32 => 127 | .acc => 179

/-- The largest finite magnitude as m × 2^e. -/
def Fmt.maxMag (f : Fmt) : Nat × Int :=
  match f with
  | .f8e4 => (14, 5)
  | .i8 => (127, 0)
  | f => (2 ^ (f.mw + 1) - 1, f.emax - f.mw)

/-- A number as it is computed with: a NaN, an infinity, or (-1)^neg × m × 2^e exactly. -/
inductive Num where
  | nan
  | inf (neg : Bool)
  | fin (neg : Bool) (m : Nat) (e : Int)
  deriving DecidableEq, Repr

/-- The value of an element code (R35, without block scale). -/
def Num.decode (f : Fmt) (c : Nat) : Num :=
  match f with
  | .i8 => let v := signedOf 8 c; .fin (decide (v < 0)) v.natAbs 0
  | .acc => let v := signedOf 320 c; .fin (decide (v < 0)) v.natAbs (-140)
  | f =>
    let w := f.mw
    let e := bitsOf c (w + f.ew - 1) w
    let m := c % 2 ^ w
    let neg := bitOf c (w + f.ew)
    let top := e == 2 ^ f.ew - 1
    if f = .f8e4 ∧ top = true ∧ m = 7 then .nan
    else if (f = .f8e5 ∨ f = .bf16 ∨ f = .fp16 ∨ f = .fp32) ∧ top = true then (if m = 0 then .inf neg else .nan)
    else if e = 0 then .fin neg m f.unit
    else .fin neg (2 ^ w + m) (e - f.bias - w)

/-- Multiply by 2^x. -/
def Num.scale (x : Int) : Num → Num
  | .fin n m e => .fin n m (e + x)
  | v => v

/-- m × 2^e as an integer multiple of 2^u, for e at least u. -/
def mulPow (m : Nat) (d : Int) : Nat := m <<< d.toNat

/-- The signed mantissa in units of 2^u (exact when u is at most the exponent). -/
def Num.inUnits (u : Int) : Num → Int
  | .fin n m e => (if n then -1 else 1) * (mulPow m (e - u) : Int)
  | _ => 0

/-- Whether a number is a zero. -/
def Num.isZero : Num → Bool
  | .fin _ 0 _ => true
  | _ => false

/-- The sign. -/
def Num.neg : Num → Bool
  | .nan => false
  | .inf n => n
  | .fin n _ _ => n

/-- The canonical NaN of a format (R48); a block format's NaN is its scale byte. -/
def Fmt.nanCode : Fmt → Nat
  | .fp32 => 0x7FC00000 | .bf16 => 0x7FC0 | .fp16 => 0x7E00 | .f8e5 => 0x7E | .f8e4 => 0x7F | _ => 0

/-- The code of a finite magnitude M × 2^q with sign: M is below 2^(mantissa width + 1) on the grid of q. -/
def Fmt.encode (f : Fmt) (neg : Bool) (M : Nat) (q : Int) : Nat :=
  match f with
  | .i8 => codeOf 8 (if neg then -(mulPow M q : Int) else mulPow M q)
  | f =>
    let w := f.mw
    let (M, q) := if 2 ^ (w + 1) ≤ M then (M / 2, q + 1) else (M, q)
    let s := if neg then 2 ^ (w + f.ew) else 0
    if M < 2 ^ w then s + M else s + (q + f.bias + w).toNat * 2 ^ w + (M - 2 ^ w)

/-- Bits of the counter-based generator (R50). -/
def mix64 (z : BitVec 64) : BitVec 64 :=
  let z := (z ^^^ (z >>> 30)) * 0xBF58476D1CE4E5B9
  let z := (z ^^^ (z >>> 27)) * 0x94D049BB133111EB
  z ^^^ (z >>> 31)

/-- The 16 bits r of stochastic rounding (R50). -/
def srBits (seed : BitVec 64) (tweak : BitVec 32) (site : BitVec 16) (tile : BitVec 48) (elem : BitVec 32) : Nat :=
  let h := mix64 (seed ^^^ (((tweak.setWidth 64) <<< 16) ||| site.setWidth 64))
  let h := mix64 (h ^^^ tile.setWidth 64)
  let h := mix64 (h ^^^ elem.setWidth 64)
  (h &&& 0xFFFF).toNat

/-- How an output is rounded: to nearest even, or stochastically with the bits r; whether overflow saturates (R49-R51). -/
structure Rounding where
  sr : Option Nat := none
  sat : Bool := false
  deriving DecidableEq, Repr

/-- Round the magnitude m × 2^e to the grid 2^q (R50). -/
def roundMag (sr : Option Nat) (m : Nat) (e q : Int) : Nat :=
  if q ≤ e then mulPow m (e - q)
  else
    let d := 2 ^ (q - e).toNat
    let lo := m / d
    let r := m % d
    if r = 0 then lo
    else match sr with
      | none => if d < 2 * r ∨ (2 * r = d ∧ lo % 2 = 1) then lo + 1 else lo
      | some b => if 2 ^ 16 ≤ r * 2 ^ 16 / d + b then lo + 1 else lo

/-- Whether m × 2^e is above m' × 2^e'. -/
def magLt (m' : Nat) (e' : Int) (m : Nat) (e : Int) : Bool :=
  decide (mulPow m' (e' - min e e') < mulPow m (e - min e e'))

/-- The quantum exponent on which a format represents the magnitude m × 2^e. -/
def Fmt.quantum (f : Fmt) (m : Nat) (e : Int) : Int := max ((Nat.log2 m : Int) + e - f.mw) f.unit

/-- Warn bits: 1 range (R43), 2 invalid (R49). -/
def warnRange : Nat := 1
def warnInvalid : Nat := 2

/-- Round a number to an element code of a format other than the block formats' scale handling (R48-R50): the code and
the warn bits. -/
def Fmt.round (f : Fmt) (rd : Rounding) (v : Num) : Nat × Nat :=
  match v with
  | .nan => (f.nanCode, if f = .i8 then warnInvalid else 0)
  | .inf n =>
    match f with
    | .f8e4 => (if n then 0xFE else 0x7E, warnInvalid)
    | .i8 => (if n then 0x80 else 0x7F, warnInvalid)
    | f => ((if n then 2 ^ (f.mw + f.ew) else 0) + (2 ^ f.ew - 1) * 2 ^ f.mw, 0)
  | .fin n 0 _ => (if n ∧ f ≠ .i8 then 2 ^ (f.mw + f.ew) else 0, 0)
  | .fin n m e =>
    let q := f.quantum m e
    let q := if f = .i8 then 0 else q
    let M := roundMag rd.sr m e q
    let (mm, me) := if f = .i8 ∧ n then (128, 0) else f.maxMag
    if magLt mm me M q then
      match f with
      | .f8e5 | .bf16 | .fp16 | .fp32 =>
        if rd.sat then (f.encode n mm me, 0)
        else ((if n then 2 ^ (f.mw + f.ew) else 0) + (2 ^ f.ew - 1) * 2 ^ f.mw, 0)
      | _ => (f.encode n mm me, 0)
    else (f.encode n M q, 0)

/-- ⌊log2⌋ of the largest finite magnitude among values, none when it is 0 (R59, step 1). -/
def amaxLog (vs : List Num) : Option Int := (vs.filterMap (fun v => match v with
  | .fin _ 0 _ => none
  | .fin _ m e => some ((Nat.log2 m : Int) + e)
  | _ => none)).max?

/-- The scale exponent of a block before and after its clamp (R59, steps 2 to 4). -/
def Fmt.blockExp (f : Fmt) (vs : List Num) : Int × Int := match amaxLog vs with
  | none => (0, 0)
  | some l => (l - f.emax, max (-127) (min 127 (l - f.emax)))

/-- Conversion of 32 values to one B4 or B6 block by the steps of R59: scale byte, element codes, warn bits. Log 34 (DESIGN CHOICE). -/
def Fmt.roundBlock (f : Fmt) (rds : List Rounding) (vs : List Num) : Nat × List Nat × Nat :=
  let bad := vs.any (fun v => match v with | .nan => true | .inf _ => true | _ => false)
  let anyInf := vs.any (fun v => match v with | .inf _ => true | _ => false)
  let (x0, x) := f.blockExp vs
  let w := if x = x0 then 0 else warnRange
  if bad then (0x80, vs.map (fun _ => 0), if anyInf then w ||| warnInvalid else w)
  else (codeOf 8 x, (vs.zip rds).map (fun p => (f.round p.2 (p.1.scale (-x))).1), w)

/-! ### The long accumulator (R41-R47) -/

/-- Merge of special states (R45): 0 finite, 1 +infinity, 2 -infinity, 3 NaN. -/
def mergeSpec (a b : BitVec 2) : BitVec 2 := a ||| b

/-- The 64 bytes of an accumulator in memory (R47). -/
def LongAcc.bytes (c : LongAcc) : Bytes := leBytes 40 c.a.toNat ++ leBytes 1 c.spec.toNat ++ List.replicate 23 0

/-- The accumulator that 64 bytes hold (R47). -/
def accOf (bs : Bytes) : LongAcc := ⟨BitVec.ofNat 320 (leAt bs 0 40), BitVec.ofNat 2 (leAt bs 40 1)⟩

/-- Exact addition with merge of the special states (R44, R45, R167). -/
def LongAcc.add (x y : LongAcc) : LongAcc := ⟨x.a + y.a, mergeSpec x.spec y.spec⟩

/-- The number an accumulator stands for (R41, R48). -/
def LongAcc.num (c : LongAcc) : Num :=
  if c.spec = 3 then .nan else if c.spec = 1 then .inf false else if c.spec = 2 then .inf true
  else Num.decode .acc c.a.toNat

/-- A number as an accumulator (R46): exact, an FP32 value's bits below 2^-140 rounded to nearest even. -/
def accOfNum : Num → LongAcc
  | .nan => ⟨0, 3⟩
  | .inf false => ⟨0, 1⟩
  | .inf true => ⟨0, 2⟩
  | .fin n m e =>
    let M := roundMag none m e (-140)
    ⟨BitVec.ofInt 320 (if n then -(M : Int) else M), 0⟩

/-- The operand pair of a pair index (R112). -/
def pairOf : Nat → Option (Fmt × Fmt)
  | 0 => some (.b4, .b4)
  | 1 => some (.b4, .b6)
  | 2 => some (.b6, .b6)
  | 3 => some (.b4, .f8e4)
  | 4 => some (.b6, .f8e4)
  | 5 => some (.f8e4, .f8e4)
  | 6 => some (.f8e4, .f8e5)
  | 7 => some (.f8e5, .f8e5)
  | 8 => some (.i8, .i8)
  | 9 => some (.bf16, .bf16)
  | 10 => some (.fp16, .fp16)
  | 11 => some (.fp32, .fp32)
  | _ => none

/-- The special state of one product (R45). -/
def prodSpec (x y : Num) : BitVec 2 :=
  match x, y with
  | .nan, _ => 3
  | _, .nan => 3
  | .inf a, .inf b => if a == b then 1 else 2
  | .inf a, v => if v.isZero then 3 else if a == v.neg then 1 else 2
  | v, .inf b => if v.isZero then 3 else if b == v.neg then 1 else 2
  | _, _ => 0

/-- One block pair of R42: 32 element codes of each operand and their scale bytes. -/
structure BlockPair where
  a : List Nat
  b : List Nat
  sa : Nat := 0
  sb : Nat := 0
  deriving DecidableEq, Repr

/-- Contribution of one block pair, or of a part of its positions (R42, R43, R45): the addend of A, the special state, the warn bits.
A NaN block adds nothing to A and its scale byte is no exponent, so it sets no range warning; a NaN or infinite element counts 0 in the
block sum. Log 32 (DESIGN CHOICE), 33 (DESIGN CHOICE). -/
def blockContribution (fa fb : Fmt) (p : BlockPair) : Int × BitVec 2 × Nat :=
  if (fa.isBlock && p.sa % 256 == 0x80) || (fb.isBlock && p.sb % 256 == 0x80) then (0, 3, 0)
  else
    let xs := p.a.map (Num.decode fa)
    let ys := p.b.map (Num.decode fb)
    let s := (if fa.isBlock then signedOf 8 p.sa else 0) + (if fb.isBlock then signedOf 8 p.sb else 0)
    let sc := max (-127) (min 127 s)
    let n := ((xs.zip ys).map (fun q => q.1.inUnits fa.unit * q.2.inUnits fb.unit)).sum
    let spec := (xs.zip ys).foldl (fun t q => mergeSpec t (prodSpec q.1 q.2)) 0
    (n * (2 ^ (sc + fa.unit + fb.unit + 140).toNat : Int), spec, if sc = s then 0 else warnRange)

/-- A B4, B6, F8 or I8 dot product onto an accumulator (R42): the accumulator and the warn bits. Log 33 (DESIGN CHOICE). -/
def dotExact (fa fb : Fmt) (c : LongAcc) (bs : List BlockPair) : LongAcc × Nat :=
  bs.foldl (fun t p =>
    let (d, sp, w) := blockContribution fa fb p
    (⟨t.1.a + BitVec.ofInt 320 d, mergeSpec t.1.spec sp⟩, t.2 ||| w)) (c, 0)

/-! ### FP32 arithmetic (R54-R56) -/

/-- Exact sum, with IEEE 754 special values. -/
def Num.add (x y : Num) : Num :=
  match x, y with
  | .nan, _ => .nan
  | _, .nan => .nan
  | .inf a, .inf b => if a == b then .inf a else .nan
  | .inf a, _ => .inf a
  | _, .inf b => .inf b
  | .fin a m e, .fin b k f =>
    let u := min e f
    let t := (Num.fin a m e).inUnits u + (Num.fin b k f).inUnits u
    if t = 0 then .fin (a && b) 0 u else .fin (decide (t < 0)) t.natAbs u

/-- Exact product, with IEEE 754 special values. -/
def Num.mul (x y : Num) : Num :=
  match x, y with
  | .nan, _ => .nan
  | _, .nan => .nan
  | .inf a, v => if v.isZero then .nan else .inf (a != v.neg)
  | v, .inf b => if v.isZero then .nan else .inf (b != v.neg)
  | .fin a m e, .fin b k f => .fin (a != b) (m * k) (e + f)

/-- The opposite. -/
def Num.opp : Num → Num
  | .nan => .nan
  | .inf a => .inf (!a)
  | .fin a m e => .fin (!a) m e

/-- An FP32 code as a number. -/
def f32 (c : Nat) : Num := Num.decode .fp32 c

/-- FP32 addition, subtraction, multiplication by a rounding. -/
def f32Add (rd : Rounding) (x y : Nat) : Nat := (Fmt.fp32.round rd ((f32 x).add (f32 y))).1
def f32Sub (rd : Rounding) (x y : Nat) : Nat := (Fmt.fp32.round rd ((f32 x).add (f32 y).opp)).1
/-- Log 30 (DESIGN CHOICE). -/
def f32Mul (rd : Rounding) (x y : Nat) : Nat := (Fmt.fp32.round rd ((f32 x).mul (f32 y))).1

/-- One level of the pairwise tree (R54). -/
def treeLevel : List Nat → List Nat
  | x :: y :: t => f32Add {} x y :: treeLevel t
  | t => t

/-- The pairwise tree of R54 over FP32 values (at most 2^k of them). -/
def treeReduce : Nat → List Nat → Nat
  | 0, t => t.headD 0
  | k + 1, t => treeReduce k (treeLevel t)

/-- Cut a list into chunks of 32, the last filled with +0 (R54, step 2). -/
def chunks32 : Nat → List Nat → List (List Nat)
  | 0, _ => []
  | _, [] => []
  | k + 1, t => (t.take 32 ++ List.replicate (32 - (t.take 32).length) 0) :: chunks32 k (t.drop 32)

/-- What a conversion or a contraction reads: negative zero is read as zero (R35). Log 30 (DESIGN CHOICE). -/
def Num.asRead : Num → Num
  | .fin _ 0 e => .fin false 0 e
  | v => v

/-- The products of a BF16, FP16 or FP32 contraction (R54, step 1). Log 30 (DESIGN CHOICE). -/
def treeProducts (f : Fmt) (xs ys : List Nat) : List Nat :=
  (xs.zip ys).map (fun p => (Fmt.fp32.round {} ((Num.decode f p.1).asRead.mul (Num.decode f p.2).asRead)).1)

/-- Chunk results reduced by the tree over the chunk index, then the addend (R54, steps 4 and 5). -/
def chunkTree (cs : List Nat) (addend : Option Nat) : Nat :=
  match addend with
  | some a => f32Add {} (treeReduce cs.length cs) a
  | none => treeReduce cs.length cs

/-- A BF16, FP16 or FP32 dot product in FP32 by the fixed order (R54), before the conversion to the output format.
Log 30 (DESIGN CHOICE). -/
def dotTree (f : Fmt) (xs ys : List Nat) (addend : Option Nat) : Nat :=
  let ps := treeProducts f xs ys
  chunkTree ((chunks32 ps.length ps).map (treeReduce 5)) addend

/-- The order of FP32 minimum and maximum (R56): -0 is below +0, a NaN is below nothing. -/
def f32Less (x y : Nat) : Bool :=
  match f32 x, f32 y with
  | .fin a m e, .fin b k f =>
    let u := min e f
    let p := (Num.fin a m e).inUnits u
    let q := (Num.fin b k f).inUnits u
    decide (p < q) || (decide (p = 0) && decide (q = 0) && a && !b)
  | .inf a, .inf b => a && !b
  | .inf a, _ => a
  | _, .inf b => !b
  | _, _ => false

def f32IsNan (x : Nat) : Bool := decide (f32 x = .nan)
def f32IsZero (x : Nat) : Bool := (f32 x).isZero

/-- The compares of the vector unit: IEEE 754's, so that a NaN compares false and the two zeros are equal. Log 35 (DEDUCED). -/
def f32Eq (x y : Nat) : Bool := (x == y && !f32IsNan x) || (f32IsZero x && f32IsZero y)
/-- Log 35 (DEDUCED). -/
def f32Lt (x y : Nat) : Bool := f32Less x y && !f32Eq x y
/-- Log 35 (DEDUCED). -/
def f32Le (x y : Nat) : Bool := f32Lt x y || f32Eq x y

/-- FP32 minimum and maximum (R56): a NaN gives the canonical NaN. -/
def f32Min (x y : Nat) : Nat :=
  if f32IsNan x || f32IsNan y then Fmt.fp32.nanCode else if f32Less y x then y else x

def f32Max (x y : Nat) : Nat :=
  if f32IsNan x || f32IsNan y then Fmt.fp32.nanCode else if f32Less x y then y else x

/-! ### exp, log2, reciprocal, reciprocal square root (R57) -/

/-- ln 2 in units of 2^-256. -/
def ln2Units : Nat := 80260960185991308862233904206310070533990667611589946606122867505419956976171

/-- The first `n` terms of the exponential series of r × 2^-256 from the term t, the i-th divided by i. -/
def expSeries (r : Nat) : Nat → Nat → Nat → Nat
  | 0, _, _ => 0
  | n + 1, i, t => t + expSeries r n (i + 1) (t * r / 2 ^ 256 / (i + 1))

/-- e^x for x in units of 2^-256, as m × 2^e to far more places than FP32 has. -/
def expNum (x : Int) : Num :=
  let k := x / (ln2Units : Int)
  .fin false (expSeries (x % (ln2Units : Int)).toNat 60 0 (2 ^ 256)) (k - 256)

/-- `n` binary places of log2 of y × 2^-256, for y at least 2^256 and below 2^257, onto those already found. -/
def log2Bits : Nat → Nat → Nat → Nat
  | 0, _, r => r
  | n + 1, y, r =>
    let z := y * y / 2 ^ 256
    if 2 ^ 257 ≤ z then log2Bits n (z / 2) (2 * r + 1) else log2Bits n z (2 * r)

/-- log2 of m × 2^e, m not 0, to 100 binary places. -/
def log2Num (m : Nat) (e : Int) : Num :=
  let t := Nat.log2 m
  let v : Int := (e + t) * 2 ^ 100 + log2Bits 100 (m * 2 ^ 256 / 2 ^ t) 0
  .fin (decide (v < 0)) v.natAbs (-100)

/-- 1 ÷ (m × 2^e), its last place telling whether anything follows. -/
def recipNum (neg : Bool) (m : Nat) (e : Int) : Num :=
  .fin neg (2 * (2 ^ 128 / m) + (if 2 ^ 128 % m = 0 then 0 else 1)) (-e - 129)

/-- 1 ÷ √(m × 2^e), its last place telling whether anything follows. -/
def rsqrtNum (m : Nat) (e : Int) : Num :=
  let m' := if e % 2 = 0 then m else 2 * m
  let h := if e % 2 = 0 then e / 2 else (e - 1) / 2
  let q := Nat.sqrt (2 ^ 256 / m')
  .fin false (2 * q + (if q * q * m' = 2 ^ 256 then 0 else 1)) (-h - 129)

/-- An FP32 code moved by up to two units in the last place, by what the device's own function does at that input.
Log 37 (DESIGN CHOICE). -/
def ulpShift (c dev : Nat) : Nat :=
  let o : Int := (if c < 2 ^ 31 then (c : Int) else -((c - 2 ^ 31 : Nat) : Int)) + ((dev % 5 : Nat) : Int) - 2
  if o < 0 then 2 ^ 31 + o.natAbs else o.natAbs

/-- A result within 2 ulp of the exactly rounded one, a fixed function of the input (R57); beyond the largest finite value SAT
decides. Log 37 (DESIGN CHOICE). -/
def within2 (sat : Bool) (v : Num) (dev : Nat) : Nat :=
  let r := (Fmt.fp32.round {} v).1
  let big : Bool := r % 2 ^ 31 == 0x7F800000
  let c := if big then r else ulpShift r dev
  if c % 2 ^ 31 = 0x7F800000 ∧ sat then c - 1 else c

/-- exp, log2, reciprocal and reciprocal square root: the special cases of R57, otherwise within 2 ulp. Log 37 (DESIGN CHOICE). -/
def f32Exp (sat : Bool) (x : Nat) : Nat :=
  match f32 x with
  | .nan => Fmt.fp32.nanCode
  | .inf true => 0
  | .inf false => 0x7F800000
  | .fin n m e =>
    if magLt 128 0 m e then (if n then within2 sat (.fin false 1 (-200)) (Config.exp x) else if sat then 0x7F7FFFFF else 0x7F800000)
    else within2 sat (expNum ((Num.fin n m e).inUnits (-256))) (Config.exp x)

def f32Log2 (x : Nat) : Nat :=
  match f32 x with
  | .nan => Fmt.fp32.nanCode
  | .inf false => 0x7F800000
  | .inf true => Fmt.fp32.nanCode
  | .fin _ 0 _ => 0xFF800000
  | .fin true _ _ => Fmt.fp32.nanCode
  | .fin false m e => within2 false (log2Num m e) (Config.log2 x)

def f32Recip (sat : Bool) (x : Nat) : Nat :=
  match f32 x with
  | .nan => Fmt.fp32.nanCode
  | .inf n => if n then 0x80000000 else 0
  | .fin n 0 _ => if n then 0xFF800000 else 0x7F800000
  | .fin n m e => within2 sat (recipNum n m e) (Config.recip x)

def f32Rsqrt (x : Nat) : Nat :=
  match f32 x with
  | .nan => Fmt.fp32.nanCode
  | .inf false => 0
  | .inf true => Fmt.fp32.nanCode
  | .fin n 0 _ => if n then 0xFF800000 else 0x7F800000
  | .fin true _ _ => Fmt.fp32.nanCode
  | .fin false m e => within2 false (rsqrtNum m e) (Config.rsqrt x)

/-! ### Arrays in memory (R38, R58, R60) -/

/-- Bytes that n elements of a format take (a B6 tensor in whole blocks of 24 B). -/
def Fmt.arrayBytes (f : Fmt) (n : Nat) : Nat := (n * f.width + 7) / 8

/-- Element k of an array: little-endian fields in order, as R38 packs them. -/
def Fmt.element (f : Fmt) (bs : Bytes) (k : Nat) : Nat :=
  match f with
  | .acc => leAt bs (64 * k) 64
  | f => (leAt bs (k * f.width / 8) 5 >>> (k * f.width % 8)) % 2 ^ f.width

/-- Pack element codes (R38). -/
def Fmt.pack (f : Fmt) (cs : List Nat) : Bytes :=
  match f with
  | .acc => cs.flatMap (leBytes 64)
  | f => leBytes (f.arrayBytes cs.length) (cs.foldr (fun c t => c % 2 ^ f.width + t * 2 ^ f.width) 0)

/-- The number of an element with its block's scale byte (R35-R37). -/
def Fmt.number (f : Fmt) (c scale : Nat) : Num :=
  match f with
  | .acc => (accOf (leBytes 64 c)).num
  | .b4 | .b6 => if scale % 256 = 0x80 then .nan else (Num.decode f c).scale (signedOf 8 scale)
  | f => Num.decode f c

/-- Round one number to an element code of a format without blocks, long accumulators included (R58). Log 38 (DESIGN CHOICE). -/
def Fmt.convert1 (f : Fmt) (rd : Rounding) (v : Num) : Nat × Nat :=
  match f with
  | .acc => (leNat (accOfNum v).bytes, 0)
  | f => f.round rd v

/-- Take a list in pieces of 32. -/
def by32 {α : Type} : Nat → List α → List (List α)
  | 0, _ => []
  | _, [] => []
  | k + 1, t => t.take 32 :: by32 k (t.drop 32)

/-- A list filled up to a multiple of 32: the tail of a block-format tensor is padded with zeros (R39). -/
def fill32 {α : Type} (z : α) (l : List α) : List α := l ++ List.replicate ((32 - l.length % 32) % 32) z

/-- Convert numbers to an array of a format (R58, R59): the element array, the scale array, the warn bits. Log 38 (DESIGN CHOICE). -/
def Fmt.convert (f : Fmt) (rds : List Rounding) (vs : List Num) : Bytes × Bytes × Nat :=
  if f.isBlock then
    let vs := fill32 (.fin false 0 0) vs
    let rds := fill32 {} rds
    let bl := ((by32 vs.length vs).zip (by32 vs.length rds)).map (fun p => f.roundBlock p.2 p.1)
    (bl.flatMap (fun b => f.pack b.2.1), bl.map (fun b => BitVec.ofNat 8 b.1),
      bl.foldl (fun w b => w ||| b.2.2) 0)
  else
    let cs := (vs.zip rds).map (fun p => f.convert1 p.2 p.1)
    (f.pack (cs.map (·.1)), [], cs.foldl (fun w c => w ||| c.2) 0)

/-- Long accumulators as an array of a format: moved without loss into their own format, else rounded once (R45, R47, R58). -/
def Fmt.convertAcc (f : Fmt) (rds : List Rounding) (cs : List LongAcc) : Bytes × Bytes × Nat :=
  match f with
  | .acc => (cs.flatMap LongAcc.bytes, [], 0)
  | f => f.convert rds (cs.map LongAcc.num)

/-- Expand one group of a 2-of-4 sparse operand (R60): its four elements, and whether its code is invalid. -/
def sparseGroup (code x y : Nat) : List Nat × Bool :=
  let i := code % 4
  let j := code / 4 % 4
  if i < j then ((List.range 4).map (fun p => if p = i then x else if p = j then y else 0), false)
  else ([0, 0, 0, 0], true)

/-- Expand a sparse operand from its stored values and index codes (R60, R61): the dense elements and the warn bits. -/
def sparseExpand : List Nat → List Nat → List Nat × Nat
  | code :: cs, x :: y :: vs =>
    let (g, bad) := sparseGroup code x y
    let (t, w) := sparseExpand cs vs
    (g ++ t, if bad then w ||| warnInvalid else w)
  | _, _ => ([], 0)

/-- The effective rounding of a command (R50, R51): its arithmetic control word, seed and tweak, the rounding site, the
tile and the element. -/
def roundingOf (acw seed tweak site tile elem : Nat) : Rounding :=
  ⟨if acw % 4 = 1 then some (srBits (BitVec.ofNat 64 seed) (BitVec.ofNat 32 tweak) (BitVec.ofNat 16 site)
      (BitVec.ofNat 48 tile) (BitVec.ofNat 32 elem)) else none, bitOf acw 2⟩

end Sys2Proof.Machine
end

