-- ==== Sys2Proof/Machine/RegMap.lean ====
section
/-! DEFINITION. The register map (R511-R530 and the register tables of every chapter): the pages of R526 with their
base offsets and owners, and for every register its offset, repetition, fields, access codes (R6) and reset values.
Bits that no field names are reserved (R7). -/

namespace Sys2Proof.Machine

open Sys2Proof

/-- The kinds of register page (R526). -/
inductive Pg where
  | glb
  | map
  | rcv
  | dbg
  | pci
  | core
  | shst
  | isl
  | memt
  | nap
  | memc
  | lnk
  | rte
  | part
  | rgl0
  | rgl1
  | rglp
  | pwr
  | thm
  | sec
  | key
  | att
  | mgmt
  | splt
  | ctx
  | que
  | fen
  | evq
  deriving DecidableEq, Repr

/-- Access codes (R6). A W1S bit is a trigger that reads 0 once its action has started (`w1s`), or a mark that stays
set until the device clears it (`w1k`: SEC_PROTECT, SEC_KLOCK). -/
inductive Acc where
  | ro | rw | w1c | w1s | w1k | wo | rwo | rwl
  deriving DecidableEq, Repr

/-- A field of a register: bits [hi:lo], access, reset value. -/
structure Fld where
  hi : Nat
  lo : Nat
  acc : Acc
  rst : Nat
  deriving DecidableEq, Repr

/-- Whether a register stands alone or is a word of a 64-bit pair (R5). -/
inductive Half where
  | single | low | high
  deriving DecidableEq, Repr

/-- A register, or `n` of them at a distance of `stride` bytes. -/
structure Reg where
  off : Nat
  n : Nat
  stride : Nat
  half : Half
  flds : List Fld
  deriving DecidableEq, Repr

/-- The name of a field: offset of its register in the page, and its bits. -/
structure F where
  off : Nat
  hi : Nat
  lo : Nat
  deriving DecidableEq, Repr

/-- The common page header (R519). BLK_IRQ_CAUSE is computed; BLK_OWNER's SKELDOR bit is the page's. -/
def headerRegs : List Reg := [
  ⟨0x000, 1, 4, .single, [⟨31, 0, .ro, 0⟩]⟩,
  ⟨0x004, 1, 4, .single, [⟨31, 0, .ro, 0⟩]⟩,
  ⟨0x008, 1, 4, .single, [⟨0, 0, .rw, 1⟩]⟩,
  ⟨0x00C, 1, 4, .single, [⟨0, 0, .ro, 0⟩, ⟨1, 1, .ro, 0⟩, ⟨2, 2, .ro, 0⟩]⟩,
  ⟨0x010, 1, 4, .single, [⟨0, 0, .w1c, 0⟩, ⟨1, 1, .w1c, 0⟩, ⟨2, 2, .w1c, 0⟩]⟩,
  ⟨0x014, 1, 4, .single, [⟨15, 0, .ro, 0⟩, ⟨31, 16, .ro, 0⟩]⟩,
  ⟨0x018, 1, 4, .single, [⟨2, 0, .ro, 0⟩]⟩,
  ⟨0x01C, 1, 4, .single, [⟨2, 0, .rw, 4⟩]⟩,
  ⟨0x020, 1, 4, .single, [⟨7, 0, .ro, 0⟩, ⟨8, 8, .ro, 0⟩, ⟨9, 9, .ro, 0⟩, ⟨23, 16, .ro, 0⟩]⟩,
  ⟨0x024, 1, 4, .single, [⟨31, 0, .ro, 0⟩]⟩]

/-- Registers of the GLB page (17_register_map). -/
def glbRegs : List Reg := [
  ⟨0x040, 1, 4, .low, [⟨31, 0, .ro, 0⟩]⟩,
  ⟨0x044, 1, 4, .high, [⟨31, 0, .ro, 0⟩]⟩,
  ⟨0x048, 1, 4, .single, [⟨8, 0, .rwl, 0⟩]⟩,
  ⟨0x04C, 1, 4, .single, [⟨8, 0, .rwl, 0⟩]⟩,
  ⟨0x050, 1, 4, .single, [⟨7, 0, .rwl, 0⟩]⟩,
  ⟨0x054, 1, 4, .single, [⟨13, 0, .ro, 0⟩, ⟨21, 14, .ro, 0⟩]⟩,
  ⟨0x058, 1, 4, .single, [⟨31, 0, .ro, 0⟩]⟩]

/-- Registers of the MAP page (05_stacked_memory). -/
def mapRegs : List Reg := [
  ⟨0x040, 1, 4, .single, [⟨5, 0, .ro, 0⟩, ⟨6, 6, .ro, 0⟩, ⟨11, 8, .ro, 0⟩]⟩,
  ⟨0x400, 64, 16, .single, [⟨0, 0, .rwl, 0⟩, ⟨5, 1, .rwl, 0⟩, ⟨11, 6, .rwl, 0⟩]⟩,
  ⟨0x404, 64, 16, .single, [⟨17, 0, .rwl, 0⟩]⟩,
  ⟨0x408, 64, 16, .single, [⟨9, 0, .rwl, 0⟩]⟩,
  ⟨0x40C, 64, 16, .single, [⟨10, 0, .rwl, 0⟩]⟩,
  ⟨0x800, 512, 4, .single, [⟨31, 0, .rwl, 0⟩]⟩]

/-- Registers of the RCV page (14_errors_and_recovery). -/
def rcvRegs : List Reg := [
  ⟨0x040, 1, 4, .single, [⟨7, 0, .rwl, 24⟩, ⟨11, 8, .rwl, 4⟩, ⟨15, 12, .rwl, 4⟩, ⟨27, 16, .rwl, 1024⟩]⟩,
  ⟨0x044, 1, 4, .single, [⟨2, 0, .ro, 0⟩, ⟨5, 3, .ro, 0⟩, ⟨13, 6, .ro, 0⟩, ⟨14, 14, .ro, 0⟩, ⟨15, 15, .ro, 0⟩, ⟨20, 16, .ro, 0⟩]⟩,
  ⟨0x048, 1, 4, .single, [⟨0, 0, .w1s, 0⟩, ⟨1, 1, .w1s, 0⟩, ⟨2, 2, .w1s, 0⟩, ⟨5, 3, .rwl, 0⟩, ⟨10, 6, .rwl, 0⟩]⟩,
  ⟨0x04C, 1, 4, .single, [⟨7, 0, .ro, 0⟩, ⟨15, 8, .ro, 0⟩, ⟨23, 16, .ro, 0⟩, ⟨31, 24, .ro, 0⟩]⟩,
  ⟨0x050, 1, 4, .single, [⟨9, 0, .ro, 0⟩, ⟨15, 10, .ro, 0⟩, ⟨17, 16, .ro, 0⟩, ⟨27, 18, .ro, 0⟩]⟩,
  ⟨0x054, 1, 4, .low, [⟨31, 20, .rwl, 0⟩]⟩,
  ⟨0x058, 1, 4, .high, [⟨31, 0, .rwl, 0⟩]⟩,
  ⟨0x05C, 1, 4, .single, [⟨15, 0, .rwl, 0⟩, ⟨16, 16, .w1s, 0⟩]⟩,
  ⟨0x060, 1, 4, .single, [⟨15, 0, .ro, 0⟩, ⟨16, 16, .ro, 0⟩]⟩,
  ⟨0x064, 1, 4, .single, [⟨7, 0, .rwl, 0⟩, ⟨15, 8, .rwl, 0⟩, ⟨16, 16, .w1s, 0⟩, ⟨17, 17, .ro, 0⟩, ⟨20, 18, .ro, 0⟩]⟩]

/-- Registers of the DBG page (17_register_map). -/
def dbgRegs : List Reg := [
  ⟨0x040, 1, 4, .single, [⟨0, 0, .rwl, 0⟩, ⟨1, 1, .ro, 0⟩]⟩,
  ⟨0x044, 1, 4, .single, [⟨7, 0, .rwl, 0⟩, ⟨8, 8, .w1s, 0⟩, ⟨9, 9, .w1s, 0⟩, ⟨10, 10, .ro, 0⟩, ⟨12, 11, .ro, 0⟩]⟩,
  ⟨0x048, 1, 4, .single, [⟨7, 0, .rwl, 0⟩, ⟨15, 8, .rwl, 0⟩, ⟨18, 16, .rwl, 0⟩]⟩,
  ⟨0x04C, 1, 4, .single, [⟨19, 0, .rwl, 0⟩]⟩,
  ⟨0x050, 1, 4, .single, [⟨31, 0, .rwl, 0⟩]⟩,
  ⟨0x054, 1, 4, .single, [⟨0, 0, .w1s, 0⟩, ⟨1, 1, .w1s, 0⟩, ⟨2, 2, .ro, 0⟩, ⟨3, 3, .ro, 0⟩, ⟨4, 4, .ro, 0⟩, ⟨5, 5, .ro, 0⟩]⟩]

/-- Registers of the PCI page (17_register_map). -/
def pciRegs : List Reg := [
  ⟨0x040, 1, 4, .single, [⟨3, 0, .ro, 0⟩, ⟨8, 4, .ro, 0⟩, ⟨9, 9, .ro, 0⟩, ⟨14, 10, .ro, 0⟩]⟩,
  ⟨0x044, 1, 4, .single, [⟨31, 0, .ro, 0⟩]⟩,
  ⟨0x200, 1, 4, .single, [⟨7, 0, .rwl, 0⟩]⟩,
  ⟨0x204, 1, 4, .single, [⟨0, 0, .rwl, 0⟩, ⟨1, 1, .w1s, 0⟩, ⟨2, 2, .ro, 0⟩, ⟨3, 3, .ro, 0⟩, ⟨4, 4, .w1c, 0⟩]⟩,
  ⟨0x208, 1, 4, .low, [⟨31, 12, .rwl, 0⟩]⟩,
  ⟨0x20C, 1, 4, .high, [⟨31, 0, .rwl, 0⟩]⟩,
  ⟨0x210, 1, 4, .low, [⟨31, 12, .rwl, 0⟩]⟩,
  ⟨0x214, 1, 4, .high, [⟨31, 0, .rwl, 0⟩]⟩,
  ⟨0x218, 1, 4, .low, [⟨31, 12, .rwl, 0⟩]⟩,
  ⟨0x21C, 1, 4, .high, [⟨31, 0, .rwl, 0⟩]⟩,
  ⟨0x220, 1, 4, .single, [⟨31, 0, .rwl, 0⟩]⟩,
  ⟨0x224, 1, 4, .single, [⟨31, 0, .ro, 0⟩]⟩,
  ⟨0x228, 1, 4, .single, [⟨31, 0, .ro, 0⟩]⟩]

/-- Registers of the CORE page (03_fabric_cores). -/
def coreRegs : List Reg := [
  ⟨0x040, 1, 4, .single, [⟨3, 0, .ro, 15⟩, ⟨7, 4, .ro, 0⟩]⟩]

/-- Registers of the SHST page (03_fabric_cores). -/
def shstRegs : List Reg := [
  ⟨0x040, 1, 4, .low, [⟨31, 0, .ro, 0⟩]⟩,
  ⟨0x044, 1, 4, .high, [⟨31, 0, .ro, 0⟩]⟩,
  ⟨0x048, 1, 4, .low, [⟨31, 0, .ro, 0⟩]⟩,
  ⟨0x04C, 1, 4, .high, [⟨31, 0, .ro, 0⟩]⟩,
  ⟨0x050, 1, 4, .single, [⟨9, 0, .ro, 0⟩, ⟨25, 16, .w1c, 0⟩, ⟨26, 26, .w1c, 0⟩]⟩,
  ⟨0x054, 1, 4, .single, [⟨15, 0, .ro, 0⟩, ⟨23, 16, .ro, 0⟩, ⟨28, 24, .ro, 0⟩]⟩,
  ⟨0x058, 1, 4, .single, [⟨15, 0, .ro, 0⟩]⟩]

/-- Registers of the ISL page (03_fabric_cores). -/
def islRegs : List Reg := [
  ⟨0x040, 1, 4, .single, [⟨6, 0, .rwl, 96⟩]⟩,
  ⟨0x044, 1, 4, .single, [⟨6, 0, .ro, 48⟩, ⟨7, 7, .ro, 1⟩, ⟨10, 8, .ro, 0⟩]⟩,
  ⟨0x048, 1, 4, .low, [⟨31, 0, .ro, 0⟩]⟩,
  ⟨0x04C, 1, 4, .high, [⟨31, 0, .ro, 0⟩]⟩,
  ⟨0x050, 1, 4, .low, [⟨31, 0, .ro, 0⟩]⟩,
  ⟨0x054, 1, 4, .high, [⟨31, 0, .ro, 0⟩]⟩,
  ⟨0x058, 1, 4, .single, [⟨31, 0, .ro, 0⟩]⟩,
  ⟨0x05C, 1, 4, .single, [⟨15, 0, .ro, 0⟩, ⟨23, 16, .ro, 0⟩, ⟨31, 24, .ro, 0⟩]⟩,
  ⟨0x060, 1, 4, .single, [⟨31, 0, .ro, 0⟩]⟩,
  ⟨0x064, 1, 4, .single, [⟨31, 0, .ro, 0⟩]⟩,
  ⟨0x068, 1, 4, .single, [⟨0, 0, .w1c, 0⟩, ⟨1, 1, .ro, 1⟩, ⟨2, 2, .ro, 0⟩]⟩]

/-- Registers of the MEMT page (05_stacked_memory). -/
def memtRegs : List Reg := [
  ⟨0x040, 1, 4, .single, [⟨31, 0, .ro, 0x80808080⟩]⟩,
  ⟨0x044, 1, 4, .single, [⟨31, 0, .ro, 0x80808080⟩]⟩,
  ⟨0x048, 1, 4, .single, [⟨0, 0, .ro, 1⟩, ⟨8, 1, .ro, 0⟩, ⟨31, 16, .ro, 0⟩]⟩]

/-- Registers of the NAP page (05_stacked_memory). -/
def napRegs : List Reg := [
  ⟨0x040, 1, 4, .low, [⟨31, 0, .ro, 0⟩]⟩,
  ⟨0x044, 1, 4, .high, [⟨31, 0, .ro, 0⟩]⟩,
  ⟨0x048, 1, 4, .low, [⟨31, 0, .ro, 0⟩]⟩,
  ⟨0x04C, 1, 4, .high, [⟨31, 0, .ro, 0⟩]⟩,
  ⟨0x050, 1, 4, .low, [⟨31, 0, .ro, 0⟩]⟩,
  ⟨0x054, 1, 4, .high, [⟨31, 0, .ro, 0⟩]⟩,
  ⟨0x058, 1, 4, .single, [⟨31, 0, .ro, 0⟩]⟩,
  ⟨0x05C, 1, 4, .single, [⟨7, 0, .ro, 0⟩, ⟨12, 8, .ro, 0⟩, ⟨13, 13, .ro, 0⟩, ⟨14, 14, .ro, 0⟩, ⟨26, 16, .ro, 0⟩]⟩]

/-- Registers of the MEMC page (05_stacked_memory). -/
def memcRegs : List Reg := [
  ⟨0x040, 1, 4, .single, [⟨31, 0, .ro, 0⟩]⟩,
  ⟨0x044, 1, 4, .single, [⟨31, 0, .ro, 0⟩]⟩,
  ⟨0x048, 1, 4, .single, [⟨31, 0, .ro, 0⟩]⟩,
  ⟨0x04C, 1, 4, .single, [⟨31, 0, .ro, 0⟩]⟩,
  ⟨0x050, 1, 4, .single, [⟨31, 0, .ro, 0⟩]⟩,
  ⟨0x054, 1, 4, .single, [⟨22, 0, .ro, 0⟩, ⟨23, 23, .ro, 0⟩, ⟨24, 24, .ro, 0⟩]⟩,
  ⟨0x058, 1, 4, .single, [⟨3, 0, .ro, 0⟩, ⟨7, 4, .ro, 0⟩, ⟨11, 8, .ro, 0⟩, ⟨12, 12, .ro, 0⟩]⟩,
  ⟨0x05C, 1, 4, .single, [⟨8, 0, .rwl, 0⟩, ⟨9, 9, .w1s, 0⟩, ⟨10, 10, .ro, 0⟩, ⟨11, 11, .w1c, 0⟩]⟩,
  ⟨0x060, 1, 4, .single, [⟨31, 0, .ro, 0⟩]⟩]

/-- Registers of the LNK page (10_links). -/
def lnkRegs : List Reg := [
  ⟨0x040, 1, 4, .single, [⟨0, 0, .rwl, 1⟩, ⟨1, 1, .rwl, 0⟩, ⟨2, 2, .rwl, 0⟩, ⟨3, 3, .rwl, 1⟩, ⟨4, 4, .w1s, 0⟩, ⟨5, 5, .w1s, 0⟩]⟩,
  ⟨0x044, 1, 4, .single, [⟨2, 0, .ro, 0⟩, ⟨3, 3, .ro, 0⟩, ⟨4, 4, .ro, 0⟩, ⟨5, 5, .ro, 0⟩, ⟨10, 6, .ro, 0⟩, ⟨13, 11, .ro, 0⟩, ⟨14, 14, .ro, 0⟩, ⟨31, 16, .ro, 0⟩]⟩,
  ⟨0x048, 1, 4, .single, [⟨11, 0, .ro, 0⟩, ⟨17, 12, .ro, 0⟩]⟩,
  ⟨0x04C, 1, 4, .single, [⟨31, 0, .ro, 0⟩]⟩,
  ⟨0x050, 1, 4, .single, [⟨31, 0, .ro, 0⟩]⟩,
  ⟨0x054, 1, 4, .single, [⟨31, 0, .ro, 0⟩]⟩,
  ⟨0x058, 1, 4, .single, [⟨31, 0, .ro, 0⟩]⟩,
  ⟨0x05C, 1, 4, .single, [⟨31, 0, .ro, 0⟩]⟩,
  ⟨0x060, 1, 4, .single, [⟨31, 0, .ro, 0⟩]⟩,
  ⟨0x064, 1, 4, .single, [⟨31, 0, .ro, 0⟩]⟩,
  ⟨0x068, 1, 4, .single, [⟨31, 0, .ro, 0⟩]⟩,
  ⟨0x06C, 1, 4, .single, [⟨31, 0, .ro, 0⟩]⟩,
  ⟨0x070, 1, 4, .single, [⟨11, 0, .ro, 0⟩]⟩]

/-- Registers of the RTE page (10_links). -/
def rteRegs : List Reg := [
  ⟨0x040, 1, 4, .single, [⟨11, 0, .rwo, 0⟩, ⟨12, 12, .ro, 0⟩]⟩,
  ⟨0x044, 1, 4, .single, [⟨7, 0, .rwl, 2⟩]⟩,
  ⟨0x048, 1, 4, .single, [⟨11, 0, .rwl, 0⟩]⟩,
  ⟨0x04C, 1, 4, .single, [⟨0, 0, .rwl, 0⟩, ⟨2, 1, .ro, 0⟩, ⟨14, 3, .rwl, 0⟩, ⟨26, 15, .rwl, 0⟩, ⟨30, 27, .rwl, 0⟩, ⟨31, 31, .ro, 0⟩]⟩,
  ⟨0x050, 1, 4, .single, [⟨31, 0, .ro, 0⟩]⟩,
  ⟨0x054, 1, 4, .single, [⟨31, 0, .ro, 0⟩]⟩,
  ⟨0x058, 1, 4, .single, [⟨31, 0, .ro, 0⟩]⟩,
  ⟨0x05C, 1, 4, .single, [⟨31, 0, .ro, 0⟩]⟩]

/-- Registers of the PART page (08_partitions_and_rebinding, 09_scheduling_and_preemption, 06_segments_and_translation). -/
def partRegs : List Reg := [
  ⟨0x040, 1, 4, .single, [⟨0, 0, .w1s, 0⟩, ⟨1, 1, .w1s, 0⟩, ⟨2, 2, .w1s, 0⟩]⟩,
  ⟨0x044, 1, 4, .single, [⟨1, 0, .ro, 0⟩, ⟨2, 2, .ro, 0⟩, ⟨15, 8, .ro, 0⟩]⟩,
  ⟨0x048, 1, 4, .single, [⟨31, 0, .ro, 0⟩]⟩,
  ⟨0x04C, 1, 4, .single, [⟨31, 0, .rwl, 0⟩]⟩,
  ⟨0x050, 1, 4, .single, [⟨2, 0, .rwl, 0⟩, ⟨3, 3, .w1s, 0⟩, ⟨4, 4, .w1s, 0⟩, ⟨5, 5, .ro, 0⟩, ⟨6, 6, .w1c, 0⟩, ⟨7, 7, .rwl, 0⟩, ⟨11, 8, .ro, 0⟩, ⟨19, 12, .ro, 0⟩]⟩,
  ⟨0x054, 1, 4, .single, [⟨5, 0, .rwl, 0⟩, ⟨13, 8, .rwl, 0⟩]⟩,
  ⟨0x058, 1, 4, .single, [⟨7, 0, .ro, 0⟩, ⟨31, 8, .ro, 0⟩]⟩,
  ⟨0x05C, 1, 4, .single, [⟨31, 0, .ro, 0⟩]⟩,
  ⟨0x060, 8, 4, .single, [⟨31, 0, .ro, 0⟩]⟩,
  ⟨0x080, 8, 4, .single, [⟨31, 0, .rwl, 0⟩]⟩,
  ⟨0x0A0, 1, 4, .low, [⟨31, 0, .ro, 0⟩]⟩,
  ⟨0x0A4, 1, 4, .high, [⟨3, 0, .ro, 0⟩]⟩,
  ⟨0x0A8, 1, 4, .low, [⟨31, 0, .rwl, 0⟩]⟩,
  ⟨0x0AC, 1, 4, .high, [⟨3, 0, .rwl, 0⟩]⟩,
  ⟨0x0B0, 1, 4, .single, [⟨2, 0, .rwl, 0⟩]⟩,
  ⟨0x0B4, 1, 4, .single, [⟨9, 0, .rwl, 0⟩, ⟨20, 10, .rwl, 0⟩]⟩,
  ⟨0x0B8, 1, 4, .single, [⟨11, 0, .rwl, 0⟩, ⟨24, 12, .rwl, 0⟩]⟩,
  ⟨0x0BC, 1, 4, .single, [⟨10, 0, .rwl, 0⟩, ⟨22, 11, .rwl, 0⟩]⟩,
  ⟨0x0C0, 1, 4, .single, [⟨8, 0, .rwl, 0⟩, ⟨18, 9, .rwl, 0⟩]⟩,
  ⟨0x0C4, 8, 4, .single, [⟨31, 0, .rwl, 0⟩]⟩,
  ⟨0x0E4, 1, 4, .single, [⟨5, 0, .rwl, 0⟩]⟩,
  ⟨0x0E8, 1, 4, .single, [⟨5, 0, .rwl, 0⟩, ⟨6, 6, .rwl, 0⟩, ⟨11, 8, .rwl, 4⟩]⟩,
  ⟨0x0F4, 1, 4, .single, [⟨7, 0, .rwl, 0⟩, ⟨8, 8, .w1s, 0⟩, ⟨9, 9, .w1s, 0⟩, ⟨10, 10, .ro, 0⟩, ⟨13, 11, .ro, 0⟩]⟩,
  ⟨0x0F8, 1, 4, .single, [⟨7, 0, .rwl, 0⟩, ⟨9, 8, .rwl, 0⟩, ⟨19, 10, .rwl, 0⟩]⟩,
  ⟨0x0FC, 1, 4, .single, [⟨15, 0, .rwl, 0⟩, ⟨16, 16, .rwl, 0⟩]⟩,
  ⟨0x100, 8, 32, .single, [⟨0, 0, .w1s, 0⟩, ⟨1, 1, .w1s, 0⟩, ⟨3, 2, .ro, 0⟩, ⟨15, 4, .rwl, 0⟩]⟩,
  ⟨0x104, 8, 32, .single, [⟨31, 0, .rwl, 0⟩]⟩,
  ⟨0x108, 8, 32, .single, [⟨12, 0, .rwl, 0⟩]⟩,
  ⟨0x10C, 8, 32, .single, [⟨7, 0, .ro, 0⟩, ⟨19, 8, .ro, 0⟩]⟩,
  ⟨0x110, 8, 32, .low, [⟨31, 0, .rwl, 0⟩]⟩,
  ⟨0x114, 8, 32, .high, [⟨31, 0, .rwl, 0⟩]⟩,
  ⟨0x200, 1, 4, .single, [⟨2, 0, .rwl, 0⟩, ⟨15, 4, .rwl, 0⟩]⟩,
  ⟨0x204, 1, 4, .single, [⟨11, 0, .rwl, 0⟩]⟩,
  ⟨0x210, 1, 4, .single, [⟨31, 0, .rwl, 0⟩]⟩,
  ⟨0x214, 1, 4, .single, [⟨5, 0, .rwl, 0⟩, ⟨6, 6, .rwl, 0⟩]⟩,
  ⟨0x218, 1, 4, .single, [⟨2, 0, .rwl, 7⟩, ⟨19, 4, .rwl, 1000⟩]⟩,
  ⟨0x21C, 1, 4, .single, [⟨0, 0, .w1s, 0⟩, ⟨1, 1, .ro, 0⟩, ⟨2, 2, .w1c, 0⟩, ⟨3, 3, .ro, 0⟩, ⟨27, 16, .ro, 0⟩]⟩,
  ⟨0x220, 1, 4, .low, [⟨31, 4, .rwl, 0⟩]⟩,
  ⟨0x224, 1, 4, .high, [⟨31, 0, .rwl, 0⟩]⟩,
  ⟨0x228, 1, 4, .single, [⟨12, 0, .rwl, 1⟩]⟩,
  ⟨0x22C, 1, 4, .single, [⟨31, 0, .ro, 0⟩]⟩,
  ⟨0x230, 1, 4, .single, [⟨31, 0, .ro, 0⟩]⟩,
  ⟨0x300, 1, 4, .single, [⟨0, 0, .rwl, 0⟩, ⟨1, 1, .w1s, 0⟩, ⟨2, 2, .ro, 0⟩]⟩,
  ⟨0x308, 1, 4, .low, [⟨31, 12, .rwl, 0⟩]⟩,
  ⟨0x30C, 1, 4, .high, [⟨31, 0, .rwl, 0⟩]⟩]

/-- Registers of the RGL0 page (11_bandwidth_regulation). -/
def rgl0Regs : List Reg := [
  ⟨0x040, 1, 4, .single, [⟨0, 0, .ro, 1⟩, ⟨3, 1, .ro, 1⟩]⟩,
  ⟨0x044, 1, 4, .single, [⟨7, 0, .rwl, 255⟩, ⟨15, 8, .rwl, 255⟩, ⟨23, 16, .rwl, 255⟩, ⟨31, 24, .rwl, 255⟩]⟩]

/-- Registers of the RGL1 page (11_bandwidth_regulation). -/
def rgl1Regs : List Reg := [
  ⟨0x040, 1, 4, .single, [⟨7, 0, .rwl, 1⟩, ⟨15, 8, .rwl, 1⟩, ⟨23, 16, .rwl, 16⟩]⟩,
  ⟨0x044, 1, 4, .single, [⟨8, 0, .rwl, 0⟩, ⟨14, 9, .rwl, 0⟩]⟩,
  ⟨0x048, 6, 8, .low, [⟨31, 0, .ro, 0⟩]⟩,
  ⟨0x04C, 6, 8, .high, [⟨31, 0, .ro, 0⟩]⟩,
  ⟨0x080, 10, 4, .single, [⟨31, 0, .ro, 0⟩]⟩]

/-- Registers of the RGLP page (11_bandwidth_regulation). -/
def rglpRegs : List Reg := [
  ⟨0x040, 1, 4, .single, [⟨7, 0, .rwl, 0⟩, ⟨15, 8, .rwl, 1⟩, ⟨23, 16, .rwl, 0⟩]⟩,
  ⟨0x044, 1, 4, .single, [⟨7, 0, .rwl, 0⟩, ⟨15, 8, .rwl, 1⟩, ⟨23, 16, .rwl, 0⟩]⟩,
  ⟨0x048, 1, 4, .single, [⟨7, 0, .rwl, 0⟩, ⟨15, 8, .rwl, 1⟩, ⟨23, 16, .rwl, 0⟩]⟩,
  ⟨0x04C, 1, 4, .single, [⟨7, 0, .rwl, 0⟩, ⟨15, 8, .rwl, 1⟩, ⟨23, 16, .rwl, 0⟩]⟩,
  ⟨0x050, 1, 4, .single, [⟨7, 0, .rwl, 16⟩, ⟨15, 8, .rwl, 16⟩]⟩,
  ⟨0x054, 1, 4, .single, [⟨7, 0, .rwl, 16⟩, ⟨15, 8, .rwl, 16⟩]⟩,
  ⟨0x058, 1, 4, .single, [⟨7, 0, .rwl, 16⟩, ⟨15, 8, .rwl, 16⟩]⟩,
  ⟨0x05C, 1, 4, .single, [⟨7, 0, .rwl, 16⟩, ⟨15, 8, .rwl, 16⟩]⟩]

/-- Registers of the PWR page (12_power_and_thermal). -/
def pwrRegs : List Reg := [
  ⟨0x040, 1, 4, .single, [⟨2, 0, .rwl, 1⟩, ⟨10, 4, .rwl, 96⟩, ⟨11, 11, .rwl, 0⟩, ⟨12, 12, .rwl, 0⟩, ⟨15, 13, .rwl, 0⟩]⟩,
  ⟨0x044, 1, 4, .single, [⟨2, 0, .ro, 1⟩, ⟨5, 3, .ro, 0⟩, ⟨6, 6, .ro, 0⟩, ⟨7, 7, .ro, 0⟩, ⟨8, 8, .ro, 0⟩, ⟨9, 9, .ro, 0⟩, ⟨10, 10, .ro, 0⟩, ⟨11, 11, .ro, 0⟩, ⟨12, 12, .ro, 0⟩, ⟨13, 13, .ro, 0⟩, ⟨14, 14, .ro, 0⟩]⟩,
  ⟨0x048, 1, 4, .single, [⟨11, 0, .rwl, 2000⟩, ⟨17, 12, .rwl, 10⟩]⟩,
  ⟨0x04C, 1, 4, .single, [⟨6, 0, .rwl, 48⟩, ⟨7, 7, .rwl, 0⟩]⟩,
  ⟨0x050, 1, 4, .single, [⟨7, 0, .rwl, 40⟩, ⟨15, 8, .ro, 40⟩]⟩,
  ⟨0x054, 1, 4, .single, [⟨0, 0, .rwl, 1⟩, ⟨4, 1, .rwl, 4⟩]⟩,
  ⟨0x058, 1, 4, .single, [⟨11, 0, .rwl, 2000⟩, ⟨18, 12, .rwl, 96⟩]⟩,
  ⟨0x05C, 1, 4, .single, [⟨11, 0, .ro, 0⟩, ⟨27, 16, .ro, 0⟩]⟩,
  ⟨0x060, 1, 4, .single, [⟨11, 0, .ro, 0⟩, ⟨27, 16, .ro, 0⟩]⟩,
  ⟨0x064, 1, 4, .single, [⟨15, 0, .ro, 0⟩, ⟨31, 16, .ro, 0⟩]⟩,
  ⟨0x068, 1, 4, .low, [⟨31, 0, .ro, 0⟩]⟩,
  ⟨0x06C, 1, 4, .high, [⟨31, 0, .ro, 0⟩]⟩,
  ⟨0x070, 1, 4, .single, [⟨15, 0, .ro, 1024⟩]⟩,
  ⟨0x074, 1, 4, .single, [⟨7, 0, .ro, 0⟩, ⟨15, 8, .ro, 0⟩, ⟨23, 16, .ro, 0⟩, ⟨31, 24, .ro, 0⟩]⟩,
  ⟨0x078, 1, 4, .single, [⟨31, 0, .ro, 0⟩]⟩,
  ⟨0x07C, 1, 4, .single, [⟨31, 0, .ro, 0⟩]⟩]

/-- Registers of the THM page (12_power_and_thermal). -/
def thmRegs : List Reg := [
  ⟨0x040, 1, 4, .single, [⟨7, 0, .ro, 128⟩, ⟨15, 8, .ro, 0⟩, ⟨23, 16, .ro, 128⟩]⟩,
  ⟨0x044, 1, 4, .single, [⟨7, 0, .ro, 128⟩, ⟨11, 8, .ro, 0⟩]⟩,
  ⟨0x048, 1, 4, .single, [⟨0, 0, .ro, 0⟩, ⟨1, 1, .ro, 0⟩, ⟨2, 2, .ro, 0⟩, ⟨3, 3, .ro, 0⟩, ⟨4, 4, .ro, 0⟩, ⟨5, 5, .ro, 0⟩, ⟨8, 6, .ro, 0⟩, ⟨16, 9, .ro, 0⟩, ⟨17, 17, .ro, 0⟩]⟩,
  ⟨0x04C, 1, 4, .single, [⟨31, 0, .ro, 0⟩]⟩,
  ⟨0x050, 32, 4, .single, [⟨31, 0, .ro, 0x80808080⟩]⟩,
  ⟨0x0D0, 4, 4, .single, [⟨31, 0, .ro, 0x80808080⟩]⟩,
  ⟨0x0E0, 1, 4, .single, [⟨31, 0, .ro, 0x80808080⟩]⟩]

/-- Registers of the SEC page (13_security). -/
def secRegs : List Reg := [
  ⟨0x040, 1, 4, .single, [⟨31, 0, .w1k, 0⟩]⟩,
  ⟨0x044, 1, 4, .single, [⟨31, 0, .w1k, 0⟩]⟩,
  ⟨0x048, 1, 4, .single, [⟨4, 0, .rwl, 0⟩, ⟨5, 5, .w1s, 0⟩, ⟨6, 6, .ro, 0⟩]⟩,
  ⟨0x04C, 1, 4, .single, [⟨4, 0, .rwl, 0⟩, ⟨12, 5, .rwl, 0⟩]⟩,
  ⟨0x050, 8, 4, .single, [⟨31, 0, .rwl, 0⟩]⟩,
  ⟨0x070, 1, 4, .single, [⟨31, 0, .w1c, 0⟩]⟩,
  ⟨0x074, 1, 4, .single, [⟨31, 0, .ro, 0⟩]⟩,
  ⟨0x078, 1, 4, .single, [⟨7, 0, .ro, 0⟩, ⟨15, 8, .ro, 0⟩, ⟨20, 16, .ro, 0⟩]⟩,
  ⟨0x07C, 1, 4, .single, [⟨31, 0, .ro, 0⟩]⟩,
  ⟨0x080, 1, 4, .single, [⟨31, 0, .ro, 0⟩]⟩,
  ⟨0x084, 1, 4, .single, [⟨31, 0, .ro, 0⟩]⟩,
  ⟨0x088, 1, 4, .single, [⟨15, 0, .ro, 0⟩, ⟨31, 16, .ro, 0⟩]⟩,
  ⟨0x08C, 1, 4, .single, [⟨0, 0, .w1s, 0⟩, ⟨1, 1, .ro, 0⟩, ⟨4, 2, .ro, 0⟩, ⟨5, 5, .ro, 0⟩, ⟨6, 6, .ro, 0⟩]⟩]

/-- Registers of the KEY page (13_security). -/
def keyRegs : List Reg := [
  ⟨0x100, 32, 64, .single, [⟨0, 0, .w1s, 0⟩, ⟨1, 1, .w1s, 0⟩, ⟨2, 2, .w1s, 0⟩, ⟨3, 3, .rwl, 0⟩, ⟨4, 4, .rwl, 0⟩, ⟨12, 5, .rwl, 0⟩]⟩,
  ⟨0x104, 32, 64, .single, [⟨1, 0, .ro, 0⟩, ⟨4, 2, .ro, 0⟩, ⟨7, 5, .ro, 0⟩, ⟨12, 8, .ro, 0⟩]⟩,
  ⟨0x108, 32, 64, .single, [⟨31, 0, .ro, 0⟩]⟩,
  ⟨0x10C, 32, 64, .single, [⟨31, 0, .ro, 0⟩]⟩,
  ⟨0x110, 32, 64, .single, [⟨31, 0, .rwl, 0⟩]⟩,
  ⟨0x114, 32, 64, .single, [⟨31, 0, .rwl, 0⟩]⟩,
  ⟨0x118, 32, 64, .single, [⟨31, 0, .rwl, 0⟩]⟩,
  ⟨0x11C, 32, 64, .single, [⟨31, 0, .rwl, 0⟩]⟩,
  ⟨0x120, 32, 64, .single, [⟨31, 0, .rwl, 0⟩]⟩,
  ⟨0x124, 32, 64, .single, [⟨31, 0, .rwl, 0⟩]⟩,
  ⟨0x128, 32, 64, .single, [⟨31, 0, .rwl, 0⟩]⟩,
  ⟨0x12C, 32, 64, .single, [⟨31, 0, .rwl, 0⟩]⟩,
  ⟨0x130, 32, 64, .single, [⟨31, 0, .rwl, 0⟩]⟩,
  ⟨0x134, 32, 64, .single, [⟨31, 0, .rwl, 0⟩]⟩,
  ⟨0x138, 32, 64, .single, [⟨31, 0, .rwl, 0⟩]⟩,
  ⟨0x13C, 32, 64, .single, [⟨31, 0, .rwl, 0⟩]⟩]

/-- Registers of the ATT page (13_security). -/
def attRegs : List Reg := [
  ⟨0x040, 1, 4, .low, [⟨31, 0, .ro, 0⟩]⟩,
  ⟨0x044, 1, 4, .high, [⟨31, 0, .ro, 0⟩]⟩,
  ⟨0x048, 1, 4, .single, [⟨15, 0, .ro, 0⟩, ⟨31, 16, .ro, 0⟩]⟩,
  ⟨0x04C, 1, 4, .single, [⟨0, 0, .ro, 1⟩, ⟨1, 1, .ro, 0⟩, ⟨2, 2, .ro, 0⟩]⟩]

/-- Registers of the MGMT page (15_management_plane). -/
def mgmtRegs : List Reg := [
  ⟨0x040, 1, 4, .single, [⟨0, 0, .w1s, 0⟩, ⟨1, 1, .ro, 0⟩, ⟨2, 2, .w1c, 0⟩]⟩,
  ⟨0x044, 1, 4, .single, [⟨7, 0, .ro, 0⟩]⟩,
  ⟨0x048, 1, 4, .single, [⟨31, 0, .ro, 0⟩]⟩,
  ⟨0x04C, 1, 4, .single, [⟨31, 0, .ro, 0⟩]⟩,
  ⟨0x050, 1, 4, .low, [⟨31, 0, .ro, 0⟩]⟩,
  ⟨0x054, 1, 4, .high, [⟨31, 0, .ro, 0⟩]⟩,
  ⟨0x400, 256, 4, .single, [⟨31, 0, .rw, 0⟩]⟩,
  ⟨0x800, 256, 4, .single, [⟨31, 0, .ro, 0⟩]⟩]

/-- Registers of the SPLT page (15_management_plane). -/
def spltRegs : List Reg := [
  ⟨0x040, 1, 4, .single, [⟨6, 0, .rwl, 0⟩]⟩,
  ⟨0x044, 1, 4, .single, [⟨6, 0, .ro, 0⟩, ⟨14, 8, .ro, 0⟩]⟩,
  ⟨0x048, 1, 4, .single, [⟨31, 0, .ro, 0⟩]⟩]

/-- Registers of the CTX page (07_host_objects_and_ordering and the chapters of R526). -/
def ctxRegs : List Reg := [
  ⟨0x040, 1, 4, .single, [⟨0, 0, .w1s, 0⟩, ⟨1, 1, .w1s, 0⟩, ⟨2, 2, .rwl, 0⟩, ⟨16, 8, .rwl, 0⟩]⟩,
  ⟨0x044, 1, 4, .single, [⟨1, 0, .ro, 0⟩, ⟨15, 8, .ro, 0⟩, ⟨20, 16, .ro, 0⟩, ⟨31, 24, .ro, 0⟩]⟩,
  ⟨0x100, 1, 4, .single, [⟨1, 0, .rw, 0⟩, ⟨2, 2, .rw, 0⟩, ⟨3, 3, .rw, 0⟩]⟩,
  ⟨0x108, 1, 4, .low, [⟨31, 0, .rw, 0⟩]⟩,
  ⟨0x10C, 1, 4, .high, [⟨31, 0, .rw, 0⟩]⟩,
  ⟨0x110, 1, 4, .single, [⟨31, 0, .rw, 0⟩]⟩,
  ⟨0x114, 1, 4, .single, [⟨31, 0, .rw, 0⟩]⟩,
  ⟨0x118, 1, 4, .single, [⟨7, 0, .ro, 0⟩, ⟨13, 8, .ro, 0⟩, ⟨14, 14, .ro, 0⟩, ⟨31, 16, .ro, 0⟩]⟩,
  ⟨0x11C, 1, 4, .single, [⟨31, 0, .rw, 0⟩]⟩,
  ⟨0x120, 1, 4, .single, [⟨7, 0, .ro, 0⟩, ⟨10, 8, .ro, 0⟩, ⟨16, 11, .ro, 0⟩, ⟨17, 17, .ro, 0⟩]⟩,
  ⟨0x124, 1, 4, .single, [⟨31, 0, .rw, 0⟩]⟩,
  ⟨0x140, 1, 4, .single, [⟨11, 0, .rwl, 0⟩, ⟨13, 12, .rwl, 0⟩, ⟨14, 14, .ro, 0⟩, ⟨18, 16, .ro, 0⟩]⟩,
  ⟨0x144, 1, 4, .single, [⟨2, 0, .rwl, 0⟩, ⟨31, 3, .rwl, 0⟩]⟩,
  ⟨0x148, 1, 4, .single, [⟨12, 0, .rwl, 0⟩]⟩,
  ⟨0x14C, 1, 4, .low, [⟨31, 0, .rwl, 0⟩]⟩,
  ⟨0x150, 1, 4, .high, [⟨12, 0, .rwl, 0⟩]⟩,
  ⟨0x154, 1, 4, .single, [⟨1, 0, .ro, 0⟩, ⟨31, 16, .ro, 0⟩]⟩,
  ⟨0x160, 1, 4, .single, [⟨2, 0, .rwl, 0⟩, ⟨13, 8, .rwl, 32⟩]⟩,
  ⟨0x164, 1, 4, .single, [⟨16, 0, .rwl, 2000⟩]⟩,
  ⟨0x168, 1, 4, .single, [⟨11, 0, .rwl, 0⟩, ⟨17, 12, .rwl, 0⟩]⟩,
  ⟨0x16C, 1, 4, .single, [⟨1, 0, .ro, 0⟩, ⟨13, 8, .ro, 0⟩, ⟨14, 14, .w1c, 0⟩]⟩,
  ⟨0x170, 1, 4, .low, [⟨31, 0, .ro, 0⟩]⟩,
  ⟨0x174, 1, 4, .high, [⟨31, 0, .ro, 0⟩]⟩,
  ⟨0x178, 1, 4, .single, [⟨19, 0, .ro, 0⟩]⟩,
  ⟨0x17C, 1, 4, .single, [⟨31, 0, .ro, 0⟩]⟩,
  ⟨0x180, 1, 4, .single, [⟨7, 0, .rwl, 0⟩]⟩,
  ⟨0x184, 1, 4, .single, [⟨0, 0, .ro, 0⟩, ⟨1, 1, .ro, 0⟩, ⟨2, 2, .ro, 0⟩]⟩,
  ⟨0x188, 1, 4, .low, [⟨31, 20, .rwl, 0⟩]⟩,
  ⟨0x18C, 1, 4, .high, [⟨31, 0, .rwl, 0⟩]⟩,
  ⟨0x190, 1, 4, .single, [⟨31, 0, .rwl, 0⟩]⟩,
  ⟨0x194, 1, 4, .single, [⟨31, 0, .ro, 0⟩]⟩,
  ⟨0x198, 1, 4, .single, [⟨31, 0, .ro, 0⟩]⟩,
  ⟨0x200, 8, 32, .single, [⟨0, 0, .rwl, 0⟩, ⟨2, 1, .rwl, 0⟩, ⟨3, 3, .rwl, 0⟩, ⟨4, 4, .rwl, 0⟩, ⟨5, 5, .rwl, 0⟩, ⟨6, 6, .rwl, 0⟩, ⟨15, 8, .rwl, 0⟩, ⟨27, 16, .rwl, 0⟩]⟩,
  ⟨0x208, 8, 32, .low, [⟨31, 8, .rwl, 0⟩]⟩,
  ⟨0x20C, 8, 32, .high, [⟨31, 0, .rwl, 0⟩]⟩,
  ⟨0x210, 8, 32, .low, [⟨31, 8, .rwl, 0⟩]⟩,
  ⟨0x214, 8, 32, .high, [⟨13, 0, .rwl, 0⟩]⟩,
  ⟨0x218, 8, 32, .single, [⟨15, 0, .ro, 0⟩, ⟨16, 16, .ro, 0⟩, ⟨17, 17, .w1s, 0⟩, ⟨23, 20, .ro, 0⟩, ⟨31, 31, .w1s, 0⟩]⟩]

/-- Registers of the QUE page (07_host_objects_and_ordering). -/
def queRegs : List Reg := [
  ⟨0x040, 1, 4, .single, [⟨0, 0, .rwl, 0⟩, ⟨5, 1, .rwl, 6⟩, ⟨7, 6, .rwl, 0⟩, ⟨15, 8, .rwl, 0⟩, ⟨24, 16, .rwl, 0⟩, ⟨25, 25, .w1s, 0⟩, ⟨26, 26, .w1s, 0⟩]⟩,
  ⟨0x044, 1, 4, .single, [⟨0, 0, .ro, 0⟩, ⟨1, 1, .ro, 0⟩, ⟨2, 2, .ro, 0⟩, ⟨3, 3, .ro, 0⟩]⟩,
  ⟨0x048, 1, 4, .low, [⟨31, 12, .rwl, 0⟩]⟩,
  ⟨0x04C, 1, 4, .high, [⟨31, 0, .rwl, 0⟩]⟩,
  ⟨0x050, 1, 4, .low, [⟨31, 12, .rwl, 0⟩]⟩,
  ⟨0x054, 1, 4, .high, [⟨31, 0, .rwl, 0⟩]⟩,
  ⟨0x058, 1, 4, .single, [⟨31, 0, .wo, 0⟩]⟩,
  ⟨0x05C, 1, 4, .single, [⟨31, 0, .ro, 0⟩]⟩,
  ⟨0x060, 1, 4, .single, [⟨31, 0, .ro, 0⟩]⟩,
  ⟨0x064, 1, 4, .single, [⟨31, 0, .ro, 0⟩]⟩,
  ⟨0x068, 1, 4, .single, [⟨7, 0, .ro, 0⟩]⟩,
  ⟨0x06C, 1, 4, .single, [⟨31, 0, .ro, 0⟩]⟩,
  ⟨0x070, 1, 4, .single, [⟨31, 0, .ro, 0⟩]⟩,
  ⟨0x074, 1, 4, .single, [⟨9, 0, .rwl, 0⟩]⟩]

/-- Registers of the FEN page (07_host_objects_and_ordering). -/
def fenRegs : List Reg := [
  ⟨0x100, 32, 64, .low, [⟨31, 0, .ro, 0⟩]⟩,
  ⟨0x104, 32, 64, .high, [⟨31, 0, .ro, 0⟩]⟩,
  ⟨0x108, 32, 64, .low, [⟨31, 0, .ro, 0⟩]⟩,
  ⟨0x10C, 32, 64, .high, [⟨31, 0, .ro, 0⟩]⟩,
  ⟨0x110, 32, 64, .single, [⟨1, 0, .ro, 0⟩]⟩,
  ⟨0x114, 32, 64, .single, [⟨11, 0, .rwl, 0⟩, ⟨12, 12, .rwl, 0⟩, ⟨13, 13, .rwl, 0⟩, ⟨14, 14, .w1s, 0⟩]⟩,
  ⟨0x118, 32, 64, .single, [⟨11, 0, .rwl, 0⟩, ⟨14, 12, .rwl, 0⟩]⟩,
  ⟨0x11C, 32, 64, .single, [⟨31, 0, .ro, 0⟩]⟩,
  ⟨0x120, 32, 64, .single, [⟨31, 0, .ro, 0⟩]⟩,
  ⟨0x124, 32, 64, .single, [⟨31, 0, .ro, 0⟩]⟩,
  ⟨0x128, 32, 64, .single, [⟨31, 0, .ro, 0⟩]⟩,
  ⟨0x12C, 32, 64, .single, [⟨31, 0, .ro, 0⟩]⟩,
  ⟨0x130, 32, 64, .single, [⟨31, 0, .ro, 0⟩]⟩,
  ⟨0x134, 32, 64, .single, [⟨31, 0, .ro, 0⟩]⟩,
  ⟨0x138, 32, 64, .single, [⟨31, 0, .ro, 0⟩]⟩,
  ⟨0x13C, 32, 64, .single, [⟨31, 0, .ro, 0⟩]⟩]

/-- Registers of the EVQ page (07_host_objects_and_ordering). -/
def evqRegs : List Reg := [
  ⟨0x040, 1, 4, .single, [⟨0, 0, .rwl, 0⟩, ⟨5, 1, .rwl, 0⟩, ⟨11, 6, .rwl, 0⟩]⟩,
  ⟨0x044, 1, 4, .low, [⟨31, 12, .rwl, 0⟩]⟩,
  ⟨0x048, 1, 4, .high, [⟨31, 0, .rwl, 0⟩]⟩,
  ⟨0x04C, 1, 4, .single, [⟨31, 0, .ro, 0⟩]⟩,
  ⟨0x050, 1, 4, .single, [⟨31, 0, .rwl, 0⟩]⟩,
  ⟨0x054, 1, 4, .single, [⟨31, 0, .ro, 0⟩]⟩,
  ⟨0x058, 1, 4, .single, [⟨15, 0, .rwl, 0⟩]⟩]

/-- The block-specific registers of a page. -/
def Pg.regs : Pg → List Reg
  | .glb => glbRegs
  | .map => mapRegs
  | .rcv => rcvRegs
  | .dbg => dbgRegs
  | .pci => pciRegs
  | .core => coreRegs
  | .shst => shstRegs
  | .isl => islRegs
  | .memt => memtRegs
  | .nap => napRegs
  | .memc => memcRegs
  | .lnk => lnkRegs
  | .rte => rteRegs
  | .part => partRegs
  | .rgl0 => rgl0Regs
  | .rgl1 => rgl1Regs
  | .rglp => rglpRegs
  | .pwr => pwrRegs
  | .thm => thmRegs
  | .sec => secRegs
  | .key => keyRegs
  | .att => attRegs
  | .mgmt => mgmtRegs
  | .splt => spltRegs
  | .ctx => ctxRegs
  | .que => queRegs
  | .fen => fenRegs
  | .evq => evqRegs

/-- TYPE of BLK_ID (R519). -/
def Pg.code : Pg → Nat
  | .glb => 0x02
  | .map => 0x02
  | .rcv => 0x02
  | .dbg => 0x18
  | .pci => 0x19
  | .core => 0x03
  | .shst => 0x05
  | .isl => 0x04
  | .memt => 0x06
  | .nap => 0x08
  | .memc => 0x07
  | .lnk => 0x0F
  | .rte => 0x10
  | .part => 0x0D
  | .rgl0 => 0x0E
  | .rgl1 => 0x0E
  | .rglp => 0x0E
  | .pwr => 0x11
  | .thm => 0x12
  | .sec => 0x13
  | .key => 0x14
  | .att => 0x15
  | .mgmt => 0x16
  | .splt => 0x17
  | .ctx => 0x09
  | .que => 0x0A
  | .fen => 0x0B
  | .evq => 0x0C

/-- INSTANCE of the first page of this kind (R526). -/
def Pg.inst : Pg → Nat
  | .glb => 0
  | .map => 1
  | .rcv => 2
  | .dbg => 0
  | .pci => 0
  | .core => 0
  | .shst => 0
  | .isl => 0
  | .memt => 0
  | .nap => 0
  | .memc => 0
  | .lnk => 0
  | .rte => 0
  | .part => 0
  | .rgl0 => 0
  | .rgl1 => 1
  | .rglp => 2
  | .pwr => 0
  | .thm => 0
  | .sec => 0
  | .key => 0
  | .att => 0
  | .mgmt => 0
  | .splt => 0
  | .ctx => 0
  | .que => 0
  | .fen => 0
  | .evq => 0

/-- Number of pages of this kind (R526). -/
def Pg.count : Pg → Nat
  | .glb => 1
  | .map => 1
  | .rcv => 1
  | .dbg => 1
  | .pci => 1
  | .core => 8
  | .shst => 8
  | .isl => 128
  | .memt => 16
  | .nap => 16
  | .memc => 256
  | .lnk => 36
  | .rte => 1
  | .part => 32
  | .rgl0 => 1
  | .rgl1 => 1
  | .rglp => 32
  | .pwr => 1
  | .thm => 1
  | .sec => 1
  | .key => 8
  | .att => 1
  | .mgmt => 1
  | .splt => 1
  | .ctx => 1024
  | .que => 4096
  | .fen => 2048
  | .evq => 512

/-- BAR0 offset of page i of this kind (R526). -/
def Pg.base : Pg → Nat → Nat
  | .glb, _ => 0x10000
  | .map, _ => 0x11000
  | .rcv, _ => 0x12000
  | .dbg, _ => 0x13000
  | .pci, _ => 0x14000
  | .core, i => 0x100000 + 0x20000 * i
  | .shst, i => 0x101000 + 0x20000 * i
  | .isl, i => 0x102000 + 0x20000 * (i / 16) + 0x1000 * (i % 16)
  | .memt, i => 0x200000 + 0x20000 * i
  | .nap, i => 0x201000 + 0x20000 * i
  | .memc, i => 0x202000 + 0x20000 * (i / 16) + 0x1000 * (i % 16)
  | .lnk, i => 0x400000 + 0x1000 * i
  | .rte, _ => 0x480000
  | .part, i => 0x500000 + 0x1000 * i
  | .rgl0, _ => 0x600000
  | .rgl1, _ => 0x601000
  | .rglp, i => 0x602000 + 0x1000 * i
  | .pwr, _ => 0x700000
  | .thm, _ => 0x701000
  | .sec, _ => 0x800000
  | .key, i => 0x801000 + 0x1000 * i
  | .att, _ => 0x809000
  | .mgmt, _ => 0x900000
  | .splt, _ => 0x901000
  | .ctx, i => 0x1000000 + 0x1000 * i
  | .que, i => 0x2000000 + 0x1000 * i
  | .fen, i => 0x3000000 + 0x1000 * i
  | .evq, i => 0x3800000 + 0x1000 * i

/-- Pages whose default owner is Skeldor (R526). Log 20 (DEDUCED). -/
def Pg.skeldor : Pg → Bool
  | .glb => false
  | .map => false
  | .rcv => false
  | .dbg => false
  | .pci => false
  | .core => false
  | .shst => false
  | .isl => false
  | .memt => true
  | .nap => true
  | .memc => true
  | .lnk => false
  | .rte => false
  | .part => false
  | .rgl0 => true
  | .rgl1 => false
  | .rglp => false
  | .pwr => false
  | .thm => true
  | .sec => false
  | .key => false
  | .att => true
  | .mgmt => false
  | .splt => false
  | .ctx => false
  | .que => false
  | .fen => false
  | .evq => false

/-- Pages whose owner a handle map can change (R242). -/
def Pg.movable : Pg → Bool
  | .glb => false
  | .map => false
  | .rcv => false
  | .dbg => false
  | .pci => false
  | .core => false
  | .shst => false
  | .isl => false
  | .memt => false
  | .nap => false
  | .memc => false
  | .lnk => false
  | .rte => false
  | .part => false
  | .rgl0 => false
  | .rgl1 => false
  | .rglp => false
  | .pwr => false
  | .thm => false
  | .sec => false
  | .key => false
  | .att => false
  | .mgmt => false
  | .splt => false
  | .ctx => true
  | .que => true
  | .fen => true
  | .evq => false

/-- The page that a BAR0 offset of the physical function lies in (R526). Log 11 (DESIGN CHOICE). -/
def pageAt (off : Nat) : Option (Pg × Nat) :=
  let p := off / 0x1000
  if p < 0x10 then none
  else if p = 0x10 then some (.glb, 0)
  else if p = 0x11 then some (.map, 0)
  else if p = 0x12 then some (.rcv, 0)
  else if p = 0x13 then some (.dbg, 0)
  else if p = 0x14 then some (.pci, 0)
  else if 0x100 ≤ p ∧ p < 0x200 then
    let c := (p - 0x100) / 0x20
    let i := p % 0x20
    if i = 0 then some (.core, c) else if i = 1 then some (.shst, c)
    else if i < 18 then some (.isl, c * 16 + (i - 2)) else none
  else if 0x200 ≤ p ∧ p < 0x400 then
    let t := (p - 0x200) / 0x20
    let i := p % 0x20
    if i = 0 then some (.memt, t) else if i = 1 then some (.nap, t)
    else if i < 18 then some (.memc, t * 16 + (i - 2)) else none
  else if 0x400 ≤ p ∧ p < 0x424 then some (.lnk, p - 0x400)
  else if p = 0x480 then some (.rte, 0)
  else if 0x500 ≤ p ∧ p < 0x520 then some (.part, p - 0x500)
  else if p = 0x600 then some (.rgl0, 0)
  else if p = 0x601 then some (.rgl1, 0)
  else if 0x602 ≤ p ∧ p < 0x622 then some (.rglp, p - 0x602)
  else if p = 0x700 then some (.pwr, 0)
  else if p = 0x701 then some (.thm, 0)
  else if p = 0x800 then some (.sec, 0)
  else if 0x801 ≤ p ∧ p < 0x809 then some (.key, p - 0x801)
  else if p = 0x809 then some (.att, 0)
  else if p = 0x900 then some (.mgmt, 0)
  else if p = 0x901 then some (.splt, 0)
  else if 0x1000 ≤ p ∧ p < 0x1400 then some (.ctx, p - 0x1000)
  else if 0x2000 ≤ p ∧ p < 0x3000 then some (.que, p - 0x2000)
  else if 0x3000 ≤ p ∧ p < 0x3800 then some (.fen, p - 0x3000)
  else if 0x3800 ≤ p ∧ p < 0x3A00 then some (.evq, p - 0x3800)
  else none

/-- Whether the register (or one of its repetitions) stands at offset `o` of its page. -/
def Reg.covers (r : Reg) (o : Nat) : Bool :=
  decide (r.off ≤ o) && (o - r.off) % r.stride == 0 && decide ((o - r.off) / r.stride < r.n)

/-- The register at offset `o` of a page; `none` for an offset that names none (R515). Log 11 (DESIGN CHOICE). -/
def regAt (p : Pg) (o : Nat) : Option Reg :=
  (if o < 0x40 then headerRegs else p.regs).find? (fun r => r.covers o)

/-- The word that fields spell when each holds its reset value. Log 3 (DESIGN CHOICE). -/
def Reg.reset (r : Reg) : Nat := r.flds.foldl (fun w f => w + (f.rst <<< f.lo)) 0

/-- Offset of the highest block-specific register (LAST of BLK_CAP, R519). -/
def Pg.last (p : Pg) : Nat := p.regs.foldl (fun m r => max m (r.off + r.stride * (r.n - 1))) 0

/-- Reset value of the register at a BAR0 offset. Log 3 (DESIGN CHOICE). -/
def resetWord (off : Nat) : Word :=
  match pageAt off with
  | none => 0
  | some (p, i) =>
    let o := off % 0x1000
    if o = 0x000 then BitVec.ofNat 32 (p.code + (p.inst + i) <<< 8 + 1 <<< 24)
    else if o = 0x004 then BitVec.ofNat 32 (p.last / 4 + (if p.movable then 1 <<< 10 else 0))
    else if o = 0x020 then (if p.skeldor then 0x100 else 0)
    else match regAt p o with
      | some r => BitVec.ofNat 32 r.reset
      | none => 0

/-! Names of registers (offset in the page) and of their fields. -/

def GLB_MCLK : Nat := 0x040
def GLB_BAR2_WIN : Nat := 0x048
def GLB_BAR2_WIN_BASE : F := ⟨0x048, 8, 0⟩
def GLB_EVQ_SEL : Nat := 0x04C
def GLB_EVQ_SEL_EVQ : F := ⟨0x04C, 8, 0⟩
def GLB_EVQ_FN : Nat := 0x050
def GLB_EVQ_FN_FUNCTION : F := ⟨0x050, 7, 0⟩
def GLB_VIOL_PAGE : Nat := 0x054
def GLB_VIOL_PAGE_PAGE : F := ⟨0x054, 13, 0⟩
def GLB_VIOL_PAGE_FN : F := ⟨0x054, 21, 14⟩
def GLB_VIOL_CNT : Nat := 0x058
def GLB_MAP_ERR : Nat := 0x040
def GLB_MAP_ERR_INDEX : F := ⟨0x040, 5, 0⟩
def GLB_MAP_ERR_IS_SET : F := ⟨0x040, 6, 6⟩
def GLB_MAP_ERR_RULE : F := ⟨0x040, 11, 8⟩
def GLB_REGION_0 : Nat := 0x400
def GLB_REGION_0_VALID : F := ⟨0x400, 0, 0⟩
def GLB_REGION_0_PARTITION : F := ⟨0x400, 5, 1⟩
def GLB_REGION_0_SET : F := ⟨0x400, 11, 6⟩
def GLB_REGION_1 : Nat := 0x404
def GLB_REGION_1_BASE : F := ⟨0x404, 17, 0⟩
def GLB_REGION_2 : Nat := 0x408
def GLB_REGION_2_START : F := ⟨0x408, 9, 0⟩
def GLB_REGION_3 : Nat := 0x40C
def GLB_REGION_3_PER_CH : F := ⟨0x40C, 10, 0⟩
def GLB_SET : Nat := 0x800
def GLB_HANG_CTL : Nat := 0x040
def GLB_HANG_CTL_THRESH : F := ⟨0x040, 7, 0⟩
def GLB_HANG_CTL_TASTE_THRESH : F := ⟨0x040, 11, 8⟩
def GLB_HANG_CTL_ROUND_MULT : F := ⟨0x040, 15, 12⟩
def GLB_HANG_CTL_SPAN_WAIT : F := ⟨0x040, 27, 16⟩
def GLB_RCV_STAT : Nat := 0x044
def GLB_RCV_STAT_LEVEL : F := ⟨0x044, 2, 0⟩
def GLB_RCV_STAT_ENGINE_KIND : F := ⟨0x044, 5, 3⟩
def GLB_RCV_STAT_INDEX : F := ⟨0x044, 13, 6⟩
def GLB_RCV_STAT_WAIT_APPROVAL : F := ⟨0x044, 14, 14⟩
def GLB_RCV_STAT_HELD : F := ⟨0x044, 15, 15⟩
def GLB_RCV_STAT_PARTITION : F := ⟨0x044, 20, 16⟩
def GLB_RCV_APPROVE : Nat := 0x048
def GLB_RCV_APPROVE_APPROVE : F := ⟨0x048, 0, 0⟩
def GLB_RCV_APPROVE_HOLD : F := ⟨0x048, 1, 1⟩
def GLB_RCV_APPROVE_REQUEST : F := ⟨0x048, 2, 2⟩
def GLB_RCV_APPROVE_LEVEL : F := ⟨0x048, 5, 3⟩
def GLB_RCV_APPROVE_PARTITION : F := ⟨0x048, 10, 6⟩
def GLB_RCV_CNT : Nat := 0x04C
def GLB_RCV_CNT_CONTEXT : F := ⟨0x04C, 7, 0⟩
def GLB_RCV_CNT_ENGINE : F := ⟨0x04C, 15, 8⟩
def GLB_RCV_CNT_PARTITION : F := ⟨0x04C, 23, 16⟩
def GLB_RCV_CNT_DEVICE : F := ⟨0x04C, 31, 24⟩
def GLB_TASTE_STAT : Nat := 0x050
def GLB_TASTE_STAT_CONTEXT : F := ⟨0x050, 9, 0⟩
def GLB_TASTE_STAT_LEFT : F := ⟨0x050, 15, 10⟩
def GLB_TASTE_STAT_RESULT : F := ⟨0x050, 17, 16⟩
def GLB_TASTE_STAT_GUILTY : F := ⟨0x050, 27, 18⟩
def GLB_CRUMB_HOST : Nat := 0x054
def GLB_CRUMB_CTL : Nat := 0x05C
def GLB_CRUMB_CTL_SIZE : F := ⟨0x05C, 15, 0⟩
def GLB_CRUMB_CTL_CLEAR : F := ⟨0x05C, 16, 16⟩
def GLB_CRUMB_STAT : Nat := 0x060
def GLB_CRUMB_STAT_WRITTEN : F := ⟨0x060, 15, 0⟩
def GLB_CRUMB_STAT_FULL : F := ⟨0x060, 16, 16⟩
def GLB_RETIRE_REQ : Nat := 0x064
def GLB_RETIRE_REQ_TYPE : F := ⟨0x064, 7, 0⟩
def GLB_RETIRE_REQ_INDEX : F := ⟨0x064, 15, 8⟩
def GLB_RETIRE_REQ_GO : F := ⟨0x064, 16, 16⟩
def GLB_RETIRE_REQ_BUSY : F := ⟨0x064, 17, 17⟩
def GLB_RETIRE_REQ_RESULT : F := ⟨0x064, 20, 18⟩
def DBG_TEST_CTL : Nat := 0x040
def DBG_TEST_CTL_TEST : F := ⟨0x040, 0, 0⟩
def DBG_TEST_CTL_PORT_OPEN : F := ⟨0x040, 1, 1⟩
def DBG_HALT : Nat := 0x044
def DBG_HALT_ISLAND : F := ⟨0x044, 7, 0⟩
def DBG_HALT_HALT : F := ⟨0x044, 8, 8⟩
def DBG_HALT_RESUME : F := ⟨0x044, 9, 9⟩
def DBG_HALT_HALTED : F := ⟨0x044, 10, 10⟩
def DBG_HALT_RESULT : F := ⟨0x044, 12, 11⟩
def DBG_ACC_TGT : Nat := 0x048
def DBG_ACC_TGT_ISLAND : F := ⟨0x048, 7, 0⟩
def DBG_ACC_TGT_UNIT : F := ⟨0x048, 15, 8⟩
def DBG_ACC_TGT_SPACE : F := ⟨0x048, 18, 16⟩
def DBG_ACC_WORD : Nat := 0x04C
def DBG_ACC_WORD_WORD : F := ⟨0x04C, 19, 0⟩
def DBG_ACC_DATA : Nat := 0x050
def DBG_ACC_CTL : Nat := 0x054
def DBG_ACC_CTL_READ : F := ⟨0x054, 0, 0⟩
def DBG_ACC_CTL_WRITE : F := ⟨0x054, 1, 1⟩
def DBG_ACC_CTL_BUSY : F := ⟨0x054, 2, 2⟩
def DBG_ACC_CTL_BLOCKED : F := ⟨0x054, 3, 3⟩
def DBG_ACC_CTL_RANGE : F := ⟨0x054, 4, 4⟩
def DBG_ACC_CTL_NOT_HALTED : F := ⟨0x054, 5, 5⟩
def PCI_LINK_STAT : Nat := 0x040
def PCI_LINK_STAT_GEN : F := ⟨0x040, 3, 0⟩
def PCI_LINK_STAT_WIDTH : F := ⟨0x040, 8, 4⟩
def PCI_LINK_STAT_LINK_UP : F := ⟨0x040, 9, 9⟩
def PCI_LINK_STAT_IDE_SECURE : F := ⟨0x040, 14, 10⟩
def PCI_UR_CNT : Nat := 0x044
def PCI_DLOG_SEL : Nat := 0x200
def PCI_DLOG_SEL_FUNCTION : F := ⟨0x200, 7, 0⟩
def PCI_DLOG_CTL : Nat := 0x204
def PCI_DLOG_CTL_ENABLE : F := ⟨0x204, 0, 0⟩
def PCI_DLOG_CTL_FLIP : F := ⟨0x204, 1, 1⟩
def PCI_DLOG_CTL_FLIP_BUSY : F := ⟨0x204, 2, 2⟩
def PCI_DLOG_CTL_ACTIVE : F := ⟨0x204, 3, 3⟩
def PCI_DLOG_CTL_OVERFLOW : F := ⟨0x204, 4, 4⟩
def PCI_DLOG_MAP0 : Nat := 0x208
def PCI_DLOG_MAP1 : Nat := 0x210
def PCI_DLOG_IOVA : Nat := 0x218
def PCI_DLOG_PAGES : Nat := 0x220
def PCI_ATS_XREQ_CNT : Nat := 0x224
def PCI_ATS_INVAL_CNT : Nat := 0x228
def CORE_QUIET : Nat := 0x040
def CORE_QUIET_QUIET : F := ⟨0x040, 3, 0⟩
def CORE_QUIET_HELD : F := ⟨0x040, 7, 4⟩
def SHST_READ_CNT : Nat := 0x040
def SHST_MERGE_CNT : Nat := 0x048
def SHST_MERGE_STAT : Nat := 0x050
def SHST_MERGE_STAT_OPEN : F := ⟨0x050, 9, 0⟩
def SHST_MERGE_STAT_HIGH : F := ⟨0x050, 25, 16⟩
def SHST_MERGE_STAT_FULL_SEEN : F := ⟨0x050, 26, 26⟩
def SHST_BANK_ERR : Nat := 0x054
def SHST_BANK_ERR_CORR : F := ⟨0x054, 15, 0⟩
def SHST_BANK_ERR_UNCORR : F := ⟨0x054, 23, 16⟩
def SHST_BANK_ERR_LAST_BANK : F := ⟨0x054, 28, 24⟩
def SHST_MOVER_STAT : Nat := 0x058
def SHST_MOVER_STAT_BUSY : F := ⟨0x058, 15, 0⟩
def ISL_CLK_CTL : Nat := 0x040
def ISL_CLK_CTL_CEIL : F := ⟨0x040, 6, 0⟩
def ISL_CLK_STAT : Nat := 0x044
def ISL_CLK_STAT_EFF : F := ⟨0x044, 6, 0⟩
def ISL_CLK_STAT_RAMPING : F := ⟨0x044, 7, 7⟩
def ISL_CLK_STAT_LIMIT_SRC : F := ⟨0x044, 10, 8⟩
def ISL_CYC_CNT : Nat := 0x048
def ISL_STRETCH_CNT : Nat := 0x050
def ISL_FIRE_CNT : Nat := 0x058
def ISL_SP_ERR : Nat := 0x05C
def ISL_SP_ERR_CORR : F := ⟨0x05C, 15, 0⟩
def ISL_SP_ERR_UNCORR_DATA : F := ⟨0x05C, 23, 16⟩
def ISL_SP_ERR_UNCORR_CFG : F := ⟨0x05C, 31, 24⟩
def ISL_XPART_DROP : Nat := 0x060
def ISL_HS_ERR : Nat := 0x064
def ISL_STAT : Nat := 0x068
def ISL_STAT_DEEP_DROOP : F := ⟨0x068, 0, 0⟩
def ISL_STAT_QUIET : F := ⟨0x068, 1, 1⟩
def ISL_STAT_CFG_VALID : F := ⟨0x068, 2, 2⟩
def MEMT_TEMP_LO : Nat := 0x040
def MEMT_TEMP_HI : Nat := 0x044
def MEMT_REFRESH : Nat := 0x048
def MEMT_REFRESH_DOUBLED : F := ⟨0x048, 0, 0⟩
def MEMT_REFRESH_SENSOR_FAULT : F := ⟨0x048, 8, 1⟩
def MEMT_REFRESH_DOUBLED_EPOCHS : F := ⟨0x048, 31, 16⟩
def NAP_HIT_CNT : Nat := 0x040
def NAP_MISS_CNT : Nat := 0x048
def NAP_WB_CNT : Nat := 0x050
def NAP_STALE_DROP : Nat := 0x058
def NAP_FLUSH_STAT : Nat := 0x05C
def NAP_FLUSH_STAT_KEY : F := ⟨0x05C, 7, 0⟩
def NAP_FLUSH_STAT_PARTITION : F := ⟨0x05C, 12, 8⟩
def NAP_FLUSH_STAT_BY_PART : F := ⟨0x05C, 13, 13⟩
def NAP_FLUSH_STAT_BUSY : F := ⟨0x05C, 14, 14⟩
def NAP_FLUSH_STAT_WRITTEN : F := ⟨0x05C, 26, 16⟩
def MEMC_CORR : Nat := 0x040
def MEMC_ERAS : Nat := 0x044
def MEMC_UNCORR : Nat := 0x048
def MEMC_TAG_RETRY : Nat := 0x04C
def MEMC_TAG_FAIL : Nat := 0x050
def MEMC_LAST_ERR : Nat := 0x054
def MEMC_LAST_ERR_CL : F := ⟨0x054, 22, 0⟩
def MEMC_LAST_ERR_TAG : F := ⟨0x054, 23, 23⟩
def MEMC_LAST_ERR_CW1 : F := ⟨0x054, 24, 24⟩
def MEMC_LANE_STAT : Nat := 0x058
def MEMC_LANE_STAT_SPARES_USED : F := ⟨0x058, 3, 0⟩
def MEMC_LANE_STAT_ERAS_CW0 : F := ⟨0x058, 7, 4⟩
def MEMC_LANE_STAT_ERAS_CW1 : F := ⟨0x058, 11, 8⟩
def MEMC_LANE_STAT_IN_SERVICE : F := ⟨0x058, 12, 12⟩
def MEMC_REPAIR_CTL : Nat := 0x05C
def MEMC_REPAIR_CTL_LANE : F := ⟨0x05C, 8, 0⟩
def MEMC_REPAIR_CTL_START : F := ⟨0x05C, 9, 9⟩
def MEMC_REPAIR_CTL_BUSY : F := ⟨0x05C, 10, 10⟩
def MEMC_REPAIR_CTL_DONE : F := ⟨0x05C, 11, 11⟩
def MEMC_SCRUB_CNT : Nat := 0x060
def LNK_CTL : Nat := 0x040
def LNK_CTL_ENABLE : F := ⟨0x040, 0, 0⟩
def LNK_CTL_FEC_STRONG : F := ⟨0x040, 1, 1⟩
def LNK_CTL_HALF_RATE : F := ⟨0x040, 2, 2⟩
def LNK_CTL_FWD : F := ⟨0x040, 3, 3⟩
def LNK_CTL_RETRAIN : F := ⟨0x040, 4, 4⟩
def LNK_CTL_REKEY : F := ⟨0x040, 5, 5⟩
def LNK_STAT : Nat := 0x044
def LNK_STAT_STATE : F := ⟨0x044, 2, 0⟩
def LNK_STAT_STRONG : F := ⟨0x044, 3, 3⟩
def LNK_STAT_HALF : F := ⟨0x044, 4, 4⟩
def LNK_STAT_BOUND : F := ⟨0x044, 5, 5⟩
def LNK_STAT_PARTITION : F := ⟨0x044, 10, 6⟩
def LNK_STAT_SPAN_SLOT : F := ⟨0x044, 13, 11⟩
def LNK_STAT_FWD_POOL : F := ⟨0x044, 14, 14⟩
def LNK_STAT_HELD_LEFT : F := ⟨0x044, 31, 16⟩
def LNK_PARTNER : Nat := 0x048
def LNK_PARTNER_DEVICE : F := ⟨0x048, 11, 0⟩
def LNK_PARTNER_PORT : F := ⟨0x048, 17, 12⟩
def LNK_INCARN : Nat := 0x04C
def LNK_FEC_CORR : Nat := 0x050
def LNK_FEC_UNCORR : Nat := 0x054
def LNK_RETRY_CNT : Nat := 0x058
def LNK_CRC_ERR : Nat := 0x05C
def LNK_TAG_FAIL : Nat := 0x060
def LNK_TRAIN_FAIL : Nat := 0x064
def LNK_LOSS_CNT : Nat := 0x068
def LNK_STRAG_CNT : Nat := 0x06C
def LNK_STRAG_LAST : Nat := 0x070
def LNK_STRAG_LAST_DEVICE : F := ⟨0x070, 11, 0⟩
def RTE_SELF : Nat := 0x040
def RTE_SELF_DEVICE : F := ⟨0x040, 11, 0⟩
def RTE_SELF_SET : F := ⟨0x040, 12, 12⟩
def RTE_CTL : Nat := 0x044
def RTE_CTL_STRAG_MIN : F := ⟨0x044, 7, 0⟩
def RTE_SEL : Nat := 0x048
def RTE_SEL_DEST : F := ⟨0x048, 11, 0⟩
def RTE_DATA : Nat := 0x04C
def RTE_DATA_VALID : F := ⟨0x04C, 0, 0⟩
def RTE_DATA_STATE : F := ⟨0x04C, 2, 1⟩
def RTE_DATA_NEXT : F := ⟨0x04C, 14, 3⟩
def RTE_DATA_ALT : F := ⟨0x04C, 26, 15⟩
def RTE_DATA_HOPS : F := ⟨0x04C, 30, 27⟩
def RTE_DATA_LEARNED : F := ⟨0x04C, 31, 31⟩
def RTE_STRAG_SELF : Nat := 0x050
def RTE_ROUTE_FAIL : Nat := 0x054
def RTE_EXPIRED : Nat := 0x058
def RTE_REFUSED : Nat := 0x05C
def PART_CTL : Nat := 0x040
def PART_CTL_FORM : F := ⟨0x040, 0, 0⟩
def PART_CTL_ACTIVATE : F := ⟨0x040, 1, 1⟩
def PART_CTL_DISSOLVE : F := ⟨0x040, 2, 2⟩
def PART_STAT : Nat := 0x044
def PART_STAT_STATE : F := ⟨0x044, 1, 0⟩
def PART_STAT_REBIND_BUSY : F := ⟨0x044, 2, 2⟩
def PART_STAT_LAST_RESULT : F := ⟨0x044, 15, 8⟩
def PART_SLICES : Nat := 0x048
def PART_SLICE_REQ : Nat := 0x04C
def PART_REBIND_CTL : Nat := 0x050
def PART_REBIND_CTL_OP : F := ⟨0x050, 2, 0⟩
def PART_REBIND_CTL_START : F := ⟨0x050, 3, 3⟩
def PART_REBIND_CTL_ABORT : F := ⟨0x050, 4, 4⟩
def PART_REBIND_CTL_BUSY : F := ⟨0x050, 5, 5⟩
def PART_REBIND_CTL_DONE : F := ⟨0x050, 6, 6⟩
def PART_REBIND_CTL_MOVE : F := ⟨0x050, 7, 7⟩
def PART_REBIND_CTL_STEP : F := ⟨0x050, 11, 8⟩
def PART_REBIND_CTL_RESULT : F := ⟨0x050, 19, 12⟩
def PART_REBAL : Nat := 0x054
def PART_REBAL_SRC : F := ⟨0x054, 5, 0⟩
def PART_REBAL_DST : F := ⟨0x054, 13, 8⟩
def PART_REBAL_STAT : Nat := 0x058
def PART_REBAL_STAT_PASS : F := ⟨0x058, 7, 0⟩
def PART_REBAL_STAT_BLOCKS_LEFT : F := ⟨0x058, 31, 8⟩
def PART_REBIND_IGN : Nat := 0x05C
def PART_CHAN : Nat := 0x060
def PART_CHAN_REQ : Nat := 0x080
def PART_PORTS : Nat := 0x0A0
def PART_PORT_REQ : Nat := 0x0A8
def PART_PORT_SLOT : Nat := 0x0B0
def PART_PORT_SLOT_SLOT : F := ⟨0x0B0, 2, 0⟩
def PART_CTX_RANGE : Nat := 0x0B4
def PART_CTX_RANGE_BASE : F := ⟨0x0B4, 9, 0⟩
def PART_CTX_RANGE_COUNT : F := ⟨0x0B4, 20, 10⟩
def PART_QUE_RANGE : Nat := 0x0B8
def PART_QUE_RANGE_BASE : F := ⟨0x0B8, 11, 0⟩
def PART_QUE_RANGE_COUNT : F := ⟨0x0B8, 24, 12⟩
def PART_FEN_RANGE : Nat := 0x0BC
def PART_FEN_RANGE_BASE : F := ⟨0x0BC, 10, 0⟩
def PART_FEN_RANGE_COUNT : F := ⟨0x0BC, 22, 11⟩
def PART_EVQ_RANGE : Nat := 0x0C0
def PART_EVQ_RANGE_BASE : F := ⟨0x0C0, 8, 0⟩
def PART_EVQ_RANGE_COUNT : F := ⟨0x0C0, 18, 9⟩
def PART_KEYS : Nat := 0x0C4
def PART_CFG_REGION : Nat := 0x0E4
def PART_CFG_REGION_REGION : F := ⟨0x0E4, 5, 0⟩
def PART_REBAL_OFFER : Nat := 0x0E8
def PART_REBAL_OFFER_TARGET : F := ⟨0x0E8, 5, 0⟩
def PART_REBAL_OFFER_VALID : F := ⟨0x0E8, 6, 6⟩
def PART_REBAL_OFFER_RATIO : F := ⟨0x0E8, 11, 8⟩
def PART_FN_CTL : Nat := 0x0F4
def PART_FN_CTL_FUNCTION : F := ⟨0x0F4, 7, 0⟩
def PART_FN_CTL_ATTACH : F := ⟨0x0F4, 8, 8⟩
def PART_FN_CTL_DETACH : F := ⟨0x0F4, 9, 9⟩
def PART_FN_CTL_BUSY : F := ⟨0x0F4, 10, 10⟩
def PART_FN_CTL_RESULT : F := ⟨0x0F4, 13, 11⟩
def PART_MAP_SEL : Nat := 0x0F8
def PART_MAP_SEL_FUNCTION : F := ⟨0x0F8, 7, 0⟩
def PART_MAP_SEL_KIND : F := ⟨0x0F8, 9, 8⟩
def PART_MAP_SEL_HANDLE : F := ⟨0x0F8, 19, 10⟩
def PART_MAP_DATA : Nat := 0x0FC
def PART_MAP_DATA_TARGET : F := ⟨0x0FC, 15, 0⟩
def PART_MAP_DATA_VALID : F := ⟨0x0FC, 16, 16⟩
def PART_SPAN_0 : Nat := 0x100
def PART_SPAN_0_JOIN : F := ⟨0x100, 0, 0⟩
def PART_SPAN_0_LEAVE : F := ⟨0x100, 1, 1⟩
def PART_SPAN_0_STATE : F := ⟨0x100, 3, 2⟩
def PART_SPAN_0_RANK : F := ⟨0x100, 15, 4⟩
def PART_SPAN_ID : Nat := 0x104
def PART_SPAN_M : Nat := 0x108
def PART_SPAN_M_M : F := ⟨0x108, 12, 0⟩
def PART_SPAN_RESULT : Nat := 0x10C
def PART_SPAN_RESULT_RESULT : F := ⟨0x10C, 7, 0⟩
def PART_SPAN_RESULT_PEER : F := ⟨0x10C, 19, 8⟩
def PART_SPAN_EXPORT : Nat := 0x110
def PART_SPAN_TBL_SEL : Nat := 0x200
def PART_SPAN_TBL_SEL_SLOT : F := ⟨0x200, 2, 0⟩
def PART_SPAN_TBL_SEL_RANK : F := ⟨0x200, 15, 4⟩
def PART_SPAN_TBL_DATA : Nat := 0x204
def PART_SPAN_TBL_DATA_DEVICE : F := ⟨0x204, 11, 0⟩
def PART_RT_MASK : Nat := 0x210
def PART_SAVE_REGION : Nat := 0x214
def PART_SAVE_REGION_REGION : F := ⟨0x214, 5, 0⟩
def PART_SAVE_REGION_VALID : F := ⟨0x214, 6, 6⟩
def PART_SCHED_CTL : Nat := 0x218
def PART_SCHED_CTL_PRIO_MAX : F := ⟨0x218, 2, 0⟩
def PART_SCHED_CTL_NP_DEFAULT : F := ⟨0x218, 19, 4⟩
def PART_RL_CTL : Nat := 0x21C
def PART_RL_CTL_SWAP : F := ⟨0x21C, 0, 0⟩
def PART_RL_CTL_SWAP_BUSY : F := ⟨0x21C, 1, 1⟩
def PART_RL_CTL_RL_ERR : F := ⟨0x21C, 2, 2⟩
def PART_RL_CTL_LOADED : F := ⟨0x21C, 3, 3⟩
def PART_RL_CTL_CUR_ENTRY : F := ⟨0x21C, 27, 16⟩
def PART_RL_BASE : Nat := 0x220
def PART_RL_COUNT : Nat := 0x228
def PART_RL_COUNT_COUNT : F := ⟨0x228, 12, 0⟩
def PART_SWITCH_CNT : Nat := 0x22C
def PART_OVR_CNT : Nat := 0x230
def PART_DLOG_CTL : Nat := 0x300
def PART_DLOG_CTL_ENABLE : F := ⟨0x300, 0, 0⟩
def PART_DLOG_CTL_FLIP : F := ⟨0x300, 1, 1⟩
def PART_DLOG_CTL_FLIP_BUSY : F := ⟨0x300, 2, 2⟩
def PART_DLOG_HOST : Nat := 0x308
def RGL_MODE_STAT : Nat := 0x040
def RGL_MODE_STAT_QSHARE : F := ⟨0x040, 0, 0⟩
def RGL_MODE_STAT_CAUSE : F := ⟨0x040, 3, 1⟩
def RGL_BULK_LIM : Nat := 0x044
def RGL_BULK_LIM_CHAN : F := ⟨0x044, 7, 0⟩
def RGL_BULK_LIM_SEAM : F := ⟨0x044, 15, 8⟩
def RGL_BULK_LIM_LINK : F := ⟨0x044, 23, 16⟩
def RGL_BULK_LIM_PCI : F := ⟨0x044, 31, 24⟩
def RGL_FWD_CTL : Nat := 0x040
def RGL_FWD_CTL_MIN_SEAM : F := ⟨0x040, 7, 0⟩
def RGL_FWD_CTL_MIN_LINK : F := ⟨0x040, 15, 8⟩
def RGL_FWD_CTL_WEIGHT : F := ⟨0x040, 23, 16⟩
def RGL_CNT_SEL : Nat := 0x044
def RGL_CNT_SEL_REGULATOR : F := ⟨0x044, 8, 0⟩
def RGL_CNT_SEL_CLIENT : F := ⟨0x044, 14, 9⟩
def RGL_CNT_DATA : Nat := 0x048
def RGL_OVERSUB_STAT : Nat := 0x080
def RGL_MIN_CHAN : Nat := 0x040
def RGL_MIN_CHAN_MIN_RT : F := ⟨0x040, 7, 0⟩
def RGL_MIN_CHAN_MIN_NORM : F := ⟨0x040, 15, 8⟩
def RGL_MIN_CHAN_MIN_BULK : F := ⟨0x040, 23, 16⟩
def RGL_MIN_SEAM : Nat := 0x044
def RGL_MIN_SEAM_MIN_RT : F := ⟨0x044, 7, 0⟩
def RGL_MIN_SEAM_MIN_NORM : F := ⟨0x044, 15, 8⟩
def RGL_MIN_SEAM_MIN_BULK : F := ⟨0x044, 23, 16⟩
def RGL_MIN_LINK : Nat := 0x048
def RGL_MIN_LINK_MIN_RT : F := ⟨0x048, 7, 0⟩
def RGL_MIN_LINK_MIN_NORM : F := ⟨0x048, 15, 8⟩
def RGL_MIN_LINK_MIN_BULK : F := ⟨0x048, 23, 16⟩
def RGL_MIN_PCI : Nat := 0x04C
def RGL_MIN_PCI_MIN_RT : F := ⟨0x04C, 7, 0⟩
def RGL_MIN_PCI_MIN_NORM : F := ⟨0x04C, 15, 8⟩
def RGL_MIN_PCI_MIN_BULK : F := ⟨0x04C, 23, 16⟩
def RGL_WGT_CHAN : Nat := 0x050
def RGL_WGT_CHAN_W_NORM : F := ⟨0x050, 7, 0⟩
def RGL_WGT_CHAN_W_BULK : F := ⟨0x050, 15, 8⟩
def RGL_WGT_SEAM : Nat := 0x054
def RGL_WGT_SEAM_W_NORM : F := ⟨0x054, 7, 0⟩
def RGL_WGT_SEAM_W_BULK : F := ⟨0x054, 15, 8⟩
def RGL_WGT_LINK : Nat := 0x058
def RGL_WGT_LINK_W_NORM : F := ⟨0x058, 7, 0⟩
def RGL_WGT_LINK_W_BULK : F := ⟨0x058, 15, 8⟩
def RGL_WGT_PCI : Nat := 0x05C
def RGL_WGT_PCI_W_NORM : F := ⟨0x05C, 7, 0⟩
def RGL_WGT_PCI_W_BULK : F := ⟨0x05C, 15, 8⟩
def PWR_PROFILE : Nat := 0x040
def PWR_PROFILE_PROFILE : F := ⟨0x040, 2, 0⟩
def PWR_PROFILE_F_CEIL : F := ⟨0x040, 10, 4⟩
def PWR_PROFILE_GRADE : F := ⟨0x040, 11, 11⟩
def PWR_PROFILE_LANE_HALF : F := ⟨0x040, 12, 12⟩
def PWR_PROFILE_ORDER : F := ⟨0x040, 15, 13⟩
def PWR_STAT : Nat := 0x044
def PWR_STAT_ACTIVE : F := ⟨0x044, 2, 0⟩
def PWR_STAT_BIND : F := ⟨0x044, 5, 3⟩
def PWR_STAT_ELEC : F := ⟨0x044, 6, 6⟩
def PWR_STAT_HARD_THERM : F := ⟨0x044, 7, 7⟩
def PWR_STAT_THROTTLE : F := ⟨0x044, 8, 8⟩
def PWR_STAT_INPUT_LOW : F := ⟨0x044, 9, 9⟩
def PWR_STAT_DIVERGE : F := ⟨0x044, 10, 10⟩
def PWR_STAT_SENSOR : F := ⟨0x044, 11, 11⟩
def PWR_STAT_STRAG_SHIFT : F := ⟨0x044, 12, 12⟩
def PWR_STAT_GATING : F := ⟨0x044, 13, 13⟩
def PWR_STAT_GRADE_PENDING : F := ⟨0x044, 14, 14⟩
def PWR_CAP : Nat := 0x048
def PWR_CAP_CAP : F := ⟨0x048, 11, 0⟩
def PWR_CAP_WINDOW : F := ⟨0x048, 17, 12⟩
def PWR_THROTTLE_CTL : Nat := 0x04C
def PWR_THROTTLE_CTL_THR_CEIL : F := ⟨0x04C, 6, 0⟩
def PWR_THROTTLE_CTL_FORCE : F := ⟨0x04C, 7, 7⟩
def PWR_FILL_CTL : Nat := 0x050
def PWR_FILL_CTL_FILL_RAMP : F := ⟨0x050, 7, 0⟩
def PWR_FILL_CTL_EFF_RAMP : F := ⟨0x050, 15, 8⟩
def PWR_STRAG_CTL : Nat := 0x054
def PWR_STRAG_CTL_ENABLE : F := ⟨0x054, 0, 0⟩
def PWR_STRAG_CTL_EVENTS : F := ⟨0x054, 4, 1⟩
def PWR_HOST_LIM : Nat := 0x058
def PWR_HOST_LIM_WATTS : F := ⟨0x058, 11, 0⟩
def PWR_HOST_LIM_CEIL : F := ⟨0x058, 18, 12⟩
def PWR_NOW : Nat := 0x05C
def PWR_NOW_MEAS : F := ⟨0x05C, 11, 0⟩
def PWR_NOW_EST : F := ⟨0x05C, 27, 16⟩
def PWR_AVG : Nat := 0x060
def PWR_AVG_AVG : F := ⟨0x060, 11, 0⟩
def PWR_AVG_ALLOW : F := ⟨0x060, 27, 16⟩
def PWR_INPUT : Nat := 0x064
def PWR_INPUT_MV : F := ⟨0x064, 15, 0⟩
def PWR_INPUT_DA : F := ⟨0x064, 31, 16⟩
def PWR_ENERGY : Nat := 0x068
def PWR_EST_SCALE : Nat := 0x070
def PWR_EST_SCALE_K : F := ⟨0x070, 15, 0⟩
def PWR_EVT_CNT : Nat := 0x074
def PWR_EVT_CNT_DIVERGE : F := ⟨0x074, 7, 0⟩
def PWR_EVT_CNT_SENSOR : F := ⟨0x074, 15, 8⟩
def PWR_EVT_CNT_STEADY : F := ⟨0x074, 23, 16⟩
def PWR_EVT_CNT_STRAG : F := ⟨0x074, 31, 24⟩
def PWR_ELEC_CNT : Nat := 0x078
def PWR_FILL_CNT : Nat := 0x07C
def THM_JUNC : Nat := 0x040
def THM_JUNC_ISL : F := ⟨0x040, 7, 0⟩
def THM_JUNC_NUM : F := ⟨0x040, 15, 8⟩
def THM_JUNC_BASE : F := ⟨0x040, 23, 16⟩
def THM_TOWER : Nat := 0x044
def THM_TOWER_TEMP : F := ⟨0x044, 7, 0⟩
def THM_TOWER_TOWER : F := ⟨0x044, 11, 8⟩
def THM_STAT : Nat := 0x048
def THM_STAT_CONTROL : F := ⟨0x048, 0, 0⟩
def THM_STAT_HARD_JUNC : F := ⟨0x048, 1, 1⟩
def THM_STAT_HARD_TOWER : F := ⟨0x048, 2, 2⟩
def THM_STAT_HARD_BASE : F := ⟨0x048, 3, 3⟩
def THM_STAT_HARD_STAGE : F := ⟨0x048, 4, 4⟩
def THM_STAT_TRIP : F := ⟨0x048, 5, 5⟩
def THM_STAT_TRIP_KIND : F := ⟨0x048, 8, 6⟩
def THM_STAT_TRIP_INDEX : F := ⟨0x048, 16, 9⟩
def THM_STAT_NO_TOWER_SENSOR : F := ⟨0x048, 17, 17⟩
def THM_HARD_CNT : Nat := 0x04C
def THM_ISL : Nat := 0x050
def THM_BASE : Nat := 0x0D0
def THM_STAGE : Nat := 0x0E0
def SEC_PROTECT : Nat := 0x040
def SEC_KLOCK : Nat := 0x044
def SEC_UNLOCK : Nat := 0x048
def SEC_UNLOCK_PARTITION : F := ⟨0x048, 4, 0⟩
def SEC_UNLOCK_GO : F := ⟨0x048, 5, 5⟩
def SEC_UNLOCK_BUSY : F := ⟨0x048, 6, 6⟩
def SEC_KFT_SEL : Nat := 0x04C
def SEC_KFT_SEL_PARTITION : F := ⟨0x04C, 4, 0⟩
def SEC_KFT_SEL_ROW : F := ⟨0x04C, 12, 5⟩
def SEC_KFT_DATA : Nat := 0x050
def SEC_ALARM : Nat := 0x070
def SEC_ALARM_CNT : Nat := 0x074
def SEC_ALARM_LAST : Nat := 0x078
def SEC_ALARM_LAST_CAUSE : F := ⟨0x078, 7, 0⟩
def SEC_ALARM_LAST_SLOT : F := ⟨0x078, 15, 8⟩
def SEC_ALARM_LAST_PARTITION : F := ⟨0x078, 20, 16⟩
def SEC_LOCK_VIOL : Nat := 0x07C
def SEC_BAR2_BLOCK : Nat := 0x080
def SEC_DBG_BLOCK : Nat := 0x084
def SEC_SCRUB_STAT : Nat := 0x088
def SEC_SCRUB_STAT_HW : F := ⟨0x088, 15, 0⟩
def SEC_SCRUB_STAT_FW : F := ⟨0x088, 31, 16⟩
def SEC_FW_CTL : Nat := 0x08C
def SEC_FW_CTL_COMMIT_SVN : F := ⟨0x08C, 0, 0⟩
def SEC_FW_CTL_UPDATING : F := ⟨0x08C, 1, 1⟩
def SEC_FW_CTL_STAGED : F := ⟨0x08C, 4, 2⟩
def SEC_FW_CTL_FALLBACK : F := ⟨0x08C, 5, 5⟩
def SEC_FW_CTL_BANK : F := ⟨0x08C, 6, 6⟩
def KEY_CTL : Nat := 0x100
def KEY_CTL_ARM : F := ⟨0x100, 0, 0⟩
def KEY_CTL_RETIRE : F := ⟨0x100, 1, 1⟩
def KEY_CTL_FORCE : F := ⟨0x100, 2, 2⟩
def KEY_CTL_AUTO_RETIRE : F := ⟨0x100, 3, 3⟩
def KEY_CTL_HOST_FN_VALID : F := ⟨0x100, 4, 4⟩
def KEY_CTL_HOST_FN : F := ⟨0x100, 12, 5⟩
def KEY_STAT : Nat := 0x104
def KEY_STAT_STATE : F := ⟨0x104, 1, 0⟩
def KEY_STAT_STEP : F := ⟨0x104, 4, 2⟩
def KEY_STAT_RESULT : F := ⟨0x104, 7, 5⟩
def KEY_STAT_PARTITION : F := ⟨0x104, 12, 8⟩
def KEY_EPOCH : Nat := 0x108
def KEY_HOLD : Nat := 0x10C
def KEY_OWNER0 : Nat := 0x110
def KEY_OWNER1 : Nat := 0x114
def KEY_OWNER2 : Nat := 0x118
def KEY_OWNER3 : Nat := 0x11C
def KEY_OWNER4 : Nat := 0x120
def KEY_OWNER5 : Nat := 0x124
def KEY_OWNER6 : Nat := 0x128
def KEY_OWNER7 : Nat := 0x12C
def KEY_OWNER8 : Nat := 0x130
def KEY_OWNER9 : Nat := 0x134
def KEY_OWNER10 : Nat := 0x138
def KEY_OWNER11 : Nat := 0x13C
def ATT_CTR : Nat := 0x040
def ATT_SVN : Nat := 0x048
def ATT_SVN_RUN : F := ⟨0x048, 15, 0⟩
def ATT_SVN_FUSED : F := ⟨0x048, 31, 16⟩
def ATT_STAT : Nat := 0x04C
def ATT_STAT_BUSY : F := ⟨0x04C, 0, 0⟩
def ATT_STAT_UPDATE : F := ⟨0x04C, 1, 1⟩
def ATT_STAT_PARTIAL : F := ⟨0x04C, 2, 2⟩
def MGMT_MBX_CTL : Nat := 0x040
def MGMT_MBX_CTL_GO : F := ⟨0x040, 0, 0⟩
def MGMT_MBX_CTL_BUSY : F := ⟨0x040, 1, 1⟩
def MGMT_MBX_CTL_DONE : F := ⟨0x040, 2, 2⟩
def MGMT_PHASE : Nat := 0x044
def MGMT_PHASE_PHASE : F := ⟨0x044, 7, 0⟩
def MGMT_ALARM : Nat := 0x048
def MGMT_EPOCH_OVR : Nat := 0x04C
def MGMT_EPOCH : Nat := 0x050
def MGMT_REQ : Nat := 0x400
def MGMT_RSP : Nat := 0x800
def SPLT_MODE_CTL : Nat := 0x040
def SPLT_MODE_CTL_HOST : F := ⟨0x040, 6, 0⟩
def SPLT_MODE_STAT : Nat := 0x044
def SPLT_MODE_STAT_EFFECTIVE : F := ⟨0x044, 6, 0⟩
def SPLT_MODE_STAT_PENDING : F := ⟨0x044, 14, 8⟩
def SPLT_CHG_CNT : Nat := 0x048
def CTX_CTL : Nat := 0x040
def CTX_CTL_ACTIVATE : F := ⟨0x040, 0, 0⟩
def CTX_CTL_TEARDOWN : F := ⟨0x040, 1, 1⟩
def CTX_CTL_EXITED : F := ⟨0x040, 2, 2⟩
def CTX_CTL_EVQ : F := ⟨0x040, 16, 8⟩
def CTX_STAT : Nat := 0x044
def CTX_STAT_STATE : F := ⟨0x044, 1, 0⟩
def CTX_STAT_GEN : F := ⟨0x044, 15, 8⟩
def CTX_STAT_PARTITION : F := ⟨0x044, 20, 16⟩
def CTX_STAT_FUNCTION : F := ⟨0x044, 31, 24⟩
def CTX_ARITH_CTL : Nat := 0x100
def CTX_ARITH_CTL_RND : F := ⟨0x100, 1, 0⟩
def CTX_ARITH_CTL_SAT : F := ⟨0x100, 2, 2⟩
def CTX_ARITH_CTL_WARN_EVT : F := ⟨0x100, 3, 3⟩
def CTX_SEED : Nat := 0x108
def CTX_RANGE_CNT : Nat := 0x110
def CTX_INVALID_CNT : Nat := 0x114
def CTX_MOULD_REJ : Nat := 0x118
def CTX_MOULD_REJ_REASON : F := ⟨0x118, 7, 0⟩
def CTX_MOULD_REJ_MOULD_ID : F := ⟨0x118, 13, 8⟩
def CTX_MOULD_REJ_AT_ENQUEUE : F := ⟨0x118, 14, 14⟩
def CTX_MOULD_REJ_DETAIL : F := ⟨0x118, 31, 16⟩
def CTX_MOULD_REJ_CNT : Nat := 0x11C
def CTX_XLAT_REJ : Nat := 0x120
def CTX_XLAT_REJ_REASON : F := ⟨0x120, 7, 0⟩
def CTX_XLAT_REJ_SEGMENT : F := ⟨0x120, 10, 8⟩
def CTX_XLAT_REJ_RANGE : F := ⟨0x120, 16, 11⟩
def CTX_XLAT_REJ_RUN : F := ⟨0x120, 17, 17⟩
def CTX_XLAT_REJ_CNT : Nat := 0x124
def CTX_OBJ_CTL : Nat := 0x140
def CTX_OBJ_CTL_HANDLE : F := ⟨0x140, 11, 0⟩
def CTX_OBJ_CTL_OP : F := ⟨0x140, 13, 12⟩
def CTX_OBJ_CTL_BUSY : F := ⟨0x140, 14, 14⟩
def CTX_OBJ_CTL_RESULT : F := ⟨0x140, 18, 16⟩
def CTX_OBJ_SEG : Nat := 0x144
def CTX_OBJ_SEG_SEGMENT : F := ⟨0x144, 2, 0⟩
def CTX_OBJ_SEG_OFF_LO : F := ⟨0x144, 31, 3⟩
def CTX_OBJ_OFF_HI : Nat := 0x148
def CTX_OBJ_LEN_LO : Nat := 0x14C
def CTX_OBJ_LEN_HI : Nat := 0x150
def CTX_OBJ_STAT : Nat := 0x154
def CTX_OBJ_STAT_STATE : F := ⟨0x154, 1, 0⟩
def CTX_OBJ_STAT_REFS : F := ⟨0x154, 31, 16⟩
def CTX_SCHED : Nat := 0x160
def CTX_SCHED_PRIORITY : F := ⟨0x160, 2, 0⟩
def CTX_SCHED_SLICES_MAX : F := ⟨0x160, 13, 8⟩
def CTX_QUANTUM : Nat := 0x164
def CTX_QUANTUM_QUANTUM : F := ⟨0x164, 16, 0⟩
def CTX_SAVE_CTL : Nat := 0x168
def CTX_SAVE_CTL_BASE : F := ⟨0x168, 11, 0⟩
def CTX_SAVE_CTL_SLOTS : F := ⟨0x168, 17, 12⟩
def CTX_SCHED_STAT : Nat := 0x16C
def CTX_SCHED_STAT_RUN : F := ⟨0x16C, 1, 0⟩
def CTX_SCHED_STAT_SLICES : F := ⟨0x16C, 13, 8⟩
def CTX_SCHED_STAT_SAVE_ERR : F := ⟨0x16C, 14, 14⟩
def CTX_RUN : Nat := 0x170
def CTX_CHARGE : Nat := 0x178
def CTX_CHARGE_CHARGE : F := ⟨0x178, 19, 0⟩
def CTX_OVERRUN_CNT : Nat := 0x17C
def CTX_CRUMB_KEY : Nat := 0x180
def CTX_CRUMB_KEY_SLOT : F := ⟨0x180, 7, 0⟩
def CTX_RCV_STAT : Nat := 0x184
def CTX_RCV_STAT_SUSPECT : F := ⟨0x184, 0, 0⟩
def CTX_RCV_STAT_TASTING : F := ⟨0x184, 1, 1⟩
def CTX_RCV_STAT_GUILTY : F := ⟨0x184, 2, 2⟩
def CTX_CRUMB_BASE : Nat := 0x188
def CTX_EVQ_HEAD : Nat := 0x190
def CTX_EVQ_TAIL : Nat := 0x194
def CTX_EVQ_DROP : Nat := 0x198
def CTX_SEG_0 : Nat := 0x200
def CTX_SEG_0_VALID : F := ⟨0x200, 0, 0⟩
def CTX_SEG_0_LOC : F := ⟨0x200, 2, 1⟩
def CTX_SEG_0_RD : F := ⟨0x200, 3, 3⟩
def CTX_SEG_0_WR : F := ⟨0x200, 4, 4⟩
def CTX_SEG_0_AT : F := ⟨0x200, 5, 5⟩
def CTX_SEG_0_QKEY : F := ⟨0x200, 6, 6⟩
def CTX_SEG_0_KEY : F := ⟨0x200, 15, 8⟩
def CTX_SEG_0_REMOTE_DEV : F := ⟨0x200, 27, 16⟩
def CTX_SEG_2 : Nat := 0x208
def CTX_SEG_2_BASE_LO : F := ⟨0x208, 31, 8⟩
def CTX_SEG_3 : Nat := 0x20C
def CTX_SEG_3_BASE_HI : F := ⟨0x20C, 31, 0⟩
def CTX_SEG_4 : Nat := 0x210
def CTX_SEG_4_LIMIT_LO : F := ⟨0x210, 31, 8⟩
def CTX_SEG_5 : Nat := 0x214
def CTX_SEG_5_LIMIT_HI : F := ⟨0x214, 13, 0⟩
def CTX_SEG_6 : Nat := 0x218
def CTX_SEG_6_HOLD : F := ⟨0x218, 15, 0⟩
def CTX_SEG_6_PENDING : F := ⟨0x218, 16, 16⟩
def CTX_SEG_6_CANCEL : F := ⟨0x218, 17, 17⟩
def CTX_SEG_6_ERR : F := ⟨0x218, 23, 20⟩
def CTX_SEG_6_COMMIT : F := ⟨0x218, 31, 31⟩
def QUE_CTL : Nat := 0x040
def QUE_CTL_ENABLE : F := ⟨0x040, 0, 0⟩
def QUE_CTL_SIZE_LOG2 : F := ⟨0x040, 5, 1⟩
def QUE_CTL_CLASS : F := ⟨0x040, 7, 6⟩
def QUE_CTL_KEY : F := ⟨0x040, 15, 8⟩
def QUE_CTL_EVQ : F := ⟨0x040, 24, 16⟩
def QUE_CTL_RESTART : F := ⟨0x040, 25, 25⟩
def QUE_CTL_CLEAR_LATCH : F := ⟨0x040, 26, 26⟩
def QUE_STAT : Nat := 0x044
def QUE_STAT_ENABLED : F := ⟨0x044, 0, 0⟩
def QUE_STAT_HALTED : F := ⟨0x044, 1, 1⟩
def QUE_STAT_LATCH : F := ⟨0x044, 2, 2⟩
def QUE_STAT_HELD : F := ⟨0x044, 3, 3⟩
def QUE_RING : Nat := 0x048
def QUE_CPL : Nat := 0x050
def QUE_DB : Nat := 0x058
def QUE_HEAD : Nat := 0x05C
def QUE_SEQ : Nat := 0x060
def QUE_DONE : Nat := 0x064
def QUE_ERR : Nat := 0x068
def QUE_ERR_REASON : F := ⟨0x068, 7, 0⟩
def QUE_ERR_SEQ : Nat := 0x06C
def QUE_DB_ERR_CNT : Nat := 0x070
def QUE_CTX : Nat := 0x074
def QUE_CTX_CONTEXT : F := ⟨0x074, 9, 0⟩
def FEN_VALUE : Nat := 0x100
def FEN_TARGET : Nat := 0x108
def FEN_STAT : Nat := 0x110
def FEN_STAT_STATE : F := ⟨0x110, 1, 0⟩
def FEN_CTL : Nat := 0x114
def FEN_CTL_QUEUE : F := ⟨0x114, 11, 0⟩
def FEN_CTL_REMOTE : F := ⟨0x114, 12, 12⟩
def FEN_CTL_ENABLE : F := ⟨0x114, 13, 13⟩
def FEN_CTL_REARM : F := ⟨0x114, 14, 14⟩
def FEN_SRC : Nat := 0x118
def FEN_SRC_REMOTE_DEV : F := ⟨0x118, 11, 0⟩
def FEN_SRC_SPAN_SLOT : F := ⟨0x118, 14, 12⟩
def FEN_ERR_CNT : Nat := 0x11C
def FEN_ERR_REC0 : Nat := 0x120
def FEN_ERR_REC1 : Nat := 0x124
def FEN_ERR_REC2 : Nat := 0x128
def FEN_ERR_REC3 : Nat := 0x12C
def FEN_ERR_REC4 : Nat := 0x130
def FEN_ERR_REC5 : Nat := 0x134
def FEN_ERR_REC6 : Nat := 0x138
def FEN_ERR_REC7 : Nat := 0x13C
def EVQ_CTL : Nat := 0x040
def EVQ_CTL_ENABLE : F := ⟨0x040, 0, 0⟩
def EVQ_CTL_SIZE_LOG2 : F := ⟨0x040, 5, 1⟩
def EVQ_CTL_VECTOR : F := ⟨0x040, 11, 6⟩
def EVQ_BASE : Nat := 0x044
def EVQ_TAIL : Nat := 0x04C
def EVQ_HEAD : Nat := 0x050
def EVQ_DROP : Nat := 0x054
def EVQ_MOD : Nat := 0x058
def EVQ_MOD_HOLDOFF : F := ⟨0x058, 15, 0⟩

end Sys2Proof.Machine
end

