-- ==== Sys2Proof/Machine/Tab.lean ====
section
/-! DEFINITION. Sparse tables and byte memories in their canonical form: keys strictly rising, no entry equal to what an
unlisted key holds. -/

namespace Sys2Proof.Machine

open Sys2Proof

/-- What key `k` holds; an unlisted key holds `d`. -/
def Tab.get {α : Type} (d : α) : Tab α → Nat → α
  | [], _ => d
  | (j, v) :: t, k => if k = j then v else Tab.get d t k

/-- Every entry but those of key `k`. -/
def Tab.del {α : Type} (k : Nat) : Tab α → Tab α
  | [] => []
  | e :: t => if e.1 = k then Tab.del k t else e :: Tab.del k t

/-- Insert an entry before the first greater key. -/
def Tab.ins {α : Type} (k : Nat) (v : α) : Tab α → Tab α
  | [] => [(k, v)]
  | e :: t => if k < e.1 then (k, v) :: e :: t else e :: Tab.ins k v t

/-- Store `v` under key `k`; storing what an unlisted key holds removes the entry. -/
def Tab.put {α : Type} [DecidableEq α] (d : α) (k : Nat) (v : α) (t : Tab α) : Tab α :=
  if v = d then Tab.del k t else Tab.ins k v (Tab.del k t)

/-- Change what key `k` holds. -/
def Tab.upd {α : Type} [DecidableEq α] (d : α) (t : Tab α) (k : Nat) (f : α → α) : Tab α :=
  Tab.put d k (f (Tab.get d t k)) t

/-- The canonical form: every key at least `lo`, keys strictly rising, no entry equal to `d`. -/
def Tab.wfFrom {α : Type} [DecidableEq α] (d : α) : Nat → Tab α → Bool
  | _, [] => true
  | lo, (j, v) :: t => decide (lo ≤ j) && decide (v ≠ d) && Tab.wfFrom d (j + 1) t

/-- A byte memory in canonical form; an unlisted byte reads 0. Log 4 (DESIGN CHOICE). -/
def Memory.wf (m : List Host.Cell) : Bool := Tab.wfFrom (0 : Byte) 0 m

/-- One byte. Log 4 (DESIGN CHOICE). -/
def Memory.get (m : List Host.Cell) (a : Nat) : Byte := Tab.get (0 : Byte) m a

/-- Store one byte. Log 4 (DESIGN CHOICE). -/
def Memory.put (m : List Host.Cell) (a : Nat) (b : Byte) : List Host.Cell := Tab.put (0 : Byte) a b m

/-- `n` bytes from address `a`. -/
def Memory.read (m : List Host.Cell) (a : Nat) : Nat → Bytes
  | 0 => []
  | n + 1 => Memory.get m a :: Memory.read m (a + 1) n

/-- Store bytes from address `a` upward. -/
def Memory.write (m : List Host.Cell) (a : Nat) : Bytes → List Host.Cell
  | [] => m
  | b :: bs => Memory.write (Memory.put m a b) (a + 1) bs

/-- Clear the bytes whose address is in `[lo, hi)`. -/
def Memory.clear (m : List Host.Cell) (lo hi : Nat) : List Host.Cell :=
  m.filter (fun c => decide (c.1 < lo) || decide (hi ≤ c.1))

/-- Change every entry; an entry that becomes what an unlisted key holds is removed. -/
def Tab.mapAll {α : Type} [DecidableEq α] (d : α) (f : Nat → α → α) (t : Tab α) : Tab α :=
  (t.map (fun e => (e.1, f e.1 e.2))).filter (fun e => decide (e.2 ≠ d))

/-- Drop the entries whose key is in `[lo, hi)`. -/
def Tab.clear {α : Type} (t : Tab α) (lo hi : Nat) : Tab α :=
  t.filter (fun c => decide (c.1 < lo) || decide (hi ≤ c.1))

end Sys2Proof.Machine
end

