-- ==== Sys2Proof/Machine/Ops.lean ====
section
/-! DEFINITION. The operations every command is built from: registers and their fields, counters, the page header's
error summary with PAGE_ERROR (R519-R521), event records and MSI-X (R226-R229), capability entries (R232, R233), alarms
(R392, R477), the list of accepted commands. -/

namespace Sys2Proof.Machine

open Sys2Proof

/-- The answer of a command. -/
abbrev Answer := Host.Outcome State Fault Refusal

/-- A command that names units by number: refused when a number is beyond the device's counts (R14). Log 2 (DESIGN CHOICE). -/
def onUnit (ok : Bool) (t : State) : Answer := if ok then .next t else .refused .noSuchUnit

/-! ### Registers -/

/-- The word a register holds. Log 11 (DESIGN CHOICE). -/
def State.rd (s : State) (off : Nat) : Nat := (Tab.get (resetWord off) s.regs off).toNat

/-- Store a register's word. -/
def State.wr (s : State) (off v : Nat) : State :=
  { s with regs := Tab.put (resetWord off) off (BitVec.ofNat 32 v) s.regs }

/-- The field `f` of the page (or entry) at `pg`. -/
def State.get (s : State) (pg : Nat) (f : F) : Nat := bitsOf (s.rd (pg + f.off)) f.hi f.lo

/-- Set the field `f` of the page (or entry) at `pg`. -/
def State.set (s : State) (pg : Nat) (f : F) (v : Nat) : State :=
  s.wr (pg + f.off) (putBits (s.rd (pg + f.off)) f.hi f.lo v)

/-- Whether a one-bit field is 1. -/
def State.on (s : State) (pg : Nat) (f : F) : Bool := s.get pg f != 0

/-- Set or clear a one-bit field. -/
def State.mark (s : State) (pg : Nat) (f : F) (b : Bool) : State := s.set pg f (if b then 1 else 0)

/-- A 64-bit pair, low word at `off`. -/
def State.rd64 (s : State) (off : Nat) : Nat := s.rd off + s.rd (off + 4) * 2 ^ 32

/-- Store a 64-bit pair. -/
def State.wr64 (s : State) (off v : Nat) : State := (s.wr off v).wr (off + 4) (v / 2 ^ 32)

/-- A counter register that stops at 0xFFFF_FFFF. -/
def State.bump (s : State) (off n : Nat) : State := s.wr off (satAdd 0xFFFFFFFF (s.rd off) n)

/-- A counter field that stops at its highest value. -/
def State.bumpF (s : State) (pg : Nat) (f : F) (n : Nat) : State :=
  s.set pg f (satAdd (2 ^ (f.hi + 1 - f.lo) - 1) (s.get pg f) n)

/-- A 64-bit counter pair, which wraps. -/
def State.bump64 (s : State) (off n : Nat) : State := s.wr64 off ((s.rd64 off + n) % 2 ^ 64)

/-! Header fields (R519). -/

def BLK_CTL_EVT_EN : F := ⟨0x008, 0, 0⟩
def BLK_STAT_READY : F := ⟨0x00C, 0, 0⟩
def BLK_STAT_UNDER_RESET : F := ⟨0x00C, 1, 1⟩
def BLK_STAT_RETIRED : F := ⟨0x00C, 2, 2⟩
def BLK_ERR_SUM : F := ⟨0x010, 2, 0⟩
def BLK_ERR_CNT_VIOL : F := ⟨0x014, 15, 0⟩
def BLK_ERR_CNT_BAD : F := ⟨0x014, 31, 16⟩
def BLK_IRQ_MASK : F := ⟨0x01C, 2, 0⟩
def BLK_OWNER_FUNCTION : F := ⟨0x020, 7, 0⟩
def BLK_OWNER_SKELDOR : F := ⟨0x020, 8, 8⟩
def BLK_OWNER_LOCK : F := ⟨0x020, 9, 9⟩
def BLK_OWNER_LAST_VIOL : F := ⟨0x020, 23, 16⟩

/-- Page offsets of the units. -/
def ctxPg (x : Nat) : Nat := Pg.base .ctx x
def quePg (q : Nat) : Nat := Pg.base .que q
def evqPg (e : Nat) : Nat := Pg.base .evq e
def partPg (p : Nat) : Nat := Pg.base .part p
def islPg (i : Nat) : Nat := Pg.base .isl i
def lnkPg (p : Nat) : Nat := Pg.base .lnk p
def memcPg (c : Nat) : Nat := Pg.base .memc c
def napPg (t : Nat) : Nat := Pg.base .nap t
def glbPg : Nat := Pg.base .glb 0
def mapPg : Nat := Pg.base .map 0
def rcvPg : Nat := Pg.base .rcv 0
def dbgPg : Nat := Pg.base .dbg 0
def pciPg : Nat := Pg.base .pci 0
def rtePg : Nat := Pg.base .rte 0
def pwrPg : Nat := Pg.base .pwr 0
def thmPg : Nat := Pg.base .thm 0
def secPg : Nat := Pg.base .sec 0
def attPg : Nat := Pg.base .att 0
def mgmtPg : Nat := Pg.base .mgmt 0
def spltPg : Nat := Pg.base .splt 0

/-- The entry of fence `f` (2,048 pages of 32 fences each). -/
def fenAt (f : Nat) : Nat := Pg.base .fen (f / 32) + 64 * (f % 32)
/-- The entry of key slot `k`. -/
def keyAt (k : Nat) : Nat := Pg.base .key (k / 32) + 64 * (k % 32)
/-- The entry of segment `g` of context `x`. -/
def segAt (x g : Nat) : Nat := ctxPg x + 32 * g
/-- The entry of memory-map region `r`. -/
def regionAt (r : Nat) : Nat := mapPg + 16 * r
/-- The entry of span slot `l` of partition `p`. -/
def spanAt (p l : Nat) : Nat := partPg p + 32 * l

/-- The function that owns a page; Skeldor's pages read 0. -/
def State.ownerOf (s : State) (pg : Nat) : Nat := s.get pg BLK_OWNER_FUNCTION

/-! ### Entries of the unit tables -/

def State.atCell (s : State) (k : Nat) : CellSt := Tab.get {} s.cells k
def State.updCell (s : State) (k : Nat) (f : CellSt → CellSt) : State := { s with cells := Tab.upd {} s.cells k f }
def State.atCore (s : State) (k : Nat) : CoreSt := Tab.get {} s.cores k
def State.updCore (s : State) (k : Nat) (f : CoreSt → CoreSt) : State := { s with cores := Tab.upd {} s.cores k f }
def State.atSlice (s : State) (k : Nat) : SliceSt := Tab.get {} s.slices k
def State.updSlice (s : State) (k : Nat) (f : SliceSt → SliceSt) : State := { s with slices := Tab.upd {} s.slices k f }
def State.atChan (s : State) (k : Nat) : ChanSt := Tab.get {} s.chans k
def State.updChan (s : State) (k : Nat) (f : ChanSt → ChanSt) : State := { s with chans := Tab.upd {} s.chans k f }
def State.atTower (s : State) (k : Nat) : TowerSt := Tab.get {} s.towers k
def State.updTower (s : State) (k : Nat) (f : TowerSt → TowerSt) : State := { s with towers := Tab.upd {} s.towers k f }
def State.atMould (s : State) (k : Nat) : Mould := Tab.get {} s.moulds k
def State.updMould (s : State) (k : Nat) (f : Mould → Mould) : State := { s with moulds := Tab.upd {} s.moulds k f }
def State.atSegPend (s : State) (k : Nat) : SegPend := Tab.get {} s.segPend k
def State.updSegPend (s : State) (k : Nat) (f : SegPend → SegPend) : State := { s with segPend := Tab.upd {} s.segPend k f }
def State.atObj (s : State) (k : Nat) : Obj := Tab.get {} s.objs k
def State.updObj (s : State) (k : Nat) (f : Obj → Obj) : State := { s with objs := Tab.upd {} s.objs k f }
/-- Log 23 (PRESUMED). -/
def State.atVec (s : State) (k : Nat) : Vec := Tab.get {} s.vecs k
def State.updVec (s : State) (k : Nat) (f : Vec → Vec) : State := { s with vecs := Tab.upd {} s.vecs k f }
def State.atRebind (s : State) (k : Nat) : Rebind := Tab.get {} s.rebind k
def State.updRebind (s : State) (k : Nat) (f : Rebind → Rebind) : State := { s with rebind := Tab.upd {} s.rebind k f }
def State.atJoin (s : State) (k : Nat) : JoinSt := Tab.get {} s.joins k
def State.updJoin (s : State) (k : Nat) (f : JoinSt → JoinSt) : State := { s with joins := Tab.upd {} s.joins k f }
def State.atCtx (s : State) (k : Nat) : CtxSt := Tab.get {} s.ctxs k
def State.updCtx (s : State) (k : Nat) (f : CtxSt → CtxSt) : State := { s with ctxs := Tab.upd {} s.ctxs k f }
def State.atPart (s : State) (k : Nat) : PartSt := Tab.get {} s.parts k
def State.updPart (s : State) (k : Nat) (f : PartSt → PartSt) : State := { s with parts := Tab.upd {} s.parts k f }
def State.atLink (s : State) (k : Nat) : LinkSt := Tab.get {} s.links k
def State.updLink (s : State) (k : Nat) (f : LinkSt → LinkSt) : State := { s with links := Tab.upd {} s.links k f }
def State.atTrunk (s : State) (k : Nat) : TrunkSt := Tab.get {} s.trunks k
def State.updTrunk (s : State) (k : Nat) (f : TrunkSt → TrunkSt) : State := { s with trunks := Tab.upd {} s.trunks k f }
def State.atRoute (s : State) (k : Nat) : Route := Tab.get {} s.routes k
def State.updRoute (s : State) (k : Nat) (f : Route → Route) : State := { s with routes := Tab.upd {} s.routes k f }
def State.atRegl (s : State) (k : Nat) : Regl := Tab.get {} s.regls k
def State.updRegl (s : State) (k : Nat) (f : Regl → Regl) : State := { s with regls := Tab.upd {} s.regls k f }

/-! ### What leaves the module -/

/-- Record something that leaves the module. Log 10 (DESIGN CHOICE). -/
def State.emit (s : State) (o : Out) : State := { s with out := o :: s.out }

/-- Draw a free value. Log 8 (DESIGN CHOICE). -/
def State.draw (s : State) : Nat × State := (s.draws, { s with draws := s.draws + 1 })

/-! ### Host memory writes and the host dirty log (R187) -/

/-- Where the dirty-log registers of function `fn` are kept: PCI_DLOG_SEL selects among these (beyond BAR0). -/
def dlogPg (fn : Nat) : Nat := 0x4000000 + 0x400 * fn

/-- Key of a word of a function's host bitmap, and its place in host memory. -/
def dlogKey (fn bm i : Nat) : Nat := (fn * 2 + bm) * 2 ^ 32 + i
def State.dlogMap (s : State) (fn bm : Nat) : Nat := s.rd64 (dlogPg fn + if bm = 1 then PCI_DLOG_MAP1 else PCI_DLOG_MAP0)

/-- Mark one page of a function's IOVA space in its active bitmap: a read, the first time, and a write of the bitmap's 64-bit word.
Log 94 (DESIGN CHOICE). -/
def State.markHostPage (s : State) (fn page : Nat) : State :=
  let pg := dlogPg fn
  let base := s.rd64 (pg + PCI_DLOG_IOVA) / 4096
  if page < base ∨ s.rd (pg + PCI_DLOG_PAGES) ≤ page - base then s.set pg PCI_DLOG_CTL_OVERFLOW 1
  else
    let i := page - base
    let bm := s.get pg PCI_DLOG_CTL_ACTIVE
    let k := dlogKey fn bm (i / 64)
    let (old, s) := match Tab.get none s.dlogWords k with
      | some w => (w, s)
      | none => let (d, s) := s.draw; (leNat ((List.range 8).map (Config.hostByte d)), s)
    let w := old ||| 2 ^ (i % 64)
    ({ s with dlogWords := Tab.put none k (some w) s.dlogWords }).emit (.hostWrite 0 (s.dlogMap fn bm + i / 64 * 8) false (leBytes 8 w))

/-- Write out and forget the words of a function's bitmap that the device holds (R188). Log 94 (DESIGN CHOICE). -/
def State.dlogFlush (s : State) (fn bm : Nat) : State :=
  let mine := s.dlogWords.filter (fun e => e.1 / 2 ^ 32 == fn * 2 + bm)
  let s := { s with dlogWords := s.dlogWords.filter (fun e => e.1 / 2 ^ 32 != fn * 2 + bm) }
  mine.foldl (fun s e => match e.2 with
    | some w => s.emit (.hostWrite 0 (s.dlogMap fn bm + e.1 % 2 ^ 32 * 8) false (leBytes 8 w))
    | none => s) s

/-- Whether a function's DMA is blocked: its TDI is in ERROR (R411). -/
def State.dmaOff (s : State) (fn : Nat) : Bool := Tab.get 0 s.sec.tdi fn == 3

/-- A memory write the device issues for a function: the pages it touches are marked before it while host dirty logging
is enabled for the function (R187). Log 9 (DESIGN CHOICE). -/
def State.hostStore (s : State) (fn addr : Nat) (data : Bytes) : State :=
  if s.dmaOff fn then s else
  let pages := (List.range ((addr + data.length + 4095) / 4096 - addr / 4096)).map (· + addr / 4096)
  let s := if s.on (dlogPg fn) PCI_DLOG_CTL_ENABLE then pages.foldl (fun s p => s.markHostPage fn p) s else s
  s.emit (.hostWrite fn addr false data)

/-! ### MSI-X and event records (R226-R229) -/

/-- Vectors of a function's MSI-X table (R228). Log 23 (PRESUMED). -/
def vectorsOf (fn : Nat) : Nat := if fn = 0 then 64 else 8

/-- Send the message of vector `v` of function `fn`, hold it back while the vector is masked, or defer it by HOLDOFF
(R228). Log 23 (PRESUMED). -/
def State.message (s : State) (fn v holdoff : Nat) : State :=
  let k := fn * 64 + v
  let x := Tab.get {} s.vecs k
  if s.dmaOff fn then s
  else if x.masked then { s with vecs := Tab.put {} k { x with pend := true } s.vecs }
  else if x.last.any (fun t => decide (s.mclk < t + holdoff * 100)) then
    { s with vecs := Tab.put {} k { x with deferred := true } s.vecs }
  else { s with vecs := Tab.put {} k { x with last := some s.mclk } s.vecs, out := .msix fn v :: s.out }

/-- log2 of a ring's size: a value outside 6 to 16 acts as 6. -/
def ringLog (n : Nat) : Nat := if 6 ≤ n ∧ n ≤ 16 then n else 6

/-- Free places of event queue `e`. -/
def State.evqRoom (s : State) (e : Nat) : Nat :=
  2 ^ ringLog (s.get (evqPg e) EVQ_CTL_SIZE_LOG2) -
    (s.rd (evqPg e + EVQ_TAIL) + 2 ^ 32 - s.rd (evqPg e + EVQ_HEAD)) % 2 ^ 32

/-- The 32 bytes of a record (R229). -/
def eventBytes (typ fn seq : Nat) (payload : Bytes) (count : Nat) : Bytes :=
  leBytes 1 typ ++ leBytes 1 0 ++ leBytes 1 fn ++ leBytes 1 0 ++ leBytes 4 seq ++ sliceBytes payload 0 16 ++
    leBytes 8 count

/-- Write one record at the tail of event queue `e`, which has room, and signal its vector. Log 114 (DESIGN CHOICE). -/
def State.evqWrite (s : State) (e typ fn : Nat) (payload : Bytes) : State :=
  let pg := evqPg e
  let t := s.rd (pg + EVQ_TAIL)
  let n := ringLog (s.get pg EVQ_CTL_SIZE_LOG2)
  let dst := Tab.get 0 s.evqFn e
  let s := s.hostStore dst (s.rd64 (pg + EVQ_BASE) + 32 * (t % 2 ^ n)) (eventBytes typ fn t payload s.mclk)
  let s := s.wr (pg + EVQ_TAIL) ((t + 1) % 2 ^ 32)
  s.message dst (s.get pg EVQ_CTL_VECTOR) (s.get pg EVQ_MOD_HOLDOFF)

/-- When room has returned after drops, write the OVERFLOW record (R227). Log 114 (DESIGN CHOICE). -/
def State.evqCatchUp (s : State) (e : Nat) : State :=
  let lost := Tab.get 0 s.evqLost e
  if lost = 0 ∨ s.evqRoom e = 0 ∨ s.on (evqPg e) EVQ_CTL_ENABLE = false then s
  else ({ s with evqLost := Tab.put 0 e 0 s.evqLost }).evqWrite e 0x09 0 (leBytes 4 lost)

/-- An event record of type `typ` for event queue `e`: discarded while the queue is disabled, dropped and counted
while it is full. -/
def State.event (s : State) (e typ fn : Nat) (payload : Bytes) : State :=
  if s.on (evqPg e) EVQ_CTL_ENABLE = false then s
  else
    let s := s.evqCatchUp e
    if s.evqRoom e = 0 then
      { s.bump (evqPg e + EVQ_DROP) 1 with evqLost := Tab.upd 0 s.evqLost e (· + 1) }
    else s.evqWrite e typ fn payload

/-- One record to each distinct event queue of a list (R229). -/
def State.eventAll (s : State) (es : List Nat) (typ fn : Nat) (payload : Bytes) : State :=
  es.eraseDups.foldl (fun s e => s.event e typ fn payload) s

/-- A record for event queue 0 of the physical function, with FUNCTION 0. -/
def State.event0 (s : State) (typ : Nat) (payload : Bytes) : State := s.event 0 typ 0 payload

/-! ### The page header's error summary -/

/-- CAUSE of BLK_IRQ_CAUSE (R519). -/
def State.causeOf (s : State) (pg : Nat) : Nat := s.get pg BLK_ERR_SUM &&& (7 - s.get pg BLK_IRQ_MASK)

/-- Write the PAGE_ERROR record when CAUSE has left 0 (R521). Log 22 (DEDUCED). -/
def State.pageError (s : State) (pg before : Nat) : State :=
  let c := s.causeOf pg
  if before = 0 ∧ c ≠ 0 ∧ s.on pg BLK_CTL_EVT_EN then
    s.event0 0x60 (leBytes 2 (pg / 0x1000) ++ leBytes 1 c ++
      leBytes 1 (if bitOf c 0 then s.get pg BLK_OWNER_LAST_VIOL else 0xFF))
  else s

/-- Set bit `b` of BLK_ERR_SUM (0 OWNER_VIOL, 1 BAD_ACCESS, 2 UNIT_ERR). Log 22 (DEDUCED). -/
def State.raise (s : State) (pg b : Nat) : State :=
  (s.set pg BLK_ERR_SUM (s.get pg BLK_ERR_SUM ||| 2 ^ b)).pageError pg (s.causeOf pg)

/-- A bad access of a page (R514, R518). Log 15 (DEDUCED). -/
def State.badAccess (s : State) (pg : Nat) : State := (s.bumpF pg BLK_ERR_CNT_BAD 1).raise pg 1

/-- An error counter register of a page advances. Log 97 (DESIGN CHOICE). -/
def State.errCount (s : State) (pg off n : Nat) : State := (s.bump (pg + off) n).raise pg 2

/-- An error counter field of a page advances. Log 97 (DESIGN CHOICE). -/
def State.errCountF (s : State) (pg : Nat) (f : F) (n : Nat) : State := (s.bumpF pg f n).raise pg 2

/-! ### Alarms -/

/-- DEV_ALERT_N follows the unmasked alarm bits (R477). -/
def State.alertPin (s : State) : State :=
  { s with pins := { s.pins with alertN := decide (s.mgmt.alarm &&& (0xFFFFFFFF - s.mgmt.alarmMask) = 0) } }

/-- Set bit `b` of SB_ALARM and of its mirror MGMT_ALARM (R475, R477). -/
def State.alarm (s : State) (b : Nat) : State :=
  let s := { s with mgmt := { s.mgmt with alarm := s.mgmt.alarm ||| 2 ^ b } }
  (s.wr (mgmtPg + MGMT_ALARM) s.mgmt.alarm).alertPin

/-! ### Accepted commands -/

/-- The commands of queue `q` that are accepted and unresolved. -/
def State.cmdsOf (s : State) (q : Nat) : List Cmd := Tab.get [] s.cmds q

/-- The command of queue `q` with a sequence number. -/
def State.cmd? (s : State) (q seq : Nat) : Option Cmd := (s.cmdsOf q).find? (fun c => c.seq = seq)

/-- Order of two sequence numbers of a queue (R196): 32 bits that wrap. -/
def seqBefore (a b : Nat) : Bool := a != b && decide ((b + 2 ^ 32 - a) % 2 ^ 32 < 2 ^ 31)

/-- A command that is resolved already though its completion record waits for earlier ones: refused at acceptance (R215),
or broken before it started at a teardown (R457). -/
def Cmd.gone (c : Cmd) : Bool := c.work && c.fenced && !c.started

/-- Change the command (q, seq). -/
def State.updCmd (s : State) (q seq : Nat) (f : Cmd → Cmd) : State :=
  { s with cmds := Tab.upd [] s.cmds q (fun l => l.map (fun c => if c.seq = seq then f c else c)) }

/-- Change every accepted command that meets `p`. -/
def State.mapCmds (s : State) (p : Cmd → Bool) (f : Cmd → Cmd) : State :=
  { s with cmds := s.cmds.map (fun e => (e.1, e.2.map (fun c => if p c then f c else c))) }

/-- Every accepted, unresolved command. -/
def State.allCmds (s : State) : List Cmd := s.cmds.flatMap (·.2)

/-! Fence error codes (R214). -/

def codeTranslationReject : Nat := 0x01
def codeRights : Nat := 0x02
def codeMemUncorrectable : Nat := 0x03
def codeTagFail : Nat := 0x04
def codeLinkLost : Nat := 0x05
def codePartnerAbsent : Nat := 0x06
def codeHang : Nat := 0x07
def codeResetInterrupted : Nat := 0x08
def codePredecessorBroken : Nat := 0x09
def codeOwnerExited : Nat := 0x0A
def codeObjectFreed : Nat := 0x0B
def codeUnitRetired : Nat := 0x0C
def codeContextTornDown : Nat := 0x0D
def codeKeyRetired : Nat := 0x0E
def codeKeyFlowDenied : Nat := 0x0F
def codeMouldInvalid : Nat := 0x10
def codePreemptOverrun : Nat := 0x11
def codeRemoteRefused : Nat := 0x12
def codeRebindAborted : Nat := 0x13
def codeGuilty : Nat := 0x14

/-- The command's work ends broken: the code, the source of the break and the reason (R214). A command whose work has
already ended broken keeps its first code. -/
def Cmd.breakWith (c : Cmd) (code srcKind srcId : Nat) (detail : Nat := 0) (remote : Nat := 0) : Cmd :=
  if c.code ≠ 0 then c
  else { c with work := true, code := code, srcKind := srcKind, srcId := srcId, detail := detail, remote := remote }

/-- End the work of (q, seq) broken. -/
def State.breakCmd (s : State) (q seq code srcKind srcId : Nat) (detail : Nat := 0) (remote : Nat := 0) : State :=
  s.updCmd q seq (fun c => c.breakWith code srcKind srcId detail remote)

/-- A command that is to break: one not yet started breaks at once, a running one at its next preemption point. -/
def Cmd.stopFor (c : Cmd) (code : Nat) : Cmd :=
  if c.work then c
  else if c.started then { c with stop := if c.stop = 0 then code else c.stop }
  else c.breakWith code 4 c.q

/-- Key slots a command's ranges resolve to. -/
def Cmd.keys (c : Cmd) : List Nat := (c.ranges.map (·.key)).eraseDups

/-! ### Capability entries (R232, R233) -/

/-- STATE of the entry of unit (type, index); an entry not recorded otherwise is ACTIVE once the table is ready. -/
def State.capState (s : State) (typ idx : Nat) : Nat := Tab.get 1 s.capt (typ * 1024 + idx)

/-- An entry becomes RETIRED with its reason. -/
def State.setRetired (s : State) (typ idx reason : Nat) : State :=
  { s with capt := Tab.put 1 (typ * 1024 + idx) 2 s.capt, captReason := Tab.put 0 (typ * 1024 + idx) reason s.captReason }

/-- CAPT_GEN moves past a change of an entry: through odd to the next even value, or on to the next odd one while an update stays
in progress (R233). -/
def State.capTouch (s : State) : State := { s with captGen := s.captGen + 2 }

/-- The retirement of a slice begins: CAPT_GEN becomes odd (R453 step 1). Log 210 (DESIGN CHOICE). -/
def State.capOpen (s : State) (slice : Nat) : State :=
  if s.rcv.retiring.contains slice then s
  else { s with captGen := s.captGen + (s.captGen + 1) % 2, rcv := { s.rcv with retiring := slice :: s.rcv.retiring } }

/-- The retirement of a slice is complete: with the last one CAPT_GEN becomes even (R453 step 5). Log 210 (DESIGN CHOICE). -/
def State.capClose (s : State) (slice : Nat) : State :=
  let l := s.rcv.retiring.filter (· != slice)
  { s with captGen := if l.isEmpty then s.captGen + s.captGen % 2 else s.captGen + 2, rcv := { s.rcv with retiring := l } }

/-- The partition that holds a slice, channel or port, by the bit `i` of a bound map whose words start at `off`. Log 117 (DESIGN CHOICE). -/
def State.holderOf (s : State) (off i : Nat) : Option Nat :=
  (List.range 32).find? (fun p => bitOf (s.rd (partPg p + off + 4 * (i / 32))) (i % 32))

/-- Partition that slice `n` is bound to. -/
def State.sliceOwner (s : State) (n : Nat) : Option Nat := s.holderOf PART_SLICES n

/-- Partitions that channel `c` is bound to; several may share it (R234, R235). Log 116 (DESIGN CHOICE), 117 (DESIGN CHOICE). -/
def State.chanParts (s : State) (c : Nat) : List Nat :=
  (List.range 32).filter (fun p => bitOf (s.rd (partPg p + PART_CHAN + 4 * (c / 32))) (c % 32))

/-- The one partition that channel `c` is bound to, none when several are (R235). Log 117 (DESIGN CHOICE). -/
def State.chanOwner (s : State) (c : Nat) : Option Nat := match s.chanParts c with
  | [p] => some p
  | _ => none

/-- Whether PART_SAVE_REGION, or PART_CFG_REGION, of a partition names region `r` (R237, R276). Log 88 (DESIGN CHOICE). -/
def State.saveNamed (s : State) (p r : Nat) : Bool :=
  s.on (partPg p) PART_SAVE_REGION_VALID && s.get (partPg p) PART_SAVE_REGION_REGION == r
/-- Log 88 (DESIGN CHOICE). -/
def State.cfgNamed (s : State) (p r : Nat) : Bool :=
  decide (1 ≤ s.get (partPg p) PART_STAT_STATE) && s.get (partPg p) PART_CFG_REGION_REGION == r

/-- Partition that port `p` is bound to. -/
def State.portOwner (s : State) (p : Nat) : Option Nat := s.holderOf PART_PORTS p

/-- Partition, ACTIVE or DISSOLVING (R239), whose range with base field `f` and count field `g` holds `i`. -/
def State.rangeOwner (s : State) (f g : F) (i : Nat) : Option Nat :=
  (List.range 32).find? (fun p =>
    decide (2 ≤ s.get (partPg p) PART_STAT_STATE) &&
      decide (s.get (partPg p) f ≤ i) && decide (i < s.get (partPg p) f + s.get (partPg p) g))

/-- Partition whose context range holds context `x`. -/
def State.ctxPart (s : State) (x : Nat) : Option Nat := s.rangeOwner PART_CTX_RANGE_BASE PART_CTX_RANGE_COUNT x

/-- Whether fence `f` lies in the fence range of partition `p` (groups of 32). -/
def State.fenceIn (s : State) (p f : Nat) : Bool :=
  decide (s.get (partPg p) PART_FEN_RANGE_BASE ≤ f / 32) &&
    decide (f / 32 < s.get (partPg p) PART_FEN_RANGE_BASE + s.get (partPg p) PART_FEN_RANGE_COUNT)

/-- Context page fields. -/
def State.ctxState (s : State) (x : Nat) : Nat := s.get (ctxPg x) CTX_STAT_STATE
def State.ctxGen (s : State) (x : Nat) : Nat := s.get (ctxPg x) CTX_STAT_GEN
def State.ctxEvq (s : State) (x : Nat) : Nat := s.get (ctxPg x) CTX_CTL_EVQ
/-- Event queue of a queue (R229). -/
def State.queEvq (s : State) (q : Nat) : Nat := s.get (quePg q) QUE_CTL_EVQ
/-- Context of a queue. -/
def State.queCtx (s : State) (q : Nat) : Nat := s.get (quePg q) QUE_CTX_CONTEXT

/-- Contexts of a partition. -/
def State.partCtxs (s : State) (p : Nat) : List Nat :=
  (List.range (s.get (partPg p) PART_CTX_RANGE_COUNT)).map (· + s.get (partPg p) PART_CTX_RANGE_BASE)

/-- Queues of a partition. -/
def State.partQues (s : State) (p : Nat) : List Nat :=
  (List.range (s.get (partPg p) PART_QUE_RANGE_COUNT)).map (· + s.get (partPg p) PART_QUE_RANGE_BASE)

/-- Event queues of a partition's contexts that are in use. -/
def State.partEvqs (s : State) (p : Nat) : List Nat := ((s.partCtxs p).filter (fun x => s.ctxState x != 0)).map s.ctxEvq

/-- Slices bound to a partition, ascending. -/
def State.partSlices (s : State) (p : Nat) : List Nat := onesBelow 32 (s.rd (partPg p + PART_SLICES))

/-- A unit that partitions `holders` held retires: the entry becomes RETIRED, the alarm bit is set and the records are written, with
the even CAPT_GEN that follows the change (R453-R455, R229, R233). Log 116 (DESIGN CHOICE). -/
def State.unitRetired (s : State) (typ idx reason : Nat) (holders : List Nat) : State :=
  let s := s.setRetired typ idx reason
  let s := (if typ = 1 then s.capClose idx else s.capTouch).alarm 7
  s.eventAll (0 :: holders.flatMap s.partEvqs) 0x07 0
    (leBytes 1 typ ++ leBytes 1 0 ++ leBytes 2 idx ++ leBytes 4 (s.captGen + s.captGen % 2))

/-! ### Progress beacons (R429) -/

/-- The beacon of an engine advances: kind 0 slice, 1 shared store, 2 memory-controller pipeline, 3 queue engine. -/
def State.beat (s : State) (kind idx : Nat) : State :=
  { s with beacons := Tab.upd {} s.beacons (kind * 256 + idx) (fun b => { b with moved := true }) }

/-! ### Fault counts (R451) -/

/-- Counts of the management clock in an hour and in a day. -/
def hourCounts : Nat := 360000000000
def dayCounts : Nat := 8640000000000

/-- The window of a row of R451: rows 0 and 1 count over 24 h, the others over 1 h. -/
def faultWindow (row : Nat) : Nat := if row ≤ 1 then dayCounts else hourCounts

/-- Management-clock counts since power-up: the count itself starts at 0 at every bring-up (R451, R482). -/
def State.upTime (s : State) : Nat := s.rcv.past + s.mclk

/-- Count a fault of row `row` of R451 at a unit: `what` tells distinct lines, cells or lanes apart. Log 206 (DESIGN CHOICE). -/
def State.fault (s : State) (row idx what : Nat) : State :=
  let old := (Tab.get [] s.rcv.faults (row * 1024 + idx)).filter (fun e => decide (s.upTime < e.1 + faultWindow row))
  { s with rcv := { s.rcv with faults := Tab.put [] (row * 1024 + idx) ((s.upTime, what) :: old) s.rcv.faults } }

/-- The faults of a row at a unit within the row's window. -/
def State.faultsOf (s : State) (row idx : Nat) : List (Nat × Nat) :=
  (Tab.get [] s.rcv.faults (row * 1024 + idx)).filter (fun e => decide (s.upTime < e.1 + faultWindow row))

/-! ### Time -/

/-- Whether the die assembly runs: the module is powered, no module reset holds and its clock runs (R478, R498). -/
def State.running (s : State) : Bool := s.pins.pgood && s.pins.resetN && !s.pins.oscStopped

/-- Whether time passes on an idle step: the management complex is out of reset and its clock runs (R11). Once the device is READY a multiple of 41,667 counts is an epoch's boundary, which EPOCH_BOUNDARY brings (R12).
Log 1 (DESIGN CHOICE). -/
def State.ticking (s : State) : Bool :=
  s.running && !(s.ready && (s.mclk + 1) % 41667 == 0)

/-- What a step on an empty queue does: one count of the management clock passes. Log 1 (DESIGN CHOICE). -/
def State.idle (s : State) : State := if s.ticking then { s with mclk := s.mclk + 1 } else s

end Sys2Proof.Machine
end

