-- ==== Sys2Proof/Machine/Operands.lean ====
section
/-! DEFINITION. The forms a command's operands take: command descriptors (R199-R203), mould images with their sections
and records (R107-R115, R122), program words and operand fields (R111, R112), route entries (R113), tokens (R75), and
the geometry of cells, islands and slices (R24, R64, R110). -/

namespace Sys2Proof.Machine

open Sys2Proof

/-! ### Command descriptors -/

/-- Header and body fields of a 128 B descriptor (R199, R202). -/
def dOp (d : Bytes) : Nat := leAt d 0 1
def dScope (d : Bytes) : Nat := leAt d 1 1 % 8
def dFlags (d : Bytes) : Nat := leAt d 2 2
def dFence (d : Bytes) : Nat := leAt d 4 2
def dNpSpan (d : Bytes) : Nat := leAt d 6 2
def dValue (d : Bytes) : Nat := leAt d 8 8
def dUserTag (d : Bytes) : Nat := leAt d 0x10 4
def dRunCount (d : Bytes) : Nat := leAt d 0x14 4
def dRunList (d : Bytes) : Nat := leAt d 0x18 8
def dMould (d : Bytes) : Nat := leAt d 0x20 1 % 64
def dNargs (d : Bytes) : Nat := leAt d 0x21 1

/-- Flags (R200). -/
def dIndependent (d : Bytes) : Bool := bitOf (dFlags d) 0
def dRunOnBroken (d : Bytes) : Bool := bitOf (dFlags d) 1
def dOnlyIfBroken (d : Bytes) : Bool := bitOf (dFlags d) 2
def dClearLatch (d : Bytes) : Bool := bitOf (dFlags d) 3
def dReplaySafe (d : Bytes) : Bool := bitOf (dFlags d) 4
def dOverlap (d : Bytes) : Bool := bitOf (dFlags d) 5
def dEvtOnSignal (d : Bytes) : Bool := bitOf (dFlags d) 6
def dNoFence (d : Bytes) : Bool := bitOf (dFlags d) 7

/-- The span slot a command names (COMPUTE, and SIGNAL with REMOTE set). -/
def dSlot (d : Bytes) : Option Nat :=
  if dOp d = 1 then (let n := leAt d 0x22 1; if n < 8 then some n else none)
  else if dOp d = 6 ∧ leAt d 0x20 1 = 1 then some (leAt d 0x21 1 % 8)
  else none

/-- A DVA field (R201): address and object handle. -/
def dvaAddr (n : Nat) : Nat := n % 2 ^ 48
def dvaHandle (n : Nat) : Nat := bitsOf n 59 48
def dvaSeg (n : Nat) : Nat := bitsOf n 47 45
def dvaOff (n : Nat) : Nat := n % 2 ^ 45

/-- Entry `i` of a WAIT: fence and value, and all its entries (R202). -/
def waitEntry (d : Bytes) (i : Nat) : Nat × Nat := (leAt d (0x28 + 16 * i) 2, leAt d (0x30 + 16 * i) 8)
def waitEntries (d : Bytes) : List (Nat × Nat) := (List.range (leAt d 0x20 1)).map (waitEntry d)

/-- Control word and seed tweak of the descriptor (R50, R51). -/
def dAcw (d : Bytes) : Nat := if dOp d = 1 then leAt d 0x24 4 else if dOp d = 4 then leAt d 0x3C 4 else 0
def dTweak (d : Bytes) : Nat := if dOp d = 1 then leAt d 0x28 4 else if dOp d = 4 then leAt d 0x40 4 else 0

/-! ### Mould images -/

/-- An entry of the section table (R109). -/
structure Sect where
  type : Nat
  phase : Nat
  rsv : Nat
  off : Nat
  size : Nat
  count : Nat
  deriving DecidableEq, Repr

/-- Header fields of an image (R107). -/
def iSize (m : Bytes) : Nat := leAt m 8 4
def iSects (m : Bytes) : Nat := leAt m 0xC 2
def iPhases (m : Bytes) : Nat := leAt m 0xE 1
def iArgs (m : Bytes) : Nat := leAt m 0xF 1
def iSites (m : Bytes) : Nat := leAt m 0x10 2
def iCells (m : Bytes) : Nat := leAt m 0x12 2
def iRoundMax (m : Bytes) : Nat := leAt m 0x14 4
def iWorkspace (m : Bytes) : Nat := leAt m 0x18 8
def iFmtMask (m : Bytes) : Nat := leAt m 0x20 4
def iFlags (m : Bytes) : Nat := leAt m 0x24 4
def iSpanCapable (m : Bytes) : Bool := bitOf (iFlags m) 0
def iLoopFirst (m : Bytes) : Nat := leAt m 0x38 1
def iLoopLast (m : Bytes) : Nat := leAt m 0x39 1
def iLoopCount (m : Bytes) : Nat := leAt m 0x3A 2
def iSiteStride (m : Bytes) : Nat := leAt m 0x3C 2
def iDigest (m : Bytes) : Nat := leAt m 0xD0 48

/-- Section `i` of an image. -/
def sectAt (m : Bytes) (i : Nat) : Sect :=
  let o := 0x100 + 16 * i
  ⟨leAt m o 2, leAt m (o + 2) 1, leAt m (o + 3) 1, leAt m (o + 4) 4, leAt m (o + 8) 4, leAt m (o + 12) 4⟩

/-- The section table. -/
def sectsOf (m : Bytes) : List Sect := (List.range (iSects m)).map (sectAt m)

/-- Offsets of the fixed-size records of a type. -/
def recsOf (m : Bytes) (ty size : Nat) : List Nat :=
  ((sectsOf m).filter (fun x => x.type == ty)).flatMap (fun x => (List.range x.count).map (fun i => x.off + size * i))

/-- A program of one cell (R111): cell, slot count, phase entries, reserved bits, words, length in bytes. -/
structure CellProg where
  cell : Nat
  slots : Nat
  entry : List Nat
  rsv : Nat
  words : List Nat
  deriving DecidableEq, Repr

/-- The CELLPROG record at an offset. -/
def cellProgAt (m : Bytes) (o : Nat) : CellProg :=
  let n := leAt m (o + 2) 2
  ⟨leAt m o 2, n, (List.range 16).map (fun p => leAt m (o + 8 + p) 1), leAt m (o + 4) 4 + leAt m (o + 0x18) 8,
    (List.range n).map (fun i => leAt m (o + 32 + 8 * i) 8)⟩

/-- CELLPROG records from an offset. -/
def cellProgsFrom (m : Bytes) : Nat → Nat → List CellProg
  | 0, _ => []
  | n + 1, o => let r := cellProgAt m o; r :: cellProgsFrom m n (o + 32 + 8 * r.slots)

/-- Every CELLPROG record of an image. -/
def cellProgs (m : Bytes) : List CellProg :=
  ((sectsOf m).filter (fun x => x.type == 1)).flatMap (fun x => cellProgsFrom m x.count x.off)

/-- A route table of one cell (R113). -/
structure CellRoutes where
  cell : Nat
  rsv : Nat
  entries : List Nat
  deriving DecidableEq, Repr

/-- ROUTES records from an offset. -/
def cellRoutesFrom (m : Bytes) : Nat → Nat → List CellRoutes
  | 0, _ => []
  | n + 1, o =>
    let k := leAt m (o + 2) 2
    ⟨leAt m o 2, leAt m (o + 4) 4, (List.range k).map (fun i => leAt m (o + 8 + 8 * i) 8)⟩ ::
      cellRoutesFrom m n (o + 8 + 8 * k)

/-- Every ROUTES record of an image. -/
def cellRoutes (m : Bytes) : List CellRoutes :=
  ((sectsOf m).filter (fun x => x.type == 2)).flatMap (fun x => cellRoutesFrom m x.count x.off)

/-- Tiling descriptor of a phase (R122). -/
structure Tiling where
  kind : Nat
  combine : Nat
  axis : Nat
  flags : Nat
  t0 : Nat
  t1 : Nat
  t2 : Nat
  res : Nat
  m : Nat
  n : Nat
  k : Nat
  pair : Nat
  outFmt : Nat
  siteBase : Nat
  cycles : Nat
  wsOff : Nat
  wsBytes : Nat
  combArg : Nat
  rsv : Nat
  deriving DecidableEq, Repr

/-- The TILING record at an offset. -/
def tilingAt (m : Bytes) (o : Nat) : Tiling where
  kind := leAt m o 1
  combine := leAt m (o + 1) 1
  axis := leAt m (o + 2) 1
  flags := leAt m (o + 3) 1
  t0 := leAt m (o + 4) 2 + 1
  t1 := leAt m (o + 6) 2 + 1
  t2 := leAt m (o + 8) 2 + 1
  res := leAt m (o + 0xA) 2
  m := leAt m (o + 0xC) 4
  n := leAt m (o + 0x10) 4
  k := leAt m (o + 0x14) 4
  pair := leAt m (o + 0x18) 1
  outFmt := leAt m (o + 0x19) 1
  siteBase := leAt m (o + 0x1A) 2
  cycles := leAt m (o + 0x1C) 4
  wsOff := leAt m (o + 0x20) 8
  wsBytes := leAt m (o + 0x28) 8
  combArg := leAt m (o + 0x30) 1
  rsv := leAt m (o + 0x31) 15

/-- The TILING records of an image as (phase, offset): those of a section that names a phase are the phase's; the records of the
sections for all phases are numbered through. Log 62 (DESIGN CHOICE). -/
def tilingRecs (m : Bytes) : List (Nat × Nat) :=
  let xs := (sectsOf m).filter (fun x => x.type == 6)
  let own := (xs.filter (fun x => x.phase != 0xFF)).flatMap (fun x => (List.range x.count).map (fun i => (x.phase, x.off + 64 * i)))
  let all := (xs.filter (fun x => x.phase == 0xFF)).flatMap (fun x => (List.range x.count).map (fun i => x.off + 64 * i))
  own ++ (List.range all.length).map (fun i => (i, all.getD i 0))

/-- Offset of the TILING record of a phase. Log 62 (DESIGN CHOICE). -/
def tilingOff (m : Bytes) (p : Nat) : Nat := (((tilingRecs m).find? (fun e => e.1 == p)).map (·.2)).getD 0

/-- Tiling descriptor of phase `p`. -/
def tilingOf (m : Bytes) (p : Nat) : Tiling := tilingAt m (tilingOff m p)

def Tiling.atomic (t : Tiling) : Bool := bitOf t.flags 0
def Tiling.resident (t : Tiling) : Bool := bitOf t.flags 1

/-- An argument record (R115). -/
structure ArgRec where
  dir : Nat
  fmt : Nat
  rights : Nat
  flags : Nat
  d0 : Nat
  d1 : Nat
  d2 : Nat
  bytes : Nat
  rsv : Nat
  deriving DecidableEq, Repr

/-- The ARGS record at an offset. -/
def argAt (m : Bytes) (o : Nat) : ArgRec :=
  ⟨leAt m o 1, leAt m (o + 1) 1, leAt m (o + 2) 1, leAt m (o + 3) 1, leAt m (o + 4) 4, leAt m (o + 8) 4,
    leAt m (o + 12) 4, leAt m (o + 16) 8, leAt m (o + 24) 8⟩

/-- Arguments of an image. -/
def argsOf (m : Bytes) : List ArgRec := (recsOf m 7 32).map (argAt m)

/-- Whether an argument is an exact-add target. -/
def ArgRec.exact (a : ArgRec) : Bool := bitOf a.flags 1

/-- An allocation (R114). -/
structure AllocRec where
  cell : Nat
  base : Nat
  lines : Nat
  cls : Nat
  phase : Nat
  arg : Nat
  rsv : Nat
  deriving DecidableEq, Repr

/-- Allocations of an image. -/
def allocsOf (m : Bytes) : List AllocRec := (recsOf m 5 16).map (fun o =>
  ⟨leAt m o 2, leAt m (o + 2) 2, leAt m (o + 4) 2, leAt m (o + 6) 1, leAt m (o + 7) 1, leAt m (o + 8) 1,
    leAt m (o + 9) 7⟩)

/-- A mover request template (R115). -/
structure PreRec where
  phase : Nat
  op : Nat
  arg : Nat
  group : Nat
  lines : Nat
  s0 : Nat
  s1 : Nat
  s2 : Nat
  sline : Nat
  rsv : Nat
  deriving DecidableEq, Repr

/-- Preamble records of an image. -/
def preambles (m : Bytes) : List PreRec := (recsOf m 9 32).map (fun o =>
  ⟨leAt m o 1, leAt m (o + 1) 1, leAt m (o + 2) 1, leAt m (o + 3) 1, leAt m (o + 4) 4, leAt m (o + 8) 4,
    leAt m (o + 12) 4, leAt m (o + 16) 4, leAt m (o + 20) 4, leAt m (o + 24) 8⟩)

/-- Whether a mould has a resident allocation, and one that is written (R138). -/
def hasResident (m : Bytes) : Bool := (allocsOf m).any (fun a => a.cls == 1 || a.cls == 2)
def hasResidentRw (m : Bytes) : Bool := (allocsOf m).any (fun a => a.cls == 2)

/-- Whether some phase of a mould is ATOMIC (R134, R273). -/
def hasAtomic (m : Bytes) : Bool := (List.range (iPhases m)).any (fun p => (tilingOf m p).atomic)

/-! ### Program words -/

/-- A program word (R111). -/
structure PWord where
  cls : Nat
  op : Nat
  srcA : Nat
  srcB : Nat
  dst : Nat
  dep : Nat
  depValid : Bool
  last : Bool
  imm : Nat
  deriving DecidableEq, Repr

/-- The fields of a program word. -/
def pword (w : Nat) : PWord :=
  ⟨bitsOf w 3 0, bitsOf w 11 4, bitsOf w 21 12, bitsOf w 31 22, bitsOf w 41 32, bitsOf w 49 42, bitOf w 50, bitOf w 51,
    bitsOf w 63 52⟩

/-- What a 10-bit operand field names (R112). -/
inductive OperandRef where
  | line (n : Nat)
  | chan (n : Nat)
  | vreg (n : Nat)
  | preg (n : Nat)
  | lacc (n : Nat)
  | bad
  deriving DecidableEq, Repr

/-- Decoding of an operand field (R112). -/
def operandOf (n : Nat) : OperandRef :=
  if bitOf n 9 then .line (n % 512)
  else if bitsOf n 9 8 = 0 then .chan (n % 8)
  else if bitsOf n 9 8 = 1 then
    let r := n % 64
    if r < 32 then .vreg r else if r < 40 then .preg (r - 32) else if r < 56 then .lacc (r - 40) else .bad
  else .bad

/-! ### Route entries and tokens -/

def rOut (e : Nat) : Nat := bitsOf e 4 0
def rNext (e : Nat) : Nat := bitsOf e 10 5
def rVc (e : Nat) : Nat := bitsOf e 11 11
def rTagSel (e : Nat) : Bool := bitOf e 12
def rLocal (e : Nat) : Nat := bitsOf e 15 13

def tokRoute (t : BitVec 272) : Nat := bitsOf t.toNat 261 256
def tokLast (t : BitVec 272) : Bool := bitOf t.toNat 262
def tokCtrl (t : BitVec 272) : Bool := bitOf t.toNat 263
def tokTag (t : BitVec 272) : Nat := bitsOf t.toNat 271 264

/-- A token (R75). -/
def token (payload : Bytes) (route : Nat) (last ctrl : Bool) (tag : Nat) : BitVec 272 :=
  BitVec.ofNat 272 (leAt payload 0 32 + (route % 64) * 2 ^ 256 + (if last then 2 ^ 262 else 0) +
    (if ctrl then 2 ^ 263 else 0) + (tag % 256) * 2 ^ 264)

/-- The 32 B of a token. -/
def tokBytes (t : BitVec 272) : Bytes := leBytes 32 t.toNat

/-- A token with the ROUTE value for the next router (R81). -/
def tokReroute (t : BitVec 272) (r : Nat) : BitVec 272 := BitVec.ofNat 272 (putBits t.toNat 261 256 r)

/-! ### Geometry -/

/-- Key of a cell, and its coordinates (R64). -/
def cellKey (core cell : Nat) : Nat := core * 4096 + cell
def cellX (cell : Nat) : Nat := cell % 64
def cellY (cell : Nat) : Nat := cell / 64
def cellIsland (core cell : Nat) : Nat := core * 16 + cellY cell / 16 * 4 + cellX cell / 16
def cellSlice (core cell : Nat) : Nat := core * 4 + cellY cell / 32 * 2 + cellX cell / 32

/-- Cell number of relative cell `i` of a slice (R110). Log 72 (DESIGN CHOICE). -/
def relCell (slice i : Nat) : Nat :=
  let q := slice % 4
  (q / 2 * 32 + i / 32) * 64 + (q % 2 * 32 + i % 32)

/-- Key of relative cell `i` of a slice. Log 72 (DESIGN CHOICE). -/
def relKey (slice i : Nat) : Nat := cellKey (slice / 4) (relCell slice i)

/-- Relative index of a cell in its slice. -/
def relOf (cell : Nat) : Nat := cellY cell % 32 * 32 + cellX cell % 32

/-- Island number of island `k` of a slice (R24, R110). -/
def sliceIsland (slice k : Nat) : Nat :=
  let q := slice % 4
  slice / 4 * 16 + (q / 2 * 2 + k / 2) * 4 + (q % 2 * 2 + k % 2)

/-- Slice of a compute island. -/
def islandSlice (isl : Nat) : Nat :=
  let l := isl % 16
  isl / 16 * 4 + l / 4 / 2 * 2 + l % 4 / 2

/-- Byte address of a scratchpad line of a cell in `spad`, and of a share line of a slice in `share`. -/
def spadAt (key line : Nat) : Nat := key * 32768 + line * 64
def shareAt (slice line : Nat) : Nat := slice * 2 ^ 23 + line * 256

/-- The router that port `p` of a cell leads to (R65): 0 north (row - 1), 1 east, 2 south, 3 west; none at the core's
edge. -/
def neighbour (cell p : Nat) : Option Nat :=
  if p = 0 then (if cellY cell = 0 then none else some (cell - 64))
  else if p = 1 then (if cellX cell = 63 then none else some (cell + 1))
  else if p = 2 then (if cellY cell = 63 then none else some (cell + 64))
  else if p = 3 then (if cellX cell = 0 then none else some (cell - 1))
  else none

/-- The port through which a token sent from port `p` arrives. -/
def facing (p : Nat) : Nat := (p + 2) % 4

/-! ### Tiles -/

/-- The part of `T` tiles that member `k` of `M` runs (R130): first coordinate and count. -/
def memberShare (T M k : Nat) : Nat × Nat :=
  let j := ((List.range 17).find? (fun j => decide (T ≤ M * 2 ^ j))).getD 16
  let lo := k * 2 ^ j
  (lo, min ((k + 1) * 2 ^ j) T - lo)

/-- The tiles a member runs in a phase: origin and counts per axis. -/
structure Box where
  o0 : Nat
  o1 : Nat
  o2 : Nat
  n0 : Nat
  n1 : Nat
  n2 : Nat
  deriving DecidableEq, Repr

/-- The box of a phase for member `k` of `M`; without a span, all tiles. -/
def Tiling.box (t : Tiling) (span : Option (Nat × Nat)) : Box :=
  let all : Box := ⟨0, 0, 0, t.t0, t.t1, t.t2⟩
  match span with
  | none => all
  | some (M, k) =>
    if t.axis = 0 then let (o, n) := memberShare t.t0 M k; { all with o0 := o, n0 := n }
    else if t.axis = 1 then let (o, n) := memberShare t.t1 M k; { all with o1 := o, n1 := n }
    else if t.axis = 2 then let (o, n) := memberShare t.t2 M k; { all with o2 := o, n2 := n }
    else all

/-- Tiles in a box. -/
def Box.count (b : Box) : Nat := b.n0 * b.n1 * b.n2

/-- Coordinate of the tile of linear index `l` in a box (R123). -/
def Box.coord (b : Box) (l : Nat) : Nat × Nat × Nat :=
  (b.o0 + l % b.n0, b.o1 + l / b.n0 % b.n1, b.o2 + l / (b.n0 * b.n1))

/-- Rows, columns and contraction depth of the output tile that the tensor unit computes in a cycle (R70), by pair index. -/
def tensorShape (pair : Nat) : Nat × Nat × Nat :=
  if pair = 0 then (4, 4, 16) else if pair ≤ 8 then (4, 4, 8) else if pair ≤ 10 then (4, 4, 2) else (2, 4, 1)

/-- Row-major index, within a phase's output tile, of output `i` (row by row, four to a row) of the `sub`-th small tile of `m` rows
that the cells compute: the small tiles cover the output tile row by row. None beyond the output tile (R50, R71). Log 47 (DESIGN CHOICE). -/
def Tiling.elem (t : Tiling) (m sub i : Nat) : Option Nat :=
  let wide := max 1 ((t.n + 3) / 4)
  let row := sub / wide * m + i / 4
  let col := sub % wide * 4 + i % 4
  if row < t.m ∧ col < t.n then some (row * t.n + col) else none

/-- Packed coordinate of a tile (R122). -/
def packTile (c : Nat × Nat × Nat) : Nat := c.1 + c.2.1 * 2 ^ 16 + c.2.2 * 2 ^ 32

end Sys2Proof.Machine
end

