-- ==== Sys2Proof/Machine/Flags.lean ====
section
/-! DEFINITION. What commands signal: warning flags (R43, R49, R53), the broken latch (R221), fences with their error
records (R210-R214), breaks out of turn, retirement of a key and the security alarm (R392, R399). -/

namespace Sys2Proof.Machine

open Sys2Proof

/-! ### Warning flags -/

/-- A completed command's warnings are counted once, and its ARITH_WARNING record is written with WARN_EVT (R51, R53).
Log 61 (DESIGN CHOICE). -/
def State.countWarnings (s : State) (c : Cmd) : State :=
  if c.warn = 0 then s
  else
    let s := if bitOf c.warn 0 then s.bump (ctxPg c.ctx + CTX_RANGE_CNT) 1 else s
    let s := if bitOf c.warn 1 then s.bump (ctxPg c.ctx + CTX_INVALID_CNT) 1 else s
    if bitOf c.acw 3 then
      s.event (s.queEvq c.q) 0x04 (s.ownerOf (quePg c.q)) (leBytes 2 c.q ++ leBytes 1 c.warn ++ leBytes 1 0 ++ leBytes 4 c.seq)
    else s

/-! ### The broken latch -/

/-- Code of the first break in the chain that a broken command belongs to (R214). -/
def Cmd.rootCode (c : Cmd) : Nat := if c.code = codePredecessorBroken ∧ c.detail ≠ 0 then c.detail else c.code

/-- Responses to the requests of a command are for a run that has been stopped. -/
def State.forgetReqs (s : State) (q seq : Nat) : State :=
  { s with reqs := s.reqs.map (fun e => (e.1, e.2.map (fun r => if r.q = q ∧ r.seq = seq then { r with dead := true } else r))) }

/-- Whether a command has issued all it has to, and waits only for answers to its requests (R217). -/
def State.awaits (s : State) (c : Cmd) : Bool :=
  c.work && c.code == 0 && !c.recorded && s.reqs.any (fun e => match e.2 with
    | some r => r.q == c.q && r.seq == c.seq && !r.dead
    | none => false)

/-- Break a command that waits only for answers: they change nothing any more. -/
def State.breakAwaiting (s : State) (code : Nat) (detail : Nat) (c : Cmd) : State :=
  (s.updCmd c.q c.seq (fun c => c.breakWith code 4 c.q detail)).forgetReqs c.q c.seq

/-- The break of a command without INDEPENDENT sets the latch of its queue; later commands that had started with
OVERLAP stop at their next preemption point, and those whose work has ended and is not resolved break (R221, R223).
Log 101 (DESIGN CHOICE). -/
def State.setLatch (s : State) (c : Cmd) : State :=
  if dIndependent c.desc then s
  else
    let s := { s with latched := Tab.upd [] s.latched c.q (fun l => l ++ [(c.seq, c.rootCode)]) }
    let s := s.set (quePg c.q) QUE_STAT_LATCH 1
    let s := s.mapCmds (fun d => d.q == c.q && seqBefore c.seq d.seq && d.started && !d.work && !dIndependent d.desc)
      (fun d => { d.stopFor codePredecessorBroken with detail := if d.stop = 0 then c.rootCode else d.detail })
    (s.allCmds.filter (fun d => d.q == c.q && seqBefore c.seq d.seq && d.started && d.work && d.code == 0 && !dIndependent d.desc)).foldl
      (fun s d => s.breakAwaiting codePredecessorBroken c.rootCode d) s

/-- The latch clears for commands that have not reached their turn to start (R222). Log 102 (DESIGN CHOICE). -/
def State.clearLatch (s : State) (q : Nat) : State :=
  ({ s with latched := Tab.put [] q [] s.latched }).set (quePg q) QUE_STAT_LATCH 0

/-- What breaks a command when its turn to start comes: the first code of a break earlier in its queue that holds the latch (R221). A
command whose work has ended broken breaks, and sets the latch, when it is resolved (R196). Log 101 (DESIGN CHOICE), 102 (DESIGN CHOICE). -/
def State.brokenBefore (s : State) (c : Cmd) : Option Nat :=
  ((Tab.get [] s.latched c.q).find? (fun e => seqBefore e.1 c.seq)).map (·.2)

/-! ### Fences -/

def fenValue (f : Nat) : Nat := fenAt f + FEN_VALUE
def fenTarget (f : Nat) : Nat := fenAt f + FEN_TARGET

/-- STATE of a fence: 0 SIGNALLED, 1 PENDING, 2 BROKEN. -/
def State.fenState (s : State) (f : Nat) : Nat := s.get (fenAt f) FEN_STAT_STATE
def State.fenBroken (s : State) (f : Nat) : Bool := s.fenState f == 2

/-- SIGNALLED or PENDING by VALUE and TARGET, unless BROKEN; a fence with REMOTE set is never PENDING (R210). Log 111 (DEDUCED). -/
def State.fenSettle (s : State) (f : Nat) : State :=
  if s.fenBroken f then s
  else s.set (fenAt f) FEN_STAT_STATE
    (if s.rd64 (fenValue f) < s.rd64 (fenTarget f) ∧ s.on (fenAt f) FEN_CTL_REMOTE = false then 1 else 0)

/-- Fences whose FEN_CTL differs from its reset value: the only ones that can be enabled. -/
def State.fencesListed (s : State) : List Nat :=
  (s.regs.filter (fun (e : Nat × Word) => decide (Pg.base .fen 0 ≤ e.1) && decide (e.1 < Pg.base .fen 2048) &&
    decide (0x100 ≤ e.1 % 0x1000) && decide (e.1 % 0x1000 < 0x900) && e.1 % 64 == FEN_CTL % 64)).map
    (fun (e : Nat × Word) => (e.1 - Pg.base .fen 0) / 0x1000 * 32 + (e.1 % 0x1000 - 0x100) / 64)

/-- A named value raises TARGET (R210). -/
def State.raiseTarget (s : State) (f v : Nat) : State :=
  if s.rd64 (fenTarget f) < v then (s.wr64 (fenTarget f) v).fenSettle f else s

/-- ERR_CNT of a fence advances, and its page notes it (R519). -/
def State.fenErr (s : State) (f : Nat) : State :=
  (s.bump (fenAt f + FEN_ERR_CNT) 1).raise (Pg.base .fen (f / 32)) 2

/-- A signal raises VALUE; at a BROKEN fence it is discarded and counted (R211, R212). Log 110 (DESIGN CHOICE). -/
def State.signalFence (s : State) (f v : Nat) : State :=
  if s.fenBroken f then s.fenErr f
  else (if s.rd64 (fenValue f) < v then s.wr64 (fenValue f) v else s).fenSettle f

/-- First word of a fence's error record. -/
def FEN_ERR_REC : Nat := 0x120

/-- The bytes of an error record (R214). -/
def errorRecord (code detail srcKind gen srcId q seq ctx remote value count : Nat) : Bytes :=
  leBytes 1 code ++ leBytes 1 detail ++ leBytes 1 srcKind ++ leBytes 1 gen ++ leBytes 2 srcId ++ leBytes 2 (q % 4096) ++
    leBytes 4 seq ++ leBytes 2 (ctx % 1024) ++ leBytes 2 (if srcKind = 5 then remote % 4096 else 0) ++ leBytes 8 value ++
    leBytes 8 count

/-- A break: the first one writes the error record and moves the fence to BROKEN; each is counted (R212). -/
def State.breakFence (s : State) (f : Nat) (record : Bytes) : State :=
  let s := s.fenErr f
  if s.fenBroken f then s
  else
    let s := (List.range 8).foldl (fun s i => s.wr (fenAt f + FEN_ERR_REC + 4 * i) (leAt record (4 * i) 4)) s
    s.set (fenAt f) FEN_STAT_STATE 2

/-- The FENCE_BROKEN record of a local fence goes to its queue's event queue (R229). -/
def State.brokenEvent (s : State) (f code q seq : Nat) : State :=
  s.event (s.queEvq q) 0x02 (s.ownerOf (quePg q))
    (leBytes 2 f ++ leBytes 1 code ++ leBytes 1 0 ++ leBytes 2 q ++ leBytes 2 0 ++ leBytes 4 seq)

/-- The fence of a broken command breaks (R211, R214, R215). -/
def State.breakFenceOf (s : State) (c : Cmd) : State :=
  if dNoFence c.desc then s
  else
    let s := s.breakFence (dFence c.desc) (errorRecord c.code c.detail c.srcKind c.gen c.srcId c.q c.seq c.ctx c.remote
      (dValue c.desc) s.mclk)
    s.brokenEvent (dFence c.desc) c.code c.q c.seq

/-- Whether an accepted, unresolved command names a fence, as its own or in an entry of a WAIT (R206, R213). -/
def State.fenceNamed (s : State) (f : Nat) : Bool :=
  s.allCmds.any (fun c => !c.fenced && ((!dNoFence c.desc && dFence c.desc == f) ||
    (dOp c.desc == 5 && (waitEntries c.desc).any (fun e => e.1 == f))))

/-- REARM: a BROKEN fence that no accepted, unresolved command names returns to SIGNALLED or PENDING (R213). Log 111 (DEDUCED). -/
def State.fenceRearm (s : State) (f : Nat) : State :=
  if s.fenBroken f ∧ s.fenceNamed f = false then (s.set (fenAt f) FEN_STAT_STATE 0).fenSettle f else s

/-- How a wait for value `w` of a fence stands: some true satisfied, some false failed, none not yet (R211). -/
def State.fenceWait (s : State) (f w : Nat) : Option Bool :=
  if w ≤ s.rd64 (fenValue f) then some true else if s.fenBroken f then some false else none

/-- The first code of the chain that broke a fence (R214). -/
def State.fenceRoot (s : State) (f : Nat) : Nat :=
  let w := s.rd (fenAt f + FEN_ERR_REC)
  if w % 256 = codePredecessorBroken ∧ w / 256 % 256 ≠ 0 then w / 256 % 256 else w % 256

/-! ### Moulds that commands name (R119) -/

/-- Whether some accepted COMPUTE names an entry (R119). -/
def State.mouldNamed (s : State) (p i : Nat) : Bool :=
  s.allCmds.any (fun c => !c.fenced && c.part == p && dOp c.desc == 1 && dMould c.desc == i)

/-- A RELEASING entry that no accepted command names becomes FREE (R119). Log 66 (DESIGN CHOICE). -/
def State.mouldSettle (s : State) (p i : Nat) : State :=
  let e := s.atMould (p * 64 + i)
  if e.state = 3 ∧ s.mouldNamed p i = false then s.updMould (p * 64 + i) (fun _ => {}) else s

/-! ### Breaks out of turn -/

/-- A command broken by FORCE, or before its start, is resolved at that moment, although an earlier command of its queue is not
(R196, R225, R399): its fence breaks, the latch is set, and it holds nothing any more. Its record waits for its turn (R209).
Log 100 (DESIGN CHOICE). -/
def State.outOfTurn (s : State) (c : Cmd) : State :=
  let c := { c with fenced := true, at_ := some s.mclk }
  let s := ((s.updCmd c.q c.seq (fun _ => c)).breakFenceOf c).setLatch c
  if dOp c.desc = 1 then s.mouldSettle c.part (dMould c.desc) else s

/-- FORCE on a command: one not yet started breaks now, a running one at its next preemption point. Log 100 (DESIGN CHOICE). -/
def State.forceBreak (s : State) (c : Cmd) (code : Nat) : State :=
  if s.awaits c then s.breakAwaiting code 0 c
  else if c.work then s
  else if c.started then s.updCmd c.q c.seq (fun c => c.stopFor code)
  else s.outOfTurn (c.breakWith code 4 c.q)

/-! ### Keys and the security alarm -/

/-- Retirement of slot `k` starts or, already running, takes FORCE (R399): with FORCE the commands that name the slot
stop. -/
def State.keyStartRetire (s : State) (k : Nat) (force : Bool) : State :=
  let e := keyAt k
  let s := if s.get e KEY_STAT_STATE = 1 then ((s.set e KEY_STAT_STATE 2).set e KEY_STAT_STEP 2).set e KEY_STAT_RESULT 0
    else s
  if force ∧ s.get e KEY_STAT_STATE = 2 then
    (s.allCmds.filter (fun c => c.keys.contains k)).foldl (fun s c => s.forceBreak c codeKeyRetired) s
  else s

/-- The security alarm with `cause`, naming a slot and its partition or none (R392). Log 193 (DEDUCED). -/
def State.securityAlarm (s : State) (cause : Nat) (slot : Option Nat) (srcId : Nat) : State :=
  let k := slot.getD 0
  let p := s.get (keyAt k) KEY_STAT_PARTITION
  let s := s.wr (secPg + SEC_ALARM) (s.rd (secPg + SEC_ALARM) ||| 2 ^ cause)
  let s := s.errCount secPg SEC_ALARM_CNT 1
  let s := ((s.set secPg SEC_ALARM_LAST_CAUSE cause).set secPg SEC_ALARM_LAST_SLOT k).set secPg
    SEC_ALARM_LAST_PARTITION (if slot.isSome then p else 0)
  let s := s.eventAll (0 :: (if slot.isSome then s.partEvqs p else [])) 0x30 0 (leBytes 1 cause ++ leBytes 1 k ++ leBytes 1 (if slot.isSome then p else 0xFF) ++
    leBytes 1 0 ++ leBytes 2 srcId)
  let s := s.alarm 2
  if slot.isSome ∧ cause ≤ 3 ∧ s.on (keyAt k) KEY_CTL_AUTO_RETIRE then s.keyStartRetire k true else s

end Sys2Proof.Machine
end

