-- ==== Sys2Proof/Machine/Symbols.lean ====
section
/-! DEFINITION. The symbol code of a stored line (R150): Reed-Solomon check symbols over GF(2^8). -/

namespace Sys2Proof.Machine

open Sys2Proof

/-- Twice a field element, modulo x^8 + x^4 + x^3 + x^2 + 1. -/
def gfDouble (a : Nat) : Nat := if a < 128 then 2 * a else (2 * a) ^^^ 0x11D

/-- Product of two field elements, bit by bit of the second. -/
def gfMul (a b : Nat) : Nat := ((List.range 8).foldl (fun (t : Nat × Nat) i =>
  (if b.testBit i then t.1 ^^^ t.2 else t.1, gfDouble t.2)) (0, a)).1

/-- α^i for α = 0x02. -/
def gfPow : Nat → Nat
  | 0 => 1
  | i + 1 => gfDouble (gfPow i)

/-- A polynomial, highest power first, times x + r. -/
def polyStep (p : List Nat) (r : Nat) : List Nat := ((p ++ [0]).zip (0 :: p)).map (fun (e : Nat × Nat) => e.1 ^^^ gfMul e.2 r)

/-- The generator polynomial with roots α^0 to α^7, highest power first, its leading 1 left out. Log 79 (DESIGN CHOICE). -/
def rsGen : List Nat := ((List.range 8).foldl (fun p i => polyStep p (gfPow i)) [1]).drop 1

/-- Remainder of a message times x^8 by the generator: the eight check symbols, highest power first. -/
def rsCheckBy (gen data : List Nat) : List Nat := data.foldl (fun r d =>
  let f := r.headD 0 ^^^ d
  ((r.drop 1 ++ [0]).zip gen).map (fun (e : Nat × Nat) => e.1 ^^^ gfMul f e.2)) (List.replicate 8 0)

/-- The check symbols of a codeword's 128 data bytes, the byte of the lowest lane standing for the highest power. Log 79 (DESIGN CHOICE). -/
def rsCheck (data : List Nat) : List Nat := rsCheckBy rsGen data

/-- Value of a polynomial, highest power first. Log 79 (DESIGN CHOICE). -/
def polyAt (p : List Nat) (x : Nat) : Nat := p.foldl (fun t c => gfMul t x ^^^ c) 0

end Sys2Proof.Machine
end

