-- ==== Sys2Proof/Machine/Memory.lean ====
section
/-! DEFINITION. Stacked memory (R141-R169): the memory map, stored lines with their seals and correction, the narrow
access path's buffers, atomics, DRAM events, lane repair, refresh, temperature, patrol scrub. Device memory holds the
plaintext of every line together with the key it was sealed under. -/

namespace Sys2Proof.Machine

open Sys2Proof

/-! ### The memory map (R143-R146) -/

/-- Member channels of interleave set `n`, ascending. -/
def State.setChans (s : State) (n : Nat) : List Nat :=
  (List.range 8).flatMap (fun w => (onesBelow 32 (s.rd (mapPg + GLB_SET + 32 * n + 4 * w))).map (· + 32 * w))

/-- The fields of region `r`. -/
def State.regValid (s : State) (r : Nat) : Bool := s.on (regionAt r) GLB_REGION_0_VALID
def State.regPart (s : State) (r : Nat) : Nat := s.get (regionAt r) GLB_REGION_0_PARTITION
def State.regSet (s : State) (r : Nat) : Nat := s.get (regionAt r) GLB_REGION_0_SET
def State.regBase (s : State) (r : Nat) : Nat := s.get (regionAt r) GLB_REGION_1_BASE * 2 ^ 21
def State.regStart (s : State) (r : Nat) : Nat := s.get (regionAt r) GLB_REGION_2_START
def State.regPerCh (s : State) (r : Nat) : Nat := s.get (regionAt r) GLB_REGION_3_PER_CH
def State.regChans (s : State) (r : Nat) : List Nat := s.setChans (s.regSet r)
/-- Bytes of region `r` (R144). -/
def State.regBytes (s : State) (r : Nat) : Nat := (s.regChans r).length * s.regPerCh r * 2 ^ 21

/-- The valid region that holds a DPA (R143). -/
def State.regionOf (s : State) (dpa : Nat) : Option Nat :=
  (List.range 64).find? (fun r => s.regValid r && decide (s.regBase r ≤ dpa) &&
    decide (dpa < s.regBase r + s.regBytes r))

/-- Where a DPA lies: channel, channel line address, byte of the line (R145). -/
structure Place where
  chan : Nat
  cl : Nat
  byte : Nat
  deriving DecidableEq, Repr

/-- The mapping of R145. -/
def State.place (s : State) (dpa : Nat) : Option Place :=
  match s.regionOf dpa with
  | none => none
  | some r =>
    let o := dpa - s.regBase r
    let chans := s.regChans r
    let n := chans.length
    some ⟨chans.getD (o / 256 % n) 0, s.regStart r * 8192 + o / 256 / n, o % 256⟩

/-- Where a line of a channel lies in its DRAM (R141). -/
structure DramAddr where
  row : Nat
  group : Nat
  bank : Nat
  line : Nat
  deriving DecidableEq, Repr

/-- Row, bank group, bank and line within the row of a channel line address (R141). -/
def rowOf (cl : Nat) : Nat := bitsOf cl 22 7
def bankOf (cl : Nat) : Nat := bitsOf cl 6 3 ^^^ bitsOf cl 10 7
def lineInRow (cl : Nat) : Nat := bitsOf cl 2 0
def dramAddr (cl : Nat) : DramAddr := ⟨rowOf cl, bitsOf (bankOf cl) 3 2, bankOf cl, lineInRow cl⟩

/-- Whether a channel's group is retired (R454). -/
def State.chanRetired (s : State) (c : Nat) : Bool := s.capState 2 c == 2

/-- The check rules of R146 and R236 for region `r`, in ascending order: the first that fails, 0 when none does. Log 87 (DESIGN CHOICE). -/
def State.regionRule (s : State) (r : Nat) : Nat :=
  let chans := s.regChans r
  let others := (List.range 64).filter (fun x => x != r && s.regValid x)
  if chans.isEmpty || chans.any (fun c => s.chanRetired c) then 1
  else if 1024 < s.regStart r + s.regPerCh r ∨ s.regPerCh r = 0 then 2
  else if others.any (fun x => decide (s.regBase r < s.regBase x + s.regBytes x) &&
      decide (s.regBase x < s.regBase r + s.regBytes r)) then 3
  else if others.any (fun x => (s.regChans x).any (fun c => chans.contains c) &&
      decide (s.regStart r < s.regStart x + s.regPerCh x) && decide (s.regStart x < s.regStart r + s.regPerCh r)) then 4
  else if chans.any (fun c => !(s.chanParts c).contains (s.regPart r)) then 7
  else if 2 ^ 39 < s.regBase r + s.regBytes r then 8
  else 0

/-- GLB_MAP_ERR. -/
def State.mapError (s : State) (idx : Nat) (isSet : Bool) (rule : Nat) : State :=
  ((s.set mapPg GLB_MAP_ERR_INDEX idx).mark mapPg GLB_MAP_ERR_IS_SET isSet).set mapPg GLB_MAP_ERR_RULE rule

/-! ### Stored lines -/

/-- Address of byte 0 of a stored line in `mem`. -/
def lineKey (chan cl : Nat) : Nat := chan * 2 ^ 31 + cl * 256

/-- Number of a stored line. -/
def lineNo (chan cl : Nat) : Nat := chan * 2 ^ 23 + cl

/-- The seal that key index `k` puts on the line at a DPA (R389, R390): each arming has keys of its own, also after a reset has
set EPOCH back. Log 77 (DESIGN CHOICE). -/
def State.sealFor (s : State) (k dpa : Nat) : Seal :=
  if k = 0 then {} else ⟨1, k, s.rd (keyAt k + KEY_EPOCH) + 2 ^ 32 * s.sec.boots, dpa / 256⟩

/-- What a read of a line answers. -/
inductive LineRes where
  | ok (data : Bytes)
  | uncorr
  | tagFail
  deriving DecidableEq, Repr

/-- Plaintext of a stored line. -/
def State.lineData (s : State) (chan cl : Nat) : Bytes := Memory.read s.mem (lineKey chan cl) 256

/-- The bytes of a stored line as the DRAM holds them: ciphertext under any key (R147, R513). -/
def State.lineStored (s : State) (chan cl : Nat) : Bytes :=
  let g := Tab.get {} s.seals (lineNo chan cl)
  let d := s.lineData chan cl
  if g.kind = 0 then d
  else (List.range 256).map (fun i => Config.cipherByte g.kind g.idx g.epoch g.line (leNat d) i)

/-- The tag bytes of a stored line: zeros under key index 0 (R147). -/
def State.lineTag (s : State) (chan cl : Nat) : Bytes :=
  let g := Tab.get {} s.seals (lineNo chan cl)
  if g.kind = 0 then List.replicate 16 0
  else (List.range 16).map (fun i => Config.tagByte g.kind g.idx g.epoch g.line (leNat (s.lineData chan cl)) i)

/-- The 288 lanes of a stored line as its burst carries them: the stored bytes, the check symbols of the codewords of the even and of
the odd bytes by turns, the tag (R147, R150). -/
def State.lineLanes (s : State) (chan cl : Nat) : Bytes :=
  let d := s.lineStored chan cl
  let word := fun w => rsCheck ((List.range 128).map (fun i => leAt d (2 * i + w) 1))
  let c0 := word 0
  let c1 := word 1
  d ++ (List.range 8).flatMap (fun j => [BitVec.ofNat 8 (c0.getD j 0), BitVec.ofNat 8 (c1.getD j 0)]) ++ s.lineTag chan cl

/-- Beat `j` of the burst: bit j of every lane (R147). -/
def State.lineBeat (s : State) (chan cl j : Nat) : List Bool := (s.lineLanes chan cl).map (fun b => b.toNat.testBit j)

/-- Write a whole line under a seal: it replaces an uncorrectable line (R152). Log 77 (DESIGN CHOICE). -/
def State.storeLine (s : State) (chan cl : Nat) (g : Seal) (data : Bytes) : State :=
  { s with mem := Memory.write s.mem (lineKey chan cl) (sliceBytes data 0 256),
           seals := Tab.put {} (lineNo chan cl) g s.seals,
           badLines := Tab.put 0 (lineNo chan cl) 0 s.badLines }

/-- Record an uncorrectable line (R152, R451). -/
def State.uncorrected (s : State) (chan cl cw : Nat) : State :=
  let pg := memcPg chan
  let s := s.errCount pg MEMC_UNCORR 1
  let s := ((s.set pg MEMC_LAST_ERR_CL cl).set pg MEMC_LAST_ERR_TAG 0).set pg MEMC_LAST_ERR_CW1 cw
  s.fault 8 (chan / 2) (lineNo chan cl)

/-- Record a tag failure that the reread did not cure (R153): counted, and the security alarm raised. -/
def State.tagFailed (s : State) (chan cl : Nat) (g : Seal) (cause : Nat) : State :=
  let pg := memcPg chan
  let s := s.errCount pg MEMC_TAG_FAIL 1
  let s := ((s.set pg MEMC_LAST_ERR_CL cl).set pg MEMC_LAST_ERR_TAG 1).set pg MEMC_LAST_ERR_CW1 0
  s.securityAlarm cause (if g.kind = 1 then some g.idx else none) (136 + chan / 16)

/-- Whether a stored line is uncorrectable, and whether its tag bytes are wrong (R152, R153). -/
def State.lineBad (s : State) (chan cl : Nat) : Bool := let b := Tab.get 0 s.badLines (lineNo chan cl); b == 1 || b == 2
def State.tagBad (s : State) (chan cl : Nat) : Bool := Tab.get 0 s.badLines (lineNo chan cl) == 3

/-- The codeword that MEMC_LAST_ERR names for an uncorrectable line. -/
def State.badCw (s : State) (chan cl : Nat) : Nat := Tab.get 0 s.badLines (lineNo chan cl) - 1

/-- The lanes of a channel as they stand at a line: below the pointer of a sweep the spare carries the lane (R155). -/
def ChanSt.lanesAt (c : ChanSt) (cl : Nat) : ChanSt :=
  match c.sweep with
  | some (lane, ptr) => if cl < ptr then { c with eras := c.eras.erase lane, spared := lane :: c.spared } else c
  | none => c

/-- Count a line read with listed erasures (R151). -/
def State.countEras (s : State) (chan cl : Nat) : State :=
  if ((s.atChan chan).lanesAt cl).eras.any (fun l => decide (l < 272)) then s.bump (memcPg chan + MEMC_ERAS) 1 else s

/-- Read a line from DRAM, correct it, verify its tag and decrypt it (R150-R153). -/
def State.fetchLine (s : State) (chan cl : Nat) (want : Seal) (cause : Nat) : State × LineRes :=
  if s.lineBad chan cl then (s.uncorrected chan cl (s.badCw chan cl), .uncorr)
  else
    let s := s.countEras chan cl
    if want.kind = 0 then (s, .ok (s.lineStored chan cl))
    else if Tab.get {} s.seals (lineNo chan cl) = want ∧ s.tagBad chan cl = false then (s, .ok (s.lineData chan cl))
    else (s.tagFailed chan cl want cause, .tagFail)

/-! ### The narrow access path (R160-R164) -/

/-- Buffers of a channel, most recently used first. -/
def State.bufs (s : State) (chan : Nat) : List NapBuf := Tab.get [] s.nap chan

def State.setBufs (s : State) (chan : Nat) (l : List NapBuf) : State := { s with nap := Tab.put [] chan l s.nap }

/-- Write back a buffer: encrypt, tag, encode, write (R168, step 6). -/
def State.writeBack (s : State) (chan : Nat) (b : NapBuf) : State :=
  if b.dirty then (s.storeLine chan b.cl (s.sealFor b.key b.dpa) b.data).bump64 (napPg (chan / 16) + NAP_WB_CNT) 1
  else s

/-- The matching buffer of a line under a key index (R161). -/
def State.match? (s : State) (chan cl key : Nat) : Option NapBuf :=
  (s.bufs chan).find? (fun b => decide (b.cl = cl) && decide (b.key = key))

/-- Drop the buffer a line holds under another key index, after its write-back when `wb` (R161). -/
def State.dropOther (s : State) (chan cl key : Nat) (wb : Bool) : State :=
  match (s.bufs chan).find? (fun b => decide (b.cl = cl) && decide (b.key ≠ key)) with
  | none => s
  | some b =>
    let s := if wb then s.writeBack chan b else s
    s.setBufs chan ((s.bufs chan).filter (fun x => !(decide (x.cl = cl) && decide (x.key ≠ key))))

/-- Remove a victim when all 64 buffers of a channel are taken: the least recently used clean one, or the least recently
used dirty one, written back (R161). -/
def State.makeRoom (s : State) (chan : Nat) : State :=
  let l := s.bufs chan
  if l.length < 64 then s
  else
    let v := match l.reverse.find? (fun b => !b.dirty) with
      | some b => some b
      | none => l.getLast?
    match v with
    | none => s
    | some b => (s.writeBack chan b).setBufs chan (l.erase b)

/-- Put a buffer in the first place. -/
def State.useBuf (s : State) (chan : Nat) (b : NapBuf) : State :=
  s.setBufs chan (b :: (s.bufs chan).filter (fun x => !(decide (x.cl = b.cl) && decide (x.key = b.key))))

/-- What the narrow access path answers a request. -/
inductive NapRes where
  | data (d : Bytes)
  | done
  | dropped
  | failed (code srcKind srcId : Nat)
  deriving DecidableEq, Repr

/-- The failure of a line access as the requester sees it: the memory-controller island is the source (R152, R153).
Log 98 (DESIGN CHOICE). -/
def lineFailure (chan : Nat) : LineRes → NapRes
  | .ok d => .data d
  | .uncorr => .failed codeMemUncorrectable 0 (136 + chan / 16)
  | .tagFail => .failed codeTagFail 0 (136 + chan / 16)

/-- Mark the 2 MiB block of a write in the device log of the owning partition (R189), and in the block log of a rebalance
of that region (R251). Log 95 (DESIGN CHOICE). -/
def State.markBlock (s : State) (dpa : Nat) : State :=
  match s.regionOf dpa with
  | none => s
  | some r =>
    let p := s.regPart r
    let b := dpa / 2 ^ 21
    let s := if s.on (partPg p) PART_DLOG_CTL_ENABLE then
        s.updPart p (fun x => { x with dlog := if x.dlog.contains b then x.dlog else b :: x.dlog })
      else s
    let rb := s.atRebind p
    if rb.src = r ∧ 3 ≤ rb.sub ∧ rb.log.contains b = false then
      (s.updRebind p (fun x => { x with log := b :: x.log })).set (partPg p) PART_REBAL_STAT_BLOCKS_LEFT (rb.log.length + 1)
    else s

/-- Whether requests under a key index are served: plaintext, or a slot that is armed or has not reached step 3 of its
retirement (R399). Log 96 (DEDUCED). -/
def State.keyServed (s : State) (k : Nat) : Bool :=
  k == 0 || s.get (keyAt k) KEY_STAT_STATE == 1 ||
    (s.get (keyAt k) KEY_STAT_STATE == 2 && decide (s.get (keyAt k) KEY_STAT_STEP ≤ 2))

/-- Open the buffer of a line for a short read, atomic or partial write (R161, R168 steps 1 to 4). -/
def State.openBuf (s : State) (chan cl key part dpa cause : Nat) : State × (NapRes ⊕ NapBuf) :=
  match s.match? chan cl key with
  | some b => ((s.useBuf chan b).bump64 (napPg (chan / 16) + NAP_HIT_CNT) 1, .inr b)
  | none =>
    let s := (s.dropOther chan cl key true).makeRoom chan
    let (s, r) := s.fetchLine chan cl (s.sealFor key dpa) cause
    match r with
    | .ok d =>
      let b : NapBuf := { cl := cl, key := key, part := part, dpa := dpa / 256 * 256, data := d }
      ((s.useBuf chan b).bump64 (napPg (chan / 16) + NAP_MISS_CNT) 1, .inr b)
    | e => (s, .inl (lineFailure chan e))

/-- A full line read (R161, R162). -/
def State.lineRead (s : State) (p : Place) (key dpa : Nat) : State × NapRes :=
  match s.match? p.chan p.cl key with
  | some b =>
    let s := s.bump64 (napPg (p.chan / 16) + NAP_HIT_CNT) 1
    if b.dirty ∧ b.since + 1000 ≤ s.mclk then
      ((s.writeBack p.chan b).useBuf p.chan { b with dirty := false }, .data b.data)
    else (s.useBuf p.chan b, .data b.data)
  | none =>
    let s := s.dropOther p.chan p.cl key true
    let (s, r) := s.fetchLine p.chan p.cl (s.sealFor key dpa) 1
    (s, lineFailure p.chan r)

/-- A full line write (R161): every buffer of the line is dropped. -/
def State.lineWrite (s : State) (p : Place) (key dpa : Nat) (data : Bytes) : State :=
  let s := s.setBufs p.chan ((s.bufs p.chan).filter (fun b => decide (b.cl ≠ p.cl)))
  (s.storeLine p.chan p.cl (s.sealFor key dpa) data).markBlock dpa

/-- Apply `f` to the plaintext of a line in its buffer: a partial write or an atomic (R168), with the bytes it returns. -/
def State.lineModify (s : State) (p : Place) (key part dpa : Nat) (f : Bytes → Bytes × Bytes) : State × NapRes :=
  match s.openBuf p.chan p.cl key part dpa 2 with
  | (s, .inl e) => (s, e)
  | (s, .inr b) =>
    let (d, ret) := f b.data
    let since := if b.dirty then b.since else s.mclk
    ((s.useBuf p.chan { b with data := d, dirty := true, since := since }).markBlock dpa, .data ret)

/-- Read part of a line in its buffer (R161). -/
def State.lineShort (s : State) (p : Place) (key part dpa n : Nat) : State × NapRes :=
  match s.openBuf p.chan p.cl key part dpa 1 with
  | (s, .inl e) => (s, e)
  | (s, .inr b) => (s, .data (sliceBytes b.data p.byte n))

/-- Whether a request may take effect at the narrow access path: its line is on a channel in use, its generation is
current (R163), its key index is served (R399). Log 85 (DESIGN CHOICE). -/
def State.admitReq (s : State) (r : Req) : State × Option Place × NapRes :=
  match s.place r.dpa with
  | none => (s, none, .dropped)
  | some p =>
    if Tab.get 0 s.gens r.ctx ≠ r.gen then (s.errCount (napPg (p.chan / 16)) NAP_STALE_DROP 1, none, .dropped)
    else if s.chanRetired p.chan then (s, none, .failed codeUnitRetired 1 p.chan)
    else if s.keyServed r.key = false then (s, none, .dropped)
    else (s, some p, .done)

/-- The partition a request is made for. -/
def State.reqPart (s : State) (r : Req) : Nat := s.get (ctxPg r.ctx) CTX_STAT_PARTITION

/-- Deliver what the narrow access path answers: data to the requester, a bus error and the break of the command
(R152, R153, R169, R454). -/
def State.deliver (s : State) (r : Req) : NapRes → State
  | .data d => if d.isEmpty then s else s.emit (.served r.q r.seq d)
  | .done => s
  | .dropped => s
  | .failed code k i => (s.breakCmd r.q r.seq code k i).emit (.busError r.q r.seq)

/-- Record a translation refusal of a context (CTX_XLAT_REJ). -/
def State.xlatRej (s : State) (x reason seg range : Nat) (run : Bool) : State :=
  (s.wr (ctxPg x + CTX_XLAT_REJ) (reason + seg * 2 ^ 8 + range * 2 ^ 11 + (if run then 2 ^ 17 else 0))).errCount
    (ctxPg x) CTX_XLAT_REJ_CNT 1

/-- Whether `n` bytes at a DPA under a key index lie in a device-memory range of a command; a whole line may reach to the line's ends
beyond the range (R179). -/
def Range.holds (g : Range) (key dpa n : Nat) : Bool :=
  g.loc == 0 && g.key == key && (if n = 256 then decide (g.addr / 256 * 256 ≤ dpa) && decide (dpa < g.addr + g.len)
    else decide (g.addr ≤ dpa) && decide (dpa + n ≤ g.addr + g.len))

/-- The command of a request, when the address is in none of its ranges, with the range that the refusal names: one of the request's key
index, else the first (R179). Log 57 (DEDUCED). -/
def State.strays (s : State) (r : Req) (n : Nat) : Option (Cmd × Nat) := match s.cmd? r.q r.seq with
  | none => none
  | some c => if c.ranges.any (fun g => g.holds r.key r.dpa n) then none
    else some (c, (c.ranges.findIdx? (fun g => g.loc == 0 && g.key == r.key)).getD 0)

/-- A request of `n` bytes that its command's ranges and the narrow access path admit is served by `f`. -/
def State.serve (s : State) (r : Req) (n : Nat) (f : State → Place → State × NapRes) : State :=
  match s.strays r n with
  | some (c, i) => (s.xlatRej c.ctx 0x21 ((c.ranges.getD i {}).seg) i true).breakCmd c.q c.seq codeRights 4 c.q 0x21
  | none => match s.admitReq r with
    | (s, some p, _) => let (s, x) := f (s.beat 2 (p.chan / 16)) p; s.deliver r x
    | (s, none, x) => s.deliver r x

/-- Whether a request is well formed for the device: a DPA of 39 bits, a key index, a context. -/
def reqOk (r : Req) : Bool :=
  decide (r.dpa < 2 ^ 39) && decide (r.key < 256) && decide (r.ctx < 1024) && decide (r.q < 4096)

/-- NAP_LINE_READ (R161). Log 60 (DESIGN CHOICE). -/
def execNapLineRead (r : Req) (s : State) : Answer :=
  onUnit (reqOk r) (s.serve r 256 (fun s p => s.lineRead p r.key r.dpa))

/-- NAP_LINE_WRITE (R161): a write of 256 B aligned to the line. -/
def execNapLineWrite (r : Req) (data : Bytes) (s : State) : Answer :=
  onUnit (reqOk r) (s.serve r 256 (fun s p => (s.lineWrite p r.key r.dpa data, .done)))

/-- A run-time request that is not naturally aligned is dropped and breaks its command with RIGHTS (R165). -/
def State.serveAligned (s : State) (r : Req) (n : Nat) (f : State → Place → State × NapRes) : State :=
  if r.dpa % n ≠ 0 then s.breakCmd r.q r.seq codeRights 4 r.q else s.serve r n f

/-- NAP_SHORT_READ (R161, R165): 8, 32 or 64 B; other sizes are no request of the fabric or the links. -/
def execNapShortRead (r : Req) (size : Nat) (s : State) : Answer :=
  onUnit (reqOk r && (size == 8 || size == 32 || size == 64))
    (s.serveAligned r size (fun s p => s.lineShort p r.key (s.reqPart r) r.dpa size))

/-- NAP_PARTIAL_WRITE (R168): fewer than 256 B within one line. -/
def execNapPartialWrite (r : Req) (data : Bytes) (s : State) : Answer :=
  onUnit (reqOk r && decide (r.dpa % 256 + data.length ≤ 256) && decide (data.length < 256))
    (s.serve r data.length (fun s p => s.lineModify p r.key (s.reqPart r) r.dpa (fun d => (patchBytes d p.byte data, []))))

/-! ### Atomics (R166, R167) -/

/-- An atomic on `n` bytes at byte `o` of a line: `f` makes the new value of the old one. -/
def atomicOn (n o : Nat) (ret : Bool) (f : Nat → Nat) (d : Bytes) : Bytes × Bytes :=
  let old := leAt d o n
  (patchBytes d o (leBytes n (f old)), if ret then leBytes n old else [])

/-- An atomic of 32 or 64 bits. -/
def State.atomic (s : State) (r : Req) (wide ret : Bool) (f : Nat → Nat) : State :=
  let n := if wide then 8 else 4
  s.serveAligned r n (fun s p => s.lineModify p r.key (s.reqPart r) r.dpa (atomicOn n p.byte ret f))

/-- Operand of an atomic in its size. -/
def sized (wide : Bool) (v : BitVec 64) : Nat := if wide then v.toNat else v.toNat % 2 ^ 32

/-- Signed order of two values of an atomic's size. -/
def signedLt (wide : Bool) (x y : Nat) : Bool :=
  let w := if wide then 64 else 32
  decide (signedOf w x < signedOf w y)

/-- ATOMIC_ADD: old + operand modulo 2^32 or 2^64 (R166). -/
def execAtomicAdd (r : Req) (wide ret : Bool) (operand : BitVec 64) (s : State) : Answer :=
  onUnit (reqOk r) (s.atomic r wide ret (fun old => old + sized wide operand))

/-- ATOMIC_SMIN (R166). -/
def execAtomicSmin (r : Req) (wide ret : Bool) (operand : BitVec 64) (s : State) : Answer :=
  onUnit (reqOk r) (s.atomic r wide ret (fun old => if signedLt wide (sized wide operand) old then sized wide operand else old))

/-- ATOMIC_SMAX (R166). -/
def execAtomicSmax (r : Req) (wide ret : Bool) (operand : BitVec 64) (s : State) : Answer :=
  onUnit (reqOk r) (s.atomic r wide ret (fun old => if signedLt wide old (sized wide operand) then sized wide operand else old))

/-- ATOMIC_UMIN (R166). -/
def execAtomicUmin (r : Req) (wide ret : Bool) (operand : BitVec 64) (s : State) : Answer :=
  onUnit (reqOk r) (s.atomic r wide ret (fun old => min old (sized wide operand)))

/-- ATOMIC_UMAX (R166). -/
def execAtomicUmax (r : Req) (wide ret : Bool) (operand : BitVec 64) (s : State) : Answer :=
  onUnit (reqOk r) (s.atomic r wide ret (fun old => max old (sized wide operand)))

/-- ATOMIC_SWAP: returns old (R166). -/
def execAtomicSwap (r : Req) (wide : Bool) (operand : BitVec 64) (s : State) : Answer :=
  onUnit (reqOk r) (s.atomic r wide true (fun _ => sized wide operand))

/-- ATOMIC_CAS: returns old (R166). -/
def execAtomicCas (r : Req) (wide : Bool) (operand comparand : BitVec 64) (s : State) : Answer :=
  onUnit (reqOk r) (s.atomic r wide true (fun old => if old = sized wide comparand then sized wide operand else old))

/-- Exact addition of an accumulator into the 64 bytes at `o` of a line (R167). -/
def xaddOn (o : Nat) (x : LongAcc) (d : Bytes) : Bytes × Bytes :=
  (patchBytes d o ((accOf (sliceBytes d o 64)).add x).bytes, [])

/-- XADD (R167). -/
def execXadd (r : Req) (acc : BitVec 320) (spec : BitVec 2) (s : State) : Answer :=
  onUnit (reqOk r) (s.serveAligned r 64 (fun s p => s.lineModify p r.key (s.reqPart r) r.dpa (xaddOn p.byte ⟨acc, spec⟩)))

/-! ### Bulk accesses of the device's own engines -/

/-- Read `n` bytes of device memory from a DPA under a key index, line by line, each as a full line read. -/
def State.readDev : Nat → State → Nat → Nat → Nat → State × (NapRes ⊕ Bytes)
  | 0, s, _, _, _ => (s, .inr [])
  | fuel + 1, s, key, dpa, n =>
    if n = 0 then (s, .inr [])
    else match s.place dpa with
      | none => (s, .inl .dropped)
      | some p =>
        if s.chanRetired p.chan then (s, .inl (.failed codeUnitRetired 1 p.chan))
        else
          let k := min n (256 - dpa % 256)
          match s.lineRead p key dpa with
          | (s, .data d) =>
            match State.readDev fuel s key (dpa + k) (n - k) with
            | (s, .inr t) => (s, .inr (sliceBytes d (dpa % 256) k ++ t))
            | e => e
          | (s, e) => (s, .inl e)

/-- Write bytes to device memory from a DPA under a key index: whole lines as full line writes, the rest as partial
writes. -/
def State.writeDev : Nat → State → Nat → Nat → Nat → Bytes → State × NapRes
  | 0, s, _, _, _, _ => (s, .done)
  | fuel + 1, s, key, part, dpa, data =>
    if data.isEmpty then (s, .done)
    else match s.place dpa with
      | none => (s, .dropped)
      | some p =>
        if s.chanRetired p.chan then (s, .failed codeUnitRetired 1 p.chan)
        else
          let k := min data.length (256 - dpa % 256)
          if k = 256 then State.writeDev fuel (s.lineWrite p key dpa (data.take 256)) key part (dpa + 256) (data.drop 256)
          else match s.lineModify p key part dpa (fun d => (patchBytes d p.byte (data.take k), [])) with
            | (s, .data _) => State.writeDev fuel s key part (dpa + k) (data.drop k)
            | e => e

/-- Lines that `n` bytes can touch, with one to spare. -/
def linesOf (n : Nat) : Nat := n / 256 + 2

/-- Read bytes of device memory. -/
def State.devRead (s : State) (key dpa n : Nat) : State × (NapRes ⊕ Bytes) := State.readDev (linesOf n) s key dpa n

/-- Write bytes of device memory. -/
def State.devWrite (s : State) (key part dpa : Nat) (data : Bytes) : State × NapRes :=
  State.writeDev (linesOf data.length) s key part dpa data

/-! ### Flushes (R164) -/

/-- Flush the buffers of a channel that meet `p`; answers how many were written back. -/
def State.flushChan (s : State) (chan : Nat) (p : NapBuf → Bool) : State × Nat :=
  let l := (s.bufs chan).filter p
  let s := l.foldl (fun s b => s.writeBack chan b) s
  (s.setBufs chan ((s.bufs chan).filter (fun b => !p b)), (l.filter (·.dirty)).length)

/-- Flush one tower and set its NAP_FLUSH_STAT. -/
def State.flushTower (s : State) (key part : Nat) (byPart : Bool) (p : NapBuf → Bool) (t : Nat) : State :=
  let (s, n) := (List.range 16).foldl (fun x k =>
    let (s, m) := x.1.flushChan (t * 16 + k) p
    (s, x.2 + m)) (s, 0)
  let pg := napPg t
  let s := if byPart then s.set pg NAP_FLUSH_STAT_PARTITION part else s.set pg NAP_FLUSH_STAT_KEY key
  (s.mark pg NAP_FLUSH_STAT_BY_PART byPart).set pg NAP_FLUSH_STAT_WRITTEN n

/-- Flush every buffer of a key index (R164). -/
def State.flushKey (s : State) (k : Nat) : State :=
  (List.range 16).foldl (fun s t => s.flushTower k 0 false (fun b => decide (b.key = k)) t) s

/-- Flush every buffer of a partition (R164). -/
def State.flushPart (s : State) (n : Nat) : State :=
  (List.range 16).foldl (fun s t => s.flushTower 0 n true (fun b => decide (b.part = n)) t) s

/-! ### DRAM events -/

/-- Unlisted symbol errors and listed erasures of codeword `w` for a burst with these bad lanes (R151); a lane a spare
has replaced is not read. Log 78 (DESIGN CHOICE). -/
def cwErrors (c : ChanSt) (bad : List Nat) (w : Nat) : Nat × Nat :=
  let inCw := fun l => decide (l < 272) && decide (l % 2 = w)
  let bad := bad.eraseDups.filter (fun l => !(c.spared.contains l))
  ((bad.filter (fun l => inCw l && !(c.eras.contains l))).length, (c.eras.filter inCw).length)

/-- Whether a codeword is corrected: 2e + f at most 8 (R151). Log 78 (DESIGN CHOICE). -/
def correctable (ef : Nat × Nat) : Bool := decide (2 * ef.1 + ef.2 ≤ 8)


/-- Count corrected symbols by lane (R451). -/
def State.countLanes (s : State) (chan : Nat) (bad : List Nat) : State :=
  (bad.filter (fun l => decide (l < 272))).foldl (fun s l => s.fault 5 chan l) s

/-- What the code makes of a burst with these bad lanes (R151): none when both codewords are corrected, else the first that is not. -/
def ChanSt.badWord (c : ChanSt) (bad : List Nat) : Option Nat :=
  if !correctable (cwErrors c bad 0) then some 0 else if !correctable (cwErrors c bad 1) then some 1 else none

/-- Whether a burst has errors in the tag lanes, which the code does not see (R151). Log 80 (DESIGN CHOICE). -/
def ChanSt.tagErrors (c : ChanSt) (bad : List Nat) : Bool :=
  (bad.filter (fun l => !(c.spared.contains l))).any (fun l => decide (272 ≤ l ∧ l < 288))

/-- Count the corrected errors of a burst (R151, R451). -/
def State.countCorr (s : State) (chan cl : Nat) (bad : List Nat) : State :=
  let c := (s.atChan chan).lanesAt cl
  (if (cwErrors c bad 0).1 + (cwErrors c bad 1).1 = 0 then s else (s.errCount (memcPg chan) MEMC_CORR 1).countLanes chan bad).countEras chan cl

/-- Note that a stored line cannot be read: uncorrectable in a codeword (0 or 1), or wrong in its tag (2). Log 80 (DESIGN CHOICE). -/
def State.setBad (s : State) (chan cl w : Nat) : State := { s with badLines := Tab.put 0 (lineNo chan cl) (w + 1) s.badLines }

/-- DRAM_BURST_RECEIVED (R149-R153): the burst of a read with these lanes in error; `again` are those of the second read that a wrong tag
asks for. Corrected errors are counted; an uncorrectable line is recorded, stays so, and breaks the reader; a tag that the second read
does not cure breaks it too. A read of a line that a buffer holds is served there and has no burst.
Log 78 (DESIGN CHOICE), 81 (DESIGN CHOICE). -/
def execDramBurstReceived (chan cl : Nat) (errs : BurstErrors) (r : Req) (s : State) : Answer :=
  onUnit (decide (chan < 256) && decide (cl < 2 ^ 23) && reqOk r) (
    let c := (s.atChan chan).lanesAt cl
    if (s.bufs chan).any (fun b => b.cl == cl) ∨ s.halted.contains (136 + chan / 16) then s
    else if s.lineBad chan cl then (s.uncorrected chan cl (s.badCw chan cl)).deliver r (lineFailure chan .uncorr)
    else match c.badWord errs.lanes with
      | some w => ((s.setBad chan cl w).uncorrected chan cl w).deliver r (lineFailure chan .uncorr)
      | none =>
        let s := s.countCorr chan cl errs.lanes
        if r.key = 0 then s.deliver r (.data (s.lineStored chan cl))
        else if s.tagBad chan cl ∨ Tab.get {} s.seals (lineNo chan cl) ≠ s.sealFor r.key r.dpa then
          (s.tagFailed chan cl (s.sealFor r.key r.dpa) 1).deliver r (lineFailure chan .tagFail)
        else if c.tagErrors errs.lanes = false then s.deliver r (.data (s.lineData chan cl))
        else match c.badWord errs.again with
          | some w => ((s.setBad chan cl w).uncorrected chan cl w).deliver r (lineFailure chan .uncorr)
          | none =>
            let s := s.countCorr chan cl errs.again
            if c.tagErrors errs.again then
              ((s.setBad chan cl 2).tagFailed chan cl (s.sealFor r.key r.dpa) 1).deliver r (lineFailure chan .tagFail)
            else (s.errCount (memcPg chan) MEMC_TAG_RETRY 1).deliver r (.data (s.lineData chan cl)))

/-- REFRESH_ROW (R157): the next row of the tower's channels is refreshed; its data stand. -/
def execRefreshRow (tower : Nat) (s : State) : Answer :=
  onUnit (decide (tower < 16))
    (s.updTower tower (fun t => { t with row := (t.row + 1) % 65536 }))

/-- Reading as a byte of the temperature registers: two's complement, 0x80 when invalid or faulty. Log 83 (DESIGN CHOICE). -/
def tempByte (faulty : Bool) (t : Int) : Nat := if faulty then 0x80 else codeOf 8 t

/-- The tower temperature: the highest valid reading (R156). -/
def towerTemp (faults : Nat) (ts : List Int) : Option Int :=
  (((List.range 8).filter (fun d => !(bitOf faults d))).filterMap (fun d => ts[d]?)).max?

/-- Doubled or normal refresh of a tower, which its capability entry shows too (R157, R232). Log 83 (DESIGN CHOICE). -/
def State.refreshMode (s : State) (tower : Nat) (doubled : Bool) : State :=
  let pg := Pg.base .memt tower
  if s.on pg MEMT_REFRESH_DOUBLED = doubled then s else (s.mark pg MEMT_REFRESH_DOUBLED doubled).capTouch

/-- The eight readings of a tower (R156, R157): a sensor is faulty out of range, or unchanged for 2,000 samples while
another has moved by 2 °C or more. Above 85 °C, or with a faulty sensor, the tower refreshes doubled. The tower temperature comes
with the state. Log 83 (DESIGN CHOICE). -/
def State.towerSample (s : State) (tower : Nat) (temps : List Int) : State × Option Int :=
    let t := s.atTower tower
    let pg := Pg.base .memt tower
    let ds := List.range 8
    let now := fun d => temps.getD d 0
    let same := fun d => decide (t.last.length = 8) && decide (t.last.getD d 0 = now d)
    let still := ds.map (fun d => if same d then t.still.getD d 0 + 1 else 0)
    let base := ds.flatMap (fun d => ds.map (fun e => if same d then t.base.getD (8 * d + e) (now e) else now e))
    let moved := ds.filter (fun d => same d && (t.moved.contains d ||
      ds.any (fun e => decide (e ≠ d) && decide (2 ≤ (now e - base.getD (8 * d + e) 0).natAbs))))
    let bad := ds.filter (fun d => decide (now d < -20) || decide (125 < now d) ||
      (decide (2000 ≤ still.getD d 0) && moved.contains d))
    let old := s.get pg MEMT_REFRESH_SENSOR_FAULT
    let mask := old ||| maskOfList bad
    let hot := towerTemp (maskOfList bad) temps
    let s := s.updTower tower (fun t =>
      let warm := hot.all (fun x => decide (82 < x))
      { t with last := temps, still := still, base := base, moved := moved, sick := t.sick || !bad.isEmpty, warm := t.warm || warm,
               cool := if warm then 0 else t.cool, valid := if bad.isEmpty then t.valid else 0 })
    let fb := fun d => tempByte (bitOf mask d) (now d)
    let s := s.wr (pg + MEMT_TEMP_LO) (leNat ((List.range 4).map (fun d => BitVec.ofNat 8 (fb d))))
    let s := s.wr (pg + MEMT_TEMP_HI) (leNat ((List.range 4).map (fun d => BitVec.ofNat 8 (fb (d + 4)))))
    let s := s.set pg MEMT_REFRESH_SENSOR_FAULT mask
    let new := (bad.filter (fun d => !bitOf old d)).head?
    let s := match new with
      | none => s
      | some d => ((s.alarm 3).bumpF pwrPg PWR_EVT_CNT_SENSOR 1).event0 0x11
          (leBytes 1 2 ++ leBytes 1 0 ++ leBytes 2 (tower * 8 + d) ++ leBytes 2 (codeOf 16 (now d)))
    ((if hot.all (fun x => decide (85 < x)) || decide (mask ≠ 0) then s.refreshMode tower true else s), hot)

/-- PATROL_SCRUB_LINE (R159): the next line of the channel; a corrected one is written back, an uncorrectable one is
counted and left. Log 84 (DESIGN CHOICE). -/
def execPatrolScrubLine (chan : Nat) (badLanes : List Nat) (s : State) : Answer :=
  onUnit (decide (chan < 256)) (
    let cl := (s.atChan chan).scrub
    let c := (s.atChan chan).lanesAt cl
    if s.halted.contains (136 + chan / 16) then s else
    let s := s.updChan chan (fun c => { c with scrub := (cl + 1) % 2 ^ 23 })
    if s.lineBad chan cl then s.uncorrected chan cl (s.badCw chan cl)
    else match c.badWord badLanes with
      | some w => (s.setBad chan cl w).uncorrected chan cl w
      | none =>
        let e0 := cwErrors c badLanes 0
        let e1 := cwErrors c badLanes 1
        let s := s.countCorr chan cl badLanes
        if e0.1 + e0.2 + e1.1 + e1.2 = 0 then s else s.bump (memcPg chan + MEMC_SCRUB_CNT) 1)

/-- The lane counts of MEMC_LANE_STAT, which the channel's capability entry shows too (R232). Log 82 (DESIGN CHOICE). -/
def State.laneStat (s : State) (chan : Nat) : State :=
  let c := s.atChan chan
  let pg := memcPg chan
  let inCw := fun w l => decide (l < 272) && decide (l % 2 = w)
  (((s.set pg MEMC_LANE_STAT_SPARES_USED (c.spared.length + (if c.sweep.isSome then 1 else 0))).set pg
    MEMC_LANE_STAT_ERAS_CW0 (c.eras.filter (inCw 0)).length).set pg
    MEMC_LANE_STAT_ERAS_CW1 (c.eras.filter (inCw 1)).length).capTouch

/-- Start a lane repair sweep (R155): ignored while one runs, with no spare free, or for a lane above 271. Log 82 (DESIGN CHOICE). -/
def State.sweepStart (s : State) (chan lane : Nat) : State :=
  let c := s.atChan chan
  if c.sweep.isSome ∨ 8 ≤ c.spared.length + c.dead.length ∨ 271 < lane then s
  else
    let eras := if c.eras.contains lane then c.eras else lane :: c.eras
    let s := s.updChan chan (fun c => { c with sweep := some (lane, 0), eras := eras })
    (s.set (memcPg chan) MEMC_REPAIR_CTL_BUSY 1).laneStat chan

/-- REPAIR_SWEEP_LINE (R155): the line under the pointer is read, corrected with the lane as an erasure and written back
on the spare; after the last line the listing goes and DONE is set. Log 82 (DESIGN CHOICE). -/
def execRepairSweepLine (chan : Nat) (s : State) : Answer :=
  onUnit (decide (chan < 256)) (
    let c := s.atChan chan
    match (if s.halted.contains (136 + chan / 16) then none else c.sweep) with
    | none => s
    | some (lane, ptr) =>
      let s := if s.lineBad chan ptr then s.uncorrected chan ptr (s.badCw chan ptr)
        else match c.badWord [] with
          | some w => (s.setBad chan ptr w).uncorrected chan ptr w
          | none => s.countEras chan ptr
      if ptr + 1 < 2 ^ 23 then s.updChan chan (fun c => { c with sweep := some (lane, ptr + 1) })
      else
        let s := s.updChan chan (fun c =>
          { c with sweep := none, eras := c.eras.erase lane, spared := lane :: c.spared })
        ((s.set (memcPg chan) MEMC_REPAIR_CTL_BUSY 0).set (memcPg chan) MEMC_REPAIR_CTL_DONE 1).laneStat chan)

/-- Memory training of one channel that finds these lanes failed (R154): good spares in ascending lane order, then listed
erasures below lane 272; a channel that cannot be brought into service stays out. Log 86 (DESIGN CHOICE). -/
def State.trainChan (s : State) (chan : Nat) (failed : List Nat) : State :=
  let ls := (List.range 288).filter (fun l => failed.contains l)
  let dead := (List.range 296).filter (fun l => decide (288 ≤ l) && failed.contains l)
  let spared := ls.take (8 - dead.length)
  let rest := ls.drop (8 - dead.length)
  let eras := rest.filter (fun l => decide (l < 272))
  let inCw := fun w => (eras.filter (fun l => decide (l % 2 = w))).length
  let good := rest.all (fun l => decide (l < 272)) && decide (inCw 0 ≤ 8) && decide (inCw 1 ≤ 8)
  let s := { s with chans := Tab.put {} chan { eras := eras, spared := spared, dead := dead } s.chans }
  (s.mark (memcPg chan) MEMC_LANE_STAT_IN_SERVICE good).laneStat chan

/-! ### Region writes (R146) -/

/-- Whether a segment entry of these six words is valid, lies in device memory and overlaps [lo, hi). -/
def segWordsCover (ws : List Nat) (lo hi : Nat) : Bool :=
  let base := ws.getD 2 0 + ws.getD 3 0 * 2 ^ 32
  let lim := ws.getD 4 0 + ws.getD 5 0 * 2 ^ 32
  bitOf (ws.getD 0 0) 0 && bitsOf (ws.getD 0 0) 2 1 == 0 && decide (base < hi) && decide (lo < base + lim)

/-- The six committed words of segment `g` of context `x`. -/
def State.segWords (s : State) (x g : Nat) : List Nat :=
  (List.range 6).map (fun i => s.rd (segAt x g + CTX_SEG_0 + 4 * i))

/-- Whether a committed or pending segment of any context covers part of region `r` (rule 5, R175). -/
def State.regionInUse (s : State) (r : Nat) : Bool :=
  let lo := s.regBase r
  let hi := lo + s.regBytes r
  (List.range 32).any (fun p => s.saveNamed p r) ||
    (List.range 1024).any (fun x => (List.range 8).any (fun g => segWordsCover (s.segWords x g) lo hi)) ||
    s.segPend.any (fun e => !e.2.applied && segWordsCover (e.2.words.map (·.toNat)) lo hi)

/-- A write of word `w` (0 to 3) of region entry `r` (R146), its reserved bits taken away. Answers whether it is dropped.
Log 87 (DESIGN CHOICE). -/
def State.regionWrite (s : State) (r w v : Nat) : State × Bool :=
  let off := regionAt r + 0x400 + 4 * w
  let old := s.rd off
  let valid := s.regValid r
  if w = 0 then
    if valid then
      if bitOf v 0 then (if v = old then (s, false) else (s.mapError r false 9, true))
      else if s.regionInUse r then (s.mapError r false 5, true)
      else (s.wr off v, false)
    else if bitOf v 0 then
      let t := s.wr off v
      let rule := t.regionRule r
      if rule = 0 then (t, false) else ((t.wr off (putBit v 0 false)).mapError r false rule, false)
    else (s.wr off v, false)
  else if valid then (if v = old then (s, false) else (s.mapError r false 9, true))
  else (s.wr off v, false)

/-- A write of a word of an interleave set (R146): dropped while a valid region names the set. -/
def State.setWrite (s : State) (n off v : Nat) : State × Bool :=
  if (List.range 64).any (fun r => s.regValid r && s.regSet r == n) then (s.mapError n true 6, true)
  else (s.wr off v, false)

end Sys2Proof.Machine
end

