-- ==== Sys2Proof/Machine/Segments.lean ====
section
/-! DEFINITION. Segments and translation (R170-R189, R531): segment entries with their staging copies and pending changes,
the store of host translations, ATS, invalidations, host reads, dirty logs. -/

namespace Sys2Proof.Machine

open Sys2Proof

/-- A committed segment entry (R171-R173). -/
structure SegEntry where
  valid : Bool
  loc : Nat
  rd : Bool
  wr : Bool
  at_ : Bool
  qkey : Bool
  key : Nat
  dev : Nat
  base : Nat
  limit : Nat
  deriving DecidableEq, Repr

/-- The entry that six words spell (CTX_SEG). -/
def segOfWords (ws : List Nat) : SegEntry :=
  let w := ws.getD 0 0
  { valid := bitOf w 0, loc := bitsOf w 2 1, rd := bitOf w 3, wr := bitOf w 4, at_ := bitOf w 5, qkey := bitOf w 6,
    key := bitsOf w 15 8, dev := bitsOf w 27 16, base := ws.getD 2 0 + ws.getD 3 0 * 2 ^ 32,
    limit := ws.getD 4 0 + ws.getD 5 0 * 2 ^ 32 }

/-- Segment `g` of context `x`. -/
def State.seg (s : State) (x g : Nat) : SegEntry := segOfWords (s.segWords x g)

/-- The staging copy of a segment entry (R173). -/
def State.segStaged (s : State) (x g : Nat) : List Nat :=
  (List.range 6).map (fun i => (Tab.get 0 s.segStage (segAt x g + CTX_SEG_0 + 4 * i)).toNat)

/-- The commands that name segment `g` of context `x`: HOLD (R175). -/
def State.segHold (s : State) (x g : Nat) : Nat :=
  (s.allCmds.filter (fun c => !c.fenced && decide (c.ctx = x) && c.ranges.any (fun r => decide (r.seg = g)))).length

/-- KEY_HOLD: accepted commands whose resolved key indices include slot `k` (R399). -/
def State.keyHold (s : State) (k : Nat) : Nat := (s.allCmds.filter (fun c => !c.fenced && c.keys.contains k)).length

/-- Span slots of a partition that are ACTIVE or LEAVING. -/
def State.liveSlots (s : State) (p : Nat) : List Nat :=
  (List.range 8).filter (fun l => decide (2 ≤ s.get (spanAt p l) PART_SPAN_0_STATE))

/-- Member device of a span slot at a rank (R255). Log 130 (DESIGN CHOICE). -/
def State.spanDev (s : State) (p l r : Nat) : Nat := Tab.get 0 s.spanTbl ((p * 8 + l) * 4096 + r)

/-- Member count of a span slot. -/
def State.spanM (s : State) (p l : Nat) : Nat := s.get (spanAt p l) PART_SPAN_M_M

/-- Whether a device is a member of the span of slot `l`. -/
def State.inSpan (s : State) (p l dev : Nat) : Bool :=
  (List.range (s.spanM p l)).any (fun r => s.spanDev p l r == dev)

/-- Whether a device is in the table of an ACTIVE span slot of a partition (R173, R256). -/
def State.activePeer (s : State) (p dev : Nat) : Bool :=
  (List.range 8).any (fun l => s.get (spanAt p l) PART_SPAN_0_STATE == 2 && s.inSpan p l dev)

/-- Whether key slot `k` is bound to partition `p` (PART_KEYS; slot 0 always). -/
def State.keyBound (s : State) (p k : Nat) : Bool :=
  k == 0 || bitOf (s.rd (partPg p + PART_KEYS + 4 * (k / 32))) (k % 32)

/-- Whether every byte of a DPA range lies in valid regions of partition `p` other than its configuration and save regions (check 4 of
R173, R237, R276): one region after the other, at most 64. Log 88 (DESIGN CHOICE). -/
def State.rangeOwned (s : State) (p : Nat) : Nat → Nat → Nat → Bool
  | 0, lo, hi => decide (hi ≤ lo)
  | n + 1, lo, hi =>
    if hi ≤ lo then true
    else match s.regionOf lo with
      | none => false
      | some r => s.regPart r == p && !s.cfgNamed p r && !s.saveNamed p r && s.rangeOwned p n (s.regBase r + s.regBytes r) hi

/-- Whether a rebalance between its steps 2 and 7 covers the segment (R251: a commit then fails with ERR 7). -/
def State.rebalCovers (s : State) (p : Nat) (e : SegEntry) : Bool :=
  let rb := s.atRebind p
  decide (2 ≤ rb.sub) && e.valid && e.loc == 0 &&
    [rb.src, rb.dst].any (fun r => decide (e.base < s.regBase r + s.regBytes r) &&
      decide (s.regBase r < e.base + e.limit))

/-- Checks 1 to 6 of R173: the first that fails, 0 when none does. -/
def State.segCheck (s : State) (p : Nat) (e : SegEntry) : Nat :=
  let unit := if e.loc = 1 then 4096 else 256
  if e.loc = 3 then 1
  else if e.base % unit ≠ 0 then 2
  else if e.limit = 0 ∨ 2 ^ 45 < e.limit ∨ e.limit % unit ≠ 0 then 3
  else if e.loc = 0 ∧ s.rangeOwned p 65 e.base (e.base + e.limit) = false then 4
  else if e.loc = 2 ∧ 2 ^ 39 ≤ e.base then 4
  else if e.qkey = false ∧ s.keyBound p e.key = false then 5
  else if e.loc = 2 ∧ s.activePeer p e.dev = false then 6
  else 0

/-- Whether a change is widening (R174): VALID set from 0, LIMIT raised, rights added, every other field as it was. -/
def widening (a b : SegEntry) : Bool :=
  (b.valid || !a.valid) && a.loc == b.loc && a.qkey == b.qkey && a.key == b.key && a.dev == b.dev && a.base == b.base &&
    decide (a.limit ≤ b.limit) && (!a.rd || b.rd) && (!a.wr || b.wr) && (!a.at_ || b.at_)

/-- Put six words into the committed entry. -/
def State.segApply (s : State) (x g : Nat) (ws : List Nat) : State :=
  (List.range 6).foldl (fun s i => s.wr (segAt x g + CTX_SEG_0 + 4 * i) (ws.getD i 0)) s

/-- Make a narrowing change pending; with HOLD at 0 it applies at once (R175). Log 89 (DESIGN CHOICE). -/
def State.segNarrow (s : State) (x g : Nat) (ws : List Nat) (rebal : Bool) : State :=
  let s := s.set (segAt x g) CTX_SEG_6_PENDING 1
  let now := decide (s.segHold x g = 0) && !rebal
  let s := if now then s.segApply x g ws else s
  s.updSegPend (x * 8 + g) (fun _ => ⟨ws.map (BitVec.ofNat 32), now, rebal⟩)

/-- PENDING clears after the change has applied, and the SEGMENT_APPLIED record is written (R175, R229). Log 89 (DESIGN CHOICE). -/
def State.segDone (s : State) (x g : Nat) : State :=
  let s := (s.updSegPend (x * 8 + g) (fun _ => {})).set (segAt x g) CTX_SEG_6_PENDING 0
  s.event (s.ctxEvq x) 0x0A (s.ownerOf (ctxPg x)) (leBytes 2 x ++ leBytes 1 g)

/-- COMMIT of the staging copy (R173-R175). -/
def State.segCommit (s : State) (x g : Nat) : State :=
  let ws := s.segStaged x g
  let e := segOfWords ws
  let p := s.get (ctxPg x) CTX_STAT_PARTITION
  let err := fun (s : State) (n : Nat) => s.set (segAt x g) CTX_SEG_6_ERR n
  let c := if e.valid then s.segCheck p e else 0
  if c ≠ 0 then err s c
  else if s.rebalCovers p (s.seg x g) ∨ s.rebalCovers p e then err s 7
  else if widening (s.seg x g) e then err (s.segApply x g ws) 0
  else
    let q := s.atSegPend (x * 8 + g)
    if q.words ≠ [] ∧ q.applied = false then err s 7
    else err ((if q.applied then s.segDone x g else s).segNarrow x g ws false) 0

/-- CANCEL: discards a pending change that has not applied (R175). Log 126 (DESIGN CHOICE). -/
def State.segCancel (s : State) (x g : Nat) : State :=
  let q := s.atSegPend (x * 8 + g)
  if q.words ≠ [] ∧ q.applied = false then
    (s.updSegPend (x * 8 + g) (fun _ => {})).set (segAt x g) CTX_SEG_6_PENDING 0
  else s

/-- Pending changes of a context apply at the moment HOLD is 0 (R175); a rebalance applies its own. -/
def State.segSettle (s : State) (x : Nat) : State :=
  (List.range 8).foldl (fun s g =>
    let q := s.atSegPend (x * 8 + g)
    if q.words ≠ [] ∧ q.applied = false ∧ q.rebal = false ∧ s.segHold x g = 0 then
      (s.segApply x g (q.words.map (·.toNat))).updSegPend (x * 8 + g) (fun q => { q with applied := true })
    else s) s

/-- SEGMENT_APPLIED (R175): with HOLD at 0 the pending change applies, PENDING clears and the record is written. -/
def execSegmentApplied (ctx seg : Nat) (s : State) : Answer :=
  onUnit (decide (ctx < 1024) && decide (seg < 8)) (
    let s := s.segSettle ctx
    let q := s.atSegPend (ctx * 8 + seg)
    if q.words ≠ [] ∧ q.applied then s.segDone ctx seg else s)

/-! ### Host translations (R180-R184) -/

/-- The stored translation that covers a page of a function. -/
def State.transOf (s : State) (fn page : Nat) : Option Trans :=
  s.trans.find? (fun t => decide (t.fn = fn) && decide (t.page ≤ page) && decide (page < t.page + t.pages))

/-- How the translation of a host range stands. -/
inductive HostXlat where
  | runs (l : List (Nat × Nat × Nat))
  | missing (pages : List Nat)
  | refuse (reason : Nat)
  deriving DecidableEq, Repr

/-- Pages of an IOVA range. -/
def pagesOf (iova len : Nat) : List Nat :=
  (List.range ((iova + len + 4095) / 4096 - iova / 4096)).map (· + iova / 4096)

/-- Whether a translation lacks the permission that a range needs: 1 read, 2 write, 4 atomic (R180). -/
def Trans.lacks (t : Trans) (need : Nat) : Bool := (!t.rd && !t.wr) || (bitOf need 0 && !t.rd) || (decide (2 ≤ need) && !t.wr)

/-- Whether a translation is of a function and meets pages [lo, hi). -/
def Trans.meets (t : Trans) (fn lo hi : Nat) : Bool := decide (t.fn = fn) && decide (t.page < hi) && decide (lo < t.page + t.pages)

/-- Translate a host range (R178, R180): one run for each stored translation when all of it is stored, pages still to be requested, or
the reason that refuses it, NOT_MAPPED of any page before ATS_ERROR of any (R176). -/
def State.hostXlat (s : State) (fn iova len need : Nat) : HostXlat :=
  let ps := pagesOf iova len
  if Tab.get false s.atsOn fn = false then .runs [(iova / 4096, ps.length, iova / 4096 * 4096)]
  else
    let lo := iova / 4096
    let hi := lo + ps.length
    let ts := s.trans.filter (fun t => t.meets fn lo hi && !t.marked)
    let miss := ps.filter (fun p => match s.transOf fn p with
      | none => true
      | some t => t.marked)
    if ts.any (fun t => !t.err && t.lacks need) then .refuse 0x07
    else if !miss.isEmpty then .missing miss
    else if ts.any (fun t => t.err) then .refuse 0x08
    else .runs ((ts.mergeSort (fun a b => decide (a.page ≤ b.page))).map (fun t =>
      let a := max lo t.page
      (a, min hi (t.page + t.pages) - a, t.bus + (a - t.page) * 4096)))

/-- Send Translation Requests for pages not yet requested, up to 256 outstanding (R180). Log 91 (DESIGN CHOICE). -/
def State.askTrans (s : State) (fn : Nat) (pages : List Nat) : State :=
  pages.foldl (fun s p =>
    if s.xreq.contains (fn, p) ∨ 256 ≤ s.xreq.length then s
    else (({ s with xreq := s.xreq ++ [(fn, p)] }).emit (.atsRequest fn p)).bump (pciPg + PCI_ATS_XREQ_CNT) 1) s

/-- A command refers to a page of its function's IOVA space. -/
def cmdUsesPage (c : Cmd) (page : Nat) : Bool :=
  c.ranges.any (fun r => decide (r.loc = 1) && r.runs.any (fun t => decide (t.1 ≤ page) && decide (page < t.1 + t.2.1)))

/-- Break a command on a translation refusal of its range `i` after acceptance (R181, R179, R183). -/
def State.xlatBreak (s : State) (c : Cmd) (reason code i : Nat) : State :=
  (s.xlatRej c.ctx reason ((c.ranges.getD i {}).seg) i true).breakCmd c.q c.seq code 4 c.q reason

/-- The first host range of a command that has a page in [lo, hi). -/
def Cmd.rangeOn (c : Cmd) (lo hi : Nat) : Option Nat :=
  c.ranges.findIdx? (fun r => r.loc == 1 && r.runs.any (fun u => decide (u.1 < hi) && decide (lo < u.1 + u.2.1)))

/-- A page of a marked translation could not be translated again: the commands that refer to it break (R183). Log 91 (DESIGN CHOICE). -/
def State.retransFailed (s : State) (fn page : Nat) : State :=
  (s.allCmds.filter (fun c => c.retrans && !c.work && decide (s.ownerOf (ctxPg c.ctx) = fn))).foldl
    (fun s c => match c.rangeOn page (page + 1) with
      | some i => s.xlatBreak c 0x22 codeTranslationReject i
      | none => s) s

/-- The new translation of pages [page, page + pages) does not give commands the permission that a range of theirs needs: it is not
available to them (R180, R183). -/
def State.retransLacks (s : State) (fn : Nat) (t : Trans) : State :=
  (s.allCmds.filter (fun c => c.retrans && !c.work && decide (s.ownerOf (ctxPg c.ctx) = fn))).foldl
    (fun s c => match c.ranges.findIdx? (fun r => r.loc == 1 && t.lacks r.need &&
        r.runs.any (fun u => decide (u.1 < t.page + t.pages) && decide (t.page < u.1 + u.2.1))) with
      | some i => s.xlatBreak c 0x22 codeTranslationReject i
      | none => s) s

/-- A run without the pages [page, page + pages), and those of its pages at their new bus address. -/
def reRunOne (page pages bus : Nat) (u : Nat × Nat × Nat) : List (Nat × Nat × Nat) :=
  let a := max u.1 page
  let b := min (u.1 + u.2.1) (page + pages)
  if b ≤ a then [u]
  else (if u.1 < a then [(u.1, a - u.1, u.2.2)] else []) ++ [(a, b - a, bus + (a - page) * 4096)] ++
    (if b < u.1 + u.2.1 then [(b, u.1 + u.2.1 - b, u.2.2 + (b - u.1) * 4096)] else [])

/-- New bus addresses for the pages [page, page + pages) in the runs of a function's commands. -/
def reRun (page pages bus : Nat) (r : Range) : Range :=
  if r.loc = 1 ∧ r.bus then { r with runs := r.runs.flatMap (reRunOne page pages bus) } else r

/-- The parts of a stored translation outside the pages [page, page + pages). -/
def Trans.cut (t : Trans) (page pages : Nat) : List Trans :=
  let hi := t.page + t.pages
  let a := max t.page (page + pages)
  (if t.page < page then [{ t with pages := min t.pages (page - t.page) }] else []) ++
    (if a < hi then [{ t with page := a, pages := hi - a, bus := t.bus + (a - t.page) * 4096 }] else [])

/-- Whether a command still refers to a marked translation. -/
def State.usesMarked (s : State) (fn : Nat) (c : Cmd) : Bool :=
  s.trans.any (fun t => t.marked && decide (t.fn = fn) && c.ranges.any (fun r => decide (r.loc = 1) && r.bus &&
    r.runs.any (fun u => decide (t.page < u.1 + u.2.1) && decide (u.1 < t.page + t.pages))))

/-- Request again the pages of marked translations that commands of a function refer to, as far as 256 requests go (R180, R183). -/
def State.askMarked (s : State) (fn : Nat) : State :=
  let cs := s.allCmds.filter (fun c => c.retrans && !c.work && decide (s.ownerOf (ctxPg c.ctx) = fn))
  let us := cs.flatMap (fun c => (c.ranges.filter (fun r => r.loc == 1)).flatMap (fun r => r.runs))
  s.askTrans fn ((s.trans.filter (fun t => t.marked && decide (t.fn = fn))).flatMap (fun t => us.flatMap (fun u =>
    (List.range (min (u.1 + u.2.1) (t.page + t.pages) - max u.1 t.page)).map (· + max u.1 t.page)))).eraseDups

/-- Commands of a function that no longer refer to a marked translation go on (R183). -/
def State.retransDone (s : State) (fn : Nat) : State :=
  let t := s
  s.mapCmds (fun c => c.retrans && decide (t.ownerOf (ctxPg c.ctx) = fn) && !t.usesMarked fn c) (fun c => { c with retrans := false })

/-- ATS_TRANSLATION_COMPLETION (R180, R183): the translation is stored for its function and address; one in error, or
without permission, is held as such for the command that waits. It answers an outstanding request only. -/
def execAtsTranslationCompletion (fn page pages bus : Nat) (rd wr err : Bool) (s : State) : Answer :=
  onUnit (decide (fn < 256)) (
    let pages := max pages 1
    match s.xreq.find? (fun e => decide (e.1 = fn) && decide (page ≤ e.2) && decide (e.2 < page + pages)) with
    | none => s
    | some e =>
      let again := s.trans.any (fun t => t.marked && t.meets fn e.2 (e.2 + 1))
      let s := { s with xreq := s.xreq.erase e }
      if again ∧ (err ∨ (rd = false ∧ wr = false)) then (s.retransFailed fn e.2).askMarked fn
      else
        let fresh : Trans := { fn := fn, page := page, pages := pages, bus := bus, rd := rd, wr := wr, err := err }
        let s := s.retransLacks fn fresh
        let s := { s with trans := fresh :: s.trans.flatMap (fun (t : Trans) => if t.meets fn page (page + pages) then t.cut page pages else [t]) }
        let t := s
        let s := s.mapCmds (fun c => decide (t.ownerOf (ctxPg c.ctx) = fn)) (fun c => { c with ranges := c.ranges.map (reRun page pages bus) })
        (s.retransDone fn).askMarked fn)

/-- ATS_TIMEOUT (R180): no completion within the completion timeout gives ATS_ERROR. -/
def execAtsTimeout (fn page : Nat) (s : State) : Answer :=
  onUnit (decide (fn < 256)) (
    if s.xreq.contains (fn, page) = false then s
    else
      let again := s.trans.any (fun t => t.marked && t.meets fn page (page + 1))
      let s := { s with xreq := s.xreq.erase (fn, page) }
      if again then (s.retransFailed fn page).askMarked fn
      else
        let t : Trans := { fn := fn, page := page, pages := 1, bus := 0, rd := false, wr := false, err := true }
        { s with trans := t :: s.trans })

/-- INVALIDATION_REQUEST (R182, R183): overlapping translations are marked; the commands that refer to one have it
requested again. -/
def execInvalidationRequest (fn page pages : Nat) (s : State) : Answer :=
  onUnit (decide (fn < 256)) (
    let hit := fun (t : Trans) => t.meets fn page (page + pages)
    let any := s.trans.any hit
    let s := { s with trans := s.trans.map (fun t => if hit t then { t with marked := true } else t), inval := s.inval ++ [fn] }
    let s := if any then s.bump (pciPg + PCI_ATS_INVAL_CNT) 1 else s
    let t := s
    (s.mapCmds (fun c => decide (t.ownerOf (ctxPg c.ctx) = fn) && t.usesMarked fn c && !c.work)
      (fun c => { c with retrans := true })).askMarked fn)

/-- Whether a command of a function has read requests to the host without an answer (R182 event 3). Log 93 (DESIGN CHOICE). -/
def State.hostOutstanding (s : State) (fn : Nat) : Bool :=
  s.allCmds.any (fun c => decide (s.ownerOf (ctxPg c.ctx) = fn) && !c.work && ((decide (c.got < c.asked) &&
      c.ranges.any (fun r => r.loc == 1 && bitOf r.need 0)) ||
    s.cores.any (fun e => e.2.movers.any (fun m => m.2.any (fun r =>
      r.q == c.q && r.seq == c.seq && r.op == 0 && r.loc == 1 && r.sent != 0 && !r.done)))))

/-- INVALIDATION_COMPLETION (R182): sent once the non-posted requests of the function have been answered; marked
translations that no command refers to are gone. Log 93 (DESIGN CHOICE). -/
def execInvalidationCompletion (fn : Nat) (s : State) : Answer :=
  onUnit (decide (fn < 256)) (
    if s.inval.contains fn = false ∨ s.hostOutstanding fn then s
    else
      let used := fun (t : Trans) => s.allCmds.any (fun c => decide (s.ownerOf (ctxPg c.ctx) = fn) &&
        (c.rangeOn t.page (t.page + t.pages)).isSome)
      let s := { s with inval := s.inval.erase fn,
                        trans := s.trans.filter (fun t => !(t.marked && decide (t.fn = fn) && !used t)) }
      s.emit (.invalDone fn))

/-- ATS_ENABLE (R180): Enable of a function's ATS capability. Host ranges accepted from then on are translated, or
carry the IOVA untranslated (R181). -/
def execAtsEnable (fn : Nat) (on : Bool) (s : State) : Answer :=
  onUnit (decide (fn < 256)) { s with atsOn := Tab.put false fn on s.atsOn }

/-! ### Dirty logs (R187-R189) -/

/-- FLIP in PCI_DLOG_CTL (R188): ignored while an exchange runs. Log 94 (DESIGN CHOICE). -/
def State.hostDlogFlip (s : State) (fn : Nat) : State := s.set (dlogPg fn) PCI_DLOG_CTL_FLIP_BUSY 1

/-- HOST_DLOG_FLIP_DONE (R188): the old bitmap is in host memory, ACTIVE toggles, FLIP_BUSY clears. -/
def execHostDlogFlipDone (func : Nat) (s : State) : Answer :=
  onUnit (decide (func < 256)) (
    let pg := dlogPg func
    if s.on pg PCI_DLOG_CTL_FLIP_BUSY then
      let a := s.get pg PCI_DLOG_CTL_ACTIVE
      ((s.dlogFlush func a).set pg PCI_DLOG_CTL_ACTIVE (1 - a)).set pg PCI_DLOG_CTL_FLIP_BUSY 0
    else s)

/-- The 32 KiB of a device block log (R189). Log 95 (DESIGN CHOICE). -/
def dlogBytes (blocks : List Nat) : Bytes :=
  leBytes 32768 (maskOfList (blocks.filter (fun b => decide (b < 2 ^ 18))).eraseDups)

/-- FLIP in PART_DLOG_CTL (R189): a new, cleared log starts; the old one is kept to be written out. -/
def State.deviceDlogFlip (s : State) (p : Nat) : State :=
  (s.set (partPg p) PART_DLOG_CTL_FLIP_BUSY 1).updPart p (fun x => { x with dlogOld := x.dlog, dlog := [] })

/-- DEVICE_DLOG_FLIP_DONE (R189): the old log is written to PART_DLOG_HOST and FLIP_BUSY clears. -/
def execDeviceDlogFlipDone (part : Nat) (s : State) : Answer :=
  onUnit (decide (part < 32)) (
    let pg := partPg part
    if s.on pg PART_DLOG_CTL_FLIP_BUSY then
      let s := s.hostStore 0 (s.rd64 (pg + PART_DLOG_HOST)) (dlogBytes (s.atPart part).dlogOld)
      (s.set pg PART_DLOG_CTL_FLIP_BUSY 0).updPart part (fun x => { x with dlogOld := [] })
    else s)

/-! ### What a command holds (R175, R178, R225) -/

/-- Whether a function has a command at the head of a queue that may wait for translations. -/
def State.headWaits (s : State) (fn : Nat) : Bool :=
  s.heads.any (fun (e : Nat × Option Bytes) => e.2.isSome && s.ownerOf (ctxPg (s.queCtx e.1)) == fn)

/-- Stored translations that no command refers to any more are dropped (R178); those of a function with a command at the head of a queue
are kept for it. Log 91 (DESIGN CHOICE). -/
def State.transDrop (s : State) : State :=
  { s with trans := s.trans.filter (fun t => s.headWaits t.fn || s.allCmds.any (fun c => !c.fenced && decide (s.ownerOf (ctxPg c.ctx) = t.fn) &&
      (c.rangeOn t.page (t.page + t.pages)).isSome)) }

/-- Key of an object of a context. -/
def objKey (x h : Nat) : Nat := x * 4096 + h

/-- Accepted, unresolved ranges that name an object (R225). -/
def State.objRefs (s : State) (x h : Nat) : Nat :=
  ((s.allCmds.filter (fun c => !c.fenced && c.ctx == x)).map (fun c => (c.ranges.filter (fun r => r.handle == h)).length)).sum

/-- The OBJECT_RELEASED record of an object that has become FREE. -/
def State.objReleased (s : State) (x h : Nat) : State :=
  s.event (s.ctxEvq x) 0x05 (s.ownerOf (ctxPg x)) (leBytes 2 x ++ leBytes 2 h)

/-- An object in FREEING that no command names becomes FREE (R225). -/
def State.objSettle (s : State) (x h : Nat) : State :=
  if (s.atObj (objKey x h)).state = 2 ∧ s.objRefs x h = 0 then
    (s.updObj (objKey x h) (fun _ => {})).objReleased x h
  else s

end Sys2Proof.Machine
end

