-- ==== Sys2Proof/Machine/Keys.lean ====
section
/-! DEFINITION. Key slots (R384-R387, R393, R397-R401): arming, retirement with its flush, the key lock and the key-flow
table. -/

namespace Sys2Proof.Machine

open Sys2Proof

/-- Partition that holds a key slot (R239): ACTIVE or DISSOLVING with the slot in its PART_KEYS. -/
def State.keyPart (s : State) (k : Nat) : Option Nat :=
  if k = 0 then none
  else (List.range 32).find? (fun p => decide (2 ≤ s.get (partPg p) PART_STAT_STATE) && s.keyBound p k)

/-- Key slots of a partition other than 0. -/
def State.partKeys (s : State) (p : Nat) : List Nat := ((List.range 256).drop 1).filter (fun k => s.keyBound p k)

/-- STATE of a slot: 0 FREE, 1 ARMED, 2 RETIRING, 3 PLAINTEXT. -/
def State.keyState (s : State) (k : Nat) : Nat := s.get (keyAt k) KEY_STAT_STATE

/-- Bit of a mask register. -/
def State.bitAt (s : State) (off i : Nat) : Bool := bitOf (s.rd off) i

/-- Whether a partition is protected, and whether its key lock is set (R397). Log 194 (DESIGN CHOICE). -/
def State.isProtected (s : State) (p : Nat) : Bool := s.bitAt (secPg + SEC_PROTECT) p
def State.keyLocked (s : State) (p : Nat) : Bool := s.bitAt (secPg + SEC_KLOCK) p

/-- Committed segments of a partition's contexts that overlap a region, as (context, segment) (R250). -/
def State.coverSegs (s : State) (p r : Nat) : List (Nat × Nat) :=
  let lo := s.regBase r
  let hi := lo + s.regBytes r
  (s.partCtxs p).flatMap (fun x => ((List.range 8).filter (fun g =>
    let e := s.seg x g
    e.valid && e.loc == 0 && decide (e.base < hi) && decide (lo < e.base + e.limit))).map (fun g => (x, g)))

/-- Whether a rebalance under way copies under a slot (R399 step 2). -/
def State.rebalUses (s : State) (k : Nat) : Bool :=
  (List.range 32).any (fun p => decide (2 ≤ (s.atRebind p).sub) &&
    (s.coverSegs p (s.atRebind p).src).any (fun e => (s.seg e.1 e.2).key == k))

/-- The key lock of a partition clears after the last retirement of its unlock (R398). Log 192 (DESIGN CHOICE). -/
def State.unlockSettle (s : State) : State :=
  let p := s.sec.unlocking
  if s.on secPg SEC_UNLOCK_BUSY ∧ (s.partKeys p).all (fun k => s.keyState k == 0) then
    (s.wr (secPg + SEC_KLOCK) (putBit (s.rd (secPg + SEC_KLOCK)) p false)).set secPg SEC_UNLOCK_BUSY 0
  else s

/-- Steps 3 to 5 of a retirement (R399): flush, drain, zeroise; the slot is FREE and KEY_RETIRED is written (R420).
Log 191 (DESIGN CHOICE). -/
def State.keyFinish (s : State) (k : Nat) : State :=
  let e := keyAt k
  let p := s.get e KEY_STAT_PARTITION
  let s := s.flushKey k
  let s := (s.set e KEY_STAT_STATE 0).set e KEY_STAT_STEP 0
  (s.eventAll (0 :: s.partEvqs p) 0x31 0 (leBytes 1 k ++ leBytes 1 p ++ leBytes 2 0 ++ leBytes 4 (s.rd (e + KEY_EPOCH)))).unlockSettle

/-- A retirement goes on once no accepted command and no copier holds the slot (step 2). Log 191 (DESIGN CHOICE). -/
def State.keySettle (s : State) (k : Nat) : State :=
  if k ≠ 0 ∧ s.keyState k = 2 ∧ s.keyHold k = 0 ∧ s.rebalUses k = false then s.keyFinish k else s

/-- Every retirement that can go on does. -/
def State.keysSettle (s : State) : State := (List.range 256).foldl (fun s k => s.keySettle k) s

/-- A command holds nothing any more: its translations are dropped, pending segment changes apply at HOLD 0 (R175), objects in FREEING
become FREE (R225), retirements of its keys go on (R399). Log 100 (DESIGN CHOICE). -/
def State.holdsFree (s : State) (c : Cmd) : State :=
  let s := s.transDrop.segSettle c.ctx
  let s := ((c.ranges.map (·.handle)).eraseDups.filter (· != 0xFFF)).foldl (fun s h => s.objSettle c.ctx h) s
  c.keys.foldl (fun s k => s.keySettle k) s

/-- Retire a slot (R399). Log 191 (DESIGN CHOICE). -/
def State.keyRetire (s : State) (k : Nat) (force : Bool) : State :=
  let cs := if force then s.allCmds.filter (fun c => c.keys.contains k) else []
  (cs.foldl (fun s c => s.holdsFree c) (s.keyStartRetire k force)).keySettle k

/-- Result of a request on a slot. -/
def State.keyResult (s : State) (k n : Nat) : State := s.set (keyAt k) KEY_STAT_RESULT n

/-- ARM (R386): fresh keys, a new EPOCH, ARMED; else the reason of the refusal. -/
def State.keyArm (s : State) (k : Nat) : State :=
  let e := keyAt k
  if k = 0 then s.keyResult k 5
  else match s.keyPart k with
    | none => s.keyResult k 1
    | some p =>
      if s.keyState k ≠ 0 then s.keyResult k 2
      else if s.keyLocked p then s.keyResult k 3
      else if s.sec.entropyBad then s.keyResult k 4
      else
        let s := s.wr (e + KEY_EPOCH) ((s.rd (e + KEY_EPOCH) + 1) % 2 ^ 32)
        ((s.set e KEY_STAT_STATE 1).set e KEY_STAT_PARTITION p).keyResult k 0

/-- RETIRE with or without FORCE, and FORCE alone (R399). -/
def State.keyRetireReq (s : State) (k : Nat) (retire force : Bool) : State :=
  if retire then
    if k = 0 then s.keyResult k 5
    else if s.keyState k = 0 then s.keyResult k 6
    else s.keyRetire k force
  else if force ∧ s.keyState k = 2 then s.keyRetire k true
  else s

/-- A dropped write of a frozen field under the key lock (R397). -/
def State.lockViol (s : State) : State := s.bump (secPg + SEC_LOCK_VIOL) 1

/-- Whether the key lock holds over a slot. -/
def State.slotLocked (s : State) (k : Nat) : Bool := match s.keyPart k with
  | some p => s.keyLocked p
  | none => false

/-- A write of KEY_CTL (R386, R397, R399): fixed fields are taken only while the slot is FREE and unlocked; then ARM,
RETIRE and FORCE act. -/
def State.keyCtlWrite (s : State) (k v : Nat) : State :=
  let e := keyAt k
  let frozen := maskOf 12 3
  let old := s.rd (e + KEY_CTL)
  let change := decide (old &&& frozen ≠ v &&& frozen)
  let s := if change && s.slotLocked k then s.lockViol
    else if change && s.keyState k == 0 && k != 0 then s.wr (e + KEY_CTL) (v &&& frozen)
    else s
  let s := if bitOf v 0 then s.keyArm k else s
  s.keyRetireReq k (bitOf v 1) (bitOf v 2)

/-- A write of a word of OWNER_HASH (R386, R397): answers whether it is taken. -/
def State.ownerHashWrite (s : State) (k off v : Nat) : State × Bool :=
  let old := s.rd off
  if old = v then (s, true)
  else if s.slotLocked k then (s.lockViol, false)
  else if s.keyState k ≠ 0 then (s, false)
  else (s.wr off v, true)

/-- SEC_PROTECT (R397, R405): bits of partitions that are FORMING or ACTIVE, none in vendor debug. -/
def State.secProtectSet (s : State) (v : Nat) : State :=
  if s.sec.vendor then s
  else
    let ok := (onesBelow 32 v).filter (fun p => let st := s.get (partPg p) PART_STAT_STATE; st == 1 || st == 2)
    s.wr (secPg + SEC_PROTECT) (s.rd (secPg + SEC_PROTECT) ||| maskOfList ok)

/-- SEC_KLOCK (R397): bits of protected partitions. -/
def State.keyLockSet (s : State) (v : Nat) : State :=
  let ok := (onesBelow 32 v).filter (fun p => s.isProtected p)
  s.wr (secPg + SEC_KLOCK) (s.rd (secPg + SEC_KLOCK) ||| maskOfList ok)

/-- A write of word `i` of the selected key-flow row (R393, R397): dropped and counted under the key lock when it changes
the row. Answers whether it is taken. -/
def State.kftWriteWord (s : State) (i v : Nat) : State × Bool :=
  let p := s.get secPg SEC_KFT_SEL_PARTITION
  let r := s.get secPg SEC_KFT_SEL_ROW
  let d := if r = 0 then 2 ^ 256 - 1 else 2 ^ r
  let old := Tab.get d s.sec.kft (p * 256 + r)
  let new := putBits old (32 * i + 31) (32 * i) v
  if new = old then (s, true)
  else if s.keyLocked p then (s.lockViol, false)
  else ({ s with sec := { s.sec with kft := Tab.put d (p * 256 + r) new s.sec.kft } }, true)

end Sys2Proof.Machine
end

