-- ==== Sys2Proof/Machine/LinkOps.lean ====
section
/-! DEFINITION. Sending over the links (R304-R322): trunks, routes, credits, tags, requests and responses. -/

namespace Sys2Proof.Machine

open Sys2Proof

/-- LNK_STAT.STATE of a port: 0 DOWN, 1 TRAINING, 2 KEYING, 3 UP, 4 HELD. -/
def State.portState (s : State) (p : Nat) : Nat := s.get (lnkPg p) LNK_STAT_STATE
def State.portUp (s : State) (p : Nat) : Bool := s.portState p == 3
/-- Neighbour device on a port. -/
def State.portDev (s : State) (p : Nat) : Nat := s.get (lnkPg p) LNK_PARTNER_DEVICE
/-- This device's identity. -/
def State.self (s : State) : Nat := s.get rtePg RTE_SELF_DEVICE

/-- Whether a port is bound to a span slot of a partition. -/
def State.boundTo (s : State) (p part slot : Nat) : Bool :=
  s.on (lnkPg p) LNK_STAT_BOUND && s.get (lnkPg p) LNK_STAT_PARTITION == part && s.get (lnkPg p) LNK_STAT_SPAN_SLOT == slot

/-- UP member ports of the trunk of a span slot toward a neighbour (R318). -/
def State.slotTrunk (s : State) (part slot nb : Nat) : List Nat :=
  (List.range 36).filter (fun p => s.portUp p && s.portDev p == nb && s.boundTo p part slot && !(s.atLink p).draining)

/-- UP member ports of the forward-pool trunk toward a neighbour. -/
def State.poolTrunk (s : State) (nb : Nat) : List Nat :=
  (List.range 36).filter (fun p => s.portUp p && s.portDev p == nb && s.on (lnkPg p) LNK_STAT_FWD_POOL)

/-- The trunk toward a neighbour for a slot, else the forward pool's (R320). -/
def State.trunkTo (s : State) (own : Option (Nat × Nat)) (nb : Nat) : List Nat :=
  let l := match own with
    | some (p, x) => s.slotTrunk p x nb
    | none => []
  if l.isEmpty then s.poolTrunk nb else l

/-- Whether some trunk leads to a neighbour (R322). -/
def State.reaches (s : State) (nb : Nat) : Bool :=
  (List.range 36).any (fun p => s.portUp p && s.portDev p == nb &&
    (s.on (lnkPg p) LNK_STAT_BOUND || s.on (lnkPg p) LNK_STAT_FWD_POOL))

/-- The next hop toward a destination. -/
def State.nextHop (s : State) (dst : Nat) : Option Nat :=
  let r := s.atRoute dst
  if r.valid = false then none
  else if r.state = 1 then some r.next else if r.state = 2 then some r.alt else none

/-- Entries whose present next hop can no longer be reached hold new local requests (R322 step 2). -/
def State.routesHold (s : State) (nb : Nat) : State :=
  if s.reaches nb then s
  else (s.routes.map (·.1)).foldl (fun s d =>
    if s.nextHop d = some nb then s.updRoute d (fun r => { r with hold := true }) else s) s

/-- Key of the trunk that a port belongs to (R318). -/
def State.trunkKey (s : State) (p : Nat) : Nat :=
  let pg := lnkPg p
  (if s.on pg LNK_STAT_BOUND then s.get pg LNK_STAT_PARTITION * 8 + s.get pg LNK_STAT_SPAN_SLOT else 256) * 4096 + s.portDev p

/-- Whether a port belongs to a trunk. -/
def State.inTrunk (s : State) (p : Nat) : Bool :=
  s.portUp p && (s.on (lnkPg p) LNK_STAT_BOUND || s.on (lnkPg p) LNK_STAT_FWD_POOL)

/-- Member ports of the trunk with a key. -/
def State.members (s : State) (k : Nat) : List Nat := (List.range 36).filter (fun p => s.inTrunk p && s.trunkKey p == k)

/-- The member port of a trunk that takes the next block of the rotation (R318); a port that rekeys takes none while others
do (R302). Log 141 (DESIGN CHOICE). -/
def State.rotate (s : State) (l : List Nat) : Option Nat :=
  let m := l.filter (fun p => (s.atLink p).rekey == 0)
  let l := if m.isEmpty then l else m
  l[(s.atTrunk (s.trunkKey (l.headD 0))).tx % l.length]?

/-- Slots of a transaction: its header and its payload in 16 B slots. -/
def txnSlots (t : Txn) : Nat := (if t.op = 7 then 1 else 2) + (t.payload.length + 15) / 16

/-- Credits a transaction takes, and the receive buffer it takes them of (R304, R305). Log 147 (DESIGN CHOICE). -/
def txnCost (t : Txn) : Nat := (txnSlots t * 16 + 63) / 64
/-- Log 147 (DESIGN CHOICE). -/
def txnBuf (t : Txn) : Nat := if t.cls = 3 then 24 else t.cls * 8 + t.level

/-- Whether a port holds credits for a transaction. Log 140 (DESIGN CHOICE). -/
def LinkSt.canSend (x : LinkSt) (t : Txn) : Bool :=
  decide (txnCost t ≤ 16 - Tab.get 0 x.credits (txnBuf t) + x.shared)

/-- Take the credits of a transaction: the buffer's reserve first, then the shared pool. -/
def LinkSt.take (x : LinkSt) (t : Txn) : LinkSt :=
  let used := Tab.get 0 x.credits (txnBuf t)
  let n := min (txnCost t) (16 - used)
  { x with credits := Tab.put 0 (txnBuf t) (used + n) x.credits, shared := x.shared - (txnCost t - n) }

/-- Put the slots of a transaction into the stream that the blocks carry: the trunk's, or for MGMT the port's own (R298,
R320). -/
def State.toStream (s : State) (p : Nat) (t : Txn) : State :=
  if t.cls = 3 ∨ s.inTrunk p = false then s.updLink p (fun x => { x with slots := x.slots + txnSlots t })
  else s.updTrunk (s.trunkKey p) (fun x => { x with slots := x.slots + txnSlots t })

/-- Send a transaction on a port, or queue it until credits return and a rekey of the port is over (R302, R305). Log 140 (DESIGN CHOICE). -/
def State.transmit (s : State) (p : Nat) (t : Txn) : State :=
  let x := s.atLink p
  if x.queue.all (fun u => txnBuf u != (txnBuf t)) && x.canSend t && (t.cls == 3 || x.rekey == 0) then
    ((s.updLink p (fun x => x.take t)).toStream p t).emit (.link p t)
  else s.updLink p (fun x => { x with queue := x.queue ++ [t] })

/-- Hops' share of a transaction's age, in 100 ns: 180 ns, or 320 ns in strong FEC (R303, R310). Log 148 (DEDUCED). -/
def State.hopAge (s : State) (p : Nat) : Nat := if s.on (lnkPg p) LNK_STAT_STRONG then 4 else 2

/-- A transaction leaves this device by a port: its age grows by the hop it leaves by (R310). Log 148 (DEDUCED). -/
def State.depart (s : State) (p : Nat) (t : Txn) : State := s.transmit p { t with age := min 4095 (t.age + s.hopAge p) }

/-- Send what the credits now allow, in order within each buffer. Log 140 (DESIGN CHOICE). -/
def State.pump (s : State) (p : Nat) : State :=
  let l := (s.atLink p).queue
  l.foldl (fun s t => s.transmit p t) (s.updLink p (fun x => { x with queue := [] }))

/-- Credits come back (R305). Log 147 (DESIGN CHOICE). -/
def State.creditReturn (s : State) (p buf n : Nat) : State :=
  (s.updLink p (fun x =>
    if buf = 31 then { x with shared := min 3696 (x.shared + n) }
    else if buf ≤ 24 then { x with credits := Tab.put 0 buf (Tab.get 0 x.credits buf - n) x.credits }
    else x)).pump p

/-- A free tag. -/
def State.freeTag (s : State) : Nat :=
  if (Tab.get none s.reqs s.nextTag).isNone then s.nextTag
  else ((List.range 65536).find? (fun t => (Tab.get none s.reqs t).isNone)).getD s.nextTag

/-- The span slot of a partition through which a device is reached. -/
def State.slotFor (s : State) (part dev : Nat) : Option Nat := (s.liveSlots part).find? (fun l => s.inSpan part l dev)

/-- The member port that takes a transaction: where an earlier request of the same queue of the same device to the same destination waits
for credits, the same port, so that none overtakes another (R219); else the next of the rotation. Log 141 (DESIGN CHOICE). -/
def State.portFor (s : State) (l : List Nat) (t : Txn) : Option Nat :=
  match l.find? (fun p => t.cls == 0 && (s.atLink p).queue.any (fun u => u.cls == 0 && u.src == t.src && u.queue == t.queue && u.dst == t.dst)) with
  | some p => some p
  | none => s.rotate l

/-- Issue a request that has its tag and its first hop. -/
def State.issueReq (s : State) (r : LinkReq) (t : Txn) (l : List Nat) : State :=
  match s.portFor l t with
  | none => s
  | some p =>
    let tag := s.freeTag
    let s := { s with reqs := Tab.put none tag (some { r with port := p, trunk := s.trunkKey p, at_ := s.mclk }) s.reqs, nextTag := (tag + 1) % 65536 }
    s.depart p { t with tag := tag }

/-- Send a request of a command to a remote device through span slot `slot` of its partition (R320, R322, R327): refused
with PARTNER_ABSENT when no route or trunk leads there, held while a route switch waits. -/
def State.sendReq (s : State) (c : Cmd) (slot dst : Nat) (t : Txn) (r0 : LinkReq := {}) : State :=
  let r : LinkReq := { r0 with q := c.q, seq := c.seq, ctx := c.ctx, dst := dst, at_ := s.mclk, op := t.op, slot := c.part * 8 + slot }
  let t := { t with dst := dst, src := s.self, cls := 0, level := 0, span := s.rd (spanAt c.part slot + PART_SPAN_ID), queue := c.q }
  let e := s.atRoute dst
  if e.hold then s.updRoute dst (fun e => { e with held := e.held ++ [(r, t)] })
  else match s.nextHop dst with
    | none => s.breakCmd c.q c.seq codePartnerAbsent 5 dst 0 dst
    | some nb =>
      let l := s.trunkTo (some (c.part, slot)) nb
      if l.isEmpty then s.breakCmd c.q c.seq codePartnerAbsent 5 dst 0 dst else s.issueReq r t l

/-- Send a message of the COLL class to a span member (R308); answers none when nothing leads there. -/
def State.sendColl (s : State) (part slot dst : Nat) (t : Txn) : State :=
  let t := { t with dst := dst, src := s.self, cls := 2, level := 0, span := s.rd (spanAt part slot + PART_SPAN_ID) }
  match s.nextHop dst with
  | none => s
  | some nb => match s.rotate (s.trunkTo (some (part, slot)) nb) with
    | none => s
    | some p => s.depart p t

/-- Every other member's (rank, device) of a span slot. -/
def State.spanPeers (s : State) (part slot : Nat) : List (Nat × Nat) :=
  ((List.range (s.spanM part slot)).filter (fun r => r != s.get (spanAt part slot) PART_SPAN_0_RANK)).map
    (fun r => (r, s.spanDev part slot r))

/-- Send a COLL message to every other member. -/
def State.castColl (s : State) (part slot : Nat) (t : Txn) : State :=
  (s.spanPeers part slot).foldl (fun s e => s.sendColl part slot e.2 t) s

/-- Send a MGMT transaction on a port; a BIND_REQ carries a span identity (R331). -/
def State.sendMgmt (s : State) (p : Nat) (t : Txn) : State :=
  s.transmit p { t with cls := 3, level := 0, src := s.self, dst := s.portDev p }

/-- Read a remote range (R531): RD of whole lines up to 4,096 B each; the data go to `base` of the command's source
bytes. -/
def State.remoteRead (s : State) (c : Cmd) (r : Range) (off n : Nat) (base : Nat := 0) : State :=
  match s.slotFor c.part r.dev with
  | none => s.breakCmd c.q c.seq codePartnerAbsent 5 r.dev 0 r.dev
  | some slot =>
    let a0 := r.addr + off
    let lo := a0 / 256 * 256
    let hi := (a0 + n + 255) / 256 * 256
    (List.range ((hi - lo + 4095) / 4096)).foldl (fun s i =>
      let a := lo + 4096 * i
      let len := min 4096 (hi - a)
      let first := max a a0
      s.sendReq c slot r.dev { op := 1, addr := a, key := r.key, attr := r.need, aux := len }
        { base := base + (first - a0), skip := first - a, take := min (a + len) (a0 + n) - first }) s

/-- Write a remote range (R531): WR of 1 to 4,096 B. -/
def State.remoteWrite (s : State) (c : Cmd) (r : Range) (off : Nat) (data : Bytes) : State :=
  match s.slotFor c.part r.dev with
  | none => s.breakCmd c.q c.seq codePartnerAbsent 5 r.dev 0 r.dev
  | some slot =>
    (List.range ((data.length + 4095) / 4096)).foldl (fun s i =>
      let d := (data.drop (4096 * i)).take 4096
      s.sendReq c slot r.dev { op := 2, addr := r.addr + off + 4096 * i, key := r.key, attr := r.need, aux := d.length, payload := d }) s

/-! Exact reductions (R313, R314). -/

/-- Trailing zeros of a 320-bit value that is not 0. -/
def trailingZeros (n : Nat) : Nat := ((List.range 320).find? (fun i => n.testBit i)).getD 0

/-- Bytes of an element by WCODE. -/
def wBytes (code : Nat) : Nat := [4, 8, 12, 16, 24, 40].getD code 0

/-- The encoding of accumulators (R314): the smallest shift's REDUCE, and a REDUCE_SPC for the special states. Log 149 (DEDUCED). -/
def reduceTxns (addr key attr : Nat) (xs : List LongAcc) : List Txn :=
  let vs := xs.map (·.a)
  let nz := (vs.filter (· != 0)).map (fun v => trailingZeros v.toNat)
  let sh := (nz.min?).getD 0
  let ints := vs.map (fun v => v.toInt / (2 ^ sh : Int))
  let fits := fun (w : Nat) => ints.all (fun i => decide (-(2 ^ (8 * w - 1) : Int) ≤ i) && decide (i < (2 ^ (8 * w - 1) : Int)))
  let code := ((List.range 6).find? (fun c => fits (wBytes c))).getD 5
  let w := wBytes code
  let spc := (List.range xs.length).filter (fun i => (xs.getD i {}).spec != 0)
  let body := ints.flatMap (fun i => leBytes w (codeOf (8 * w) i))
  let aux := sh + code * 2 ^ 9 + xs.length * 2 ^ 12
  let first : Txn := { op := 4, addr := addr, key := key, attr := attr, aux := aux, payload := body }
  let states := spc.flatMap (fun i => leBytes 2 i ++ leBytes 1 (xs.getD i {}).spec.toNat ++ leBytes 1 0)
  first :: (if spc.isEmpty then [] else
    [{ op := 5, addr := addr, key := key, attr := attr, aux := spc.length, payload := states }])

/-- Send accumulators to a remote device in reductions of at most 100 elements. Log 149 (DEDUCED). -/
def State.remoteReduce (s : State) (c : Cmd) (slot dev key addr : Nat) (xs : List LongAcc) : State :=
  (List.range ((xs.length + 99) / 100)).foldl (fun s i =>
    (reduceTxns (addr + 6400 * i) key 4 ((xs.drop (100 * i)).take 100)).foldl (fun s t => s.sendReq c slot dev t) s) s

/-- Requests of a command that are not resolved. -/
def State.reqsOf (s : State) (q seq : Nat) : List (Nat × LinkReq) :=
  s.reqs.filterMap (fun e => match e.2 with
    | some r => if r.q = q ∧ r.seq = seq ∧ r.dead = false then some (e.1, r) else none
    | none => none)

/-- Bus address of a byte of a host range: the run that covers its page (R178). -/
def Range.busOf (r : Range) (off : Nat) : Nat :=
  let page := (r.addr + off) / 4096
  match r.runs.find? (fun t => decide (t.1 ≤ page) && decide (page < t.1 + t.2.1)) with
  | some t => t.2.2 + (r.addr + off - t.1 * 4096)
  | none => r.addr + off

/-- The pieces of bytes [off, off + n) of a host range that lie in one run each, as (offset, length, bus address). -/
def Range.pieces (r : Range) : Nat → Nat → Nat → List (Nat × Nat × Nat)
  | 0, off, n => if n = 0 then [] else [(off, n, r.busOf off)]
  | k + 1, off, n =>
    if n = 0 then []
    else match r.runs.find? (fun t => decide (t.1 ≤ (r.addr + off) / 4096) && decide ((r.addr + off) / 4096 < t.1 + t.2.1)) with
      | none => [(off, n, r.busOf off)]
      | some t =>
        let m := min n ((t.1 + t.2.1) * 4096 - (r.addr + off))
        (off, m, r.busOf off) :: Range.pieces r k (off + m) (n - m)

/-- Write bytes to host memory through a host range: the function's IOVA pages are marked (R187). -/
def State.hostRangeWrite (s : State) (fn : Nat) (r : Range) (off : Nat) (data : Bytes) : State :=
  if s.dmaOff fn then s else
  let s := if s.on (dlogPg fn) PCI_DLOG_CTL_ENABLE then
      (pagesOf (r.addr + off) data.length).foldl (fun s p => s.markHostPage fn p) s else s
  (Range.pieces r r.runs.length off data.length).foldl (fun s e =>
    s.emit (.hostWrite fn e.2.2 r.bus ((data.drop (e.1 - off)).take e.2.1))) s

/-- Ask the host for bytes of a host range. -/
def State.hostRangeRead (s : State) (fn : Nat) (r : Range) (off n : Nat) : State :=
  if s.dmaOff fn then s else
  (Range.pieces r r.runs.length off n).foldl (fun s e => s.emit (.hostRead fn e.2.2 e.2.1 r.bus)) s

/-- Write bytes of a command's range wherever it lies; a failure breaks the command. Answers the state. -/
def State.rangeWrite (s : State) (c : Cmd) (r : Range) (off : Nat) (data : Bytes) : State :=
  if data.isEmpty then s
  else if r.loc = 0 then
    match s.devWrite r.key c.part (r.addr + off) data with
    | (s, .failed code k i) => s.breakCmd c.q c.seq code k i
    | (s, _) => s
  else if r.loc = 1 then s.hostRangeWrite (s.ownerOf (ctxPg c.ctx)) r off data
  else s.remoteWrite c r off data

/-- Break every command of a list of (q, seq). -/
def State.breakAll (s : State) (l : List (Nat × Nat)) (code kind id remote : Nat) : State :=
  l.foldl (fun s e => s.breakCmd e.1 e.2 code kind id 0 remote) s

end Sys2Proof.Machine
end

