-- ==== Sys2Proof/Machine/Filling.lean ====
section
/-! DEFINITION. The present clock of a compute island (R84, R86) and filling (R364-R366). -/

namespace Sys2Proof.Machine

open Sys2Proof

/-! ### Clock and ramps (R84, R86) -/

/-- A clock code within 600 MHz to 2.4 GHz. -/
def clampCode (v : Nat) : Nat := max 24 (min 96 v)

/-- CEIL of an island; islands without an ISL page take 2.4 GHz. -/
def State.ceilOf (s : State) (i : Nat) : Nat := if i < 128 then clampCode (s.get (islPg i) ISL_CLK_CTL_CEIL) else 96

/-- How far an island's clock has risen toward its ceiling, in thousandths of 25 MHz. Log 176 (DESIGN CHOICE). -/
def State.rampMilli (s : State) (i : Nat) : Nat :=
  let r := Tab.get {} s.power.ramps i
  min (s.get (islPg i) ISL_CLK_STAT_EFF * 1000) (r.base + (s.mclk - r.at_) * r.rate)

/-- The ramp limit of an island that fills: the larger of half its CEIL and its duty's share of it, the duty falling to 0 over the
filling ramp (R365). Log 177 (DESIGN CHOICE). -/
def State.fillLimit (s : State) (i : Nat) : Option Nat :=
  (Tab.get none s.power.fills i).map (fun f =>
    let c := s.ceilOf i
    let len := s.get pwrPg PWR_FILL_CTL_EFF_RAMP * 100
    max (500 * c) (1000 * c * f.duty * (len - (s.mclk - f.since)) / (256 * max 1 len)))

/-- The present clock of an island, in thousandths of 25 MHz. -/
def State.clockMilli (s : State) (i : Nat) : Nat :=
  match s.fillLimit i with
  | some l => min l (s.rampMilli i)
  | none => s.rampMilli i

/-- The word of ISL_CLK_STAT: EFF and LIMIT_SRC with the ramp limit of an island that fills, and RAMPING. -/
def State.clkStat (s : State) (i v : Nat) : Nat :=
  let e := s.get (islPg i) ISL_CLK_STAT_EFF
  let top := min (e * 1000) ((s.fillLimit i).getD (e * 1000))
  let v := if top < e * 1000 then putBits (putBits v 6 0 (top / 1000)) 10 8 3 else v
  putBits v 7 7 (if s.clockMilli i < top then 1 else 0)

/-- From now on an island's clock rises at the rate of its present CEIL from where it stands. Log 176 (DESIGN CHOICE). -/
def State.rampFrom (s : State) (i milli : Nat) : State :=
  { s with power := { s.power with ramps := Tab.put {} i { base := milli, at_ := s.mclk, rate := s.ceilOf i } s.power.ramps } }

/-! ### Filling (R364-R366) -/

/-- Count an island's time of filling up to now; PWR_FILL_CNT counts island-milliseconds. -/
def State.fillCount (s : State) (i : Nat) : State :=
  match Tab.get none s.power.fills i with
  | none => s
  | some f =>
    let n := s.power.fillRem + (s.mclk - f.from_)
    let s := s.bump (pwrPg + PWR_FILL_CNT) (n / 100000)
    { s with power := { s.power with
      fillRem := n % 100000, fills := Tab.put none i (some { f with from_ := s.mclk }) s.power.fills } }

/-- An island starts filling; its duty over the 2 µs before, which no state of the model keeps, is open. Log 177 (DESIGN CHOICE). -/
def State.fillStart (s : State) (i : Nat) : State :=
  if (Tab.get none s.power.fills i).isSome then s
  else
    let (d, s) := s.draw
    { s with power := { s.power with fills := Tab.put none i (some { since := s.mclk, from_ := s.mclk, duty := Config.free d % 257 }) s.power.fills } }

/-- An island stops filling: its clock rises from the ramp limit at the rate of R86. Log 178 (DESIGN CHOICE). -/
def State.fillStop (s : State) (i : Nat) : State :=
  if (Tab.get none s.power.fills i).isNone then s
  else
    let s := (s.fillCount i).rampFrom i (s.clockMilli i)
    { s with power := { s.power with fills := Tab.put none i none s.power.fills } }

/-- An island of a slice starts to fill, while the slice holds a started command (R364). -/
def State.fillIsland (s : State) (slice isl : Nat) : State :=
  let held : Bool := match (s.atSlice slice).cmd with
    | some (q, seq) => (s.cmd? q seq).any (fun c => c.started && !c.work)
    | none => false
  if held && !(s.atSlice slice).loading then s.fillStart isl else s

/-- All four islands of a slice whose tile has ended. -/
def State.fillSlice (s : State) (slice : Nat) : State :=
  ((List.range 4).map (sliceIsland slice)).foldl (fun s i => s.fillIsland slice i) s

/-- The four islands of a slice stop filling: the slice has no command, switches, is scrubbed or loads a configuration (R364).
Log 178 (DESIGN CHOICE). -/
def State.unfillSlice (s : State) (slice : Nat) : State := ((List.range 4).map (sliceIsland slice)).foldl State.fillStop s

end Sys2Proof.Machine
end

