-- ==== Sys2Proof/Machine/Moulds.lean ====
section
/-! DEFINITION. Moulds (R104-R121): the checks of an image, registration and release, the mould table, loading a
configuration onto a slice, resident allocations. -/

namespace Sys2Proof.Machine

open Sys2Proof

/-! ### The checks of an image (R116) -/

/-- The detail of the first condition that fails. -/
def firstFail (l : List (Nat × Bool)) : Option Nat := (l.find? (fun e => !e.2)).map (·.1)

/-- Header rules (R107), each with its offset. -/
def headerRules (m : Bytes) (size : Nat) : List (Nat × Bool) := [
  (0x00, leAt m 0 4 == 0x444D564F), (0x04, leAt m 4 2 == 1), (0x06, leAt m 6 2 == 256),
  (0x08, iSize m % 256 == 0 && decide (768 ≤ iSize m) && decide (iSize m ≤ 4194304) && iSize m == size),
  (0x0C, decide (1 ≤ iSects m) && decide (iSects m ≤ 32)), (0x0E, decide (1 ≤ iPhases m) && decide (iPhases m ≤ 16)),
  (0x0F, decide (iArgs m ≤ 32)), (0x12, decide (1 ≤ iCells m) && decide (iCells m ≤ 1024)),
  (0x24, iFlags m / 4 == 0), (0x38, decide (iLoopFirst m < iPhases m)),
  (0x39, decide (iLoopFirst m ≤ iLoopLast m) && decide (iLoopLast m < iPhases m)),
  (0x3A, decide (1 ≤ iLoopCount m) && decide (iLoopCount m ≤ 4096)), (0x3E, leAt m 0x3E 146 == 0)]

/-- SHA-384 of an image with its DIGEST taken as zero (R108). -/
def imageHash (m : Bytes) : Nat := sha384 (patchBytes m 0xD0 (List.replicate 48 0))

/-- Record size of a section type; 0 where records vary, none outside the table (R109). -/
def recSize (ty : Nat) : Option Nat :=
  if ty = 1 ∨ ty = 2 then some 0 else if ty = 3 then some 64 else if ty = 4 then some 256 else if ty = 5 then some 16
  else if ty = 6 then some 64 else if ty = 7 then some 32 else if ty = 8 then some 4 else if ty = 9 then some 32
  else none

/-- Bytes that the records of a section take (R109). -/
def sectBytes (m : Bytes) (x : Sect) : Nat :=
  if x.type = 1 then ((cellProgsFrom m x.count x.off).map (fun r => 32 + 8 * r.slots)).sum
  else if x.type = 2 then ((cellRoutesFrom m x.count x.off).map (fun r => 8 + 8 * r.entries.length)).sum
  else x.count * (recSize x.type).getD 0

/-- Whether a section keeps the rules of R109. -/
def sectOk (m : Bytes) (i : Nat) (x : Sect) : Bool :=
  let info := decide (0x80 ≤ x.type) && decide (x.type ≤ 0xFF)
  ((recSize x.type).isSome || info) && x.rsv == 0 && x.off % 64 == 0 && decide (0x100 + 16 * iSects m ≤ x.off) &&
    decide (x.off + x.size ≤ iSize m) && (x.phase == 0xFF || decide (x.phase < iPhases m)) &&
    (info || x.size == sectBytes m x) &&
    (List.range i).all (fun j => let y := sectAt m j
      decide (x.off + x.size ≤ y.off) || decide (y.off + y.size ≤ x.off))

/-- Records of a type in the whole image. -/
def recCount (m : Bytes) (ty : Nat) : Nat := (((sectsOf m).filter (fun x => x.type == ty)).map (·.count)).sum

/-- Whether every phase has exactly one TILING record (R109). Log 62 (DESIGN CHOICE). -/
def tilingPerPhase (m : Bytes) : Bool :=
  recCount m 6 == iPhases m &&
    (List.range (iPhases m)).all (fun p => ((tilingRecs m).filter (fun e => e.1 == p)).length == 1)

/-- SECTION rules (R109): each section by index, then the required ones. -/
def sectionRules (m : Bytes) : List (Nat × Bool) :=
  (List.range (iSects m)).map (fun i => (i, sectOk m i (sectAt m i))) ++
    [(iSects m, decide (1 ≤ recCount m 1) && decide (1 ≤ recCount m 2) && decide (1 ≤ recCount m 3) &&
      tilingPerPhase m && recCount m 7 == iArgs m && recCount m 8 == iSites m)]

/-- CELL_RANGE rules (R111). -/
def cellRules (m : Bytes) : List (Nat × Bool) :=
  let ps := cellProgs m
  let seen := fun (l : List Nat) (c : Nat) => decide (c < 1024) && decide ((l.filter (· == c)).length ≤ 1)
  let cs := ps.map (·.cell)
  let rs := (cellRoutes m).map (·.cell)
  let hs := (recsOf m 3 64).map (fun o => leAt m o 2)
  ps.map (fun p => (p.cell, seen cs p.cell && decide (1 ≤ p.slots) && decide (p.slots ≤ 256) && p.rsv == 0 &&
      p.entry.all (fun e => e == 0xFF || decide (e < p.slots)))) ++
    rs.map (fun c => (c, seen rs c)) ++ hs.map (fun c => (c, seen hs c)) ++ [(0, ps.length == iCells m)]

/-- Whether an operand field may stand as a source, or as a destination (R112). -/
def srcOk (n : Nat) : Bool := operandOf n != .bad
def dstOk (n : Nat) : Bool := match operandOf n with
  | .bad => false
  | .chan c => decide (c < 4)
  | _ => true

/-- Whether a program word is valid (R111, R112). -/
def wordOk (slots w : Nat) : Bool :=
  let x := pword w
  srcOk x.srcA && srcOk x.srcB && dstOk x.dst &&
    (if x.cls = 3 then
      if x.op = 1 then true
      else if x.op = 2 ∨ x.op = 3 then decide (x.imm % 256 < slots)
      else x.op == 4 && decide (x.imm % 256 < slots) && (match operandOf x.srcA with
        | .vreg _ => true
        | .preg _ => true
        | .lacc _ => true
        | _ => false)
    else decide (x.cls < 3))

/-- OPCODE and PAIR rules. -/
def opcodeRules (m : Bytes) : List (Nat × Bool) :=
  (cellProgs m).map (fun p => (p.cell, p.words.all (wordOk p.slots)))
def pairRules (m : Bytes) : List (Nat × Bool) :=
  (cellProgs m).map (fun p => (p.cell, p.words.all (fun w => let x := pword w
    x.cls != 0 || ((pairOf (x.op % 16)).isSome && bitOf (iFmtMask m) (x.op % 16)))))

/-- Whether a pair index names a block format. Log 65 (DESIGN CHOICE). -/
def pairBlock (p : Nat) : Bool := match pairOf p with
  | some (a, b) => a.isBlock || b.isBlock
  | none => false

/-- BLOCK_LEN rules (R39): in a phase that contracts a block format, the contraction depth, and the extent along axis 2, the
contraction axis (R122), of every block-format argument that is read, are multiples of 32. Log 65 (DESIGN CHOICE). -/
def blockRules (m : Bytes) : List (Nat × Bool) :=
  let argsOk := (argsOf m).all (fun a => decide (1 < a.fmt) || (a.dir != 0 && a.dir != 2) || a.d2 % 32 == 0)
  (List.range (iPhases m)).map (fun p => let t := tilingOf m p
    (p, !pairBlock t.pair || (t.k % 32 == 0 && argsOk)))

/-- Whether a route entry keeps inside the slice and R113's record rules. -/
def routeOk (cell e : Nat) : Bool :=
  let o := rOut e
  o != 0 && e / 65536 == 0 && !(bitOf o 0 && decide (cell / 32 = 0)) && !(bitOf o 1 && decide (cell % 32 = 31)) &&
    !(bitOf o 2 && decide (cell / 32 = 31)) && !(bitOf o 3 && decide (cell % 32 = 0))

/-- ROUTE_EXIT rules (R113). -/
def exitRules (m : Bytes) : List (Nat × Bool) :=
  (cellRoutes m).map (fun r => (r.cell, r.rsv == 0 && decide (1 ≤ r.entries.length) && decide (r.entries.length ≤ 64) &&
      r.entries.all (routeOk r.cell))) ++
    (recsOf m 3 64).map (fun o => (leAt m o 2, leAt m (o + 2) 2 == 0 && leAt m (o + 52) 12 == 0 &&
      (List.range 12).all (fun i => let w := leAt m (o + 4 + 4 * i) 4
        decide (w < 8) && decide (bitsOf w 2 1 ≤ (if i < 8 then 2 else 1)))))

/-- Relative cell next to `cell` through port `p` inside the slice. -/
def relNext (cell p : Nat) : Nat := if p = 0 then cell - 32 else if p = 1 then cell + 1 else if p = 2 then cell + 32 else cell - 1

/-- The ports of an entry toward other cells. -/
def meshPorts (e : Nat) : List Nat := onesBelow 4 (rOut e)

/-- Edges between links over the data virtual channel: a link (cell × 4 + port) leads to the links of the entry that its
tokens select at the next router. -/
def routeEdges (m : Bytes) : List (Nat × Nat) :=
  let rs := cellRoutes m
  rs.flatMap (fun r => (r.entries.filter (fun e => rVc e == 0)).flatMap (fun e => (meshPorts e).flatMap (fun p =>
    let c := relNext r.cell p
    match rs.find? (fun x => x.cell == c) with
    | none => []
    | some x => let f := x.entries.getD (rNext e) 0
      if rVc f = 0 then (meshPorts f).map (fun o => (r.cell * 4 + p, c * 4 + o)) else [])))

/-- Remove edges whose source no edge enters, again and again: what remains lies on or behind a cycle. -/
def peel : Nat → List (Nat × Nat) → List (Nat × Nat)
  | 0, es => es
  | n + 1, es =>
    let rest := es.filter (fun e => es.any (fun f => f.2 == e.1))
    if rest.length = es.length then es else peel n rest

/-- ROUTE_CYCLE rules (R113). -/
def cycleRules (m : Bytes) : List (Nat × Bool) :=
  let es := routeEdges m
  (peel es.length es).map (fun e => (e.1 / 4, false))

/-- Whether two allocations reserve the same line where they may not (R114); `used` are the cells with a program. -/
def allocClash (used : List Nat) (a b : AllocRec) : Bool :=
  (a.cell == b.cell || (a.cell == 0xFFFF && used.contains b.cell) || (b.cell == 0xFFFF && used.contains a.cell)) && decide (a.base < b.base + b.lines) &&
    decide (b.base < a.base + a.lines) &&
    !(a.cls == 0 && b.cls == 0 && a.phase != 0xFF && b.phase != 0xFF && a.phase != b.phase)

/-- ALLOC rules (R114). -/
def allocRules (m : Bytes) : List (Nat × Bool) :=
  let l := allocsOf m
  (List.range l.length).map (fun i => match l[i]? with
    | none => (0, true)
    | some a => (a.cell, (decide (a.cell < 1024) || a.cell == 0xFFFF) && decide (1 ≤ a.lines) &&
        decide (a.base + a.lines ≤ 512) && decide (a.cls ≤ 2) && a.rsv == 0 &&
        (a.phase == 0xFF || decide (a.phase < iPhases m) || a.cls != 0) && !((l.take i).any (allocClash ((cellProgs m).map (·.cell)) a))))

/-- The slots that may follow a slot (R111). -/
def slotNext (p : CellProg) (i : Nat) : List Nat :=
  let x := pword (p.words.getD i 0)
  if x.cls = 3 then
    if x.op = 1 then [] else if x.op = 2 then [x.imm % 256] else [x.imm % 256, i + 1]
  else [i + 1]

/-- Slots reached from those listed, in at most `n` rounds. -/
def slotsReached (p : CellProg) : Nat → List Nat → List Nat
  | 0, l => l
  | n + 1, l =>
    let more := (l.flatMap (slotNext p)).filter (fun i => decide (i < p.slots) && !l.contains i)
    if more.isEmpty then l else slotsReached p n (l ++ more.eraseDups)

/-- Slots of a phase of a program, ascending: those that control flow reaches from its entry. Log 63 (DESIGN CHOICE). -/
def phaseSlots (p : CellProg) (e : Nat) : List Nat :=
  let l := slotsReached p p.slots [e]
  (List.range p.slots).filter (fun i => l.contains i)

/-- The registers and scratchpad lines that an instruction of the tensor or vector unit writes: a tensor instruction accumulates its
output tile from the long accumulator it names. Lines stand above 2^10. -/
def wordWrites (w : Nat) : List Nat :=
  let x := pword w
  if 2 ≤ x.cls then []
  else match operandOf x.dst with
    | .line l => [2 ^ 10 + l]
    | .vreg r => [r]
    | .preg r => [32 + r]
    | .lacc r => if x.cls = 0 then (let (h, v, _) := tensorShape (x.op % 16); (List.range (h * v)).map (fun i => 40 + (r + i) % 16)) else [40 + r]
    | _ => []

/-- The register or line that an operand field reads. -/
def fieldReads (n : Nat) : Option Nat := match operandOf n with
  | .line l => some (2 ^ 10 + l)
  | .vreg r => some r
  | .preg r => some (32 + r)
  | .lacc r => some (40 + r)
  | _ => none

/-- What an instruction of the tensor or vector unit reads. -/
def wordReads (w : Nat) : List Nat := let x := pword w; if 2 ≤ x.cls then [] else [x.srcA, x.srcB].filterMap fieldReads

/-- Whether two instructions write one register or line with no dependency declared between them (R78). -/
def depClash (p : CellProg) (i j : Nat) : Bool :=
  let x := pword (p.words.getD i 0)
  let y := pword (p.words.getD j 0)
  (wordWrites (p.words.getD i 0)).any (fun l => (wordWrites (p.words.getD j 0)).contains l) &&
    !(x.depValid && x.dep == j) && !(y.depValid && y.dep == i)

/-- Whether instruction `j` declares that it waits on the last earlier instruction of the other unit, among `l`, that writes what it
reads (R78). Log 63 (DESIGN CHOICE). -/
def depDeclared (p : CellProg) (l : List Nat) (j : Nat) : Bool :=
  let y := pword (p.words.getD j 0)
  (wordReads (p.words.getD j 0)).all (fun r =>
    match (l.filter (fun i => decide (i < j) && (pword (p.words.getD i 0)).cls != y.cls && (wordWrites (p.words.getD i 0)).contains r)).getLast? with
    | none => true
    | some i => y.depValid && y.dep == i)

/-- DEP rules (R78): no slot waits on one of its own unit; in no phase do two instructions write one place, or does one read the other
unit's earlier write, without the dependency declared. Log 63 (DESIGN CHOICE). -/
def depRules (m : Bytes) : List (Nat × Bool) :=
  (cellProgs m).map (fun p => (p.cell,
    (List.range p.slots).all (fun i => let x := pword (p.words.getD i 0)
      !x.depValid || (decide (x.dep < p.slots) && (pword (p.words.getD x.dep 0)).cls != x.cls)) &&
    (p.entry.filter (· != 0xFF)).all (fun e => let l := phaseSlots p e
      l.all (fun i => depDeclared p l i && l.all (fun j => !(decide (i < j) && depClash p i j))))))

/-- TILING rules (R122, R126, R127). -/
def tilingRules (m : Bytes) : List (Nat × Bool) :=
  (List.range (iPhases m)).map (fun p => let t := tilingOf m p
    (p, decide (t.kind ≤ 3) && decide (t.combine ≤ 3) && decide (t.axis ≤ 3) && t.flags / 4 == 0 && t.rsv == 0 &&
      (if t.resident then decide (1 ≤ t.res) && decide (t.res ≤ 1024) else t.res == 0) &&
      (t.pair == 0xFF || decide (t.pair < 12)) && decide (t.outFmt ≤ 8) && decide (t.cycles ≤ iRoundMax m) &&
      decide (t.wsOff + t.wsBytes ≤ iWorkspace m) &&
      (t.combine != 2 || (List.range 16).any (fun j => t.k == 32 * 2 ^ j)) &&
      (t.combine != 3 || decide (iArgs m ≤ t.combArg) || ((argsOf m).getD t.combArg ⟨0, 0, 0, 0, 0, 0, 0, 0, 0⟩).exact)))

/-- ARGS rules (R115): the records, then the references to arguments and sites. -/
def argRules (m : Bytes) : List (Nat × Bool) :=
  let as := argsOf m
  let n := iArgs m
  let ref := fun a => (a, decide (a < n))
  (List.range n).map (fun i => match as[i]? with
    | none => (i, true)
    | some a => (i, decide (a.dir ≤ 3) && decide (a.fmt ≤ 8) && decide (a.rights < 8) && decide (a.flags < 4) && a.rsv == 0 &&
        (a.dir != 3 || (iWorkspace m != 0 && !((as.take i).any (fun b => b.dir == 3)))))) ++
    (preambles m).map (fun r => (r.arg, decide (r.arg < n) && decide (r.phase < iPhases m) && decide (r.op ≤ 4) &&
      decide (r.sline < 32768) && r.rsv == 0)) ++
    ((allocsOf m).filter (fun a => a.cls != 0)).map (fun a => ref a.arg) ++
    (recsOf m 8 4).map (fun o => (leAt m o 1, decide (leAt m o 1 < n) && decide (leAt m (o + 1) 1 ≤ 8) && leAt m (o + 2) 2 == 0)) ++
    (List.range (iPhases m)).flatMap (fun p => let t := tilingOf m p
      (if t.combine = 3 then [ref t.combArg] else []) ++
      (if t.combine = 1 ∨ t.combine = 2 then [(0, decide (t.siteBase < iSites m))] else []) ++
      ((cellProgs m).flatMap (fun c => let e := c.entry.getD p 0xFF
        if e = 0xFF then [] else (phaseSlots c e).filterMap (fun i => let x := pword (c.words.getD i 0)
          match operandOf x.dst with
          | .lacc _ => none
          | _ => if x.cls = 0 then some (0, decide (t.siteBase + x.imm < iSites m)) else none))))

/-- The first check of R116 that fails, as reason and detail; STORE_FULL and TABLE_FULL are the table's to say. -/
def imageCheck (m : Bytes) (size : Nat) (room entry : Bool) : Option (Nat × Nat) :=
  let rules : List (Nat × (Unit → List (Nat × Bool))) := [
    (0x01, fun _ => headerRules m size), (0x02, fun _ => [(0, imageHash m == iDigest m)]),
    (0x03, fun _ => sectionRules m), (0x04, fun _ => cellRules m), (0x05, fun _ => opcodeRules m),
    (0x06, fun _ => pairRules m), (0x07, fun _ => blockRules m), (0x08, fun _ => exitRules m),
    (0x09, fun _ => cycleRules m), (0x0A, fun _ => allocRules m), (0x0B, fun _ => depRules m),
    (0x0C, fun _ => tilingRules m), (0x0D, fun _ => argRules m), (0x0E, fun _ => [(0, room)]),
    (0x0F, fun _ => [(0, entry)])]
  rules.findSome? (fun r => (firstFail (r.2 ())).map (fun d => (r.1, d)))

/-! ### The mould table (R104-R106, R118, R119) -/

/-- Record a mould refusal of a context (R118). Log 73 (DESIGN CHOICE). -/
def State.mouldRej (s : State) (x reason id : Nat) (atEnq : Bool) (detail : Nat) : State :=
  let pg := ctxPg x
  ((((s.set pg CTX_MOULD_REJ_REASON reason).set pg CTX_MOULD_REJ_MOULD_ID id).mark pg CTX_MOULD_REJ_AT_ENQUEUE atEnq).set pg
    CTX_MOULD_REJ_DETAIL detail).errCount pg CTX_MOULD_REJ_CNT 1

/-- A registration or release that is refused: the record and the break (R116, R119). -/
def State.mouldRefuse (s : State) (c : Cmd) (reason id detail : Nat) : State :=
  (s.mouldRej c.ctx reason id false detail).breakCmd c.q c.seq codeMouldInvalid 4 c.q reason

/-- Size of the mould store of a partition: its configuration region less the last 64 KiB, kept for span tables (R237).
Log 64 (DESIGN CHOICE). -/
def State.storeSize (s : State) (p : Nat) : Nat := s.regBytes (s.get (partPg p) PART_CFG_REGION_REGION) - 65536

/-- Copies that stand in a partition's mould store, as (start, length). -/
def State.storeHeld (s : State) (p : Nat) : List (Nat × Nat) :=
  (List.range 64).filterMap (fun i => let e := s.atMould (p * 64 + i); e.start.map (fun a => (a, e.image.length)))

/-- The lowest place in a partition's mould store with room for `n` bytes: at its start or behind a copy (R105). Log 64 (DESIGN CHOICE). -/
def State.storePlace (s : State) (p n : Nat) : Option Nat :=
  let l := s.storeHeld p
  let free := fun a => decide (a + n ≤ s.storeSize p) && l.all (fun e => decide (a + n ≤ e.1) || decide (e.1 + e.2 ≤ a))
  ((0 :: l.map (fun e => e.1 + e.2)).filter free).min?

/-- The seal of a partition's configuration key on the line at a DPA (R105, R237). -/
def State.cfgSeal (s : State) (p dpa : Nat) : Seal := ⟨2, p, Tab.get 0 s.sec.cfgKey p, dpa / 256⟩

/-- DPA of byte `off` of a partition's configuration region. -/
def State.cfgAt (s : State) (p off : Nat) : Nat := s.regBase (s.get (partPg p) PART_CFG_REGION_REGION) + off

/-- Write lines of the configuration region under the configuration key, from a line-aligned place. Log 64 (DESIGN CHOICE). -/
def State.cfgWrite (s : State) (p off : Nat) (b : Bytes) : State :=
  (List.range ((b.length + 255) / 256)).foldl (fun s i =>
    let a := s.cfgAt p off + 256 * i
    match s.place a with
    | some pl => (s.storeLine pl.chan pl.cl (s.cfgSeal p a) (sliceBytes b (256 * i) 256)).markBlock a
    | none => s) s

/-- Read lines of the configuration region under the configuration key; none when one fails. -/
def State.cfgRead (s : State) (p off n : Nat) : State × Option Bytes :=
  (List.range ((n + 255) / 256)).foldl (fun (x : State × Option Bytes) i => match x with
    | (s, none) => (s, none)
    | (s, some b) =>
      let a := s.cfgAt p off + 256 * i
      match s.place a with
      | none => (s, none)
      | some pl => match s.fetchLine pl.chan pl.cl (s.cfgSeal p a) 3 with
        | (s, .ok d) => (s, some (b ++ d))
        | (s, _) => (s, none)) (s, some [])

/-- The entries of a partition in a state with a digest. -/
def State.mouldWith (s : State) (p st digest : Nat) : Option Nat :=
  (List.range 64).find? (fun i => (s.atMould (p * 64 + i)).state == st && (s.atMould (p * 64 + i)).digest == digest)

/-- The lowest FREE entry. -/
def State.mouldFree (s : State) (p : Nat) : Option Nat :=
  (List.range 64).find? (fun i => (s.atMould (p * 64 + i)).state == 0)

/-- End a command's work with a result. -/
def State.cmdDone (s : State) (q seq result : Nat) : State :=
  s.updCmd q seq (fun c => if c.code = 0 then { c with work := true, result := result } else c)

/-- Start a registration with the image's bytes (R105): share an entry of the same digest, wait on one in CHECKING, or take
a FREE entry into CHECKING. Log 66 (DESIGN CHOICE). -/
def State.mouldEnter (s : State) (c : Cmd) (m : Bytes) : State :=
  let p := c.part
  let h := imageHash m
  let ok := h == iDigest m
  match (if ok then s.mouldWith p 2 h else none), (if ok then s.mouldWith p 3 h else none),
      (if ok then s.mouldWith p 1 h else none) with
  | some i, _, _ => (s.updMould (p * 64 + i) (fun e => { e with count := e.count + 1 })).cmdDone c.q c.seq i
  | none, some i, _ => (s.updMould (p * 64 + i) (fun e => { e with state := 2, count := 1 })).cmdDone c.q c.seq i
  | none, none, some _ => { s with mouldWait := s.mouldWait ++ [(c.q, c.seq)] }
  | none, none, none =>
    match s.mouldFree p with
    | some i =>
      let at_ := s.storePlace p m.length
      let s := { s.updMould (p * 64 + i) (fun _ =>
          { state := 1, digest := h, image := m, start := at_, serial := s.mouldSerial + 1, regBy := some (c.q, c.seq) }) with
        mouldSerial := s.mouldSerial + 1 }
      match at_ with
      | some a => s.cfgWrite p a m
      | none => s
    | none =>
      match imageCheck m m.length (s.storePlace p m.length).isSome false with
      | some (r, d) => s.mouldRefuse c r 0 d
      | none => s


/-- MOULD_RELEASE (R119). -/
def execMouldRelease (q seq : Nat) (s : State) : Answer :=
  onUnit (decide (q < 4096)) (
    match s.cmd? q seq with
    | none => s
    | some c =>
      if c.started = false ∨ c.work ∨ dOp c.desc ≠ 8 then s
      else
        let i := dMould c.desc
        let k := c.part * 64 + i
        let e := s.atMould k
        if e.state = 0 ∨ e.state = 1 ∨ e.count = 0 then s.mouldRefuse c 0x17 i 0
        else
          let s := s.updMould k (fun e => { e with count := e.count - 1 })
          let s := if e.count = 1 then (s.updMould k (fun e => { e with state := 3 })).mouldSettle c.part i else s
          s.cmdDone q seq 0)

/-- What a registration that waits does once the check has ended (R105). Log 66 (DESIGN CHOICE). -/
def State.mouldResume (s : State) (w : Nat × Nat) : State :=
  match s.cmd? w.1 w.2 with
  | none => s
  | some c => if c.work then s else s.mouldEnter c c.buf

/-- MOULD_REGISTRATION_DONE (R106, R116): the check ends; the entry becomes READY or FREE, and registrations that waited
on the digest resume. -/
def execMouldRegistrationDone (part id : Nat) (s : State) : Answer :=
  onUnit (decide (part < 32) && decide (id < 64)) (
    let k := part * 64 + id
    let e := s.atMould k
    if e.state ≠ 1 then s
    else
      let by' := e.regBy.getD (0, 0)
      let s := match imageCheck e.image (e.image.length) e.start.isSome true with
        | some (r, d) =>
          let t := s.updMould k (fun _ => {})
          match t.cmd? by'.1 by'.2 with
          | some c => t.mouldRefuse c r id d
          | none => t
        | none => (s.updMould k (fun e => { e with state := 2, count := 1, regBy := none })).cmdDone by'.1 by'.2 id
      let ws := s.mouldWait
      ws.foldl (fun s w => s.mouldResume w) { s with mouldWait := [] })

/-! ### Cells, slices and configurations (R103, R110, R120, R121) -/

/-- Cell keys of a slice. -/
def sliceKeys (slice : Nat) : List Nat := (List.range 1024).map (relKey slice)

/-- Whether a cell key lies in a slice. -/
def inSlice (slice key : Nat) : Bool := cellSlice (key / 4096) (key % 4096) == slice

/-- Change the cells of a slice. -/
def State.mapSlice (s : State) (slice : Nat) (f : CellSt → CellSt) : State :=
  { s with cells := Tab.mapAll {} (fun k c => if inSlice slice k then f c else c) s.cells }

/-- Set or clear CFG_VALID of a slice's islands. -/
def State.cfgValid (s : State) (slice : Nat) (b : Bool) : State :=
  (List.range 4).foldl (fun s k => s.mark (islPg (sliceIsland slice k)) ISL_STAT_CFG_VALID b) s

/-- QUIET of a slice: its bit of CORE_QUIET and of its islands. -/
def State.quiet (s : State) (slice : Nat) : Bool :=
  bitOf (s.get (Pg.base .core (slice / 4)) CORE_QUIET_QUIET) (slice % 4)
def State.setQuiet (s : State) (slice : Nat) (b : Bool) : State :=
  let pg := Pg.base .core (slice / 4)
  let s := s.set pg CORE_QUIET_QUIET (putBit (s.get pg CORE_QUIET_QUIET) (slice % 4) b)
  (List.range 4).foldl (fun s k => s.mark (islPg (sliceIsland slice k)) ISL_STAT_QUIET b) s

/-- Whether the gate between two slices of a core passes tokens; inside a slice there is none (R83). -/
def State.gateOpen (s : State) (a b : Nat) : Bool := a == b || s.gates.contains (min a b * 32 + max a b)

/-- Let the gates of a core follow the binding: each between two quiescent slices changes to open when both are bound to one
partition, else to closed (R83, R101). -/
def State.setGates (s : State) (core : Nat) : State :=
  [(0, 1), (0, 2), (1, 3), (2, 3)].foldl (fun s e =>
    let a := core * 4 + e.1
    let b := core * 4 + e.2
    if s.quiet a ∧ s.quiet b then
      let same := (s.sliceOwner a).isSome && s.sliceOwner a == s.sliceOwner b
      let rest := s.gates.filter (· != a * 32 + b)
      { s with gates := if same then (a * 32 + b) :: rest else rest }
    else s) s

/-- Gates of every core. -/
def State.setAllGates (s : State) : State := (List.range 8).foldl (fun s c => s.setGates c) s

/-- The entry a COMPUTE names, with its image. -/
def State.mouldOf (s : State) (c : Cmd) : Mould := s.atMould (c.part * 64 + dMould c.desc)
/-- Configuration a COMPUTE needs (R120). -/
def State.cfgOf (s : State) (c : Cmd) : Nat × Nat × Nat := (c.part, dMould c.desc, (s.mouldOf c).serial)

/-- Slices that a context holds, ascending. -/
def State.ctxSlices (s : State) (x : Nat) : List Nat :=
  (List.range 32).filter (fun n => (s.atSlice n).ctx == some x)

/-- Whether a slice is reserved for real-time work (R266): its bit of PART_RT_MASK, or a real-time command that ran on it
when the bit was cleared (R267). -/
def State.reserved (s : State) (slice : Nat) : Bool :=
  (s.atSlice slice).rtHold || (match s.sliceOwner slice with
    | some p => bitOf (s.rd (partPg p + PART_RT_MASK)) slice
    | none => false)

/-- Whether a command comes from a queue of the real-time class. -/
def State.realTime (s : State) (c : Cmd) : Bool := s.get (quePg c.q) QUE_CTL_CLASS == 1

/-- Slices of a scope (R432): kind 0 one slice, 1 a core's four, 2 the memory-controller pipeline of a tower, which has none. -/
def scopeSlices (kind idx : Nat) : List Nat :=
  if kind = 0 then [idx] else if kind = 1 then (List.range 4).map (· + 4 * idx) else []

/-- Whether a tasting turn lets a command run on a slice (R448): the one whose turn it is runs on the slices in scope, or on its own
for a memory-controller scope; no other command of the suspect runs. -/
def State.tasteAllows (s : State) (c : Cmd) (slice : Nat) : Bool := match s.rcv.turn, s.rcv.scope with
  | some t, some (kind, idx) =>
    if t = (c.q, c.seq) then kind == 2 || (scopeSlices kind idx).contains slice else s.rcv.suspects.head? != some c.ctx
  | _, _ => true

/-- Slices of a command: those its context holds of the kind its class runs on (R266, R268). -/
def State.poolOf (s : State) (c : Cmd) : List Nat :=
  (s.ctxSlices c.ctx).filter (fun n => s.reserved n == s.realTime c && s.tasteAllows c n)

/-- Whether a named range has lines on a channel of a tower. -/
def State.rangeOnTower (s : State) (t : Nat) (r : Range) : Bool := r.loc == 0 && (match s.regionOf r.addr with
  | some n => (s.regChans n).any (fun c => c / 16 == t)
  | none => false)

/-- Whether a level above context keeps a command from starting (R433, R448): it has a range on the tower in scope, its partition is
under reset, or the device is. -/
def State.scopeBlocks (s : State) (c : Cmd) : Bool :=
  let l := s.get rcvPg GLB_RCV_STAT_LEVEL
  (decide (2 ≤ l) && s.get rcvPg GLB_RCV_STAT_ENGINE_KIND == 2 && c.ranges.any (s.rangeOnTower (s.get rcvPg GLB_RCV_STAT_INDEX))) ||
    (l == 4 && s.get rcvPg GLB_RCV_STAT_PARTITION == c.part) || decide (5 ≤ l)

/-- Put the configuration of an image into the cells of a slice (R110, R120). Log 72 (DESIGN CHOICE). -/
def State.loadCells (s : State) (slice : Nat) (m : Bytes) : State :=
  let s := s.mapSlice slice (fun c => { c with prog := [], routes := [], chan := [], entry := [] })
  let s := (cellProgs m).foldl (fun s p => s.updCell (relKey slice p.cell) (fun c => { c with
      prog := (List.range p.slots).foldl (fun t i => Tab.put 0 i (BitVec.ofNat 64 (p.words.getD i 0)) t) [],
      entry := (List.range 16).foldl (fun t i => Tab.put 0xFF i (p.entry.getD i 0xFF) t) [] })) s
  let s := (cellRoutes m).foldl (fun s r => s.updCell (relKey slice r.cell) (fun c => { c with
      routes := (List.range r.entries.length).foldl
        (fun t i => Tab.put 0 i (BitVec.ofNat 64 (r.entries.getD i 0)) t) [] })) s
  let s := (recsOf m 3 64).foldl (fun s o => s.updCell (relKey slice (leAt m o 2)) (fun c => { c with
      chan := (List.range 12).foldl (fun t i => Tab.put 0 i (BitVec.ofNat 32 (leAt m (o + 4 + 4 * i) 4)) t) [] })) s
  let gs := ((sectsOf m).filter (fun x => x.type == 4)).flatMap (fun x =>
    (List.range x.count).map (fun i => (x.phase, sliceBytes m (x.off + 256 * i) 256)))
  s.updSlice slice (fun x => { x with groups := gs.foldl (fun t e => Tab.put [] e.1 e.2 t) [] })

/-- The broadcast groups a slice's configuration defines for a phase (R113): those of a section for the phase, else those for all. -/
def State.groupsOf (s : State) (slice phase : Nat) : Bytes :=
  let g := (s.atSlice slice).groups
  if Tab.get [] g phase = [] then Tab.get [] g 0xFF else Tab.get [] g phase

/-! Resident allocations (R114, R127). -/

/-- Scratchpad places of a slice's resident lines for an argument: (cell key, line), used cells ascending. -/
def resLines (m : Bytes) (slice arg : Nat) (rw : Bool) : List (Nat × Nat) :=
  let cells := (cellProgs m).map (·.cell)
  ((List.range 1024).filter (fun i => cells.contains i)).flatMap (fun i =>
    ((allocsOf m).filter (fun a => a.arg == arg && (a.cls == 2 || (!rw && a.cls == 1)) &&
      (a.cell == i || a.cell == 0xFFFF))).flatMap (fun a => (List.range a.lines).map (fun l => (relKey slice i, a.base + l))))

/-- Arguments that are home to resident allocations. -/
def resArgs (m : Bytes) (rw : Bool) : List Nat :=
  (((allocsOf m).filter (fun a => a.cls == 2 || (!rw && a.cls == 1))).map (·.arg)).eraseDups

/-- Resident tiles of a mould: the largest RES_TILES of its phases. -/
def resTiles (m : Bytes) : Nat := ((List.range (iPhases m)).map (fun p => (tilingOf m p).res)).foldl max 0

/-- Resident tiles that rank `k` of `B` slices keeps, as many as its allocations hold, lowest first (R127). -/
def resHeld (m : Bytes) (slice arg k B : Nat) : List Nat :=
  let bytes := ((argsOf m).getD arg ⟨0, 0, 0, 0, 0, 0, 0, 0, 0⟩).bytes
  let n := resTiles m
  if n = 0 ∨ B = 0 then []
  else
    let size := max 1 (bytes / n)
    (((List.range n).filter (fun r => r % B == k))).take ((resLines m slice arg false).length * 64 / size)

/-- Range of argument `a` of a COMPUTE: the argument list comes first (R201). -/
def Cmd.argRange (c : Cmd) (a : Nat) : Range := c.ranges.getD (a + 1) {}

/-- Code, source kind and source of the break that an access without an answer leads to: one that the address map or a key turns
away breaks with RIGHTS. Log 98 (DESIGN CHOICE). -/
def NapRes.breakOf : NapRes → Nat × Nat × Nat
  | .failed code k i => (code, k, i)
  | _ => (codeRights, 0, 0)

/-- Read bytes of a range from an offset, or say what the command breaks with: device memory through its channels; host and remote
memory are outside the device, so their bytes are free values. -/
def State.rangeRead (s : State) (r : Range) (off n : Nat) : State × ((Nat × Nat × Nat) ⊕ Bytes) :=
  if r.loc = 0 then
    match s.devRead r.key (r.addr + off) n with
    | (s, .inr b) => (s, .inr b)
    | (s, .inl e) => (s, .inl e.breakOf)
  else let (d, s) := s.draw; (s, .inr ((List.range n).map (Config.hostByte d)))

/-- Put bytes over scratchpad lines in order, 64 B a line. -/
def State.fillLines (s : State) : List (Nat × Nat) → Bytes → State
  | [], _ => s
  | (k, l) :: t, b =>
    if b.isEmpty then s
    else State.fillLines { s with spad := Memory.write s.spad (spadAt k l) (sliceBytes b 0 64) } t (b.drop 64)

/-- The bytes that scratchpad lines hold in order. -/
def State.dumpLines (s : State) (l : List (Nat × Nat)) : Bytes :=
  l.flatMap (fun p => Memory.read s.spad (spadAt p.1 p.2) 64)

/-- Bytes of one resident tile of an argument (R127). -/
def resSize (m : Bytes) (a : Nat) : Nat :=
  max 1 (((argsOf m).getD a ⟨0, 0, 0, 0, 0, 0, 0, 0, 0⟩).bytes / max 1 (resTiles m))

/-- Fill the resident allocations of a slice from their home arguments (R120 event 5, R127); a read that fails breaks the command.
Log 71 (DESIGN CHOICE). -/
def State.resFill (s : State) (c : Cmd) (slice : Nat) : State :=
  let m := (s.mouldOf c).image
  let sl := s.poolOf c
  let k := sl.idxOf slice
  let s := (resArgs m false).foldl (fun s a =>
    let size := resSize m a
    let (s, b) := (resHeld m slice a k sl.length).foldl (fun (x : State × Bytes) r => match x.1.rangeRead (c.argRange a) (r * size) size with
      | (s, .inr d) => (s, x.2 ++ d)
      | (s, .inl e) => (s.breakCmd c.q c.seq e.1 e.2.1 e.2.2, x.2 ++ List.replicate size 0)) (s, [])
    s.fillLines (resLines m slice a false) b) s
  s.updSlice slice (fun x => { x with resident := (List.range (resTiles m)).filter (fun r => r % sl.length == k) })

/-! ### Movers' queues -/

/-- Key of a mover's queue in a core: movers 4q to 4q + 3 serve quarter q (R95). -/
def State.moverQueue (s : State) (core m : Nat) : List MoverReq := Tab.get [] (s.atCore core).movers m

/-- Change the movers' queues of a core, keeping SHST_MOVER_STAT. -/
def State.updMovers (s : State) (core : Nat) (f : Tab (List MoverReq) → Tab (List MoverReq)) : State :=
  let s := s.updCore core (fun c => { c with movers := f c.movers })
  s.set (Pg.base .shst core) SHST_MOVER_STAT_BUSY
    (maskOfList ((List.range 16).filter (fun m => !(s.moverQueue core m).isEmpty)))

/-- Replace a mover's queue. -/
def State.setMover (s : State) (core m : Nat) (l : List MoverReq) : State := s.updMovers core (Tab.put [] m l)

/-- Page of a core's shared store. -/
def shstPg (core : Nat) : Nat := Pg.base .shst core

/-- Replace a merge table, keeping its open entries' count and the highest one seen. -/
def State.setMerge (s : State) (core : Nat) (l : List Merge) : State :=
  let n := (l.filter (·.isOpen)).length
  let pg := shstPg core
  let s := (s.updCore core (fun c => { c with merge := l })).set pg SHST_MERGE_STAT_OPEN n
  if s.get pg SHST_MERGE_STAT_HIGH < n then s.set pg SHST_MERGE_STAT_HIGH n else s

/-- A write to `n` lines from `line` on (location 0 device memory, 1 the shares) that arrives at a shared store closes their entries to
merges (R91). -/
def State.closeMerge (s : State) (core loc line n : Nat) : State :=
  s.setMerge core ((s.atCore core).merge.map (fun e =>
    if e.loc = loc ∧ line ≤ e.line ∧ e.line < line + n then { e with isOpen := false } else e))

/-- Put bytes into a share from a line on; the merge entries of the lines close (R91). -/
def State.shareWrite (s : State) (slice line : Nat) (b : Bytes) : State :=
  let n := min ((b.length + 255) / 256) (32768 - line)
  { s.closeMerge (slice / 4) 1 (slice * 32768 + line) n with
    share := Memory.write s.share (shareAt slice line) (b.take (256 * (32768 - line))) }

/-- Lines of a share. -/
def State.shareRead (s : State) (slice line n : Nat) : Bytes :=
  Memory.read s.share (shareAt slice line) (256 * min n (32768 - line))

/-- Bytes that a mover asked for have come back: with the last of them the request is done (R97). -/
def State.moverBack (s : State) (core m : Nat) (r : MoverReq) (n : Nat) : State :=
  let l := s.moverQueue core m
  let done := decide (256 * r.lines ≤ r.back + n)
  let s := if done then (s.beat 0 (core * 4 + m / 4)).beat 1 core else s
  s.setMover core m (l.set (l.idxOf r) { r with back := r.back + n, done := done })

/-- The LINE_IN of a command that byte `at_` of its stream of arriving bytes belongs to, with its core and mover. -/
def State.lineInOf (s : State) (q seq at_ : Nat) : Option (Nat × Nat × MoverReq) :=
  (List.range 8).findSome? (fun core => (List.range 16).findSome? (fun m =>
    ((s.moverQueue core m).find? (fun r => r.op == 0 && r.q == q && r.seq == seq && r.sent != 0 && !r.done && decide (r.base ≤ at_) &&
      decide (at_ < r.base + 256 * r.lines))).map (fun r => (core, m, r))))

/-- Bytes from the host or a remote device reach the command that asked for them: the share of the LINE_IN they belong to, or the
command's source bytes (R97, R181, R310). -/
def State.arriveBytes (s : State) (q seq at_ : Nat) (b : Bytes) : State := match s.lineInOf q seq at_ with
  | some (core, m, r) =>
    let o := 256 * r.sline + (at_ - r.base)
    let line := o / 256
    let s := s.closeMerge (r.share / 4) 1 (r.share * 32768 + line) ((o % 256 + b.length + 255) / 256)
    ({ s with share := Memory.write s.share (shareAt r.share 0 + o) (b.take (2 ^ 23 - o)) }).moverBack core m r b.length
  | none => s.updCmd q seq (fun c => { c with
      buf := patchBytes (c.buf ++ List.replicate (at_ + b.length - c.buf.length) 0) at_ b, got := c.got + b.length })

/-- The slice that a line read goes to. -/
def LineDest.slice (core : Nat) : LineDest → Nat
  | .cell c => cellSlice core c
  | .share n _ _ => n

/-- Line reads without the destinations in a slice; one with none left is gone. -/
def dropDests (core slice : Nat) (l : List Merge) : List Merge :=
  (l.map (fun e => { e with dests := e.dests.filter (fun d => d.slice core != slice) })).filter (fun e => !e.dests.isEmpty)

/-- Clear a slice's scratchpads, share, cells and configuration: the hardware scrub (R74, R407). -/
def State.scrubSlice (s : State) (slice : Nat) : State :=
  let core := slice / 4
  let keys := fun (a : Nat) => inSlice slice (a / 32768)
  let s := s.unfillSlice slice
  let s := { s with spad := s.spad.filter (fun e => !keys e.1),
                    share := Memory.clear s.share (slice * 2 ^ 23) ((slice + 1) * 2 ^ 23),
                    cells := s.cells.filter (fun e => !inSlice slice e.1) }
  let s := s.updSlice slice (fun x => { x with
    cfg := none, loading := false, groups := [], resident := [], queued := [], tile := none, cycles := 0 })
  let s := s.updMovers core (Tab.mapAll [] (fun m l => if m / 4 = slice % 4 then [] else l))
  let s := s.updCore core (fun c => { c with merge := dropDests core slice c.merge, loose := dropDests core slice c.loose })
  let s := match s.sliceOwner slice with
    | some p => s.flushPart p
    | none => s
  (s.bumpF secPg SEC_SCRUB_STAT_HW 1).cfgValid slice false

/-- Clear everything of a slice's cells but the configuration: registers, accumulators, buffers, channels (R280 step 4). -/
def State.clearSlice (s : State) (slice : Nat) : State :=
  s.mapSlice slice (fun c => { c with
    vreg := [], preg := [], lacc := [], part32 := [], prods := [], add32 := [], accs := [], steps := [], outs := 0, stat := [],
    inCh := [], outCh := [], link := [], pc := 0, fired := [], reps := [], ended := true })

/-- Take a slice from the command it runs and flush the command's tokens and mover requests (R102). Log 76 (DESIGN CHOICE). -/
def State.flushSlice (s : State) (slice q seq : Nat) : State :=
  let s := (s.unfillSlice slice).mapSlice slice (fun c => { c with
    inCh := [], outCh := [], link := [], lacc := [], part32 := [], prods := [], add32 := [], accs := [], steps := [], outs := 0,
    fired := [], reps := [], ended := true })
  let s := s.updMovers (slice / 4) (Tab.mapAll [] (fun _ l => l.filter (fun r => !(r.q == q && r.seq == seq))))
  s.updSlice slice (fun x => { x with tile := none, cmd := none, queued := [], cycles := 0 })

/-- Stop a command on every slice that runs it and flush its tokens (R102). -/
def State.flushCmd (s : State) (q seq : Nat) : State :=
  (List.range 32).foldl (fun s n => if (s.atSlice n).cmd = some (q, seq) then s.flushSlice n q seq else s) s

/-- A loss of data of the command that slice `slice` runs (R102): it stops everywhere and breaks with MEM_UNCORRECTABLE,
the island being the source. Log 76 (DESIGN CHOICE). -/
def State.dataLoss (s : State) (slice isl : Nat) : State :=
  match (s.atSlice slice).cmd with
  | none => s
  | some (q, seq) => (s.breakCmd q seq codeMemUncorrectable 0 isl).flushCmd q seq

/-- An uncorrectable configuration word on a slice (R103): counted, a repeat after a reload counted toward retirement.
Log 76 (DESIGN CHOICE). -/
def State.cfgBad (s : State) (slice isl : Nat) : State :=
  let x := s.atSlice slice
  let s := s.errCountF (islPg isl) ISL_SP_ERR_UNCORR_CFG 1
  let s := if x.badCfg.isSome ∧ x.badCfg = x.cfg then s.fault 0 slice s.mclk else s
  (s.updSlice slice (fun x => { x with badCfg := x.cfg, cfg := none, loading := false })).cfgValid slice false

/-- CONFIG_LOAD (R120): a quiescent slice of the command's context starts loading the mould's configuration, unless it
holds it already. Log 67 (DESIGN CHOICE). -/
def execConfigLoad (slice q seq : Nat) (s : State) : Answer :=
  onUnit (decide (slice < 32) && decide (q < 4096)) (
    match s.cmd? q seq with
    | none => s
    | some c =>
      let x := s.atSlice slice
      if c.started = false ∨ c.work ∨ dOp c.desc ≠ 1 ∨ x.ctx ≠ some c.ctx ∨ s.quiet slice = false ∨ x.loading ∨
          x.tile.isSome ∨ x.leaving ∨ x.cfg = some (s.cfgOf c) then s
      else ((s.unfillSlice slice).updSlice slice (fun x => { x with
        cfg := some (s.cfgOf c), cmd := some (q, seq), loading := true })).cfgValid slice false)

end Sys2Proof.Machine
end

