-- ==== Sys2Proof/Machine/Spreader.lean ====
section
/-! DEFINITION. The spreader (R122-R137): handing out tiles, their preambles, the end of a tile, phases with their combine
steps and span exchanges, boundaries. -/

namespace Sys2Proof.Machine

open Sys2Proof

/-! ### Movers -/

/-- Put the waiting requests of a slice's tile into the movers' queues, each of 32 places, in order (R95). -/
def State.issueQueued (s : State) (slice : Nat) : State :=
  let core := slice / 4
  let (s, left) := (s.atSlice slice).queued.foldl (fun (x : State × List (Nat × MoverReq)) e =>
    if (x.1.moverQueue core e.1).length < 32 then (x.1.setMover core e.1 (x.1.moverQueue core e.1 ++ [e.2]), x.2)
    else (x.1, x.2 ++ [e])) (s, [])
  s.updSlice slice (fun x => { x with queued := left })

/-- Whether the preamble of a slice's tile has not completed: its cells do not fire before (R124). Log 68 (DESIGN CHOICE). -/
def State.preambleOpen (s : State) (slice : Nat) : Bool :=
  !(s.atSlice slice).queued.isEmpty ||
    (List.range 4).any (fun i => (s.moverQueue (slice / 4) (slice % 4 * 4 + i)).any (fun r => r.pre && !r.done && r.share == slice))

/-- Write the RESIDENT_RW allocations of a slice back to their home arguments (R247 step 4, R283). Answers whether every write was
taken. Log 124 (DESIGN CHOICE). -/
def State.resWriteBack (s : State) (c : Cmd) (slice k B : Nat) : State × Bool :=
  let m := (s.mouldOf c).image
  (resArgs m true).foldl (fun (x : State × Bool) a =>
    let r := c.argRange a
    let size := resSize m a
    let b := x.1.dumpLines (resLines m slice a true)
    let held := resHeld m slice a k B
    (List.range held.length).foldl (fun (x : State × Bool) i =>
      if r.loc ≠ 0 then (x.1.rangeWrite c r (held.getD i 0 * size) (sliceBytes b (i * size) size), x.2)
      else match x.1.devWrite r.key c.part (r.addr + held.getD i 0 * size) (sliceBytes b (i * size) size) with
        | (s, .done) => (s, x.2)
        | (s, .data _) => (s, x.2)
        | (s, _) => (s, false)) x) (s, true)

/-- Whether a command has a request queued in a mover, by operation. -/
def State.moving (s : State) (q seq : Nat) (p : MoverReq → Bool) : Bool :=
  s.cores.any (fun e => e.2.movers.any (fun m => m.2.any (fun r => r.q == q && r.seq == seq && p r)))

/-! ### Tiles -/

/-- Member count and rank of a span command (R130). -/
def State.spanOf (s : State) (c : Cmd) : Option (Nat × Nat) :=
  match dSlot c.desc with
  | some l => some (s.spanM c.part l, s.get (spanAt c.part l) PART_SPAN_0_RANK)
  | none => none

/-- Descriptor and box of the phase a command is in. -/
def State.phaseOf (s : State) (c : Cmd) : Tiling := tilingOf (s.mouldOf c).image c.spr.phase
def State.boxOf (s : State) (c : Cmd) : Box := (s.phaseOf c).box (s.spanOf c)

/-- The next tile for a slice and the cursor after it (R123, R127). -/
def State.nextTile (s : State) (c : Cmd) (slice : Nat) : Option (Nat × Spread) :=
  let t := s.phaseOf c
  let n := (s.boxOf c).count
  if c.spr.active = false then none
  else if t.resident then
    let sl := s.poolOf c
    let k := sl.idxOf slice
    let cand := ((List.range t.res).filter (fun r => r % sl.length == k)).filterMap (fun r =>
      let l := r + t.res * Tab.get 0 c.spr.res r
      if l < n then some (l, r) else none)
    match cand.foldl (fun b e => match b with
      | none => some e
      | some f => if e.1 < f.1 then some e else some f) none with
    | none => none
    | some (l, r) => some (l, { c.spr with res := Tab.upd 0 c.spr.res r (· + 1), next := c.spr.next + 1 })
  else if c.spr.next < n then some (c.spr.next, { c.spr with next := c.spr.next + 1 })
  else none

/-- The islands of a slice, as a mask over its core's. -/
def islandMask (slice : Nat) : Nat := maskOfList ((List.range 4).map (fun k => sliceIsland slice k % 16))

/-- The request a preamble record makes for a tile (R115): lines from the argument's base. -/
def preReq (c : Cmd) (slice : Nat) (t : Nat × Nat × Nat) (r : PreRec) : MoverReq :=
  let a := c.argRange r.arg
  { op := r.op, q := c.q, seq := c.seq, ctx := c.ctx, gen := c.gen, key := a.key, loc := a.loc,
    addr := (t.1 * r.s0 + t.2.1 * r.s1 + t.2.2 * r.s2) * 256, range := r.arg + 1, share := slice, lines := r.lines,
    cell := relCell slice (Config.spreadCell r.group % 1024), sline := r.sline, group := r.group % 16, core := slice / 4,
    route := 4096, islands := islandMask slice, pre := true }

/-- The LINE_INs of a tile whose resident tile `r` the slice's allocations cannot hold: it is read from its home argument into the
slice's share at each use (R127). Log 71 (DESIGN CHOICE). -/
def State.spillReqs (s : State) (c : Cmd) (slice r : Nat) : List MoverReq :=
  let m := (s.mouldOf c).image
  let sl := s.poolOf c
  ((resArgs m false).filter (fun a => !(resHeld m slice a (sl.idxOf slice) sl.length).contains r)).map (fun a =>
    let g := c.argRange a
    let size := resSize m a
    { op := 0, q := c.q, seq := c.seq, ctx := c.ctx, gen := c.gen, key := g.key, loc := g.loc, addr := r * size, range := a + 1,
      share := slice, lines := min ((size + 255) / 256) ((g.len - r * size) / 256), sline := Config.residentLine a % 32768,
      core := slice / 4, route := 4096, pre := true })

/-- Issue the requests of tile `l` of the phase before its cells fire (R124, R127), request i on mover 4q + i mod 4.
Log 68 (DESIGN CHOICE). -/
def State.preamble (s : State) (c : Cmd) (slice l : Nat) : State :=
  let t := s.phaseOf c
  let spill := if t.resident then s.spillReqs c slice (l % max 1 t.res) else []
  let rs := spill ++ ((preambles (s.mouldOf c).image).filter (fun r => r.phase == c.spr.phase)).map
    (preReq c slice ((s.boxOf c).coord l))
  (s.updSlice slice (fun x => { x with
    queued := (List.range rs.length).zip rs |>.map (fun e => (slice % 4 * 4 + e.1 % 4, e.2)) })).issueQueued slice

/-- Start the cells of a slice on a phase: each at its entry slot, the iteration in vector register 31, lane 0 (R111,
R128). -/
def State.startCells (s : State) (slice phase iter : Nat) : State :=
  s.mapSlice slice (fun c =>
    let e := Tab.get 0xFF c.entry phase
    if e = 0xFF then { c with ended := true }
    else { c with
      pc := e, fired := [], reps := [], ended := false, lacc := [], part32 := [], prods := [], add32 := [], accs := [], steps := [],
      outs := 0,
      vreg := Tab.put 0 31 (BitVec.ofNat 512 (putBits (Tab.get 0 c.vreg 31).toNat 31 0 iter)) c.vreg })

/-- Whether dispatch is stopped for the whole device: a thermal trip (R371) or a recovery that holds the scope (R440). -/
def State.dispatchOff (s : State) : Bool := s.therm.tripped

/-- Whether the phase a command is in refuses a boundary now (R134). -/
def State.noBoundary (s : State) (c : Cmd) : Bool := c.spr.active && (s.phaseOf c).atomic

/-- Whether a command may be given tiles: started, working, and not stopping for a boundary, which inside an ATOMIC phase
waits for the phase's end (R133, R134). -/
def State.runs (s : State) (c : Cmd) : Bool :=
  c.started && !c.work && !c.held && !c.retrans && dOp c.desc == 1 && ((c.stop == 0 && !c.boundary) || s.noBoundary c)

/-- Whether a command has a tile that a slice could take (R123, R266). -/
def State.hasTile (s : State) (c : Cmd) (slice : Nat) : Bool :=
  s.runs c && s.reserved slice == s.realTime c && s.tasteAllows c slice && (s.nextTile c slice).isSome

/-- Whether a save or a restore of a slice is under way. -/
def State.sliceMoving (s : State) (slice : Nat) : Bool :=
  (List.range 4).any (fun i => (s.moverQueue (slice / 4) (slice % 4 * 4 + i)).any (fun r => decide (6 ≤ r.op) && r.share == slice))

/-- The started commands of a context, oldest first. -/
def State.startedOf (s : State) (x : Nat) : List Cmd :=
  (s.allCmds.filter (fun c => c.ctx == x && c.started && !c.work)).mergeSort (fun a b => decide (a.startNo ≤ b.startNo))

/-- Hand a tile of a command to a slice (R123, R124). Log 68 (DESIGN CHOICE). -/
def State.giveTile (s : State) (slice : Nat) (c : Cmd) : State :=
  match s.nextTile c slice with
  | none => s
  | some (l, spr) =>
    let s := s.updCmd c.q c.seq (fun c => { c with spr := spr })
    let s := s.updSlice slice (fun x => { x with cmd := some (c.q, c.seq), tile := some l, cycles := 0 })
    let s := (s.setQuiet slice false).startCells slice c.spr.phase c.spr.iter
    s.preamble c slice l

/-- Give a free slice of a context the next tile: of its own command, else of the oldest started command of the context
that has tiles left and whose configuration the slice holds (R123, R268). -/
def State.feed (s : State) (slice : Nat) : State :=
  let x := s.atSlice slice
  match x.ctx with
  | none => s
  | some ctx =>
    if x.tile.isSome ∨ x.loading ∨ x.leaving ∨ x.stopped ∨ s.dispatchOff ∨ s.sliceMoving slice then s
    else
      let cs := s.startedOf ctx
      let own := cs.find? (fun c => x.cmd == some (c.q, c.seq) && s.hasTile c slice)
      let pick := match own with
        | some c => some c
        | none => cs.find? (fun c => s.hasTile c slice)
      match pick with
      | none => s
      | some c =>
        if x.cfg = some (s.cfgOf c) then s.giveTile slice c
        else s.updSlice slice (fun x => { x with cmd := some (c.q, c.seq) })

/-- Feed every slice of a context. -/
def State.feedCtx (s : State) (x : Nat) : State := (s.ctxSlices x).foldl (fun s n => s.feed n) s

/-! ### Accumulators of a tile (R125, R126) -/

/-- The cells of a slice that take part in a phase, ascending (R111). -/
def State.phaseCells (s : State) (slice phase : Nat) : List Nat :=
  (s.cells.filter (fun e => inSlice slice e.1 && Tab.get 0xFF e.2.entry phase != 0xFF)).map (·.1)

/-- The number of the small output tile that a cell computes next: the cells of the phase take them in turn. Log 47 (DESIGN CHOICE). -/
def State.subTile (s : State) (slice phase k : Nat) : Nat :=
  let ks := s.phaseCells slice phase
  ks.idxOf k + (s.atCell k).outs * ks.length

/-- Rows of the small output tiles of a phase (R70). -/
def Tiling.rows (t : Tiling) : Nat := if t.pair = 11 then 2 else 4

/-- Chunk results of a dot product of a cell, a last chunk filled with +0 (R54). -/
def CellSt.chunks (c : CellSt) (r : Nat) : List Nat :=
  let ps := Tab.get [] c.prods r
  Tab.get [] c.part32 r ++ (if ps.isEmpty then [] else [treeReduce 5 (fill32 0 ps)])

/-- What the cells of a slice hold at the end of a tile, by element of the output tile: `f` reads output `i` of a cell. -/
def State.tileHeld {α : Type} (s : State) (c : Cmd) (slice : Nat) (f : CellSt → Nat → α) : List (Nat × α) :=
  let t := s.phaseOf c
  (s.phaseCells slice c.spr.phase).flatMap (fun k =>
    let x := s.atCell k
    let sub := s.subTile slice c.spr.phase k
    (List.range 16).filterMap (fun i => if x.accs.contains i then (t.elem t.rows sub i).map (fun e => (e, f x i)) else none))

/-- The accumulators a tile leaves (R125), and the FP32 partials, each the tree over its chunks (R54, R126). -/
def State.tileAccs (s : State) (c : Cmd) (slice : Nat) : List (Nat × LongAcc) := s.tileHeld c slice (fun x i => Tab.get {} x.lacc i)
/-- Log 70 (DESIGN CHOICE). -/
def State.tileParts (s : State) (c : Cmd) (slice : Nat) : List (Nat × Nat) := s.tileHeld c slice (fun x i => chunkTree (x.chunks i) none)

/-- Cut numbered things into runs of consecutive numbers. -/
def runsOf {α : Type} (l : List (Nat × α)) : List (Nat × List α) :=
  ((l.mergeSort (fun a b => decide (a.1 ≤ b.1))).foldr (fun e t => match t with
    | (n, xs) :: t => if n = e.1 + 1 then (e.1, e.2 :: xs) :: t else (e.1, [e.2]) :: (n, xs) :: t
    | [] => [(e.1, [e.2])]) [])

/-- First output element of a tile: tiles over axes 0 and 1, TILE_M × TILE_N elements each. -/
def elemBase (t : Tiling) (c : Nat × Nat × Nat) : Nat := (c.1 + t.t0 * c.2.1) * (t.m * t.n)

/-- Workspace argument of a mould (R115). -/
def wsArg (m : Bytes) : Nat := ((argsOf m).findIdx? (fun a => a.dir == 3)).getD 0

/-- Send numbered accumulators to a remote device, each run of consecutive ones as reductions (R313). -/
def State.reduceRuns (s : State) (c : Cmd) (slot dev key addr : Nat) (xs : List (Nat × LongAcc)) : State :=
  (runsOf xs).foldl (fun s e => s.remoteReduce c slot dev key (addr + 64 * e.1) e.2) s

/-- Exact-add numbered accumulators into the 64 B places of a range (R125, R167): at the narrow access path, or by REDUCE
to a remote device. -/
def State.addAccs (s : State) (c : Cmd) (r : Range) (off : Nat) (xs : List (Nat × LongAcc)) : State :=
  if r.loc = 0 then
    xs.foldl (fun s e =>
      let dpa := r.addr + off + 64 * e.1
      match s.place dpa with
      | none => s
      | some p =>
        if s.chanRetired p.chan then s.breakCmd c.q c.seq codeUnitRetired 1 p.chan
        else match s.lineModify p r.key c.part dpa (xaddOn p.byte e.2) with
          | (s, .failed code k id) => s.breakCmd c.q c.seq code k id
          | (s, _) => s) s
  else if r.loc = 2 then
    match s.slotFor c.part r.dev with
    | some l => s.reduceRuns c l r.dev r.key (r.addr + off) xs
    | none => s.breakCmd c.q c.seq codePartnerAbsent 5 r.dev 0 r.dev
  else s

/-- The other members that a tile's contributions go to as well: those of the span, in a COLLECTIVE phase (R139). Log 70 (DESIGN CHOICE). -/
def State.exchangePeers (s : State) (c : Cmd) : List (Nat × Nat) := match dSlot c.desc with
  | some sl => if (s.phaseOf c).kind = 3 then (s.spanPeers c.part sl).map (fun p => (sl, p.2)) else []
  | none => []

/-- What a finished tile adds to its phase's combine area or target (R125, R126). In a COLLECTIVE phase of a span each
contribution also goes to the same area of every other member (R55, R139). Log 70 (DESIGN CHOICE). -/
def State.tileCombine (s : State) (c : Cmd) (slice l : Nat) : State :=
  let t := s.phaseOf c
  let m := (s.mouldOf c).image
  let co := (s.boxOf c).coord l
  let e := elemBase t co
  let ws := c.argRange (wsArg m)
  let peers := s.exchangePeers c
  if t.combine = 1 then
    let xs := s.tileAccs c slice
    peers.foldl (fun s p => s.reduceRuns c p.1 p.2 ws.key (ws.addr + t.wsOff + 64 * e) xs) (s.addAccs c ws (t.wsOff + 64 * e) xs)
  else if t.combine = 3 then s.addAccs c (c.argRange t.combArg) (64 * e) (s.tileAccs c slice)
  else if t.combine = 2 then
    (runsOf (s.tileParts c slice)).foldl (fun s r =>
      let off := t.wsOff + 4 * (co.2.2 * (t.t0 * t.t1 * t.m * t.n) + e + r.1)
      let b := r.2.flatMap (leBytes 4)
      peers.foldl (fun s p => s.remoteWrite c { ws with loc := 2, dev := p.2 } off b) (s.rangeWrite c ws off b)) s
  else s

/-- A slice whose cells have all executed ROUND_END has finished its tile (R123, R124). -/
def State.tileEnd (s : State) (slice : Nat) : State :=
  let x := s.atSlice slice
  match x.tile, x.cmd with
  | some l, some (q, seq) =>
    if (s.cells.filter (fun e => inSlice slice e.1)).all (fun e => e.2.ended) = false then s
    else
      let s := match s.cmd? q seq with
        | some c => (s.tileCombine c slice l).updCmd q seq (fun c => { c with spr := { c.spr with done := c.spr.done + 1 } })
        | none => s
      let s := (s.beat 0 slice).updSlice slice (fun x => { x with tile := none, cycles := 0 })
      let s := s.mapSlice slice (fun c => { c with lacc := [], part32 := [], prods := [], add32 := [], accs := [], steps := [], outs := 0 })
      (s.fillSlice slice).feed slice
  | _, _ => s

/-! ### Phases (R125-R129) -/

/-- Whether every tile of a command's phase has ended and its movers have nothing outstanding (R129). -/
def State.tilesDone (s : State) (c : Cmd) : Bool :=
  c.spr.active && decide ((s.boxOf c).count ≤ c.spr.done) && !s.moving c.q c.seq (fun _ => true)

/-- Write zeros over the combine area of a phase (R125). -/
def State.zeroArea (s : State) (c : Cmd) (t : Tiling) : State :=
  if t.combine = 1 ∧ t.wsBytes ≠ 0 then
    s.rangeWrite c (c.argRange (wsArg (s.mouldOf c).image)) t.wsOff (List.replicate t.wsBytes 0)
  else s

/-- Open the phase of a command's cursor: zero its combine area, then hand out tiles. -/
def State.openPhase (s : State) (c : Cmd) : State :=
  let s := s.zeroArea c (s.phaseOf c)
  let s := s.updCmd c.q c.seq (fun c => { c with
    spr := { c.spr with active := true, combined := false, next := 0, done := 0, res := [], waiting := false, warn := c.warn } })
  s.feedCtx c.ctx

/-- A BARRIER token from this member to the others at the end of a COLLECTIVE exchange (R316). -/
def State.sendBarrier (s : State) (c : Cmd) (slot : Nat) : State :=
  let addr := c.spanNo + c.spr.bar * 2 ^ 32 + s.get (spanAt c.part slot) PART_SPAN_0_RANK * 2 ^ 48
  let s := s.castColl c.part slot { op := 0x10, addr := addr, aux := c.spr.waitAcc }
  s.updCmd c.q c.seq (fun c => { c with spr := { c.spr with waiting := true, waitFrom := s.mclk } })

/-- Tokens held for a command's barrier, in the order they arrived. Log 153 (DESIGN CHOICE). -/
def State.toksOf (s : State) (c : Cmd) (slot : Nat) : List Tok :=
  s.toks.filter (fun t => t.slot == c.part * 8 + slot && t.cmd == c.spanNo && t.bar == c.spr.bar)

/-- Wait of a barrier in units of 0.1 µs: ten counts of the management clock each. -/
def tenths (counts : Nat) : Nat := counts / 10

/-- A barrier completes when the tokens of every other member are held: the waits are compared (R316, R317). Log 153 (DESIGN CHOICE). -/
def State.barrierDone (s : State) (q seq : Nat) : State :=
  match s.cmd? q seq with
  | none => s
  | some c => match dSlot c.desc with
    | none => s
    | some slot =>
      let ts := s.toksOf c slot
      if c.spr.waiting = false ∨ ts.length < s.spanM c.part slot - 1 then s
      else
        let mine := tenths (s.mclk - c.spr.waitFrom)
        let lim := 10 * max 1 (s.get rtePg RTE_CTL_STRAG_MIN)
        let s := if mine < lim then s else match ts.getLast? with
          | none => s
          | some t =>
            let dev := s.spanDev c.part slot t.rank
            match s.trunkTo (some (c.part, slot)) ((s.nextHop dev).getD dev) with
            | [] => s
            | p :: _ => (s.bump (lnkPg p + LNK_STRAG_CNT) 1).set (lnkPg p) LNK_STRAG_LAST_DEVICE dev
        let s := if ts.all (fun t => decide (c.spr.waitAcc + lim ≤ t.acc)) && !ts.isEmpty then
            s.bump (rtePg + RTE_STRAG_SELF) 1 else s
        let s := { s with toks := s.toks.filter (fun t => !ts.contains t) }
        s.updCmd q seq (fun c => { c with
          spr := { c.spr with waiting := false, combined := true, bar := c.spr.bar + 1, waitAcc := satAdd 0xFFFFFFFF c.spr.waitAcc mine } })

/-- Rounding site record `i` of a mould: its argument, its output-format code, or the phase's where there is no record (R115). -/
def siteArg (m : Bytes) (i : Nat) : Nat := match (recsOf m 8 4)[i]? with
  | some o => leAt m o 1
  | none => 0
/-- Log 69 (DESIGN CHOICE). -/
def siteFmt (m : Bytes) (t : Tiling) (i : Nat) : Option Fmt := match (recsOf m 8 4)[i]? with
  | some o => fmtOf (leAt m (o + 1) 1)
  | none => fmtOf t.outFmt

/-- Site index in iteration `i` (R128). -/
def siteAt (m : Bytes) (base i : Nat) : Nat := (base + i * iSiteStride m) % 65536

/-- The sites that instructions of a phase's cell programs round by (R111). Log 69 (DESIGN CHOICE). -/
def instrSites (m : Bytes) (p : Nat) : List Nat := (cellProgs m).flatMap (fun c =>
  let e := c.entry.getD p 0xFF
  if e = 0xFF then [] else (phaseSlots c e).filterMap (fun i =>
    let x := pword (c.words.getD i 0)
    match operandOf x.dst with
    | .lacc _ => none
    | _ => if x.cls = 0 then some ((tilingOf m p).siteBase + x.imm) else none))

/-- The rounding sites of a phase's combine step (R125): those from its SITE_BASE to the next phase's by which no instruction of the
phase rounds, its SITE_BASE when there is none. Log 69 (DESIGN CHOICE). -/
def combineSites (m : Bytes) (p : Nat) : List Nat :=
  let b := (tilingOf m p).siteBase
  let stop := (((List.range (iPhases m)).map (fun q => (tilingOf m q).siteBase)).filter (fun x => decide (b < x))).foldl min (iSites m)
  let l := ((List.range stop).filter (fun i => decide (b ≤ i))).filter (fun i => !(instrSites m p).contains i)
  if l.isEmpty then [b] else l

/-- Round `n` consecutive output elements by `conv` into the output argument of rounding site `i`, in its format (R48, R115). -/
def State.roundSite (s : State) (c : Cmd) (tile elem0 n : Nat)
    (conv : Fmt → List Rounding → Bytes × Bytes × Nat) (i : Nat) : State :=
  let m := (s.mouldOf c).image
  let t := s.phaseOf c
  match siteFmt m t i with
  | none => s
  | some f =>
    let rds := (List.range n).map (fun e => roundingOf c.acw c.seed (dTweak c.desc) (siteAt m i c.spr.iter) tile e)
    let (b, sc, w) := conv f rds
    let r := c.argRange (siteArg m i)
    let s := s.rangeWrite c r (f.arrayBytes elem0) b
    let s := if f.isBlock then s.rangeWrite c r (f.arrayBytes (t.t0 * t.t1 * t.m * t.n) + elem0 / 32) sc else s
    s.updCmd c.q c.seq (fun c => { c with warn := c.warn ||| w })

/-- Round `n` consecutive output elements into the outputs of the phase's rounding sites (R125). Log 69 (DESIGN CHOICE). -/
def State.roundOut (s : State) (c : Cmd) (tile elem0 n : Nat)
    (conv : Fmt → List Rounding → Bytes × Bytes × Nat) : State :=
  (combineSites (s.mouldOf c).image c.spr.phase).foldl (fun s i => s.roundSite c tile elem0 n conv i) s

/-- The tiles whose outputs a member combines: its own, all after the exchange of a COLLECTIVE phase (R55, R130). -/
def State.combineBox (s : State) (c : Cmd) : Box :=
  if (s.phaseOf c).kind = 3 then (s.phaseOf c).box none else s.boxOf c

/-- The combine step (R125, R126): each tile place of the box is rounded once, or its partials reduced by the tree over t2 and
rounded. Log 69 (DESIGN CHOICE). -/
def State.combine (s : State) (c : Cmd) : State :=
  let t := s.phaseOf c
  let b := s.combineBox c
  let ws := c.argRange (wsArg (s.mouldOf c).image)
  let mn := t.m * t.n
  let places := (List.range b.n1).flatMap (fun j => (List.range b.n0).map (fun i => (b.o0 + i, b.o1 + j, 0)))
  if t.combine = 1 ∨ t.combine = 2 then
    places.foldl (fun s co =>
      let e := elemBase t co
      if t.combine = 1 then
        match s.rangeRead ws (t.wsOff + 64 * e) (64 * mn) with
        | (s, .inl x) => s.breakCmd c.q c.seq x.1 x.2.1 x.2.2
        | (s, .inr d) => s.roundOut c (packTile co) e mn (fun f rds =>
            f.convertAcc rds ((List.range mn).map (fun i => accOf (sliceBytes d (64 * i) 64))))
      else
        let (s, ps) := (List.range b.n2).foldl (fun (x : State × List Bytes) k =>
          match x.1.rangeRead ws (t.wsOff + 4 * ((b.o2 + k) * (t.t0 * t.t1 * mn) + e)) (4 * mn) with
          | (s, .inr d) => (s, x.2 ++ [d])
          | (s, .inl y) => (s.breakCmd c.q c.seq y.1 y.2.1 y.2.2, x.2)) (s, [])
        if ps.length < b.n2 then s
        else s.roundOut c (packTile co) e mn (fun f rds => f.convert rds ((List.range mn).map (fun i =>
          f32 (treeReduce b.n2 (ps.map (fun d => leAt d (4 * i) 4))))))) s
  else s

/-- PHASE_COMBINE (R125, R126, R316): after the last tile of the phase the combine area is rounded or reduced into the
output. In a COLLECTIVE phase of a span the exchange's barrier comes first: the command sends its tokens and waits. -/
def execPhaseCombine (q seq : Nat) (s : State) : Answer :=
  onUnit (decide (q < 4096)) (
    match s.cmd? q seq with
    | none => s
    | some c =>
      if c.work ∨ dOp c.desc ≠ 1 ∨ s.tilesDone c = false ∨ c.spr.waiting then s
      else
        match dSlot c.desc with
        | some slot =>
          if (s.phaseOf c).kind = 3 ∧ c.spr.combined = false then (s.sendBarrier c slot).barrierDone q seq
          else if (s.phaseOf c).kind = 3 then (s.combine c).updCmd q seq (fun c => { c with spr := { c.spr with active := false } })
          else if c.spr.combined then s
          else (s.combine c).updCmd q seq (fun c => { c with spr := { c.spr with active := false, combined := true } })
        | none => (s.combine c).updCmd q seq (fun c => { c with spr := { c.spr with active := false, combined := true } }))

/-- The cursor after a phase (R128): none after the last. Log 74 (DESIGN CHOICE). -/
def nextPhase (m : Bytes) (spr : Spread) : Option Spread :=
  let fresh : Spread := { bar := spr.bar, waitAcc := spr.waitAcc }
  if spr.phase = iLoopLast m ∧ spr.iter + 1 < iLoopCount m then
    some { fresh with phase := iLoopFirst m, iter := spr.iter + 1 }
  else if spr.phase + 1 < iPhases m then
    some { fresh with phase := spr.phase + 1, iter := if spr.phase = iLoopLast m then 0 else spr.iter }
  else none

/-- Slices running a command. -/
def State.cmdSlices (s : State) (q seq : Nat) : List Nat :=
  (List.range 32).filter (fun n => (s.atSlice n).cmd == some (q, seq))

/-- PHASE_START (R128, R129): once the phase's tiles, LINE_OUTs and combine step are done, the next phase or iteration
starts; after the last one the command's work has ended. Log 7 (DESIGN CHOICE). -/
def execPhaseStart (q seq : Nat) (s : State) : Answer :=
  onUnit (decide (q < 4096)) (
    match s.cmd? q seq with
    | none => s
    | some c =>
      if c.work ∨ c.started = false ∨ c.held ∨ c.issued = false ∨ dOp c.desc ≠ 1 ∨ c.boundary ∨ c.stop ≠ 0 ∨ c.spr.active ∨ c.spr.waiting ∨
          s.moving q seq (fun _ => true) ∨ (s.reqsOf q seq).isEmpty = false then s
      else if c.spr.combined = false then s.openPhase c
      else match nextPhase (s.mouldOf c).image c.spr with
        | none => ((s.cmdSlices q seq).foldl State.unfillSlice s).cmdDone q seq 0
        | some spr =>
          let s := s.updCmd q seq (fun c => { c with spr := spr })
          match s.cmd? q seq with
          | some c => s.openPhase c
          | none => s)

/-- CONFIG_LOAD_DONE (R120, R103, R121): the configuration, read from the mould store, stands in the cells and is valid on all four
islands, resident allocations are filled, the first tile is dispatched; with an uncorrectable word, or a line of the store that cannot
be read, the load fails on this slice. Log 67 (DESIGN CHOICE). -/
def execConfigLoadDone (slice : Nat) (badWord : Bool) (s : State) : Answer :=
  onUnit (decide (slice < 32)) (
    let x := s.atSlice slice
    match x.loading, x.cmd with
    | true, some (q, seq) =>
      match s.cmd? q seq with
      | none => s.updSlice slice (fun x => { x with loading := false, cfg := none })
      | some c =>
        let e := s.mouldOf c
        match (if badWord then (s, none) else match e.start with
            | some a => s.cfgRead c.part a e.image.length
            | none => (s, none)) with
        | (s, none) => (s.cfgBad slice (sliceIsland slice 0)).mouldRej c.ctx 0x15 (dMould c.desc) true slice
        | (s, some b) =>
          let s := s.loadCells slice b
          let s := (s.updSlice slice (fun x => { x with loading := false })).cfgValid slice true
          (s.resFill c slice).feed slice
    | true, none => s.updSlice slice (fun x => { x with loading := false, cfg := none })
    | _, _ => s)

/-! ### Boundaries and replay -/

/-- Request a tile-round boundary of a command (R133): the spreader stops handing out tiles, after the phase when it is
ATOMIC (R134). -/
def State.askBoundary (s : State) (q seq : Nat) : State := s.updCmd q seq (fun c => { c with boundary := true })

/-- Whether the phase of a cursor has completed, its combine step too, and the next one has not started. -/
def Spread.between (spr : Spread) : Bool := !spr.active && spr.combined

/-- The replay point (R137): the start of the earliest phase that had not completed. Log 74 (DESIGN CHOICE). -/
def replayPoint (spr : Spread) : Spread := { phase := spr.phase, iter := spr.iter, bar := spr.bar, combined := spr.between }

/-- A command goes back to its replay point; the warnings of the abandoned run are forgotten (R53, R137). Log 61 (DESIGN CHOICE). -/
def Cmd.toReplay (c : Cmd) : Cmd := { c with spr := replayPoint c.spr, warn := if c.spr.active then c.spr.warn else c.warn }

/-- Whether a phase of a command is changing: every tile has ended and the combine step or the exchange has not. -/
def State.phaseChanging (s : State) (c : Cmd) : Bool :=
  c.spr.waiting || (c.spr.active && dOp c.desc == 1 && decide ((s.boxOf c).count ≤ c.spr.done))

/-- Whether a command stands at a boundary: no slice of it holds a tile and its movers are idle; during a phase change the boundary
is the phase's (R100, R132, R136). Log 75 (DESIGN CHOICE). -/
def State.atBoundary (s : State) (c : Cmd) : Bool :=
  ((s.cmdSlices c.q c.seq).all (fun n => (s.atSlice n).tile.isNone && s.quiet n)) && !s.moving c.q c.seq (fun _ => true) &&
    !s.phaseChanging c

/-- Hold a command for tasting or a rerun: it stops everywhere and goes back to its replay point (R447, R453).
Log 61 (DESIGN CHOICE), 74 (DESIGN CHOICE). -/
def State.holdCmd (s : State) (q seq : Nat) : State :=
  (s.flushCmd q seq).updCmd q seq (fun c => { c.toReplay with
    held := true, boundary := false, issued := false, got := 0, asked := 0, buf := [] })

end Sys2Proof.Machine
end

