-- ==== Sys2Proof/Machine/Sched.lean ====
section
/-! DEFINITION. Scheduling and preemption (R266-R289): save records, giving slices to contexts and taking them away, the
device scheduler's decisions, host run lists, boundaries reached. -/

namespace Sys2Proof.Machine

open Sys2Proof

/-! ### Save records (R278, R279, R284) -/

/-- Bytes of a save record: scratchpads, share, control block. -/
def saveSpad : Nat := 32 * 2 ^ 20
def saveCtl : Nat := 40 * 2 ^ 20
/-- Log 138 (DESIGN CHOICE). -/
def saveRecord : Nat := 42 * 2 ^ 20

/-- The seal of a context's save key on a line. -/
def State.saveSeal (s : State) (ctx dpa : Nat) : Seal := ⟨2 + 1, ctx, Tab.get 0 s.sec.saveKey ctx, dpa / 256⟩

/-- Write lines of a save record under the save key. -/
def State.saveWrite (s : State) (ctx dpa : Nat) (b : Bytes) : State :=
  (List.range (b.length / 256)).foldl (fun s i =>
    let a := dpa + 256 * i
    match s.place a with
    | some p => ((s.setBufs p.chan ((s.bufs p.chan).filter (fun x => decide (x.cl ≠ p.cl)))).storeLine p.chan p.cl
        (s.saveSeal ctx a) (sliceBytes b (256 * i) 256)).markBlock a
    | none => s) s

/-- Read lines of a save record; a buffer of a line is written back first, since each access passes the narrow access path (R149). The
first failure, if any, stands beside the bytes. -/
def State.saveRead (s : State) (ctx dpa : Nat) : Nat → State × Bytes × Option LineRes
  | 0 => (s, [], none)
  | n + 1 => match s.place dpa with
    | none => (s, [], some .uncorr)
    | some p => match ((s.flushChan p.chan (fun b => b.cl == p.cl)).1).fetchLine p.chan p.cl (s.saveSeal ctx dpa) 3 with
      | (s, .ok d) => let (s, b, e) := State.saveRead s ctx (dpa + 256) n; (s, d ++ b, e)
      | (s, e) => (s, [], some e)

/-! ### Contexts under the scheduler -/

/-- Whether a function of R464 runs in host-assisted mode. Log 212 (DESIGN CHOICE). -/
def State.hostMode (s : State) (b : Nat) : Bool := bitOf (s.get spltPg SPLT_MODE_STAT_EFFECTIVE) b

/-- Partition of a context. -/
def State.partOf (s : State) (x : Nat) : Nat := s.get (ctxPg x) CTX_STAT_PARTITION

/-- Started, unresolved COMPUTE commands of a context. -/
def State.computesOf (s : State) (x : Nat) : List Cmd := (s.startedOf x).filter (fun c => dOp c.desc == 1)

/-- Slices of one kind that a context holds. -/
def State.held (s : State) (x : Nat) (rt : Bool) : List Nat := (s.ctxSlices x).filter (fun n => s.reserved n == rt)

/-- Effective priority and effective slice limit (R269). -/
def State.prioOf (s : State) (x : Nat) : Nat :=
  min (s.get (ctxPg x) CTX_SCHED_PRIORITY) (s.get (partPg (s.partOf x)) PART_SCHED_CTL_PRIO_MAX)
def State.sliceLimit (s : State) (x : Nat) : Nat :=
  min (max 1 (min 32 (s.get (ctxPg x) CTX_SCHED_SLICES_MAX))) (s.get (ctxPg x) CTX_SAVE_CTL_SLOTS)

/-- QUANTUM in µs, within its limits. -/
def State.quantumOf (s : State) (x : Nat) : Nat := max 100 (min 100000 (s.get (ctxPg x) CTX_QUANTUM_QUANTUM))

/-- Whether a command has tiles that are not handed out: its phase is still to open, or tiles of it are left. -/
def State.tilesLeft (s : State) (c : Cmd) : Bool :=
  s.runs c && (!c.spr.active || decide (c.spr.next < (s.boxOf c).count))

/-- Whether a context waits for slices (R269): it holds fewer than its limit and a started command of it has tiles that
its slices have not taken. Log 136 (DESIGN CHOICE). -/
def State.wants (s : State) (x : Nat) (rt : Bool) : Bool :=
  s.ctxState x == 1 && decide ((s.ctxSlices x).length < s.sliceLimit x) && (s.atCtx x).tq.isNone &&
    (s.computesOf x).any (fun c => s.realTime c == rt && s.tilesLeft c)

/-- Bring CTX_SCHED_STAT and CTX_RUN up to date. -/
def State.schedStat (s : State) (x : Nat) : State :=
  let n := (s.ctxSlices x).length
  let run := if n ≠ 0 then 2 else if (s.atCtx x).saved.isSome then 3 else if s.wants x false || s.wants x true then 1 else 0
  (s.set (ctxPg x) CTX_SCHED_STAT_RUN run).set (ctxPg x) CTX_SCHED_STAT_SLICES n

/-- Count the slice time that a context has held since it was last counted. -/
def State.account (s : State) (x : Nat) : State :=
  let n := (s.ctxSlices x).length
  let s := s.bump64 (ctxPg x + CTX_RUN) (n * (s.mclk - (s.atCtx x).since))
  s.updCtx x (fun c => { c with since := s.mclk })

/-- First byte of the save record of rank `r` of a context (R276, R277). -/
def State.recordAt (s : State) (x r : Nat) : Nat :=
  s.regBase (s.get (partPg (s.partOf x)) PART_SAVE_REGION_REGION) + (s.get (ctxPg x) CTX_SAVE_CTL_BASE + r) * saveRecord

/-! ### Resident tiles follow the slices (R127, R247, R283) -/

/-- Started commands of a context whose mould keeps resident tiles. -/
def State.residentsOf (s : State) (x : Nat) : List Cmd := (s.computesOf x).filter (fun c => hasResident (s.mouldOf c).image)

/-- Write the RESIDENT_RW allocations of the slices in `which` back to their home arguments; answers the commands of which a
write failed. Log 124 (DESIGN CHOICE). -/
def State.residentsHome (s : State) (x : Nat) (which : Nat → Bool) : State :=
  (s.residentsOf x).foldl (fun s c =>
    let pool := s.poolOf c
    (List.range pool.length).foldl (fun s k =>
      let n := pool.getD k 0
      if which n && (s.atSlice n).cfg == some (s.cfgOf c) && !(s.atSlice n).loading then
        match s.resWriteBack c n k pool.length with
        | (s, true) => s
        | (s, false) => s.breakCmd c.q c.seq codeMemUncorrectable 3 n
      else s) s) s

/-- Fill the resident allocations of every loaded slice for the binding as it now is. Log 139 (DESIGN CHOICE). -/
def State.residentsFill (s : State) (x : Nat) : State :=
  (s.residentsOf x).foldl (fun s c => (s.poolOf c).foldl (fun s n =>
    if (s.atSlice n).cfg == some (s.cfgOf c) && !(s.atSlice n).loading then s.resFill c n else s) s) s

/-- Change a context's slices; resident tiles move by way of their home arguments. -/
def State.rebind_ (s : State) (x : Nat) (f : State → State) : State :=
  if (s.residentsOf x).isEmpty then f s else (f (s.residentsHome x (fun _ => true))).residentsFill x

/-- Whether a context's slices may change now: no command with resident tiles stands between two boundaries (R132). -/
def State.canRebind (s : State) (x : Nat) : Bool := (s.residentsOf x).all (fun c => !c.spr.active || s.atBoundary c)

/-! ### Giving and taking slices (R280-R283) -/

/-- Scrub a slice for a context that starts afresh on it; a configuration without resident allocations stays (R120,
R282). -/
def State.freshSlice (s : State) (n : Nat) : State :=
  let x := s.atSlice n
  let keep := match x.cfg with
    | some (p, i, ser) => let e := s.atMould (p * 64 + i); e.serial == ser && !hasResident e.image && !x.loading
    | none => false
  if keep then
    ({ s with spad := s.spad.filter (fun e => !inSlice n (e.1 / 32768)), share := Memory.clear s.share (n * 2 ^ 23) ((n + 1) * 2 ^ 23) }).clearSlice n
  else s.scrubSlice n

/-- A context that held no unreserved slice starts its quantum, shortened by its pending charge (R270, R274). -/
def State.startQuantum (s : State) (x : Nat) : State :=
  let q := s.quantumOf x
  let c := s.get (ctxPg x) CTX_CHARGE_CHARGE
  (s.set (ctxPg x) CTX_CHARGE_CHARGE 0).updCtx x (fun e => { e with quantum := some s.mclk, qlen := (q - c) * 100 })

/-- Count a switch whose slices have been handed over (R280). -/
def State.countSwitch (s : State) (p : Nat) : State :=
  if (s.atPart p).switching then
    (s.bump (partPg p + PART_SWITCH_CNT) 1).updPart p (fun e => { e with switching := false })
  else s

/-- Give free slices to a context that has no saved state. -/
def State.give (s : State) (x : Nat) (l : List Nat) : State :=
  if l.isEmpty then s
  else
    let s := s.account x
    let s := if (s.held x false).isEmpty ∧ l.any (fun n => !s.reserved n) then s.startQuantum x else s
    let s := s.rebind_ x (fun s => l.foldl (fun s n =>
      (s.freshSlice n).updSlice n (fun y => { y with ctx := some x, cmd := none, tile := none })) s)
    ((s.countSwitch (s.partOf x)).feedCtx x).schedStat x

/-- Give a saved context the slices it needs (R280 steps 5 and 6, R283): each gets the configuration of its rank and its
record comes back. Log 139 (DESIGN CHOICE). -/
def State.resume (s : State) (x : Nat) (cfgs : List (Option (Nat × Nat × Nat))) (l : List Nat) : State :=
  let s := (s.account x).startQuantum x
  let B := cfgs.length
  let s := (List.range B).foldl (fun s r =>
    let n := l.getD r 0
    let s := s.scrubSlice n
    let cfg := cfgs.getD r none
    let img := match cfg with
      | some (p, i, ser) => if (s.atMould (p * 64 + i)).serial = ser then some (s.atMould (p * 64 + i)).image else none
      | none => none
    let s := match img with
      | some m => ((s.loadCells n m).updSlice n (fun y => { y with
          cfg := cfg, resident := (List.range (resTiles m)).filter (fun t => t % B == r) })).cfgValid n true
      | none => s
    let s := s.updSlice n (fun y => { y with ctx := some x, cmd := none, tile := none })
    let m := n % 4 * 4
    s.setMover (n / 4) m (s.moverQueue (n / 4) m ++ [{ op := 7, ctx := x, share := n, addr := s.recordAt x r, route := 4096 }])) s
  ((s.updCtx x (fun e => { e with saved := none })).countSwitch (s.partOf x)).schedStat x

/-- Bytes of an argument's resident tiles as a save record holds them: the scratchpad lines of the slice's cells. -/
def State.recordLines (s : State) (x r : Nat) (lines : List (Nat × Nat)) : State × Option Bytes :=
  lines.foldl (fun (a : State × Option Bytes) p => match a with
    | (s, none) => (s, none)
    | (s, some b) =>
      let off := relOf (p.1 % 4096) * 32768 + p.2 * 64
      match s.saveRead x (s.recordAt x r + off / 256 * 256) 1 with
      | (s, d, none) => (s, some (b ++ sliceBytes d (off % 256) 64))
      | (s, _, some _) => (s, none)) (s, some [])

/-- A context that can no longer have COUNT slices (R283): the RESIDENT_RW allocations go from its records to their home
arguments, and it resumes afresh over the slices there are. Log 139 (DESIGN CHOICE). -/
def State.resumeFewer (s : State) (x : Nat) (cfgs : List (Option (Nat × Nat × Nat))) (l : List Nat) : State :=
  let B := cfgs.length
  let s := (s.residentsOf x).foldl (fun s c =>
    let m := (s.mouldOf c).image
    (List.range B).foldl (fun s r =>
      if cfgs.getD r none ≠ some (s.cfgOf c) then s
      else (resArgs m true).foldl (fun s a =>
        let g := c.argRange a
        let size := max 1 (((argsOf m).getD a ⟨0, 0, 0, 0, 0, 0, 0, 0, 0⟩).bytes / max 1 (resTiles m))
        match s.recordLines x r (resLines m 0 a true) with
        | (s, none) => s.breakCmd c.q c.seq codeMemUncorrectable 4 c.q
        | (s, some b) =>
          let held := resHeld m 0 a r B
          (List.range held.length).foldl (fun s i =>
            s.rangeWrite c g (held.getD i 0 * size) (sliceBytes b (i * size) size)) s) s) s) s
  (s.updCtx x (fun e => { e with saved := none })).give x l

/-- The control block of a save record (R279); the entries of the commands `lost`, whose data the save found lost, have STATE 1
(R284). Log 138 (DESIGN CHOICE). -/
def State.controlBlock (s : State) (x n r count : Nat) (lost : List (Nat × Nat)) : Bytes :=
  let cs := (s.computesOf x).take 64
  let entry := fun (c : Cmd) =>
    leBytes 2 c.q ++ leBytes 1 (dMould c.desc) ++ leBytes 1 c.spr.phase ++ leBytes 4 c.seq ++ leBytes 2 c.spr.iter ++
      leBytes 1 (if lost.contains (c.q, c.seq) then 1 else 0) ++ leBytes 1 0 ++ leBytes 4 c.spr.next ++
      leBytes 4 (match s.nextTile c n with
        | some (l, _) => l
        | none => (s.boxOf c).count) ++ leBytes 12 0
  sliceBytes (leBytes 2 1 ++ leBytes 1 r ++ leBytes 1 count ++ leBytes 2 x ++ leBytes 1 (s.ctxGen x) ++
    leBytes 1 cs.length ++ leBytes 8 s.mclk ++ leBytes 48 0 ++ cs.flatMap entry) 0 4096

/-- A slice leaves its context: registers, accumulators and channels cleared (R280 step 4). -/
def State.release (s : State) (n : Nat) : State :=
  match (s.atSlice n).ctx with
  | none => s
  | some x =>
    let s := s.account x
    let s := ((s.unfillSlice n).clearSlice n).updSlice n (fun y => { y with ctx := none, cmd := none, tile := none, cycles := 0 })
    let s := if (s.held x false).isEmpty then s.updCtx x (fun e => { e with quantum := none }) else s
    s.schedStat x

/-- Whether a context has live state on its slices (R282): a command in the middle, at a boundary after its first phase too, or a mould
with resident allocations. -/
def State.live (s : State) (x : Nat) (l : List Nat) : Bool :=
  (s.computesOf x).any (fun c => c.spr.active || c.spr.combined || c.spr.phase != 0 || c.spr.iter != 0) ||
    l.any (fun n => match (s.atSlice n).cfg with
      | some (p, i, ser) => let e := s.atMould (p * 64 + i); e.serial == ser && hasResident e.image
      | none => false)

/-- A context gives up its slices of one kind at a boundary (R280 steps 2 to 4, R282): with live state each is saved first
and leaves when its SAVE completes, else it is free at once. -/
def State.vacate (s : State) (x : Nat) (rt : Bool) : State :=
  let l := s.held x rt
  let s := s.updPart (s.partOf x) (fun e => { e with switching := true })
  let s := l.foldl (fun s n => (s.unfillSlice n).updSlice n (fun y => { y with cmd := none })) s
  if l.isEmpty then s
  else if s.live x l then
    let s := s.updCtx x (fun e => { e with saved := some (l.map (fun n => (s.atSlice n).cfg)) })
    (List.range l.length).foldl (fun s r =>
      let n := l.getD r 0
      let s := s.saveWrite x (s.recordAt x r + saveCtl) (s.controlBlock x n r l.length [])
      let m := n % 4 * 4
      s.setMover (n / 4) m (s.moverQueue (n / 4) m ++ [{ op := 6, ctx := x, share := n, addr := s.recordAt x r, route := 4096 }])) s
  else l.foldl (fun s n => s.release n) s

/-! ### The decisions of the device scheduler (R269-R272) -/

/-- Slices of a partition of one kind that the scheduler may use. Log 135 (DESIGN CHOICE). -/
def State.usable (s : State) (p : Nat) (rt : Bool) : List Nat :=
  (s.partSlices p).filter (fun n => s.reserved n == rt && !(s.atSlice n).leaving && s.capState 1 n == 1)

/-- Those that no context holds. Log 135 (DESIGN CHOICE). -/
def State.freeSlices (s : State) (p : Nat) (rt : Bool) : List Nat :=
  (s.usable p rt).filter (fun n => (s.atSlice n).ctx.isNone && !(s.atSlice n).stopped && !s.sliceMoving n)

/-- Request preemption of a context (R273, R274): a boundary of each of its started commands. -/
def State.preempt (s : State) (x : Nat) : State :=
  let s := s.updCtx x (fun e => { e with tq := if e.tq.isSome then e.tq else some s.mclk })
  (s.computesOf x).foldl (fun s c => if s.realTime c then s else s.askBoundary c.q c.seq) s

/-- Waiting contexts in the order they are served: priority, then round robin after the one served last. Log 136 (DESIGN CHOICE). -/
def State.serveOrder (s : State) (p : Nat) : List Nat :=
  let rank := fun x => (7 - s.prioOf x) * 1024 + (x + 1023 - Tab.get 1023 (s.atPart p).last (s.prioOf x)) % 1024
  ((s.partCtxs p).filter (fun x => s.wants x false)).mergeSort (fun x y => decide (rank x ≤ rank y))

/-- Serve waiting contexts with free unreserved slices; a saved one at the head keeps slices until it has its COUNT. -/
def State.serveWaiting (s : State) (p : Nat) : List Nat → State
  | [] => s
  | x :: rest =>
    let free := s.freeSlices p false
    let charge := s.get (ctxPg x) CTX_CHARGE_CHARGE
    if free.isEmpty then s
    else if (s.held x false).isEmpty ∧ s.quantumOf x < charge then
      State.serveWaiting (s.set (ctxPg x) CTX_CHARGE_CHARGE (charge - s.quantumOf x)) p rest
    else
      let mark := fun (s : State) => s.updPart p (fun e => { e with last := Tab.put 1023 (s.prioOf x) x e.last })
      match (s.atCtx x).saved with
      | some cfgs =>
        let cap := (s.usable p false).length
        if cfgs.length ≤ free.length then State.serveWaiting (mark (s.resume x cfgs (free.take cfgs.length))) p rest
        else if cap < cfgs.length ∧ free.length = cap then State.serveWaiting (mark (s.resumeFewer x cfgs free)) p rest
        else s
      | none =>
        if s.canRebind x = false then
          State.serveWaiting ((s.residentsOf x).foldl (fun s c => s.askBoundary c.q c.seq) s) p rest
        else State.serveWaiting (mark (s.give x (free.take (s.sliceLimit x - (s.ctxSlices x).length)))) p rest

/-- Reserved slices go to real-time contexts in the order their commands became ready (R272). -/
def State.serveRt (s : State) (p : Nat) : State :=
  let xs := (((s.allCmds.filter (fun c => c.part == p && s.realTime c && dOp c.desc == 1 && s.tilesLeft c)).mergeSort
    (fun a b => decide (a.startNo ≤ b.startNo))).map (·.ctx)).eraseDups
  xs.foldl (fun s x =>
    if s.wants x true = false then s
    else
      let free := s.freeSlices p true
      match (s.atCtx x).saved with
      | some cfgs => if cfgs.length ≤ free.length then s.resume x cfgs (free.take cfgs.length) else s
      | none => s.give x (free.take (s.sliceLimit x - (s.ctxSlices x).length))) s

/-- Contexts that hold slices of a kind without a started command for them give them up (R268, R272). -/
def State.yieldIdle (s : State) (p : Nat) (rt : Bool) : State :=
  (s.partCtxs p).foldl (fun s x =>
    if (s.held x rt).isEmpty ∨ (s.computesOf x).any (fun c => s.realTime c == rt) ∨ (s.held x rt).any (fun n => s.sliceMoving n) then s
    else s.vacate x rt) s

/-- A waiting context of higher priority preempts the running one of lowest priority at once; among equals the one whose
quantum started latest (R270). -/
def State.preemptLower (s : State) (p : Nat) : State :=
  let ws := s.serveOrder p
  let running := (s.partCtxs p).filter (fun x => !(s.held x false).isEmpty)
  match ws with
  | [] => s
  | w :: _ =>
    if running.any (fun x => (s.atCtx x).tq.isSome || (s.held x false).any (fun n => s.sliceMoving n)) then s
    else
      let key := fun x => s.prioOf x * 2 ^ 64 + (2 ^ 64 - 1 - ((s.atCtx x).quantum.getD 0) % 2 ^ 64)
      match (running.filter (fun x => decide (s.prioOf x < s.prioOf w))).mergeSort (fun x y => decide (key x ≤ key y)) with
      | [] => s
      | v :: _ => s.preempt v

/-! ### Host run lists (R286-R289) -/

/-- Entries of the group that begins at entry `i`. -/
def groupFrom (l : List (Nat × Nat × Nat × Nat)) (i : Nat) : List Nat :=
  i :: (((List.range l.length).drop (i + 1)).takeWhile (fun j => bitOf (l.getD j (0, 0, 0, 0)).2.1 1))

/-- Whether a context has neither a started command nor one still to start. -/
def State.idleCtx (s : State) (x : Nat) : Bool := (s.allCmds.filter (fun c => c.ctx == x && !c.work && dOp c.desc == 1)).isEmpty

/-- Start the entries of a group: slices bound, unreserved and not given to an earlier entry; an entry whose context is not ACTIVE, or
is idle without HOLD, has ended. The context's CHARGE shortens the entry; one larger than its DURATION makes it pass (R274). -/
def State.startEntry (s : State) (p j : Nat) : State :=
  let e := (s.atPart p).list.getD j (0, 0, 0, 0)
  let x := e.1 % 1024
  if s.ctxState x ≠ 1 ∨ s.partOf x ≠ p ∨ (bitOf e.2.1 0 = false ∧ s.idleCtx x) then
    s.updPart p (fun y => { y with ended := y.ended ++ [j] })
  else
    let free := ((s.freeSlices p false).filter (fun n => bitOf e.2.2.1 n)).take (s.sliceLimit x)
    let dur := max 100 (min 100000 e.2.2.2)
    let charge := s.get (ctxPg x) CTX_CHARGE_CHARGE
    if dur < charge then
      (s.set (ctxPg x) CTX_CHARGE_CHARGE (charge - dur)).updPart p (fun y => { y with ended := y.ended ++ [j] })
    else
      let s := match (s.atCtx x).saved with
        | some cfgs => if cfgs.length ≤ free.length then s.resume x cfgs (free.take cfgs.length)
            else if (s.usable p false).length < cfgs.length then s.resumeFewer x cfgs free else s
        | none => s.give x free
      (s.set (ctxPg x) CTX_CHARGE_CHARGE 0).updCtx x (fun y => { y with quantum := some s.mclk, qlen := (dur - charge) * 100 })

/-- The next group begins once every entry of the present one has ended and its slices are free; a list read by a SWAP
takes over at its entry 0. -/
def State.nextGroup : Nat → State → Nat → State
  | 0, s, _ => s
  | fuel + 1, s, p =>
    let e := s.atPart p
    let busy := (s.usable p false).any (fun n => (s.atSlice n).ctx.isSome)
    if busy ∨ e.group.any (fun j => !e.ended.contains j) then s
    else
      let l := e.fresh.getD e.list
      if l.isEmpty then s
      else
        let i := if e.fresh.isSome ∨ e.group.isEmpty then 0 else (e.group.foldl max 0 + 1) % l.length
        let g := groupFrom l i
        let s := s.updPart p (fun y => { y with list := l, fresh := none, group := g, ended := [] })
        let s := s.set (partPg p) PART_RL_CTL_CUR_ENTRY i
        State.nextGroup fuel (g.foldl (fun s j => s.startEntry p j) s) p

/-- An entry of the running group ends: its context is preempted, or gives up its slices when it is idle (R288). -/
def State.endEntry (s : State) (p j : Nat) : State :=
  let e := s.atPart p
  if e.group.contains j = false ∨ e.ended.contains j then s
  else
    let x := (e.list.getD j (0, 0, 0, 0)).1 % 1024
    let s := s.updPart p (fun y => { y with ended := y.ended ++ [j] })
    if (s.held x false).isEmpty then s
    else if (s.computesOf x).any (fun c => !s.realTime c) then s.preempt x
    else s.vacate x false

/-- Entries without HOLD whose context has gone idle end early, and so does an entry whose context is no longer ACTIVE (R288). -/
def State.endIdle (s : State) (p : Nat) : State :=
  let e := s.atPart p
  e.group.foldl (fun s j =>
    let x := e.list.getD j (0, 0, 0, 0)
    if s.ctxState (x.1 % 1024) ≠ 1 ∨ (bitOf x.2.1 0 = false ∧ s.idleCtx (x.1 % 1024)) then s.endEntry p j else s) s

/-- The scheduler's decision for a partition (R269, R272, R286). Log 135 (DESIGN CHOICE). -/
def State.schedule (s : State) (p : Nat) : State :=
  let s := (s.yieldIdle p true).serveRt p
  if s.hostMode 1 then State.nextGroup ((s.atPart p).list.length + 1) (s.endIdle p) p
  else
    let s := s.serveWaiting p (s.serveOrder p)
    let s := if (s.serveOrder p).isEmpty then s else let t := s.yieldIdle p false; t.serveWaiting p (t.serveOrder p)
    let s := s.preemptLower p
    (s.partCtxs p).foldl (fun s x => if s.ctxState x = 0 then s else s.schedStat x) s

/-- The decision for a context's partition. -/
def State.scheduleFor (s : State) (x : Nat) : State := s.schedule (s.partOf x)

/-! ### Boundaries reached -/

/-- The overrun of a preemption in µs goes into CHARGE (R274). Log 137 (DESIGN CHOICE). -/
def State.chargeOverrun (s : State) (x : Nat) : State :=
  match (s.atCtx x).tq with
  | none => s
  | some t =>
    let late := (s.mclk - t) / 100
    let s := if s.mclk = t then s else
      (s.set (ctxPg x) CTX_CHARGE_CHARGE (satAdd (2 ^ 20 - 1) (s.get (ctxPg x) CTX_CHARGE_CHARGE) late)).bump
        (ctxPg x + CTX_OVERRUN_CNT) 1
    s.updCtx x (fun e => { e with tq := none })

/-- A context whose commands all stand at a boundary after a preemption request leaves its slices (R271, R280). -/
def State.preempted (s : State) (x : Nat) : State :=
  let cs := (s.computesOf x).filter (fun c => !s.realTime c)
  if (s.atCtx x).tq.isNone ∨ cs.any (fun c => s.noBoundary c || !s.atBoundary c) then s
  else
    let s := s.chargeOverrun x
    let s := cs.foldl (fun s c => s.updCmd c.q c.seq (fun d => { d with boundary := false })) s
    (s.vacate x false).scheduleFor x

/-- A binding change of the partition that waits for this command's boundary learns of it (R136, R245): answers whether the
command stays stopped for it. Log 75 (DESIGN CHOICE). -/
def State.rebindHears (s : State) (c : Cmd) : State × Bool :=
  let rb := s.atRebind c.part
  if rb.op = 1 ∧ rb.step = 3 then (s, rb.waitFor.contains (c.q, c.seq))
  else if rb.op = 1 then
    (s.setAllGates.updRebind c.part (fun r => { r with waitFor := r.waitFor.erase (c.q, c.seq) }), false)
  else (s, false)

/-- Break a command that was to break at its preemption point (R221, R225, R399, R456): answers to its requests change nothing
any more, and under FORCE it is resolved at that moment. -/
def State.stopNow (s : State) (c : Cmd) : State :=
  let d := if c.stop = codePredecessorBroken then c.detail else 0
  let code := c.stop
  let s := ((s.flushCmd c.q c.seq).forgetReqs c.q c.seq).updCmd c.q c.seq (fun c => ({ c with detail := 0, boundary := false }).breakWith code 4 c.q d)
  match s.cmd? c.q c.seq with
  | some c => if code = codeKeyRetired ∨ code = codeObjectFreed then (s.outOfTurn c).holdsFree c else s
  | none => s

/-- BOUNDARY_REACHED (R133-R136, R221, R269, R280): every slice of the command is quiescent at a tile-round boundary; a
command that is to break breaks, a binding change goes first, a preempted context leaves its slices, and otherwise the
spreader goes on. -/
def execBoundaryReached (q seq : Nat) (s : State) : Answer :=
  onUnit (decide (q < 4096)) (
    match s.cmd? q seq with
    | none => s
    | some c =>
      if c.work ∨ c.started = false ∨ (c.boundary = false ∧ c.stop = 0) ∨ s.noBoundary c ∨ s.atBoundary c = false then s
      else if c.stop ≠ 0 then (s.stopNow c).scheduleFor c.ctx
      else match s.rebindHears c with
        | (s, true) => s
        | (s, false) =>
          if (s.atCtx c.ctx).tq.isSome then s.preempted c.ctx
          else ((s.updCmd q seq (fun d => { d with boundary := false })).scheduleFor c.ctx).feedCtx c.ctx)

/-- QUANTUM_EXPIRE (R270): with a waiting context of equal or higher priority the context is preempted, else its quantum
starts again. Log 137 (DESIGN CHOICE). -/
def execQuantumExpire (ctx : Nat) (s : State) : Answer :=
  onUnit (decide (ctx < 1024)) (
    if (s.held ctx false).isEmpty ∨ (s.atCtx ctx).tq.isSome ∨ s.hostMode 1 then s
    else
      let p := s.partOf ctx
      if (s.partCtxs p).any (fun x => x != ctx && s.wants x false && decide (s.prioOf ctx ≤ s.prioOf x)) then
        (s.preempt ctx).preempted ctx
      else s.updCtx ctx (fun e => { e with quantum := some s.mclk, qlen := s.quantumOf ctx * 100 }))

/-! ### Registers of the scheduler -/

/-- Enabled queues of a partition. -/
def State.enabledQues (s : State) (p : Nat) : List Nat := (s.partQues p).filter (fun q => s.on (quePg q) QUE_STAT_ENABLED)

/-- A write of PART_RT_MASK (R267): refused for a slice that is not bound, and for clearing every bit while a real-time
queue is enabled; a cleared slice stays reserved until the real-time command on it resolves. -/
def State.rtMaskWrite (s : State) (p v : Nat) : State × Bool :=
  let pg := partPg p
  let rt := (s.enabledQues p).any (fun q => s.get (quePg q) QUE_CTL_CLASS == 1)
  if (onesBelow 32 v).any (fun n => !bitOf (s.rd (pg + PART_SLICES)) n) then (s.set pg PART_STAT_LAST_RESULT 0x01, false)
  else if v = 0 ∧ s.rd (pg + PART_RT_MASK) ≠ 0 ∧ rt then (s.set pg PART_STAT_LAST_RESULT 0x14, false)
  else
    let gone := (onesBelow 32 (s.rd (pg + PART_RT_MASK))).filter (fun n => !bitOf v n)
    let busy := gone.filter (fun n => match (s.atSlice n).cmd with
      | some (q, seq) => match s.cmd? q seq with
        | some c => s.realTime c && !c.work
        | none => false
      | none => false)
    let s := busy.foldl (fun s n => s.updSlice n (fun y => { y with rtHold := true })) s
    ((s.wr (pg + PART_RT_MASK) v).schedule p, true)

/-- SWAP (R289): the device reads the list; ignored while a read runs. -/
def State.runListSwap (s : State) (p : Nat) : State :=
  let pg := partPg p
  if s.on pg PART_RL_CTL_SWAP_BUSY then s
  else
    let n := max 1 (min 4096 (s.get pg PART_RL_COUNT_COUNT))
    (s.set pg PART_RL_CTL_SWAP_BUSY 1).emit (.hostRead 0 (s.rd64 (pg + PART_RL_BASE)) (16 * n) false)

/-- RUN_LIST_READ_DONE (R289): SWAP_BUSY clears; a list read waits for the end of the current group, a failed read leaves
the old one and sets RL_ERR. -/
def execRunListReadDone (part : Nat) (ok : Bool) (list : Bytes) (s : State) : Answer :=
  onUnit (decide (part < 32)) (
    let pg := partPg part
    if s.on pg PART_RL_CTL_SWAP_BUSY = false then s
    else
      let s := s.set pg PART_RL_CTL_SWAP_BUSY 0
      if ok = false then s.set pg PART_RL_CTL_RL_ERR 1
      else
        let n := max 1 (min 4096 (s.get pg PART_RL_COUNT_COUNT))
        let l := (List.range n).map (fun i => (leAt list (16 * i) 2 % 1024, leAt list (16 * i + 2) 1, leAt list (16 * i + 4) 4,
          leAt list (16 * i + 8) 4))
        let s := s.updPart part (fun y => { y with fresh := some l })
        (s.set pg PART_RL_CTL_LOADED 1).schedule part)

/-- RUN_LIST_ENTRY_END (R288): the entry's duration has run, or its context is idle without HOLD; the next group starts
when every entry of this one has ended. -/
def execRunListEntryEnd (part entry : Nat) (s : State) : Answer :=
  onUnit (decide (part < 32) && decide (entry < 4096)) (
    if s.hostMode 1 then
      let s := s.endEntry part entry
      let x := ((s.atPart part).list.getD entry (0, 0, 0, 0)).1 % 1024
      (s.preempted x).schedule part
    else s)

/-- A change of scheduling mode (R289): every running context that is not real-time is preempted, and the new mode makes
the first decision. -/
def State.schedModeChange (s : State) : State :=
  (List.range 32).foldl (fun s p =>
    let s := s.updPart p (fun y => { y with group := [], ended := [] })
    let s := (s.partCtxs p).foldl (fun s x =>
      if s.ctxState x = 0 ∨ (s.held x false).isEmpty then s
      else if (s.computesOf x).any (fun c => !s.realTime c) then (s.preempt x).preempted x else s.vacate x false) s
    if s.get (partPg p) PART_STAT_STATE = 0 then s else s.schedule p) s

end Sys2Proof.Machine
end

