-- ==== Sys2Proof/Machine/Queues.lean ====
section
/-! DEFINITION. Contexts, queues, memory objects and event queues (R190-R198, R224-R228, R277, R532): activation, enabling and
disabling a queue, doorbells, fetched descriptors, halts, objects, consumed records. -/

namespace Sys2Proof.Machine

open Sys2Proof

/-! ### Contexts (R190, R277) -/

/-- First record and end of a context's save area. -/
def State.saveArea (s : State) (x : Nat) : Nat × Nat :=
  let b := s.get (ctxPg x) CTX_SAVE_CTL_BASE
  (b, b + s.get (ctxPg x) CTX_SAVE_CTL_SLOTS)

/-- Whether the save area of a context passes the checks of R277, PART_SAVE_REGION naming a region as R276 has it. -/
def State.saveOk (s : State) (p x : Nat) : Bool :=
  let r := s.get (partPg p) PART_SAVE_REGION_REGION
  let (a, b) := s.saveArea x
  decide (a < b) && s.on (partPg p) PART_SAVE_REGION_VALID && s.regValid r && s.regPart r == p && !s.cfgNamed p r && decide (b * saveRecord ≤ s.regBytes r) &&
    (s.partCtxs p).all (fun y => y == x || s.ctxState y == 0 ||
      decide ((s.saveArea y).2 ≤ a) || decide (b ≤ (s.saveArea y).1))

/-- ACTIVATE (R190): a FREE or QUIESCED slot of an ACTIVE partition becomes ACTIVE with a fresh save key (R278, R384), an
empty object table (R456) and GUILTY clear (R449). -/
def State.contextActivate (s : State) (x : Nat) : State :=
  match s.ctxPart x with
  | none => s
  | some p =>
    if (s.ctxState x ≠ 0 ∧ s.ctxState x ≠ 3) ∨ s.get (partPg p) PART_STAT_STATE ≠ 2 then s
    else if s.saveOk p x = false then s.set (ctxPg x) CTX_SCHED_STAT_SAVE_ERR 1
    else
      let n := s.sec.serial + 1
      let s := { s with sec := { s.sec with serial := n, saveKey := Tab.put 0 x n s.sec.saveKey },
                        objs := Tab.clear s.objs (x * 4096) (x * 4096 + 4096), ctxs := Tab.put {} x {} s.ctxs }
      ((s.set (ctxPg x) CTX_STAT_STATE 1).set (ctxPg x) CTX_STAT_PARTITION p).set (ctxPg x) CTX_RCV_STAT_GUILTY 0

/-! ### Queues -/

/-- log2 of a queue's ring size. -/
def State.queLog (s : State) (q : Nat) : Nat := ringLog (s.get (quePg q) QUE_CTL_SIZE_LOG2)

/-- Whether `len` bytes at a DVA of a context lie in one valid segment that grants `need` (1 read, 2 write). -/
def State.inSegment (s : State) (x dva len need : Nat) : Bool :=
  let e := s.seg x (dvaSeg dva)
  e.valid && decide (dvaOff dva + len ≤ e.limit) && (!bitOf need 0 || e.rd) && (!bitOf need 1 || e.wr)

/-- Whether a queue's ring, and its completion area, are where they must be (R193). -/
def State.ringOk (s : State) (q : Nat) : Bool :=
  s.inSegment (s.queCtx q) (s.rd64 (quePg q + QUE_RING) % 2 ^ 48) (128 * 2 ^ s.queLog q) 1
def State.cplOk (s : State) (q : Nat) : Bool :=
  s.rd64 (quePg q + QUE_CPL) == 0 ||
    s.inSegment (s.queCtx q) (s.rd64 (quePg q + QUE_CPL) % 2 ^ 48) (32 * 2 ^ s.queLog q) 2

/-- Record a queue error. -/
def State.queErr (s : State) (q reason : Nat) : State := s.set (quePg q) QUE_ERR_REASON reason

/-- Enable a queue after its checks, the first that fails being recorded (R193, R267): 0x09, 0x07, 0x08. Log 105 (DESIGN CHOICE). -/
def State.queueEnable (s : State) (q : Nat) : State :=
  let pg := quePg q
  let x := s.queCtx q
  if s.on pg QUE_STAT_ENABLED then s
  else if s.ctxState x ≠ 1 then s.queErr q 0x09
  else if s.ringOk q = false ∨ s.cplOk q = false then s.queErr q 0x07
  else if s.get pg QUE_CTL_CLASS = 1 ∧ s.rd (partPg (s.partOf x) + PART_RT_MASK) = 0 then s.queErr q 0x08
  else (s.set pg QUE_STAT_ENABLED 1).set pg QUE_CTL_ENABLE 1

/-- Whether a queue holds an accepted, unresolved command (R532); a refused one is resolved (R215). -/
def State.queueBusy (s : State) (q : Nat) : Bool := (s.cmdsOf q).any (fun c => !c.gone)

/-- Clear ENABLE (R532): counts return to 0, HALTED, LATCH and HELD clear, a descriptor at the head is dropped. -/
def State.queueDisable (s : State) (q : Nat) : State :=
  let pg := quePg q
  let s := { s with tails := Tab.put 0 q 0 s.tails, heads := Tab.put none q none s.heads, cmds := Tab.put [] q [] s.cmds,
                    latched := Tab.put [] q [] s.latched }
  (((s.wr (pg + QUE_STAT) 0).set pg QUE_CTL_ENABLE 0).wr (pg + QUE_HEAD) 0).wr (pg + QUE_SEQ) 0 |>.wr (pg + QUE_DONE) 0

/-- Halt a queue (R198, R209): HALTED, QUE_ERR, QUE_ERR_SEQ and the QUEUE_HALTED record. Log 105 (DESIGN CHOICE). -/
def State.queueHalt (s : State) (q reason seq : Nat) : State :=
  let pg := quePg q
  let s := ((s.set pg QUE_STAT_HALTED 1).queErr q reason).wr (pg + QUE_ERR_SEQ) seq
  s.event (s.queEvq q) 0x03 (s.ownerOf pg) (leBytes 2 q ++ leBytes 1 reason ++ leBytes 1 0 ++ leBytes 4 seq)

/-- RESTART (R198, R209): after a check of the completion area the queue goes on and fetches its head again. -/
def State.queueRestart (s : State) (q : Nat) : State :=
  if s.on (quePg q) QUE_STAT_HALTED = false then s
  else if s.cplOk q = false then s.queErr q 0x0A
  else { s.set (quePg q) QUE_STAT_HALTED 0 with heads := Tab.put none q none s.heads }

/-- A doorbell (R194): the tail moves forward, at most the ring ahead of the head; otherwise it is ignored and counted. -/
def State.doorbell (s : State) (q tail : Nat) : State :=
  let pg := quePg q
  let head := s.rd (pg + QUE_HEAD)
  let ahead := fun (v : Nat) => (v % 2 ^ 32 + 2 ^ 32 - head) % 2 ^ 32
  let old := (Tab.get 0 s.tails q).toNat
  if s.on pg QUE_STAT_ENABLED = false ∨ s.ctxState (s.queCtx q) ≠ 1 ∨ ahead tail < ahead old ∨ 2 ^ s.queLog q < ahead tail then
    s.errCount pg QUE_DB_ERR_CNT 1
  else { s with tails := Tab.put 0 q (BitVec.ofNat 32 tail) s.tails }

/-- Partition whose queue range holds a queue. -/
def State.quePart (s : State) (q : Nat) : Option Nat := s.rangeOwner PART_QUE_RANGE_BASE PART_QUE_RANGE_COUNT q

/-- Whether a fence's signalling queue is the local queue `q` (R198 reason 0x02). -/
def State.fenceOwned (s : State) (q f : Nat) : Bool :=
  (match s.quePart q with
    | some p => s.fenceIn p f
    | none => false) &&
    s.on (fenAt f) FEN_CTL_ENABLE && !s.on (fenAt f) FEN_CTL_REMOTE && s.get (fenAt f) FEN_CTL_QUEUE == q

/-- The fault of a descriptor that cannot be read as a command (R198), 0 when it has none. -/
def State.descFault (s : State) (q : Nat) (d : Bytes) : Nat :=
  let fenced := !dNoFence d
  let p := s.partOf (s.queCtx q)
  if 9 < dOp d then 0x01
  else if fenced ∧ s.fenceOwned q (dFence d) = false then 0x02
  else if fenced ∧ dValue d ≤ s.rd64 (fenTarget (dFence d)) then 0x03
  else if fenced ∧ (4 < dScope d ∨ (dScope d = 3 ∧ (s.liveSlots p).isEmpty)) then 0x05
  else if (dOp d = 1 ∧ 32 < dNargs d) ∨ (dOp d = 5 ∧ (leAt d 0x20 1 = 0 ∨ 4 < leAt d 0x20 1)) ∨
      (dOp d = 4 ∧ (8 < leAt d 0x38 1 ∨ 8 < leAt d 0x39 1)) then 0x06
  else 0

/-- Key index of a segment for requests of a queue (R172). -/
def State.segKey (s : State) (q : Nat) (e : SegEntry) : Nat := if e.qkey then s.get (quePg q) QUE_CTL_KEY else e.key

/-- Whether a queue may fetch (R193, R196): enabled, not halted, its context ACTIVE, no descriptor waiting, the tail ahead
of the head, fewer unresolved commands than slots. -/
def State.mayFetch (s : State) (q : Nat) : Bool :=
  let pg := quePg q
  s.on pg QUE_STAT_ENABLED && !s.on pg QUE_STAT_HALTED && s.ctxState (s.queCtx q) == 1 && (Tab.get none s.heads q).isNone &&
    s.rd (pg + QUE_HEAD) != (Tab.get 0 s.tails q).toNat &&
    decide ((s.rd (pg + QUE_SEQ) + 2 ^ 32 - s.rd (pg + QUE_DONE)) % 2 ^ 32 < 2 ^ s.queLog q)

/-- The bytes of the descriptor at a queue's head: read from device memory when the ring lies there, else as they arrive
from the host or a link. -/
def State.readRing (s : State) (q : Nat) (ok : Bool) (desc : Bytes) : State × Option Bytes :=
  let dva := s.rd64 (quePg q + QUE_RING) % 2 ^ 48
  let e := s.seg (s.queCtx q) (dvaSeg dva)
  if e.loc = 0 then
    let slot := s.rd (quePg q + QUE_HEAD) % 2 ^ s.queLog q
    match s.devRead (s.segKey q e) (e.base + dvaOff dva + 128 * slot) 128 with
    | (s, .inr b) => (s, some b)
    | (s, .inl _) => (s, none)
  else (s, if ok then some (sliceBytes desc 0 128) else none)

/-- DESCRIPTOR_ARRIVE (R193, R195, R198): the descriptor at the head is taken for acceptance, or halts the queue. -/
def execDescriptorArrive (q : Nat) (ok : Bool) (desc : Bytes) (s : State) : Answer :=
  onUnit (decide (q < 4096)) (
    if s.mayFetch q = false then s
    else
      let seq := s.rd (quePg q + QUE_SEQ)
      if s.ringOk q = false then s.queueHalt q 0x04 seq
      else match s.readRing q ok desc with
        | (s, none) => s.queueHalt q 0x04 seq
        | (s, some d) =>
          let r := s.descFault q d
          if r ≠ 0 then s.queueHalt q r seq else { s with heads := Tab.put none q (some d) s.heads })

/-! ### Memory objects (R224, R225) -/

/-- Result of an object request. -/
def State.objResult (s : State) (x r : Nat) : State := s.set (ctxPg x) CTX_OBJ_CTL_RESULT r

/-- CREATE from the staging registers (R224). -/
def State.objectCreate (s : State) (x h : Nat) : State :=
  let pg := ctxPg x
  let w := s.rd (pg + CTX_OBJ_SEG)
  let off := w / 8 * 8 + s.rd (pg + CTX_OBJ_OFF_HI) % 2 ^ 13 * 2 ^ 32
  let len := s.rd (pg + CTX_OBJ_LEN_LO) + s.rd (pg + CTX_OBJ_LEN_HI) % 2 ^ 13 * 2 ^ 32
  let e := s.seg x (w % 8)
  if (s.atObj (objKey x h)).state ≠ 0 then s.objResult x 1
  else if e.valid = false ∨ e.limit < off + len then s.objResult x 2
  else (s.updObj (objKey x h) (fun _ => { state := 1, seg := w % 8, off := off, len := len })).objResult x 0

/-- FREE (R225). -/
def State.objectFree (s : State) (x h : Nat) : State :=
  if (s.atObj (objKey x h)).state = 0 then s.objResult x 3
  else ((s.updObj (objKey x h) (fun o => { o with state := 2 })).objSettle x h).objResult x 0

/-- FORCE_FREE (R225): commands that name the object break, running ones at their next preemption point. -/
def State.objectForceFree (s : State) (x h : Nat) : State :=
  if (s.atObj (objKey x h)).state = 0 then s.objResult x 3
  else
    let s := s.updObj (objKey x h) (fun o => { o with state := 2 })
    let cs := s.allCmds.filter (fun c => c.ctx == x && c.ranges.any (fun r => r.handle == h))
    let s := cs.foldl (fun s c => s.forceBreak c codeObjectFreed) s
    (cs.foldl (fun s c => s.holdsFree c) (s.objSettle x h)).objResult x 0

/-! ### Event queues and MSI-X (R226-R228, R530) -/

/-- Host software advances EVQ_HEAD; when room returns after drops the OVERFLOW record is written (R226, R227). -/
def State.evqHead (s : State) (e v : Nat) : State := (s.wr (evqPg e + EVQ_HEAD) v).evqCatchUp e

/-- Event queues that signal a vector of a function. -/
def State.evqsOf (s : State) (fn v : Nat) : List Nat :=
  (List.range 512).filter (fun e => s.on (evqPg e) EVQ_CTL_ENABLE && Tab.get 0 s.evqFn e == fn && s.get (evqPg e) EVQ_CTL_VECTOR == v)

/-- Whether a vector's event queues hold unconsumed records. -/
def State.unconsumed (s : State) (fn v : Nat) : Bool :=
  (s.evqsOf fn v).any (fun e => s.rd (evqPg e + EVQ_TAIL) != s.rd (evqPg e + EVQ_HEAD))

/-- MSIX_HOLDOFF_EXPIRE (R228): a deferred message is sent if records remain unconsumed. -/
def execMsixHoldoffExpire (fn vector : Nat) (s : State) : Answer :=
  onUnit (decide (fn < 256) && decide (vector < vectorsOf fn)) (
    let k := fn * 64 + vector
    let x := s.atVec k
    if x.deferred = false then s
    else
      let s := s.updVec k (fun x => { x with deferred := false })
      if s.unconsumed fn vector then s.message fn vector 0 else s)

/-- MSIX_VECTOR_UNMASK (R228): the mask clears, and a message held back by it is sent. -/
def execMsixVectorUnmask (fn vector : Nat) (s : State) : Answer :=
  onUnit (decide (fn < 256) && decide (vector < vectorsOf fn)) (
    let k := fn * 64 + vector
    let x := s.atVec k
    let s := s.updVec k (fun x => { x with masked := false, pend := false })
    if x.masked && x.pend then s.message fn vector 0 else s)

end Sys2Proof.Machine
end

