-- ==== Sys2Proof/Machine/Resolve.lean ====
section
/-! DEFINITION. The end of a command (R191, R206-R216, R221, R222, R427, R456-R458): its completion record, its fence and latch,
what its end sets free; the teardown of a context. -/

namespace Sys2Proof.Machine

open Sys2Proof

/-! ### Completion records (R209) -/

/-- The 32 bytes of a completion record. Log 113 (DESIGN CHOICE). -/
def State.cplBytes (s : State) (c : Cmd) : Bytes :=
  leBytes 4 c.seq ++ leBytes 1 (if c.code ≠ 0 then 1 else if c.skip then 2 else 0) ++ leBytes 1 c.code ++ leBytes 1 c.warn ++
    leBytes 1 c.result ++ leBytes 4 (dUserTag c.desc) ++ leBytes 4 0 ++
    leBytes 2 (if dNoFence c.desc then 0xFFFF else dFence c.desc) ++ leBytes 2 c.q ++ leBytes 4 0 ++ leBytes 8 (c.at_.getD s.mclk)

/-- Where an IOVA of a function stands on the bus, and whether AT says Translated: by its stored translation, unless an invalidation
has marked it; else untranslated (R180-R182). Log 92 (DESIGN CHOICE). -/
def State.busAt (s : State) (fn iova : Nat) : Nat × Bool :=
  match s.trans.find? (fun t => t.meets fn (iova / 4096) (iova / 4096 + 1) && !t.marked && !t.err && t.wr) with
  | some t => if Tab.get false s.atsOn fn then (t.bus + (iova - t.page * 4096), true) else (iova, false)
  | none => (iova, false)

/-- Write 32 bytes of a queue's completion area; a loss that the device can see halts the queue. Log 92 (DESIGN CHOICE). -/
def State.cplWrite (s : State) (c : Cmd) (data : Bytes) : State :=
  let pg := quePg c.q
  let lost := fun (s : State) => s.queueHalt c.q 0x0A c.seq
  if s.rd64 (pg + QUE_CPL) = 0 then s
  else if s.cplOk c.q = false then lost s
  else
    let dva := s.rd64 (pg + QUE_CPL) % 2 ^ 48 + 32 * (c.seq % 2 ^ s.queLog c.q)
    let e := s.seg c.ctx (dvaSeg dva)
    let addr := e.base + dvaOff dva
    let key := s.segKey c.q e
    if e.loc = 0 then
      match s.devWrite key c.part addr data with
      | (s, .failed _ _ _) => lost s
      | (s, _) => s
    else if e.loc = 1 then
      let fn := s.ownerOf (ctxPg c.ctx)
      let s := if s.on (dlogPg fn) PCI_DLOG_CTL_ENABLE then
          (pagesOf addr 32).foldl (fun s p => s.markHostPage fn p) s else s
      s.emit (.hostWrite fn (s.busAt fn addr).1 (s.busAt fn addr).2 data)
    else match s.slotFor c.part e.dev with
      | none => lost s
      | some slot =>
        let before := (s.reqsOf c.q c.seq).length
        let t := s.sendReq { c with code := codePartnerAbsent } slot e.dev
          { op := 2, addr := addr, key := key, attr := 2, aux := 32, payload := data } { record := true }
        if (t.reqsOf c.q c.seq).length = before ∧ (s.atRoute e.dev).hold = false then lost s else t

/-- Write the completion record of a resolved command. Log 113 (DESIGN CHOICE). -/
def State.writeRecord (s : State) (c : Cmd) : State :=
  (s.cplWrite c (s.cplBytes c)).updCmd c.q c.seq (fun c => { c with recorded := true })

/-! ### What the end of a command sets free -/

/-- Slices that ran a command are free of it; one that still has a tile of it is flushed; one held back for it by R267 is reserved no
longer. -/
def State.slicesDrop (s : State) (c : Cmd) : State :=
  (List.range 32).foldl (fun s n =>
    if (s.atSlice n).cmd = some (c.q, c.seq) then
      (if (s.atSlice n).tile.isSome then s.flushSlice n c.q c.seq else s).updSlice n (fun y => { y with cmd := none, rtHold := false })
    else s) s

/-- After a command has left its queue: pending segment changes apply at HOLD 0 (R175), objects in FREEING and moulds in
RELEASING become FREE (R225, R119), its translations are dropped, its slices go on (R268). -/
def State.setFree (s : State) (c : Cmd) : State :=
  let s := (s.slicesDrop c).holdsFree c
  let s := if dOp c.desc = 1 then s.mouldSettle c.part (dMould c.desc) else s
  (s.scheduleFor c.ctx).feedCtx c.ctx

/-! ### Teardown steps that follow the commands (R456, R458) -/

/-- Commands of a context that have not stopped. -/
def State.openCmds (s : State) (x : Nat) : List Cmd := s.allCmds.filter (fun c => c.ctx == x && !c.work)

/-- Drop the memory requests that a context still has queued toward the links (R458). -/
def State.dropEgress (s : State) (x : Nat) : State :=
  let mine := fun (t : Txn) => decide (1 ≤ t.op) && decide (t.op ≤ 5) && t.src == s.self && s.queCtx t.queue == x
  let tags := (List.range 36).flatMap (fun p => ((s.atLink p).queue.filter mine).map (·.tag))
  let s := (List.range 36).foldl (fun s p => s.updLink p (fun l => { l with queue := l.queue.filter (fun t => !mine t) })) s
  let s := tags.foldl (fun s t => { s with reqs := Tab.put none t none s.reqs }) s
  { s with routes := s.routes.map (fun e => (e.1, { e.2 with held := e.2.held.filter (fun h => h.1.ctx != x || decide (5 < h.2.op)) })) }

/-- Once every command of a QUIESCING context has stopped, its generation copies move on (step 4). Log 115 (DESIGN CHOICE). -/
def State.tearAdvance (s : State) (x : Nat) : State :=
  if s.ctxState x = 2 ∧ (s.atCtx x).tearStep = 3 ∧ (s.openCmds x).isEmpty then
    (({ s with gens := Tab.put 0 x ((s.ctxGen x + 1) % 256) s.gens }).dropEgress x).updCtx x (fun e => { e with tearStep := 5 })
  else s

/-! ### Resolution (R216) -/

/-- The other members of a span learn that this instance broke after its CMD_CHECK (R427). Log 112 (DESIGN CHOICE). -/
def State.spanRefuse (s : State) (c : Cmd) : State :=
  match dSlot c.desc with
  | some slot => if c.code ≠ 0 ∧ dOp c.desc = 1 ∧ c.issued then s.castColl c.part slot { op := 0x15, addr := c.spanNo } else s
  | none => s

/-- A SIGNAL with REMOTE that breaks by the cascade or a teardown sends a break (R207, R315, R457). Log 112 (DESIGN CHOICE). -/
def State.remoteBreak (s : State) (c : Cmd) : State :=
  match dSlot c.desc with
  | some slot =>
    let torn := c.code = codeContextTornDown ∨ c.code = codeOwnerExited
    if dOp c.desc = 6 ∧ ((c.code = codePredecessorBroken ∧ c.issued = false) ∨ torn) then
      s.sendReq c slot (leAt c.desc 0x22 2 % 4096)
        { op := 6, addr := leAt c.desc 0x24 2, payload := leBytes 8 (leAt c.desc 0x28 8) ++ leBytes 1 1 ++ leBytes 1 c.rootCode ++ leBytes 6 0 }
    else s
  | none => s

/-- The fence of a command signals, with its FENCE_SIGNALLED record, or breaks (R211, R212, R229). Log 110 (DESIGN CHOICE). -/
def State.fenceEnd (s : State) (c : Cmd) : State :=
  if c.fenced ∨ dNoFence c.desc then s
  else if c.code ≠ 0 then s.breakFenceOf c
  else
    let f := dFence c.desc
    let open_ := !s.fenBroken f
    let s := s.signalFence f (dValue c.desc)
    if dEvtOnSignal c.desc && open_ then
      s.event (s.queEvq c.q) 0x01 (s.ownerOf (quePg c.q)) (leBytes 2 f ++ leBytes 6 0 ++ leBytes 8 (dValue c.desc))
    else s

/-- The broken latch after a command (R221, R222). -/
def State.latchEnd (s : State) (c : Cmd) : State :=
  if c.code ≠ 0 then (if c.fenced then s else s.setLatch c)
  else if dRunOnBroken c.desc && dClearLatch c.desc then s.clearLatch c.q else s

/-- A command of an older generation never signals (R191). -/
def State.genEnd (s : State) (c : Cmd) : Cmd :=
  if c.code = 0 ∧ c.gen ≠ s.ctxGen c.ctx then
    let t := (s.atCtx c.ctx).tearCode
    c.breakWith (if t = 0 then codeContextTornDown else t) 4 c.q
  else c

/-- The oldest command of a queue, its record written, resolves: warnings, span, fence, latch; it leaves the queue.
Log 101 (DESIGN CHOICE). -/
def State.finish (s : State) (c0 : Cmd) : State :=
  let c := s.genEnd c0
  let s := if c.code = 0 then s.countWarnings c else s
  let s := (((s.spanRefuse c).remoteBreak c).fenceEnd c).latchEnd c
  let s := { s with cmds := Tab.upd [] s.cmds c.q (fun l => l.filter (fun d => d.seq != c.seq)) }
  let s := s.wr (quePg c.q + QUE_DONE) ((s.rd (quePg c.q + QUE_DONE) + 1) % 2 ^ 32)
  ((s.beat 3 0).setFree c).tearAdvance c.ctx

/-- Commands at the head of a queue that are resolved already leave it with their records (R215, R209). -/
def State.drain : Nat → State → Nat → State
  | 0, s, _ => s
  | n + 1, s, q => match (s.cmdsOf q).head? with
    | none => s
    | some c => if c.gone then State.drain n ((s.writeRecord c).finish c) q else s

def State.drainQue (s : State) (q : Nat) : State := State.drain (s.cmdsOf q).length s q

/-- COMMAND_RESOLVE (R216, R209): the oldest unresolved command of its queue whose work has ended, and whose remote writes
are acknowledged (R217), writes its completion record, then signals or breaks its fence. -/
def execCommandResolve (q seq : Nat) (s : State) : Answer :=
  onUnit (decide (q < 4096)) (
    match (s.cmdsOf q).head? with
    | none => s
    | some c =>
      if c.seq ≠ seq ∨ c.work = false ∨ (s.reqsOf q seq).isEmpty = false then s
      else
        let c := s.genEnd c
        let s := if c.recorded then s else s.writeRecord c
        if (s.reqsOf q seq).isEmpty = false then s else (s.finish c).drainQue q)

/-! ### Teardown of a context (R456-R459) -/

/-- Break a fence of a context that is torn down (R457). -/
def State.tearFence (s : State) (x code f : Nat) : State :=
  let q := s.get (fenAt f) FEN_CTL_QUEUE
  if s.fenBroken f then s
  else
    let seq := s.rd (quePg q + QUE_SEQ)
    (s.breakFence f (errorRecord code 0 4 (s.ctxGen x) q q seq x 0 0 s.mclk)).brokenEvent f code q seq

/-- Fences that a context's queues signal. -/
def State.fencesOf (s : State) (x : Nat) : List Nat :=
  s.fencesListed.filter (fun f => s.on (fenAt f) FEN_CTL_ENABLE && !s.on (fenAt f) FEN_CTL_REMOTE &&
    s.queCtx (s.get (fenAt f) FEN_CTL_QUEUE) == x)

/-- Queues of a context. -/
def State.quesOf (s : State) (x : Nat) : List Nat :=
  ((List.range 4096).filter (fun q => s.queCtx q == x && s.on (quePg q) QUE_STAT_ENABLED))

/-- One command at step 2 or 3: not yet started, or held for tasting, it breaks now; running, at its next boundary. -/
def State.tearCmd (s : State) (code : Nat) (c : Cmd) : State :=
  if c.work then s
  else if c.started = false then
    (s.outOfTurn (c.breakWith code 4 c.q)).holdsFree c
  else if c.held then s.breakCmd c.q c.seq code 4 c.q
  else s.updCmd c.q c.seq (fun c => { c.stopFor code with boundary := true })

/-- TEARDOWN of an ACTIVE context with a code (R456 steps 1 to 3, R457). Log 115 (DESIGN CHOICE). -/
def State.tearDown (s : State) (x code : Nat) : State :=
  if s.ctxState x ≠ 1 then s
  else
    let s := (s.set (ctxPg x) CTX_STAT_STATE 2).updCtx x (fun e => { e with tearCode := code, tearStep := 3, tq := some s.mclk })
    let qs := s.quesOf x
    let s := qs.foldl (fun s q => { s with heads := Tab.put none q none s.heads }) s
    let s := qs.foldl (fun s q => (s.cmdsOf q).foldl (fun s c => s.tearCmd code c) s) s
    let s := (s.fencesOf x).foldl (fun s f => s.tearFence x code f) s
    (qs.foldl (fun s q => s.drainQue q) s).tearAdvance x

/-- TEARDOWN by the driver: OWNER_EXITED with EXITED set, else CONTEXT_TORN_DOWN (R456). Log 115 (DESIGN CHOICE). -/
def State.contextTeardown (s : State) (x : Nat) : State :=
  s.tearDown x (if s.on (ctxPg x) CTX_CTL_EXITED then codeOwnerExited else codeContextTornDown)

/-- Clear VALID of every segment of a context, and what is pending on it (step 6). -/
def State.segsClear (s : State) (x : Nat) : State :=
  (List.range 8).foldl (fun s g =>
    let a := segAt x g
    ((s.wr (a + CTX_SEG_0) (putBit (s.rd (a + CTX_SEG_0)) 0 false)).set a CTX_SEG_6_PENDING 0).updSegPend (x * 8 + g) (fun _ => {})) s

/-- CONTEXT_QUIESCED (R456 steps 5 to 7): with every command stopped and every request answered, dropped or expired, the
segments are cleared, slices, translations and save key released, the generation advances. -/
def execContextQuiesced (ctx : Nat) (s : State) : Answer :=
  onUnit (decide (ctx < 1024)) (
    let x := ctx
    let s := s.tearAdvance x
    if s.ctxState x ≠ 2 ∨ (s.atCtx x).tearStep ≠ 5 ∨ s.allCmds.any (fun c => c.ctx == x) ∨
        s.reqs.any (fun e => match e.2 with
          | some r => r.ctx == x
          | none => false) ∨ (s.ctxSlices x).any (fun n => s.sliceMoving n) then s
    else
      let s := s.segsClear x
      let s := (s.ctxSlices x).foldl (fun s n => s.release n) s
      let s := { s.transDrop with sec := { s.sec with saveKey := Tab.put 0 x 0 s.sec.saveKey }, ctxs := Tab.put {} x {} s.ctxs }
      let g := (s.ctxGen x + 1) % 256
      let s := ((s.set (ctxPg x) CTX_STAT_STATE 3).set (ctxPg x) CTX_STAT_GEN g).schedStat x
      let s := s.eventAll [s.ctxEvq x, 0] 0x06 (s.ownerOf (ctxPg x)) (leBytes 2 x ++ leBytes 1 g)
      s.schedule (s.partOf x))

/-! ### TDIs (R411) -/

/-- A TDI in CONFIG_LOCKED or RUN enters ERROR: its contexts are torn down, TDI_ERROR is written (R411, R420). -/
def State.tdiError (s : State) (fn reason : Nat) : State :=
  let st := Tab.get 0 s.sec.tdi fn
  if st = 1 ∨ st = 2 then
    let s := { s with sec := { s.sec with tdi := Tab.put 0 fn 3 s.sec.tdi } }
    let s := ((List.range 1024).filter (fun x => fn != 0 && s.get (ctxPg x) CTX_STAT_FUNCTION == fn)).foldl
      (fun s x => s.tearDown x codeContextTornDown) s
    s.event0 0x32 (leBytes 1 fn ++ leBytes 1 reason)
  else s

end Sys2Proof.Machine
end

