-- ==== Sys2Proof/Machine/Accept.lean ====
section
/-! DEFINITION. Acceptance of a command (R176-R184, R117, R138, R140, R201-R206, R224, R273, R387, R388, R394): the ranges it
names, their checks and translations, the mould and key-flow checks, a refusal. -/

namespace Sys2Proof.Machine

open Sys2Proof

/-- A range that a command names, with the rights it needs (1 read, 2 write, 4 atomic), the bytes a mould's tiles reach
(R177) and whether its address must be 64 B aligned; `empty` is the argument list of a COMPUTE without arguments, which names nothing. -/
structure RangeReq where
  dva : Nat
  len : Nat
  need : Nat
  reach : Nat := 0
  exact_ : Bool := false
  empty : Bool := false
  deriving DecidableEq, Repr

/-- How a range stands after its checks. Log 90 (DESIGN CHOICE). -/
inductive RangeRes where
  | ok (r : Range)
  | refuse (reason code : Nat)
  | missing (pages : List Nat)
  deriving DecidableEq, Repr

/-- Fence code of a reason of R176. Log 73 (DESIGN CHOICE). -/
def reasonCode (r : Nat) : Nat :=
  if r = 3 ∨ r = 4 then codeRights else if r = 5 then codeKeyRetired else codeTranslationReject

/-- Highest byte that the preamble requests of an argument reach (R177). -/
def reachOf (m : Bytes) (a : Nat) : Nat :=
  (((preambles m).filter (fun r => r.arg == a)).map (fun r =>
    let t := tilingOf m r.phase
    ((t.t0 - 1) * r.s0 + (t.t1 - 1) * r.s1 + (t.t2 - 1) * r.s2 + r.lines) * 256)).foldl max 0

/-- Bytes of an array of `n` elements of a format code, and of its scale array (R38, R205). -/
def arrayLen (code n : Nat) : Nat := match fmtOf code with
  | some f => f.arrayBytes n
  | none => 0
def isBlockCode (code : Nat) : Bool := decide (code ≤ 1)

/-- Ranges of a command that stand in its descriptor, in descriptor order (R201, R202); of a COMPUTE its argument list. -/
def descRanges (d : Bytes) : List RangeReq :=
  let dva := fun (o : Nat) => leAt d o 8
  if dOp d = 1 then [{ dva := dva 0x30, len := 16 * dNargs d, need := 1, empty := dNargs d == 0 }]
  else if dOp d = 2 then [{ dva := dva 0x20, len := leAt d 0x30 8, need := 1 }, { dva := dva 0x28, len := leAt d 0x30 8, need := 2 }]
  else if dOp d = 3 then [{ dva := dva 0x20, len := leAt d 0x28 8, need := 2 }]
  else if dOp d = 4 then
    let n := leAt d 0x30 8
    let sf := leAt d 0x38 1
    let df := leAt d 0x39 1
    [{ dva := dva 0x20, len := arrayLen sf n, need := 1 }, { dva := dva 0x28, len := arrayLen df n, need := 2 }] ++
      (if isBlockCode sf then [{ dva := dva 0x48, len := n / 32, need := 1 }] else []) ++
      (if isBlockCode df then [{ dva := dva 0x50, len := n / 32, need := 2 }] else [])
  else if dOp d = 7 then [{ dva := dva 0x20, len := leAt d 0x28 4, need := 1 }]
  else []

/-- Ranges of the arguments of a mould, with the entries of the argument list (R176, R203). -/
def argRanges (m args : Bytes) (nargs : Nat) : List RangeReq :=
  let as := argsOf m
  (List.range (min nargs as.length)).map (fun i =>
    let a := as.getD i ⟨0, 0, 0, 0, 0, 0, 0, 0, 0⟩
    { dva := leAt args (16 * i) 8, len := a.bytes, need := a.rights % 8, reach := reachOf m i, exact_ := a.exact })


/-- Whether a host range may carry a key index (R388): its function is the slot's host function and its TDI is in RUN. -/
def State.hostKeyOk (s : State) (fn k : Nat) : Bool :=
  k == 0 || (s.on (keyAt k) KEY_CTL_HOST_FN_VALID && s.get (keyAt k) KEY_CTL_HOST_FN == fn && Tab.get 0 s.sec.tdi fn == 2)

/-- A run of a host-assisted list: bus address, DVA, pages (R184). -/
def runAt (runs : Bytes) (i : Nat) : Nat × Nat × Nat :=
  (leAt runs (16 * i) 8, leAt runs (16 * i + 8) 6, leAt runs (16 * i + 14) 2)

/-- Translate a host range through the command's run list (R184): the runs that touch it, when they are well formed, do not
overlap, lie in the segment and cover each of its pages. -/
def listXlat (runs : Bytes) (count : Nat) (e : SegEntry) (dva len : Nat) : HostXlat :=
  let rs := (List.range count).map (runAt runs)
  let lo := dva / 4096
  let hi := (dva + len + 4095) / 4096
  let mine := rs.filter (fun r => decide (r.2.1 / 4096 < hi) && decide (lo < r.2.1 / 4096 + r.2.2))
  let ok := mine.all (fun r => r.1 % 4096 == 0 && r.2.1 % 4096 == 0 && decide (1 ≤ r.2.2) && dvaSeg r.2.1 == dvaSeg dva &&
      decide (dvaOff r.2.1 + 4096 * r.2.2 ≤ e.limit)) &&
    (List.range (hi - lo)).all (fun i => (mine.filter (fun r => decide (r.2.1 / 4096 ≤ lo + i) &&
      decide (lo + i < r.2.1 / 4096 + r.2.2))).length == 1)
  if ok then .runs (mine.map (fun r => (e.base / 4096 + dvaOff r.2.1 / 4096, r.2.2, r.1))) else .refuse 0x0A

/-- The checks of R176 on one range, in their order. Log 90 (DESIGN CHOICE). -/
def State.checkRange (s : State) (q : Nat) (d runs : Bytes) (used : Nat) (r : RangeReq) : RangeRes :=
  let x := s.queCtx q
  let p := s.partOf x
  let fn := s.ownerOf (ctxPg x)
  let a := dvaAddr r.dva
  let h := dvaHandle r.dva
  let off := dvaOff a
  let e := s.seg x (dvaSeg a)
  let k := s.segKey q e
  let o := s.atObj (objKey x h)
  let res : Range := { seg := dvaSeg a, loc := e.loc, key := k, addr := e.base + off, len := r.len, need := r.need, handle := h, dev := e.dev }
  let no := fun (n : Nat) => RangeRes.refuse n (reasonCode n)
  if r.empty then .ok { seg := 8 }
  else if e.valid = false then no 0x01
  else if e.limit < off + r.len ∨ r.len < r.reach then no 0x02
  else if h ≠ 0xFFF ∧ o.state = 2 then .refuse 0 codeObjectFreed
  else if h ≠ 0xFFF ∧ (o.state = 0 ∨ o.seg ≠ dvaSeg a ∨ off < o.off ∨ o.off + o.len < off + r.len) then no 0x02
  else if (bitOf r.need 0 && !e.rd) || (bitOf r.need 1 && !e.wr) || (bitOf r.need 2 && !e.at_) then no 0x03
  else if e.loc = 1 ∧ s.hostKeyOk fn k = false then no 0x03
  else if r.exact_ ∧ (e.base + off) % 64 ≠ 0 then no 0x04
  else if k ≠ 0 ∧ (s.get (keyAt k) KEY_STAT_STATE ≠ 1 ∨ s.keyBound p k = false) then no 0x05
  else if e.loc = 2 ∧ s.activePeer p e.dev = false then no 0x06
  else if e.loc = 1 then
    let t := if s.hostMode 0 then listXlat runs (dRunCount d) e a r.len else s.hostXlat fn (e.base + off) r.len r.need
    match t with
    | .refuse n => no n
    | .missing ps => .missing ps
    | .runs l => if 65536 < used + l.length then no 0x09 else .ok { res with runs := l, bus := s.hostMode 0 || Tab.get false s.atsOn fn }
  else if 65536 < used + 1 then no 0x09
  else .ok { res with runs := [] }

/-- Check ranges in order: the list of them, or the first that fails with its number, or pages still to be translated.
Log 90 (DESIGN CHOICE). -/
def State.checkRanges (s : State) (q : Nat) (d runs : Bytes) : Nat → Nat → List RangeReq → List Range ⊕ (Nat × RangeReq × RangeRes)
  | _, _, [] => .inl []
  | i, used, r :: rest =>
    match s.checkRange q d runs used r with
    | .ok g => match s.checkRanges q d runs (i + 1) (used + max 1 g.runs.length) rest with
      | .inl l => .inl (g :: l)
      | .inr e => .inr e
    | e => .inr (i, r, e)

/-! ### Mould, span and key-flow checks -/

/-- Row `r` of a partition's key-flow table (R393). -/
def kftDefault (r : Nat) : Nat := if r = 0 then 2 ^ 256 - 1 else 2 ^ r
def State.kftRow (s : State) (p r : Nat) : Nat := Tab.get (kftDefault r) s.sec.kft (p * 256 + r)

/-- Whether every write key is allowed for every read key (R394). -/
def State.flowOk (s : State) (p : Nat) (reads writes : List Nat) : Bool :=
  writes.all (fun w => reads.all (fun r => bitOf (s.kftRow p r) w))

/-- Read and write key sets of a command (R140, R204). -/
def flowSets (m : Option Bytes) (d : Bytes) (ranges : List Range) : List Nat × List Nat :=
  match m with
  | some m =>
    let as := argsOf m
    let pick := fun (p : Nat → Bool) => (List.range as.length).filterMap (fun i =>
      if p ((as.getD i ⟨0, 0, 0, 0, 0, 0, 0, 0, 0⟩).dir) then some (ranges.getD (i + 1) {}).key else none)
    (pick (fun n => n != 1), pick (fun n => n != 0))
  | none =>
    if dOp d = 2 ∨ dOp d = 3 ∨ dOp d = 4 then
      ((ranges.filter (fun r => bitOf r.need 0)).map (·.key), (ranges.filter (fun r => bitOf r.need 1)).map (·.key))
    else ([], [])

/-- The effective arithmetic control word (R51). -/
def State.acwOf (s : State) (x : Nat) (d : Bytes) : Nat :=
  if bitOf (dAcw d) 31 then dAcw d % 2 ^ 31 else s.rd (ctxPg x + CTX_ARITH_CTL)

/-- The image of the mould a COMPUTE names, when it is READY (R106). -/
def State.readyImage (s : State) (p : Nat) (d : Bytes) : Option Bytes :=
  let e := s.atMould (p * 64 + dMould d)
  if dOp d = 1 ∧ e.state = 2 then some e.image else none

/-- The first check of R117, R205 and R273 that fails: its reason. -/
def State.mouldCheck (s : State) (x p : Nat) (d args : Bytes) : Option Nat :=
  let named := (dSlot d).isSome
  let alen := fun (i : Nat) => leAt args (16 * i + 8) 8
  if dOp d = 4 then
    if 2 ≤ s.acwOf x d % 4 then some 0x10
    else if (isBlockCode (leAt d 0x38 1) || isBlockCode (leAt d 0x39 1)) ∧ leAt d 0x30 8 % 32 ≠ 0 then some 0x07
    else none
  else if dOp d ≠ 1 then none
  else if 2 ≤ s.acwOf x d % 4 then some 0x10
  else match s.readyImage p d with
    | none => some 0x12
    | some m =>
      let as := argsOf m
      let ws := as.findIdx? (fun a => a.dir == 3)
      let short : Bool := match ws with
        | some i => decide (dNargs d ≤ i) || decide (alen i < iWorkspace m)
        | none => true
      if iWorkspace m ≠ 0 ∧ short then some 0x11
      else if (named && !iSpanCapable m) || (iSpanCapable m && !named &&
          (List.range (iPhases m)).any (fun ph => decide ((tilingOf m ph).axis < 3))) then some 0x13
      else if dNargs d ≠ as.length ∨ (List.range as.length).any (fun i =>
          decide (alen i < (as.getD i ⟨0, 0, 0, 0, 0, 0, 0, 0, 0⟩).bytes)) then some 0x14
      else if hasAtomic m ∧ dNpSpan d = 0 then some 0x16
      else none

/-- Span slots that a command names: its own, and in FEN_SRC of the remote fences that a WAIT names (R256). Log 108 (DESIGN CHOICE). -/
def State.slotsNamed (s : State) (d : Bytes) : List Nat :=
  (dSlot d).toList ++ (if dOp d = 5 then ((waitEntries d).filter (fun e => s.on (fenAt e.1) FEN_CTL_REMOTE)).map
    (fun e => s.get (fenAt e.1) FEN_SRC_SPAN_SLOT) else [])

/-- The checks that follow the ranges: code, detail and whether CTX_MOULD_REJ records it (R117, R140, R206, R256). -/
def State.lateCheck (s : State) (x p : Nat) (d args : Bytes) (ranges : List Range) : Option (Nat × Nat × Bool) :=
  match s.mouldCheck x p d args with
  | some r => some (codeMouldInvalid, r, true)
  | none =>
    if dOp d = 5 ∧ (waitEntries d).any (fun e => !s.fenceIn p e.1) then some (codeRights, 0, false)
    else if (s.slotsNamed d).any (fun l => s.get (spanAt p l) PART_SPAN_0_STATE != 2) then some (codeRemoteRefused, 0, false)
    else
      let (rs, ws) := flowSets (s.readyImage p d) d ranges
      if s.flowOk p rs ws = false then some (codeKeyFlowDenied, 0, false) else none

/-! ### Acceptance and refusal -/

/-- The head of a queue moves past a command that has been accepted or refused (R195, R196), which raises its fence's TARGET
(R210). Log 99 (DESIGN CHOICE). -/
def State.passHead (s : State) (c : Cmd) : State :=
  let pg := quePg c.q
  let s := { s with heads := Tab.put none c.q none s.heads, cmds := Tab.upd [] s.cmds c.q (fun l => l ++ [c]) }
  let s := ((s.set pg QUE_STAT_HELD 0).wr (pg + QUE_HEAD) ((s.rd (pg + QUE_HEAD) + 1) % 2 ^ 32)).wr (pg + QUE_SEQ)
    ((s.rd (pg + QUE_SEQ) + 1) % 2 ^ 32)
  if dNoFence c.desc then s else s.raiseTarget (dFence c.desc) (dValue c.desc)

/-- A command refused at acceptance is resolved as broken at that moment (R215); translations obtained for it are released (R176).
Log 99 (DESIGN CHOICE). -/
def State.refuseCmd (s : State) (c : Cmd) (code detail : Nat) (kind : Nat := 4) (id : Nat := c.q) : State :=
  let c := { c.breakWith code kind id detail with fenced := true, at_ := some s.mclk }
  (((((s.beat 3 0).passHead c).breakFenceOf c).setLatch c).drainQue c.q).transDrop

/-- An accepted command joins its queue (R52, R138, R178, R191): it samples the control word, the seed and the
generation. -/
def State.takeCmd (s : State) (c : Cmd) (m : Option Bytes) (ranges : List Range) : State :=
  let safe := dReplaySafe c.desc && !(match m with
    | some m => hasResidentRw m
    | none => false)
  let no := match dSlot c.desc with
    | some l => Tab.get 0 s.spanNo (c.part * 8 + l)
    | none => 0
  let s := match dOp c.desc, dSlot c.desc with
    | 1, some l => { s with spanNo := Tab.upd 0 s.spanNo (c.part * 8 + l) (fun n => (n + 1) % 2 ^ 32) }
    | _, _ => s
  (s.beat 3 0).passHead { c with ranges := ranges, safe := safe, spanNo := no }

/-- The bytes of an argument list: read from device memory when it lies there, else as they arrive. -/
def State.readArgs (s : State) (r : Range) (args : Bytes) : State × ((Nat × Nat × Nat) ⊕ Bytes) :=
  if r.len = 0 then (s, .inr [])
  else if r.loc = 0 then s.rangeRead r 0 r.len
  else (s, .inr (sliceBytes args 0 r.len))

/-- Free part of the store of host translations, apart from the places of those requested (R178). -/
def State.transRoom (s : State) : Nat := 262144 - s.trans.length - s.xreq.length

/-- A command whose host pages have no translation yet waits while they are requested, HELD when the store has no room
(R178, R180). Log 91 (DESIGN CHOICE). -/
def State.waitTrans (s : State) (q fn : Nat) (pages : List Nat) : State :=
  (s.mark (quePg q) QUE_STAT_HELD (s.transRoom == 0)).askTrans fn (pages.take s.transRoom)

/-- Translations in error or without permission are forgotten once the command that waited for them is refused (R176). -/
def State.forgetBad (s : State) (fn : Nat) : State :=
  { s with trans := s.trans.filter (fun t => !(decide (t.fn = fn) && (t.err || (!t.rd && !t.wr)))) }

/-- What a failed range does: wait for translations, or refuse the command with the record of R176. Log 103 (DESIGN CHOICE). -/
def State.rangeFails (s : State) (c : Cmd) (i : Nat) (r : RangeReq) : RangeRes → State
  | .ok _ => s
  | .missing ps => s.waitTrans c.q (s.ownerOf (ctxPg c.ctx)) ps
  | .refuse reason code =>
    let s := s.forgetBad (s.ownerOf (ctxPg c.ctx))
    let s := if reason = 0 then s else s.xlatRej c.ctx reason (dvaSeg (dvaAddr r.dva)) i false
    s.refuseCmd c code reason

/-- Whether a change of a segment that the command names is pending (R175). Log 103 (DESIGN CHOICE). -/
def State.segWaits (s : State) (x : Nat) (rs : List RangeReq) : Bool :=
  rs.any (fun r => let p := s.atSegPend (x * 8 + dvaSeg (dvaAddr r.dva))
    !r.empty && !p.words.isEmpty && !p.applied)

/-- COMMAND_ACCEPT (R176): the queue engine checks and translates the ranges of the command at the head, then makes the
checks of R117 and R140; the command is accepted, refused, or waits. -/
def execCommandAccept (q : Nat) (args runs : Bytes) (s : State) : Answer :=
  onUnit (decide (q < 4096)) (
    let pg := quePg q
    match Tab.get none s.heads q with
    | none => s
    | some d =>
      let x := s.queCtx q
      if s.on pg QUE_STAT_ENABLED = false ∨ s.on pg QUE_STAT_HALTED ∨ s.ctxState x ≠ 1 then s
      else
        let p := s.partOf x
        let c : Cmd := { q := q, seq := s.rd (pg + QUE_SEQ), desc := d, ctx := x, gen := s.ctxGen x, part := p, acw := s.acwOf x d, seed := s.rd64 (ctxPg x + CTX_SEED) }
        let first := descRanges d
        if s.segWaits x first then s.set pg QUE_STAT_HELD 1
        else match s.checkRanges q d runs 0 0 first with
          | .inr (i, r, e) => s.rangeFails c i r e
          | .inl l0 =>
            match (if dOp d = 1 then s.readArgs (l0.headD {}) args else (s, .inr [])) with
            | (s, .inl e) => s.refuseCmd c e.1 0 e.2.1 e.2.2
            | (s, .inr ab) =>
              let m := s.readyImage p d
              let more := match m with
                | some m => argRanges m ab (dNargs d)
                | none => []
              if s.segWaits x more then s.set pg QUE_STAT_HELD 1
              else match s.checkRanges q d runs l0.length l0.length more with
                | .inr (i, r, e) => s.rangeFails c i r e
                | .inl l1 =>
                  let ranges := l0 ++ l1
                  match s.lateCheck x p d ab ranges with
                  | some (code, detail, mould) =>
                    let s := if mould then s.mouldRej x detail (dMould d) true 0 else s
                    s.refuseCmd c code detail
                  | none => s.takeCmd c m ranges)

end Sys2Proof.Machine
end

