-- ==== Sys2Proof/Machine/Fabric.lean ====
section
/-! DEFINITION. The fabric (R19-R26, R67-R87, R100-R103): handshake and seam words, droop, the firing of a cell's
instructions, its control instructions, routers and partition gates, quiescence. -/

namespace Sys2Proof.Machine

open Sys2Proof

/-! ### Handshake channels and the seam -/

/-- Distance of a received sequence number ahead of the one expected, in 16 bits: 0 is in order, below 2^15 a gap, else a
repeat (R25). Log 40 (DESIGN CHOICE). -/
def seqAhead (got : BitVec 16) (want : Nat) : Nat := (got.toNat + 2 ^ 16 - want % 2 ^ 16) % 2 ^ 16

/-- The half of the device that an island stands in, false for half A and base die A (R16, R17, R23). -/
def islandHalf (isl : Nat) : Bool :=
  if isl < 128 then decide (64 ≤ isl)
  else if isl < 136 then decide (132 ≤ isl)
  else if isl < 152 then decide (144 ≤ isl)
  else if isl < 188 then decide (170 ≤ isl)
  else decide (isl = 189)

/-- The slice to whose command the words between two islands belong: the receiver's, or the sender's. Log 28 (DESIGN CHOICE). -/
def wordSlice (src dst : Nat) : Option Nat :=
  if dst < 128 then some (islandSlice dst) else if src < 128 then some (islandSlice src) else none

/-- Count a handshake error at island `dst` (R25): in its page, or in the counter of an island that has none. Log 28 (DESIGN CHOICE). -/
def State.countHs (s : State) (dst : Nat) : State :=
  if dst < 128 then s.errCount (islPg dst) ISL_HS_ERR 1 else { s with hsErr := Tab.upd 0 s.hsErr dst (satAdd 0xFFFFFFFF 1) }

/-- A handshake error at island `dst`, counted and a loss of fabric data (R25, R102). Log 28 (DESIGN CHOICE). -/
def State.handshakeError (s : State) (src dst : Nat) : State :=
  match wordSlice src dst with
  | some n => (s.countHs dst).dataLoss n dst
  | none => s.countHs dst

/-- HANDSHAKE_WORD_RECEIVE (R18, R25, R26): in order, the word enters the 16-word FIFO, from which a running island takes the
oldest; a gap or a repeat drops it. A stopped island with a full FIFO acknowledges nothing, so no word arrives; between the halves
there is no handshake channel but the seam's. -/
def execHandshakeWordReceive (src dst : Nat) (seq : BitVec 16) (word : BitVec 272) (s : State) : Answer :=
  onUnit (decide (src < 193) && decide (dst < 193)) (
    let k := src * 256 + dst
    let fifo := Tab.get [] s.hsFifo k
    if islandHalf src ≠ islandHalf dst ∨ (s.halted.contains dst ∧ 16 ≤ fifo.length) then s
    else
      let ahead := seqAhead seq (Tab.get 0 s.hsSeq k)
      let next := fun (s : State) => { s with hsSeq := Tab.put 0 k ((seq.toNat + 1) % 2 ^ 16) s.hsSeq }
      if ahead = 0 then
        let fifo := if fifo.length < 16 then fifo else fifo.drop 1
        { next s with hsFifo := Tab.put [] k (fifo ++ [word]) s.hsFifo }
      else if ahead < 2 ^ 15 then (next s).handshakeError src dst
      else s.handshakeError src dst)

/-- The seam channels in use, ascending (R20). -/
def State.seamChans (s : State) : List Nat := (List.range 192).filter (fun c => s.capState 4 c != 2)

/-- The seam channel that carries a request: a fixed function of its line address (R21). Log 27 (DESIGN CHOICE). -/
def State.seamChan (s : State) (line : Nat) : Option Nat :=
  let l := s.seamChans
  l[Config.seamChannel l.length line % l.length]?

/-- A word lost at the seam: the command that issued it stops and breaks with MEM_UNCORRECTABLE (R20, R102). -/
def State.seamLoss (s : State) (isl q seq : Nat) : State := (s.breakCmd q seq codeMemUncorrectable 0 isl).flushCmd q seq

/-- SEAM_WORD_RECEIVE (R20-R22, R25): direction 0 is half A to half B; the word of a request for line `line` comes by that line's
channel. One bad wire is corrected and counted; more drop the word and count it; a gap or a repeat drops it as a handshake error.
Log 41 (DESIGN CHOICE). -/
def execSeamWordReceive (dir line : Nat) (seq : BitVec 16) (word : BitVec 256) (badWires q seqNo : Nat) (s : State) : Answer :=
  onUnit (decide (dir < 2)) (
    match s.seamChan line with
    | none => s
    | some chan =>
      let k := dir * 192 + chan
      let isl := if dir = 0 then 189 else 188
      let ahead := seqAhead seq (Tab.get 0 s.seamSeq k)
      let s' := if ahead < 2 ^ 15 then { s with seamSeq := Tab.put 0 k ((seq.toNat + 1) % 2 ^ 16) s.seamSeq } else s
      let e := Tab.get (0, 0) s.seamErr k
      if 2 ≤ badWires then ({ s' with seamErr := Tab.put (0, 0) k (e.1, e.2 + 1) s.seamErr }).seamLoss isl q seqNo
      else
        let s' := if badWires = 1 then
            ({ s' with seamErr := Tab.put (0, 0) k (e.1 + 1, e.2) s.seamErr }).fault 10 chan s.mclk
          else s'
        if ahead = 0 then
          let fifo := Tab.get [] s.seamFifo k
          let fifo := if fifo.length < 48 then fifo else fifo.drop 1
          { s' with seamFifo := Tab.put [] k (fifo ++ [word]) s.seamFifo }
        else (s'.countHs isl).seamLoss isl q seqNo)

/-- SUPPLY_DROOP (R85, R87): `cycles` cycles have run in the island's present band (0 none, 1 to 4 the rows of R85); the
supply then enters band `band`. A stopped island runs no cycle. Log 29 (DESIGN CHOICE). -/
def execSupplyDroop (isl band cycles : Nat) (s : State) : Answer :=
  onUnit (decide (isl < 192) && decide (band ≤ 4)) (
    let old := Tab.get 0 s.droop isl
    let n := if s.halted.contains isl then 0 else cycles
    let pg := islPg isl
    let s := if isl < 128 then
        let s := s.bump64 (pg + ISL_CYC_CNT) n
        let s := if old = 0 then s else s.bump64 (pg + ISL_STRETCH_CNT) n
        if old = 4 ∧ n ≠ 0 then s.set pg ISL_STAT_DEEP_DROOP 1 else s
      else s
    let s := if old = 4 then { s with power := { s.power with deep := Tab.upd 0 s.power.deep isl (· + n) } } else s
    { s with droop := Tab.put 0 isl band s.droop })

/-! ### Firing (R76-R78) -/

/-- Word of a slot. -/
def CellSt.word (c : CellSt) (i : Nat) : PWord := pword (Tab.get 0 c.prog i).toNat

/-- Slots from the program position up to `i`. -/
def CellSt.before (c : CellSt) (i : Nat) : List Nat := (List.range (i - c.pc)).map (· + c.pc)

/-- Whether slot `i` is next for its unit: no control instruction stands before it, every earlier slot of its unit has
fired, and so has the slot it depends on (R76, R78). -/
def CellSt.ready (c : CellSt) (i cls : Nat) : Bool :=
  let w := c.word i
  decide (c.pc ≤ i) && decide (i < 256) && !c.fired.contains i && w.cls == cls &&
    (c.before i).all (fun j => (c.word j).cls != 3 && ((c.word j).cls != cls || c.fired.contains j)) &&
    (!w.depValid || decide (w.dep < c.pc) || c.fired.contains w.dep)

/-- The next control instruction, when every slot before it has fired. -/
def CellSt.control (c : CellSt) : Option Nat :=
  ((List.range (256 - c.pc)).map (· + c.pc)).find? (fun i => (c.word i).cls == 3 || !c.fired.contains i) |>.filter
    (fun i => (c.word i).cls == 3)

/-- The command a slice runs. -/
def State.sliceCmd (s : State) (slice : Nat) : Option Cmd := match (s.atSlice slice).cmd with
  | some (q, seq) => s.cmd? q seq
  | none => none

/-- Whether the cell runs: it has a tile's part to do for a command that has not stopped, the tile's preamble has completed, its island's
clock runs (R124). -/
def State.cellRuns (s : State) (core cell : Nat) : Bool :=
  (s.sliceCmd (cellSlice core cell)).any (fun c => !c.work) &&
  !(s.atCell (cellKey core cell)).ended && !s.halted.contains (cellIsland core cell) &&
    !(s.atSlice (cellSlice core cell)).stopped && !s.preambleOpen (cellSlice core cell)

/-- Tokens of an input channel, and of an output channel. -/
def CellSt.inQ (c : CellSt) (i : Nat) : List (BitVec 272) := Tab.get [] c.inCh i
def CellSt.outQ (c : CellSt) (i : Nat) : List (BitVec 272) := Tab.get [] c.outCh i

/-- Whether a channel word, inputs 0 to 7 and outputs 8 to 11, enables the channel with a source (R113). -/
def CellSt.wired (c : CellSt) (i src : Nat) : Bool := let w := (Tab.get 0 c.chan i).toNat; bitOf w 0 && bitsOf w 2 1 == src

/-- Whether an operand field names a channel. -/
def isChan (n : Nat) : Bool := match operandOf n with
  | .chan _ => true
  | _ => false

/-- Whether a source can be read and a destination taken: a channel holds `k` tokens, or has `k` free places of four (R76). -/
def CellSt.srcReady (c : CellSt) (n k : Nat) : Bool := match operandOf n with
  | .chan i => decide (k ≤ (c.inQ i).length)
  | .bad => false
  | _ => true
def CellSt.dstReady (c : CellSt) (n k : Nat) : Bool := match operandOf n with
  | .chan i => decide ((c.outQ i).length + k ≤ 4)
  | .bad => false
  | _ => true

/-- Bytes of a source operand, at most `n` of them: tokens of a channel, of which only the first counts unless an accumulator of 64 B
is read (R71), a register, the accumulators from the one named, or scratchpad lines from the one named. Log 46 (DESIGN CHOICE). -/
def State.readSrc (s : State) (k : Nat) (c : CellSt) (x n : Nat) : Bytes := match operandOf x with
  | .line l => Memory.read s.spad (spadAt k l) (min n (64 * (512 - l)))
  | .chan i => ((c.inQ i).take (if n ≤ 32 then 1 else 2)).flatMap tokBytes
  | .vreg r => leBytes 64 (Tab.get 0 c.vreg r).toNat
  | .preg r => leBytes 2 (Tab.get 0 c.preg r).toNat
  | .lacc r => (List.range (min (16 - r) ((n + 63) / 64))).flatMap (fun i => (Tab.get {} c.lacc (r + i)).bytes)
  | .bad => []

/-- Remove `k` tokens from each input channel that the two sources name (R76). -/
def CellSt.popSrc (c : CellSt) (a b k : Nat) : CellSt :=
  let chans := ([a, b].filterMap (fun n => match operandOf n with
    | .chan i => some i
    | _ => none)).eraseDups
  { c with inCh := chans.foldl (fun t i => Tab.upd [] t i (fun l => l.drop k)) c.inCh }

/-- Put a result into a destination: `toks` tokens of 32 B into an output channel, or bytes into a register, accumulators of 64 B each
from the one named, or a scratchpad line. Log 48 (DESIGN CHOICE). -/
def State.writeDst (s : State) (k w toks : Nat) (b : Bytes) : State :=
  let x := pword w
  let tok := fun (d : Bytes) => token d (Config.tokenRoute w) x.last false (Config.tokenTag w)
  match operandOf x.dst with
  | .line l => { s with spad := Memory.write s.spad (spadAt k l) (b.take 64) }
  | .chan i => s.updCell k (fun c => { c with
      outCh := Tab.put [] i (c.outQ i ++ (List.range toks).map (fun j => tok (sliceBytes b (32 * j) 32))) c.outCh })
  | .vreg r => s.updCell k (fun c => { c with vreg := Tab.put 0 r (BitVec.ofNat 512 (leAt b 0 64)) c.vreg })
  | .preg r => s.updCell k (fun c => { c with preg := Tab.put 0 r (BitVec.ofNat 16 (leAt b 0 2)) c.preg })
  | .lacc r => s.updCell k (fun c => (List.range (min (16 - r) ((b.length + 63) / 64))).foldl (fun (c : CellSt) i => { c with
      lacc := Tab.put {} (r + i) (accOf (sliceBytes b (64 * i) 64)) c.lacc, accs := if c.accs.contains (r + i) then c.accs else c.accs ++ [r + i] }) c)
  | .bad => s

/-- What reading a protected word found (R69, R102, R103): 0 good, 1 an uncorrectable data word, 2 an uncorrectable program
or route word, 3 corrected. Answers whether the instruction goes on. -/
def State.wordCheck (s : State) (core cell badWord : Nat) : State × Bool :=
  let isl := cellIsland core cell
  let slice := cellSlice core cell
  if badWord = 3 then (s.errCountF (islPg isl) ISL_SP_ERR_CORR 1, true)
  else if badWord = 1 then
    (((s.errCountF (islPg isl) ISL_SP_ERR_UNCORR_DATA 1).fault 1 slice (cellKey core cell)).dataLoss slice isl, false)
  else if badWord = 2 then
    let s := s.cfgBad slice isl
    match (s.atSlice slice).cmd with
    | none => (s, false)
    | some (q, seq) => match s.cmd? q seq with
      | none => (s, false)
      | some c =>
        (((s.mouldRej c.ctx 0x15 (dMould c.desc) true slice).breakCmd q seq codeMouldInvalid 3 slice 0x15).flushCmd q seq, false)
  else (s, true)

/-- Rounding of an output of a slice's command (R48, R50, R128): site SITE_BASE + IMM, the tile's coordinate, the
element. -/
def State.siteRounding (s : State) (slice imm elem : Nat) : Rounding := match s.sliceCmd slice with
  | none => {}
  | some c =>
    let t := s.phaseOf c
    let tile := packTile ((s.boxOf c).coord ((s.atSlice slice).tile.getD 0))
    roundingOf c.acw c.seed (dTweak c.desc) (siteAt (s.mouldOf c).image (t.siteBase + imm) c.spr.iter) tile elem

/-- Output format of the rounding site SITE_BASE + IMM of the phase a slice runs (R111, R115). -/
def State.siteOut (s : State) (slice imm : Nat) : Fmt := match s.sliceCmd slice with
  | none => .fp32
  | some c => let t := s.phaseOf c; (siteFmt (s.mouldOf c).image t (t.siteBase + imm)).getD .fp32

/-- Index within the phase's output tile of the output that accumulator `i` of a cell holds (R50). Log 47 (DESIGN CHOICE). -/
def State.elemOf (s : State) (slice k i : Nat) : Nat := match s.sliceCmd slice with
  | none => i
  | some c => let t := s.phaseOf c; (t.elem t.rows (s.subTile slice c.spr.phase k) i).getD i

/-- How many positions of the contraction a slice's phase has; none where it contracts nothing (R122). -/
def State.depthOf (s : State) (slice : Nat) : Option Nat := match s.sliceCmd slice with
  | none => none
  | some c => let t := s.phaseOf c; if t.pair = 0xFF then none else some t.k

/-- Set warn bits of the command a slice runs (R43, R49). -/
def State.warn (s : State) (slice w : Nat) : State := match (s.atSlice slice).cmd with
  | some (q, seq) => if w = 0 then s else s.updCmd q seq (fun c => { c with warn := c.warn ||| w })
  | none => s

/-- Count a tensor firing: ISL_FIRE_CNT counts in units of 4,096 (low part kept beside it). -/
def State.fireCount (s : State) (isl : Nat) : State :=
  let low := 0x8000000 + 4 * isl
  let n := s.rd low + 1
  if n < 4096 then s.wr low n else (s.wr low 0).wr (islPg isl + ISL_FIRE_CNT) (s.rd (islPg isl + ISL_FIRE_CNT) + 1)

/-- A cell of a slice fires: its beacon advances (R429), the round has run at most one more cycle in which some cell fired (R430), and
its island no longer fills (R364). -/
def State.fires (s : State) (slice key : Nat) : State :=
  ((s.fillStop (cellIsland (key / 4096) (key % 4096))).beat 0 slice).updSlice slice (fun x => { x with cycles := x.cycles + 1 })

/-! The tensor unit (R70-R72). -/

/-- Elements `p` to `p + d - 1` of row `row` of an operand, and the warn bits. A scratchpad line, a register or the stationary buffer
holds rows of one block of 32, a token rows of the `d` elements of one firing; a sparse operand stores half of them and is expanded by
its index codes, eight to a row (R60, R61). Log 45 (DESIGN CHOICE). -/
def operandRow (f : Fmt) (b : Bytes) (chan sparse : Bool) (codes : List Nat) (p d row : Nat) : List Nat × Nat :=
  if sparse then
    let n := (p % 4 + d + 3) / 4
    let off := if chan then row * (d / 2) else row * 16 + p / 4 * 2
    let (es, w) := sparseExpand ((codes.drop (row * 8 + p / 4)).take n) ((List.range (2 * n)).map (fun i => f.element b (off + i)))
    ((es.drop (p % 4)).take d, w)
  else ((List.range d).map (fun i => f.element b (if chan then row * d + i else row * 32 + p + i)), 0)

/-- Positions of the contraction that one firing covers: a whole block, or what a token of an operand holds (R70, R72).
Log 44 (DESIGN CHOICE). -/
def fireDepth (pair side : Nat) (ca cb : Bool) : Nat :=
  let (_, _, k) := tensorShape pair
  let sparseChan := (side == 1 && ca) || (side == 2 && cb)
  let denseChan := (side != 1 && ca) || (side != 2 && cb)
  if !ca && !cb then 32 else if !sparseChan then k else if denseChan then max 4 k else max 4 (2 * k)

/-- Add one firing's products to the dot product of accumulator `j`: on the exact path the block contribution, else the products of the
chunk in progress, a full chunk being reduced (R42, R54, R71). Answers the warn bits too. Log 46 (DESIGN CHOICE). -/
def CellSt.contribute (c : CellSt) (fa fb : Fmt) (j : Nat) (p : BlockPair) : CellSt × Nat :=
  let c := if c.accs.contains j then c else { c with accs := c.accs ++ [j] }
  match fa with
  | .bf16 | .fp16 | .fp32 =>
    let ps := Tab.get [] c.prods j ++ treeProducts fa p.a p.b
    if ps.length < 32 then ({ c with prods := Tab.put [] j ps c.prods }, 0)
    else ({ c with prods := Tab.put [] j (ps.drop 32) c.prods,
                   part32 := Tab.put [] j (Tab.get [] c.part32 j ++ [treeReduce 5 (ps.take 32)]) c.part32 }, 0)
  | _ => let (a, w) := dotExact fa fb (Tab.get {} c.lacc j) [p]; ({ c with lacc := Tab.put {} j a c.lacc }, w)

/-- Convert what accumulators hold: long accumulators (R45, R47, R48), or FP32 dot products (R54). Log 46 (DESIGN CHOICE). -/
def CellSt.roundAccs (c : CellSt) (f : Fmt) (rds : List Rounding) (js : List Nat) : Bytes × Nat :=
  let tree := fun j => !(c.chunks j).isEmpty || (Tab.get none c.add32 j).isSome
  let (e, sc, w) := if js.any tree then f.convert rds (js.map (fun j => f32 (chunkTree (c.chunks j) (Tab.get none c.add32 j))))
    else f.convertAcc rds (js.map (fun j => Tab.get {} c.lacc j))
  (e ++ sc, w)

/-- Forget accumulators whose outputs have left; when none is left, the cell goes on to its next small tile. Log 46 (DESIGN CHOICE). -/
def CellSt.clearAccs (c : CellSt) (js : List Nat) : CellSt :=
  let left := c.accs.filter (fun j => !js.contains j)
  { c with
    lacc := js.foldl (fun t j => Tab.put {} j {} t) c.lacc, part32 := js.foldl (fun t j => Tab.put [] j [] t) c.part32,
    prods := js.foldl (fun t j => Tab.put [] j [] t) c.prods, add32 := js.foldl (fun t j => Tab.put none j none t) c.add32,
    steps := js.foldl (fun t j => Tab.put 0 j 0 t) c.steps, accs := left, outs := if left.isEmpty then c.outs + 1 else c.outs }

/-- Output elements of a format that leave in one firing: those of a token, or of a scratchpad line or register; one long
accumulator (R71, R76). Log 44 (DESIGN CHOICE). -/
def outFits (f : Fmt) (chan : Bool) : Nat := if f = .acc then 1 else min 16 ((if chan then 256 else 512) / f.width)

/-- Tokens that a result in a format takes (R71). Log 44 (DESIGN CHOICE). -/
def outToks (f : Fmt) : Nat := if f = .acc then 2 else 1

/-- Output stage of a cell (R48-R50, R71): accumulators `js` are rounded by the site of word `w` in its format, each as its own element
of the output tile, leave for the destination and are cleared. Log 44 (DESIGN CHOICE). -/
def State.outputTile (s : State) (k slice w : Nat) (js : List Nat) : State :=
  let x := pword w
  let f := s.siteOut slice x.imm
  let js := js.take (outFits f (isChan x.dst))
  let (b, wn) := (s.atCell k).roundAccs f (js.map (fun j => s.siteRounding slice x.imm (s.elemOf slice k j))) js
  ((s.updCell k (fun c => c.clearAccs js)).writeDst k w (outToks f) b).warn slice wn

/-- A tensor instruction fires (R42-R48, R54, R60, R70-R72): a small tile of m × 4 dot products goes on by the positions of this firing,
in the accumulators from the one that DST names, or from 0 when DST takes the outputs. Scale bytes and index codes stand in the
scratchpad line of the word: bytes 0 to 3 the rows of SRC_A, 4 to 7 those of SRC_B, from 8 the codes.
Log 31 (DESIGN CHOICE), 44 (DESIGN CHOICE). -/
def State.tensorFire (s : State) (k slice slot : Nat) (c : CellSt) : State :=
  let w := (Tab.get 0 c.prog slot).toNat
  let x := pword w
  let v := x.op / 16
  match pairOf (x.op % 16) with
  | none => s
  | some pr =>
    let (fa, fb) := if Config.pairSwapped v then (pr.2, pr.1) else pr
    let m := (tensorShape (x.op % 16)).1
    let side := Config.sparseSide v % 3
    let base := match operandOf x.dst with
      | .lacc r => r
      | _ => 0
    let line := Memory.read s.spad (spadAt k (Config.sideLine w % 512)) 64
    let codes := (List.range 32).map (fun i => leAt line (8 + i / 2) 1 / 16 ^ (i % 2) % 16)
    let held := Config.stationary v
    let ba := s.readSrc k c x.srcA (if isChan x.srcA then 32 else 512)
    let bb := if held then c.stat else s.readSrc k c x.srcB (if isChan x.srcB then 32 else 512)
    let cb := isChan x.srcB && !held
    let d := fireDepth (x.op % 16) side (isChan x.srcA) cb
    let done := Tab.get 0 c.steps base
    let n := match s.depthOf slice with
      | some t => min d (t - done)
      | none => d
    let p := if d = 32 then 0 else done % 32
    let ra := (List.range m).map (operandRow fa ba (isChan x.srcA) (side == 1) codes p d)
    let rb := (List.range 4).map (operandRow fb bb cb (side == 2) (codes.drop (if side = 1 then 8 * m else 0)) p d)
    let wn := (ra ++ rb).foldl (fun t e => t ||| e.2) 0
    let c' := { c.popSrc x.srcA x.srcB 1 with
      fired := slot :: c.fired, stat := if isChan x.srcB || held then c.stat else bb, steps := Tab.put 0 base (done + d) c.steps }
    let (c', wn) := (List.range (4 * m)).foldl (fun (t : CellSt × Nat) i =>
      let q : BlockPair := { a := ((ra.getD (i / 4) ([], 0)).1).take n, b := ((rb.getD (i % 4) ([], 0)).1).take n,
                             sa := leAt line (i / 4) 1, sb := leAt line (4 + i % 4) 1 }
      let r := t.1.contribute fa fb ((base + i) % 16) q
      (r.1, t.2 ||| r.2)) (c', wn)
    let s := ((s.fires slice k).updCell k (fun _ => c')).warn slice wn
    match operandOf x.dst with
    | .lacc _ => s
    | _ => s.outputTile k slice w (List.range (4 * m))

/-- Read several protected words one after another; the first that is uncorrectable stops the instruction (R69, R102). -/
def State.wordsCheck (s : State) (core cell : Nat) (bad : List Nat) : State × Bool :=
  bad.foldl (fun (t : State × Bool) b => if t.2 then t.1.wordCheck core cell b else t) (s, true)

/-- TENSOR_OP (R69-R72, R76): a tensor instruction of a running cell fires when it is next for the unit, its channel
operands hold tokens and its output has room; a long accumulator leaves as two tokens (R71). The last four operands say what reading
its program word, the words of SRC_A and SRC_B, and the word of scales and index codes found. -/
def execTensorOp (core cell slot badProg badA badB badSide : Nat) (s : State) : Answer :=
  onUnit (decide (core < 8) && decide (cell < 4096)) (
    let k := cellKey core cell
    let c := s.atCell k
    let slice := cellSlice core cell
    let x := c.word slot
    if s.cellRuns core cell && c.ready slot 0 && c.srcReady x.srcA 1 && c.srcReady x.srcB 1 &&
        c.dstReady x.dst (outToks (s.siteOut slice x.imm)) then
      match s.wordsCheck core cell [badProg, badA, badB, badSide] with
      | (s, false) => s
      | (s, true) => (s.fireCount (cellIsland core cell)).tensorFire k slice slot c
    else s)

/-! The vector unit (R56-R58, R73). -/

/-- Lane `i` of operand bytes. -/
def lane (b : Bytes) (i : Nat) : Nat := leAt b (4 * i) 4

/-- A number held between two bounds. -/
def clampInt (lo hi v : Int) : Nat := ((max lo (min hi v)) % (2 ^ 32 : Int)).toNat

/-- A saturating 32-bit integer form (R56): add, subtract, multiply, signed for 0 to 2, unsigned for 3 to 5. Log 36 (DESIGN CHOICE). -/
def satLane (code x y : Nat) : Nat :=
  let a : Int := if code < 3 then signedOf 32 x else x
  let b : Int := if code < 3 then signedOf 32 y else y
  let v := if code % 3 = 0 then a + b else if code % 3 = 1 then a - b else a * b
  if code < 3 then clampInt (-(2 ^ 31)) (2 ^ 31 - 1) v else clampInt 0 (2 ^ 32 - 1) v

/-- The lane-wise operations of the vector unit (R56, R57, R73), by the code Config gives an OP: FP32, then 32-bit integers modulo
2^32 with logic and shifts, then the saturating forms. -/
def laneOp (code : Nat) (rd : Rounding) (x y : Nat) : Nat :=
  let m := 2 ^ 32
  if code = 0 then f32Add rd x y else if code = 1 then f32Sub rd x y else if code = 2 then f32Mul rd x y
  else if code = 3 then f32Min x y else if code = 4 then f32Max x y else if code = 5 then f32Recip rd.sat x
  else if code = 6 then f32Rsqrt x else if code = 7 then f32Exp rd.sat x else if code = 8 then f32Log2 x
  else if code = 9 then (x + y) % m else if code = 10 then (x + m - y) % m else if code = 11 then x * y % m
  else if code = 12 then x &&& y else if code = 13 then x ||| y else if code = 14 then x ^^^ y
  else if code = 15 then x <<< (y % 32) % m else if code = 16 then x >>> (y % 32)
  else satLane (code - 17) x y

/-- The compares: FP32 equal, less, less or equal; integers equal, less signed, less unsigned. Log 35 (DEDUCED). -/
def laneCmp (code x y : Nat) : Bool :=
  if code = 0 then f32Eq x y else if code = 1 then f32Lt x y else if code = 2 then f32Le x y
  else if code = 3 then x == y else if code = 4 then decide (signedOf 32 x < signedOf 32 y) else decide (x < y)

/-- Predicate logic on 16 lanes: and, or, exclusive or, not. -/
def predOp (code a b : Nat) : Nat :=
  if code = 0 then a &&& b else if code = 1 then a ||| b else if code = 2 then a ^^^ b else 0xFFFF - a % 0x10000

/-- Numbers that a conversion reads: elements of format `f` packed in the operands, 32 for a block target and 16 for another; a block
source has its scale byte at the start of the second operand. Log 38 (DESIGN CHOICE). -/
def convSource (f g : Fmt) (a b : Bytes) : List Num :=
  let n := if g.isBlock then 32 else 16
  let d := if f.isBlock then a else sliceBytes a 0 64 ++ b
  let n := if f = .acc then min n (a.length / 64) else n
  (List.range n).map (fun i => (f.number (f.element (if f = .acc then a else d) i) (leAt b 0 1)).asRead)

/-- What the operation of a vector instruction gives by its code: 0 to 22 lane-wise, 23 to 28 compares into a predicate, 29 to 32
predicate logic, 33 conversion, 35 move, 36 addition of accumulators, 38 the upper half of a register; and the warn bits.
Log 35 (DEDUCED). -/
def vectorResult (code : Nat) (f g : Fmt) (rd : Nat → Rounding) (a b : Bytes) : Bytes × Nat :=
  let ls := List.range 16
  if code ≤ 22 then (ls.flatMap (fun i => leBytes 4 (laneOp code (rd i) (lane a i) (lane b i))), 0)
  else if code ≤ 28 then (leBytes 2 (maskOfList (ls.filter (fun i => laneCmp (code - 23) (lane a i) (lane b i)))), 0)
  else if code ≤ 32 then (leBytes 2 (predOp (code - 29) (leAt a 0 2) (leAt b 0 2)), 0)
  else if code = 33 then
    let vs := convSource f g a b
    let (e, sc, w) := if f = .acc then g.convertAcc (ls.map rd) ((List.range (min 16 (a.length / 64))).map (fun i => accOf (sliceBytes a (64 * i) 64)))
      else g.convert ((List.range vs.length).map rd) vs
    (e ++ sc, w)
  else if code = 36 then ((List.range (min (a.length / 64) (b.length / 64))).flatMap (fun i =>
    ((accOf (sliceBytes a (64 * i) 64)).add (accOf (sliceBytes b (64 * i) 64))).bytes), 0)
  else if code = 38 then (sliceBytes a 32 32, 0)
  else (a, 0)

/-- The accumulators that the outputs of a source field stand in: those from the one named, or all. -/
def accsFrom (n : Nat) : List Nat := match operandOf n with
  | .lacc r => (List.range (16 - r)).map (· + r)
  | _ => List.range 16

/-- Load FP32 lanes as the addends of the dot products from an accumulator on (R46, R54): onto the accumulator exactly when the phase
contracts on the exact path, else to be added last. -/
def CellSt.loadAddends (c : CellSt) (exact : Bool) (r : Nat) (a : Bytes) : CellSt :=
  (List.range (16 - r)).foldl (fun (c : CellSt) i =>
    let j := r + i
    let c := if c.accs.contains j then c else { c with accs := c.accs ++ [j] }
    if exact then { c with lacc := Tab.put {} j ((Tab.get {} c.lacc j).add (accOfNum (f32 (lane a i)).asRead)) c.lacc }
    else { c with add32 := Tab.put none j (some (lane a i)) c.add32 }) c

/-- A vector instruction fires (R56-R58, R71, R73): codes 34, the rounding of accumulators, and 37, the load of addends, work on the
accumulators themselves. Results are rounded as IMM's site and their own elements say. -/
def State.vectorFire (s : State) (k slice slot : Nat) (c : CellSt) : State :=
  let w := (Tab.get 0 c.prog slot).toNat
  let x := pword w
  let code := Config.vectorCode x.op % 39
  let f := (fmtOf (Config.vectorFrom x.op % 9)).getD .fp32
  let g := (fmtOf (Config.vectorTo x.op % 9)).getD .fp32
  let wide := code == 36 || ((code == 33 || code == 35) && f == .acc)
  let take := fun n => if isChan n then (if wide then 64 else 32) else if wide then 1024 else 64
  let a := s.readSrc k c x.srcA (take x.srcA)
  let b := s.readSrc k c x.srcB (take x.srcB)
  let s := (s.updCell k (fun c => { c.popSrc x.srcA x.srcB (if wide then 2 else 1) with fired := slot :: c.fired })).fires slice k
  if code = 34 then s.outputTile k slice w (accsFrom x.srcA)
  else if code = 37 then match operandOf x.dst with
    | .lacc r => s.updCell k (fun c => c.loadAddends (match s.sliceCmd slice with
        | some m => decide ((s.phaseOf m).pair < 9) || (s.phaseOf m).pair == 0xFF
        | none => true) r a)
    | _ => s
  else
    let (r, wn) := vectorResult code f g (fun i => s.siteRounding slice x.imm (s.elemOf slice k i)) a b
    (s.writeDst k w (if wide || g == .acc && code == 33 then 2 else 1) r).warn slice wn

/-- Tokens that a vector instruction takes of a channel operand, and puts into its output channel (R71, R76). -/
def vectorToks (op : Nat) : Nat :=
  let code := Config.vectorCode op % 39
  if code = 36 ∨ ((code = 33 ∨ code = 35) ∧ Config.vectorFrom op % 9 = 8) then 2 else 1
def State.vectorRoom (s : State) (slice : Nat) (x : PWord) : Nat :=
  let code := Config.vectorCode x.op % 39
  if code = 34 then outToks (s.siteOut slice x.imm)
  else if code = 36 ∨ (code = 35 ∧ Config.vectorFrom x.op % 9 = 8) ∨ (code = 33 ∧ Config.vectorTo x.op % 9 = 8) then 2 else 1

/-- VECTOR_OP (R73, R76): a vector instruction fires when it is next for the unit, its operands stand and its output has
room. -/
def execVectorOp (core cell slot badWord : Nat) (s : State) : Answer :=
  onUnit (decide (core < 8) && decide (cell < 4096)) (
    let k := cellKey core cell
    let c := s.atCell k
    let slice := cellSlice core cell
    let x := c.word slot
    if s.cellRuns core cell && c.ready slot 1 && c.srcReady x.srcA (vectorToks x.op) && c.srcReady x.srcB (vectorToks x.op) &&
        c.dstReady x.dst (s.vectorRoom slice x) then
      match s.wordCheck core cell badWord with
      | (s, false) => s
      | (s, true) => s.vectorFire k slice slot c
    else s)

/-! Requests of cells to the movers (R95, R96). -/

/-- The mover that a request of 32 B names, and the request (R95, R96): one of the slice's four movers. Log 49 (DESIGN CHOICE). -/
def cellReq (cell slice w : Nat) (c : Cmd) : Nat × MoverReq :=
  let fld := Config.moverField w
  let r := c.ranges.getD (fld 1 % 32 + 1) {}
  (slice % 4 * 4 + fld 8 % 4,
    { op := fld 0 % 6, q := c.q, seq := c.seq, ctx := c.ctx, gen := c.gen, key := r.key, loc := r.loc,
      addr := fld 2 * 256, dev := cell, range := fld 1 % 32 + 1, share := slice, lines := fld 3, cell := relCell slice (fld 5 % 1024),
      sline := fld 4 % 32768, group := fld 6 % 16, core := fld 10 % 32, route := fld 7 % 64, islands := fld 9 % 65536 })

/-- Take the control tokens at the heads of a cell's output channels to the island port into the movers' queues, as far as these have
room (R95, R113). -/
def State.portDrain (s : State) (core cell : Nat) : State :=
  let k := cellKey core cell
  let slice := cellSlice core cell
  (List.range 4).foldl (fun s i =>
    let c := s.atCell k
    match (c.outQ i).head?, s.sliceCmd slice with
    | some t, some cmd =>
      if c.wired (8 + i) 1 && tokCtrl t then
        let (m, r) := cellReq cell slice (leNat (tokBytes t)) cmd
        if (s.moverQueue core m).length < 32 then
          (s.updCell k (fun c => { c with outCh := Tab.upd [] c.outCh i (fun l => l.drop 1) })).setMover core m (s.moverQueue core m ++ [r])
        else s
      else s
    | _, _ => s) s

/-- MOVER_REQUEST (R76, R96): the request of the instruction, its word and the first 24 B of SRC_A, leaves as a control token by the
output channel that DST names, and by an island port enters a mover's queue; without a channel it goes to the mover at once, when the
queue of 32 has a place (R95). -/
def execMoverRequest (core cell slot : Nat) (s : State) : Answer :=
  onUnit (decide (core < 8) && decide (cell < 4096)) (
    let k := cellKey core cell
    let c := s.atCell k
    let slice := cellSlice core cell
    let x := c.word slot
    let word := (Tab.get 0 c.prog slot).toNat
    let b := leBytes 8 word ++ sliceBytes (s.readSrc k c x.srcA (if isChan x.srcA then 32 else 64)) 0 24
    match s.sliceCmd slice with
    | none => s
    | some cmd =>
      let (m, r) := cellReq cell slice (leNat b) cmd
      let room := if isChan x.dst then c.dstReady x.dst 1 else decide ((s.moverQueue core m).length < 32)
      if s.cellRuns core cell && c.ready slot 2 && c.srcReady x.srcA 1 && c.srcReady x.srcB 1 && room then
        let s := (s.updCell k (fun c => { c.popSrc x.srcA x.srcB 1 with fired := slot :: c.fired })).fires slice k
        match operandOf x.dst with
        | .chan i =>
          let t := token b (Config.tokenRoute word) x.last true (Config.tokenTag word)
          (s.updCell k (fun c => { c with outCh := Tab.put [] i (c.outQ i ++ [t]) c.outCh })).portDrain core cell
        | _ => s.setMover core m (s.moverQueue core m ++ [r])
      else s)

/-! ### Control instructions (R111) -/

/-- A control instruction of operation `op` that a running cell has reached: `f` answers the cell after it. -/
def State.controlOp (s : State) (core cell op : Nat) (f : CellSt → Nat → PWord → CellSt) : State :=
  let k := cellKey core cell
  let c := s.atCell k
  match c.control with
  | none => s
  | some i =>
    let x := c.word i
    if s.cellRuns core cell && x.op == op then s.updCell k (fun c => { f c i x with fired := [] }) else s

/-- An island all of whose cells have executed ROUND_END waits for the next tile, and fills (R364). Log 178 (DESIGN CHOICE). -/
def State.islandEnd (s : State) (slice isl : Nat) : State :=
  if (s.cells.filter (fun e => inSlice slice e.1 && cellIsland (e.1 / 4096) (e.1 % 4096) == isl)).all (fun e => e.2.ended) then
    s.fillIsland slice isl else s

/-- ROUND_END: the cell has finished its part of the round; the last cell of a slice ends the tile (R111, R123, R124). -/
def execRoundEnd (core cell : Nat) (s : State) : Answer :=
  onUnit (decide (core < 8) && decide (cell < 4096)) (
    let before := (s.atCell (cellKey core cell)).ended
    let s := s.controlOp core cell 1 (fun c _ _ => { c with ended := true, reps := [] })
    if before = false ∧ (s.atCell (cellKey core cell)).ended then ((s.islandEnd (cellSlice core cell) (cellIsland core cell)).tileEnd (cellSlice core cell)) else s)

/-- JUMP to the slot in IMM[7:0] (R111). -/
def execJump (core cell : Nat) (s : State) : Answer :=
  onUnit (decide (core < 8) && decide (cell < 4096)) (s.controlOp core cell 2 (fun c _ x => { c with pc := x.imm % 256 }))

/-- BRANCH to the slot in IMM[7:0] when predicate register IMM[10:8], lane 0, is 1 (R111). -/
def execBranch (core cell : Nat) (s : State) : Answer :=
  onUnit (decide (core < 8) && decide (cell < 4096)) (s.controlOp core cell 3 (fun c i x =>
    { c with pc := if (Tab.get 0 c.preg (x.imm / 256 % 8)).toNat % 2 = 1 then x.imm % 256 else i + 1 }))

/-- The count a REPEAT reads: lane 0 of a vector register, a predicate register, or the low word of an accumulator. -/
def CellSt.count (c : CellSt) (n : Nat) : Nat := match operandOf n with
  | .vreg r => (Tab.get 0 c.vreg r).toNat % 2 ^ 32
  | .preg r => (Tab.get 0 c.preg r).toNat
  | .lacc r => (Tab.get {} c.lacc r).a.toNat % 2 ^ 32
  | _ => 0

/-- REPEAT the slots from IMM[7:0] to this one, as often as register SRC_A holds (R111). `reps` keeps one more than the returns
still to make, so that 0 stands for a loop not entered. -/
def execRepeat (core cell : Nat) (s : State) : Answer :=
  onUnit (decide (core < 8) && decide (cell < 4096)) (s.controlOp core cell 4 (fun c i x =>
    let left := match Tab.get 0 c.reps i with
      | 0 => c.count x.srcA
      | n + 1 => n
    if left = 0 then { c with pc := i + 1, reps := Tab.put 0 i 0 c.reps }
    else { c with pc := x.imm % 256, reps := Tab.put 0 i left c.reps }))

/-! ### Routers (R79-R83) -/

/-- A token stands at a port of a router: from a link's buffer, or from the cell's output channels by its virtual channel. -/
def CellSt.portHead (c : CellSt) (port vc : Nat) : Option (BitVec 272 × Nat) :=
  if port < 4 then ((Tab.get [] c.link (port * 2 + vc)).head?).map (fun t => (t, 0))
  else (List.range 4).findSome? (fun i => match (c.outQ i).head? with
    | some t => if (if tokCtrl t then 1 else 0) = vc ∧ c.wired (8 + i) 0 then some (t, i) else none
    | none => none)

/-- Take the token from the port. -/
def CellSt.portPop (c : CellSt) (port vc i : Nat) : CellSt :=
  if port < 4 then { c with link := Tab.upd [] c.link (port * 2 + vc) (fun l => l.drop 1) }
  else { c with outCh := Tab.upd [] c.outCh i (fun l => l.drop 1) }

/-- Places in a link's buffer (R82 gives separate buffering; its depth is the model's). Log 50 (DESIGN CHOICE). -/
def linkDepth : Nat := 4

/-- Local input channel of a delivery (R81, R113). -/
def localChan (e : Nat) (t : BitVec 272) : Nat := if rTagSel e then tokTag t % 8 else rLocal e

/-- Whether output port `p` of an entry can take a token: a place in the neighbour's buffer, or in a local channel that the
configuration opens to the router; a closed gate takes it to drop it. Log 50 (DESIGN CHOICE). -/
def State.portRoom (s : State) (core cell e : Nat) (t : BitVec 272) (p : Nat) : Bool :=
  if p = 4 then
    let c := s.atCell (cellKey core cell)
    c.wired (localChan e t) 0 && decide ((c.inQ (localChan e t)).length < 4)
  else match neighbour cell p with
    | none => true
    | some n => !s.gateOpen (cellSlice core cell) (cellSlice core n) ||
        decide ((Tab.get [] (s.atCell (cellKey core n)).link (facing p * 2 + rVc e)).length < linkDepth)

/-- Send a token through output port `p`: to the local channel, to the neighbour, or dropped at a closed gate, which counts
it and stops the command that sent it with RIGHTS (R83). Log 51 (DESIGN CHOICE). -/
def State.portSend (s : State) (core cell e : Nat) (t : BitVec 272) (p : Nat) : State :=
  if p = 4 then s.updCell (cellKey core cell) (fun c => { c with
    inCh := Tab.upd [] c.inCh (localChan e t) (fun l => l ++ [t]) })
  else match neighbour cell p with
    | none => s
    | some n =>
      if s.gateOpen (cellSlice core cell) (cellSlice core n) then
        s.updCell (cellKey core n) (fun c => { c with
          link := Tab.upd [] c.link (facing p * 2 + rVc e) (fun l => l ++ [tokReroute t (rNext e)]) })
      else
        let isl := cellIsland core n
        let s := s.errCount (islPg isl) ISL_XPART_DROP 1
        match (s.atSlice (cellSlice core cell)).cmd with
        | some (q, seq) => (s.breakCmd q seq codeRights 0 isl).flushCmd q seq
        | none => s

/-- ROUTER_TOKEN_FORWARD (R79-R83): the router takes the token at a port (4 the cell itself) and virtual channel (1 the
control channel) and copies it to the ports of its route entry, when every one has room. A control token goes first.
Log 42 (DESIGN CHOICE). -/
def execRouterTokenForward (core cell port vc : Nat) (s : State) : Answer :=
  onUnit (decide (core < 8) && decide (cell < 4096) && decide (port < 5) && decide (vc < 2)) (
    let k := cellKey core cell
    let c := s.atCell k
    match c.portHead port vc with
    | none => s
    | some (t, i) =>
      if s.halted.contains (cellIsland core cell) ∨ (vc = 0 ∧ (c.portHead port 1).isSome) then s
      else
        let e := (Tab.get 0 c.routes (tokRoute t)).toNat
        let ps := onesBelow 5 (rOut e)
        if ps.all (s.portRoom core cell e t) then
          ps.foldl (fun s p => s.portSend core cell e t p) (s.updCell k (fun c => c.portPop port vc i))
        else s)

/-! ### Quiescence (R100, R101) -/

/-- The conditions of R100 for a slice. Log 58 (DESIGN CHOICE). -/
def State.isQuiescent (s : State) (slice : Nat) : Bool :=
  (s.cells.filter (fun e => inSlice slice e.1)).all (fun e =>
    e.2.ended && e.2.inCh.isEmpty && e.2.outCh.isEmpty && e.2.link.isEmpty) &&
  (List.range 4).all (fun m => (s.moverQueue (slice / 4) (slice % 4 * 4 + m)).isEmpty) &&
  (s.atSlice slice).tile.isNone && (s.atSlice slice).queued.isEmpty

/-- SLICE_QUIESCENT (R100, R101): the detection tree sets the slice's bit; binding changes held for it take effect.
Log 58 (DESIGN CHOICE). -/
def execSliceQuiescent (slice : Nat) (s : State) : Answer :=
  onUnit (decide (slice < 32)) (
    if s.isQuiescent slice = false then s
    else
      let s := s.setQuiet slice true
      let pg := Pg.base .core (slice / 4)
      (s.set pg CORE_QUIET_HELD (putBit (s.get pg CORE_QUIET_HELD) (slice % 4) false)).setGates (slice / 4))

end Sys2Proof.Machine
end

