-- ==== Sys2Proof/Machine/Movers.lean ====
section
/-! DEFINITION. The shared store and its data movers (R88-R97, R179, R278, R279, R284). -/

namespace Sys2Proof.Machine

open Sys2Proof

/-! ### Words of the banks and the scratchpads (R69, R102) -/

/-- A word that a mover or a delivery read in a share's bank (R69): 0 good, 1 uncorrectable, 3 corrected; the bank is the line's index
modulo 32 (R88). Answers whether it is good. -/
def State.bankWord (s : State) (core line badWord : Nat) : State × Bool :=
  if badWord = 3 then (s.errCountF (shstPg core) SHST_BANK_ERR_CORR 1, true)
  else if badWord = 1 then ((s.errCountF (shstPg core) SHST_BANK_ERR_UNCORR 1).set (shstPg core) SHST_BANK_ERR_LAST_BANK (line % 32), false)
  else (s, true)

/-- A word that a mover read in a cell's scratchpad (R69). -/
def State.padWord (s : State) (core cell badWord : Nat) : State × Bool :=
  let isl := cellIsland core cell
  if badWord = 3 then (s.errCountF (islPg isl) ISL_SP_ERR_CORR 1, true)
  else if badWord = 1 then ((s.errCountF (islPg isl) ISL_SP_ERR_UNCORR_DATA 1).fault 1 (cellSlice core cell) (cellKey core cell), false)
  else (s, true)

/-! ### The merge table (R90-R92) -/

/-- A read of a device-memory or share line reaches the shared store (R90, R91): it merges into an open entry of the same line, key index
and partition, or issues with an entry of its own, or, the table being full, without one. Log 52 (DESIGN CHOICE). -/
def State.storeRead (s : State) (core loc line key part : Nat) (d : LineDest) : State :=
  let pg := shstPg core
  let l := (s.atCore core).merge
  match l.find? (fun e => e.isOpen && e.loc == loc && e.line == line && e.key == key && e.part == part) with
  | some e =>
    let e' := { e with dests := e.dests ++ [d], isOpen := decide (e.dests.length + 1 < 32) }
    (s.setMerge core (l.set (l.idxOf e) e')).bump64 (pg + SHST_MERGE_CNT) 1
  | none =>
    let s := s.bump64 (pg + SHST_READ_CNT) 1
    let e : Merge := { loc := loc, line := line, key := key, part := part, dests := [d] }
    if l.length < 512 then s.setMerge core (l ++ [e])
    else (s.updCore core (fun c => { c with loose := c.loose ++ [{ e with isOpen := false }] })).set pg SHST_MERGE_STAT_FULL_SEEN 1

/-- A request to a share of another partition is dropped and counted (R89). Log 53 (DESIGN CHOICE). -/
def State.shareDrop (s : State) (core : Nat) : State := s.updCore core (fun c => { c with dropped := c.dropped + 1 })

/-- The read of a device-memory line by a cell lies in no range of the command its slice runs (R179). Log 57 (DEDUCED). -/
def State.cellStrays (s : State) (slice : Nat) (r : LineRead) : Option (Cmd × Nat) := match s.sliceCmd slice with
  | none => none
  | some c => s.strays { dpa := 256 * r.line, key := r.key, ctx := r.ctx, gen := r.gen, q := c.q, seq := c.seq } 256

/-- SHST_READ_REQUEST (R89-R92, R163, R179): a line read of a cell merges or issues; host, remote and atomic reads never merge; a share
of another partition refuses it, an address outside the command's ranges stops the command, a stale generation drops it.
Log 52 (DESIGN CHOICE). -/
def execShstReadRequest (core : Nat) (r : LineRead) (s : State) : Answer :=
  onUnit (decide (core < 8)) (
    let slice := cellSlice core r.dest
    let stop := fun (s : State) (code id detail : Nat) => match (s.atSlice slice).cmd with
      | some (q, seq) => (s.breakCmd q seq code 0 id detail).flushCmd q seq
      | none => s
    if r.loc = 1 then
      if s.sliceOwner (r.line / 32768) = some r.part then s.storeRead core 1 r.line r.key r.part (.cell r.dest)
      else stop (s.shareDrop core) codeRights (128 + core) 0
    else if 2 ≤ r.loc then s.bump64 (shstPg core + SHST_READ_CNT) 1
    else match s.cellStrays slice r, s.place (256 * r.line) with
      | some (c, i), _ => stop (s.xlatRej c.ctx 0x21 ((c.ranges.getD i {}).seg) i true) codeRights (128 + core) 0x21
      | none, none => s
      | none, some p =>
        if Tab.get 0 s.gens r.ctx ≠ r.gen then s.errCount (napPg (p.chan / 16)) NAP_STALE_DROP 1
        else s.storeRead core 0 r.line r.key r.part (.cell r.dest))

/-! ### Deliveries to cells -/

/-- A cell's input channel fed by a source (1 broadcast tree, 2 island port). -/
def CellSt.fedBy (c : CellSt) (src : Nat) : Option Nat := (List.range 8).find? (fun i => c.wired i src)

/-- Deliver a 256 B line to a cell: as eight tokens into the channel its configuration gives the source (those beyond four
stand for the branch held back, R94), else into its scratchpad from line `at_`. Log 56 (DESIGN CHOICE). -/
def State.deliverCell (s : State) (k src at_ : Nat) (line : Bytes) : State :=
  match (s.atCell k).fedBy src with
  | some i =>
    let toks := (List.range 8).map (fun j => token (sliceBytes line (32 * j) 32) 0 (j == 7) false i)
    s.updCell k (fun c => { c with inCh := Tab.put [] i (c.inQ i ++ toks) c.inCh })
  | none =>
    if at_ + 4 ≤ 512 then { s with spad := Memory.write s.spad (spadAt k at_) (sliceBytes line 0 256) } else s

/-- A line reaches a destination of its entry: a cell, down the broadcast tree (1) or by the island port (2), or a share, where it brings
the LINE_IN that waits for it nearer to its end. -/
def State.deliverLine (s : State) (core src : Nat) (line : Bytes) : LineDest → State
  | .cell c => s.deliverCell (cellKey core c) src (Config.spreadLine c % 512) line
  | .share slice sline m =>
    let s := s.shareWrite slice sline line
    match (s.moverQueue core m).find? (fun r => r.op == 0 && r.share == slice && r.sent != 0 && !r.done && decide (r.sline ≤ sline) &&
        decide (sline < r.sline + r.lines)) with
    | some r => s.moverBack core m r 256
    | none => s

/-- The commands that the destinations of a read work for. -/
def State.destCmds (s : State) (core : Nat) (l : List LineDest) : List (Nat × Nat) :=
  (l.filterMap (fun d => match d with
    | .cell c => (s.atSlice (cellSlice core c)).cmd
    | .share slice sline m => ((s.moverQueue core m).find? (fun r => r.op == 0 && r.share == slice && !r.done && decide (r.sline ≤ sline) &&
        decide (sline < r.sline + r.lines))).map (fun r => (r.q, r.seq)))).eraseDups

/-- SHST_LINE_ARRIVE (R69, R90, R91, R94, R152): the line of an outstanding read, with or without an entry, goes to every destination in
one pass, down the broadcast tree to several, by the island port to one; the entry is gone. A read that fails, or an uncorrectable word of
a bank, stops every command that waits for the line. -/
def execShstLineArrive (core : Nat) (line : LineAt) (key part : Nat) (s : State) : Answer :=
  onUnit (decide (core < 8)) (
    let loc := line.loc
    let badWord := line.badWord
    let line := line.line
    let c := s.atCore core
    let mine := fun (e : Merge) => e.loc == loc && e.line == line && e.key == key && e.part == part
    match c.merge.find? mine, c.loose.find? mine with
    | none, none => s
    | f, g =>
      let e := (f.orElse (fun _ => g)).getD { line := line, key := key, part := part, dests := [] }
      let s := (s.beat 1 core).setMerge core (c.merge.erase e)
      let s := if f.isSome then s else s.updCore core (fun c => { c with loose := c.loose.erase e })
      let lose := fun (s : State) (code kind id : Nat) => (s.destCmds core e.dests).foldl (fun s w =>
        (s.breakCmd w.1 w.2 code kind id).flushCmd w.1 w.2) s
      let give := fun (s : State) (b : Bytes) => e.dests.foldl (fun s d => s.deliverLine core (if 1 < e.dests.length then 1 else 2) b d) s
      if loc = 1 then match s.bankWord (line / 32768 / 4) line badWord with
        | (s, true) => give s (s.shareRead (line / 32768) (line % 32768) 1)
        | (s, false) => lose s codeMemUncorrectable 0 (128 + line / 32768 / 4)
      else match s.devRead key (line * 256) 256 with
        | (s, .inr b) => give s b
        | (s, .inl x) => lose s x.breakOf.1 x.breakOf.2.1 x.breakOf.2.2)

/-! ### Requests of the movers (R95-R97) -/

/-- The request a mover works on: the first of its queue that is not done; none while the shared-store island is halted (R528).
Log 59 (DESIGN CHOICE). -/
def State.moverHead (s : State) (core m op : Nat) : Option MoverReq :=
  match (s.moverQueue core m).find? (fun r => !r.done) with
  | some r => if r.op = op ∧ s.halted.contains (128 + core) = false then some r else none
  | none => none

/-- Mark the request as done: its data are readable, or its write is accepted (R97). -/
def State.moverDone (s : State) (core m : Nat) (r : MoverReq) : State :=
  let l := s.moverQueue core m
  ((s.beat 0 (core * 4 + m / 4)).beat 1 core).setMover core m (l.set (l.idxOf r) { r with done := true })

/-- Note the lines that a request has asked for, and where their bytes come in the command's stream. -/
def State.moverSent (s : State) (core m : Nat) (r : MoverReq) (n base : Nat) : State :=
  let l := s.moverQueue core m
  s.setMover core m (l.set (l.idxOf r) { r with sent := r.sent + n, base := base, done := r.lines == 0 })

/-- Stop the command of a request (R89, R102, R179). -/
def State.moverStop (s : State) (r : MoverReq) (code kind id detail : Nat) : State :=
  (s.breakCmd r.q r.seq code kind id detail).flushCmd r.q r.seq

/-- Take the request out of the queue with nothing done: dropped. -/
def State.moverDrop (s : State) (core m : Nat) (r : MoverReq) : State :=
  s.setMover core m ((s.moverQueue core m).erase r)

/-- Requests of a stale generation are dropped and counted at the narrow access path of each line (R163). Log 85 (DESIGN CHOICE). -/
def State.staleLines (s : State) (dpa n : Nat) : State :=
  (List.range n).foldl (fun s i => match s.place (dpa + 256 * i) with
    | some p => s.errCount (napPg (p.chan / 16)) NAP_STALE_DROP 1
    | none => s) s

/-- A request's command, share and generation let it pass: answers the command and its range (R89, R96, R163, R179).
Log 53 (DESIGN CHOICE), 57 (DEDUCED). -/
def State.moverAdmit (s : State) (core m : Nat) (r : MoverReq) (memory : Bool) : State × Option (Cmd × Range) :=
  match s.cmd? r.q r.seq with
  | none => (s.moverDrop core m r, none)
  | some c =>
    let g := c.ranges.getD r.range {}
    if s.sliceOwner r.share ≠ some c.part then ((s.shareDrop core).moverStop r codeRights 0 (128 + core) 0, none)
    else if memory ∧ g.loc = 0 ∧ Tab.get 0 s.gens r.ctx ≠ r.gen then
      ((s.staleLines (g.addr + r.addr) r.lines).moverDrop core m r, none)
    else if memory ∧ g.len < r.addr + 256 * r.lines then
      ((s.xlatRej c.ctx 0x21 g.seg r.range true).moverStop r codeRights 4 c.q 0x21, none)
    else (s, some (c, g))

/-- Line reads that a mover may have outstanding (R95). -/
def moverReads : Nat := 128

/-- LINE_IN (R90, R95, R96, R179, R183): the line reads of the request go out, of device memory through the merge table and at most 128
at a time, of host memory or a remote segment once; each line enters the share as it arrives. Log 60 (DESIGN CHOICE). -/
def execLineIn (core mover : Nat) (s : State) : Answer :=
  onUnit (decide (core < 8) && decide (mover < 16)) (
    match s.moverHead core mover 0 with
    | none => s
    | some r => match s.moverAdmit core mover r true with
      | (s, none) => s
      | (s, some (c, g)) =>
        if g.loc = 0 then
          let n := min (r.lines - r.sent) (moverReads - (r.sent - r.back / 256))
          let s := s.moverSent core mover r n 0
          (List.range n).foldl (fun s i => s.storeRead core 0 ((g.addr + r.addr) / 256 + r.sent + i) g.key c.part
            (.share r.share (r.sline + r.sent + i) mover)) s
        else if r.sent ≠ 0 ∨ c.retrans then s
        else
          let s := ((s.bump64 (shstPg core + SHST_READ_CNT) r.lines).moverSent core mover r r.lines c.asked).updCmd r.q r.seq
            (fun c => { c with asked := c.asked + 256 * r.lines })
          if g.loc = 1 then s.hostRangeRead (s.ownerOf (ctxPg c.ctx)) g r.addr (256 * r.lines)
          else s.remoteRead c g r.addr (256 * r.lines) c.asked)

/-- Run `f` on the share lines that a request reads, unless a word of them is uncorrectable: that stops its command (R102). -/
def State.fromShare (s : State) (core : Nat) (r : MoverReq) (run : MoverRun) (f : State → Bytes → State) : State :=
  match s.bankWord core run.badLine run.badWord with
  | (s, true) => f s (s.shareRead r.share r.sline r.lines)
  | (s, false) => s.moverStop r codeMemUncorrectable 0 (128 + core) 0

/-- LINE_OUT (R91, R96, R97, R187): share lines go to device memory, host memory or a remote segment; merge entries of the
lines close. -/
def execLineOut (core : Nat) (run : MoverRun) (s : State) : Answer :=
  onUnit (decide (core < 8) && decide (run.mover < 16)) (
    match s.moverHead core run.mover 1 with
    | none => s
    | some r => match s.moverAdmit core run.mover r true with
      | (s, none) => s
      | (s, some (c, g)) =>
        if g.loc = 1 ∧ c.retrans then s
        else s.fromShare core r run (fun s b =>
          let s := if g.loc = 0 then s.closeMerge core 0 ((g.addr + r.addr) / 256) r.lines else s
          (s.rangeWrite c g r.addr b).moverDone core run.mover r))

/-- Lines of a byte string. -/
def linesOfBytes (b : Bytes) : List Bytes := (List.range (b.length / 256)).map (fun i => sliceBytes b (256 * i) 256)

/-- Deliver lines to a cell one after another. -/
def State.deliverLines (s : State) (k src at_ : Nat) (b : Bytes) : State :=
  let ls := linesOfBytes b
  (List.range ls.length).foldl (fun s i => s.deliverCell k src (at_ + 4 * i) (ls.getD i [])) s

/-- SPREAD (R96): share lines to one cell by its island port. -/
def execSpread (core : Nat) (run : MoverRun) (s : State) : Answer :=
  onUnit (decide (core < 8) && decide (run.mover < 16)) (
    match s.moverHead core run.mover 2 with
    | none => s
    | some r => match s.moverAdmit core run.mover r false with
      | (s, none) => s
      | (s, some _) => s.fromShare core r run (fun s b =>
          (s.deliverLines (cellKey core r.cell) 2 (Config.spreadLine r.route % 512) b).moverDone core run.mover r))

/-- The cells of broadcast group `g` on local island `i` of a core (R93, R110): the row and column masks that the configuration of the
island's slice defines for it in a phase. Log 54 (DESIGN CHOICE). -/
def State.groupCells (s : State) (core i g phase : Nat) : List Nat :=
  let slice := islandSlice (core * 16 + i)
  let k := i / 4 % 2 * 2 + i % 2
  let b := s.groupsOf slice phase
  (onesBelow 16 (leAt b (k * 64 + g * 4) 2)).flatMap (fun v => (onesBelow 16 (leAt b (k * 64 + g * 4 + 2) 2)).map (fun u =>
    relCell slice ((k / 2 * 16 + v) * 32 + (k % 2 * 16 + u))))

/-- The islands that a broadcast of a request reaches: those it names in slices of the request's partition (R83, R93).
Log 54 (DESIGN CHOICE). -/
def State.castIslands (s : State) (core : Nat) (r : MoverReq) : List Nat :=
  (onesBelow 16 r.islands).filter (fun i => s.sliceOwner (islandSlice (core * 16 + i)) == s.sliceOwner r.share)

/-- BCAST (R93, R94, R96): share lines down the broadcast tree to a group on the islands named, in the order they leave the root. -/
def execBcast (core : Nat) (run : MoverRun) (s : State) : Answer :=
  onUnit (decide (core < 8) && decide (run.mover < 16)) (
    match s.moverHead core run.mover 3 with
    | none => s
    | some r => match s.moverAdmit core run.mover r false with
      | (s, none) => s
      | (s, some (c, _)) => s.fromShare core r run (fun s b =>
          ((s.castIslands core r).foldl (fun s i => (s.groupCells core i r.group c.spr.phase).foldl (fun s n =>
            s.deliverLines (cellKey core n) 1 (Config.spreadLine r.group % 512) b) s) s).moverDone core run.mover r))

/-- Take up to `n` data tokens that stand in the output channels of a cell to its island port, oldest first and channel by channel, with
their bytes (R113). Log 55 (DESIGN CHOICE). -/
def CellSt.portTake (c : CellSt) (n : Nat) : CellSt × Bytes :=
  (List.range 4).foldl (fun (t : CellSt × Bytes) i =>
    if t.1.wired (8 + i) 1 then
      let l := ((t.1.outQ i).takeWhile (fun x => !tokCtrl x)).take (n - t.2.length / 32)
      ({ t.1 with outCh := Tab.upd [] t.1.outCh i (fun q => q.drop l.length) }, t.2 ++ l.flatMap tokBytes)
    else t) (c, [])

/-- GATHER (R96, R113): data of a cell into the share: the tokens that wait at its island port, then its scratchpad from the line of the
request's route. Log 55 (DESIGN CHOICE). -/
def execGather (core : Nat) (run : MoverRun) (s : State) : Answer :=
  onUnit (decide (core < 8) && decide (run.mover < 16)) (
    match s.moverHead core run.mover 4 with
    | none => s
    | some r => match s.moverAdmit core run.mover r false with
      | (s, none) => s
      | (s, some _) => match s.padWord core r.cell run.badWord with
        | (s, false) => s.moverStop r codeMemUncorrectable 0 (cellIsland core r.cell) 0
        | (s, true) =>
          let k := cellKey core r.cell
          let (c, toks) := (s.atCell k).portTake (8 * r.lines)
          let at_ := Config.spreadLine r.route % 512
          let pad := Memory.read s.spad (spadAt k at_) (min (256 * r.lines - toks.length) (64 * (512 - at_)))
          ((s.updCell k (fun _ => c)).shareWrite r.share r.sline (toks ++ pad)).moverDone core run.mover r)

/-- XCORE (R89, R96): share lines to the share of a slice of another core of the same partition. -/
def execXcore (core : Nat) (run : MoverRun) (s : State) : Answer :=
  onUnit (decide (core < 8) && decide (run.mover < 16)) (
    match s.moverHead core run.mover 5 with
    | none => s
    | some r => match s.moverAdmit core run.mover r false with
      | (s, none) => s
      | (s, some (c, _)) =>
        if s.sliceOwner r.core ≠ some c.part then (s.shareDrop (r.core / 4)).moverStop r codeRights 0 (128 + r.core / 4) 0
        else s.fromShare core r run (fun s b => (s.shareWrite r.core r.sline b).moverDone core run.mover r))

/-! ### Saves and restores (R278, R279, R284) -/

/-- Commands whose data a save finds lost, those of the configuration that the slice holds: they stop and break, and their entries in
the record have STATE 1 (R102, R284). -/
def State.saveLost (s : State) (r : MoverReq) (isl : Nat) : State :=
  let x := r.ctx
  let cs := (s.computesOf x).filter (fun c => (s.atSlice r.share).cfg == some (s.cfgOf c))
  let rank := (r.addr - s.recordAt x 0) / saveRecord
  let count := ((s.atCtx x).saved.getD []).length
  let s := s.saveWrite x (r.addr + saveCtl) (s.controlBlock x r.share rank count (cs.map (fun c => (c.q, c.seq))))
  cs.foldl (fun s c => (s.breakCmd c.q c.seq codeMemUncorrectable 0 isl).flushCmd c.q c.seq) s

/-- SAVE (R69, R102, R279): the movers write a slice's scratchpads and share to its record. `badLine` names the share line of a bad word,
or, from 32,768 on, the cell of a bad scratchpad word. Log 138 (DESIGN CHOICE). -/
def execSave (core : Nat) (run : MoverRun) (s : State) : Answer :=
  onUnit (decide (core < 8) && decide (run.mover < 16)) (
    match s.moverHead core run.mover 6 with
    | none => s
    | some r =>
      let cell := relCell r.share (run.badLine - 32768)
      let (s, ok) := if run.badLine < 32768 then s.bankWord core run.badLine run.badWord else s.padWord core cell run.badWord
      let s := if ok then s else s.saveLost r (if run.badLine < 32768 then 128 + core else cellIsland core cell)
      let pads := (sliceKeys r.share).flatMap (fun k => Memory.read s.spad (spadAt k 0) 32768)
      let s := s.saveWrite r.ctx r.addr pads
      let s := s.saveWrite r.ctx (r.addr + saveSpad) (s.shareRead r.share 0 32768)
      s.moverDone core run.mover r)

/-- Commands of a saved context whose state a failed record held (R284). Log 193 (DEDUCED). -/
def State.restoreFail (s : State) (ctx : Nat) (e : LineRes) (isl : Nat) : State :=
  (s.computesOf ctx).foldl (fun s c =>
    if c.safe ∧ dSlot c.desc = none then s.updCmd c.q c.seq Cmd.toReplay
    else s.breakCmd c.q c.seq (if e = .tagFail then codeTagFail else codeMemUncorrectable) 0 isl) s

/-- RESTORE (R279, R284): a record comes back into a slice's scratchpads and share; a line that fails costs the commands
recorded in it their state. -/
def execRestore (core mover : Nat) (s : State) : Answer :=
  onUnit (decide (core < 8) && decide (mover < 16)) (
    match s.moverHead core mover 7 with
    | none => s
    | some r =>
      let isl := match s.place r.addr with
        | some p => 136 + p.chan / 16
        | none => 0
      match s.saveRead r.ctx r.addr (saveCtl / 256) with
      | (s, _, some e) => (s.restoreFail r.ctx e isl).moverDone core mover r
      | (s, b, none) =>
        let ks := sliceKeys r.share
        let s := (List.range 1024).foldl (fun s i =>
          { s with spad := Memory.write s.spad (spadAt (ks.getD i 0) 0) (sliceBytes b (32768 * i) 32768) }) s
        (s.shareWrite r.share 0 (b.drop saveSpad)).moverDone core mover r)

/-- The control token that tells a cell of the end of its request, by the route that the request named (R97). Log 43 (DESIGN CHOICE). -/
def State.moverTell (s : State) (core : Nat) (r : MoverReq) : State :=
  if 64 ≤ r.route then s
  else
    let e := (Tab.get 0 (s.atCell (cellKey core r.dev)).routes r.route).toNat
    let t := token [] r.route true true 0
    (onesBelow 5 (rOut e)).foldl (fun s p => s.portSend core r.dev e t p) s

/-- The requests that wait at the island ports of a slice's cells, and those of its tile, take the places that are free (R95). -/
def State.moverRefill (s : State) (slice : Nat) : State :=
  ((s.cells.filter (fun e => inSlice slice e.1)).foldl (fun s e => s.portDrain (e.1 / 4096) (e.1 % 4096)) s).issueQueued slice

/-- MOVER_COMPLETION (R95, R97): the oldest request of the queue, done, leaves it; a control token goes to the route it
named. A slice whose SAVE has completed leaves its context, and one whose RESTORE has completed takes tiles (R280).
Log 43 (DESIGN CHOICE). -/
def execMoverCompletion (core mover : Nat) (s : State) : Answer :=
  onUnit (decide (core < 8) && decide (mover < 16)) (
    match s.moverQueue core mover with
    | [] => s
    | r :: rest =>
      if r.done = false then s
      else
        let s := s.setMover core mover rest
        if r.op = 6 then (s.release r.share).scheduleFor r.ctx
        else if r.op = 7 then s.feed r.share
        else (s.moverTell core r).moverRefill r.share)

end Sys2Proof.Machine
end

