-- ==== Sys2Proof/Machine/Commands.lean ====
section
/-! DEFINITION. Commands in a queue from start to the end of their work (R131, R197, R202-R208, R221, R222): one meaning for
each opcode of R202. -/

namespace Sys2Proof.Machine

open Sys2Proof

/-! ### Start (R197, R221, R222, R268) -/

/-- Commands on which OVERLAP is ignored. -/
def dOrdered (d : Bytes) : Bool := decide (5 ≤ dOp d) || dRunOnBroken d || !dOverlap d

/-- Whether a command's turn to start has come. -/
def State.turn (s : State) (c : Cmd) : Bool :=
  ((s.cmdsOf c.q).takeWhile (fun e => e.seq != c.seq)).all (fun e =>
      (e.started || e.work) && (e.gone || (!dOrdered c.desc && dOp e.desc != 5))) &&
    decide ((s.allCmds.filter (fun e => e.ctx == c.ctx && e.started)).length < 64)

/-- What the start of a command gives: broken by the cascade, complete without running, or running. -/
def State.startCmd (s : State) (c : Cmd) : State :=
  let n := (s.allCmds.map (·.startNo)).foldl max 0 + 1
  let cascade := if dIndependent c.desc || dRunOnBroken c.desc then none else s.brokenBefore c
  match cascade with
  | some root => s.breakCmd c.q c.seq codePredecessorBroken 4 c.q root
  | none =>
    if dRunOnBroken c.desc && dOnlyIfBroken c.desc && (s.brokenBefore c).isNone then
      s.updCmd c.q c.seq (fun c => { c with started := true, startNo := n, work := true, skip := true })
    else
      (s.updCmd c.q c.seq (fun c => { c with started := true, startNo := n })).scheduleFor c.ctx

/-- COMMAND_START (R197): an accepted command starts once its queue's order, its predecessors and the cascade rule allow;
broken by the cascade it does not run (R221), and with ONLY_IF_BROKEN and the latch clear it completes without running
(R222). Log 7 (DESIGN CHOICE). -/
def execCommandStart (q seq : Nat) (s : State) : Answer :=
  onUnit (decide (q < 4096)) (
    match s.cmd? q seq with
    | none => s
    | some c => if c.started ∨ c.work ∨ c.held ∨ c.retrans ∨ s.turn c = false ∨ s.scopeBlocks c then s else s.startCmd c)

/-! ### The work of a command -/

/-- Work on a started, unfinished command of opcode `op`; one that is to break breaks instead. -/
def State.atWork (s : State) (q seq op : Nat) (f : Cmd → State) : State :=
  match s.cmd? q seq with
  | none => s
  | some c =>
    if c.started = false ∨ c.work ∨ c.held ∨ dOp c.desc ≠ op then s
    else if c.stop ≠ 0 ∧ op ≠ 1 then s.stopNow c
    else f c

/-- NOP (R202): its fence signals when it starts. -/
def execNop (q seq : Nat) (s : State) : Answer :=
  onUnit (decide (q < 4096)) (s.atWork q seq 0 (fun c => s.cmdDone c.q c.seq 0))

/-- The CMD_CHECK of a span command: mould digest and member count (R131, R308). Log 164 (DESIGN CHOICE). -/
def State.checkTxn (s : State) (c : Cmd) (slot : Nat) : Txn :=
  { op := 0x14, addr := c.spanNo, payload := leBytes 48 (s.mouldOf c).digest ++ leBytes 2 (s.spanM c.part slot) ++ leBytes 14 0 }

/-- A check or a refusal of a span command held from another member (R131, R427): a different digest or member count, or a
refusal, breaks it with REMOTE_REFUSED. -/
def State.checkOne (s : State) (c : Cmd) (slot : Nat) (src : Nat) (data : Bytes) : State :=
  if !data.isEmpty ∧ sliceBytes data 0 50 = sliceBytes (s.checkTxn c slot).payload 0 50 then s
  else (s.breakCmd c.q c.seq codeRemoteRefused 5 src 0 src).flushCmd c.q c.seq

/-- What is held for a command whose CMD_CHECK has gone out is taken. Log 164 (DESIGN CHOICE). -/
def State.checksHeld (s : State) (c : Cmd) (slot : Nat) : State :=
  let k := c.part * 8 + slot
  let l := (s.atJoin k).checks.filter (fun e => e.1 == c.spanNo)
  let s := s.updJoin k (fun j => { j with checks := j.checks.filter (fun e => e.1 != c.spanNo) })
  l.foldl (fun s e => s.checkOne c slot e.2.1 e.2.2) s

/-- COMPUTE (R122, R131, R202): the digest and member count go to the other members of a span, and the first phase, or the
phase of the replay point, opens. -/
def execCompute (q seq : Nat) (s : State) : Answer :=
  onUnit (decide (q < 4096)) (s.atWork q seq 1 (fun c =>
    if c.issued ∨ c.boundary ∨ c.stop ≠ 0 then s
    else
      let first := c.spr = {}
      let s := s.updCmd q seq (fun c => { c with issued := true })
      match dSlot c.desc with
      | some slot =>
        let s := if first then (s.castColl c.part slot (s.checkTxn c slot)).checksHeld c slot else s
        match s.cmd? q seq with
        | some d => if d.work then s else s.openPhase d
        | none => s
      | none => s.openPhase c))

/-- Ask for the bytes of a range that lies in host memory or in a remote segment, to `base` of the source bytes. -/
def State.rangeAsk (s : State) (c : Cmd) (r : Range) (off n base : Nat) : State :=
  if r.loc = 0 ∨ n = 0 then s
  else if r.loc = 1 then s.hostRangeRead (s.ownerOf (ctxPg c.ctx)) r off n
  else s.remoteRead c r off n base

/-- Source bytes of a command: read from device memory at once; of other locations they arrive at `base` of its buffer.
Log 106 (DESIGN CHOICE). -/
def State.source (s : State) (c : Cmd) (r : Range) (n base : Nat) : State × Option Bytes :=
  if n = 0 then (s, some [])
  else if r.loc = 0 then
    match s.devRead r.key r.addr n with
    | (s, .inr b) => (s, some b)
    | (s, .inl (.failed code k i)) => (s.breakCmd c.q c.seq code k i, none)
    | (s, .inl _) => (s.breakCmd c.q c.seq codeMemUncorrectable 4 c.q, none)
  else (s, some (sliceBytes c.buf base n))

/-- Bytes of the ranges in a list that do not lie in device memory. -/
def awaited (l : List (Range × Nat)) : Nat := (l.map (fun e => if e.1.loc = 0 then 0 else e.2)).sum

/-- A command that moves data (R204): sources outside device memory are requested first; once they have arrived `f` writes
the destination, and with its remote writes acknowledged the work has ended. Log 106 (DESIGN CHOICE). -/
def State.mover (s : State) (c : Cmd) (srcs : List (Range × Nat)) (f : State → State) : State :=
  if c.retrans then s
  else if c.written then (if (s.reqsOf c.q c.seq).isEmpty then s.cmdDone c.q c.seq 0 else s)
  else if awaited srcs ≠ 0 ∧ c.issued = false then
    let s := s.updCmd c.q c.seq (fun c => { c with issued := true, got := 0, asked := awaited srcs, buf := [] })
    (srcs.foldl (fun (a : State × Nat) e => (a.1.rangeAsk c e.1 0 e.2 a.2, if e.1.loc = 0 then a.2 else a.2 + e.2)) (s, 0)).1
  else if c.got < awaited srcs then s
  else
    let s := (f s).updCmd c.q c.seq (fun c => { c with written := true })
    if (s.reqsOf c.q c.seq).isEmpty then s.cmdDone c.q c.seq 0 else s

/-- COPY (R204): LEN bytes from SRC to DST. Log 106 (DESIGN CHOICE). -/
def execCopy (q seq : Nat) (s : State) : Answer :=
  onUnit (decide (q < 4096)) (s.atWork q seq 2 (fun c =>
    let n := leAt c.desc 0x30 8
    let src := c.ranges.getD 0 {}
    s.mover c [(src, n)] (fun s => match s.source c src n 0 with
      | (s, none) => s
      | (s, some b) => s.rangeWrite c (c.ranges.getD 1 {}) 0 b)))

/-! ### Answers of the host (R181) -/

/-- The range of a command whose host read answers at byte `at_` of its source bytes: that of the mover's request, else the second
source of a CONVERT past the elements, else the first. -/
def State.readRange (s : State) (c : Cmd) (at_ : Nat) : Nat := match s.lineInOf c.q c.seq at_ with
  | some (_, _, r) => r.range
  | none => if dOp c.desc = 4 ∧ (decide ((c.ranges.getD 0 {}).loc = 1) && decide (at_ < (c.ranges.getD 0 {}).len)) = false then 2 else 0

/-- The read of an argument list or a run list fails at the host: the command at the head of the queue is refused with HOST_FAULT.
Log 104 (DESIGN CHOICE). -/
def State.headHostFault (s : State) (q : Nat) : State := match Tab.get none s.heads q with
  | none => s
  | some d =>
    let x := s.queCtx q
    let g := dvaSeg (dvaAddr (leAt d 0x30 8))
    let list := dOp d = 1 ∧ dNargs d ≠ 0 ∧ (s.seg x g).loc = 1
    if list ∨ (s.hostMode 0 ∧ dRunCount d ≠ 0) then
      let c : Cmd := { q := q, seq := s.rd (quePg q + QUE_SEQ), desc := d, ctx := x, gen := s.ctxGen x, part := s.partOf x }
      ((s.forgetBad (s.ownerOf (ctxPg x))).xlatRej x 0x20 g 0 false).refuseCmd c codeTranslationReject 0x20
    else s

/-- HOST_READ_COMPLETION (R181): status 0 delivers the data into the command's source bytes at offset `dst`, those of a LINE_IN into
its share; Unsupported Request or Completer Abort (any other status) stops the command with HOST_FAULT. Log 104 (DESIGN CHOICE). -/
def execHostReadCompletion (q seq status dst : Nat) (data : Bytes) (s : State) : Answer :=
  onUnit (decide (q < 4096)) (
    match s.cmd? q seq with
    | none => if status ≠ 0 ∧ seq = s.rd (quePg q + QUE_SEQ) then s.headHostFault q else s
    | some c =>
      if c.work ∨ c.started = false then s
      else if status ≠ 0 then (s.xlatBreak c 0x20 codeTranslationReject (s.readRange c dst)).flushCmd q seq
      else s.arriveBytes q seq dst data)

/-! ### COPY, FILL, CONVERT and the others -/

/-- LEN bytes of a pattern repeated from the first byte on. -/
def patternBytes (pattern n : Nat) : Bytes := (List.range n).map (fun i => (leBytes 8 pattern).getD (i % 8) 0)

/-- FILL (R204): PATTERN repeated from DST onward. -/
def execFill (q seq : Nat) (s : State) : Answer :=
  onUnit (decide (q < 4096)) (s.atWork q seq 3 (fun c =>
    s.mover c [] (fun s => s.rangeWrite c (c.ranges.getD 0 {}) 0 (patternBytes (leAt c.desc 0x30 8) (leAt c.desc 0x28 8)))))

/-- CONVERT (R58, R59, R205): element by element, each with its own rounding. Log 107 (DESIGN CHOICE). -/
def execConvert (q seq : Nat) (s : State) : Answer :=
  onUnit (decide (q < 4096)) (s.atWork q seq 4 (fun c =>
    match fmtOf (leAt c.desc 0x38 1), fmtOf (leAt c.desc 0x39 1) with
    | some sf, some df =>
      let n := leAt c.desc 0x30 8
      let len := sf.arrayBytes n
      let scLen := if sf.isBlock then n / 32 else 0
      let src := c.ranges.getD 0 {}
      let sc := c.ranges.getD 2 {}
      s.mover c ([(src, len)] ++ if sf.isBlock then [(sc, scLen)] else []) (fun s =>
        match s.source c src len 0 with
        | (s, none) => s
        | (s, some b) => match (if sf.isBlock then s.source c sc scLen (if src.loc = 0 then 0 else len) else (s, some [])) with
          | (s, none) => s
          | (s, some scales) =>
            let vs := (List.range n).map (fun k => (sf.number (sf.element b k) (scales.getD (k / 32) 0).toNat).asRead)
            let rds := (List.range n).map (fun k => roundingOf c.acw c.seed (dTweak c.desc) 0 (k / 4096) (k % 4096))
            let (out, oscales, w) := if sf = .acc then df.convertAcc rds ((List.range n).map (fun k => accOf (leBytes 64 (sf.element b k)))) else df.convert rds vs
            let s := s.rangeWrite c (c.ranges.getD 1 {}) 0 out
            let s := if df.isBlock then s.rangeWrite c (c.ranges.getD (if sf.isBlock then 3 else 2) {}) 0 oscales else s
            s.updCmd q seq (fun c => { c with warn := c.warn ||| w }))
    | _, _ => s))

/-- WAIT (R206, R211): complete when every fence named has reached its value; a failed one breaks it, or with RUN_ON_BROKEN
sets its bit of RESULT. Log 108 (DESIGN CHOICE). -/
def execWait (q seq : Nat) (s : State) : Answer :=
  onUnit (decide (q < 4096)) (s.atWork q seq 5 (fun c =>
    let es := waitEntries c.desc
    let rs := es.map (fun e => s.fenceWait e.1 e.2)
    match (es.zip rs).find? (fun e => e.2 == some false), dRunOnBroken c.desc with
    | some e, false => s.breakCmd q seq codePredecessorBroken 4 q (s.fenceRoot e.1.1)
    | _, _ =>
      if rs.contains none then s
      else s.cmdDone q seq (maskOfList ((List.range rs.length).filter (fun i => rs.getD i none == some false)))))

/-- SIGNAL (R207, R315): a local one has ended its work when it starts; with REMOTE it sends a fence signal over its span and
waits for the answer. -/
def execSignal (q seq : Nat) (s : State) : Answer :=
  onUnit (decide (q < 4096)) (s.atWork q seq 6 (fun c =>
    match dSlot c.desc with
    | none => s.cmdDone q seq 0
    | some slot =>
      if c.issued then (if (s.reqsOf q seq).isEmpty && !(s.atRoute (leAt c.desc 0x22 2 % 4096)).hold then s.cmdDone q seq 0 else s)
      else
        (s.updCmd q seq (fun c => { c with issued := true })).sendReq c slot (leAt c.desc 0x22 2 % 4096)
          { op := 6, addr := leAt c.desc 0x24 2, payload := leBytes 8 (leAt c.desc 0x28 8) ++ leBytes 8 0 }))

/-- MOULD_REGISTER (R105, R208): the image is read under the key index of its segment, and its registration begins. -/
def execMouldRegister (q seq : Nat) (s : State) : Answer :=
  onUnit (decide (q < 4096)) (s.atWork q seq 7 (fun c =>
    let n := leAt c.desc 0x28 4
    let src := c.ranges.getD 0 {}
    if c.retrans ∨ c.written then s
    else if awaited [(src, n)] ≠ 0 ∧ c.issued = false then
      (s.updCmd q seq (fun c => { c with issued := true, got := 0, asked := n, buf := [] })).rangeAsk c src 0 n 0
    else if c.got < awaited [(src, n)] then s
    else match s.source c src n 0 with
      | (s, none) => s
      | (s, some m) => (s.updCmd q seq (fun c => { c with buf := m, written := true })).mouldEnter c m))

/-- EVENT (R202, R229): its payload goes into a USER record. Log 109 (DESIGN CHOICE). -/
def execEvent (q seq : Nat) (s : State) : Answer :=
  onUnit (decide (q < 4096)) (s.atWork q seq 9 (fun c =>
    (s.event (s.queEvq q) 0x08 (s.ownerOf (quePg q)) (sliceBytes c.desc 0x20 16)).cmdDone q seq 0))

end Sys2Proof.Machine
end

