-- ==== Sys2Proof/Machine/Partitions.lean ====
section
/-! DEFINITION. Partitions (R234-R242, R408): forming, activation, dissolution, range registers, functions and handle maps. -/

namespace Sys2Proof.Machine

open Sys2Proof

/-- STATE of a partition: 0 FREE, 1 FORMING, 2 ACTIVE, 3 DISSOLVING. -/
def State.partState (s : State) (p : Nat) : Nat := s.get (partPg p) PART_STAT_STATE

/-- Record LAST_RESULT (R265). -/
def State.partResult (s : State) (p n : Nat) : State := s.set (partPg p) PART_STAT_LAST_RESULT n

/-! Result codes (R265). -/

def resSliceUnavailable : Nat := 0x01
def resBelowReserved : Nat := 0x02
def resChanUnavailable : Nat := 0x03
def resRegionsInUse : Nat := 0x04
def resBadTarget : Nat := 0x05
def resSegSpans : Nat := 0x06
def resKeyUnknown : Nat := 0x07
def resExported : Nat := 0x08
def resCopyFailed : Nat := 0x09
def resPortUnavailable : Nat := 0x0A
def resClaimed : Nat := 0x0B
def resPartnerTimeout : Nat := 0x0C
def resAborted : Nat := 0x0D
def resPreempted : Nat := 0x0E
def resNotActive : Nat := 0x0F
def resRangeOverlap : Nat := 0x10
def resKeySlotTaken : Nat := 0x11
def resCfgRegion : Nat := 0x12
def resNotEmpty : Nat := 0x13
def resRangeInUse : Nat := 0x14
def resDigest : Nat := 0x20
def resRank : Nat := 0x21
def resTimeout : Nat := 0x22
def resNoRoute : Nat := 0x23
def resBadSpanId : Nat := 0x24

/-! ### Ranges -/

/-- The four range registers: base and count fields. -/
def rangeFields : List (F × F) := [(PART_CTX_RANGE_BASE, PART_CTX_RANGE_COUNT), (PART_QUE_RANGE_BASE, PART_QUE_RANGE_COUNT),
  (PART_FEN_RANGE_BASE, PART_FEN_RANGE_COUNT), (PART_EVQ_RANGE_BASE, PART_EVQ_RANGE_COUNT)]

/-- First number and end of a range that a word spells. -/
def spanOfWord (e : F × F) (w : Nat) : Nat × Nat :=
  let b := bitsOf w e.1.hi e.1.lo
  (b, b + bitsOf w e.2.hi e.2.lo)

/-- Whether [lo, hi) meets the same range of another partition that is ACTIVE or DISSOLVING. -/
def State.rangeMeets (s : State) (p : Nat) (e : F × F) (r : Nat × Nat) : Bool :=
  (List.range 32).any (fun q => q != p && decide (2 ≤ s.partState q) &&
    let o := spanOfWord e (s.rd (partPg q + e.1.off))
    decide (max o.1 r.1 < min o.2 r.2))

/-- Whether another partition that is ACTIVE or DISSOLVING holds one of these key slots. -/
def State.keysMeet (s : State) (p : Nat) (ks : List Nat) : Bool :=
  ks.any (fun k => k != 0 && (List.range 32).any (fun q => q != p && decide (2 ≤ s.partState q) && s.keyBound q k))

/-- Whether object `i` of a range is in use: a context not FREE, an enabled queue, fence or event queue. -/
def State.rangeUsed (s : State) (off i : Nat) : Bool :=
  if off = PART_CTX_RANGE then s.ctxState i != 0
  else if off = PART_QUE_RANGE then s.on (quePg i) QUE_STAT_ENABLED
  else if off = PART_FEN_RANGE then (List.range 32).any (fun j => s.on (fenAt (32 * i + j)) FEN_CTL_ENABLE)
  else s.on (evqPg i) EVQ_CTL_ENABLE

/-- Keep CTX_STAT.PARTITION and KEY_STAT.PARTITION in step with what an ACTIVE partition holds. -/
def State.stampRanges (s : State) (p : Nat) : State :=
  let s := (s.partCtxs p).foldl (fun s x => s.set (ctxPg x) CTX_STAT_PARTITION p) s
  (s.partKeys p).foldl (fun s k => s.set (keyAt k) KEY_STAT_PARTITION p) s

/-- A write of a range register, PART_KEYS or PART_CFG_REGION (R239, the rules below the PART page's table, R397): answers
whether it is taken. -/
def State.rangeRegWrite (s : State) (p off v : Nat) : State × Bool :=
  let pg := partPg p
  let st := s.partState p
  let no := fun (n : Nat) => (s.partResult p n, false)
  let isKeys := decide (PART_KEYS ≤ off) && decide (off < PART_CFG_REGION)
  let i := (off - PART_KEYS) / 4
  let v := if isKeys ∧ i = 0 then v ||| 1 else v
  let old := s.rd (pg + off)
  if isKeys ∧ s.keyLocked p then
    (if v = (if i = 0 then old ||| 1 else old) then (s, true) else (s.lockViol, false))
  else if st = 1 then ((s.wr (pg + off) v).partResult p 0, true)
  else if st ≠ 2 ∨ off = PART_CFG_REGION then no resNotActive
  else if isKeys then
    let gone := (onesBelow 32 old).filter (fun b => !bitOf v b)
    let fresh := ((onesBelow 32 v).filter (fun b => !bitOf old b)).map (· + 32 * i)
    if gone.any (fun b => b + 32 * i != 0 && s.keyState (b + 32 * i) != 0) then no resRangeInUse
    else if s.keysMeet p fresh then no resKeySlotTaken
    else
      let s := gone.foldl (fun s b => s.set (keyAt (b + 32 * i)) KEY_STAT_PARTITION 0) (s.wr (pg + off) v)
      ((s.stampRanges p).partResult p 0, true)
  else match rangeFields.find? (fun e => e.1.off == off) with
    | none => (s, true)
    | some e =>
      let a := spanOfWord e old
      let b := spanOfWord e v
      if (List.range (a.2 - a.1)).any (fun j => let n := a.1 + j
          (decide (n < b.1) || decide (b.2 ≤ n)) && s.rangeUsed off n) then no resRangeInUse
      else if s.rangeMeets p e b then no resRangeOverlap
      else (((s.wr (pg + off) v).stampRanges p).partResult p 0, true)

/-! ### Scrub (R408) -/

/-- A page's registers return to their reset values; its owner stays (R523). -/
def State.clearPage (s : State) (pg : Nat) : State :=
  let own := s.rd (pg + 0x020)
  ({ s with regs := Tab.clear s.regs pg (pg + 0x1000) }).wr (pg + 0x020) own

/-- Give a page to a function (R523). -/
def State.ownPage (s : State) (pg fn : Nat) : State := s.set pg BLK_OWNER_FUNCTION fn

/-- Page of a handle's target. -/
def targetPage (kind t : Nat) : Nat := if kind = 0 then quePg t else if kind = 1 then Pg.base .fen (t / 32) else ctxPg t

/-- Key of a handle map. -/
def mapKey (fn kind h : Nat) : Nat := (fn * 4 + kind) * 1024 + h

/-- Target of a handle (R242). -/
def State.mapOf (s : State) (fn kind h : Nat) : Option Nat := Tab.get none s.maps (mapKey fn kind h)

/-- Remove a handle map; the page returns to the physical function with its last handle. Log 121 (DESIGN CHOICE). -/
def State.unmap (s : State) (fn kind h : Nat) : State :=
  match s.mapOf fn kind h with
  | none => s
  | some t =>
    let s := { s with maps := Tab.put none (mapKey fn kind h) none s.maps }
    let lo := mapKey fn kind 0
    if s.maps.any (fun e => decide (lo ≤ e.1) && decide (e.1 < lo + 1024) && match e.2 with
        | some u => targetPage kind u == targetPage kind t
        | none => false) then s
    else
      let s := s.ownPage (targetPage kind t) 0
      if kind = 2 then s.set (ctxPg t) CTX_STAT_FUNCTION 0 else s

/-- Handles of a function that are mapped, as (kind, handle). -/
def State.handlesOf (s : State) (fn : Nat) : List (Nat × Nat) :=
  (s.maps.filter (fun e => e.1 / 4096 == fn)).map (fun e => (e.1 / 1024 % 4, e.1 % 1024))

/-- Remove every handle map of a function. -/
def State.unmapAll (s : State) (fn : Nat) : State := (s.handlesOf fn).foldl (fun s e => s.unmap fn e.1 e.2) s

/-- Functions attached to a partition. -/
def State.attached (s : State) (p : Nat) : List Nat :=
  (s.attach.filter (fun e => e.2 == some p)).map (·.1)

/-- Reset a context slot's storage apart from its page. -/
def State.wipeCtx (s : State) (x : Nat) : State :=
  let s := { s with objs := Tab.clear s.objs (x * 4096) (x * 4096 + 4096), ctxs := Tab.put {} x {} s.ctxs, gens := Tab.put 0 x 0 s.gens,
                    segPend := Tab.clear s.segPend (x * 8) (x * 8 + 8), segStage := Tab.clear s.segStage (ctxPg x) (ctxPg x + 0x1000) }
  { s with sec := { s.sec with saveKey := Tab.put 0 x 0 s.sec.saveKey } }

/-- Reset a queue's storage apart from its page. -/
def State.wipeQue (s : State) (q : Nat) : State :=
  { s with tails := Tab.put 0 q 0 s.tails, heads := Tab.put none q none s.heads, cmds := Tab.put [] q [] s.cmds,
           latched := Tab.put [] q [] s.latched }

/-- Numbers of a range register of a partition. -/
def State.rangeList (s : State) (p : Nat) (e : F × F) : List Nat :=
  let r := spanOfWord e (s.rd (partPg p + e.1.off))
  (List.range (r.2 - r.1)).map (· + r.1)

/-- The configuration state of a partition that a firmware scrub resets: mould table, span slots, handle maps, regulator settings,
key-flow table (R240 step 3, R408). -/
def State.configScrub (s : State) (p : Nat) : State :=
  let s := { s with moulds := Tab.clear s.moulds (p * 64) (p * 64 + 64), spanTbl := Tab.clear s.spanTbl (p * 8 * 4096) ((p + 1) * 8 * 4096),
                    joins := Tab.clear s.joins (p * 8) (p * 8 + 8), spanNo := Tab.clear s.spanNo (p * 8) (p * 8 + 8),
                    toks := s.toks.filter (fun t => t.slot / 8 != p),
                    regs := Tab.clear s.regs (partPg p + 0x100) (partPg p + 0x208) }
  let s := { s with sec := { s.sec with kft := Tab.clear s.sec.kft (p * 256) (p * 256 + 256) } }
  ((s.attached p).foldl (fun s f => s.unmapAll f) s).clearPage (Pg.base .rglp p)

/-- The firmware scrub of a partition: its configuration state, and the CTX, QUE, FEN and EVQ pages of its ranges (R408). -/
def State.firmwareScrub (s : State) (p : Nat) : State :=
  let s := s.configScrub p
  let s := (s.rangeList p (PART_CTX_RANGE_BASE, PART_CTX_RANGE_COUNT)).foldl (fun s x => (s.clearPage (ctxPg x)).wipeCtx x) s
  let s := (s.rangeList p (PART_QUE_RANGE_BASE, PART_QUE_RANGE_COUNT)).foldl (fun s q => (s.clearPage (quePg q)).wipeQue q) s
  let s := (s.rangeList p (PART_FEN_RANGE_BASE, PART_FEN_RANGE_COUNT)).foldl (fun s g => s.clearPage (Pg.base .fen g)) s
  let s := (s.rangeList p (PART_EVQ_RANGE_BASE, PART_EVQ_RANGE_COUNT)).foldl (fun s e =>
    { s.clearPage (evqPg e) with evqFn := Tab.put 0 e 0 s.evqFn, evqLost := Tab.put 0 e 0 s.evqLost }) s
  s.bumpF secPg SEC_SCRUB_STAT_FW 1

/-! ### A partition's life (R238-R240) -/

/-- FORM. -/
def State.partitionForm (s : State) (p : Nat) : State :=
  if s.partState p = 0 then (s.set (partPg p) PART_STAT_STATE 1).partResult p 0 else s.partResult p resNotActive

/-- The first check of step 4 of R239 that fails, 0 when none does. -/
def State.activateRule (s : State) (p : Nat) : Nat :=
  let pg := partPg p
  let r := s.get pg PART_CFG_REGION_REGION
  if (onesBelow 32 (s.rd (pg + PART_SLICE_REQ))).any (fun n => s.capState 1 n != 1 || (s.sliceOwner n).isSome) then resSliceUnavailable
  else if rangeFields.any (fun e => s.rangeMeets p e (spanOfWord e (s.rd (pg + e.1.off)))) then resRangeOverlap
  else if s.keysMeet p (s.partKeys p) then resKeySlotTaken
  else if s.regValid r = false ∨ s.regPart r ≠ p ∨ s.regBytes r < 8 * 2 ^ 20 then resCfgRegion
  else 0

/-- Clear a partition's mould table. -/
def State.mouldsFree (s : State) (p : Nat) : State := { s with moulds := Tab.clear s.moulds (p * 64) (p * 64 + 64) }

/-- Write line `n` of the member tables of a partition, in the last 64 KiB of its configuration region under its configuration key:
entry slot × 4,096 + rank has 2 B, a line 128 entries (R237). Log 118 (DESIGN CHOICE). -/
def State.tableLine (s : State) (p n : Nat) : State :=
  s.cfgWrite p (s.storeSize p + 256 * n)
    ((List.range 128).flatMap (fun i => leBytes 2 (Tab.get 0 s.spanTbl (p * 32768 + 128 * n + i))))

/-- The member tables of a partition go into its configuration region. Log 118 (DESIGN CHOICE). -/
def State.tableStore (s : State) (p : Nat) : State := (List.range 256).foldl (fun s n => s.tableLine p n) s

/-- ACTIVATE (R239 steps 4 and 5, R383). Log 118 (DESIGN CHOICE). -/
def State.partitionActivate (s : State) (p : Nat) : State :=
  let pg := partPg p
  if s.partState p ≠ 1 then s.partResult p resNotActive
  else if s.activateRule p ≠ 0 then s.partResult p (s.activateRule p)
  else if s.sec.entropyBad then let (d, s) := s.draw; s.partResult p (Config.free d % 256)
  else
    let n := s.sec.serial + 1
    let s := { s with sec := { s.sec with serial := n, cfgKey := Tab.put 0 p n s.sec.cfgKey,
                                          kft := Tab.clear s.sec.kft (p * 256) (p * 256 + 256) } }
    let s := (s.wr (pg + PART_SLICES) (s.rd (pg + PART_SLICE_REQ))).set pg PART_STAT_STATE 2
    let s := (((s.setAllGates.clearPage (Pg.base .rglp p)).mouldsFree p).stampRanges p).tableStore p
    s.capTouch.partResult p 0

/-- Whether a partition is empty for DISSOLVE (R240). -/
def State.partEmpty (s : State) (p : Nat) : Bool :=
  (s.attached p).isEmpty && (List.range 8).all (fun l => s.get (spanAt p l) PART_SPAN_0_STATE == 0) &&
    (s.partState p == 1 || (s.partCtxs p).all (fun x => s.ctxState x == 0 || s.ctxState x == 3))

/-- Take a port from its slot (R259, R332): it goes back to the forward pool when FWD is set. -/
def State.unbindPort (s : State) (n : Nat) : State :=
  let pg := lnkPg n
  let p := s.get pg LNK_STAT_PARTITION
  if s.on pg LNK_STAT_BOUND = false then s
  else
    let a := partPg p + PART_PORTS
    let s := s.wr64 a (putBit (s.rd64 a) n false)
    let s := ((s.set pg LNK_STAT_BOUND 0).set pg LNK_STAT_PARTITION 0).set pg LNK_STAT_SPAN_SLOT 0
    let s := s.mark pg LNK_STAT_FWD_POOL (s.portUp n && s.on pg LNK_CTL_FWD)
    ((s.updLink n (fun x => { x with bindTo := 0, draining := false })).capTouch).routesHold (s.portDev n)

/-- Ports of a partition. -/
def State.partPorts (s : State) (p : Nat) : List Nat := onesBelow 36 (s.rd64 (partPg p + PART_PORTS))

/-- Clear VALID of a memory-map region. -/
def State.regionClear (s : State) (r : Nat) : State := s.set (regionAt r) GLB_REGION_0_VALID 0

/-- Key slots that a partition holds (R239). -/
def State.keysHeld (s : State) (p : Nat) : List Nat := if s.partState p ≤ 1 then [] else s.partKeys p

/-- Context slots that a partition holds: none before it is ACTIVE (R239). -/
def State.ctxsHeld (s : State) (p : Nat) : List Nat := if s.partState p ≤ 1 then [] else s.partCtxs p

/-- Step 2 of R240: segments and regions invalid, slices scrubbed, buffers flushed, configuration key and slots retired.
Log 119 (DESIGN CHOICE). -/
def State.partScrub (s : State) (p : Nat) : State :=
  let s := (s.ctxsHeld p).foldl (fun s x => s.segsClear x) s
  let s := ((List.range 64).filter (fun r => s.regValid r && s.regPart r == p)).foldl (fun s r => s.regionClear r) s
  let s := (s.partSlices p).foldl (fun s n => (s.scrubSlice n).updSlice n (fun y => { cfg := none, badCfg := y.badCfg })) s
  let s := s.flushPart p
  let s := { s with sec := { s.sec with cfgKey := Tab.put 0 p 0 s.sec.cfgKey } }
  let ks := s.keysHeld p
  let s := (ks.filter (fun k => s.keyState k != 0)).foldl (fun s k => (s.keyStartRetire k true).keyFinish k) s
  ks.foldl (fun s k => s.set (keyAt k) KEY_STAT_PARTITION 0) s

/-- Registers of a partition that name what it holds. -/
def heldRegs (pg : Nat) (r : Tab Word) : Tab Word :=
  Tab.clear (Tab.clear (Tab.clear r (pg + PART_CTX_RANGE) (pg + PART_REBAL_OFFER)) (pg + PART_CHAN) (pg + PART_CHAN_REQ))
    (pg + PART_PORTS) (pg + PART_PORT_REQ)

/-- Step 4 of R240: everything bound returns to the free pool. Log 119 (DESIGN CHOICE). -/
def State.partRelease (s : State) (p : Nat) : State :=
  let pg := partPg p
  let s := (s.partPorts p).foldl (fun s n => (s.sendMgmt n { op := 0x25 }).unbindPort n) s
  let s := (List.range 36).foldl (fun s n => s.updLink n (fun x => { x with bindBy := x.bindBy.filter (· != p) })) s
  let s := { s with rebind := Tab.put {} p {} s.rebind, parts := Tab.put {} p {} s.parts }
  let s := (s.set pg PART_REBIND_CTL_BUSY 0).set pg PART_REBIND_CTL_STEP 0
  let s := { s with regs := heldRegs pg s.regs }
  (((s.wr (pg + PART_SLICES) 0).wr (pg + PART_RT_MASK) 0).wr (pg + PART_SAVE_REGION) 0).setAllGates

/-- DISSOLVE (R240): scrub, retirement of the keys, everything back to the free pool. Log 119 (DESIGN CHOICE). -/
def State.partitionDissolve (s : State) (p : Nat) : State :=
  if s.partState p ≠ 1 ∧ s.partState p ≠ 2 then s.partResult p resNotActive
  else if s.partEmpty p = false then s.partResult p resNotEmpty
  else
    let s := if s.partState p = 2 then s.set (partPg p) PART_STAT_STATE 3 else s
    let s := s.partScrub p
    let s := (if s.partState p = 3 then s.firmwareScrub p else s.configScrub p).partRelease p
    let s := (s.wr (secPg + SEC_PROTECT) (putBit (s.rd (secPg + SEC_PROTECT)) p false)).wr (secPg + SEC_KLOCK)
      (putBit (s.rd (secPg + SEC_KLOCK)) p false)
    ((s.wr (partPg p + PART_STAT) 0).capTouch).partResult p 0

/-! ### Functions and handles (R241, R242, R523, R527) -/

/-- Result of a request in PART_FN_CTL. Log 134 (DESIGN CHOICE). -/
def State.fnResult (s : State) (p n : Nat) : State := s.set (partPg p) PART_FN_CTL_RESULT n

/-- Whether LOCK is 1 on pages of a function: its TDI is in CONFIG_LOCKED or RUN (R523). -/
def State.tdiLocked (s : State) (fn : Nat) : Bool :=
  let t := Tab.get 0 s.sec.tdi fn
  fn != 0 && (t == 1 || t == 2)

/-- ATTACH (R241). Log 120 (DESIGN CHOICE). -/
def State.functionAttach (s : State) (p f : Nat) : State :=
  if s.partState p ≠ 2 then s.fnResult p 7
  else if (Tab.get none s.attach f).isSome then s.fnResult p 1
  else ({ s with attach := Tab.put none f (some p) s.attach }).fnResult p 0

/-- DETACH (R241, R411, R523, R527): while LOCK is 1 one that would change a page's owner is refused. Log 120 (DESIGN CHOICE). -/
def State.functionDetach (s : State) (p f : Nat) : State :=
  if Tab.get none s.attach f ≠ some p then s.fnResult p 7
  else if s.handlesOf f |>.any (fun e => e.1 == 2 && match s.mapOf f 2 e.2 with
      | some x => s.ctxState x != 0 && s.ctxState x != 3
      | none => false) then s.fnResult p 2
  else if s.tdiLocked f ∧ (s.handlesOf f).isEmpty = false then s.fnResult p 4
  else
    let s := (s.tdiError f 1).unmapAll f
    let es := (List.range 512).filter (fun e => Tab.get 0 s.evqFn e == f)
    let s := es.foldl (fun s e => ({ s with evqFn := Tab.put 0 e 0 s.evqFn }).set (evqPg e) EVQ_CTL_ENABLE 0) s
    ({ s with attach := Tab.put none f none s.attach }).fnResult p 0

/-- A write of PART_FN_CTL (R241). Log 120 (DESIGN CHOICE). -/
def State.fnCtlWrite (s : State) (p v : Nat) : State :=
  let f := v % 256
  let s := s.set (partPg p) PART_FN_CTL_FUNCTION f
  if bitOf v 8 = false ∧ bitOf v 9 = false then s
  else if (bitOf v 8 ∧ bitOf v 9) ∨ f = 0 then s.fnResult p 6
  else if bitOf v 8 then s.functionAttach p f else s.functionDetach p f

/-- Handles of each kind (R242, R512). Log 121 (DESIGN CHOICE). -/
def handleCount (kind : Nat) : Nat := if kind = 0 then 768 else if kind = 1 then 1024 else 32

/-- Whether a target lies in a partition's ranges (R242). -/
def State.targetIn (s : State) (p kind t : Nat) : Bool :=
  if kind = 0 then decide (t < 4096) && s.quePart t == some p
  else if kind = 1 then s.fenceIn p t
  else decide (t < 1024) && s.ctxPart t == some p

/-- Whether a handle's present target is in use (R242). -/
def State.targetUsed (s : State) (kind t : Nat) : Bool :=
  if kind = 0 then s.on (quePg t) QUE_STAT_ENABLED
  else if kind = 1 then s.on (fenAt t) FEN_CTL_ENABLE
  else s.ctxState t != 0 && s.ctxState t != 3

/-- Whether another handle of a function and kind has its target on the page of the target of handle `h`. -/
def State.pageShared (s : State) (fn kind h t : Nat) : Bool :=
  s.maps.any (fun e => decide (mapKey fn kind 0 ≤ e.1) && decide (e.1 < mapKey fn kind 0 + 1024) && e.1 != mapKey fn kind h && match e.2 with
    | some u => targetPage kind u == targetPage kind t
    | none => false)

/-- Whether a new map of a handle would change the owner of a page: that of its present target, when no other handle keeps it, or that
of the new one (R523). Log 121 (DESIGN CHOICE). -/
def State.mapMoves (s : State) (fn kind h : Nat) (cur next : Option Nat) : Bool :=
  (match cur with
    | some u => !s.pageShared fn kind h u && next.map (targetPage kind) != some (targetPage kind u)
    | none => false) ||
  (match next with
    | some t => s.ownerOf (targetPage kind t) != fn
    | none => false)

/-- A write of PART_MAP_DATA (R242): the map selected by PART_MAP_SEL, checked in order. One that repeats the present map changes
nothing; under LOCK one that would change an owner is refused (R523), another is a remap that moves the TDI to ERROR (R411).
Log 121 (DESIGN CHOICE). -/
def State.handleMapWrite (s : State) (p v : Nat) : State :=
  let pg := partPg p
  let f := s.get pg PART_MAP_SEL_FUNCTION
  let kind := s.get pg PART_MAP_SEL_KIND
  let h := s.get pg PART_MAP_SEL_HANDLE
  let t := v % 65536
  let valid := bitOf v 16
  let cur := s.mapOf f kind h
  let owner := s.ownerOf (targetPage kind t)
  if f = 0 ∨ Tab.get none s.attach f ≠ some p then s.fnResult p 7
  else if 2 < kind then s.fnResult p 6
  else if (if valid then some t else none) = cur then s.fnResult p 0
  else if handleCount kind ≤ h ∨ (valid ∧ s.targetIn p kind t = false) then s.fnResult p 3
  else if owner ≠ 0 ∧ owner ≠ f then s.fnResult p 4
  else if (match cur with
      | some u => s.targetUsed kind u
      | none => false) then s.fnResult p 5
  else if s.tdiLocked f ∧ s.mapMoves f kind h cur (if valid then some t else none) then s.fnResult p 4
  else
    let s := (s.tdiError f 1).unmap f kind h
    if valid = false then s.fnResult p 0
    else
      let s := ({ s with maps := Tab.put none (mapKey f kind h) (some t) s.maps }).ownPage (targetPage kind t) f
      (if kind = 2 then s.set (ctxPg t) CTX_STAT_FUNCTION f else s).fnResult p 0

end Sys2Proof.Machine
end

