-- ==== Sys2Proof/Machine/Rebind.lean ====
section
/-! DEFINITION. The re-bind engine (R243-R259, R331, R332): slices, channels, rebalances and ports, one operation at a time for
each partition. -/

namespace Sys2Proof.Machine

open Sys2Proof

/-! ### Start and end of an operation -/

/-- Step now running. -/
def State.rebindStep (s : State) (p n : Nat) : State :=
  (s.updRebind p (fun r => { r with step := n })).set (partPg p) PART_REBIND_CTL_STEP n

/-- End an operation with its result; DONE when it completed. Log 134 (DESIGN CHOICE). -/
def State.rebindEnd (s : State) (p result : Nat) : State :=
  let pg := partPg p
  let s := ((s.set pg PART_REBIND_CTL_BUSY 0).set pg PART_REBIND_CTL_STEP 0).set pg PART_REBIND_CTL_RESULT result
  let s := if result = 0 then s.set pg PART_REBIND_CTL_DONE 1 else s
  ((s.set pg PART_STAT_REBIND_BUSY 0).updRebind p (fun _ => {})).keysSettle

/-- Channels set in a 256-bit map of a PART page. -/
def State.chanMap (s : State) (p off : Nat) : Nat :=
  (List.range 8).foldl (fun m i => m + s.rd (partPg p + off + 4 * i) * 2 ^ (32 * i)) 0

/-- Whether an operation is allowed in the partition's state: channels are bound and released in preparation too (R238).
Log 122 (DESIGN CHOICE). -/
def State.opAllowed (s : State) (p op : Nat) : Bool :=
  s.partState p == 2 || (decide (s.partState p ≤ 1) && (op == 2 || op == 3))

/-- A collected START is served (R243): ignored and counted while BUSY; the request registers are taken as they stand.
Log 122 (DESIGN CHOICE). -/
def State.rebindStart (s : State) (p op : Nat) : State :=
  let pg := partPg p
  if s.on pg PART_REBIND_CTL_BUSY then s.bump (pg + PART_REBIND_IGN) 1
  else if op = 0 ∨ op = 7 then s
  else
    let slot := s.get pg PART_PORT_SLOT_SLOT
    let r : Rebind := {
      op := op, step := 1, slices := s.rd (pg + PART_SLICE_REQ), chans := s.chanMap p PART_CHAN_REQ,
      ports := s.rd64 (pg + PART_PORT_REQ), slot := slot, move := s.on pg PART_REBIND_CTL_MOVE,
      src := s.get pg PART_REBAL_SRC, dst := s.get pg PART_REBAL_DST, span := s.rd (spanAt p slot + PART_SPAN_ID) }
    let s := s.updRebind p (fun _ => r)
    let s := ((s.set pg PART_REBIND_CTL_BUSY 1).set pg PART_REBIND_CTL_STEP 1).set pg PART_REBIND_CTL_RESULT 0
    let s := (s.set pg PART_REBIND_CTL_DONE 0).set pg PART_STAT_REBIND_BUSY 1
    if s.opAllowed p op then s else s.rebindEnd p resNotActive

/-! ### Slices (R246, R247) -/

/-- Positions set in `a` and not in `b`. -/
def bitsMinus (a b : Nat) : List Nat := (onesBelow 32 a).filter (fun i => !bitOf b i)

/-- Commands whose boundary is awaited and that have neither resolved nor stopped. -/
def State.awaitedCmds (s : State) (p : Nat) : List Cmd :=
  ((s.atRebind p).waitFor.filterMap (fun e => s.cmd? e.1 e.2)).filter (fun c => !c.work)

/-- Ask for a boundary of each of a list of commands, and wait for them. -/
def State.awaitAll (s : State) (p : Nat) (cs : List Cmd) : State :=
  (cs.foldl (fun s c => s.askBoundary c.q c.seq) s).updRebind p (fun r => { r with waitFor := cs.map (fun c => (c.q, c.seq)) })

/-- Running COMPUTEs of a partition. -/
def State.runningOf (s : State) (p : Nat) : List Cmd :=
  s.allCmds.filter (fun c => c.part == p && c.started && !c.work && dOp c.desc == 1)

/-- Step 5 of R246 once no boundary is awaited. Log 123 (DESIGN CHOICE). -/
def State.growDone (s : State) (p : Nat) : State :=
  if (s.awaitedCmds p).isEmpty then (s.setAllGates.rebindEnd p 0).schedule p else s

/-- SLICE_GROW (R246): the added slices are checked and bound, each running command is asked for a boundary, and with the last
one reached the operation is done. A request that is neither a superset nor a subset fails as one that names slices it
cannot have. Log 123 (DESIGN CHOICE). -/
def execSliceGrow (part : Nat) (s : State) : Answer :=
  onUnit (decide (part < 32)) (
    let rb := s.atRebind part
    let old := s.rd (partPg part + PART_SLICES)
    let added := bitsMinus rb.slices old
    if rb.op ≠ 1 then s
    else if rb.step = 4 then s.growDone part
    else if rb.step ≠ 1 then s
    else if (bitsMinus old rb.slices).isEmpty = false then (if added.isEmpty then s else s.rebindEnd part resSliceUnavailable)
    else if added.any (fun n => s.capState 1 n != 1 || (s.sliceOwner n).isSome) then s.rebindEnd part resSliceUnavailable
    else
      let s := (s.wr (partPg part + PART_SLICES) rb.slices).capTouch.setAllGates
      let s := s.updRebind part (fun r => { r with had := old })
      let s := (s.rebindStep part 4).awaitAll part (s.runningOf part)
      (s.growDone part).schedule part)

/-- Commands on a leaving slice: those that run there, and those that keep resident tiles there. -/
def State.leaversOf (s : State) (p : Nat) (l : List Nat) : List Cmd :=
  (s.runningOf p).filter (fun c => l.any (fun n => (s.atSlice n).cmd == some (c.q, c.seq) ||
    ((s.atSlice n).cfg == some (s.cfgOf c) && (s.atSlice n).ctx == some c.ctx && hasResident (s.mouldOf c).image)))

/-- Show in CORE_QUIET whether a binding change of a slice is held until it is quiescent (R101). -/
def State.heldMark (s : State) (n : Nat) (b : Bool) : State :=
  let pg := Pg.base .core (n / 4)
  s.set pg CORE_QUIET_HELD (putBit (s.get pg CORE_QUIET_HELD) (n % 4) b)

/-- A slice is marked as leaving: it takes no new tile, a load on it stops with its configuration not valid (R121), and until it is
quiescent the change is held (R101). -/
def State.markLeaving (s : State) (n : Nat) : State :=
  let s := if (s.atSlice n).loading then (s.updSlice n (fun y => { y with loading := false, cfg := none })).cfgValid n false else s
  (s.updSlice n (fun y => { y with leaving := true })).heldMark n (!s.quiet n)

/-- Whether the leaving slices are quiescent and their commands stand at a boundary (R247 step 3). -/
def State.leaversStill (s : State) (p : Nat) (l : List Nat) : Bool :=
  (s.awaitedCmds p).all (fun c => s.atBoundary c && !s.noBoundary c) &&
    l.all (fun n => (s.atSlice n).tile.isNone && s.quiet n && !s.sliceMoving n && !(s.atSlice n).loading)

/-- A command that waited at a boundary goes on, or its context leaves if a preemption is pending (R136, R245). Log 75 (DESIGN CHOICE). -/
def State.goOn (s : State) (c : Cmd) : State :=
  if (s.atCtx c.ctx).tq.isSome then s.preempted c.ctx
  else ((s.updCmd c.q c.seq (fun d => { d with boundary := false })).scheduleFor c.ctx).feedCtx c.ctx

/-- Steps 4 and 5 of R247 for slices of a partition that leave: residents move by way of their homes, the slices are
scrubbed and returned. Log 124 (DESIGN CHOICE). -/
def State.slicesLeave (s : State) (p : Nat) (l : List Nat) : State :=
  let xs := ((l.filterMap (fun n => (s.atSlice n).ctx))).eraseDups
  let s := xs.foldl (fun s x => s.residentsHome x (fun _ => true)) s
  let s := l.foldl (fun s n => s.release n) s
  let s := xs.foldl (fun s x => s.residentsFill x) s
  let s := l.foldl (fun s n => ((s.scrubSlice n).updSlice n (fun y => { badCfg := y.badCfg })).heldMark n false) s
  let left := maskOfList ((s.partSlices p).filter (fun n => !l.contains n))
  (s.wr (partPg p + PART_SLICES) left).capTouch.setAllGates

/-- The end of a shrink: residents move, the slices are scrubbed and returned, and the commands go on (R247 steps 4 to 6).
Log 123 (DESIGN CHOICE). -/
def State.shrinkDone (s : State) (p : Nat) (l : List Nat) : State :=
  let cs := s.awaitedCmds p
  let s := (s.slicesLeave p l).rebindEnd p 0
  (cs.foldl (fun s c => s.goOn c) s).schedule p

/-- SLICE_SHRINK (R247): the request is checked, the leaving slices are marked and their commands asked for a boundary; once
they stand still the resident tiles move and the slices go back to the pool. Where RESIDENT_RW data must be written back, step 4 starts
with that write-back and ends at a further call (R254). Log 123 (DESIGN CHOICE). -/
def execSliceShrink (part : Nat) (s : State) : Answer :=
  onUnit (decide (part < 32)) (
    let rb := s.atRebind part
    let pg := partPg part
    let old := s.rd (pg + PART_SLICES)
    let l := bitsMinus old rb.slices
    let rt := s.rd (pg + PART_RT_MASK)
    if rb.op ≠ 1 ∨ l.isEmpty ∨ (bitsMinus rb.slices old).isEmpty = false then s
    else if rb.step = 1 then
      if rb.slices = 0 ∨ l.any (fun n => bitOf rt n) ∨ (bitsMinus rb.slices rt).isEmpty then s.rebindEnd part resBelowReserved
      else
        let cs := s.leaversOf part l
        let s := l.foldl State.markLeaving s
        (s.rebindStep part 3).awaitAll part cs
    else if s.leaversStill part l = false then s
    else if rb.step = 3 ∧ (s.awaitedCmds part).any (fun c => hasResidentRw (s.mouldOf c).image) then s.rebindStep part 4
    else if 3 ≤ rb.step then s.shrinkDone part l
    else s)

/-! ### Channels (R248, R249) -/

/-- Write PART_CHAN; the capability table's PARTITION follows (R235). -/
def State.chansSet (s : State) (p m : Nat) : State :=
  ((List.range 8).foldl (fun s i => s.wr (partPg p + PART_CHAN + 4 * i) (m >>> (32 * i) % 2 ^ 32)) s).capTouch

/-- CHANNEL_BIND (R248): every channel of the request is in service (R154), and they are bound. -/
def execChannelBind (part : Nat) (s : State) : Answer :=
  onUnit (decide (part < 32)) (
    let rb := s.atRebind part
    if rb.op ≠ 2 then s
    else if (onesBelow 256 rb.chans).any (fun c => s.capState 2 c != 1) then s.rebindEnd part resChanUnavailable
    else (s.chansSet part (s.chanMap part PART_CHAN ||| rb.chans)).rebindEnd part 0)

/-! ### Rebalancing (R250, R251) -/

/-- The condition of R250 that fails, 0 when none does; `gone` are channels that the same operation releases. -/
def State.rebalRule (s : State) (p src dst gone : Nat) : Nat :=
  let lo := s.regBase src
  let hi := lo + s.regBytes src
  let segs := (s.coverSegs p src).map (fun e => s.seg e.1 e.2)
  if s.regValid dst = false ∨ s.regPart dst ≠ p ∨ s.regBytes dst < s.regBytes src ∨ dst = s.get (partPg p) PART_CFG_REGION_REGION ∨
      s.regionInUse dst ∨ (s.regChans dst).any (fun c => bitOf gone c) then resBadTarget
  else if segs.any (fun e => decide (e.base < lo) || decide (hi < e.base + e.limit)) then resSegSpans
  else if segs.any (fun e => e.qkey) ∨ segs.any (fun a => segs.any (fun b => a.key != b.key &&
      decide (max a.base b.base < min (a.base + a.limit) (b.base + b.limit)))) then resKeyUnknown
  else if (List.range 8).any (fun l => bitOf (s.rd64 (spanAt p l + PART_SPAN_EXPORT)) src) then resExported
  else 0

/-- Copy one line under the key index of the segment, among those that cover the region, that covers it; a failure is answered.
Log 125 (DESIGN CHOICE). -/
def State.copyLine (s : State) (p src dst : Nat) (segs : List (Nat × Nat)) (dpa : Nat) : State × Bool :=
  match segs.find? (fun e => let g := s.seg e.1 e.2
      decide (g.base ≤ dpa) && decide (dpa < g.base + g.limit)) with
  | none => (s, true)
  | some e =>
    let k := (s.seg e.1 e.2).key
    match s.devRead k dpa 256 with
    | (s, .inr b) => match s.devWrite k p (dpa - s.regBase src + s.regBase dst) b with
      | (s, .failed _ _ _) => (s, false)
      | (s, _) => (s, true)
    | (s, .inl _) => (s, false)

/-- Copy blocks of 2 MiB of SRC, by DPA ÷ 2^21. -/
def State.copyBlocks (s : State) (p src dst : Nat) (blocks : List Nat) : State × Bool :=
  let segs := s.coverSegs p src
  blocks.foldl (fun (a : State × Bool) b =>
    (List.range 8192).foldl (fun (a : State × Bool) i =>
      if a.2 then a.1.copyLine p src dst segs (b * 2 ^ 21 + 256 * i) else a) a) (s, true)

/-- Every block of a region. -/
def State.regionBlocks (s : State) (r : Nat) : List Nat :=
  (List.range (s.regBytes r / 2 ^ 21)).map (· + s.regBase r / 2 ^ 21)

/-- Step of a rebalance; operation 4 shows it as its own. -/
def State.rebalSub (s : State) (p n : Nat) : State :=
  let s := s.updRebind p (fun r => { r with sub := n })
  if (s.atRebind p).op = 4 then s.rebindStep p n else s.rebindStep p 3

/-- Start and finish a copying pass: PASS counts it, the log is cleared as it starts. Log 125 (DESIGN CHOICE). -/
def State.rebalPass (s : State) (p n : Nat) (blocks : List Nat) : State :=
  let rb := s.atRebind p
  let s := (s.updRebind p (fun r => { r with log := [], pass := r.pass + 1 })).rebalSub p n
  let s := (s.set (partPg p) PART_REBAL_STAT_PASS (rb.pass + 1)).set (partPg p) PART_REBAL_STAT_BLOCKS_LEFT 0
  match s.copyBlocks p rb.src rb.dst blocks with
  | (s, true) => s
  | (s, false) => s.rebindEnd p resCopyFailed

/-- The words of a covering segment with its BASE moved from SRC to DST. -/
def State.movedWords (s : State) (src dst : Nat) (e : Nat × Nat) : List Nat :=
  let ws := s.segWords e.1 e.2
  let base := (s.seg e.1 e.2).base + s.regBase dst - s.regBase src
  ws.take 2 ++ [base % 2 ^ 32, base / 2 ^ 32 % 2 ^ 32] ++ ws.drop 4

/-- Take back the pending changes of a rebalance (R253). Log 126 (DESIGN CHOICE). -/
def State.rebalCancel (s : State) (p : Nat) : State :=
  (s.coverSegs p (s.atRebind p).src).foldl (fun s e =>
    if (s.atSegPend (e.1 * 8 + e.2)).rebal then
      (s.updSegPend (e.1 * 8 + e.2) (fun _ => {})).set (segAt e.1 e.2) CTX_SEG_6_PENDING 0
    else s) s

/-- Step 5: a change of BASE becomes pending on every covering segment, once no other change is pending there. Log 125 (DESIGN CHOICE). -/
def State.rebalSwitch (s : State) (p : Nat) : State :=
  let rb := s.atRebind p
  let segs := s.coverSegs p rb.src
  if segs.any (fun e => !(s.atSegPend (e.1 * 8 + e.2)).words.isEmpty) then s
  else (segs.foldl (fun s e => s.segNarrow e.1 e.2 (s.movedWords rb.src rb.dst e) true) s).rebalSub p 5

/-- Steps 6 and 7: with HOLD 0 everywhere the last blocks are copied and the segments switch; answers whether it did.
Log 126 (DESIGN CHOICE). -/
def State.rebalLast (s : State) (p : Nat) : State × Bool :=
  let rb := s.atRebind p
  let segs := s.coverSegs p rb.src
  if segs.any (fun e => s.segHold e.1 e.2 != 0) then (s, false)
  else match (s.rebalSub p 6).copyBlocks p rb.src rb.dst rb.log with
    | (s, false) => ((s.rebalCancel p).rebindEnd p resCopyFailed, false)
    | (s, true) =>
      (segs.foldl (fun s e => (s.segApply e.1 e.2 (s.movedWords rb.src rb.dst e)).segDone e.1 e.2) s, true)

/-- One advance of a rebalance (R251) from the state it stands in; answers whether it has completed. -/
def State.rebalNext (s : State) (p gone : Nat) : State × Bool :=
  let rb := s.atRebind p
  if rb.sub = 0 then
    let r := s.rebalRule p rb.src rb.dst gone
    if r ≠ 0 then (s.rebindEnd p r, false) else (s.rebalPass p 3 (s.regionBlocks rb.src), false)
  else if rb.sub ≤ 4 then
    if rb.log.length ≤ 64 ∨ 8 ≤ rb.pass then (s.rebalSwitch p, false) else (s.rebalPass p 4 rb.log, false)
  else s.rebalLast p

/-- REBALANCE (R251): one step of the copy, of its further passes, or of the switch. Log 125 (DESIGN CHOICE). -/
def execRebalance (part : Nat) (s : State) : Answer :=
  onUnit (decide (part < 32)) (
    if (s.atRebind part).op ≠ 4 then s
    else match s.rebalNext part 0 with
      | (s, true) => s.rebindEnd part 0
      | (s, false) => s)

/-- Step 5 of R249. -/
def State.chansLeave (s : State) (p m : Nat) : State :=
  let s := s.flushPart p
  (s.chansSet p (s.chanMap p PART_CHAN - (s.chanMap p PART_CHAN &&& m))).rebindEnd p 0

/-- CHANNEL_RELEASE (R249): with no region on the channels they are released; with one and MOVE its data move first. -/
def execChannelRelease (part : Nat) (s : State) : Answer :=
  onUnit (decide (part < 32)) (
    let rb := s.atRebind part
    if rb.op ≠ 3 then s
    else if rb.sub ≠ 0 then match s.rebalNext part rb.chans with
      | (s, true) => ((s.regionClear rb.src).updRebind part (fun r => { r with sub := 0 })).chansLeave part rb.chans
      | (s, false) => s
    else
      let hit := (List.range 64).filter (fun r => s.regValid r && s.regPart r == part && (s.regChans r).any (fun c => bitOf rb.chans c))
      match hit, rb.move with
      | [], _ => s.chansLeave part rb.chans
      | [r], true => ((s.updRebind part (fun x => { x with src := r })).rebalNext part rb.chans).1
      | _, _ => s.rebindEnd part resRegionsInUse)

/-! ### Ports (R257-R259, R331, R332) -/

/-- Answer the BIND_REQ that a port holds, now that its end is bound (R331). -/
def State.answerBind (s : State) (n : Nat) : State :=
  let l := s.atLink n
  if l.bindReq = 0 then s
  else
    let s := s.updLink n (fun x => { x with bindReq := 0 })
    if l.bindReq = l.bindTo then s.sendMgmt n { op := 0x23 } else s.sendMgmt n { op := 0x24, aux := 1 }

/-- Bind a port to a span slot (R257 step 4). -/
def State.bindPort (s : State) (n p slot span : Nat) : State :=
  let pg := lnkPg n
  let a := partPg p + PART_PORTS
  let s := s.wr64 a (putBit (s.rd64 a) n true)
  let s := ((s.set pg LNK_STAT_BOUND 1).set pg LNK_STAT_PARTITION p).set pg LNK_STAT_SPAN_SLOT slot
  let s := (s.set pg LNK_STAT_FWD_POOL 0).updLink n (fun x => { x with bindTo := span })
  s.capTouch.answerBind n

/-- The one port of a request, or none. -/
def onePort (m : Nat) : Option Nat := match onesBelow 36 m with
  | [n] => some n
  | _ => none

/-- PORT_BIND (R257 step 2): the port is checked and a bind request with the span identity goes to the partner. -/
def execPortBind (part : Nat) (s : State) : Answer :=
  onUnit (decide (part < 32)) (
    let rb := s.atRebind part
    if rb.op ≠ 5 ∨ rb.step ≠ 1 then s
    else if rb.span = 0 then s.rebindEnd part resBadSpanId
    else match onePort rb.ports with
      | none => s.rebindEnd part resPortUnavailable
      | some n =>
        if s.capState 3 n ≠ 1 ∨ s.portUp n = false ∨ s.on (lnkPg n) LNK_STAT_BOUND then s.rebindEnd part resPortUnavailable
        else ((s.updLink n (fun x => { x with bindBy := x.bindBy ++ [part] })).sendMgmt n { op := 0x22, span := rb.span }).rebindStep part 3)

/-- A port binding ends without the port bound. Log 132 (DESIGN CHOICE). -/
def State.bindFails (s : State) (p result : Nat) : State :=
  match onePort (s.atRebind p).ports with
  | some n => (s.updLink n (fun x => { x with bindBy := x.bindBy.filter (· != p) })).rebindEnd p result
  | none => s.rebindEnd p result

/-- PORT_BIND_TIMEOUT (R257): the partner has not answered within 100 ms. -/
def execPortBindTimeout (part : Nat) (s : State) : Answer :=
  onUnit (decide (part < 32)) (
    let rb := s.atRebind part
    if rb.op = 5 ∧ rb.step = 3 then s.bindFails part resPartnerTimeout else s)

/-- Partition whose operation binds port `n` and is the first to wait for the partner: answers come in the order of the requests.
Log 132 (DESIGN CHOICE). -/
def State.binding (s : State) (n : Nat) : Option Nat := (s.atLink n).bindBy.head?

/-- Whether port `n` is bound, or being bound, to a span identity (R331). -/
def State.boundSpan (s : State) (n span : Nat) : Bool :=
  (s.on (lnkPg n) LNK_STAT_BOUND && (s.atLink n).bindTo == span) || (s.atLink n).bindBy.any (fun p => (s.atRebind p).span == span)

/-- Whether requests that took a port as their first hop are outstanding. -/
def State.portBusy (s : State) (n : Nat) : Bool := s.reqs.any (fun e => match e.2 with
  | some r => r.port == n
  | none => false)

/-- PORT_UNBIND (R259, R332): the ports take no new traffic of their slot and UNBIND goes to each partner; the last bound port of
an ACTIVE slot stays. Log 133 (DESIGN CHOICE). -/
def execPortUnbind (part : Nat) (s : State) : Answer :=
  onUnit (decide (part < 32)) (
    let rb := s.atRebind part
    let mine := s.partPorts part
    let l := mine.filter (fun n => bitOf rb.ports n)
    let slotOf := fun (n : Nat) => s.get (lnkPg n) LNK_STAT_SPAN_SLOT
    if rb.op ≠ 6 ∨ rb.step ≠ 1 then s
    else if l.any (fun n => s.get (spanAt part (slotOf n)) PART_SPAN_0_STATE == 2 &&
        mine.all (fun k => slotOf k != slotOf n || l.contains k)) then s.rebindEnd part resPortUnavailable
    else if l.isEmpty then s.rebindEnd part 0
    else (l.foldl (fun s n => (s.sendMgmt n { op := 0x25 }).updLink n (fun x => { x with draining := true })) s).rebindStep part 2)

/-- PORT_UNBIND_DRAIN_DONE (R332): every first-hop request of the port is answered or expired, and it leaves the slot.
Log 133 (DESIGN CHOICE). -/
def execPortUnbindDrainDone (port : Nat) (s : State) : Answer :=
  onUnit (decide (port < 36)) (
    if (s.atLink port).draining = false ∨ s.portBusy port then s
    else
      let p := s.get (lnkPg port) LNK_STAT_PARTITION
      let s := s.unbindPort port
      let rb := s.atRebind p
      if rb.op = 6 ∧ rb.step = 2 ∧ (s.partPorts p).all (fun n => !bitOf rb.ports n) then s.rebindEnd p 0 else s)

/-! ### Aborts (R253, R254) -/

/-- Slices of a partition that its shrink has marked; one whose retirement is in progress is not among them. -/
def State.markedOf (s : State) (p : Nat) : List Nat :=
  (s.partSlices p).filter (fun n => (s.atSlice n).leaving && !s.rcv.retiring.contains n)

/-- Marked slices of a partition stay in it. -/
def State.unmark (s : State) (p : Nat) : State :=
  (s.markedOf p).foldl (fun s n => (s.updSlice n (fun y => { y with leaving := false })).heldMark n false) s

/-- A retirement, or a reset, interrupts a shrink whose write-back of RESIDENT_RW data has started: the commands whose data are under
way break with REBIND_ABORTED (R254), the others go on. Log 128 (DESIGN CHOICE). -/
def State.shrinkBreak (s : State) (p result : Nat) : State :=
  let cs := s.awaitedCmds p
  let s := (s.unmark p).rebindEnd p result
  cs.foldl (fun s c => if hasResidentRw (s.mouldOf c).image then
      ((s.breakCmd c.q c.seq codeRebindAborted 4 c.q).flushCmd c.q c.seq).updCmd c.q c.seq (fun d => { d with boundary := false })
    else s.goOn c) s

/-- Abort of an operation where its step allows, with ABORTED or PREEMPTED. Log 128 (DESIGN CHOICE). -/
def State.rebindAbort (s : State) (p result : Nat) : State :=
  let rb := s.atRebind p
  let pg := partPg p
  let old := s.rd (pg + PART_SLICES)
  if rb.op = 1 then
    if rb.step = 1 then s.rebindEnd p result
    else if rb.step = 3 then
      let cs := s.awaitedCmds p
      let s := (s.unmark p).rebindEnd p result
      (cs.filter (fun c => s.atBoundary c)).foldl (fun s c => s.goOn c) s
    else if (s.markedOf p).isEmpty = false then (if result = resPreempted then s.shrinkBreak p result else s)
    else
      let back := (s.partSlices p).filter (fun n => bitOf rb.slices n && (s.atSlice n).ctx.isNone && (s.atSlice n).cmd.isNone &&
        !bitOf rb.had n)
      let keep := maskOfList ((onesBelow 32 old).filter (fun n => !back.contains n))
      let s := back.foldl (fun s n => s.scrubSlice n) s
      ((((s.wr (pg + PART_SLICES) keep).wr (pg + PART_SLICE_REQ) keep).capTouch).setAllGates).rebindEnd p result
  else if rb.op = 3 ∨ rb.op = 4 then
    if rb.sub ≤ 4 then s.rebindEnd p result
    else if rb.sub = 5 then (s.rebalCancel p).rebindEnd p result
    else s
  else if rb.op = 5 then
    match onePort rb.ports with
    | some n => (if s.on (lnkPg n) LNK_STAT_BOUND then s else s.sendMgmt n { op := 0x25 }).bindFails p result
    | none => s.bindFails p result
  else s

/-- ABORT in PART_REBIND_CTL. Log 128 (DESIGN CHOICE). -/
def State.rebindAbortReq (s : State) (p : Nat) : State :=
  if s.on (partPg p) PART_REBIND_CTL_BUSY then s.rebindAbort p resAborted else s

/-- A write of PART_REBIND_CTL (R243, R468): OP and MOVE are taken, ABORT acts, START is collected for the next epoch.
Log 122 (DESIGN CHOICE). -/
def State.rebindCtlWrite (s : State) (p v : Nat) : State :=
  let pg := partPg p
  let s := (s.set pg PART_REBIND_CTL_OP v).mark pg PART_REBIND_CTL_MOVE (bitOf v 7)
  let s := if bitOf v 6 then s.set pg PART_REBIND_CTL_DONE 0 else s
  let s := if bitOf v 4 then s.rebindAbortReq p else s
  if bitOf v 3 then
    { s with mgmt := { s.mgmt with collected := s.mgmt.collected ++ [{ src := 1, kind := 0, a := p, b := v % 8 }] } }
  else s

end Sys2Proof.Machine
end

