-- ==== Sys2Proof/Machine/LinkPorts.lean ====
section
/-! DEFINITION. Link ports (R290-R292, R297, R318-R333): routes, trunks and their re-forming, losses and what they break, training,
keying, hold-down. -/

namespace Sys2Proof.Machine

open Sys2Proof

/-! ### Records and messages -/

/-- LINK_UP, LINK_DOWN and LINK_HELD records (R333). -/
def State.linkEvent (s : State) (typ p reason : Nat) : State :=
  s.event0 typ (leBytes 1 p ++ leBytes 1 reason ++ leBytes 2 (s.portDev p) ++ leBytes 4 (s.rd (lnkPg p + LNK_INCARN)))

/-- DEVICE_UNREACHABLE and DEVICE_REACHABLE records. -/
def State.reachEvent (s : State) (d : Nat) (up : Bool) : State :=
  s.event0 (if up then 0x24 else 0x23) (leBytes 1 0xFF ++ leBytes 1 0 ++ leBytes 2 d)

/-- The profile in force asks for half-rate lanes (R373). -/
def State.laneHalf (s : State) : Bool := decide (s.power.prof % 8 = 0) && bitOf s.power.prof 12

/-- PARTNER_STATE with a code: 0 UP, 1 GOING_DOWN, 2 PORT_DOWN. -/
def State.sendState (s : State) (p code : Nat) : State :=
  let pg := lnkPg p
  let req := s.get pg LNK_CTL_FEC_STRONG + 2 * (s.get pg LNK_CTL_HALF_RATE ||| (if s.laneHalf then 1 else 0))
  s.sendMgmt p { op := 0x21, aux := code, payload := leBytes 4 s.incarn ++ leBytes 1 p ++ leBytes 1 req ++ leBytes 10 0 }

/-- GOING_DOWN on every port that is UP (R329). -/
def State.goingDown (s : State) : State :=
  ((List.range 36).filter s.portUp).foldl (fun s p => s.sendState p 1) s

/-! ### Routes (R320-R322) -/

/-- Trunks of this device: each by its first member. -/
def State.trunkHeads (s : State) : List Nat :=
  (List.range 36).filter (fun p => s.inTrunk p && (s.members (s.trunkKey p)).head? == some p)

/-- ROUTE_ADV entries for the trunk toward a neighbour: no route that uses it goes back over it; hops 15 where there is none. -/
def State.advEntries (s : State) (nb : Nat) (ds : List Nat) : List Nat :=
  (ds.filter (fun d => let r := s.atRoute d
    r.state != 3 && s.nextHop d != some nb)).map (fun d => let r := s.atRoute d
    d + (if r.valid ∧ r.state ≠ 0 then r.hops else 15) * 2 ^ 12)

/-- Advertise routes on every trunk, up to 2,048 entries in a message (R321); only in hardware mode. -/
def State.advertise (s : State) (ds : List Nat) : State :=
  if s.hostMode 5 then s
  else s.trunkHeads.foldl (fun s p =>
    let es := s.advEntries (s.portDev p) ds
    (List.range ((es.length + 2047) / 2048)).foldl (fun s i =>
      let e := (es.drop (2048 * i)).take 2048
      s.sendMgmt p { op := 0x2B, aux := e.length, payload := e.flatMap (leBytes 2) }) s) s

/-- Change a route entry: a change of its reachability is recorded once (R333), a change of the route is advertised. -/
def State.setRoute (s : State) (d : Nat) (r : Route) : State :=
  let o := s.atRoute d
  let s := s.updRoute d (fun _ => r)
  let s := if (o.state = 0) = (r.state = 0) then s else s.reachEvent d (r.state != 0)
  if o.valid = r.valid ∧ o.state = r.state ∧ o.hops = r.hops ∧ o.next = r.next then s else s.advertise [d]

/-- Routes known to a destination as (hops, neighbour): a direct one, and what reachable neighbours advertise. -/
def State.routesTo (s : State) (d : Nat) : List (Nat × Nat) :=
  (if s.reaches d then [(1, d)] else []) ++
    ((s.atRoute d).adv.filter (fun e => decide (e.2 ≤ 7) && s.reaches e.1 && e.1 != d)).map (fun e => (e.2 + 1, e.1))

/-- The fewest hops, ties going to the lower neighbour. -/
def bestRoute (l : List (Nat × Nat)) : Option (Nat × Nat) :=
  l.foldl (fun b e => match b with
    | none => some e
    | some f => if e.1 < f.1 ∨ (e.1 = f.1 ∧ e.2 < f.2) then some e else some f) none

/-- Learn an entry that is invalid or UNREACHABLE (R321); ALT is NEXT while no other neighbour has a route. Log 155 (DEDUCED). -/
def State.learn (s : State) (d : Nat) : State :=
  let r := s.atRoute d
  if s.hostMode 5 ∨ r.state = 3 ∨ r.hold ∨ (r.valid ∧ r.state ≠ 0) then s
  else
    let l := s.routesTo d
    match bestRoute l with
    | none => s
    | some b =>
      let alt := match bestRoute (l.filter (fun e => e.2 != b.2)) with
        | some a => a.2
        | none => b.2
      s.setRoute d { r with valid := true, state := 1, next := b.2, alt := alt, hops := b.1, learned := true }

/-- A neighbour can be reached again or anew: entries through it leave UNREACHABLE, others are learned. -/
def State.neighbourUp (s : State) (nb : Nat) : State :=
  let ds := (nb :: s.routes.map (·.1)).eraseDups
  ds.foldl (fun s d =>
    let r := s.atRoute d
    if r.valid ∧ r.state = 0 ∧ r.hold = false ∧ r.hops ≤ 8 ∧ r.next = nb then s.setRoute d { r with state := 1 }
    else if r.valid ∧ r.state = 0 ∧ r.hold = false ∧ r.hops ≤ 8 ∧ r.alt = nb then s.setRoute d { r with state := 2 }
    else s.learn d) s

/-! ### Answers to requests -/

/-- The trunk toward a neighbour for a transaction of another device, or for an answer: of the local slot with its span
identity, else of the forward pool (R320). -/
def State.spanTrunk (s : State) (span nb : Nat) : List Nat :=
  let own := if span = 0 then none else
    ((List.range 32).flatMap (fun p => (s.liveSlots p).map (fun l => (p, l)))).find? (fun e => s.rd (spanAt e.1 e.2 + PART_SPAN_ID) == span)
  s.trunkTo own nb

/-- Answer a request with a response (R309); REFUSED and ROUTE_FAIL answers are counted. Log 162 (DESIGN CHOICE). -/
def State.answer (s : State) (t : Txn) (status : Nat) (data : Bytes) : State :=
  let s := if status = 1 then s.errCount rtePg RTE_REFUSED 1
    else if status = 2 then s.errCount rtePg RTE_ROUTE_FAIL 1 else s
  let r : Txn := { op := 7, cls := 1, dst := t.src, src := s.self, tag := t.tag, status := status, payload := data }
  match s.nextHop t.src with
  | none => s
  | some nb => match s.rotate (s.spanTrunk t.span nb) with
    | none => s
    | some p => s.depart p r

/-! ### What a failed request and an absent device break (R309, R310, R327, R328) -/

/-- The command that issued a request stops, or a lost completion record halts its queue (R209). Log 162 (DESIGN CHOICE). -/
def State.reqFails (s : State) (r : LinkReq) (code kind id remote : Nat) : State :=
  if r.record then s.queueHalt r.q 0x0A r.seq
  else (s.breakCmd r.q r.seq code kind id 0 remote).flushCmd r.q r.seq

/-- Break a fence with REMOTE set; its record goes to event queue 0 (R210, R229, R315, R328). What the record would say of a
breaking command on this device is left open. Log 152 (DESIGN CHOICE). -/
def State.remoteFenceBreak (s : State) (f code detail dev : Nat) (value : Option Nat) : State :=
  let q := s.get (fenAt f) FEN_CTL_QUEUE
  let (d, s) := s.draw
  let (e, s) := s.draw
  let v := match value with
    | some v => v
    | none => Config.free e / 2 ^ 18
  let s := s.breakFence f (errorRecord code detail 5 (Config.free d) dev q 0 (Config.free e) dev v s.mclk)
  s.event 0 0x02 (s.ownerOf (Pg.base .fen (f / 32))) (leBytes 2 f ++ leBytes 1 code ++ leBytes 1 0 ++ leBytes 2 q ++ leBytes 2 0 ++ leBytes 4 0)

/-- Enabled remote fences that name a device and are not BROKEN, of one span slot or of all. -/
def State.fencesFrom (s : State) (dev : Nat) (only : Option (Nat × Nat)) : List Nat :=
  s.fencesListed.filter (fun f => s.on (fenAt f) FEN_CTL_ENABLE && s.on (fenAt f) FEN_CTL_REMOTE &&
    s.get (fenAt f) FEN_SRC_REMOTE_DEV == dev && !s.fenBroken f && (match only with
      | some (p, l) => s.fenceIn p f && s.get (fenAt f) FEN_SRC_SPAN_SLOT == l
      | none => true))

/-- Ranks that a device has in a span slot. Log 163 (DESIGN CHOICE). -/
def State.ranksOf (s : State) (p l dev : Nat) : List Nat := (List.range (s.spanM p l)).filter (fun r => s.spanDev p l r == dev)

/-- Whether a span command still has a COLLECTIVE phase to end (R316). -/
def State.exchangesLeft (s : State) (c : Cmd) : Bool :=
  let m := (s.mouldOf c).image
  (List.range (iPhases m)).any (fun i => (tilingOf m i).kind == 3 &&
    (decide (c.spr.phase < i) || (i == c.spr.phase && !c.spr.combined) ||
      (decide (iLoopFirst m ≤ i) && decide (i ≤ iLoopLast m) && decide (c.spr.phase ≤ iLoopLast m) && decide (c.spr.iter + 1 < iLoopCount m))))

/-- Whether a span command's next barrier or exchange needs a token or data from a device. Log 163 (DESIGN CHOICE). -/
def State.needsPeer (s : State) (c : Cmd) (dev : Nat) (only : Option (Nat × Nat)) : Bool :=
  match dSlot c.desc with
  | none => false
  | some l => dOp c.desc == 1 && !c.work && (only.isNone || only == some (c.part, l)) && s.exchangesLeft c &&
      (s.ranksOf c.part l dev).any (fun r => !(s.toksOf c l).any (fun t => t.rank == r))

/-- A device has become unreachable, or has left a span (R328, R261): fences and span commands that need it break with
PARTNER_ABSENT. Log 163 (DESIGN CHOICE). -/
def State.absent (s : State) (dev : Nat) (only : Option (Nat × Nat)) : State :=
  let s := (s.fencesFrom dev only).foldl (fun s f => s.remoteFenceBreak f codePartnerAbsent 0 dev none) s
  (s.allCmds.filter (fun c => s.needsPeer c dev only)).foldl (fun s c =>
    (s.breakCmd c.q c.seq codePartnerAbsent 5 dev 0 dev).flushCmd c.q c.seq) s

/-! ### Loss of a port (R319, R326, R327) -/

/-- The requests whose trunk has ended stop their commands (R327); their tags stay taken. -/
def State.trunkReqs (s : State) (k p : Nat) : State :=
  (s.reqs.filterMap (fun e => match e.2 with
    | some r => if r.trunk = k ∧ r.dead = false then some (e.1, r) else none
    | none => none)).foldl (fun s e =>
      ({ s with reqs := Tab.put none e.1 (some { e.2 with dead := true }) s.reqs }).reqFails e.2 codeLinkLost 2 p 0) s

/-- A trunk ends with its last port: own requests break, queued requests of others are answered ROUTE_FAIL. -/
def State.trunkEnds (s : State) (k p : Nat) (q : List Txn) : State :=
  let s := { s with trunks := Tab.put {} k {} s.trunks }
  let s := (q.filter (fun t => t.cls == 0 && t.src != s.self)).foldl (fun s t => s.answer t 2 []) s
  s.trunkReqs k p

/-- A trunk re-forms over its survivors (R319 steps 1 and 2): what came after the trunk's count is discarded. Log 154 (DESIGN CHOICE). -/
def State.trunkReform (s : State) (k : Nat) (ms : List Nat) (q : List Txn) : State :=
  let s := s.updTrunk k (fun x => { x with sync := true })
  let s := ms.foldl (fun s m => (s.updLink m (fun x => { x with rxWait := 0, rxTrunk := 0, syncWait := true })).sendMgmt m { op := 0x2A, aux := (s.atTrunk k).rx }) s
  q.foldl (fun s t => match s.portFor ms t with
    | some m => s.transmit m t
    | none => s) s

/-- What a port forgets when it goes down: sequence numbers, replay buffer, keys, credits, what it was to send. -/
def LinkSt.closed (x : LinkSt) : LinkSt :=
  {
    bindTo := x.bindTo, bindBy := x.bindBy, bindReq := x.bindReq, draining := x.draining, fails := x.fails, heldAt := x.heldAt,
    lostAt := x.lostAt, txKey := x.txKey, rxKey := x.rxKey, hbSeq := x.hbSeq }

/-- A port goes DOWN. -/
def State.portClose (s : State) (p : Nat) : State :=
  ((s.updLink p LinkSt.closed).set (lnkPg p) LNK_STAT_STATE 0).set (lnkPg p) LNK_STAT_FWD_POOL 0

/-- A port is declared lost (R326 events 2 to 6), with the reason of R333. -/
def State.portLost (s : State) (p reason : Nat) : State :=
  if s.portUp p = false then s.portClose p
  else
    let k := s.trunkKey p
    let had := s.inTrunk p
    let q := (s.atLink p).queue.filter (fun t => t.cls != 3)
    let s := (s.portClose p).updLink p (fun x => { x with lostAt := some s.mclk })
    let s := s.errCount (lnkPg p) LNK_LOSS_CNT 1
    let s := if had = false then s
      else
        let ms := s.members k
        if ms.isEmpty then s.trunkEnds k p q else s.trunkReform k ms q
    (s.routesHold (s.portDev p)).linkEvent 0x21 p reason

/-- A port is taken down to retrain or retire: PORT_DOWN goes first (R329). -/
def State.portRetrain (s : State) (p reason : Nat) : State :=
  if s.portUp p then (s.sendState p 2).portLost p reason else s.portClose p

/-- PARTNER_LOSS_TIMEOUT (R326): no good block, or no HEARTBEAT, for 2.0 µs. -/
def execPartnerLossTimeout (port : Nat) (s : State) : Answer :=
  onUnit (decide (port < 36)) (if s.portUp port then s.portLost port 1 else s)

/-- Whether a request to a destination is outstanding and not resolved (R322). -/
def State.toward (s : State) (d : Nat) : Bool := s.reqs.any (fun e => match e.2 with
  | some r => r.dst == d && !r.dead
  | none => false)

/-- Issue a request that was held for a route switch (R322, R327). -/
def State.issueHeld (s : State) (d : Nat) (e : LinkReq × Txn) : State :=
  match s.nextHop d with
  | none => s.reqFails e.1 codePartnerAbsent 5 d d
  | some nb =>
    let l := s.trunkTo (some (e.1.slot / 8, e.1.slot % 8)) nb
    if l.isEmpty then s.reqFails e.1 codePartnerAbsent 5 d d else s.issueReq e.1 e.2 l

/-- ROUTE_SWITCH (R322 step 3, R328): with every outstanding request to the destination resolved, its entry moves to the other
neighbour, or to UNREACHABLE, and what was held goes on; from UNREACHABLE another route may be learned (R321, R333). Log 155 (DEDUCED). -/
def execRouteSwitch (dest : Nat) (s : State) : Answer :=
  onUnit (decide (dest < 4096)) (
    let r := s.atRoute dest
    if r.hold = false ∨ s.toward dest then s
    else
      let other := if r.state = 2 then r.next else r.alt
      let here := if r.state = 2 then r.alt else r.next
      let st := if s.reaches other ∧ other ≠ here then (if r.state = 2 then 1 else 2)
        else if s.reaches here then r.state else 0
      let s := s.setRoute dest { r with hold := false, state := st, held := [] }
      let s := if st = 0 then s.absent dest none else s
      let s := r.held.foldl (fun s e => s.issueHeld dest e) s
      if st = 0 then s.learn dest else s)

/-! ### Training, keying, hold-down (R323-R325) -/

/-- Whether a port may train: in service, ENABLE, an identity, and DOWN. -/
def State.mayTrain (s : State) (p : Nat) : Bool :=
  s.on (lnkPg p) LNK_CTL_ENABLE && s.on rtePg RTE_SELF_SET && s.portState p == 0 && s.capState 3 p == 1

/-- PORT_TRAIN (R323, R292): TRAINING starts; `strong` and `half` are the partner's requests. PARTNER_STATE goes out in
DATA_CLEAR. -/
def execPortTrain (port : Nat) (strong half : Bool) (s : State) : Answer :=
  onUnit (decide (port < 36)) (
    if s.mayTrain port = false then s
    else
      let pg := lnkPg port
      let s := (s.updLink port LinkSt.closed).set pg LNK_STAT_STATE 1
      let s := s.mark pg LNK_STAT_STRONG (strong || s.on pg LNK_CTL_FEC_STRONG)
      let s := s.mark pg LNK_STAT_HALF (half || s.on pg LNK_CTL_HALF_RATE || s.laneHalf)
      s.capTouch.sendState port 0)

/-- A step of the training fails (R325): three failures within 1 s put the port in HELD. Log 158 (DESIGN CHOICE). -/
def State.trainFails (s : State) (p : Nat) : State :=
  if s.portState p ≠ 1 ∧ s.portState p ≠ 2 then s
  else
    let s := s.errCount (lnkPg p) LNK_TRAIN_FAIL 1
    let l := s.mclk :: (s.atLink p).fails.filter (fun t => decide (s.mclk < t + 100000000))
    let s := s.portClose p
    if 3 ≤ l.length then
      ((s.updLink p (fun x => { x with fails := [], heldAt := some s.mclk })).set (lnkPg p) LNK_STAT_STATE 4).linkEvent 0x22 p 7 |>.alarm 12 |>.fault 11 p s.mclk
    else s.updLink p (fun x => { x with fails := l })

/-- TRAINING_FAILURE (R325). -/
def execTrainingFailure (port : Nat) (s : State) : Answer := onUnit (decide (port < 36)) (s.trainFails port)

/-- HOLD_DOWN_EXPIRE (R325): the hold is over, and the port may train again. -/
def execHoldDownExpire (port : Nat) (s : State) : Answer :=
  onUnit (decide (port < 36)) (
    if s.portState port = 4 then (s.updLink port (fun x => { x with heldAt := none })).set (lnkPg port) LNK_STAT_STATE 0 else s)

/-- RETRAIN in LNK_CTL (R323, R325, R329): ignored during HELD. Log 159 (DEDUCED). -/
def State.linkRetrain (s : State) (p : Nat) : State := if s.portState p = 4 then s else s.portRetrain p 6

/-- ENABLE cleared in LNK_CTL: the port is held DOWN and silent. Log 159 (DEDUCED). -/
def State.enableClear (s : State) (p : Nat) : State :=
  if s.portUp p then s.portLost p 6
  else (s.portClose p).updLink p (fun x => { x with heldAt := none })

/-- Step 4 of R323: the port is UP, joins its trunk, routes follow. Log 158 (DESIGN CHOICE). -/
def State.portIsUp (s : State) (p : Nat) : State :=
  let pg := lnkPg p
  let s := s.set pg LNK_STAT_STATE 3
  let s := s.mark pg LNK_STAT_FWD_POOL (!s.on pg LNK_STAT_BOUND && s.on pg LNK_CTL_FWD)
  let s := (s.updLink p (fun x => { x with fails := [] })).linkEvent 0x20 p 0
  if s.inTrunk p then s.neighbourUp (s.portDev p) else s

/-- A DATA block, or a transaction that only one carries, has arrived on a keyed port (R323 step 4). Log 158 (DESIGN CHOICE). -/
def State.firstData (s : State) (p : Nat) : State :=
  if s.portState p = 2 ∧ (s.atLink p).keyed then s.portIsUp p else s

/-- A neighbour returns with a new INCARN (R330): trunk counts and routes learned through the old one are discarded. -/
def State.newIncarn (s : State) (nb : Nat) : State :=
  let s := { s with trunks := s.trunks.filter (fun e => e.1 % 4096 != nb) }
  (s.routes.map (·.1)).foldl (fun s d =>
    let r := s.atRoute d
    let r := { r with adv := r.adv.filter (fun e => e.1 != nb) }
    if r.learned ∧ r.valid ∧ r.state ≠ 3 ∧ r.next = nb ∧ r.hops ≠ 1 then
      (s.setRoute d { r with valid := false, state := 0, learned := false }).learn d
    else s.updRoute d (fun _ => r)) s

/-- The partner's identity, port and INCARN as PARTNER_STATE and HEARTBEAT give them. -/
def State.partnerIs (s : State) (p dev port incarn : Nat) : State :=
  let pg := lnkPg p
  let fresh := s.portDev p == dev && s.rd (pg + LNK_INCARN) != incarn
  let s := ((s.set pg LNK_PARTNER_DEVICE dev).set pg LNK_PARTNER_PORT port).wr (pg + LNK_INCARN) incarn
  if fresh then s.newIncarn dev else s

/-- `n` bytes that the security engine draws. -/
def State.drawBytes (s : State) (n : Nat) : Bytes × State :=
  let (d, s) := s.draw
  ((List.range n).map (Config.sigByte d), s)

/-- KEY_OFFER with a fresh public key and nonce (R324 step 1). Log 160 (PRESUMED). -/
def State.sendOffer (s : State) (p : Nat) : State :=
  let (k, s) := s.drawBytes 96
  let (n, s) := s.drawBytes 32
  let o := leBytes 1 4 ++ k ++ n
  (s.updLink p (fun x => { x with ownOffer := o })).sendMgmt p { op := 0x27, payload := o ++ leBytes 15 0 }

/-- The certificate chain of this device. Log 160 (PRESUMED). -/
def ownChain : Bytes := (List.range Config.certLen).map Config.certByte

/-- The transcript that KEY_PROOF signs (R324 step 3): identities, ports, INCARNs, nonces, public keys, the lower identity
first in each. Log 160 (PRESUMED). -/
def State.transcript (s : State) (p : Nat) : Bytes :=
  let x := s.atLink p
  let pg := lnkPg p
  let both := fun (mine his : Bytes) => if s.self < s.portDev p then mine ++ his else his ++ mine
  both (leBytes 2 s.self) (leBytes 2 (s.portDev p)) ++ both (leBytes 1 p) (leBytes 1 (s.get pg LNK_PARTNER_PORT)) ++
    both (leBytes 4 s.incarn) (leBytes 4 (s.rd (pg + LNK_INCARN))) ++ both (x.ownOffer.drop 97) (sliceBytes x.offer 97 32) ++
    both (x.ownOffer.take 97) (sliceBytes x.offer 0 97)

/-- Once the partner's chain and offer are held and the chain verifies, KEY_PROOF goes out (R324 steps 2 and 3). Log 161 (DEDUCED). -/
def State.proofOut (s : State) (p : Nat) : State :=
  let x := s.atLink p
  if x.certOk = false ∨ x.offer.isEmpty ∨ x.ownOffer.isEmpty then s
  else
    let (g, s) := s.drawBytes 96
    s.sendMgmt p { op := 0x28, payload := g }

/-- A port that rekeys has nothing left to replay: it offers new keys (R302 steps 2 and 3), which it can draw only while no entropy
test fails (R383). -/
def State.rekeyDrained (s : State) (p : Nat) : State :=
  let x := s.atLink p
  if x.rekey = 1 ∧ x.replay.isEmpty ∧ s.sec.entropyBad = false then
    ((s.updLink p (fun x => { x with rekey := 2 })).sendOffer p).proofOut p
  else s

/-- A rekey starts: by REKEY, by the group counter, or by the partner's offer (R302 step 1). Log 161 (DEDUCED). -/
def State.rekeyStart (s : State) (p : Nat) : State :=
  let x := s.atLink p
  if s.portUp p = false ∨ x.rekey ≠ 0 then s
  else (s.updLink p (fun x => { x with rekey := 1, ownOffer := [], offer := [] })).rekeyDrained p

/-! ### Management rows of a port -/

/-- CERT (R324 step 2): a chain that does not verify fails the training. -/
def State.certIn (s : State) (p : Nat) (t : Txn) : State :=
  if s.portState p ≠ 2 ∨ (s.atLink p).keyed then s
  else if Config.chainVerify t.payload = false then s.trainFails p
  else (s.updLink p (fun x => { x with chain := t.payload, certOk := true })).proofOut p

/-- KEY_OFFER: the partner's key and nonce; on a port that is UP it takes part in a rekey. -/
def State.offerIn (s : State) (p : Nat) (t : Txn) : State :=
  if s.portState p = 2 ∧ (s.atLink p).keyed = false then
    (s.updLink p (fun x => { x with offer := t.payload.take 129 })).proofOut p
  else if s.portUp p then
    let s := s.rekeyStart p
    let s := s.updLink p (fun x => { x with offer := t.payload.take 129 })
    if (s.atLink p).rekey = 2 then s.proofOut p else s
  else s

/-- Keys for this direction are installed: the group counter starts again. -/
def LinkSt.newTxKey (x : LinkSt) : LinkSt := { x with txKey := x.txKey + 1, groups := 0, groupLen := 0 }

/-- KEY_PROOF (R324 steps 3 to 5): when it verifies, keys are derived; in a rekey KEY_SWITCH follows (R302 step 4). One that
does not verify fails the training; in a rekey the port retrains. -/
def State.proofIn (s : State) (p : Nat) (t : Txn) : State :=
  let x := s.atLink p
  let good := x.certOk && !x.offer.isEmpty && !x.ownOffer.isEmpty &&
    Config.ecdsaVerify (Config.leafKey x.chain) (s.transcript p) (t.payload.take 96)
  if s.portState p = 2 ∧ x.keyed = false then
    if good then s.updLink p (fun x => { x.newTxKey with keyed := true, rxKey := x.rxKey + 1, ownOffer := [], offer := [] })
    else s.trainFails p
  else if s.portUp p ∧ x.rekey = 2 then
    if good then
      let s := s.sendMgmt p { op := 0x29 }
      (s.updLink p (fun x => { x.newTxKey with rekey := 0, ownOffer := [], offer := [] })).pump p
    else s.portRetrain p 7
  else s

/-- KEY_SWITCH (R302 step 5): the receiver changes key after the group that carries it. -/
def State.switchIn (s : State) (p : Nat) : State :=
  if s.portUp p then s.updLink p (fun x => { x with rxKey := x.rxKey + 1, rxGroup := none, rxTrunk := 0 }) else s

/-- PARTNER_STATE (R323 step 2, R324 step 1, R326): UP completes the exchange and starts keying, unless both ends carry one
identity or no key can be drawn (R383); GOING_DOWN and PORT_DOWN lose the port at once. -/
def State.stateIn (s : State) (p : Nat) (t : Txn) : State :=
  if t.aux = 1 ∨ t.aux = 2 then
    if s.portUp p then s.portLost p (3 + t.aux) else s.trainFails p
  else if s.portState p ≠ 1 then s
  else
    let s := s.partnerIs p t.src (leAt t.payload 4 1 % 64) (leAt t.payload 0 4)
    if t.src = s.self ∨ s.sec.entropyBad then s.trainFails p
    else
      let s := s.set (lnkPg p) LNK_STAT_STATE 2
      (s.sendMgmt p { op := 0x26, payload := ownChain }).sendOffer p

/-- HEARTBEAT (R318, R330): the partner's INCARN and port, and the trunk blocks it has taken. -/
def State.heartIn (s : State) (p : Nat) (t : Txn) : State :=
  let s := s.partnerIs p (s.portDev p) (leAt t.payload 12 1 % 64) (leAt t.payload 0 4)
  let n := leAt t.payload 4 4
  let s := if s.inTrunk p then s.updTrunk (s.trunkKey p) (fun x => { x with acked := n }) else s
  let gone := fun (b : RepBlk) => b.acked && (match b.ord with
    | some o => seqBefore o n
    | none => true)
  s.updLink p (fun x => { x with replay := x.replay.filter (fun b => !gone b) })

/-- A HEARTBEAT of a port. -/
def State.heartTxn (s : State) (p : Nat) : Txn :=
  let rx := if s.inTrunk p then (s.atTrunk (s.trunkKey p)).rx else 0
  let body := leBytes 4 s.incarn ++ leBytes 4 rx ++ leBytes 4 (s.atLink p).hbSeq ++ leBytes 1 p ++ leBytes 3 0
  { op := 0x20, cls := 3, dst := s.portDev p, src := s.self, payload := body }

/-- The blocks of a trunk from count `x` to the last one placed are to be placed again (R319 step 3). Log 154 (DESIGN CHOICE). -/
def TrunkSt.resume (t : TrunkSt) (x : Nat) : TrunkSt :=
  { t with sync := false, acked := x, tx := x, redo := (t.tx + t.redo + 2 ^ 32 - x) % 2 ^ 32 }

/-- TRUNK_SYNC (R319 step 3): the sender resumes at the partner's count over the survivors, with a new rotation; what the survivors'
replay buffers held of the old one is no longer the trunk's. Log 154 (DESIGN CHOICE). -/
def State.syncIn (s : State) (p : Nat) (t : Txn) : State :=
  if s.inTrunk p = false then s
  else
    let k := s.trunkKey p
    let s := s.updLink p (fun x => { x with syncWait := false })
    if (s.atTrunk k).sync = false then s
    else
      let s := (s.members k).foldl (fun s m => s.updLink m (fun x => { x with
        replay := x.replay.map (fun b => ({ b with ord := none } : RepBlk)) })) s
      s.updTrunk k (fun x => x.resume (t.aux % 2 ^ 32))

/-- ROUTE_ADV (R321): what a neighbour advertises is noted, and invalid or unreachable entries are learned. Log 155 (DEDUCED). -/
def State.advIn (s : State) (p : Nat) (t : Txn) : State :=
  if s.hostMode 5 then s
  else
    let nb := s.portDev p
    (List.range (min t.aux (t.payload.length / 2))).foldl (fun s i =>
      let e := leAt t.payload (2 * i) 2
      let d := e % 4096
      let h := e / 4096
      (s.updRoute d (fun r => { r with adv := (r.adv.filter (fun a => a.1 != nb)) ++ (if h = 15 then [] else [(nb, h)]) })).learn d) s

/-- BIND_REQ (R331): answered by the state of this end of the port. Log 132 (DESIGN CHOICE). -/
def State.bindReqIn (s : State) (p : Nat) (t : Txn) : State :=
  let x := s.atLink p
  let refuse := fun (s : State) (why : Nat) => s.sendMgmt p { op := 0x24, aux := why }
  if s.capState 3 p = 2 then refuse s 2
  else if t.span ≠ 0 ∧ s.boundSpan p t.span then s.sendMgmt p { op := 0x23 }
  else if s.on (lnkPg p) LNK_STAT_BOUND then refuse s 1
  else if x.bindBy ≠ [] ∧ s.self < s.portDev p then refuse s 1
  else (x.bindBy.foldl (fun s part => s.bindFails part resClaimed) s).updLink p (fun x => { x with bindReq := t.span })

/-- BIND_ACK (R257 step 4): it answers the oldest request; a port that another partition's operation has bound meanwhile is not
available (R234). Log 132 (DESIGN CHOICE). -/
def State.bindAckIn (s : State) (p : Nat) : State :=
  match s.binding p with
  | none => s
  | some part =>
    if s.on (lnkPg p) LNK_STAT_BOUND then s.bindFails part resPortUnavailable
    else
      let r := s.atRebind part
      (((s.updLink p (fun x => { x with bindBy := x.bindBy.drop 1 })).bindPort p part r.slot r.span).rebindEnd part 0).neighbourUp (s.portDev p)

/-- BIND_REFUSE (R257, R331). -/
def State.bindRefuseIn (s : State) (p : Nat) (t : Txn) : State :=
  match s.binding p with
  | none => s
  | some part => s.bindFails part (if t.aux = 2 then resPortUnavailable else resClaimed)

/-- UNBIND (R332): this end's port is unbound once its own requests have resolved. -/
def State.unbindIn (s : State) (p : Nat) : State :=
  let s := s.updLink p (fun x => { x with bindReq := 0 })
  if s.on (lnkPg p) LNK_STAT_BOUND then s.updLink p (fun x => { x with draining := true }) else s

/-- RTE_SELF takes its identity once (R323): the entry of the device itself is LOCAL. -/
def State.selfSet (s : State) (d : Nat) : State :=
  if s.on rtePg RTE_SELF_SET then s
  else ((s.set rtePg RTE_SELF_DEVICE d).set rtePg RTE_SELF_SET 1).updRoute (d % 4096) (fun r => { r with valid := true, state := 3 })

/-- RTE_DATA as a register word. Log 156 (DESIGN CHOICE). -/
def State.rteData (s : State) : Nat :=
  let r := s.atRoute (s.get rtePg RTE_SEL_DEST)
  (if r.valid then 1 else 0) + r.state * 2 + r.next * 2 ^ 3 + r.alt * 2 ^ 15 + r.hops * 2 ^ 27 + (if r.learned then 2 ^ 31 else 0)

/-- A write of RTE_DATA (R321): in hardware mode only clearing VALID acts, and the entry is learned again; in host-assisted
mode VALID, NEXT, ALT and HOPS are taken and STATE follows. The LOCAL entry stays. Log 156 (DESIGN CHOICE). -/
def State.rteWrite (s : State) (v : Nat) : State :=
  let d := s.get rtePg RTE_SEL_DEST
  let r := s.atRoute d
  if r.state = 3 then s
  else if s.hostMode 5 then
    let valid := bitOf v 0
    let next := bitsOf v 14 3
    let alt := bitsOf v 26 15
    let hops := bitsOf v 30 27
    let st := if valid = false ∨ hops = 15 then 0 else if s.reaches next then 1 else if s.reaches alt then 2 else 0
    s.setRoute d { r with valid := valid, next := next, alt := alt, hops := hops, learned := false, state := st }
  else if bitOf v 0 ∨ r.valid = false then s
  else (s.setRoute d { r with valid := false, state := 0, learned := false, hold := false }).learn d

/-- ROUTE_ADV_TIMER (R321): every 64 ms the whole table. -/
def execRouteAdvTimer (s : State) : Answer := .next (s.advertise (s.routes.map (·.1)))

/-- REQUEST_EXPIRE (R310): no response 210 µs after issue; the tag is free again. Log 162 (DESIGN CHOICE). -/
def execRequestExpire (tag : Nat) (s : State) : Answer :=
  onUnit (decide (tag < 65536)) (
    match Tab.get none s.reqs tag with
    | none => s
    | some r =>
      let s := { s with reqs := Tab.put none tag none s.reqs }
      if r.dead then s else s.reqFails r codeLinkLost 2 r.port 0)

end Sys2Proof.Machine
end

