-- ==== Sys2Proof/Machine/Spans.lean ====
section
/-! DEFINITION. Span slots (R255-R263, R316, R131, R427): joining and leaving, and what members tell each other. -/

namespace Sys2Proof.Machine

open Sys2Proof

/-- STATE of a span slot: 0 IDLE, 1 JOINING, 2 ACTIVE, 3 LEAVING. -/
def State.slotState (s : State) (p l : Nat) : Nat := s.get (spanAt p l) PART_SPAN_0_STATE
def State.slotRank (s : State) (p l : Nat) : Nat := s.get (spanAt p l) PART_SPAN_0_RANK
def State.slotSpan (s : State) (p l : Nat) : Nat := s.rd (spanAt p l + PART_SPAN_ID)

/-- RESULT and PEER of a slot. Log 134 (DESIGN CHOICE). -/
def State.slotResult (s : State) (p l result peer : Nat) : State :=
  (s.set (spanAt p l) PART_SPAN_RESULT_RESULT result).set (spanAt p l) PART_SPAN_RESULT_PEER peer

/-- A slot returns to IDLE; what it held of its span is gone. -/
def State.slotIdle (s : State) (p l result peer : Nat) : State :=
  let s := (s.set (spanAt p l) PART_SPAN_0_STATE 0).slotResult p l result peer
  let k := p * 8 + l
  { s with joins := Tab.put {} k {} s.joins, toks := s.toks.filter (fun t => t.slot != k) }

/-- The span digest (R260): SHA-384 of the identity, M and the table. Log 129 (DESIGN CHOICE). -/
def State.spanDigest (s : State) (p l : Nat) : Bytes :=
  leBytes 48 (sha384 (leBytes 4 (s.slotSpan p l) ++ leBytes 2 (s.spanM p l) ++
    (List.range (s.spanM p l)).flatMap (fun r => leBytes 2 (s.spanDev p l r))))

/-- The slot of this device with a span identity whose STATE is one of a list. Log 129 (DESIGN CHOICE). -/
def State.slotWith (s : State) (span : Nat) (st : List Nat) : Option (Nat × Nat) :=
  if span = 0 then none
  else ((List.range 32).flatMap (fun p => (List.range 8).map (fun l => (p, l)))).find? (fun e =>
    s.slotSpan e.1 e.2 == span && st.contains (s.slotState e.1 e.2))

/-- Ranks of the other members. -/
def State.peerRanks (s : State) (p l : Nat) : List Nat := (s.spanPeers p l).map (·.1)

/-- Step 4 of R260: with joins and answers of every other member the slot is ACTIVE. -/
def State.joinDone (s : State) (p l : Nat) : State :=
  let j := s.atJoin (p * 8 + l)
  if s.slotState p l = 1 ∧ (s.peerRanks p l).all (fun r => j.joins.contains r && j.answers.contains r) then
    (s.set (spanAt p l) PART_SPAN_0_STATE 2).slotResult p l 0 0
  else s

/-- Take a join message for a slot that is JOINING or ACTIVE (R260 step 3, R262): 0 when it is accepted, else the mismatch. -/
def State.joinCheck (s : State) (p l rank src : Nat) (data : Bytes) : Nat :=
  if sliceBytes data 0 48 ≠ s.spanDigest p l then resDigest
  else if s.spanM p l ≤ rank ∨ s.spanDev p l rank ≠ src then resRank else 0

/-- Answer a join message and note it. Log 129 (DESIGN CHOICE). -/
def State.joinTake (s : State) (p l rank src : Nat) (data : Bytes) : State :=
  let r := s.joinCheck p l rank src data
  let s := s.sendColl p l src { op := 0x12, addr := s.slotRank p l, aux := r }
  if r ≠ 0 then s
  else (s.updJoin (p * 8 + l) (fun j => { j with
    joins := if j.joins.contains rank then j.joins else rank :: j.joins, left := j.left.filter (· != rank) })).joinDone p l

/-- JOIN in PART_SPAN (R255, R260): the slot is checked, join messages go out, those that came early are taken. Log 129 (DESIGN CHOICE). -/
def State.spanSlotJoin (s : State) (p l : Nat) : State :=
  if s.slotState p l ≠ 0 then s
  else if s.partState p ≠ 2 then s.slotResult p l resNotActive 0
  else if s.slotSpan p l = 0 then s.slotResult p l resBadSpanId 0
  else if s.spanM p l ≤ s.slotRank p l ∨ s.spanDev p l (s.slotRank p l) ≠ s.self then s.slotResult p l resRank 0
  else if (s.spanPeers p l).any (fun e => (s.nextHop e.2).isNone) then s.slotResult p l resNoRoute 0
  else
    let span := s.slotSpan p l
    let k := p * 8 + l
    let s := (s.set (spanAt p l) PART_SPAN_0_STATE 1).slotResult p l 0 0
    let s := { s with joins := Tab.put {} k {} s.joins, spanNo := Tab.put 0 k 0 s.spanNo }
    let s := s.castColl p l { op := 0x11, addr := s.slotRank p l, payload := s.spanDigest p l ++ leBytes 2 (s.spanM p l) ++ leBytes 14 0 }
    let early := s.earlyJoins.filter (fun e => e.1 == span)
    let s := { s with earlyJoins := s.earlyJoins.filter (fun e => e.1 != span) }
    (early.foldl (fun s e => s.joinTake p l e.2.1 e.2.2.1 e.2.2.2) s).joinDone p l

/-- SPAN_JOIN_TIMEOUT (R260): steps 2 to 4 have not completed within 100 ms. -/
def execSpanJoinTimeout (part slot : Nat) (s : State) : Answer :=
  onUnit (decide (part < 32) && decide (slot < 8)) (
    if s.slotState part slot ≠ 1 then s
    else
      let j := s.atJoin (part * 8 + slot)
      let r := ((s.peerRanks part slot).find? (fun r => !(j.joins.contains r && j.answers.contains r))).getD 0
      s.slotIdle part slot resTimeout (s.spanDev part slot r))

/-- LEAVE in PART_SPAN (R261): an ACTIVE slot moves to LEAVING; a JOINING one returns to IDLE with ABORTED. -/
def State.spanSlotLeave (s : State) (p l : Nat) : State :=
  if s.slotState p l = 2 then s.set (spanAt p l) PART_SPAN_0_STATE 3
  else if s.slotState p l = 1 then s.slotIdle p l resAborted 0
  else s

/-- Whether an accepted command names a slot, by its descriptor or by a request outstanding under it. Log 131 (DESIGN CHOICE). -/
def State.slotUsed (s : State) (p l : Nat) : Bool :=
  s.allCmds.any (fun c => c.part == p && dSlot c.desc == some l) || s.reqs.any (fun e => match e.2 with
    | some r => r.slot == p * 8 + l && !r.dead
    | none => false)

/-- SPAN_LEAVE_COMPLETE (R261): every accepted command that names the slot has resolved; a leave message goes to every member,
the slot's ports are unbound, the slot is IDLE. Log 131 (DESIGN CHOICE). -/
def execSpanLeaveComplete (part slot : Nat) (s : State) : Answer :=
  onUnit (decide (part < 32) && decide (slot < 8)) (
    if s.slotState part slot ≠ 3 ∨ s.slotUsed part slot then s
    else
      let s := s.castColl part slot { op := 0x13, addr := s.slotRank part slot }
      let ns := (s.partPorts part).filter (fun n => s.get (lnkPg n) LNK_STAT_SPAN_SLOT == slot)
      (ns.foldl (fun s n => (s.sendMgmt n { op := 0x25 }).unbindPort n) s).slotIdle part slot 0 0)

/-! ### Messages between members -/

/-- SPAN_JOIN: taken by a slot that is JOINING or ACTIVE with the identity; one that comes before its slot joins is held. -/
def State.joinIn (s : State) (t : Txn) : State :=
  match s.slotWith t.span [1, 2] with
  | some (p, l) => s.joinTake p l (t.addr % 4096) t.src t.payload
  | none => { s with earlyJoins := s.earlyJoins.filter (fun e => !(e.1 == t.span && e.2.2.1 == t.src)) ++
                [(t.span, t.addr % 4096, t.src, t.payload)] }

/-- SPAN_ANS (R260): an acceptance is held; a refusal returns the slot to IDLE and names the device. -/
def State.ansIn (s : State) (t : Txn) : State :=
  match s.slotWith t.span [1] with
  | none => s
  | some (p, l) =>
    let rank := t.addr % 4096
    if t.aux ≠ 0 then s.slotIdle p l (t.aux % 256) t.src
    else if s.spanM p l ≤ rank ∨ s.spanDev p l rank ≠ t.src then s
    else (s.updJoin (p * 8 + l) (fun j => { j with answers := if j.answers.contains rank then j.answers else rank :: j.answers })).joinDone p l

/-- SPAN_LEAVE (R261): the leaving member is recorded, and what needs it breaks (R328). -/
def State.leaveIn (s : State) (t : Txn) : State :=
  match s.slotWith t.span [2, 3] with
  | none => s
  | some (p, l) =>
    let rank := t.addr % 4096
    if s.spanM p l ≤ rank ∨ s.spanDev p l rank ≠ t.src then s
    else (s.updJoin (p * 8 + l) (fun j => { j with left := rank :: j.left })).absent t.src (some (p, l))

/-- The span command of a slot with a number. -/
def State.spanCmd (s : State) (p l no : Nat) : Option Cmd :=
  s.allCmds.find? (fun c => c.part == p && dSlot c.desc == some l && dOp c.desc == 1 && c.spanNo == no)

/-- Hold a check or a refusal of a command that has not come to its CMD_CHECK here. -/
def State.holdCheck (s : State) (p l no src : Nat) (data : Bytes) : State :=
  s.updJoin (p * 8 + l) (fun j => { j with checks := j.checks ++ [(no, src, data)] })

/-- CMD_CHECK (R131): a different mould digest or member count breaks the command. Log 164 (DESIGN CHOICE). -/
def State.checkIn (s : State) (t : Txn) : State :=
  match s.slotWith t.span [1, 2, 3] with
  | none => s
  | some (p, l) =>
    let no := t.addr % 2 ^ 32
    match s.spanCmd p l no with
    | some c => if c.work then s else if c.issued then s.checkOne c l t.src t.payload else s.holdCheck p l no t.src t.payload
    | none => if no < Tab.get 0 s.spanNo (p * 8 + l) then s else s.holdCheck p l no t.src t.payload

/-- CMD_REFUSE (R427): this member's instance, if unresolved, breaks with REMOTE_REFUSED. -/
def State.refuseIn (s : State) (t : Txn) : State :=
  match s.slotWith t.span [1, 2, 3] with
  | none => s
  | some (p, l) =>
    let no := t.addr % 2 ^ 32
    match s.spanCmd p l no with
    | some c => if c.work then s else s.checkOne c l t.src []
    | none => if no < Tab.get 0 s.spanNo (p * 8 + l) then s else s.holdCheck p l no t.src []

/-- BARRIER (R316, R317): a member's token is held, and the barrier completes when the last one is. Log 153 (DESIGN CHOICE). -/
def State.barrierIn (s : State) (t : Txn) : State :=
  match s.slotWith t.span [1, 2, 3] with
  | none => s
  | some (p, l) =>
    let no := t.addr % 2 ^ 32
    let b : Tok := { slot := p * 8 + l, cmd := no, bar := bitsOf t.addr 47 32, rank := bitsOf t.addr 59 48, acc := t.aux }
    if s.spanM p l ≤ b.rank ∨ s.spanDev p l b.rank ≠ t.src ∨
        s.toks.any (fun u => u.slot == b.slot && u.cmd == no && u.bar == b.bar && u.rank == b.rank) then s
    else
      let s := { s with toks := s.toks ++ [b] }
      match s.spanCmd p l no with
      | some c => s.barrierDone c.q c.seq
      | none => s

end Sys2Proof.Machine
end

