-- ==== Sys2Proof/Machine/LinkTxns.lean ====
section
/-! DEFINITION. Transactions that arrive on a link port (R304-R316, R185, R207): their way through the device, and one meaning
for each opcode of R308. -/

namespace Sys2Proof.Machine

open Sys2Proof

/-! ### Ingress -/

/-- Whether an opcode is in the table of R308. Log 146 (DESIGN CHOICE). -/
def knownOp (n : Nat) : Bool :=
  (decide (1 ≤ n) && decide (n ≤ 7)) || (decide (0x10 ≤ n) && decide (n ≤ 0x15)) || (decide (0x20 ≤ n) && decide (n ≤ 0x2B))

/-- Whether the fields of a transaction have the widths of R307. Log 146 (DESIGN CHOICE). -/
def txnOk (t : Txn) : Bool :=
  decide (t.op < 256) && decide (t.level < 8) && decide (t.cls < 4) && decide (t.dst < 4096) && decide (t.src < 4096) &&
  decide (t.tag < 65536) && decide (t.span < 2 ^ 32) && decide (t.age < 4096) && decide (t.addr < 2 ^ 64) &&
  decide (t.key < 256) && decide (t.attr < 256) && decide (t.queue < 4096) && decide (t.aux < 2 ^ 32) &&
  decide (t.status < 256) && decide (t.payload.length ≤ 4096)

/-- Credits that a transaction frees as it leaves its receive buffer are owed to the partner (R305): the buffer's reserve
first, then the shared pool. Log 147 (DESIGN CHOICE). -/
def LinkSt.owe (x : LinkSt) (t : Txn) : LinkSt :=
  let used := Tab.get 0 x.owed (txnBuf t)
  let n := min (txnCost t) (16 - used)
  let o := Tab.put 0 (txnBuf t) (used + n) x.owed
  { x with owed := Tab.put 0 31 (Tab.get 0 o 31 + (txnCost t - n)) o }

/-- A transaction of opcode `op` and class `cls` arrives in a DATA block: before keying it could only be in a DATA_CLEAR block,
where it is dropped and counted (R301); an unknown opcode is dropped and counted (R308). Log 146 (DESIGN CHOICE). -/
def State.arrive (s : State) (p : Nat) (t : Txn) (op cls : Nat) (f : State → Txn → State) : Answer :=
  onUnit (decide (p < 36) && txnOk t) (
    let st := s.portState p
    if st = 0 ∨ st = 4 then s
    else
      let s := s.firstData p
      if s.portUp p = false then s.errCount (lnkPg p) LNK_TAG_FAIL 1
      else if knownOp t.op = false then (s.updLink p (fun x => x.owe t)).errCount (lnkPg p) LNK_CRC_ERR 1
      else
        let t := { t with op := op, cls := cls }
        f (s.updLink p (fun x => x.owe t)) t)

/-- A keying transaction or PARTNER_STATE, which a DATA_CLEAR block may carry too (R301). -/
def State.arriveClear (s : State) (p : Nat) (t : Txn) (op : Nat) (f : State → Txn → State) : Answer :=
  onUnit (decide (p < 36) && txnOk t) (
    let st := s.portState p
    if st = 0 ∨ st = 4 then s
    else if knownOp t.op = false then s.errCount (lnkPg p) LNK_CRC_ERR 1
    else
      let t := { t with op := op, cls := 3 }
      f (s.updLink p (fun x => x.owe t)) t)

/-- Forward a transaction for another device (R304, R306, R310, R320): one level up, older by the hop and by the time it
spends here, which the spec leaves open. A request that cannot go on is answered ROUTE_FAIL. Log 148 (DEDUCED). -/
def State.forward (s : State) (t : Txn) : State :=
  let fail := fun (s : State) => if t.cls = 0 then s.answer t 2 [] else s
  if 7 ≤ t.level then fail s
  else match s.nextHop t.dst with
    | none => fail s
    | some nb => match s.portFor (s.spanTrunk t.span nb) t with
      | none => fail s
      | some p =>
        let (d, s) := s.draw
        s.depart p { t with level := t.level + 1, age := t.age + Config.free d }

/-- What ingress does with a REQ, RSP or COLL transaction: past its lifetime it is dropped (R310), for another device it is
forwarded, for this one it is served by `f`. -/
def State.routed (s : State) (t : Txn) (f : State → State) : State :=
  if t.cls ≤ 1 ∧ 1000 < t.age then
    let s := s.errCount rtePg RTE_EXPIRED 1
    if t.cls = 0 then s.answer t 5 [] else s
  else if t.dst ≠ s.self then s.forward t
  else f s

/-! ### Requests for memory (R185, R311) -/

/-- Whether a region is open to a span: its partition is ACTIVE and exports it in an ACTIVE slot of the span (R263); configuration and
save regions are never (R237, R276). -/
def State.exported (s : State) (span r : Nat) : Bool :=
  let p := s.regPart r
  s.regValid r && s.partState p == 2 && !s.cfgNamed p r && !s.saveNamed p r && (List.range 8).any (fun l => s.slotState p l == 2 && s.slotSpan p l == span &&
    bitOf (s.rd64 (spanAt p l + PART_SPAN_EXPORT)) r)

/-- The partition a request is served for: its DPA range lies in a region open to the span, its key index is 0 or an ARMED slot bound
there (R185, R387, R399), the atomic right is there where it is needed; none is REFUSED. Log 96 (DEDUCED), 151 (DESIGN CHOICE). -/
def State.ingressCheck (s : State) (t : Txn) (n : Nat) (atomic : Bool) : Option Nat :=
  let dpa := t.addr % 2 ^ 39
  match s.regionOf dpa with
  | none => none
  | some r =>
    let p := s.regPart r
    if t.span ≠ 0 ∧ s.exported t.span r ∧ dpa + n ≤ s.regBase r + s.regBytes r ∧ s.keyBound p t.key ∧ (t.key = 0 ∨ s.keyState t.key = 1) ∧
        (atomic = false ∨ bitOf t.attr 2) then some p
    else none

/-- Answer a request as the narrow access path served it (R309); a retirement that a tag failure has started goes on (R392, R399).
Log 151 (DESIGN CHOICE). -/
def State.served (s : State) (t : Txn) : NapRes → State
  | .data d => s.answer t 0 d
  | .done => s.answer t 0 []
  | .dropped => s.answer t 1 []
  | .failed code _ _ => (s.answer t (if code = codeMemUncorrectable ∨ code = codeUnitRetired then 3 else if code = codeTagFail then 4 else 1) []).keySettle t.key

/-- Whether a read has a size and an alignment of R308. -/
def rdSized (dpa n : Nat) : Bool :=
  ((n == 8 || n == 32 || n == 64) && dpa % n == 0) || (n % 256 == 0 && decide (256 ≤ n) && decide (n ≤ 4096) && dpa % 256 == 0)

/-- RD at its destination. -/
def State.rdServe (s : State) (t : Txn) : State :=
  let dpa := t.addr % 2 ^ 39
  match (if rdSized dpa t.aux then s.ingressCheck t t.aux false else none), s.place dpa with
  | some part, some p =>
    if t.aux < 256 then
      if s.chanRetired p.chan then s.answer t 3 []
      else match s.lineShort p t.key part dpa t.aux with
        | (s, r) => s.served t r
    else match s.devRead t.key dpa t.aux with
      | (s, .inr d) => s.answer t 0 d
      | (s, .inl e) => s.served t e
  | _, _ => s.answer t 1 []

/-- WR at its destination: the response leaves after the write has taken effect. -/
def State.wrServe (s : State) (t : Txn) : State :=
  let dpa := t.addr % 2 ^ 39
  match (if 1 ≤ t.aux ∧ t.aux ≤ 4096 ∧ t.aux ≤ t.payload.length then s.ingressCheck t t.aux false else none) with
  | none => s.answer t 1 []
  | some part => match s.devWrite t.key part dpa (t.payload.take t.aux) with
    | (s, r) => s.served t r

/-- What an atomic of R307 makes of the old value. -/
def atomFn (code : Nat) (wide : Bool) (x cmp : Nat) : Option (Nat → Nat) :=
  let w := if wide then 64 else 32
  let lt := fun (a b : Nat) => decide (signedOf w a < signedOf w b)
  if code = 1 then some (fun o => o + x)
  else if code = 2 then some (fun o => if lt x o then x else o)
  else if code = 3 then some (fun o => if lt o x then x else o)
  else if code = 4 then some (fun o => min o x)
  else if code = 5 then some (fun o => max o x)
  else if code = 6 then some (fun _ => x)
  else if code = 7 then some (fun o => if o = cmp then x else o)
  else none

/-- ATOM at its destination. -/
def State.atomServe (s : State) (t : Txn) : State :=
  let dpa := t.addr % 2 ^ 39
  let wide := bitOf t.attr 6
  let n := if wide then 8 else 4
  match (if dpa % n = 0 then s.ingressCheck t n true else none), s.place dpa, atomFn (bitsOf t.attr 5 3) wide (leAt t.payload 0 n) (leAt t.payload 8 n) with
  | some part, some p, some f =>
    if s.chanRetired p.chan then s.answer t 3 []
    else match s.lineModify p t.key part dpa (atomicOn n p.byte (bitOf t.attr 7) f) with
      | (s, r) => s.served t r
  | _, _, _ => s.answer t 1 []

/-- Exact additions of (element index, value) at a DPA (R167, R313); the first failure ends them. -/
def State.addAll (s : State) (key part dpa : Nat) : List (Nat × LongAcc) → State × NapRes
  | [] => (s, .done)
  | (i, x) :: l =>
    let a := dpa + 64 * i
    match s.place a with
    | none => (s, .dropped)
    | some p =>
      if s.chanRetired p.chan then (s, .failed codeUnitRetired 1 p.chan)
      else match s.lineModify p key part a (xaddOn p.byte x) with
        | (s, .data _) => s.addAll key part dpa l
        | e => e

/-- Element `i` of a REDUCE payload: v × 2^SHIFT, sign-extended (R313). -/
def reduceElem (t : Txn) (w i : Nat) : LongAcc :=
  { a := BitVec.ofInt 320 (signedOf (8 * w) (leAt t.payload (w * i) w) * 2 ^ (t.aux % 512)) }

/-- REDUCE at its destination. -/
def State.reduceServe (s : State) (t : Txn) : State :=
  let dpa := t.addr % 2 ^ 39
  let code := bitsOf t.aux 11 9
  let n := bitsOf t.aux 21 12
  let w := wBytes code
  match (if code ≤ 5 ∧ n * w ≤ 4096 ∧ n * w ≤ t.payload.length ∧ dpa % 64 = 0 then s.ingressCheck t (64 * n) true else none) with
  | none => s.answer t 1 []
  | some part => match s.addAll t.key part dpa ((List.range n).map (fun i => (i, reduceElem t w i))) with
    | (s, r) => s.served t r

/-- REDUCE_SPC at its destination: each entry adds 0 with its special state. Log 149 (DEDUCED). -/
def State.reduceSpcServe (s : State) (t : Txn) : State :=
  let dpa := t.addr % 2 ^ 39
  let n := t.aux
  let es := (List.range n).map (fun i => (leAt t.payload (4 * i) 2, (⟨0, BitVec.ofNat 2 (leAt t.payload (4 * i + 2) 1)⟩ : LongAcc)))
  let top := (es.map (fun e => e.1 + 1)).foldl max 0
  match (if 4 * n ≤ t.payload.length ∧ dpa % 64 = 0 then s.ingressCheck t (64 * top) true else none) with
  | none => s.answer t 1 []
  | some part => match s.addAll t.key part dpa es with
    | (s, r) => s.served t r

/-! ### Fence signals (R207, R315) -/

/-- Partition, ACTIVE or DISSOLVING, whose fence range holds a fence. Log 157 (DEDUCED). -/
def State.fencePart (s : State) (f : Nat) : Option Nat :=
  (List.range 32).find? (fun p => decide (2 ≤ s.partState p) && s.fenceIn p f)

/-- The check of R207 on a fence signal. Log 157 (DEDUCED). -/
def State.fenceTakes (s : State) (t : Txn) (f v : Nat) : Bool :=
  let a := fenAt f
  s.on a FEN_CTL_ENABLE && s.on a FEN_CTL_REMOTE && s.get a FEN_SRC_REMOTE_DEV == t.src && s.get a FEN_CTL_QUEUE == t.queue &&
    (match s.fencePart f with
      | some p => let l := s.get a FEN_SRC_SPAN_SLOT
        s.slotSpan p l == t.span && t.span != 0 && decide (2 ≤ s.slotState p l)
      | none => false) && decide (s.rd64 (fenTarget f) < v)

/-- FENCE_SIG at its destination. Log 152 (DESIGN CHOICE). -/
def State.fenceServe (s : State) (t : Txn) : State :=
  let f := t.addr % 65536
  let v := leAt t.payload 0 8
  if s.fenceTakes t f v = false then s.answer t 1 []
  else
    let s := s.raiseTarget f v
    if bitOf (leAt t.payload 8 1) 0 then
      (s.remoteFenceBreak f codePredecessorBroken (leAt t.payload 9 1) t.src (some v)).answer t 0 []
    else (s.signalFence f v).answer t 0 []

/-! ### Responses (R309, R310) -/


/-- The fence code that a status sets (R309); the table has no others. Log 150 (DESIGN CHOICE). -/
def statusCode (n : Nat) : Nat :=
  if n = 1 then codeRemoteRefused else if n = 3 then codeMemUncorrectable else if n = 4 then codeTagFail else codeLinkLost

/-- RSP at the requester: the tag is free; a response to a request already resolved is dropped. Log 150 (DESIGN CHOICE). -/
def State.rspServe (s : State) (t : Txn) : State :=
  match Tab.get none s.reqs t.tag with
  | none => s
  | some r =>
    let s := { s with reqs := Tab.put none t.tag none s.reqs }
    if r.dead then s
    else if t.status ≠ 0 then s.reqFails r (statusCode t.status) 5 t.src t.src
    else if r.op = 1 then s.arriveBytes r.q r.seq r.base (sliceBytes t.payload r.skip r.take)
    else s

/-! ### Rows -/

/-- RD (R308, R311). -/
def execRd (port : Nat) (t : Txn) (s : State) : Answer := s.arrive port t 1 0 (fun s t => s.routed t (fun s => s.rdServe t))

/-- WR (R308, R311, R531). -/
def execWr (port : Nat) (t : Txn) (s : State) : Answer := s.arrive port t 2 0 (fun s t => s.routed t (fun s => s.wrServe t))

/-- ATOM (R308, R311). -/
def execAtom (port : Nat) (t : Txn) (s : State) : Answer := s.arrive port t 3 0 (fun s t => s.routed t (fun s => s.atomServe t))

/-- REDUCE (R313). -/
def execReduce (port : Nat) (t : Txn) (s : State) : Answer :=
  s.arrive port t 4 0 (fun s t => s.routed t (fun s => s.reduceServe t))

/-- REDUCE_SPC (R313). -/
def execReduceSpc (port : Nat) (t : Txn) (s : State) : Answer :=
  s.arrive port t 5 0 (fun s t => s.routed t (fun s => s.reduceSpcServe t))

/-- FENCE_SIG (R207, R315). -/
def execFenceSig (port : Nat) (t : Txn) (s : State) : Answer :=
  s.arrive port t 6 0 (fun s t => s.routed t (fun s => s.fenceServe t))

/-- RSP (R309). -/
def execRsp (port : Nat) (t : Txn) (s : State) : Answer := s.arrive port t 7 1 (fun s t => s.routed t (fun s => s.rspServe t))

/-- BARRIER (R316). -/
def execBarrier (port : Nat) (t : Txn) (s : State) : Answer :=
  s.arrive port t 0x10 2 (fun s t => s.routed t (fun s => s.barrierIn t))

/-- SPAN_JOIN (R260, R262). -/
def execSpanJoin (port : Nat) (t : Txn) (s : State) : Answer := s.arrive port t 0x11 2 (fun s t => s.routed t (fun s => s.joinIn t))

/-- SPAN_ANS (R260). -/
def execSpanAns (port : Nat) (t : Txn) (s : State) : Answer := s.arrive port t 0x12 2 (fun s t => s.routed t (fun s => s.ansIn t))

/-- SPAN_LEAVE (R261, R328). -/
def execSpanLeave (port : Nat) (t : Txn) (s : State) : Answer :=
  s.arrive port t 0x13 2 (fun s t => s.routed t (fun s => s.leaveIn t))

/-- CMD_CHECK (R131). -/
def execCmdCheck (port : Nat) (t : Txn) (s : State) : Answer :=
  s.arrive port t 0x14 2 (fun s t => s.routed t (fun s => s.checkIn t))

/-- CMD_REFUSE (R427). -/
def execCmdRefuse (port : Nat) (t : Txn) (s : State) : Answer :=
  s.arrive port t 0x15 2 (fun s t => s.routed t (fun s => s.refuseIn t))

/-- HEARTBEAT in a data block (R318). -/
def execHeartbeat (port : Nat) (t : Txn) (s : State) : Answer := s.arrive port t 0x20 3 (fun s t => s.heartIn port t)

/-- PARTNER_STATE (R323, R326). -/
def execPartnerState (port : Nat) (t : Txn) (s : State) : Answer := s.arriveClear port t 0x21 (fun s t => s.stateIn port t)

/-- BIND_REQ (R331). -/
def execBindReq (port : Nat) (t : Txn) (s : State) : Answer := s.arrive port t 0x22 3 (fun s t => s.bindReqIn port t)

/-- BIND_ACK (R257, R331). -/
def execBindAck (port : Nat) (t : Txn) (s : State) : Answer := s.arrive port t 0x23 3 (fun s _ => s.bindAckIn port)

/-- BIND_REFUSE (R257, R331). -/
def execBindRefuse (port : Nat) (t : Txn) (s : State) : Answer := s.arrive port t 0x24 3 (fun s t => s.bindRefuseIn port t)

/-- UNBIND (R332). -/
def execUnbind (port : Nat) (t : Txn) (s : State) : Answer := s.arrive port t 0x25 3 (fun s _ => s.unbindIn port)

/-- CERT (R324). -/
def execCert (port : Nat) (t : Txn) (s : State) : Answer := s.arriveClear port t 0x26 (fun s t => s.certIn port t)

/-- KEY_OFFER (R324). -/
def execKeyOffer (port : Nat) (t : Txn) (s : State) : Answer := s.arriveClear port t 0x27 (fun s t => s.offerIn port t)

/-- KEY_PROOF (R324). -/
def execKeyProof (port : Nat) (t : Txn) (s : State) : Answer := s.arriveClear port t 0x28 (fun s t => s.proofIn port t)

/-- KEY_SWITCH (R302). -/
def execKeySwitch (port : Nat) (t : Txn) (s : State) : Answer := s.arrive port t 0x29 3 (fun s _ => s.switchIn port)

/-- TRUNK_SYNC (R319). -/
def execTrunkSync (port : Nat) (t : Txn) (s : State) : Answer := s.arrive port t 0x2A 3 (fun s t => s.syncIn port t)

/-- ROUTE_ADV (R321). -/
def execRouteAdv (port : Nat) (t : Txn) (s : State) : Answer := s.arrive port t 0x2B 3 (fun s t => s.advIn port t)

end Sys2Proof.Machine
end

