-- ==== Sys2Proof/Machine/LinkBlocks.lean ====
section
/-! DEFINITION. Blocks on the lanes of a link port (R293-R302, R305, R318): sending, receiving, retry, groups, the rotation. Blocks
are sealed symbolically: a body is the receiver's plaintext, and its tag a verdict. -/

namespace Sys2Proof.Machine

open Sys2Proof

/-! ### The control word (R295) -/

/-- One step of the CRC-24 over a bit. -/
def crcBit (c : Nat) (bit : Bool) : Nat :=
  let top := c.testBit 23 != bit
  let d := c * 2 % 2 ^ 24
  if top then d ^^^ 0x864CFB else d

/-- CRC-24 of bytes, most significant bit first. Log 142 (PRESUMED). -/
def crc24 (c : Nat) : Bytes → Nat
  | [] => c
  | b :: bs => crc24 ([7, 6, 5, 4, 3, 2, 1, 0].foldl (fun c i => crcBit c (b.toNat.testBit i)) c) bs

/-- Bits [39:0] of the control word. Log 142 (PRESUMED). -/
def blockCtl (b : Block) : Nat :=
  b.type + (if b.nak then 4 else 0) + (if b.gend then 8 else 0) + b.lseq * 2 ^ 4 + b.lack * 2 ^ 16 + b.crBuf * 2 ^ 28 + b.crCnt * 2 ^ 33

/-- Whether a block's CRC holds. -/
def blockCrcOk (b : Block) : Bool := crc24 0xB704CE (b.body ++ leBytes 5 (blockCtl b)) == b.crc

/-- Whether the FEC can correct every codeword (R294). -/
def blockFecOk (b : Block) (strong : Bool) : Bool :=
  (List.range (max b.fecErrs.length b.fecEras.length)).all (fun i =>
    let e := b.fecErrs.getD i 0
    let f := b.fecEras.getD i 0
    if strong then decide (2 * e + f ≤ 4) else decide (e ≤ 2))

/-- Whether the fields of a block have the widths of R295. -/
def blockOk (b : Block) : Bool :=
  decide (b.type < 4) && decide (b.lseq < 4096) && decide (b.lack < 4096) && decide (b.crBuf < 32) && decide (b.crCnt < 128) &&
    decide (b.body.length = 256) && decide (b.crc < 2 ^ 24)

/-! ### Sending -/

/-- Credits that the next block returns: up to 127 of the first buffer that owes some (R295, R305). -/
def LinkSt.returning (x : LinkSt) : Nat × Nat := match x.owed with
  | [] => (0, 0)
  | (b, n) :: _ => (b, min 127 n)

/-- Put a block on the lanes: it says NAK when one is due, acknowledges, and returns credits. Log 143 (DESIGN CHOICE). -/
def State.putBlock (s : State) (p type lseq : Nat) (gend : Bool) : State :=
  let x := s.atLink p
  let c := x.returning
  let s := if x.nakDue then s.errCount (lnkPg p) LNK_RETRY_CNT 1 else s
  let s := s.updLink p (fun x => { x with nakDue := false, owed := Tab.upd 0 x.owed c.1 (fun n => n - c.2) })
  s.emit (.block p type x.nakDue lseq x.rxSeq gend c.1 c.2)

/-- An IDLE block with its HEARTBEAT (R296, R298, R318). -/
def State.sendIdle (s : State) (p : Nat) : State :=
  let s := (s.emit (.link p (s.heartTxn p))).putBlock p 0 (s.atLink p).txSeq false
  s.updLink p (fun x => { x with hbSeq := (x.hbSeq + 1) % 2 ^ 32, sinceIdle := 0 })

/-- A new data block: LSEQ advances, the replay buffer keeps it, a closed group advances the counter (R296, R299). -/
def State.sendData (s : State) (p type : Nat) (gend : Bool) (ord : Option Nat) : State :=
  let x := s.atLink p
  let s := s.putBlock p type x.txSeq gend
  s.updLink p (fun x => { x with
    sinceIdle := x.sinceIdle + 1, txSeq := (x.txSeq + 1) % 4096, replay := x.replay ++ [⟨x.txSeq, type, gend, ord, false⟩],
    groupLen := if gend ∨ type = 2 then 0 else x.groupLen + 1, groups := if gend then x.groups + 1 else x.groups })

/-- Whether a port holds the next place of its trunk's rotation, which is not re-forming (R318, R319, R302). -/
def State.hasTurn (s : State) (p : Nat) : Bool :=
  s.inTrunk p && !(s.atTrunk (s.trunkKey p)).sync && (s.atLink p).rekey == 0 && s.rotate (s.members (s.trunkKey p)) == some p

/-- Send a block under the port's key: its own MGMT slots first, else a block of the trunk that goes again (R319), else slots of the trunk when the rotation stands at it, else
null slots that close an open group. A group closes at its 16th block or when nothing is left to send (R299). Log 143 (DESIGN CHOICE). -/
def State.sendKeyed (s : State) (p : Nat) : State :=
  let x := s.atLink p
  let k := s.trunkKey p
  let room := fun (n : Nat) => decide (n ≤ 15) || decide (15 ≤ x.groupLen)
  if x.slots ≠ 0 then
    let g := room x.slots
    (s.updLink p (fun x => { x with slots := x.slots - (if g then 15 else 16) })).sendData p 1 g none
  else if s.hasTurn p ∧ (s.atTrunk k).redo ≠ 0 then
    let t := s.atTrunk k
    let g := decide (t.redo = 1 ∧ t.slots = 0) || decide (15 ≤ x.groupLen)
    (s.updTrunk k (fun t => { t with redo := t.redo - 1, tx := (t.tx + 1) % 2 ^ 32 })).sendData p 1 g (some t.tx)
  else if s.hasTurn p ∧ (s.atTrunk k).slots ≠ 0 then
    let t := s.atTrunk k
    let g := room t.slots
    (s.updTrunk k (fun t => { t with slots := t.slots - (if g then 15 else 16), tx := (t.tx + 1) % 2 ^ 32 })).sendData p 1 g (some t.tx)
  else if x.groupLen ≠ 0 then s.sendData p 1 true none
  else s

/-- LINK_BLOCK_SEND (R296, R298, R299, R301, R302): an IDLE block, or a data block when there is something to send, the replay
buffer has room and the port has been back for 1 ms (R323); an IDLE block in every 1,024 (R497). A full group counter starts a rekey.
Log 7 (DESIGN CHOICE). -/
def execLinkBlockSend (port : Nat) (data : Bool) (s : State) : Answer :=
  onUnit (decide (port < 36)) (
    let st := s.portState port
    let x := s.atLink port
    if st = 0 ∨ st = 4 then s
    else if data = false ∨ 1023 ≤ x.sinceIdle then s.sendIdle port
    else if 1024 ≤ x.replay.length then s
    else if x.keyed = false then
      (if x.slots = 0 then s else (s.updLink port (fun x => { x with slots := x.slots - 16 })).sendData port 2 false none)
    else if x.lostAt.any (fun t => decide (s.mclk < t + 100000)) then s
    else
      let s := s.sendKeyed port
      if 2 ^ 48 ≤ (s.atLink port).groups then s.rekeyStart port else s)

/-- HEARTBEAT_SEND (R318): in an IDLE block, or in a data block while the port has data to send. -/
def execHeartbeatSend (port : Nat) (s : State) : Answer :=
  onUnit (decide (port < 36)) (
    if s.portUp port = false then s
    else if (s.atLink port).slots = 0 then s.sendIdle port
    else (s.sendMgmt port (s.heartTxn port)).updLink port (fun x => { x with hbSeq := (x.hbSeq + 1) % 2 ^ 32 }))

/-- NAK_REPEAT (R296): a receiver that waits repeats its NAK. Log 144 (DEDUCED). -/
def execNakRepeat (port : Nat) (s : State) : Answer :=
  onUnit (decide (port < 36)) (
    if (s.atLink port).nakWait then (s.updLink port (fun x => { x with nakDue := true })).sendIdle port else s)

/-! ### Receiving -/

/-- A block was dropped or came out of order: the next block says NAK; while the receiver waits already, only NAK_REPEAT says it
again (R296). Log 144 (DEDUCED). -/
def State.nakStart (s : State) (p : Nat) : State :=
  s.updLink p (fun x => { x with nakWait := true, nakDue := x.nakDue || !x.nakWait })

/-- Whether LSEQ `a` comes before LSEQ `b`. -/
def lseqBefore (a b : Nat) : Bool := a != b && decide ((b + 4096 - a) % 4096 ≤ 2048)

/-- LACK acknowledges every data block before it; a block leaves the replay buffer when the trunk count covers it too. -/
def State.acks (s : State) (p lack : Nat) : State :=
  let n := (s.atTrunk (s.trunkKey p)).acked
  let done := fun (b : RepBlk) => b.acked && (match b.ord with
    | some o => seqBefore o n
    | none => true)
  s.updLink p (fun x => { x with
    replay := (x.replay.map (fun b => if lseqBefore b.lseq lack then { b with acked := true } else b)).filter (fun b => !done b) })

/-- A NAK: every block from LACK onward is sent again, or the port retrains (R296, R297). -/
def State.nakIn (s : State) (p lack : Nat) : State :=
  let x := s.atLink p
  let ts := s.mclk :: x.nakTimes.filter (fun t => decide (s.mclk < t + 100000))
  let same := if x.nakSame.1 = lack then x.nakSame.2 + 1 else 1
  if 8 ≤ same ∨ 256 ≤ ts.length then s.portRetrain p 2
  else
    let s := s.updLink p (fun x => { x with nakTimes := ts, nakSame := (lack, same) })
    (x.replay.filter (fun b => !lseqBefore b.lseq lack)).foldl (fun s b => s.putBlock p b.type b.lseq b.gend) s

/-- Members of a trunk in the order of the partner's port numbers, which is the sender's rotation. -/
def State.rxOrder (s : State) (k : Nat) : List Nat :=
  (s.members k).mergeSort (fun a b => decide (s.get (lnkPg a) LNK_PARTNER_PORT ≤ s.get (lnkPg b) LNK_PARTNER_PORT))

/-- Take verified blocks of a trunk in rotation order as far as they have come (R318). -/
def State.trunkTake : Nat → State → Nat → State
  | 0, s, _ => s
  | n + 1, s, k =>
    let l := s.rxOrder k
    match l[(s.atTrunk k).rx % l.length]? with
    | none => s
    | some p =>
      if (s.atLink p).rxWait = 0 then s
      else State.trunkTake n ((s.updLink p (fun x => { x with rxWait := x.rxWait - 1 })).updTrunk k (fun t => { t with rx := (t.rx + 1) % 2 ^ 32 })) k

/-- The group that a block closes has a good tag: its slots are delivered (R299). Log 143 (DESIGN CHOICE). -/
def State.groupGood (s : State) (p : Nat) : State :=
  let s := s.updLink p (fun x => { x with rxWait := x.rxWait + x.rxTrunk, rxTrunk := 0, rxGroup := none, tagFails := 0 })
  if s.inTrunk p then
    let k := s.trunkKey p
    State.trunkTake (((s.members k).map (fun m => (s.atLink m).rxWait)).sum) s k
  else s

/-- The group's tag fails (R300): it is discarded and asked for again; the third time running the alarm is raised and the port
retrains. Log 143 (DESIGN CHOICE). -/
def State.groupBad (s : State) (p first : Nat) : State :=
  let s := s.errCount (lnkPg p) LNK_TAG_FAIL 1
  let n := (s.atLink p).tagFails + 1
  if 3 ≤ n then ((s.securityAlarm 4 none p).portRetrain p 3)
  else (s.updLink p (fun x => { x with rxSeq := first, rxGroup := none, rxTrunk := 0, tagFails := n })).nakStart p

/-- A data block whose CRC holds: taken in LSEQ order only. Log 145 (DESIGN CHOICE). -/
def State.dataIn (s : State) (p : Nat) (b : Block) : State :=
  let x := s.atLink p
  if b.type = 2 ∧ x.keyed then (s.errCount (lnkPg p) LNK_TAG_FAIL 1).nakStart p
  else if b.lseq ≠ x.rxSeq ∨ (b.type = 1 ∧ x.keyed = false) then s.nakStart p
  else
    let s := s.updLink p (fun x => { x with rxSeq := (x.rxSeq + 1) % 4096, nakWait := false, nakDue := false })
    if b.type = 2 then s
    else
      let s := s.firstData p
      let first := x.rxGroup.getD b.lseq
      let s := s.updLink p (fun x => { x with rxGroup := some first, rxTrunk := x.rxTrunk + (if b.trunk ∧ x.syncWait = false then 1 else 0) })
      if b.gend = false then s else if b.tagOk then s.groupGood p else s.groupBad p first

/-- The HEARTBEAT of an IDLE body, when it holds one (R298). -/
def idleHeart (b : Block) : Option Txn :=
  if leAt b.body 0 1 = 0x20 then some { op := 0x20, cls := 3, payload := sliceBytes b.body 32 16 } else none

/-- LINK_BLOCK_RECEIVE (R295-R301): FEC, CRC and TYPE are checked; a good block acknowledges, asks for blocks again and returns
credits; its data are taken in order, by groups. Log 145 (DESIGN CHOICE). -/
def execLinkBlockReceive (port : Nat) (b : Block) (s : State) : Answer :=
  onUnit (decide (port < 36) && blockOk b) (
    let pg := lnkPg port
    let st := s.portState port
    if st = 0 ∨ st = 4 then s
    else if blockFecOk b (s.on pg LNK_STAT_STRONG) = false then (s.errCount pg LNK_FEC_UNCORR 1).nakStart port
    else
      let s := if b.fecErrs.any (· != 0) || b.fecEras.any (· != 0) then s.errCount pg LNK_FEC_CORR 1 else s
      if blockCrcOk b = false ∨ b.type = 3 then (s.errCount pg LNK_CRC_ERR 1).nakStart port
      else
        let s := (s.acks port b.lack).creditReturn port b.crBuf b.crCnt
        let s := if b.nak then s.nakIn port b.lack else s
        let s := s.rekeyDrained port
        let now := s.portState port
        if now = 0 ∨ now = 4 then s
        else if b.type = 0 then match idleHeart b with
          | some t => if s.portUp port then s.heartIn port t else s
          | none => s
        else s.dataIn port b)

end Sys2Proof.Machine
end

