-- ==== Sys2Proof/Machine/Regulation.lean ====
section
/-! DEFINITION. Bandwidth regulators (R334-R348): their clients and effective minimums, the choice at an issue opportunity,
queue-share mode, counters. -/

namespace Sys2Proof.Machine

open Sys2Proof

/-- Page of a partition's regulator settings, and the two others. -/
def rglPg (p : Nat) : Nat := Pg.base .rglp p
def rglDev : Nat := Pg.base .rgl0 0
def rglFwd : Nat := Pg.base .rgl1 0

/-- Kind of a regulator (R334): 0 channel, 1 seam, 2 port, 3 PCI Express. -/
def reglKind (r : Nat) : Nat := if r < 256 then 0 else if r < 258 then 1 else if r < 294 then 2 else 3

/-- Whether a client uses a regulator (R335): partitions 0 to 31, 32 the device, 33 forwarding. -/
def State.reglUser (s : State) (r c : Nat) : Bool :=
  let k := reglKind r
  if c < 32 then
    if k = 0 then bitOf (s.rd (partPg c + PART_CHAN + 4 * (r / 32))) (r % 32)
    else if k = 2 then bitOf (s.rd64 (partPg c + PART_PORTS)) (r - 258)
    else s.partState c == 2
  else if c = 32 then true
  else c == 33 && (k == 1 || k == 2)

/-- MIN of a client-class at a regulator (R338); above 64 acts as 64. -/
def State.reglMin (s : State) (r c cls : Nat) : Nat :=
  let k := reglKind r
  if s.reglUser r c = false then 0
  else if c < 32 then min 64 (bitsOf (s.rd (rglPg c + RGL_MIN_CHAN + 4 * k)) (8 * cls + 7) (8 * cls))
  else if c = 32 then (if cls = 2 then 1 else 0)
  else if cls = 1 then min 64 (s.get rglFwd (if k = 1 then RGL_FWD_CTL_MIN_SEAM else RGL_FWD_CTL_MIN_LINK))
  else 0

/-- Client-classes by number. -/
def reglAll : List (Nat × Nat) := (List.range 34).flatMap (fun c => [(c, 0), (c, 1), (c, 2)])

/-- Sum of the minimums of a regulator (R341). -/
def State.reglSum (s : State) (r : Nat) : Nat := (reglAll.map (fun e => s.reglMin r e.1 e.2)).sum

/-- Effective minimum (R341). -/
def State.reglEff (s : State) (r c cls : Nat) : Nat :=
  let n := s.reglSum r
  if n ≤ 64 then s.reglMin r c cls else s.reglMin r c cls * 64 / n

/-- Word `w` of RGL_OVERSUB_STAT. -/
def State.oversub (s : State) (w : Nat) : Nat :=
  maskOfList ((List.range 32).filter (fun i => decide (32 * w + i < 295) && decide (64 < s.reglSum (32 * w + i))))

/-- Weight of a client for normal or bulk (R338); 0 acts as 1. -/
def State.reglWeight (s : State) (r c cls : Nat) : Nat :=
  if c < 32 then max 1 (bitsOf (s.rd (rglPg c + RGL_WGT_CHAN + 4 * reglKind r)) (8 * (cls - 1) + 7) (8 * (cls - 1)))
  else if c = 32 then 1
  else max 1 (s.get rglFwd RGL_FWD_CTL_WEIGHT)

/-- Bulk limit of a regulator (R342); 255 acts as 256 at channels. Log 168 (DESIGN CHOICE). -/
def State.bulkLimit (s : State) (r : Nat) : Nat :=
  let v := bitsOf (s.rd (rglDev + RGL_BULK_LIM)) (8 * reglKind r + 7) (8 * reglKind r)
  if v = 255 then 256 else v

/-- A request as the regulator's rules see it: its client, its class (0 real-time, 1 normal, 2 bulk), its arrival order and whether it
can issue. -/
structure Elig where
  client : Nat
  cls : Nat
  age : Nat
  can : Bool
  deriving DecidableEq, Repr

/-- Client of the region that holds a DPA: its partition, the device where no region holds it. Log 166 (DESIGN CHOICE). -/
def State.reglRegion (s : State) (dpa : Nat) : Nat := match s.regionOf dpa with
  | some r => s.regPart r
  | none => 32

/-- Client of what leaves a port: the partition it is bound to, else forwarding. Log 166 (DESIGN CHOICE). -/
def State.reglPort (s : State) (port : Nat) : Nat := if s.on (lnkPg port) LNK_STAT_BOUND then s.get (lnkPg port) LNK_STAT_PARTITION else 33

/-- Class of a value of QUE_CTL.CLASS: 0 and 3 normal, 1 real-time, 2 bulk. -/
def queueClass (v : Nat) : Nat := if v = 1 then 0 else if v = 2 then 2 else 1

/-- Client and class of a request (R336). Log 166 (DESIGN CHOICE). -/
def State.charged (s : State) : Traffic → Nat × Nat
  | .mover q => ((s.quePart q).getD 32, queueClass (s.get (quePg q) QUE_CTL_CLASS))
  | .switch x => ((s.ctxPart x).getD 32, 0)
  | .record q => ((s.quePart q).getD 32, 0)
  | .copier p => (p, 2)
  | .remote dpa => (s.reglRegion dpa, 1)
  | .window dpa => (s.reglRegion dpa, 1)
  | .response port => (s.reglPort port, 1)
  | .collective port fwd => (if fwd then 33 else s.reglPort port, 0)
  | .forwarded => (33, 1)
  | .device => (32, 2)

/-- The requests waiting at a regulator, of clients that use it (R335). -/
def State.reglWaiting (s : State) (r : Nat) (l : List Waiting) : List Elig :=
  (l.map (fun w => let c := s.charged w.traffic; ({ client := c.1, cls := c.2, age := w.age, can := w.eligible } : Elig))).filter
    (fun e => s.reglUser r e.client)

/-- Request slots of a regulator in queue-share mode (R346). Log 165 (DESIGN CHOICE). -/
def reglSlots (r : Nat) : Nat := match reglKind r with
  | 0 => 128
  | 1 => 1024
  | 2 => 512
  | _ => 256

/-- The requests that hold a slot: those that held one and still wait, and then, in arrival order, each whose client holds fewer than
its limit of R346; nothing held is evicted (R347). -/
def reglHolders (r : Nat) (slots : List Nat) (l : List Elig) : List Elig :=
  let keep := l.filter (fun e => slots.contains e.age)
  let n := ((l.map (·.client)).filter (· != 32)).eraseDups.length
  let limit := fun (c : Nat) => if c = 32 then 16 else max 4 ((reglSlots r - 16) / max n 1)
  (l.filter (fun e => !slots.contains e.age)).mergeSort (fun a b => decide (a.age ≤ b.age)) |>.foldl (fun k e =>
    if (k.filter (·.client == e.client)).length < limit e.client ∧ k.length < reglSlots r then k ++ [e] else k) keep

/-- The first of a list round-robin after client `last`. Log 165 (DESIGN CHOICE). -/
def roundRobin (last : Nat) (l : List Elig) : Option Elig :=
  l.foldl (fun b e => match b with
    | none => some e
    | some f => if (e.client + 34 - last - 1) % 34 < (f.client + 34 - last - 1) % 34 ∨
        (e.client = f.client ∧ e.age < f.age) then some e else some f) none

/-- The one of a list by least of a measure, then by client, then by arrival. -/
def leastBy (m : Elig → Nat) (l : List Elig) : Option Elig :=
  l.foldl (fun b e => match b with
    | none => some e
    | some f => if m e < m f ∨ (m e = m f ∧ (e.client < f.client ∨ (e.client = f.client ∧ e.age < f.age))) then some e else some f) none

/-- Virtual time at which a client-class is served next: its own, or the class's where it has fallen behind while idle.
Log 167 (DESIGN CHOICE). -/
def Regl.vtime (x : Regl) (e : Elig) : Nat := max (Tab.get 0 x.share (e.client * 3 + e.cls)) (Tab.get 0 x.share (200 + e.cls))

/-- The choice of R339 in rate mode, with the rule that made it. Log 167 (DESIGN CHOICE). -/
def State.reglPick (s : State) (r : Nat) (l : List Elig) : Option (Elig × Nat) :=
  let x := s.atRegl r
  let held := fun (cls : Nat) => l.filter (fun e => e.cls == cls && decide (256 ≤ Tab.get 0 x.credit (e.client * 3 + cls)))
  let one := [0, 1, 2].findSome? (fun cls => roundRobin (Tab.get 0 x.rr cls) (held cls))
  match one with
  | some e => some (e, 1)
  | none => match roundRobin (Tab.get 0 x.rr 3) (l.filter (·.cls == 0)) with
    | some e => some (e, 2)
    | none => match leastBy (x.vtime ·) (l.filter (·.cls == 1)) with
      | some e => some (e, 3)
      | none =>
        if l.all (·.cls == 2) ∨ (x.hist.filter (·)).length < s.bulkLimit r then
          (leastBy (x.vtime ·) (l.filter (·.cls == 2))).map (fun e => (e, 4))
        else none

/-- Credit earned at an issue: each client-class its effective minimum in 256ths, up to the minimum itself. Log 167 (DESIGN CHOICE). -/
def State.reglEarn (s : State) (r : Nat) : State :=
  let effs := reglAll.map (fun e => (e.1 * 3 + e.2, s.reglEff r e.1 e.2))
  s.updRegl r (fun x => { x with
    credit := effs.foldl (fun t e => Tab.put 0 e.1 (min (Tab.get 0 t e.1 + e.2) (256 * e.2)) t) x.credit })

/-- Charge the choice to its client. Log 167 (DESIGN CHOICE). -/
def State.reglCharge (s : State) (r : Nat) (e : Elig) (rule : Nat) : State :=
  let k := e.client * 3 + e.cls
  let w := s.reglWeight r e.client e.cls
  s.updRegl r (fun x =>
    let v := x.vtime e
    { x with
      credit := if rule = 1 then Tab.upd 0 x.credit k (fun n => n - 256) else x.credit
      rr := if rule = 1 then Tab.put 0 e.cls e.client x.rr else if rule = 2 then Tab.put 0 3 e.client x.rr else x.rr
      share := if 3 ≤ rule then Tab.put 0 (200 + e.cls) v (Tab.put 0 k (v + 2 ^ 24 / w) x.share) else x.share
      hist := (decide (rule = 4) :: x.hist).take 255 })

/-- BYTES of the client served and STALLS of the client-classes that had an eligible request (R348). -/
def State.reglCount (s : State) (r : Nat) (e : Elig) (l : List Elig) : State :=
  let others := ((l.map (fun f => f.client * 3 + f.cls)).eraseDups).filter (· != e.client * 3 + e.cls)
  s.updRegl r (fun x => { x with
    bytes := Tab.upd 0 x.bytes (e.client * 3 + e.cls) (fun n => (n + 256) % 2 ^ 64),
    stalls := others.foldl (fun t k => Tab.upd 0 t k (fun n => (n + 1) % 2 ^ 64)) x.stalls })

/-- The requests that hold a slot of a regulator now: in rate mode all that wait. Log 165 (DESIGN CHOICE). -/
def State.reglHeld (s : State) (r : Nat) (l : List Elig) : List Elig :=
  if s.on rglDev RGL_MODE_STAT_QSHARE then reglHolders r (s.atRegl r).slots l else l

/-- Record which requests hold a slot. Log 165 (DESIGN CHOICE). -/
def State.reglHold (s : State) (r : Nat) (l : List Elig) : State := s.updRegl r (fun x => { x with slots := l.map (·.age) })

/-- REGULATOR_ISSUE (R339, R346): one eligible request issues; in queue-share mode the oldest of those that hold a slot.
Log 7 (DESIGN CHOICE). -/
def execRegulatorIssue (reg : Nat) (waiting : List Waiting) (s : State) : Answer :=
  onUnit (decide (reg < 295)) (
    let held := s.reglHeld reg (s.reglWaiting reg waiting)
    let l := held.filter (·.can)
    let s := s.reglHold reg held
    if s.on rglDev RGL_MODE_STAT_QSHARE then
      match leastBy (·.age) l with
      | none => s
      | some e => (s.reglCount reg e l).emit (.issue reg e.client e.cls e.age)
    else
      let s := s.reglEarn reg
      match s.reglPick reg l with
      | none => s
      | some (e, rule) => ((s.reglCharge reg e rule).reglCount reg e l).emit (.issue reg e.client e.cls e.age))

/-- Queue-share mode follows its conditions (R345): 1 bring-up, 2 test, 3 recovery; leaving it, credit and shares start
afresh (R347). Log 169 (DEDUCED). -/
def State.reglMode (s : State) : State :=
  let cause := if s.ready = false then 1 else if s.on dbgPg DBG_TEST_CTL_TEST then 2
    else if 2 ≤ s.get rcvPg GLB_RCV_STAT_LEVEL then 3 else 0
  let was := s.on rglDev RGL_MODE_STAT_QSHARE
  let s := (s.set rglDev RGL_MODE_STAT_QSHARE (if cause = 0 then 0 else 1)).set rglDev RGL_MODE_STAT_CAUSE cause
  if was ∧ cause = 0 then
    { s with regls := Tab.mapAll {} (fun _ (x : Regl) => { bytes := x.bytes, stalls := x.stalls, slots := x.slots }) s.regls }
  else s

/-- A write of RGL_CNT_SEL takes a snapshot of six counters (R348); an index beyond the regulators reads 0. -/
def State.counterSnapshot (s : State) (v : Nat) : State :=
  let s := s.wr (rglFwd + RGL_CNT_SEL) (v % 2 ^ 15)
  let r := s.get rglFwd RGL_CNT_SEL_REGULATOR
  let c := s.get rglFwd RGL_CNT_SEL_CLIENT
  let x : Regl := if r < 295 then s.atRegl r else {}
  (List.range 3).foldl (fun s i =>
    (s.wr64 (rglFwd + RGL_CNT_DATA + 16 * i) (Tab.get 0 x.bytes (c * 3 + i))).wr64 (rglFwd + RGL_CNT_DATA + 16 * i + 8)
      (Tab.get 0 x.stalls (c * 3 + i))) s

end Sys2Proof.Machine
end

