-- ==== Sys2Proof/Machine/Power.lean ====
section
/-! DEFINITION. Power and temperature (R349-R377): the profile in force, island clock limits, power samples and the electrical
limiter, temperature samples, hard throttles and trips, and Skeldor's work of an epoch for power. -/

namespace Sys2Proof.Machine

open Sys2Proof

/-! ### Profile in force (R373, R374) -/


/-- A value within bounds. -/
def clampTo (lo hi v : Nat) : Nat := max lo (min hi v)

/-- The profile in force: 5 to 7 act as 1. -/
def State.profile (s : State) : Nat := if s.power.prof % 8 ≤ 4 then s.power.prof % 8 else 1

/-- Upper bound of the bulk limits. -/
def State.bulkTop (s : State) : Nat := if s.profile = 3 then 64 else 256

/-- Cap priority order by domain, first to give up last: 0 compute, 1 memory, 2 links. -/
def capOrder : Nat → List Nat
  | 1 => [0, 2, 1]
  | 2 => [1, 0, 2]
  | 3 => [1, 2, 0]
  | 4 => [2, 0, 1]
  | 5 => [2, 1, 0]
  | _ => [0, 1, 2]

/-- The cap order of the profile. -/
def State.order (s : State) : List Nat :=
  match s.profile with
  | 0 => capOrder (bitsOf s.power.prof 15 13)
  | 2 => capOrder 5
  | 3 => capOrder 1
  | _ => capOrder 0

/-- The filling ramp of the profile in µs. -/
def State.effRamp (s : State) : Nat :=
  match s.profile with
  | 2 => 10
  | 3 => 200
  | 4 => 40
  | _ => clampTo 10 200 (s.get pwrPg PWR_FILL_CTL_FILL_RAMP)

/-- Clock codes of the STEADY table, one for each 200 W from 600 W. -/
def steadyCodes : List Nat := [24, 34, 44, 54, 64, 74, 82, 88]

/-- The STEADY table: linear between columns, rounded down to 25 MHz (R374). -/
def steadyCeil (c : Nat) : Nat :=
  let c := clampTo 600 2000 c
  let i := (c - 600) / 200
  let a := steadyCodes.getD i 88
  let b := steadyCodes.getD (i + 1) a
  a + (b - a) * ((c - 600) % 200) / 200

/-! ### The cap sources (R360) -/

/-- The thermal loop's cap: 1,200 W or less while a tower has no valid sensor (R368, R372). Log 173 (DESIGN CHOICE). -/
def State.thermalCap (s : State) : Nat :=
  if s.on thmPg THM_STAT_NO_TOWER_SENSOR then min 1200 s.power.thermalCap else s.power.thermalCap

/-- Cap sources as (BIND code, cap, window in epochs). -/
def State.capSources (s : State) : List (Nat × Nat × Nat) :=
  let w := clampTo 1 60 (s.get pwrPg PWR_CAP_WINDOW)
  [(1, clampTo 600 2000 (s.get pwrPg PWR_CAP_CAP), w * 2400), (2, s.power.trayCap, s.power.trayWin * 2400)] ++
    (if s.hostMode 2 then [(3, s.power.hostCap, 1)] else []) ++
    (if s.thermalCap < 2000 then [(4, s.thermalCap, 1)] else [])

/-- The profile's compute ceiling. -/
def State.profCeil (s : State) : Nat :=
  match s.profile with
  | 0 => clampCode (bitsOf s.power.prof 10 4)
  | 2 => 72
  | 4 => steadyCeil ((s.capSources.map (·.2.1)).foldl min 2000)
  | _ => 96

/-! ### Levers (R362) -/

/-- Steps of the two levers of a domain: bulk limit, then ceiling; compute has its ceiling. -/
def State.leverSteps (s : State) (d : Nat) : List Nat :=
  if d = 0 then [72] else [if s.profile = 4 then 0 else s.bulkTop - 16, 48]

/-- Levers in the order in which they give up, as (domain × 2 + lever, steps). Log 172 (DESIGN CHOICE). -/
def State.levers (s : State) : List (Nat × Nat) :=
  (s.order.reverse.flatMap (fun d => ((s.leverSteps d).zipIdx).map (fun e => (2 * d + e.2, e.1)))) ++ [(1, 90)]

/-- Steps given up at each lever for a position. Log 172 (DESIGN CHOICE). -/
def leverShares : Nat → List (Nat × Nat) → List (Nat × Nat)
  | _, [] => []
  | n, (k, m) :: l => (k, min n m) :: leverShares (n - m) l

/-- Steps given up at lever `k`: 0 compute ceiling, 1 dispatch gating in percent, 2 and 3 memory bulk limit and
memory-controller ceiling, 4 and 5 link bulk limit and link and seam ceiling. Log 172 (DESIGN CHOICE). -/
def State.lever (s : State) (k : Nat) : Nat :=
  (((leverShares s.power.level s.levers).filter (fun e => e.1 == k)).map (·.2)).sum

/-- All levers at their floors. -/
def State.leverFloor (s : State) : Nat := (s.levers.map (·.2)).sum

/-- The bulk limits and GATING follow the levers and the straggler response (R342, R362, R375). -/
def State.setBulk (s : State) : State :=
  let low := s.on pwrPg PWR_STAT_STRAG_SHIFT && s.profile != 4
  let mem := if low then 16 else s.bulkTop - s.lever 2
  let lnk := if low then 16 else s.bulkTop - s.lever 4
  let f := fun (v : Nat) => min 255 v
  let s := s.wr (rglDev + RGL_BULK_LIM) (f mem + f lnk * 2 ^ 8 + f lnk * 2 ^ 16 + f s.bulkTop * 2 ^ 24)
  s.mark pwrPg PWR_STAT_GATING (decide (0 < s.lever 1))

/-! ### Island clocks (R84, R86, R354, R355) -/

/-- Skeldor's limit for power policy and profile. Log 174 (DESIGN CHOICE). -/
def State.policyLimit (s : State) : Nat :=
  let c := clampCode (min s.profCeil (96 - s.lever 0))
  if s.hostMode 2 then min c s.power.hostCeil else c

/-- DEV_THROTTLE_N is honoured or FORCE is set. Log 175 (DESIGN CHOICE). -/
def State.throttled (s : State) : Bool := s.pins.throttle || s.on pwrPg PWR_THROTTLE_CTL_FORCE

/-- A hard thermal throttle is in force. Log 175 (DESIGN CHOICE). -/
def State.hardThermal (s : State) : Bool :=
  s.on thmPg THM_STAT_HARD_JUNC || s.on thmPg THM_STAT_HARD_TOWER || s.on thmPg THM_STAT_HARD_BASE ||
    s.on thmPg THM_STAT_HARD_STAGE


/-- The throttle limit of a compute or shared-store island; a trip holds it at 600 MHz. Log 175 (DESIGN CHOICE). -/
def State.throttleLimit (s : State) (i : Nat) : Nat :=
  let pin := if s.throttled || s.on pwrPg PWR_STAT_INPUT_LOW then clampCode (s.get pwrPg PWR_THROTTLE_CTL_THR_CEIL) else 96
  let hard := if s.hardThermal then max 24 (s.ceilOf i / 2) else 96
  if s.therm.tripped then 24 else min (min pin (Tab.get 96 s.power.elec i)) hard

/-- Effective ceiling of a compute or shared-store island and the limit that sets it: 0 CEIL, 1 power policy,
2 throttle. Log 39 (DESIGN CHOICE). -/
def State.effective (s : State) (i : Nat) : Nat × Nat :=
  let c := s.ceilOf i
  let p := s.policyLimit
  let t := s.throttleLimit i
  if c ≤ p ∧ c ≤ t then (c, 0) else if p ≤ t then (p, 1) else (t, 2)

/-- Effective ceiling of an island of any kind (R84): Skeldor's limit and the throttle limit act on compute and shared-store islands,
the levers on memory-controller, link and seam islands, a trip on every island (R371); an island to which no limit applies takes 2.4 GHz. The ramp limit of filling
stands beside it (`fillLimit`). -/
def State.ceiling (s : State) (i : Nat) : Nat :=
  if i < 136 then (s.effective i).1 else if s.therm.tripped then 24 else if i < 152 then 96 - s.lever 3 else if i < 190 then 96 - s.lever 5 else 96

/-- One island takes its effective ceiling, from where its clock stands: down at once, up at one tenth of CEIL per microsecond. -/
def State.clock (s : State) (i : Nat) : State :=
  let f := s.rampMilli i
  let s := (s.set (islPg i) ISL_CLK_STAT_EFF (s.ceiling i)).set (islPg i) ISL_CLK_STAT_LIMIT_SRC (s.effective i).2
  s.rampFrom i f

/-- The state bits of PWR_STAT that follow from others, and EFF_RAMP. -/
def State.powerStat (s : State) : State :=
  let grade := if s.profile = 0 then bitsOf s.power.prof 11 11 else 0
  let s := s.mark pwrPg PWR_STAT_THROTTLE s.throttled
  let s := s.mark pwrPg PWR_STAT_HARD_THERM s.hardThermal
  let s := s.mark pwrPg PWR_STAT_GRADE_PENDING (grade != s.power.grade)
  let s := s.set pwrPg PWR_STAT_ACTIVE s.profile
  s.set pwrPg PWR_FILL_CTL_EFF_RAMP s.effRamp

/-- Every compute island's clock and the power state follow the limits. -/
def State.clocks (s : State) : State := (List.range 128).foldl State.clock s.powerStat

/-! ### Power samples (R350, R356, R359, R363) -/

/-- Estimate of the last epoch in W. Log 170 (DESIGN CHOICE). -/
def State.estimate (s : State) : Nat := s.get pwrPg PWR_NOW_EST

/-- Power of a sample in W. Log 171 (DESIGN CHOICE). -/
def sampleW (mv deciA : Nat) : Nat := mv * deciA / 10000

/-- R359 at a sample: out of range, or the current has stood still for 64 samples while the estimate moved by 5 %. -/
def State.implausible (s : State) (mv deciA : Nat) : Bool :=
  let p := s.power
  let e := s.estimate
  let d := if e < p.stillEst then p.stillEst - e else e - p.stillEst
  decide (35000000 < mv * deciA) || decide (mv < 40000) || decide (65000 < mv) ||
    (decide (64 ≤ p.stillA) && decide (0 < p.stillEst) && decide (0 < d) && decide (p.stillEst ≤ d * 20))

/-- Energy of a sample in units of 1e-6 mJ enters PWR_ENERGY. -/
def State.addEnergy (s : State) (e : Nat) : State :=
  let n := s.power.energyRem + e
  let s := s.bump64 (pwrPg + PWR_ENERGY) (n / 1000000)
  { s with power := { s.power with energyRem := n % 1000000 } }

/-- The measurement becomes implausible: SENSOR, its alarm, its count and its record. Log 180 (DESIGN CHOICE). -/
def State.sensorInput (s : State) (w : Nat) : State :=
  let s := ((s.set pwrPg PWR_STAT_SENSOR 1).alarm 3).bumpF pwrPg PWR_EVT_CNT_SENSOR 1
  s.event0 0x11 (leBytes 4 0 ++ leBytes 2 w)

/-- POWER_SAMPLE (R356): voltage in mV and current in 0.1 A. Log 182 (DESIGN CHOICE). -/
def execPowerSample (mv deciA : Nat) (s : State) : Answer :=
  onUnit (decide (mv < 65536) && decide (deciA < 65536)) (
    if s.running = false then s
    else
      let s := (s.set pwrPg PWR_INPUT_MV mv).set pwrPg PWR_INPUT_DA deciA
      let p := s.power
      let same := decide (p.count + p.stillA ≠ 0) && deciA == p.lastA
      let hi := decide (20000000 < mv * deciA)
      let lo := decide (mv * deciA < 19000000)
      let s := { s with power := { p with
        sum := p.sum + mv * deciA, count := p.count + 1, hiRun := if hi then p.hiRun + 1 else 0,
        loRun := if lo then p.loRun + 1 else 0, judged := false, lastA := deciA,
        stillA := if same then p.stillA + 1 else 0, stillEst := if same && p.stillEst != 0 then p.stillEst else s.estimate } }
      let bad := s.implausible mv deciA
      let s := if bad ∧ s.power.bad = false then s.sensorInput (sampleW mv deciA) else s
      let s := { s with power := { s.power with bad := s.power.bad || bad, badNow := s.power.badNow || bad } }
      s.addEnergy (if s.power.bad then 12000 * s.estimate else mv * deciA))

/-- Power of the last sample in 0.1 mW. Log 170 (DESIGN CHOICE). -/
def State.lastPower (s : State) : Nat := s.get pwrPg PWR_INPUT_MV * s.get pwrPg PWR_INPUT_DA

/-- The limiter acts on the last sample (R363). -/
def State.limiterDue (s : State) : Bool :=
  !s.power.judged && (decide (26000000 ≤ s.lastPower) || decide (10 ≤ s.power.hiRun) ||
    (s.power.elecOn && decide (20000000 < s.lastPower)))

/-- ELEC_LIMIT_ACTIVATE (R363): each island's throttle limit falls by a quarter of its effective ceiling. -/
def execElecLimitActivate (s : State) : Answer := .next (
  if s.limiterDue = false then s
  else
    let lim := (List.range 136).map (fun i => (i, max 24 ((s.effective i).1 * 3 / 4)))
    let s := if s.power.elecOn then s else s.bump (pwrPg + PWR_ELEC_CNT) 1
    let s := { s with power := { s.power with
      judged := true, elecOn := true, elec := lim.foldl (fun t (e : Nat × Nat) => Tab.put 96 e.1 e.2 t) s.power.elec } }
    (s.set pwrPg PWR_STAT_ELEC 1).clocks)

/-- ELEC_LIMIT_LIFT (R363): ten samples in a row below 1,900 W. -/
def execElecLimitLift (s : State) : Answer := .next (
  if s.power.elecOn = false ∨ s.power.loRun < 10 then s
  else ({ s with power := { s.power with elecOn := false, elec := [] } }.set pwrPg PWR_STAT_ELEC 0).clocks)

/-- INPUT_LOW (R350). Log 182 (DESIGN CHOICE). -/
def execInputLow (s : State) : Answer := .next (
  if s.running = false ∨ s.on pwrPg PWR_STAT_INPUT_LOW then s
  else
    let s := ((s.set pwrPg PWR_STAT_INPUT_LOW 1).alarm 4).event0 0x13 (leBytes 2 (s.get pwrPg PWR_INPUT_MV))
    s.clocks)

/-- INPUT_LOW_CLEAR (R350). -/
def execInputLowClear (s : State) : Answer := .next (
  if s.on pwrPg PWR_STAT_INPUT_LOW then (s.set pwrPg PWR_STAT_INPUT_LOW 0).clocks else s)

/-! ### Temperature samples (R369-R372) -/

/-- Sensors of a kind. -/
def sensorCount : Nat → Nat
  | 1 => 128
  | 2 => 16
  | 3 => 16
  | 4 => 4
  | _ => 0

/-- Control target, hard-throttle limit and trip limit of a kind in °C. -/
def controlTarget : Nat → Option Int
  | 1 => some 100
  | 2 => some 95
  | 3 => some 100
  | _ => none
def hardLimit : Nat → Int
  | 2 => 100
  | 4 => 115
  | _ => 110
def tripLimit : Nat → Int
  | 2 => 105
  | 4 => 125
  | _ => 120

/-- The HARD bit of a kind. -/
def hardBit : Nat → F
  | 1 => THM_STAT_HARD_JUNC
  | 2 => THM_STAT_HARD_TOWER
  | 3 => THM_STAT_HARD_BASE
  | _ => THM_STAT_HARD_STAGE

/-- The last valid reading of a sensor. Log 179 (DESIGN CHOICE). -/
def State.reading (s : State) (kind i : Nat) : Option Int :=
  if kind = 1 ∧ s.therm.faulty.contains i then none else Tab.get none s.therm.temp (kind * 256 + i)

/-- The value that stands for a sensor in the comparisons: a faulty junction takes the highest valid reading of the other
islands of its core plus 5 °C (R372). -/
def State.senses (s : State) (kind i : Nat) : Option Int :=
  if kind = 1 ∧ s.therm.faulty.contains i then
    ((((List.range 16).map (· + i / 16 * 16)).filter (· != i)).filterMap (s.reading 1)).max?.map (· + 5)
  else s.reading kind i

/-- The hottest of a list of values and its place; the lowest place of several. Log 179 (DESIGN CHOICE). -/
def hottest (l : List (Nat × Option Int)) : Option (Nat × Int) :=
  l.foldl (fun b e => match b, e.2 with
    | none, some x => some (e.1, x)
    | some (j, y), some x => if y < x then some (e.1, x) else some (j, y)
    | _, none => b) none

/-- The hottest of a kind as the comparisons take it. -/
def State.hotOf (s : State) (kind : Nat) : Option (Nat × Int) :=
  hottest ((List.range (sensorCount kind)).map (fun i => (i, s.senses kind i)))

/-- The hottest reading of a kind. -/
def State.hotRead (s : State) (kind : Nat) : Option (Nat × Int) :=
  hottest ((List.range (sensorCount kind)).map (fun i => (i, s.reading kind i)))

/-- A temperature byte: two's complement, 0x80 without a valid reading; a reading that the byte cannot hold leaves it
open. -/
def State.tempByte (s : State) (x : Option Int) : Nat × State :=
  match x with
  | none => (0x80, s)
  | some t =>
    if -128 ≤ t ∧ t ≤ 127 then (codeOf 8 t, s)
    else
      let (d, s) := s.draw
      (Config.free d % 256, s)

/-- Write byte `i` of temperature registers that start at `off`. -/
def State.putTemp (s : State) (off i : Nat) (x : Option Int) : State :=
  let (b, s) := s.tempByte x
  let a := thmPg + off + 4 * (i / 4)
  s.wr a (putBits (s.rd a) (8 * (i % 4) + 7) (8 * (i % 4)) b)

/-- THM_JUNC and THM_TOWER show the hottest readings. -/
def State.hotRegs (s : State) (kind : Nat) : State :=
  let h := s.hotRead kind
  let (b, s) := s.tempByte (h.map (·.2))
  let i := (h.map (·.1)).getD 0
  match kind with
  | 1 => (s.set thmPg THM_JUNC_ISL b).set thmPg THM_JUNC_NUM i
  | 2 => (s.set thmPg THM_TOWER_TEMP b).set thmPg THM_TOWER_TOWER i
  | 3 => s.set thmPg THM_JUNC_BASE b
  | _ => s

/-- The comparison of a sample with the hard limit (R370) and the count of samples at the trip limit (R371). Log 179 (DESIGN CHOICE). -/
def State.judgeTemp (s : State) (kind i : Nat) : State :=
  match s.senses kind i with
  | none => { s with therm := { s.therm with trips := Tab.put 0 (kind * 256 + i) 0 s.therm.trips } }
  | some t =>
    let s := { s with therm := { s.therm with
      trips := Tab.upd 0 s.therm.trips (kind * 256 + i) (fun n => if tripLimit kind ≤ t then n + 1 else 0) } }
    if t < hardLimit kind ∨ s.on thmPg (hardBit kind) then s
    else
      let s := (s.set thmPg (hardBit kind) 1).bump (thmPg + THM_HARD_CNT) 1
      let s := (s.alarm 0).event0 0x12 (leBytes 1 kind ++ leBytes 1 2 ++ leBytes 2 i ++ leBytes 2 (codeOf 16 t))
      s.clocks

/-- A junction sensor's fault state follows its reading; a record is written when it becomes faulty (R372). Log 179 (DESIGN CHOICE). -/
def State.junctionFault (s : State) (i : Nat) (t : Int) : State :=
  let bad := decide (t < -20) || decide (150 < t)
  if bad = false then { s with therm := { s.therm with faulty := s.therm.faulty.filter (· != i) } }
  else if s.therm.faulty.contains i then s
  else
    let s := { s with therm := { s.therm with faulty := i :: s.therm.faulty } }
    ((s.alarm 3).bumpF pwrPg PWR_EVT_CNT_SENSOR 1).event0 0x11
      (leBytes 1 1 ++ leBytes 1 0 ++ leBytes 2 i ++ leBytes 2 (codeOf 16 t))

/-- A reading of a sensor is taken. -/
def State.takeTemp (s : State) (kind i : Nat) (t : Option Int) : State :=
  { s with therm := { s.therm with temp := Tab.put none (kind * 256 + i) t s.therm.temp } }

/-- THERMAL_SAMPLE (R369): a junction, base-die or stage sensor. Log 182 (DESIGN CHOICE). -/
def execThermalSample (kind idx : Nat) (temp : Int) (s : State) : Answer :=
  onUnit (decide (kind = 1 ∨ kind = 3 ∨ kind = 4) && decide (idx < sensorCount kind)) (
    if s.running = false then s
    else
      let s := s.takeTemp kind idx (some temp)
      let s := if kind = 1 then s.junctionFault idx temp else s
      let off := if kind = 1 then THM_ISL else if kind = 3 then THM_BASE else THM_STAGE
      let s := s.putTemp off idx (s.reading kind idx)
      (s.hotRegs kind).judgeTemp kind idx)

/-- A tower has no valid sensor at all (R372). -/
def State.noTower (s : State) : Bool := (List.range 16).any (fun t => (s.reading 2 t).isNone && (s.atTower t).last.length == 8)

/-- TOWER_TEMP_SAMPLE (R156, R369): the tower's eight sensors; the tower temperature is its reading. -/
def execTowerTempSample (tower : Nat) (temps : List Int) (s : State) : Answer :=
  onUnit (decide (tower < 16) && decide (temps.length = 8)) (
    if s.running = false then s
    else
      let (s, hot) := s.towerSample tower temps
      let s := (s.takeTemp 2 tower hot).hotRegs 2
      let s := s.mark thmPg THM_STAT_NO_TOWER_SENSOR s.noTower
      s.judgeTemp 2 tower)

/-- THERMAL_TRIP (R371). Log 175 (DESIGN CHOICE). -/
def execThermalTrip (kind idx : Nat) (s : State) : Answer :=
  onUnit (decide (idx < sensorCount kind)) (
    if s.therm.tripped ∨ Tab.get 0 s.therm.trips (kind * 256 + idx) < 2 then s
    else
      let s := { s with therm := { s.therm with tripped := true }, pins := { s.pins with tripN := false } }
      let s := ((s.set thmPg THM_STAT_TRIP 1).set thmPg THM_STAT_TRIP_KIND kind).set thmPg THM_STAT_TRIP_INDEX idx
      ((s.alarm 1).set mgmtPg MGMT_PHASE_PHASE 7).goingDown.clocks)

/-- HARD_THROTTLE_LIFT (R370): every reading of the kind 5 °C or more below its hard limit. -/
def execHardThrottleLift (kind : Nat) (s : State) : Answer :=
  onUnit (decide (1 ≤ kind) && decide (kind ≤ 4)) (
    let cool := (List.range (sensorCount kind)).all (fun i => (s.senses kind i).all (fun t => decide (t + 5 ≤ hardLimit kind)))
    if s.on thmPg (hardBit kind) = false ∨ cool = false then s
    else (s.set thmPg (hardBit kind) 0).clocks)

/-! ### The epoch's work for power (R353, R357-R362, R368, R373-R375) -/

/-- Step 1 for power: measured and estimated power of the epoch that ends, plausibility and disagreement, power in
use. Log 171 (DESIGN CHOICE). -/
def State.epochMeasure (s : State) : State :=
  let (d, s) := s.draw
  let (d', s) := s.draw
  let p := s.power
  let meas := if p.count = 0 then Config.free d % 3501 else min 4095 (p.sum / (10000 * p.count))
  let est := 1 + Config.free d' % 4095
  let s := (s.set pwrPg PWR_NOW_MEAS meas).set pwrPg PWR_NOW_EST est
  let good := if p.badNow then 0 else p.goodEpochs + 1
  let bad := p.bad && decide (good < 8)
  let s := if p.bad && !bad then s.set pwrPg PWR_STAT_SENSOR 0 else s
  let gap := if est < meas then meas - est else est - meas
  let far := decide (15 * meas < 100 * gap)
  let diverge := s.on pwrPg PWR_STAT_DIVERGE
  let use := if p.bad then est * 6 / 5 else if diverge then max meas est else meas
  let div := if p.bad then p.divEpochs else if far then p.divEpochs + 1 else 0
  let agree := if p.bad then p.agreeEpochs else if far then 0 else p.agreeEpochs + 1
  let s := if p.bad = false ∧ diverge ∧ 8 ≤ agree then s.set pwrPg PWR_STAT_DIVERGE 0 else s
  let k := if p.bad then p.scale else clampTo (2 ^ 39) (2 ^ 41) (p.scale * (63 * est + meas) / (64 * est))
  let s := s.set pwrPg PWR_EST_SCALE_K (k / 2 ^ 30)
  let w := clampTo 1 60 (s.get pwrPg PWR_CAP_WINDOW) * 2400
  let hist := (use :: p.hist).take 144000
  let s := s.set pwrPg PWR_AVG_AVG ((hist.take w).sum / (hist.take w).length)
  { s with power := { s.power with
    sum := 0, count := 0, badNow := false, bad := bad, goodEpochs := good, divEpochs := div, agreeEpochs := agree,
    hist := hist, scale := k } }

/-- Step 3 for power: the profile written during the epoch, and the host's limit in host-assisted mode. -/
def State.epochProfile (s : State) : State :=
  let s := { s with power := { s.power with prof := s.rd (pwrPg + PWR_PROFILE) % 2 ^ 16 } }
  ({ s with power := { s.power with
    hostCap := clampTo 600 2000 (s.get pwrPg PWR_HOST_LIM_WATTS), hostCeil := clampCode (s.get pwrPg PWR_HOST_LIM_CEIL) } }).clocks

/-- What a source allows for the next epoch (R360): epochs before the first count as its cap. -/
def State.sourceAllows (s : State) (c n : Nat) : Int :=
  let h := s.power.hist.take (n - 1)
  (c * n : Int) - (h.sum + c * (n - 1 - h.length) : Nat)

/-- The allowance and the source that sets it; 5 is the idle floor. Log 172 (DESIGN CHOICE). -/
def State.allowance (s : State) : Nat × Nat :=
  let (a, b) := s.capSources.foldl (fun (x : Int × Nat) e =>
    let v := s.sourceAllows e.2.1 e.2.2
    if v < x.1 then (v, e.1) else x) ((2000 : Int), 0)
  if a < 400 then (400, 5) else (a.toNat, b)

/-- Step 4: the allowance, and the levers until the estimate is at or below it. Log 174 (DESIGN CHOICE). -/
def State.epochAllow (s : State) : State :=
  let (a, b) := s.allowance
  let s := s.set pwrPg PWR_AVG_ALLOW a
  let (d, s) := s.draw
  let top := s.leverFloor
  let n := s.power.level
  let n := if s.estimate ≤ a then Config.free d % (n + 1) else min top (n + 1 + Config.free d % (top + 1))
  let s := { s with power := { s.power with level := n } }
  let s := s.set pwrPg PWR_STAT_BIND (if n = 0 then 0 else b)
  (s.mark thmPg THM_STAT_CONTROL (s.get pwrPg PWR_STAT_BIND == 4)).setBulk.clocks

/-- A STEADY breach: a lever below the table (R374). Log 181 (DESIGN CHOICE). -/
def State.epochSteady (s : State) : State :=
  if s.profile ≠ 4 ∨ s.power.level = 0 then
    { s with power := { s.power with steadyQuiet := s.power.steadyQuiet + 1 } }
  else
    let quiet := s.power.steadyQuiet
    let s := s.bumpF pwrPg PWR_EVT_CNT_STEADY 1
    let s := { s with power := { s.power with steadyQuiet := 0 } }
    if quiet < 256 then s
    else
      let (d, s) := s.draw
      s.event0 0x15 (leBytes 1 (Config.free d % 8) ++ leBytes 1 0 ++ leBytes 2 (s.get pwrPg PWR_AVG_ALLOW))

/-- Records of sensor kinds that have risen above their control target. Log 173 (DESIGN CHOICE). -/
def State.controlRecords (s : State) (hot : List (Nat × Nat × Int)) : State :=
  let s := (hot.filter (fun e => !s.power.above.contains e.1)).foldl (fun s e =>
    s.event0 0x12 (leBytes 1 e.1 ++ leBytes 1 1 ++ leBytes 2 e.2.1 ++ leBytes 2 (codeOf 16 e.2.2))) s
  { s with power := { s.power with above := hot.map (·.1) } }

/-- The thermal loop (R368, R372). Log 173 (DESIGN CHOICE). -/
def State.epochThermal (s : State) : State :=
  let hots := [1, 2, 3].filterMap (fun k => (s.hotOf k).map (fun h => (k, h.1, h.2)))
  let past := fun (e : Nat × Nat × Int) => e.2.2 - (controlTarget e.1).getD 0
  let above := hots.filter (fun e => decide (0 < past e))
  let excess := ((above.map past).foldl max 0).toNat
  let cool := hots.all (fun e => decide (past e ≤ -2))
  let c := s.power.thermalCap
  let meas := s.get pwrPg PWR_NOW_MEAS
  let c := if 0 < excess then min 2000 (meas * (100 - 2 * excess) / 100)
    else if cool ∧ s.get pwrPg PWR_STAT_BIND = 4 then min 2000 (c + (c + 99) / 100) else c
  let s := s.controlRecords above
  let s := s.mark thmPg THM_STAT_NO_TOWER_SENSOR s.noTower
  { s with power := { s.power with thermalCap := c } }

/-- The guardband of an island at the end of an epoch (R353). -/
def State.guardband (s : State) (i : Nat) : State :=
  let p := s.power
  let n := Tab.get 0 p.deep i
  let g := Tab.get 0 p.guard i
  let quiet := if n = 0 then Tab.get 0 p.deepQuiet i + 1 else 0
  let g := if 64 < n then min 30 (g + 5) else if quiet = 256 then g - 5 else g
  let quiet := if quiet = 256 then 0 else quiet
  if s.profile = 4 then s
  else { s with power := { p with guard := Tab.put 0 i g p.guard, deepQuiet := Tab.put 0 i quiet p.deepQuiet } }

/-- All guardbands; the count of deep-droop cycles starts afresh. -/
def State.epochGuard (s : State) : State :=
  let s := (List.range 128).foldl State.guardband s
  { s with power := { s.power with deep := [] } }

/-- Setpoint of a compute rail in units of 2.5 mV: the table voltage at the effective ceiling, interpolated and rounded up,
plus the guardband (R351, R352). -/
def State.setpoint (s : State) (i : Nat) : Nat :=
  let e := s.get (islPg i) ISL_CLK_STAT_EFF
  let anchors := [24, 48, 72, 84, 96]
  let j := if e < 48 then 0 else if e < 72 then 1 else if e < 84 then 2 else 3
  let a := anchors.getD j 24
  let b := anchors.getD (j + 1) 96
  let va := Config.voltage i j
  let vb := Config.voltage i (j + 1)
  (va * (b - e) + vb * (e - a) + (b - a) - 1) / (b - a) + Tab.get 0 s.power.guard i * 2 / 5

/-- The straggler counts of the past epochs (R375). Log 180 (DESIGN CHOICE). -/
def State.epochStragglers (s : State) : State :=
  let n := s.rd (rtePg + RTE_STRAG_SELF)
  let p := s.power
  let rise := decide (p.stragHist.headD 0 < n)
  { s with power := { p with stragHist := (n :: p.stragHist).take 9, stragQuiet := if rise then 0 else p.stragQuiet + 1 } }

/-- The filling of the epoch that ends is counted (R366). -/
def State.epochFilling (s : State) : State := (List.range 128).foldl State.fillCount s

/-- Refresh state of every tower at the end of an epoch (R157). -/
def State.epochTower (s : State) (t : Nat) : State :=
  let pg := Pg.base .memt t
  let s := if s.on pg MEMT_REFRESH_DOUBLED then s.bumpF pg MEMT_REFRESH_DOUBLED_EPOCHS 1 else s
  let x := s.atTower t
  let hot := (s.reading 2 t).all (fun v => decide (82 < v))
  let valid := if x.sick then 0 else x.valid + 1
  let s := s.updTower t (fun x => { x with cool := if x.warm then 0 else x.cool + 1, valid := valid, warm := hot, sick := x.last.length != 8 })
  if 8 ≤ valid then s.set pg MEMT_REFRESH_SENSOR_FAULT 0 else s

/-- REFRESH_NORMAL_RETURN (R157). -/
def execRefreshNormalReturn (tower : Nat) (s : State) : Answer :=
  onUnit (decide (tower < 16)) (
    let pg := Pg.base .memt tower
    if (s.atTower tower).cool < 8 ∨ s.get pg MEMT_REFRESH_SENSOR_FAULT ≠ 0 then s else s.refreshMode tower false)

/-- POWER_MODEL_DIVERGENCE (R358): 8 epochs in a row beyond 15 %. -/
def execPowerModelDivergence (s : State) : Answer := .next (
  if s.power.divEpochs < 8 ∨ s.power.bad ∨ s.on pwrPg PWR_STAT_DIVERGE then s
  else
    let s := ((s.set pwrPg PWR_STAT_DIVERGE 1).alarm 5).bumpF pwrPg PWR_EVT_CNT_DIVERGE 1
    s.event0 0x10 (leBytes 2 (s.get pwrPg PWR_NOW_MEAS) ++ leBytes 2 s.estimate ++ leBytes 2 (s.get pwrPg PWR_EST_SCALE_K)))

/-- The straggler response starts or ends: STRAG_SHIFT, its record, the bulk limits. -/
def State.stragglerState (s : State) (on : Bool) : State :=
  let s := s.mark pwrPg PWR_STAT_STRAG_SHIFT on
  let s := if on then s.bumpF pwrPg PWR_EVT_CNT_STRAG 1 else s
  (s.event0 0x14 (leBytes 1 (if on then 1 else 0) ++ leBytes 1 0 ++ leBytes 4 (s.rd (rtePg + RTE_STRAG_SELF)))).setBulk

/-- Whether a throttle limit is in force. -/
def State.throttleActs (s : State) : Bool :=
  s.throttled || s.on pwrPg PWR_STAT_INPUT_LOW || s.power.elecOn || s.hardThermal || s.therm.tripped

/-- The conditions on which the straggler response starts (R375). -/
def State.stragglerStarts (s : State) : Bool :=
  let h := s.power.stragHist
  let rise := h.headD 0 - h.getD (min 8 (h.length - 1)) 0
  let bind := s.get pwrPg PWR_STAT_BIND
  decide (max 1 (s.get pwrPg PWR_STRAG_CTL_EVENTS) ≤ rise) && s.on pwrPg PWR_STRAG_CTL_ENABLE &&
    s.profile != 2 && s.profile != 4 && !s.hostMode 2 && !s.hostMode 4 &&
    decide (1 ≤ bind) && decide (bind ≤ 4) && !s.throttleActs

/-- STRAGGLER_SHIFT (R375). -/
def execStragglerShift (s : State) : Answer := .next (
  if s.on pwrPg PWR_STAT_STRAG_SHIFT then
    (if 24 ≤ s.power.stragQuiet then s.stragglerState false else s)
  else if s.stragglerStarts then s.stragglerState true else s)

end Sys2Proof.Machine
end

