-- ==== Sys2Proof/Machine/Security.lean ====
section
/-! DEFINITION. Isolation and attestation (R378-R420): unlock, IDE streams, TDIs, the attestation protocol, vendor debug,
firmware versions. The key slots stand in Keys.lean. -/

namespace Sys2Proof.Machine

open Sys2Proof

/-! ### Unlock (R398) -/

/-- Functions attached to a partition whose TDIs are locked enter ERROR. Log 208 (DEDUCED). -/
def State.partTdiError (s : State) (p reason : Nat) : State := (s.attached p).foldl (fun s f => s.tdiError f reason) s

/-- A write of SEC_UNLOCK: PARTITION is taken; GO retires every slot of the partition but 0 with FORCE, and is ignored while BUSY is 1
or for a partition without a key lock. Log 192 (DESIGN CHOICE). -/
def State.keyUnlock (s : State) (v : Nat) : State :=
  let s := s.set secPg SEC_UNLOCK_PARTITION (v % 32)
  let p := v % 32
  if bitOf v 5 = false ∨ s.on secPg SEC_UNLOCK_BUSY ∨ s.keyLocked p = false then s
  else
      let s := s.set secPg SEC_UNLOCK_BUSY 1
      let s := { s with sec := { s.sec with unlocking := p } }
      let s := s.partTdiError p 2
      let s := ((s.partKeys p).filter (fun k => s.keyState k != 0)).foldl (fun s k => s.keyRetire k true) s
      s.unlockSettle

/-! ### IDE and TDISP (R410, R411) -/

/-- Whether a selective IDE stream is in the secure state. Log 184 (DESIGN CHOICE). -/
def State.ideSecure (s : State) (i : Nat) : Bool := Tab.get false s.sec.ide i

/-- The stream of a function. Log 183 (PRESUMED). -/
def streamOf (fn : Nat) : Nat := Config.ideStream fn % 16

/-- Put a stream into or out of the secure state; PCI_LINK_STAT counts the secure ones. -/
def State.setIde (s : State) (i : Nat) (b : Bool) : State :=
  let s := { s with sec := { s.sec with ide := Tab.put false i b s.sec.ide } }
  s.set pciPg PCI_LINK_STAT_IDE_SECURE (((List.range 16).filter s.ideSecure).length)

/-- The chain that vouches for the attestation key (R382). -/
def State.akChain (s : State) : Bytes := Config.attestChain s.sec.runDigest s.sec.svnRun

/-- The running digests as bytes. -/
def State.runDigests (s : State) : Bytes := (List.range 3).flatMap (fun i => leBytes 48 (s.sec.runDigest.getD i 0))

/-- SPDM_MESSAGE (R410) by kind of request: 0 and 1 certificate slots 0 and 1, 2 measurements, 3 IDE_KM sets the keys of a
stream, 4 IDE_KM stops it. Log 183 (PRESUMED). -/
def execSpdmMessage (code stream : Nat) (s : State) : Answer :=
  onUnit (decide (code < 5) && decide (stream < 16)) (
    match code with
    | 0 => s.emit (.doe 0x100 0 ownChain)
    | 1 => s.emit (.doe 0x101 0 s.akChain)
    | 2 => s.emit (.doe 0x102 0 s.runDigests)
    | 3 => (s.setIde stream true).emit (.doe 0x103 0 [])
    | _ => (s.setIde stream false).emit (.doe 0x104 0 []))

/-- IDE_INTEGRITY_FAIL (R410): the stream leaves the secure state, cause 6, TDIs bound to it enter ERROR. -/
def execIdeIntegrityFail (stream : Nat) (s : State) : Answer :=
  onUnit (decide (stream < 16)) (
    if s.ideSecure stream = false then s
    else
      let s := (s.setIde stream false).securityAlarm 6 none stream
      ((List.range 256).filter (fun f => f != 0 && streamOf f == stream)).foldl (fun s f => s.tdiError f 4) s)

/-- State of a TDI: 0 CONFIG_UNLOCKED, 1 CONFIG_LOCKED, 2 RUN, 3 ERROR. -/
def State.tdi (s : State) (fn : Nat) : Nat := Tab.get 0 s.sec.tdi fn

/-- Set the state of a TDI. -/
def State.setTdi (s : State) (fn t : Nat) : State := { s with sec := { s.sec with tdi := Tab.put 0 fn t s.sec.tdi } }

/-- LOCK_INTERFACE (R411). -/
def execLockInterface (func : Nat) (s : State) : Answer :=
  onUnit (decide (1 ≤ func) && decide (func < 256)) (
    let ok : Bool := match Tab.get none s.attach func with
      | some p => s.keyLocked p
      | none => false
    if s.tdi func = 0 ∧ ok ∧ s.ideSecure (streamOf func) then s.setTdi func 1 else s)

/-- START_INTERFACE: CONFIG_LOCKED to RUN (R411). -/
def execStartInterface (func : Nat) (s : State) : Answer :=
  onUnit (decide (1 ≤ func) && decide (func < 256)) (if s.tdi func = 1 then s.setTdi func 2 else s)

/-- STOP_INTERFACE: back to CONFIG_UNLOCKED (R411). Log 185 (DESIGN CHOICE). -/
def execStopInterface (func : Nat) (s : State) : Answer :=
  onUnit (decide (1 ≤ func) && decide (func < 256)) (s.setTdi func 0)

/-- FUNCTION_LEVEL_RESET (R411): one of the physical function moves every locked TDI to ERROR. Log 231 (DESIGN CHOICE). -/
def execFunctionLevelReset (func : Nat) (s : State) : Answer :=
  onUnit (decide (func < 256)) (
    if func = 0 then ((List.range 256).drop 1).foldl (fun s f => s.tdiError f 3) s else s)

/-! ### Attestation (R412-R417) -/

/-- The identity: the hash of the identity public key (R381). -/
def identity : Nat := sha384 (Config.leafKey ownChain)

/-- Capability types that name units of the reset list. -/
def resetTypes : List (Nat × Nat) := [(1, 32), (2, 256), (3, 36), (4, 192), (5, 16)]

/-- Whether a level in progress holds a unit under reset (R232, R417, R518): one that only waits for approval does not, nor does a tasting. -/
def State.underReset (s : State) (typ idx : Nat) : Bool :=
  let l := s.get rcvPg GLB_RCV_STAT_LEVEL
  let kind := s.get rcvPg GLB_RCV_STAT_ENGINE_KIND
  let i := s.get rcvPg GLB_RCV_STAT_INDEX
  if l < 2 ∨ l = 3 ∨ s.on rcvPg GLB_RCV_STAT_WAIT_APPROVAL then false
  else if 5 ≤ l then decide (typ ≤ 5)
  else if typ = 1 then (if l = 4 then s.partSlices (s.get rcvPg GLB_RCV_STAT_PARTITION) else scopeSlices kind i).contains idx
  else l == 2 && kind == 2 && ((typ == 2 && idx / 16 == i) || (typ == 5 && idx == i))

/-- STATE that the entry of a unit shows (R232). -/
def State.entryState (s : State) (typ idx : Nat) : Nat := if s.capState typ idx = 1 ∧ s.underReset typ idx then 3 else s.capState typ idx

/-- Units under reset, as (type, index) (R417). -/
def State.resetList (s : State) : List (Nat × Nat) :=
  resetTypes.flatMap (fun e => ((List.range e.2).filter (fun i => s.entryState e.1 i == 3)).map (fun i => (e.1, i)))

/-- The partition header of a report. -/
def State.reportHeader (s : State) (p nk nm : Nat) : Bytes :=
  leBytes 1 (s.partState p) ++ leBytes 1 ((if s.keyLocked p then 1 else 0) + (if s.isProtected p then 2 else 0)) ++
    leBytes 2 nk ++ leBytes 4 (s.rd (partPg p + PART_SLICES)) ++ leBytes 8 (s.rd64 (partPg p + PART_PORTS)) ++
    (List.range 8).flatMap (fun i => leBytes 4 (s.rd (partPg p + PART_CHAN + 4 * i))) ++ leBytes 1 nm ++ leBytes 15 0

/-- A slot's OWNER_HASH. -/
def State.ownerHash (s : State) (k : Nat) : Bytes := (List.range 12).flatMap (fun i => leBytes 4 (s.rd (keyAt k + KEY_OWNER0 + 4 * i)))

/-- A slot entry of a report. -/
def State.reportSlot (s : State) (k : Nat) : Bytes :=
  let e := keyAt k
  leBytes 1 k ++ leBytes 1 (s.keyState k) ++
    leBytes 1 (s.get e KEY_CTL_HOST_FN_VALID + 2 * s.get e KEY_CTL_AUTO_RETIRE) ++ leBytes 1 (s.get e KEY_CTL_HOST_FN) ++
    leBytes 4 (s.rd (e + KEY_EPOCH)) ++ leBytes 8 0 ++ s.ownerHash k

/-- Mould IDs of a partition in READY or RELEASING. -/
def State.reportMoulds (s : State) (p : Nat) : List Nat := (List.range 64).filter (fun i => decide (2 ≤ (s.atMould (p * 64 + i)).state))

/-- A mould entry of a report. -/
def State.reportMould (s : State) (p i : Nat) : Bytes :=
  let m := s.atMould (p * 64 + i)
  leBytes 1 i ++ leBytes 1 m.state ++ leBytes 2 m.count ++ leBytes 12 0 ++ leBytes 48 m.digest

/-- The part of a report that describes a partition. Log 186 (DESIGN CHOICE). -/
def State.reportPart (s : State) (p : Nat) : Bytes :=
  let ks := s.keysHeld p
  let ms := s.reportMoulds p
  s.reportHeader p ks.length ms.length ++ (List.range 256).flatMap (fun r => leBytes 32 (s.kftRow p r)) ++
    ks.flatMap s.reportSlot ++ ms.flatMap (s.reportMould p)

/-- Digest of a verified staged image of a stage, or 0. -/
def State.stagedDigest (s : State) (i : Nat) : Nat :=
  if bitOf (s.get secPg SEC_FW_CTL_STAGED) i then (Tab.get {} s.flash.staged (i + 1)).digest.getD 0 else 0

/-- Bytes of a report from offset 0x00C on, without its nonce in front of the rest. Log 186 (DESIGN CHOICE). -/
def State.reportFixed (s : State) (part : Nat) (nonce : Bytes) : Bytes :=
  let dev := if s.on rtePg RTE_SELF_SET then s.get rtePg RTE_SELF_DEVICE else 0xFFFF
  leBytes 2 dev ++ leBytes 1 part ++ leBytes 1 0 ++ leBytes 8 (s.rd64 (attPg + ATT_CTR)) ++ leBytes 8 s.mclk ++ nonce ++
    leBytes 48 identity ++ leBytes 48 (sha384 (Config.attestKey s.sec.runDigest s.sec.svnRun)) ++ s.runDigests ++
    (List.range 3).flatMap (fun i => leBytes 48 (s.stagedDigest i)) ++ leBytes 48 (Config.fuseDigest s.sec.svnFused) ++
    leBytes 4 s.sec.svnRun ++ leBytes 4 s.sec.svnFused ++
    leBytes 4 (s.get dbgPg DBG_TEST_CTL_PORT_OPEN + (if s.sec.vendor then 2 else 0) + 4 * s.get dbgPg DBG_TEST_CTL_TEST) ++
    leBytes 2 s.resetList.length ++ leBytes 2 0

/-- The report body (R414). A partition that is FREE is absent like none. Log 186 (DESIGN CHOICE). -/
def State.reportBody (s : State) (part : Nat) (nonce : Bytes) : Bytes :=
  let absent := part == 0xFF || s.partState part == 0
  let tail := s.reportFixed part nonce ++ (if absent then [] else s.reportPart part) ++
    s.resetList.flatMap (fun e => leBytes 1 e.1 ++ leBytes 1 0 ++ leBytes 2 e.2)
  let flags := s.get secPg SEC_FW_CTL_UPDATING + (if s.resetList.isEmpty then 0 else 2) + (if s.sec.vendor then 4 else 0) +
    (if absent then 8 else 0)
  leBytes 4 0x5441564F ++ leBytes 2 1 ++ leBytes 2 flags ++ leBytes 4 (12 + tail.length) ++ tail

/-- The attestation protocol answers BUSY (R416). -/
def State.attBusy (s : State) : Bool := s.on attPg ATT_STAT_BUSY

/-- ATTEST_REPORT (R413): the body and its signature; REPORT_CTR counts it. -/
def execAttestReport (version part : Nat) (nonce : Bytes) (s : State) : Answer := .next (
  if s.attBusy then s.emit (.doe 1 1 [])
  else if version ≠ 1 ∨ nonce.length ≠ 32 ∨ (32 ≤ part ∧ part ≠ 0xFF) then s.emit (.doe 1 2 [])
  else
    let s := s.bump64 (attPg + ATT_CTR) 1
    let (d, s) := s.draw
    s.emit (.doe 1 0 (s.reportBody part nonce ++ (List.range 96).map (Config.sigByte d))))

/-- CERT_CHAIN_GET (R412). -/
def execCertChainGet (sel : Nat) (s : State) : Answer := .next (
  if s.attBusy then s.emit (.doe 2 1 [])
  else if sel = 0 then s.emit (.doe 2 0 ownChain)
  else if sel = 1 then s.emit (.doe 2 0 s.akChain)
  else s.emit (.doe 2 2 []))

/-- What an owner signs (R400). -/
def retireMessage (slot epoch : Nat) : Bytes := [0x4F, 0x56, 0x52, 0x54] ++ leBytes 48 identity ++ leBytes 1 slot ++ leBytes 4 epoch

/-- An owner's request is in order (R400). -/
def State.ownerMay (s : State) (slot epoch : Nat) (key sig : Bytes) : Bool :=
  s.keyState slot == 1 && s.rd (keyAt slot + KEY_EPOCH) == epoch && leBytes 48 (sha384 key) == s.ownerHash slot &&
    Config.ecdsaVerify key (retireMessage slot epoch) sig

/-- OWNER_RETIRE (R400, R412). Log 187 (DESIGN CHOICE). -/
def execOwnerRetire (slot epoch : Nat) (key sig : Bytes) (s : State) : Answer := .next (
  if s.attBusy then s.emit (.doe 3 1 [])
  else if 256 ≤ slot ∨ key.length ≠ 97 ∨ sig.length ≠ 96 then s.emit (.doe 3 2 [])
  else if s.ownerMay slot epoch key sig then ((s.keyRetire slot true).securityAlarm 5 (some slot) 0).emit (.doe 3 0 [])
  else s.emit (.doe 3 3 []))

/-! ### Vendor debug and versions (R405, R419) -/

/-- Every slot, configuration key and save key is zeroised. Log 188 (DESIGN CHOICE). -/
def State.zeroiseAll (s : State) : State :=
  let s := ((List.range 256).drop 1).foldl (fun s k => (s.set (keyAt k) KEY_STAT_STATE 0).set (keyAt k) KEY_STAT_STEP 0) s
  { s with sec := { s.sec with cfgKey := [], saveKey := [] } }

/-- VENDOR_DEBUG_ENTER (R405): a token signed over the identity and the device's nonce; each token that arrives uses the
nonce up. Log 187 (DESIGN CHOICE), 188 (DESIGN CHOICE). -/
def execVendorDebugEnter (token : Bytes) (s : State) : Answer := .next (
  if s.sec.vendor then s
  else
    let ok := Config.ecdsaVerify Config.debugKey (leBytes 48 identity ++ Config.nonce s.sec.nonce) token
    let s := { s with sec := { s.sec with nonce := s.sec.nonce + 1 } }
    if ok = false then s
    else
      let s := { s.zeroiseAll with sec := { s.zeroiseAll.sec with vendor := true } }
      ((s.wr (secPg + SEC_PROTECT) 0).wr (secPg + SEC_KLOCK) 0).set secPg SEC_UNLOCK_BUSY 0)

/-- COMMIT_SVN (R419). -/
def State.commitSvn (s : State) : State :=
  let s := { s with sec := { s.sec with svnFused := max s.sec.svnFused s.sec.svnRun } }
  s.set attPg ATT_SVN_FUSED s.sec.svnFused

end Sys2Proof.Machine
end

