-- ==== Sys2Proof/Machine/Bringup.lean ====
section
/-! DEFINITION. What a reset clears and what it keeps, and the bring-up that follows (R378-R382, R418, R419, R437, R482,
R483, R505, R506). -/

namespace Sys2Proof.Machine

open Sys2Proof

/-- Registers of offsets in [lo, hi). -/
def regsIn (r : Tab Word) (lo hi : Nat) : Tab Word := r.filter (fun e => decide (lo ≤ e.1) && decide (e.1 < hi))

/-- Registers behind the PCI Express island that a reset keeps: GLB_RCV_CNT (R437) and the trip in THM_STAT (R371). -/
def State.keptRegs (s : State) : State → State := fun t =>
  let t := (t.wr (rcvPg + GLB_RCV_CNT) (s.rd (rcvPg + GLB_RCV_CNT))).mark dbgPg DBG_TEST_CTL_PORT_OPEN t.sec.jtag
  ((t.set thmPg THM_STAT_TRIP (s.get thmPg THM_STAT_TRIP)).set thmPg THM_STAT_TRIP_KIND (s.get thmPg THM_STAT_TRIP_KIND)).set
    thmPg THM_STAT_TRIP_INDEX (s.get thmPg THM_STAT_TRIP_INDEX)

/-- The grade that the profile in force asks for (R373). -/
def State.gradeWanted (s : State) : Nat := if s.profile = 0 then bitsOf s.power.prof 11 11 else 0

/-- Everything behind the PCI Express island is reset (R437 step 4), the seam islands' error counters with it: keys are zeroised, the
PCI page, MSI-X tables, IDE streams and configuration space stay, and so do DRAM contents, the serial flash, fuses, pins and the
sideband target. Log 26 (DEDUCED). -/
def State.unitsReset (s : State) : State :=
  let pci := regsIn s.regs pciPg (pciPg + 0x1000) ++ regsIn s.regs (dlogPg 0) (dlogPg 256)
  (s.keptRegs {
    pending := s.pending, draws := s.draws, out := s.out, regs := pci, captGen := s.captGen + s.captGen % 2, mem := s.mem, seals := s.seals,
    badLines := s.badLines, vecs := s.vecs, atsOn := s.atsOn, droop := s.droop, flash := s.flash, pins := s.pins,
    mouldSerial := s.mouldSerial,
    power := { grade := s.gradeWanted }, therm := { tripped := s.therm.tripped },
    sec := { svnFused := s.sec.svnFused, vendor := s.sec.vendor, entropyBad := s.sec.entropyBad, tdi := s.sec.tdi, ide := s.sec.ide, serial := s.sec.serial, jtag := s.sec.jtag, nonce := s.sec.nonce, boots := s.sec.boots + 1 },
    rcv := { resets := s.rcv.resets, faults := s.rcv.faults, past := s.upTime },
    mgmt := { alarm := s.mgmt.alarm, alarmMask := s.mgmt.alarmMask, sbReq := s.mgmt.sbReq, sbRsp := s.mgmt.sbRsp, sbDone := s.mgmt.sbDone } }).wr (mgmtPg + MGMT_ALARM) s.mgmt.alarm

/-- The whole die assembly is reset, the PCI Express island included (R478): the link is down, its tables are cleared.
Log 225 (DESIGN CHOICE). -/
def State.dieReset (s : State) : State :=
  let t := s.unitsReset
  s.keptRegs { t with
    regs := [], vecs := [], atsOn := [], captGen := 0, sec := { t.sec with ide := [], tdi := [], jtag := false },
    mgmt := {}, pins := { t.pins with linkUp := false, alertN := true } }

/-- Power is gone: only the serial flash and the fuses keep anything (R506). Log 225 (DESIGN CHOICE). -/
def State.powerLost (s : State) : State :=
  { pending := s.pending, draws := s.draws, out := s.out, flash := s.flash,
    sec := { svnFused := s.sec.svnFused, entropyBad := s.sec.entropyBad, serial := s.sec.serial, nonce := s.sec.nonce, boots := s.sec.boots + 1 },
    pins := { pwrEn := s.pins.pwrEn, resetN := s.pins.resetN, perstN := s.pins.perstN, tripN := s.pins.tripN,
              cycleN := s.pins.cycleN, offTimer := s.pins.offTimer, heldOn := s.pins.heldOn, stopLatch := s.pins.stopLatch } }

/-! ### Boot (R378-R382, R419) -/

/-- Image of a stage in a bank. -/
def State.image (s : State) (stage bank : Nat) : Image := Tab.get {} s.flash.images (stage * 2 + bank)

/-- Verification of an image (R379). Log 189 (DESIGN CHOICE). -/
def State.imageOk (s : State) (i : Image) : Bool := i.good && decide (s.sec.svnFused ≤ i.svn)

/-- The bank from which a stage boots: that of the boot record, else the other (R380). Log 190 (DESIGN CHOICE). -/
def State.bootBank (s : State) (stage : Nat) : Option Nat :=
  let b := s.flash.bank
  if s.imageOk (s.image stage b) then some b else if s.imageOk (s.image stage (1 - b)) then some (1 - b) else none

/-- Digest of an image. -/
def imageDigest (stage bank : Nat) (i : Image) : Nat := i.digest.getD (Config.factoryDigest (stage * 2 + bank))

/-- What an image staged since the last boot changes: the boot record names its bank (R419). Log 190 (DESIGN CHOICE). -/
def State.takeStaged (s : State) : State :=
  if s.flash.staged.isEmpty then s else { s with flash := { s.flash with bank := s.flash.next, staged := [] } }

/-- The boot chain: answers whether every stage has been verified. Log 190 (DESIGN CHOICE). -/
def State.boot (s : State) : State × Bool :=
  let s := s.takeStaged
  let bs := [1, 2, 3].map s.bootBank
  if bs.any (·.isNone) then (s, false)
  else
    let run := [1, 2, 3].map (fun st => (st, (s.bootBank st).getD 0))
    let svn := (run.map (fun (e : Nat × Nat) => (s.image e.1 e.2).svn)).foldl min (2 ^ 16)
    let s := { s with sec := { s.sec with runDigest := run.map (fun (e : Nat × Nat) => imageDigest e.1 e.2 (s.image e.1 e.2)), svnRun := svn, latched := true } }
    let fall := run.any (fun e => e.2 != s.flash.bank)
    let bank := if fall then 1 - s.flash.bank else s.flash.bank
    let s := (s.mark secPg SEC_FW_CTL_FALLBACK fall).set secPg SEC_FW_CTL_BANK bank
    let s := (s.set attPg ATT_SVN_RUN svn).set attPg ATT_SVN_FUSED s.sec.svnFused
    (if fall then s.alarm 11 else s, true)

/-! ### Training and the capability table (R154, R232, R451, R452) -/

/-- Record a retirement in the serial flash. -/
def State.recordRetired (s : State) (typ idx reason : Nat) : State :=
  if s.flash.retired.any (fun e => e.1 == typ && e.2.1 == idx) then s
  else { s with flash := { s.flash with retired := s.flash.retired ++ [(typ, idx, reason)] } }

/-- Train every channel; a channel group with a channel not brought into service retires with reason 4. Log 86 (DESIGN CHOICE). -/
def State.trainAll (s : State) (train : TrainIn) : State :=
  let s := (List.range 256).foldl (fun s c => s.trainChan c ((train.filter (fun e => e.1 == c)).flatMap (·.2))) s
  let out := (List.range 256).filter (fun c => s.get (memcPg c) MEMC_LANE_STAT_IN_SERVICE == 0)
  let groups := (out.map (· / 2)).eraseDups
  let s := groups.foldl (fun s g => (s.recordRetired 2 (2 * g) 4).recordRetired 2 (2 * g + 1) 4) s
  if groups.isEmpty then s else s.alarm 7

/-- Build the capability table: units with a retirement record are RETIRED, and retired channels out of service. Log 86 (DESIGN CHOICE). -/
def State.buildTable (s : State) : State :=
  s.flash.retired.foldl (fun s e =>
    let s := s.setRetired e.1 e.2.1 e.2.2
    if e.1 = 2 then s.set (memcPg e.2.1) MEMC_LANE_STAT_IN_SERVICE 0 else s) s.capTouch

/-! ### Bring-up (R482 steps 4 to 7) -/

/-- Boot, training, the capability table, READY. A stage that fails in both banks ends it with phase 5 and alarm 10. -/
def State.bringUp (s : State) (train : TrainIn) : State :=
  match s.boot with
  | (s, false) => (s.set mgmtPg MGMT_PHASE_PHASE 5).alarm 10
  | (s, true) =>
    let (d, s) := s.draw
    let s := { s with incarn := (Config.random d).toNat }
    let s := (s.trainAll train).buildTable
    let s := s.bumpF secPg SEC_SCRUB_STAT_HW 32
    let s := { s with ready := true }
    let s := (s.set mgmtPg MGMT_PHASE_PHASE (if s.therm.tripped then 7 else 4)).set attPg ATT_STAT_BUSY 0
    s.reglMode.clocks

end Sys2Proof.Machine
end

