-- ==== Sys2Proof/Machine/Recovery.lean ====
section
/-! DEFINITION. Recovery (R421-R460): crumbs, hang detection and the ladder of levels, tasting, partition and device-level resets,
power cycles, retirement of units. -/

namespace Sys2Proof.Machine

open Sys2Proof

/-! ### The level in progress -/

/-- LEVEL of GLB_RCV_STAT: 0 none, 1 context, 2 engine, 3 tasting, 4 partition, 5 device-level, 6 power cycle. -/
def State.levelNow (s : State) : Nat := s.get rcvPg GLB_RCV_STAT_LEVEL

/-- The level in progress with its engine and partition: the entries of the units under reset change (R232). -/
def State.setLevel (s : State) (level kind idx part : Nat) : State :=
  (s.wr (rcvPg + GLB_RCV_STAT) (level % 8 + kind % 8 * 2 ^ 3 + idx % 256 * 2 ^ 6 + part % 32 * 2 ^ 16)).capTouch

/-- Engines of a kind: slices, shared stores, memory-controller pipelines, the queue engine. -/
def engineCount (kind : Nat) : Nat := [32, 8, 16, 1].getD kind 0

/-- Key of a scope. -/
def scopeKey (kind idx : Nat) : Nat := kind * 256 + idx

/-- Counts of 256 epochs. -/
def tasteWindow : Nat := 256 * 41667

/-- Whether a scope's tasting ended less than 256 epochs ago (R432). -/
def State.tastedLately (s : State) (kind idx : Nat) : Bool :=
  let t := Tab.get 0 s.rcv.tasted (scopeKey kind idx)
  t != 0 && decide (s.upTime < t - 1 + tasteWindow)

/-- Slices that a level stops: the engine's, the partition's, or all. -/
def State.levelSlices (s : State) (level kind idx part : Nat) : List Nat :=
  if level ≤ 3 then scopeSlices kind idx else if level = 4 then s.partSlices part else List.range 32

/-- Slices take no new tile while a level above context runs (R433). -/
def State.stopSlices (s : State) (l : List Nat) (b : Bool) : State :=
  l.foldl (fun s n => s.updSlice n (fun y => { y with stopped := b })) s

/-! ### Crumbs (R442-R445) -/

/-- Whether the cell state of a slice is closed to crumbs in plaintext: its partition is protected (R404, R444). -/
def State.crumbClosed (s : State) (n : Nat) : Bool := (s.sliceOwner n).any s.isProtected

/-- Bytes that the spec leaves open, from one draw. Log 202 (DESIGN CHOICE). -/
def freeBytes (d n : Nat) : Bytes := (List.range n).map (Config.freeByte d)

/-- Where a context's crumb area has the record of a rank, when every condition of R444 holds: its address and key slot. -/
def State.crumbArea (s : State) (x rank : Nat) : Option (Nat × Nat) :=
  let dva := s.rd64 (ctxPg x + CTX_CRUMB_BASE) % 2 ^ 48 / 2 ^ 20 * 2 ^ 20
  let k := s.get (ctxPg x) CTX_CRUMB_KEY_SLOT
  let e := s.seg x (dvaSeg dva)
  if dva ≠ 0 ∧ k ≠ 0 ∧ s.keyState k = 1 ∧ e.loc = 0 ∧ e.key = k ∧
      s.inSegment x dva (s.get (ctxPg x) CTX_SAVE_CTL_SLOTS * 2 ^ 20) 2 then
    some (e.base + dvaOff dva + rank * 2 ^ 20, k)
  else none

/-- The header of a crumb record (R443). Log 202 (DESIGN CHOICE). -/
def State.crumbHeader (s : State) (level cause kind idx : Nat) (slice : Option Nat) (flags : Nat) : Bytes :=
  let n := slice.getD 0xFF
  let x := slice.bind (fun n => (s.atSlice n).ctx)
  let sum := s.get rcvPg GLB_RCV_CNT_CONTEXT + s.get rcvPg GLB_RCV_CNT_ENGINE + s.get rcvPg GLB_RCV_CNT_PARTITION + s.get rcvPg GLB_RCV_CNT_DEVICE
  leBytes 4 0x5243564F ++ leBytes 2 1 ++ leBytes 1 level ++ leBytes 1 cause ++ leBytes 1 kind ++ leBytes 1 n ++ leBytes 2 idx ++
    leBytes 2 (x.getD 0xFFFF) ++ leBytes 1 (match x with
      | some x => s.ctxGen x
      | none => 0) ++ leBytes 1 (match slice.bind s.sliceOwner with
      | some p => p
      | none => 0xFF) ++ leBytes 4 sum ++ leBytes 1 flags ++ leBytes 3 0 ++ leBytes 8 s.mclk ++ List.replicate 4064 0

/-- The scratchpad sample of a slice: the first 4 KiB of every cell whose relative index is a multiple of 16. Log 202 (DESIGN CHOICE). -/
def State.crumbSample (s : State) (n : Nat) : Bytes :=
  (List.range 64).flatMap (fun i => Memory.read s.spad (spadAt (relKey n (16 * i)) 0) 4096)

/-- The parts of a crumb record, with their offsets: the sample, the cell status, the island status, the share status, zeros. -/
def State.crumbParts (s : State) (head : Bytes) (slice : Option Nat) (full : Bool) : State × List (Nat × Bytes) :=
  let (d, s) := s.draw
  let (e, s) := s.draw
  let (f, s) := s.draw
  let part := fun (b : Bytes) (n : Nat) => if full then b else List.replicate n 0
  (s, [(0, head), (0x1000, part (match slice with
      | some n => s.crumbSample n
      | none => []) 0x40000), (0x41000, part (freeBytes d 0x80000) 0x80000), (0xC1000, freeBytes e 0x4000),
    (0xC5000, part (freeBytes f 0x10000) 0x10000), (0xD5000, List.replicate 0x2B000 0)])

/-- Write one record to the crumb buffer in host memory, if there is a buffer with room (R445). Log 203 (DESIGN CHOICE). -/
def State.crumbToHost (s : State) (parts : List (Nat × Bytes)) : State :=
  let size := s.get rcvPg GLB_CRUMB_CTL_SIZE
  let w := s.get rcvPg GLB_CRUMB_STAT_WRITTEN
  if size = 0 ∨ s.on rcvPg GLB_CRUMB_STAT_FULL then s
  else if size ≤ w then s.set rcvPg GLB_CRUMB_STAT_FULL 1
  else
    let base := s.rd64 (rcvPg + GLB_CRUMB_HOST) / 2 ^ 20 * 2 ^ 20 + w * 2 ^ 20
    let s := parts.foldl (fun s e => s.hostStore 0 (base + e.1) e.2) s
    s.set rcvPg GLB_CRUMB_STAT_WRITTEN (w + 1)

/-- Write one record to a context's crumb area under its slot. Log 203 (DESIGN CHOICE). -/
def State.crumbToArea (s : State) (x addr key : Nat) (parts : List (Nat × Bytes)) : State :=
  parts.foldl (fun s e => (s.devWrite key (s.partOf x) (addr + e.1) e.2).1) s

/-- One record of a slice, or of a scope without a slice. -/
def State.crumb (s : State) (level cause kind idx : Nat) (slice : Option Nat) : State :=
  match slice with
  | none =>
    let (s, ps) := s.crumbParts (s.crumbHeader level cause kind idx none 0) none true
    s.crumbToHost (ps.map (fun e => if e.1 = 0x1000 ∨ e.1 = 0x41000 ∨ e.1 = 0xC5000 then (e.1, List.replicate (if e.1 = 0x1000 then 0x40000 else e.2.length) 0) else e))
  | some n =>
    if s.crumbClosed n = false then
      let (s, ps) := s.crumbParts (s.crumbHeader level cause kind idx slice 0) slice true
      s.crumbToHost ps
    else
      let area := match (s.atSlice n).ctx with
        | some x => (s.crumbArea x ((s.ctxSlices x).idxOf n)).map (fun e => (x, e))
        | none => none
      match area with
      | none =>
        let (s, ps) := s.crumbParts (s.crumbHeader level cause kind idx slice 2) slice false
        s.crumbToHost ps
      | some (x, addr, key) =>
        let (s, ps) := s.crumbParts (s.crumbHeader level cause kind idx slice 1) slice true
        let t := s.crumbToArea x addr key ps
        t.crumbToHost (ps.map (fun e => if e.1 = 0x1000 ∨ e.1 = 0x41000 ∨ e.1 = 0xC5000 then (e.1, List.replicate e.2.length 0) else e))

/-- Take the crumbs of a level (R442). Log 203 (DESIGN CHOICE). -/
def State.takeCrumbs (s : State) (level cause kind idx : Nat) (slices : List Nat) : State :=
  if slices.isEmpty then s.crumb level cause kind idx none
  else slices.foldl (fun s n => s.crumb level cause kind idx (some n)) s

/-- CLEAR of GLB_CRUMB_CTL: the buffer starts again at its first record. -/
def State.crumbClear (s : State) : State := (s.set rcvPg GLB_CRUMB_STAT_WRITTEN 0).set rcvPg GLB_CRUMB_STAT_FULL 0

/-! ### Binding operations that a level or a retirement ends (R244, R433) -/

/-- Whether a binding operation of a partition touches units. -/
def State.rebindTouches (s : State) (p : Nat) (slices chans ports : List Nat) : Bool :=
  let rb := s.atRebind p
  let old := s.rd (partPg p + PART_SLICES)
  s.on (partPg p) PART_REBIND_CTL_BUSY &&
    ((rb.op == 1 && slices.any (fun n => bitOf rb.slices n != bitOf old n || (s.atSlice n).leaving || (bitOf rb.slices n && !bitOf rb.had n && rb.step == 4))) ||
     ((rb.op == 2 || rb.op == 3 || rb.op == 4) && chans.any (fun c => bitOf rb.chans c)) ||
     ((rb.op == 3 || rb.op == 4) && chans.any (fun c => (s.regChans rb.src).contains c || (s.regChans rb.dst).contains c)) ||
     ((rb.op == 5 || rb.op == 6) && ports.any (fun n => bitOf rb.ports n)))

/-- Binding operations that touch units end with PREEMPTED (R244, R433). -/
def State.preemptRebinds (s : State) (slices chans ports : List Nat) : State :=
  ((List.range 32).filter (fun p => s.rebindTouches p slices chans ports)).foldl (fun s p => s.rebindAbort p resPreempted) s

/-- Channels of a partition. -/
def State.partChans (s : State) (p : Nat) : List Nat := (List.range 256).filter (fun c => (s.chanParts c).contains p)

/-- The operation of a partition, whatever it touches, ends with PREEMPTED: its pages are in the scope of the partition's reset. -/
def State.preemptOwn (s : State) (p : Nat) : State :=
  if s.on (partPg p) PART_REBIND_CTL_BUSY then s.rebindAbort p resPreempted else s

/-- Binding operations that the units in a level's scope are part of end (R433). Log 200 (DESIGN CHOICE). -/
def State.preemptLevel (s : State) (level kind idx part : Nat) : State :=
  if level ≤ 3 then s.preemptRebinds (scopeSlices kind idx) (if kind = 2 then (List.range 16).map (· + 16 * idx) else []) []
  else if level = 4 then (s.preemptOwn part).preemptRebinds (s.partSlices part) (s.partChans part) (s.partPorts part)
  else s.preemptRebinds (List.range 32) (List.range 256) (List.range 36)

/-! ### The ladder (R432, R440) -/

/-- A level above context starts: a lower one ends, GLB_RCV_STAT shows the level, binding operations in its scope end, its slices
stop, RECOVERY_STEP is written; in host-assisted mode the crumbs are taken and approval is awaited, unless the level never waits.
Log 195 (DEDUCED). -/
def State.startLevel (s : State) (level kind idx part code : Nat) (waits : Bool) : State :=
  let ask := waits && s.hostMode 3
  let s := { s with rcv := { s.rcv with cause := code, approved := !ask, drain := none } }
  let l := s.levelSlices level kind idx part
  let s := (((s.preemptLevel level kind idx part).setLevel level kind idx part).stopSlices l true).reglMode
  let s := s.event0 0x40 (leBytes 1 level ++ leBytes 1 kind ++ leBytes 2 idx ++ leBytes 1 part ++ leBytes 1 (if ask then 1 else 0))
  if ask then (s.takeCrumbs level code kind idx l).set rcvPg GLB_RCV_STAT_WAIT_APPROVAL 1 else s

/-- The level has ended: the units and what it still held go on, and the scheduler decides. -/
def State.levelEnd (s : State) : State :=
  let s := { s with rcv := { s.rcv with
    suspects := [], named := [], turn := none, scope := none, late := none, cause := 0, approved := false, drain := none } }
  let s := s.mapCmds (fun c => c.held) (fun c => { c with held := false })
  let s := ((s.wr (rcvPg + GLB_RCV_STAT) 0).capTouch.stopSlices (List.range 32) false).reglMode
  ((List.range 32).filter (fun p => s.partState p == 2)).foldl (fun s p => (s.schedule p)) s

/-! ### Stopping commands (R433-R435, R447, R453) -/

/-- Commands that hold a unit in a scope. Log 198 (DESIGN CHOICE). -/
def State.scopeCmds (s : State) (kind idx : Nat) : List Cmd :=
  s.allCmds.filter (fun c => c.started && !c.work &&
    (if kind = 2 then c.ranges.any (s.rangeOnTower idx)
     else if kind = 0 then (s.atSlice idx).cmd == some (c.q, c.seq) || (dOp c.desc == 1 && (s.atSlice idx).ctx == some c.ctx)
     else (scopeSlices kind idx).any (fun n => (s.atSlice n).ctx == some c.ctx)))

/-- Stop a command everywhere. One of a context being torn down breaks with the teardown's code (R459), one that was to break with
its own; a replay-safe one that names no span slot is held (R447, R427); any other breaks with `code`. Log 204 (DESIGN CHOICE). -/
def State.stopCmd (s : State) (code kind id : Nat) (c : Cmd) : State :=
  if s.ctxState c.ctx = 2 then (s.flushCmd c.q c.seq).breakCmd c.q c.seq (s.atCtx c.ctx).tearCode 4 c.q
  else if c.stop ≠ 0 then s.stopNow c
  else if c.safe ∧ (dSlot c.desc).isNone then (s.holdCmd c.q c.seq).forgetReqs c.q c.seq
  else (s.flushCmd c.q c.seq).breakCmd c.q c.seq code kind id

/-- Stop commands; a teardown that waited for one goes on. -/
def State.stopCmds (s : State) (code kind id : Nat) (cs : List Cmd) : State :=
  let s := cs.foldl (fun s c => s.stopCmd code kind id c) s
  ((cs.map (·.ctx)).eraseDups).foldl (fun s x => s.tearAdvance x) s

/-- A slice's islands return to their reset values. Log 205 (DESIGN CHOICE). -/
def State.islandsReset (s : State) (n : Nat) : State :=
  let l := (List.range 4).map (sliceIsland n)
  let s := l.foldl (fun s i => s.clearPage (islPg i)) s
  ({ s with halted := s.halted.filter (fun i => !l.contains i) }).setQuiet n true

/-- Reset and scrub slices: a context that was being switched in or out of one has no save record left (R433). Log 205 (DESIGN CHOICE). -/
def State.slicesReset (s : State) (l : List Nat) : State :=
  let xs := (l.filterMap (fun n => (s.atSlice n).ctx)).eraseDups
  let s := xs.foldl (fun s x => if (s.ctxSlices x).any (fun n => s.sliceMoving n) then s.updCtx x (fun e => { e with saved := none, tq := none }) else s) s
  let s := l.foldl (fun s n => ((s.release n).scrubSlice n).islandsReset n) s
  s.clocks

/-- Step 4 of R435: the islands in scope are reset; a memory-controller pipeline keeps its line buffers;
a halt is absorbed (R528). Log 205 (DESIGN CHOICE). -/
def State.resetScope (s : State) (kind idx : Nat) : State :=
  let s := s.preemptRebinds (scopeSlices kind idx) (if kind = 2 then (List.range 16).map (· + 16 * idx) else []) []
  let s := s.slicesReset (scopeSlices kind idx)
  let s := { s with halted := s.halted.filter (fun i => !((kind == 1 && i == 128 + idx) || (kind == 2 && i == 136 + idx))) }
  if kind = 1 then (s.clearPage (shstPg idx)).updCore idx (fun _ => {}) else s

/-- An engine reset without a guilty suspect counts toward retirement of its scope (R451). Log 204 (DESIGN CHOICE), 206 (DESIGN CHOICE). -/
def State.scopeFault (s : State) (kind idx : Nat) : State :=
  if kind = 0 then s.fault 2 idx s.upTime else if kind = 1 then s.fault 3 idx s.upTime else s

/-! ### Tasting (R446-R450) -/

/-- Held commands of a context, oldest first. -/
def State.heldOf (s : State) (x : Nat) : List Cmd := (s.startedOf x).filter (fun c => c.held)

/-- Every held command of a tasting goes on. -/
def State.unhold (s : State) (xs : List Nat) : State := s.mapCmds (fun c => c.held && xs.contains c.ctx) (fun c => { c with held := false })

/-- SUSPECT and TASTING of a context are cleared. Log 198 (DESIGN CHOICE). -/
def State.clearSuspect (s : State) (x : Nat) : State := (s.set (ctxPg x) CTX_RCV_STAT_SUSPECT 0).set (ctxPg x) CTX_RCV_STAT_TASTING 0

/-- The end of a tasting with RESULT 1 a guilty context, 2 none, 3 ended by R450: TASTING_RESULT goes to event queue 0 and to the
queue of every suspect. -/
def State.tasteEnd (s : State) (result guilty : Nat) (go : Bool) : State :=
  let xs := s.rcv.named
  let (kind, idx) := s.rcv.scope.getD (0, 0)
  let s := (xs.foldl State.clearSuspect s).wr (rcvPg + GLB_TASTE_STAT) (result * 2 ^ 16 + guilty % 1024 * 2 ^ 18)
  let s := s.eventAll (0 :: xs.map s.ctxEvq) 0x41 0 (leBytes 1 result ++ leBytes 1 0 ++ leBytes 2 guilty ++ leBytes 2 xs.length)
  let s := if go then s.unhold xs else s
  let s := { s with rcv := { s.rcv with tasted := Tab.put 0 (scopeKey kind idx) (s.upTime + 1) s.rcv.tasted } }
  let s := if result = 2 then s.scopeFault kind idx else s
  s.levelEnd

/-- The turn of the first suspect that still has a held command: its earliest one runs alone on the scope (R448). With none left
the tasting ends and finds no one guilty. Log 199 (DESIGN CHOICE). -/
def State.turnStart (s : State) : State :=
  let xs := s.rcv.suspects.dropWhile (fun x => (s.heldOf x).isEmpty)
  let s := { s with rcv := { s.rcv with suspects := xs } }
  match xs, s.rcv.scope with
  | x :: rest, some (kind, idx) => match (s.heldOf x).head? with
    | none => s.tasteEnd 2 0 true
    | some c =>
      let s := (s.set rcvPg GLB_TASTE_STAT_CONTEXT x).set rcvPg GLB_TASTE_STAT_LEFT (min 63 rest.length)
      let s := { s.set (ctxPg x) CTX_RCV_STAT_TASTING 1 with rcv := { s.rcv with turn := some (c.q, c.seq) } }
      let s := s.updCmd c.q c.seq (fun c => { c with held := false })
      let l := (scopeSlices kind idx).filter (fun n => s.sliceOwner n == some c.part)
      if kind = 2 then s.feedCtx x else (s.stopSlices l false).give x l
  | _, _ => s.tasteEnd 2 0 true

/-- The turn of the first suspect is over: what it was given is taken back, and the next turn starts. Log 199 (DESIGN CHOICE). -/
def State.turnOver (s : State) : State :=
  match s.rcv.suspects, s.rcv.scope with
  | x :: rest, some (kind, idx) =>
    let s := s.clearSuspect x
    let s := if kind = 2 ∨ rest.isEmpty then s
      else ((scopeSlices kind idx).foldl (fun s n => s.release n) s).stopSlices (scopeSlices kind idx) true
    ({ s with rcv := { s.rcv with suspects := rest, turn := none } }).turnStart
  | _, _ => s

/-- Tasting starts with suspects in ascending number. Log 198 (DESIGN CHOICE). -/
def State.tasteStart (s : State) (kind idx : Nat) (xs : List Nat) : State :=
  let s := xs.foldl (fun s x => s.set (ctxPg x) CTX_RCV_STAT_SUSPECT 1) s
  let s := { s with rcv := { s.rcv with suspects := xs, named := xs, turn := none, scope := some (kind, idx) } }
  let s := (s.setLevel 3 kind idx (if kind = 0 then (s.sliceOwner idx).getD 0 else 0)).stopSlices (scopeSlices kind idx) true
  s.reglMode.turnStart

/-- Whether requests that stopped commands had issued are still outstanding (R435 step 3). -/
def State.reqsLeft (s : State) (ids : List (Nat × Nat)) : Bool :=
  s.reqs.any (fun e => e.2.any (fun r => ids.contains (r.q, r.seq)))

/-- Steps 4 and 5 of R435, once the requests that the stopped commands `ids` had issued are answered or expired: reset, classification,
tasting. Log 197 (DESIGN CHOICE). -/
def State.engineRest (s : State) (kind idx : Nat) (ids : List (Nat × Nat)) : State :=
  if s.reqsLeft ids then s
  else
    let s := ({ s with rcv := { s.rcv with drain := none } }).resetScope kind idx
    let s := s.bumpF rcvPg GLB_RCV_CNT_ENGINE 1
    let s := if kind = 2 then s.fault 4 idx s.upTime else s
    let held := (ids.filterMap (fun e => s.cmd? e.1 e.2)).filter (fun c => c.held)
    let xs := (List.range 1024).filter (fun x => held.any (fun c => c.ctx == x))
    if xs.isEmpty then (s.scopeFault kind idx).levelEnd else s.tasteStart kind idx xs

/-- Step 2 of R435, with step 3's wait for what the stopped commands, and those of `more`, had issued; steps 4 and 5 follow at once
where nothing is outstanding. Log 197 (DESIGN CHOICE). -/
def State.engineRun (s : State) (kind idx : Nat) (more : List (Nat × Nat) := []) : State :=
  let cs := s.scopeCmds kind idx
  let ids := more ++ cs.map (fun c => (c.q, c.seq))
  let s := s.stopCmds codeResetInterrupted 6 0 cs
  ({ s with rcv := { s.rcv with drain := some (s.mclk, ids) } }).engineRest kind idx ids

/-- A tasting in progress ends by R450: held commands break with RESET_INTERRUPTED, or go on when a unit retires.
Log 200 (DESIGN CHOICE). -/
def State.tasteStop (s : State) (rerun : Bool) : State :=
  if s.rcv.scope.isNone then s
  else
    let xs := s.rcv.named
    let s := if rerun then s
      else (s.allCmds.filter (fun c => xs.contains c.ctx && !c.work && (c.held || s.rcv.turn == some (c.q, c.seq)))).foldl (fun s c =>
        (s.flushCmd c.q c.seq).breakCmd c.q c.seq codeResetInterrupted 6 0) s
    s.tasteEnd 3 0 rerun

/-- A guilty suspect (R448, R449): the scope is reset again, its replayed command breaks with GUILTY, its context is torn down.
Log 199 (DESIGN CHOICE). -/
def State.guilty (s : State) (x q seq kind idx : Nat) : State :=
  let s := s.takeCrumbs 2 codeHang kind idx (scopeSlices kind idx)
  let s := s.flushCmd q seq
  let s := match s.cmd? q seq with
    | none => s
    | some c =>
      let c' := { c.breakWith codeGuilty 6 0 with fenced := true }
      ((s.updCmd q seq (fun _ => c')).breakFenceOf c').setLatch c'
  let s := (s.resetScope kind idx).bumpF rcvPg GLB_RCV_CNT_ENGINE 1
  let s := if kind = 2 then s.fault 4 idx s.upTime else s
  let s := (s.set (ctxPg x) CTX_RCV_STAT_GUILTY 1).tearDown x codeContextTornDown
  s.tasteEnd 1 x true

/-- Whether an engine of a scope has stood still for TASTE_THRESH whole epochs (R448); 0 acts as 1. -/
def State.tasteStale (s : State) (kind idx : Nat) : Bool :=
  (scopeKey kind idx :: (scopeSlices kind idx).map (scopeKey 0)).any (fun k =>
    decide (max 1 (s.get rcvPg GLB_HANG_CTL_TASTE_THRESH) ≤ (Tab.get {} s.beacons k).stale))

/-- TASTING_TURN (R448): how the running turn ends: 0 the command completes, 1 it still progresses after 256 epochs, 2 it hangs,
3 it breaks for another reason. Log 199 (DESIGN CHOICE). -/
def execTastingTurn (outcome : Nat) (s : State) : Answer :=
  onUnit (decide (outcome ≤ 3)) (
    match s.rcv.suspects, s.rcv.turn, s.rcv.scope with
    | x :: rest, some (q, seq), some (kind, idx) =>
      let running := match s.cmd? q seq with
        | some c => !c.work
        | none => false
      if s.levelNow ≠ 3 then s
      else if outcome = 2 ∧ s.tasteStale kind idx = false then s
      else if outcome = 1 then
        if running = false then s
        else if rest.isEmpty then s.turnOver
        else ((s.holdCmd q seq).forgetReqs q seq).turnOver
      else if outcome = 2 then (if running then s.guilty x q seq kind idx else s)
      else if running then s else s.turnOver
    | _, _, _ => s)

/-! ### Hang detection (R429-R431, R434, R439) -/

/-- Context level (R434): the context's commands on the hung slice stop wherever they run and break with HANG. Log 201 (DESIGN CHOICE). -/
def State.contextLevel (s : State) (n : Nat) : State :=
  match (s.atSlice n).cmd with
  | none => s
  | some (q, seq) =>
    let x := (s.cmd? q seq).map (·.ctx)
    let s := ((s.flushCmd q seq).breakCmd q seq codeHang 3 n).bumpF rcvPg GLB_RCV_CNT_CONTEXT 1
    match x with
    | some x => ((s.tearAdvance x).scheduleFor x).feedCtx x
    | none => s

/-- What a hung engine calls for: its level (R432). -/
def State.hangLevel (s : State) (kind idx : Nat) : Nat :=
  let lately := s.tastedLately kind idx
  if kind = 0 then (if lately then 4 else 1) else if kind = 3 ∨ lately then 5 else 2

/-- A shared store that hangs while a slice of its core is under reset: one reset of the union of the scopes (R432). -/
def State.unionLevel (s : State) (idx : Nat) : State :=
  let wait := s.get rcvPg GLB_RCV_STAT_WAIT_APPROVAL
  let t := ((s.setLevel 2 1 idx 0).set rcvPg GLB_RCV_STAT_WAIT_APPROVAL wait).stopSlices (scopeSlices 1 idx) true
  match s.rcv.drain with
  | some (_, ids) => (t.takeCrumbs 2 codeHang 1 idx (scopeSlices 1 idx)).engineRun 1 idx ids
  | none => t

/-- A hung engine: the level starts unless one as high already runs. Log 213 (DESIGN CHOICE). -/
def State.hung (s : State) (kind idx : Nat) : State :=
  let lvl := s.hangLevel kind idx
  if lvl = 2 ∧ s.levelNow = 2 ∧ kind = 1 ∧ s.get rcvPg GLB_RCV_STAT_ENGINE_KIND = 0 ∧ s.get rcvPg GLB_RCV_STAT_INDEX / 4 = idx then s.unionLevel idx
  else if lvl ≤ s.levelNow then s
  else
    let s := { s with beacons := Tab.put {} (scopeKey kind idx) {} s.beacons }
    let part := if kind = 0 then (s.sliceOwner idx).getD 0 else 0
    if lvl = 1 then s.contextLevel idx else s.startLevel lvl kind idx part codeHang true

/-- The threshold of hang detection in epochs. Log 213 (DESIGN CHOICE). -/
def State.hangEpochs (s : State) : Nat := max 4 (s.get rcvPg GLB_HANG_CTL_THRESH)

/-- HANG_DETECT (R430): an engine whose beacon has stood still, with work, for the threshold. Log 213 (DESIGN CHOICE). -/
def execHangDetect (kind idx : Nat) (s : State) : Answer :=
  onUnit (decide (kind ≤ 3) && decide (idx < engineCount kind)) (
    if (Tab.get {} s.beacons (scopeKey kind idx)).stale < s.hangEpochs then s else s.hung kind idx)

/-- ROUND_OVERRUN (R430): a tile round has fired for more cycles than its bound. Log 214 (DESIGN CHOICE). -/
def execRoundOverrun (slice : Nat) (s : State) : Answer :=
  onUnit (decide (slice < 32)) (
    match s.sliceCmd slice with
    | none => s
    | some c =>
      let m := max 2 (s.get rcvPg GLB_HANG_CTL_ROUND_MULT)
      if (s.atSlice slice).cycles ≤ m * (s.phaseOf c).cycles then s else s.hung 0 slice)

/-- A member of a span whose token a waiting instance has not got. -/
def State.missingDev (s : State) (c : Cmd) (slot : Nat) : Nat :=
  let got := (s.toksOf c slot).map (·.rank)
  let ps := s.spanPeers c.part slot
  match ps.find? (fun e => !got.contains e.1) with
  | some e => e.2
  | none => match ps.head? with
    | some e => e.2
    | none => 0

/-- SPAN_WAIT_EXPIRE (R431): a span instance has waited too long at a barrier or an exchange. Log 213 (DESIGN CHOICE). -/
def execSpanWaitExpire (q seq : Nat) (s : State) : Answer :=
  onUnit (decide (q < 4096)) (
    match s.cmd? q seq with
    | none => s
    | some c => match dSlot c.desc with
      | none => s
      | some slot =>
        if c.started = false ∨ c.work ∨ dOp c.desc ≠ 1 ∨ c.spr.waiting = false ∨
            s.mclk < ((c.spr.waitFrom + 41666) / 41667 + max 64 (s.get rcvPg GLB_HANG_CTL_SPAN_WAIT)) * 41667 then s
        else
          let d := s.missingDev c slot
          ((s.flushCmd q seq).breakCmd q seq codeHang 5 (d % 65536) 0 d).tearAdvance c.ctx)

/-- A command that is not quiescent by its deadline breaks and its slices are reset, with crumbs and without tasting (R275).
Log 214 (DESIGN CHOICE). -/
def State.overrun (s : State) (c : Cmd) (l : List Nat) : State :=
  let code := if s.ctxState c.ctx = 2 then (s.atCtx c.ctx).tearCode else codePreemptOverrun
  let s := (s.flushCmd c.q c.seq).breakCmd c.q c.seq code 3 (l.headD 0)
  let s := (s.preemptRebinds l [] []).slicesReset l
  let s := s.bumpF rcvPg GLB_RCV_CNT_ENGINE 1
  let s := ({ s with rcv := { s.rcv with late := none } }).tearAdvance c.ctx
  (s.preempted c.ctx).scheduleFor c.ctx

/-- NP_DEADLINE_EXPIRE (R275, R456 step 3). Log 214 (DESIGN CHOICE). -/
def execNpDeadlineExpire (q seq : Nat) (s : State) : Answer :=
  onUnit (decide (q < 4096)) (
    match s.cmd? q seq with
    | none => s
    | some c =>
      if c.work ∨ c.started = false ∨ c.boundary = false ∨ (s.atBoundary c && !s.noBoundary c) ∨ 2 ≤ s.levelNow then s
      else
        let l := s.cmdSlices q seq
        let s := s.bump (partPg c.part + PART_OVR_CNT) 1
        if s.hostMode 3 then
          ({ s with rcv := { s.rcv with late := some (q, seq) } }).startLevel 2 0 (l.headD 0) c.part codePreemptOverrun true
        else ((s.takeCrumbs 2 codePreemptOverrun 0 (l.headD 0) l).overrun c l))

/-- WATCHDOG_EXPIRE (R439, R461): a processor has fallen silent; a device-level reset starts with cause WATCHDOG, without
approval. Log 209 (DESIGN CHOICE). -/
def execWatchdogExpire (proc : Nat) (s : State) : Answer :=
  onUnit (decide (proc < 4)) (
    if 5 ≤ s.levelNow then s else (s.alarm 13).startLevel 5 4 0 0 0 false)

/-! ### Engine reset -/

/-- A reset that waits in step 3 goes on once the requests are answered or expired. Past the bound of steps 2 and 3 it escalates
(R435, R432). Log 197 (DESIGN CHOICE). -/
def State.engineGoOn (s : State) (kind idx part : Nat) : State :=
  match s.rcv.drain with
  | none => s
  | some (t, ids) =>
    if s.reqsLeft ids ∧ t + 23000 < s.mclk then s.startLevel (if kind = 0 then 4 else 5) kind idx part s.rcv.cause true
    else s.engineRest kind idx ids

/-- ENGINE_RESET (R435): in host-assisted mode it is proposed. One that waits in step 3 is taken further. Log 196 (DESIGN CHOICE). -/
def execEngineReset (kind idx : Nat) (s : State) : Answer :=
  onUnit (decide (kind ≤ 2) && decide (idx < engineCount kind)) (
    let part := if kind = 0 then (s.sliceOwner idx).getD 0 else 0
    if 3 ≤ s.levelNow ∨ (s.levelNow = 2 ∧ (s.get rcvPg GLB_RCV_STAT_ENGINE_KIND ≠ kind ∨ s.get rcvPg GLB_RCV_STAT_INDEX ≠ idx)) then s
    else if s.levelNow = 2 ∧ s.rcv.drain.isSome then s.engineGoOn kind idx part
    else if s.hostMode 3 then (if s.levelNow = 2 then s else s.startLevel 2 kind idx part codeHang true)
    else
      let s := if s.levelNow = 2 then s else s.startLevel 2 kind idx part codeHang false
      (s.takeCrumbs 2 codeHang kind idx (scopeSlices kind idx)).engineRun kind idx)

/-! ### Partition reset (R436) -/

/-- The code that an unresolved command gets at a partition reset. Log 204 (DESIGN CHOICE). -/
def State.resetCode (s : State) (c : Cmd) : Nat := if s.ctxState c.ctx = 2 then (s.atCtx c.ctx).tearCode else codeResetInterrupted

/-- Completion records, refusals to span members and remote breaks of the partition's commands, which all break. Log 207 (DESIGN CHOICE). -/
def State.partCmdsOut (s : State) (cs : List Cmd) : State :=
  cs.foldl (fun s c =>
    let s := s.flushCmd c.q c.seq
    let s := if c.recorded then s else s.cplWrite c (s.cplBytes c)
    ((s.spanRefuse c).remoteBreak c).forgetReqs c.q c.seq) s

/-- The fence code and source of a command that a reset of its partition breaks. Log 207 (DESIGN CHOICE). -/
def State.resetBreak (s : State) (c : Cmd) : Cmd := c.breakWith (s.resetCode c) 6 0

/-- Steps 4 and 5 with the changes of R436, once the requests that the stopped commands had issued are answered or expired. Every
unresolved command of the partition breaks. Log 207 (DESIGN CHOICE). -/
def State.partitionRest (s : State) (p : Nat) : State :=
  let cs := (s.allCmds.filter (fun c => c.part == p)).map s.resetBreak
  let s := s.partCmdsOut cs
  let s := ((List.range 8).filter (fun l => s.slotState p l != 0)).foldl (fun s l => s.castColl p l { op := 0x13, addr := s.slotRank p l }) s
  let s := if s.keyLocked p then
      ((s.partKeys p).filter (fun k => s.keyState k != 0)).foldl (fun s k => (s.keyStartRetire k true).keyFinish k) s
    else s
  let gens := (s.partCtxs p).map (fun x => (x, (s.ctxGen x + 1) % 256))
  let s := s.slicesReset (s.partSlices p)
  let s := s.firmwareScrub p
  let s := gens.foldl (fun s e => { s.set (ctxPg e.1) CTX_STAT_GEN e.2 with gens := Tab.put 0 e.1 e.2 s.gens }) s
  let s := (cs.filter (fun c => !c.fenced)).foldl (fun s c => s.breakFenceOf c) s
  let s := { s.transDrop with parts := Tab.put {} p {} s.parts }
  (s.bumpF rcvPg GLB_RCV_CNT_PARTITION 1).levelEnd

/-- A partition reset that waits in step 3 of R435 goes on once nothing is outstanding; past its bound of 1.5 ms it escalates.
Log 197 (DESIGN CHOICE). -/
def State.partitionGoOn (s : State) (p : Nat) : State :=
  match s.rcv.drain with
  | none => s
  | some (t, ids) =>
    if s.reqsLeft ids = false then s.partitionRest p
    else if t + 150000 < s.mclk then s.startLevel 5 (s.get rcvPg GLB_RCV_STAT_ENGINE_KIND) (s.get rcvPg GLB_RCV_STAT_INDEX) 0 s.rcv.cause true
    else s

/-- Step 2 of R435 for a partition: every unfinished command stops, on every slice it holds; the crumbs have been taken.
Log 200 (DESIGN CHOICE). -/
def State.partitionRun (s : State) (p kind idx : Nat) : State :=
  let s := if s.rcv.scope.isSome then (s.tasteStop false).setLevel 4 kind idx p else s
  let s := (s.preemptLevel 4 kind idx p).stopSlices (s.partSlices p) true
  let cs := s.allCmds.filter (fun c => c.part == p)
  let s := (cs.filter (fun c => c.started && !c.work)).foldl (fun s c => (s.holdCmd c.q c.seq).forgetReqs c.q c.seq) s
  ({ s with rcv := { s.rcv with drain := some (s.mclk, cs.map (fun (c : Cmd) => (c.q, c.seq))) } }).partitionGoOn p

/-- PARTITION_RESET (R436): in host-assisted mode it is proposed, unless it was requested. One that waits is taken further. -/
def execPartitionReset (part : Nat) (s : State) : Answer :=
  onUnit (decide (part < 32)) (
    if 5 ≤ s.levelNow ∨ s.partState part < 2 then s
    else if s.levelNow = 4 ∧ s.rcv.drain.isSome then (if s.get rcvPg GLB_RCV_STAT_PARTITION = part then s.partitionGoOn part else s)
    else if s.hostMode 3 ∧ s.rcv.approved = false then
      (if s.levelNow = 4 then s else s.startLevel 4 4 0 part 0 true)
    else
      let code := s.rcv.cause
      let kind := if s.levelNow = 4 then s.get rcvPg GLB_RCV_STAT_ENGINE_KIND else 4
      let idx := if s.levelNow = 4 then s.get rcvPg GLB_RCV_STAT_INDEX else 0
      let s := s.tasteStop false
      let s := if s.levelNow = 4 then s else s.startLevel 4 4 0 part code false
      (s.takeCrumbs 4 code kind idx (s.partSlices part)).partitionRun part kind idx)

/-! ### Device-level reset and power cycle (R428, R437, R438) -/

/-- The cause is recorded, DEV_CYCLE_REQ_N asserted, the data plane stays in reset. When Skeldor is not running, the
security island asserts the output and writes nothing. Log 209 (DESIGN CHOICE), 218 (DESIGN CHOICE). -/
def State.powerCycle (s : State) (cause : Nat) : State :=
  let dead := decide (cause = 3) && decide (64 ≤ s.mgmt.wdog)
  let phase := s.get mgmtPg MGMT_PHASE_PHASE
  let t := s.unitsReset
  let t := ({ t with ready := false, mclk := s.mclk, rcv := { t.rcv with past := s.rcv.past }, pins := { t.pins with cycleN := false } }).setLevel 6 4 0 0
  if dead then t.set mgmtPg MGMT_PHASE_PHASE phase
  else ({ t with flash := { t.flash with cause := cause } }.set mgmtPg MGMT_PHASE_PHASE 8).alarm 9

/-- POWER_CYCLE_REQUEST (R438, R480). -/
def execPowerCycleRequest (cause : Nat) (s : State) : Answer :=
  onUnit (decide (1 ≤ cause) && decide (cause ≤ 4)) (s.powerCycle cause)

/-- Device-level resets of the last 600 s. Log 209 (DESIGN CHOICE). -/
def State.lateResets (s : State) : List Nat := s.rcv.resets.filter (fun t => decide (s.upTime < t + 60000000000))

/-- Steps 1 to 4 of R437: records, GOING_DOWN, crumbs, flush, TDIs, reset of every unit. -/
def State.deviceDown (s : State) (cause : Nat) (crumbs : Bool) : State :=
  let code := s.rcv.cause
  let n := satAdd 0xFF (s.get rcvPg GLB_RCV_CNT_DEVICE) 1
  let s := s.set rcvPg GLB_RCV_CNT_DEVICE n
  let s := ((s.setLevel 5 (if s.levelNow = 5 then s.get rcvPg GLB_RCV_STAT_ENGINE_KIND else 4) (s.get rcvPg GLB_RCV_STAT_INDEX) 0).stopSlices (List.range 32) true)
  let s := s.eventAll (List.range 1024) 0x42 0 (leBytes 1 cause ++ leBytes 1 0 ++ leBytes 2 n)
  let s := (s.alarm 8).goingDown
  let s := if crumbs then s.takeCrumbs 5 code (s.get rcvPg GLB_RCV_STAT_ENGINE_KIND) (s.get rcvPg GLB_RCV_STAT_INDEX) (List.range 32) else s
  let s := (List.range 32).foldl (fun s p => s.flushPart p) s
  let s := (List.range 256).foldl (fun s f => s.tdiError f 3) s
  ({ s with rcv := { s.rcv with resets := s.upTime :: s.lateResets } }).unitsReset

/-- DEVICE_LEVEL_RESET (R437): with the cause of R460: 1 escalation, 2 request, 3 watchdog, 4 thermal or another decision of the
device. In host-assisted mode an escalation is proposed first. A third one within 600 s is a power cycle. Log 196 (DESIGN CHOICE). -/
def execDeviceLevelReset (cause : Nat) (train : TrainIn) (s : State) : Answer :=
  onUnit (decide (1 ≤ cause) && decide (cause ≤ 4)) (
    if s.ready = false ∨ s.levelNow = 6 then s
    else if cause = 1 ∧ s.hostMode 3 ∧ s.rcv.approved = false then
      (if s.levelNow = 5 then s else s.startLevel 5 4 0 0 codeHang true)
    else if 2 ≤ s.lateResets.length then s.powerCycle 2
    else (s.deviceDown cause true).bringUp train)

/-! ### Approval and requests (R440) -/

/-- The slices of the level that waits have had their crumbs; run it. Log 195 (DEDUCED). -/
def State.runLevel (s : State) (level part : Nat) : State :=
  let kind := s.get rcvPg GLB_RCV_STAT_ENGINE_KIND
  let idx := s.get rcvPg GLB_RCV_STAT_INDEX
  let s := { ((s.set rcvPg GLB_RCV_STAT_WAIT_APPROVAL 0).set rcvPg GLB_RCV_STAT_HELD 0).capTouch with
    rcv := { s.rcv with approved := true } }
  if level = 2 then
    match s.rcv.late with
    | some (q, seq) => match s.cmd? q seq with
      | some c => (s.overrun c (s.cmdSlices q seq)).levelEnd
      | none => s.levelEnd
    | none => s.engineRun kind idx
  else if level = 4 then (if s.levelNow = 4 then s else s.setLevel 4 kind idx part).partitionRun part kind idx
  else if level = 5 then (s.setLevel 5 kind idx 0).stopSlices (List.range 32) true
  else s.powerCycle 4

/-- APPROVE: the proposed level, or the higher one that LEVEL holds. A partition reset above a proposed engine reset is of the slice's
partition, or of PARTITION when the engine is no slice. Log 196 (DESIGN CHOICE). -/
def State.recoveryApprove (s : State) : State :=
  if s.on rcvPg GLB_RCV_STAT_WAIT_APPROVAL = false then s
  else
    let was := s.levelNow
    let want := s.get rcvPg GLB_RCV_APPROVE_LEVEL
    let part := if was = 4 ∨ s.get rcvPg GLB_RCV_STAT_ENGINE_KIND = 0 then s.get rcvPg GLB_RCV_STAT_PARTITION else s.get rcvPg GLB_RCV_APPROVE_PARTITION
    s.runLevel (if was < want ∧ 4 ≤ want ∧ want ≤ 6 then want else was) part

/-- HOLD: the units stay stopped until a later APPROVE. -/
def State.recoveryHold (s : State) : State :=
  if s.on rcvPg GLB_RCV_STAT_WAIT_APPROVAL then s.set rcvPg GLB_RCV_STAT_HELD 1 else s

/-- Collect a request for the next epoch boundary (R468). Log 211 (DESIGN CHOICE). -/
def State.collect (s : State) (src kind a b : Nat) : State :=
  { s with mgmt := { s.mgmt with collected := s.mgmt.collected ++ [{ src := src, kind := kind, a := a, b := b }] } }

/-- REQUEST: collected; any LEVEL but 4, 5 and 6 is ignored. -/
def State.recoveryRequest (s : State) : State :=
  let l := s.get rcvPg GLB_RCV_APPROVE_LEVEL
  if 4 ≤ l ∧ l ≤ 6 then s.collect 1 3 l (s.get rcvPg GLB_RCV_APPROVE_PARTITION) else s

/-- A reset request is served (R469): absorbed by a level as high that is in progress. A device-level reset, which trains memory,
is started here and completed by its command. Log 223 (DESIGN CHOICE). -/
def State.serveReset (s : State) (level part : Nat) : State :=
  if level ≤ s.levelNow then s
  else if level = 4 then
    if s.partState part < 2 then s
    else
      let s := (s.tasteStop false).startLevel 4 4 0 part 0 false
      (s.takeCrumbs 4 0 4 0 (s.partSlices part)).partitionRun part 4 0
  else if level = 5 then s.startLevel 5 4 0 0 0 false
  else s.powerCycle 4

/-! ### Retirement (R451-R455) -/

/-- A retirement request that a unit's end answers. -/
def State.retireDone (s : State) (typ idx : Nat) : State :=
  let same := s.get rcvPg GLB_RETIRE_REQ_TYPE == typ && (s.get rcvPg GLB_RETIRE_REQ_INDEX == idx || (typ == 2 && s.get rcvPg GLB_RETIRE_REQ_INDEX / 2 == idx / 2))
  if s.on rcvPg GLB_RETIRE_REQ_BUSY ∧ same then (s.set rcvPg GLB_RETIRE_REQ_BUSY 0).set rcvPg GLB_RETIRE_REQ_RESULT 0 else s

/-- Steps 3 to 5 of R453: commands whose state on the slice is lost are held and rerun at once, or break with UNIT_RETIRED.
Log 210 (DESIGN CHOICE). -/
def State.sliceGone (s : State) (n reason : Nat) : State :=
  let p := s.sliceOwner n
  let lost := match s.sliceCmd n with
    | some c => if c.work ∨ (s.atBoundary c && !s.noBoundary c) then [] else [c]
    | none => []
  let asked := s.allCmds.filter (fun c => (s.atSlice n).ctx == some c.ctx && c.boundary && !c.work)
  let s := s.stopCmds codeUnitRetired 3 n lost
  let s := lost.foldl (fun s c => s.updCmd c.q c.seq (fun c => { c with held := false })) s
  let s := match p with
    | some p =>
      let s := s.wr (partPg p + PART_RT_MASK) (putBit (s.rd (partPg p + PART_RT_MASK)) n false)
      s.slicesLeave p [n]
    | none => (s.scrubSlice n).updSlice n (fun y => { badCfg := y.badCfg })
  let s := ((s.unitRetired 1 n reason p.toList).recordRetired 1 n reason).retireDone 1 n
  let s := asked.foldl (fun s c => s.goOn c) s
  match p with
  | some p => s.schedule p
  | none => s

/-- Retire a slice: CAPT_GEN becomes odd, binding operations that touch it end, it is marked to take no new tile and its commands are
asked for a boundary; when they stand still, or when the retirement is ordered again (the deadline of R275), it goes.
Log 210 (DESIGN CHOICE). -/
def State.retireSlice (s : State) (n reason : Nat) : State :=
  let s := if s.rcv.scope.any (fun e => (scopeSlices e.1 e.2).contains n) then s.tasteStop true else s
  let first : Bool := !s.rcv.retiring.contains n
  let s := (s.capOpen n).preemptRebinds [n] [] []
  let s := s.markLeaving n
  let cs : List Cmd := match s.sliceCmd n with
    | some c => if c.work then [] else [c]
    | none => []
  let s := if first then cs.foldl (fun s c => s.askBoundary c.q c.seq) s else s
  if first = false ∨ (s.atSlice n).stopped ∨ cs.all (fun c => s.atBoundary c && !s.noBoundary c) then s.sliceGone n reason else s

/-- SLICE_RETIRE (R453). Log 210 (DESIGN CHOICE). -/
def execSliceRetire (slice reason : Nat) (s : State) : Answer :=
  onUnit (decide (slice < 32)) (if s.capState 1 slice = 2 then s else s.retireSlice slice reason)

/-- Retire a channel group: both channels of its DRAM die; their buffers and lines are lost (R454). Log 211 (DESIGN CHOICE). -/
def State.retireGroup (s : State) (g reason : Nat) : State :=
  let s := s.preemptRebinds [] [2 * g, 2 * g + 1] []
  [2 * g, 2 * g + 1].foldl (fun s c =>
    let s := (s.setBufs c []).set (memcPg c) MEMC_LANE_STAT_IN_SERVICE 0
    ((s.unitRetired 2 c reason (s.chanParts c)).recordRetired 2 c reason).retireDone 2 c) s

/-- CHANNEL_GROUP_RETIRE (R454). -/
def execChannelGroupRetire (group reason : Nat) (s : State) : Answer :=
  onUnit (decide (group < 128)) (if s.capState 2 (2 * group) = 2 then s else s.retireGroup group reason)

/-- Retire a port: PORT_DOWN is sent first and it leaves its trunk (R455). -/
def State.retirePort (s : State) (p reason : Nat) : State :=
  let s := (s.preemptRebinds [] [] [p]).portRetrain p 8
  ((s.unitRetired 3 p reason (s.portOwner p).toList).recordRetired 3 p reason).retireDone 3 p

/-- PORT_RETIRE (R455). -/
def execPortRetire (port reason : Nat) (s : State) : Answer :=
  onUnit (decide (port < 36)) (if s.capState 3 port = 2 then s else s.retirePort port reason)

/-- Units of an entry type of GLB_RETIRE_REQ. -/
def unitCount (typ : Nat) : Nat := [0, 32, 256, 36].getD typ 0

/-- GO of GLB_RETIRE_REQ: ignored while BUSY; collected (R468). -/
def State.retireRequest (s : State) : State :=
  if s.on rcvPg GLB_RETIRE_REQ_BUSY then s
  else (s.set rcvPg GLB_RETIRE_REQ_BUSY 1).collect 1 1 (s.get rcvPg GLB_RETIRE_REQ_TYPE) (s.get rcvPg GLB_RETIRE_REQ_INDEX)

/-- A retirement request is served: its check, or the retirement with reason 9. Log 211 (DESIGN CHOICE). -/
def State.serveRetire (s : State) (typ idx : Nat) : State :=
  let done := fun (s : State) (n : Nat) => (s.set rcvPg GLB_RETIRE_REQ_BUSY 0).set rcvPg GLB_RETIRE_REQ_RESULT n
  let others := (List.range (unitCount typ)).filter (fun i => s.capState typ i != 2 && (if typ = 2 then i / 2 != idx / 2 else i != idx))
  if unitCount typ ≤ idx then done s 1
  else if s.capState typ idx = 2 then done s 2
  else if others.isEmpty then done s 3
  else if typ = 1 then s.retireSlice idx 9
  else if typ = 2 then s.retireGroup (idx / 2) 9
  else s.retirePort idx 9

/-- The lane of a channel whose corrected symbols have passed their threshold (R451). -/
def State.weakLane (s : State) (chan : Nat) : Option Nat :=
  let l := s.faultsOf 5 chan
  (List.range 272).find? (fun n => decide (256 ≤ (l.filter (fun e => e.2 == n)).length))

/-- The counts of a lane that is under repair start again. -/
def State.laneStarted (s : State) (chan lane : Nat) : State :=
  if (s.atChan chan).sweep = some (lane, 0) then
    { s with rcv := { s.rcv with faults := Tab.put [] (5 * 1024 + chan) ((s.faultsOf 5 chan).filter (fun e => e.2 != lane)) s.rcv.faults } }
  else s

/-- Whether a lane of a channel needs repair with no spare free while its codeword holds 8 listed erasures. -/
def State.noSpare (s : State) (chan : Nat) : Bool :=
  let c := s.atChan chan
  match s.weakLane chan with
  | none => false
  | some n => decide (8 ≤ c.spared.length + (if c.sweep.isSome then 1 else 0)) && decide (8 ≤ (c.eras.filter (fun e => e % 2 == n % 2)).length)

/-- RETIRE_THRESHOLD (R451): the rows of the table from 0; the unit is the slice, core, tower, channel (lane), channel group, seam
channel or port that the row names. Below the row's count nothing happens. Log 206 (DESIGN CHOICE). -/
def execRetireThreshold (unit idx : Nat) (s : State) : Answer :=
  onUnit (decide (unit ≤ 11) && decide (idx < [32, 32, 32, 8, 16, 256, 128, 128, 128, 128, 192, 36].getD unit 0)) (
    let n := (s.faultsOf unit idx).length
    let kinds := (((s.faultsOf unit idx).map (·.2)).eraseDups).length
    let slice := fun (s : State) (k r : Nat) => if s.capState 1 k = 2 then s else s.retireSlice k r
    let group := fun (s : State) (g r : Nat) => if s.capState 2 (2 * g) = 2 then s else s.retireGroup g r
    if unit = 0 then (if 2 ≤ n then slice s idx 1 else s)
    else if unit = 1 then (if 4 ≤ kinds then slice s idx 2 else s)
    else if unit = 2 then (if 3 ≤ n then slice s idx 3 else s)
    else if unit = 3 then (if 3 ≤ n then (List.range 4).foldl (fun s k => slice s (4 * idx + k) 3) s else s)
    else if unit = 4 then
      if 4 ≤ n then (List.range 8).foldl (fun s k => group s (8 * idx + k) 3) s
      else if n = 3 ∧ s.levelNow < 5 then s.startLevel 5 2 idx 0 0 true else s
    else if unit = 5 then (match s.weakLane idx with
      | some l => (s.sweepStart idx l).laneStarted idx l
      | none => s)
    else if unit = 6 then (if s.noSpare (2 * idx) || s.noSpare (2 * idx + 1) then group s idx 5 else s)
    else if unit = 7 then group s idx 6
    else if unit = 8 then (if 16 ≤ kinds then group s idx 2 else s)
    else if unit = 9 then
      (if s.get (memcPg (2 * idx)) MEMC_LANE_STAT_IN_SERVICE = 0 ∨ s.get (memcPg (2 * idx + 1)) MEMC_LANE_STAT_IN_SERVICE = 0 then group s idx 4 else s)
    else if unit = 10 then (if 1000 ≤ n then s.recordRetired 4 idx 7 else s)
    else if 3 ≤ n ∧ s.capState 3 idx ≠ 2 then s.retirePort idx 8 else s)

end Sys2Proof.Machine
end

