-- ==== Sys2Proof/Machine/Management.lean ====
section
/-! DEFINITION. The management complex (R461-R477): mailbox and staging sessions, the sideband's alarm registers, changes of mode, the
work of an epoch. -/

namespace Sys2Proof.Machine

open Sys2Proof

/-! ### The mailbox (R471, R472) -/

/-- CAPT_STAT (R230): READY, and DEGRADED while some entry is RETIRED or NOT_IN_SERVICE. -/
def State.captStat (s : State) : Nat := (if s.ready then 1 else 0) + (if s.capt.any (fun e => e.2 == 2 || e.2 == 4) then 2 else 0)

/-- SB_CYCLE_CAUSE (R475): the recorded cause; the count of requests in the last hour, which nothing that outlives a power cycle
keeps (R506), is open once there has been one. Log 218 (DESIGN CHOICE). -/
def State.cycleCause (s : State) : Nat × State :=
  if s.flash.cause = 0 then (0, s) else let (d, s) := s.draw; (s.flash.cause % 256 + Config.free d % 256 * 256, s)

/-- Words of a register page from `lo`, `n` of them, as bytes. -/
def State.pageBytes (s : State) (lo n : Nat) : Bytes := (List.range n).flatMap (fun i => leBytes 4 (s.rd (lo + 4 * i)))

/-- Put bytes into a page's buffer of 1,024 B. -/
def State.putBytes (s : State) (lo : Nat) (b : Bytes) : State :=
  (List.range 256).foldl (fun s i => s.wr (lo + 4 * i) (leAt b (4 * i) 4)) s

/-- Whether a mailbox is waiting for its response: source 0 the tray controller, 1 the physical function. -/
def State.mbxBusy (s : State) (src : Nat) : Bool := if src = 0 then s.mgmt.sbBusy else s.on mgmtPg MGMT_MBX_CTL_BUSY

/-- Whether a mailbox can be reached: the sideband target answers while power is good and no module reset holds (R474).
Log 226 (DESIGN CHOICE). -/
def State.mbxReached (s : State) (src : Nat) : Bool := s.running && (src == 0 || s.ready)

/-- The request that a mailbox holds. -/
def State.mbxReq (s : State) (src : Nat) : Bytes := if src = 0 then s.mgmt.sbReq else s.pageBytes (mgmtPg + MGMT_REQ) 256

/-- Put a request into a mailbox. -/
def State.mbxPut (s : State) (src : Nat) (b : Bytes) : State :=
  if src = 0 then { s with mgmt := { s.mgmt with sbReq := sliceBytes b 0 1024 } } else s.putBytes (mgmtPg + MGMT_REQ) b

/-- BUSY and DONE of a mailbox. -/
def State.mbxFlags (s : State) (src : Nat) (busy done : Bool) : State :=
  if src = 0 then { s with mgmt := { s.mgmt with sbBusy := busy, sbDone := done } }
  else (s.mark mgmtPg MGMT_MBX_CTL_BUSY busy).mark mgmtPg MGMT_MBX_CTL_DONE done

/-- The response stands: STATUS (0 OK, 1 BUSY, 2 BAD_REQUEST, 3 REFUSED, 4 NOT_ALLOWED), LEN, TAG, payload. Log 215 (DESIGN CHOICE). -/
def State.respond (s : State) (src status tag : Nat) (payload : Bytes) : State :=
  let b := leBytes 1 status ++ leBytes 1 0 ++ leBytes 2 payload.length ++ leBytes 4 tag ++ payload
  let s := if src = 0 then { s with mgmt := { s.mgmt with sbRsp := sliceBytes b 0 1024 } } else s.putBytes (mgmtPg + MGMT_RSP) b
  s.mbxFlags src false true

/-! ### Staging sessions (R418, R473) -/

/-- The bank that is not running. -/
def State.otherBank (s : State) : Nat := 1 - s.get secPg SEC_FW_CTL_BANK

/-- Erase what a session has written. Log 216 (DESIGN CHOICE). -/
def State.eraseStaged (s : State) (stage : Nat) : State :=
  let st := s.get secPg SEC_FW_CTL_STAGED
  let s := { s with flash := { s.flash with
    images := Tab.put {} (stage * 2 + s.otherBank) { good := false } s.flash.images, staged := Tab.put {} stage {} s.flash.staged } }
  s.set secPg SEC_FW_CTL_STAGED (putBit st (stage - 1) false)

/-- A session ends; UPDATING clears. -/
def State.sessionEnd (s : State) : State :=
  { s.set secPg SEC_FW_CTL_UPDATING 0 with mgmt := { s.mgmt with session := none, sessionData := [] } }

/-- FW_BEGIN. Log 216 (DESIGN CHOICE). -/
def State.fwBegin (s : State) (src tag stage size : Nat) : State :=
  if stage = 0 ∨ 3 < stage ∨ size = 0 ∨ 8 * 2 ^ 20 < size then s.respond src 2 tag []
  else if s.mgmt.session.any (fun e => e.1 != src) then s.respond src 1 tag []
  else
    let s := match s.mgmt.session with
      | some (_, old, _) => s.eraseStaged old
      | none => s
    let s := { s with mgmt := { s.mgmt with session := some (src, stage, size), sessionData := [] } }
    ((s.eraseStaged stage).set secPg SEC_FW_CTL_UPDATING 1).respond src 0 tag []

/-- FW_DATA. Log 216 (DESIGN CHOICE). -/
def State.fwData (s : State) (src tag off : Nat) (data : Bytes) : State :=
  match s.mgmt.session with
  | none => s.respond src 3 tag []
  | some (owner, _, size) =>
    if owner ≠ src then s.respond src 3 tag []
    else if size < off + data.length ∨ 1008 < data.length then s.respond src 2 tag []
    else ({ s with mgmt := { s.mgmt with sessionData := Memory.write s.mgmt.sessionData off data } }).respond src 0 tag []

/-- FW_END: the image is verified by R379 and staged, or erased. Log 216 (DESIGN CHOICE). -/
def State.fwEnd (s : State) (src tag : Nat) : State :=
  match s.mgmt.session with
  | none => s.respond src 3 tag []
  | some (owner, stage, size) =>
    if owner ≠ src then s.respond src 3 tag []
    else
      let b := Memory.read s.mgmt.sessionData 0 size
      let img : Image := { good := Config.imageSigned b, svn := Config.imageSvn b, digest := some (sha384 b) }
      let bank := s.otherBank
      let s := s.sessionEnd
      if s.imageOk img = false then (s.eraseStaged stage).respond src 3 tag []
      else
        let s := { s with flash := { s.flash with
          images := Tab.put {} (stage * 2 + bank) img s.flash.images, staged := Tab.put {} stage img s.flash.staged, next := bank } }
        let s := s.set secPg SEC_FW_CTL_STAGED (putBit (s.get secPg SEC_FW_CTL_STAGED) (stage - 1) true)
        let s := s.event0 0x33 (leBytes 1 stage ++ leBytes 1 bank ++ leBytes 2 0 ++ leBytes 4 img.svn)
        s.respond src 0 tag (leBytes 48 (img.digest.getD 0))

/-- FW_SESSION_TIMEOUT (R473): a session idle for 10 s ends and its partial image is erased. -/
def execFwSessionTimeout (s : State) : Answer := .next (
  match s.mgmt.session with
  | none => s
  | some (_, stage, _) => s.sessionEnd.eraseStaged stage)

/-- Erase a unit's retirement record (R452, R473): both channels of a group. Log 217 (DESIGN CHOICE). -/
def State.retireClear (s : State) (typ idx : Nat) : State :=
  { s with flash := { s.flash with retired := s.flash.retired.filter (fun e =>
    !(e.1 == typ && (e.2.1 == idx || (typ == 2 && e.2.1 / 2 == idx / 2)))) } }

/-! ### The operations (R472) -/

/-- GET_STATUS. -/
def State.getStatus (s : State) (src tag : Nat) : State :=
  let (c, s) := s.cycleCause
  s.respond src 0 tag (leBytes 1 (s.get mgmtPg MGMT_PHASE_PHASE) ++ leBytes 4 s.captStat ++ leBytes 4 (s.rd (pwrPg + PWR_STAT)) ++
    leBytes 4 (s.rd (thmPg + THM_STAT)) ++ leBytes 4 (s.rd (pwrPg + PWR_NOW)) ++ leBytes 4 (s.rd (rcvPg + GLB_RCV_STAT)) ++ leBytes 4 c)

/-- READ_TELEMETRY: the registers in the order that the operation lists. -/
def State.readTelemetry (s : State) (src tag : Nat) : State :=
  s.respond src 0 tag (s.pageBytes (thmPg + THM_JUNC) 2 ++ s.pageBytes (thmPg + THM_ISL) 32 ++ s.pageBytes (thmPg + THM_BASE) 4 ++
    s.pageBytes (thmPg + THM_STAGE) 1 ++ s.pageBytes (pwrPg + PWR_INPUT) 1 ++ s.pageBytes (pwrPg + PWR_ENERGY) 2 ++ s.pageBytes (pwrPg + PWR_AVG) 1)

/-- SET_CAP: values outside their ranges act as the nearer limit. -/
def State.setTrayCap (s : State) (src tag watts window : Nat) : State :=
  ({ s with power := { s.power with trayCap := clampTo 600 2000 watts, trayWin := clampTo 1 60 window } }).respond src 0 tag []

/-- A mailbox request is collected for the epoch boundary (R468). -/
def State.mbxCollect (s : State) (src kind a b tag : Nat) : State :=
  { s with mgmt := { s.mgmt with collected := s.mgmt.collected ++ [{ src := src, kind := kind, a := a, b := b, tag := tag }] } }

/-- Whether a request's LEN is what its operation takes. -/
def lenOk (op n : Nat) : Bool :=
  if op = 2 then n == 3 else if op = 4 then n == 5 else if op = 5 then decide (4 ≤ n) && decide (n ≤ 1012) else if op = 7 then n == 3 else n == 0

/-- Run the request that a mailbox holds: a source that the operation does not permit is answered NOT_ALLOWED; staging sessions,
retirement clearing and resets are collected. Log 215 (DESIGN CHOICE). -/
def State.mbxRun (s : State) (src : Nat) : State :=
  let b := s.mbxReq src
  let op := leAt b 0 1
  let n := leAt b 2 2
  let tag := leAt b 4 4
  let d := sliceBytes b 8 n
  if op = 0 ∨ 8 < op then s.respond src 2 tag []
  else if src ≠ 0 ∧ (op = 2 ∨ op = 8) then s.respond src 4 tag []
  else if lenOk op n = false then s.respond src 2 tag []
  else if op = 1 then s.getStatus src tag
  else if op = 2 then s.setTrayCap src tag (leAt d 0 2) (leAt d 2 1)
  else if op = 3 then s.readTelemetry src tag
  else if op = 4 then s.mbxCollect src 4 (leAt d 0 1) (leAt d 1 4) tag
  else if op = 5 then s.fwData src tag (leAt d 0 4) (d.drop 4)
  else if op = 6 then s.fwEnd src tag
  else if op = 7 then s.mbxCollect src 2 (leAt d 0 1) (leAt d 1 2) tag
  else s.mbxCollect src 3 5 0 tag

/-- GO: ignored while BUSY; answered BUSY while Skeldor does not run. -/
def State.mbxGo (s : State) (src : Nat) : State :=
  if s.mbxBusy src then s
  else
    let s := s.mbxFlags src true false
    if s.ready then s.mbxRun src else s.respond src 1 (leAt (s.mbxReq src) 4 4) []

/-- A mailbox request: its bytes are put into the mailbox of its source and GO is set. Log 215 (DESIGN CHOICE). -/
def State.mbxRow (s : State) (src op : Nat) (tag : Word) (payload : Bytes) : State :=
  if s.mbxReached src = false ∨ s.mbxBusy src then s
  else (s.mbxPut src (leBytes 1 op ++ leBytes 1 0 ++ leBytes 2 payload.length ++ leBytes 4 tag.toNat ++ payload)).mbxGo src

/-- GET_STATUS (R472). -/
def execGetStatus (src : Nat) (tag : Word) (s : State) : Answer := onUnit (decide (src ≤ 1)) (s.mbxRow src 1 tag [])

/-- SET_CAP (R472). -/
def execSetCap (src : Nat) (tag : Word) (watts window : Nat) (s : State) : Answer :=
  onUnit (decide (src ≤ 1) && decide (watts < 2 ^ 16) && decide (window < 2 ^ 8)) (s.mbxRow src 2 tag (leBytes 2 watts ++ leBytes 1 window))

/-- READ_TELEMETRY (R472). -/
def execReadTelemetry (src : Nat) (tag : Word) (s : State) : Answer := onUnit (decide (src ≤ 1)) (s.mbxRow src 3 tag [])

/-- FW_BEGIN (R473). -/
def execFwBegin (src : Nat) (tag : Word) (stage size : Nat) (s : State) : Answer :=
  onUnit (decide (src ≤ 1) && decide (stage < 2 ^ 8) && decide (size < 2 ^ 32)) (s.mbxRow src 4 tag (leBytes 1 stage ++ leBytes 4 size))

/-- FW_DATA (R472). -/
def execFwData (src : Nat) (tag : Word) (off : Nat) (data : Bytes) (s : State) : Answer :=
  onUnit (decide (src ≤ 1) && decide (off < 2 ^ 32) && decide (data.length ≤ 1012)) (s.mbxRow src 5 tag (leBytes 4 off ++ data))

/-- FW_END (R473). -/
def execFwEnd (src : Nat) (tag : Word) (s : State) : Answer := onUnit (decide (src ≤ 1)) (s.mbxRow src 6 tag [])

/-- RETIRE_CLEAR (R473). -/
def execRetireClear (src : Nat) (tag : Word) (type idx : Nat) (s : State) : Answer :=
  onUnit (decide (src ≤ 1) && decide (type < 2 ^ 8) && decide (idx < 2 ^ 16)) (s.mbxRow src 7 tag (leBytes 1 type ++ leBytes 2 idx))

/-- DEVICE_RESET (R472). Log 223 (DESIGN CHOICE). -/
def execDeviceReset (src : Nat) (tag : Word) (s : State) : Answer := onUnit (decide (src ≤ 1)) (s.mbxRow src 8 tag [])

/-! ### Alarms over the sideband (R475, R477) -/

/-- Alarm bits whose cause holds. Log 220 (DESIGN CHOICE). -/
def State.alarmHolds (s : State) : Nat :=
  let b := fun (i : Nat) (c : Bool) => if c then 2 ^ i else 0
  b 0 s.hardThermal + b 1 s.therm.tripped +
    b 3 (s.power.bad || !s.therm.faulty.isEmpty || (List.range 16).any (fun t => s.get (Pg.base .memt t) MEMT_REFRESH_SENSOR_FAULT != 0)) +
    b 4 (s.on pwrPg PWR_STAT_INPUT_LOW) + b 5 (s.on pwrPg PWR_STAT_DIVERGE) + b 6 s.pins.stuck + b 9 (!s.pins.cycleN) +
    b 10 (s.get mgmtPg MGMT_PHASE_PHASE == 5) + b 11 (s.on secPg SEC_FW_CTL_FALLBACK) +
    b 12 ((List.range 36).any (fun p => s.portState p == 4)) + b 13 (decide (64 ≤ s.mgmt.wdog))

/-- Store the alarm bits with their mirror. Log 220 (DESIGN CHOICE). -/
def State.putAlarm (s : State) (v : Nat) : State :=
  (({ s with mgmt := { s.mgmt with alarm := v } }).wr (mgmtPg + MGMT_ALARM) v).alertPin

/-- SB_ALARM_CLEAR (R475, R477): bits written as 1 clear, and are set again while their cause holds. Log 226 (DESIGN CHOICE). -/
def execSbAlarmClear (value : Word) (s : State) : Answer := .next (
  if s.mbxReached 0 = false then s
  else s.putAlarm ((s.mgmt.alarm &&& (2 ^ 32 - 1 - value.toNat)) ||| (s.mgmt.alarm &&& s.alarmHolds)))

/-- SB_ALARM_MASK_WRITE (R477). -/
def execSbAlarmMaskWrite (value : Word) (s : State) : Answer := .next (
  if s.mbxReached 0 = false then s else ({ s with mgmt := { s.mgmt with alarmMask := value.toNat } }).alertPin)

/-! ### Modes (R464, R465) -/

/-- PENDING follows the modes asked for. Log 212 (DESIGN CHOICE). -/
def State.modePending (s : State) : State :=
  s.set spltPg SPLT_MODE_STAT_PENDING (s.get spltPg SPLT_MODE_CTL_HOST ^^^ s.get spltPg SPLT_MODE_STAT_EFFECTIVE)

/-- Modes that change at this boundary: the change of recovery waits while a level is in progress, unless that level only waits for
approval. Log 219 (DESIGN CHOICE). -/
def State.modeChanges (s : State) : Nat :=
  let c := s.get spltPg SPLT_MODE_CTL_HOST ^^^ s.get spltPg SPLT_MODE_STAT_EFFECTIVE
  if bitOf c 3 ∧ s.levelNow ≠ 0 ∧ s.on rcvPg GLB_RCV_STAT_WAIT_APPROVAL = false then putBit c 3 false else c

/-- What a change does to work in progress (R464). Log 212 (DESIGN CHOICE). -/
def State.modeEffects (s : State) (c : Nat) : State :=
  let s := if bitOf c 0 ∧ s.hostMode 0 then s.transDrop else s
  let s := if bitOf c 1 then s.schedModeChange else s
  let s := if bitOf c 3 ∧ s.hostMode 3 = false ∧ s.on rcvPg GLB_RCV_STAT_WAIT_APPROVAL then
      s.runLevel s.levelNow (s.get rcvPg GLB_RCV_STAT_PARTITION) else s
  let s := if (bitOf c 2 ∨ bitOf c 4) ∧ (s.hostMode 2 ∨ s.hostMode 4) ∧ s.on pwrPg PWR_STAT_STRAG_SHIFT then s.stragglerState false else s
  if bitOf c 5 then
    let s := { s with routes := s.routes.map (fun (e : Nat × Route) => (e.1, { e.2 with learned := false })) }
    if s.hostMode 5 then s
    else (((s.routes.filter (fun (e : Nat × Route) => !e.2.valid)).map (·.1)).foldl (fun s d => s.learn d) s).advertise (s.routes.map (·.1))
  else s

/-- Modes written in the epoch take effect: MODE_APPLIED, SPLT_CHG_CNT. Log 219 (DESIGN CHOICE). -/
def State.epochModes (s : State) : State :=
  let c := s.modeChanges
  if c = 0 then s
  else
    let s := (s.set spltPg SPLT_MODE_STAT_EFFECTIVE (s.get spltPg SPLT_MODE_STAT_EFFECTIVE ^^^ c)).modePending
    let s := s.modeEffects c
    let s := s.event0 0x51 (leBytes 1 (s.get spltPg SPLT_MODE_STAT_EFFECTIVE) ++ leBytes 1 c)
    s.bump (spltPg + SPLT_CHG_CNT) 1

/-! ### Beacons at the boundary (R429-R431) -/

/-- Whether an engine had work: the queues of the memory controllers are not part of the state, so theirs is open; an engine with a halted
island has none (R528). Log 221 (DESIGN CHOICE). -/
def State.hasWork (s : State) (kind idx : Nat) : Bool × State :=
  if kind = 0 then
    let x := s.atSlice idx
    let waits : Bool := match s.sliceCmd idx with
      | some c => !(s.reqsOf c.q c.seq).isEmpty
      | none => true
    (x.tile.isSome && !x.stopped && !waits && !(List.range 4).any (fun k => s.halted.contains (sliceIsland idx k)), s)
  else if kind = 1 then
    let c := s.atCore idx
    (!s.halted.contains (128 + idx) && (c.movers.any (fun e => !e.2.isEmpty) || !c.merge.isEmpty), s)
  else if kind = 2 then let (d, s) := s.draw; (!s.halted.contains (136 + idx) && Config.free d % 2 == 1, s)
  else (s.tails.any (fun e => s.mayFetch e.1) || s.heads.any (fun e => e.2.isSome && !s.on (quePg e.1) QUE_STAT_HELD), s)

/-- One more epoch for a beacon. Log 221 (DESIGN CHOICE). -/
def State.beaconEpoch (s : State) (kind idx : Nat) : State :=
  let (w, s) := s.hasWork kind idx
  { s with beacons := Tab.upd {} s.beacons (scopeKey kind idx) (fun b => { moved := false, stale := if b.moved || !w then 0 else b.stale + 1 }) }

/-- Every beacon. Log 221 (DESIGN CHOICE). -/
def State.epochBeacons (s : State) : State :=
  (List.range 4).foldl (fun s k => (List.range (engineCount k)).foldl (fun s i => s.beaconEpoch k i) s) s

/-! ### The epoch (R462, R463, R468, R469) -/

/-- A collected request is served. -/
def State.serveOne (s : State) (r : Collected) : State :=
  if r.kind = 0 then ({ s with mgmt := { s.mgmt with served := r.a :: s.mgmt.served } }).rebindStart r.a r.b
  else if r.kind = 1 then s.serveRetire r.a r.b
  else if r.kind = 2 then (if r.b < [0, 32, 256, 36, 192].getD r.a 0 then (s.retireClear r.a r.b).respond r.src 0 r.tag [] else s.respond r.src 2 r.tag [])
  else if r.kind = 3 then (if r.src = 0 then s.respond 0 0 r.tag [] else s).serveReset r.a r.b
  else s.fwBegin r.src r.tag r.a r.b

/-- Collected requests in the order of their sources, then of arrival. A power-cycle request ends the work. -/
def State.serveCollected (s : State) : State :=
  let l := s.mgmt.collected
  let s := { s with mgmt := { s.mgmt with collected := [], served := [] } }
  ([0, 1, 2].flatMap (fun k => l.filter (fun r => r.src == k))).foldl (fun s r => if s.ready then s.serveOne r else s) s

/-! ### Rebalances that Skeldor starts (R252) -/

/-- Normal and bulk stalls and issues of every partition at every channel so far. -/
def State.stallsNow (s : State) : Tab Nat :=
  ((s.regls.filter (fun (e : Nat × Regl) => decide (e.1 < 256))).flatMap (fun (e : Nat × Regl) => (List.range 32).flatMap (fun p =>
    [(e.1 * 64 + p * 2, Tab.get 0 e.2.stalls (p * 3 + 1) + Tab.get 0 e.2.stalls (p * 3 + 2)),
     (e.1 * 64 + p * 2 + 1, (Tab.get 0 e.2.bytes (p * 3 + 1) + Tab.get 0 e.2.bytes (p * 3 + 2)) / 256)]))).filter (fun (e : Nat × Nat) => e.2 != 0)

/-- A count of a partition at a channel over the last 256 epochs: 0 the stalls, 1 the issues. -/
def State.stallsOf (s : State) (p c what : Nat) : Nat :=
  let at_ := fun (t : Tab Nat) => Tab.get 0 t (c * 64 + p * 2 + what)
  at_ (s.mgmt.stallHist.headD []) - at_ (s.mgmt.stallHist.getD 256 [])

/-- Stalls of a partition at a region's channels over the last 256 epochs, and their number. Log 127 (DESIGN CHOICE). -/
def State.stallFigure (s : State) (p r : Nat) : Nat × Nat := (((s.regChans r).map (fun c => s.stallsOf p c 0)).sum, max 1 (s.regChans r).length)

/-- The region of a partition with the highest stall figure, that is neither the target nor the configuration or save region.
Log 127 (DESIGN CHOICE). -/
def State.stallWorst (s : State) (p dst : Nat) : Option Nat :=
  let pg := partPg p
  let rs := (List.range 64).filter (fun r => s.regValid r && s.regPart r == p && r != dst && r != s.get pg PART_CFG_REGION_REGION &&
    !(s.on pg PART_SAVE_REGION_VALID && s.get pg PART_SAVE_REGION_REGION == r))
  rs.foldl (fun (best : Option Nat) r => match best with
    | none => some r
    | some b => if (s.stallFigure p b).1 * (s.stallFigure p r).2 < (s.stallFigure p r).1 * (s.stallFigure p b).2 then some r else some b) none

/-- Whether a rebalance from `src` into the offered `dst` is worth its while, and may start. -/
def State.offerTaken (s : State) (p src dst : Nat) : Bool :=
  let pg := partPg p
  let a := s.stallFigure p src
  let b := s.stallFigure p dst
  let seen := ((s.regChans src).map (fun c => s.stallsOf p c 0 + s.stallsOf p c 1)).sum
  decide (max 1 (s.get pg PART_REBAL_OFFER_RATIO) * b.1 * a.2 ≤ a.1 * b.2) && decide (seen ≤ 4 * a.1) && decide (0 < seen) &&
    !s.on pg PART_REBIND_CTL_BUSY && !s.mgmt.served.contains p && s.opAllowed p 4 && s.rebalRule p src dst 0 == 0

/-- An offer of PART_REBAL_OFFER is examined. Log 127 (DESIGN CHOICE). -/
def State.rebalOffer (s : State) (p : Nat) : State :=
  let pg := partPg p
  let dst := s.get pg PART_REBAL_OFFER_TARGET
  if s.on pg PART_REBAL_OFFER_VALID = false then s
  else match s.stallWorst p dst with
    | none => s
    | some src =>
      if s.offerTaken p src dst then
        (((s.set pg PART_REBAL_SRC src).set pg PART_REBAL_DST dst).set pg PART_REBAL_OFFER_VALID 0).rebindStart p 4
      else s

/-- Step 7: the counts of this boundary are kept; in hardware mode of memory rebalancing every offer is examined. -/
def State.epochOffers (s : State) : State :=
  let s := { s with mgmt := { s.mgmt with stallHist := (s.stallsNow :: s.mgmt.stallHist).take 257 } }
  if s.hostMode 6 then s else (List.range 32).foldl (fun s p => s.rebalOffer p) s

/-- The steps of the epoch's work, in order; what else steps 6 to 8 do has commands of its own. Log 222 (DESIGN CHOICE). -/
def State.epochStep (s : State) (n : Nat) : State :=
  if n = 1 then (List.range 16).foldl (fun s t => s.epochTower t) s.epochBeacons.epochMeasure
  else if n = 2 then s.serveCollected
  else if n = 3 then s.epochModes.epochProfile
  else if n = 4 then s.epochAllow.epochSteady
  else if n = 5 then s.epochThermal.epochGuard.epochStragglers.epochFilling.epochAllow
  else if n = 7 then s.epochOffers
  else if n = 8 then { s with mgmt := { s.mgmt with wdog := 0 } }
  else s

/-- EPOCH_BOUNDARY (R462, R463): the clock stands at the next multiple of 41,667 counts; the first `steps` of the eight steps of the work complete
before the following boundary and the rest are dropped, which is counted. Log 222 (DESIGN CHOICE). -/
def execEpochBoundary (steps : Nat) (s : State) : Answer :=
  onUnit (decide (steps ≤ 8)) (
    if s.ready = false then s
    else
      let s := { s with mclk := (s.mclk / 41667 + 1) * 41667, mgmt := { s.mgmt with wdog := s.mgmt.wdog + 1 } }
      let s := s.bump64 (mgmtPg + MGMT_EPOCH) 1
      let s := if steps < 8 then s.bump (mgmtPg + MGMT_EPOCH_OVR) 1 else s
      ((List.range 8).filter (fun i => decide (i < steps))).foldl (fun s i => if s.ready then s.epochStep (i + 1) else s) s)

end Sys2Proof.Machine
end

