-- ==== Sys2Proof/Machine/Pins.lean ====
section
/-! DEFINITION. Pins, power stages and the PCI Express link (R478-R483, R490, R498-R501). -/

namespace Sys2Proof.Machine

open Sys2Proof

/-! ### Power (R478, R482, R499-R501, R505) -/

/-- The stages run: DEV_PGOOD rises, and bring-up goes on from step 3 unless DEV_RESET_N holds the die assembly. Below 48.0 V, or at the
high stop threshold, they do not start. Log 224 (DESIGN CHOICE). -/
def State.stagesOn (s : State) (mv : Nat) (train : TrainIn) : State :=
  let s := { s with pins := { s.pins with pwrEn := true, heldOn := false } }
  if mv < 48000 ∨ 60500 ≤ mv then s
  else
    let s := { s with pins := { s.pins with pgood := true } }
    if s.pins.resetN then s.bringUp train else s

/-- MOD_PWR_EN_ASSERT (R478): within 500 ms of the stages' last stop the assertion is held. Log 224 (DESIGN CHOICE). -/
def execModPwrEnAssert (mv : Nat) (train : TrainIn) (s : State) : Answer := .next (
  if s.pins.pwrEn then s
  else if s.pins.offTimer then { s with pins := { s.pins with pwrEn := true, heldOn := true } }
  else s.stagesOn mv train)

/-- MOD_PWR_EN_REMOVE (R478, R481, R505): power goes, the outputs of the stage controller clear; the minimum off time starts, unless the stages had stopped
before and it runs already. -/
def execModPwrEnRemove (s : State) : Answer := .next (
  if s.pins.pwrEn = false then s
  else
    let timer := if s.pins.stopLatch then s.pins.offTimer else true
    let t := s.powerLost
    { t with pins := { resetN := t.pins.resetN, perstN := t.pins.perstN, offTimer := timer } })

/-- PWR_OFF_TIME_EXPIRE (R478). -/
def execPwrOffTimeExpire (mv : Nat) (train : TrainIn) (s : State) : Answer := .next (
  let s := { s with pins := { s.pins with offTimer := false } }
  if s.pins.heldOn then s.stagesOn mv train else s)

/-- STAGE_STOP (R499, R501): the input is at or below 46.0 V, or at or above 60.5 V. Log 224 (DESIGN CHOICE). -/
def execStageStop (mv : Nat) (s : State) : Answer := .next (
  if s.pins.pgood = false ∨ (46000 < mv ∧ mv < 60500) then s
  else
    let t := s.powerLost
    { t with pins := { t.pins with stopLatch := true, offTimer := true, pgood := false } })

/-- RAIL_FAULT (R481): DEV_PGOOD falls. Log 225 (DESIGN CHOICE). -/
def execRailFault (s : State) : Answer := .next { s with pins := { s.pins with pgood := false } }

/-- OSCILLATOR_STOP (R498): the die assembly is held in reset and DEV_CYCLE_REQ_N is asserted. Log 225 (DESIGN CHOICE). -/
def execOscillatorStop (s : State) : Answer := .next (
  if s.pins.pgood = false then s
  else let t := s.dieReset; { t with pins := { t.pins with oscStopped := true, cycleN := false } })

/-! ### Resets (R478, R483) -/

/-- DEV_RESET_N_ASSERT (R478): the module reset. -/
def execDevResetNAssert (s : State) : Answer := .next (
  let s := { s with pins := { s.pins with resetN := false } }
  if s.pins.pgood then s.dieReset else s)

/-- DEV_RESET_N_RELEASE (R478, R482): bring-up from step 4, unless power is off or a power cycle has been asked for. -/
def execDevResetNRelease (train : TrainIn) (s : State) : Answer := .next (
  if s.pins.resetN then s
  else
    let s := { s with pins := { s.pins with resetN := true } }
    if s.pins.pgood ∧ s.pins.oscStopped = false ∧ s.pins.cycleN then s.bringUp train else s)

/-- The PCI Express island is reset: its page, the MSI-X tables, address translation and IDE streams; the link is down. -/
def State.pciReset (s : State) : State :=
  let s := s.capTouch
  { s with regs := Tab.clear (Tab.clear s.regs pciPg (pciPg + 0x1000)) (dlogPg 0) (dlogPg 256), vecs := [], atsOn := [],
           xreq := [], inval := [], sec := { s.sec with ide := [] }, pins := { s.pins with linkUp := false } }

/-- PERST_N_ASSERT (R478): a device-level reset starts with cause 2, which its command completes; the link is down.
Log 223 (DESIGN CHOICE). -/
def execPerstNAssert (s : State) : Answer := .next (
  let s := { s with pins := { s.pins with perstN := false } }
  if s.pins.pgood = false then s
  else
    let s := if s.ready ∧ s.levelNow < 5 then s.startLevel 5 4 0 0 0 false else s
    s.pciReset)

/-- PERST_N_RELEASE (R483): link training may start. -/
def execPerstNRelease (s : State) : Answer := .next { s with pins := { s.pins with perstN := true } }

/-- PCIE_LINK_UP (R483, R492): training completes at generation 4 to 7 and a width of 16, 8, 4, 2 or 1 lanes. -/
def execPcieLinkUp (gen width : Nat) (s : State) : Answer :=
  onUnit (decide (4 ≤ gen) && decide (gen ≤ 7) && [1, 2, 4, 8, 16].contains width) (
    if s.running = false ∨ s.pins.perstN = false then s
    else
      let s := ((s.set pciPg PCI_LINK_STAT_GEN gen).set pciPg PCI_LINK_STAT_WIDTH width).set pciPg PCI_LINK_STAT_LINK_UP 1
      ({ s with pins := { s.pins with linkUp := true } }).capTouch)

/-! ### DEV_THROTTLE_N (R479) -/

/-- The clocks follow the input while the die assembly runs. -/
def State.clocksOn (s : State) : State := if s.running then s.clocks else s

/-- DEV_THROTTLE_N_ASSERT: an assertion of 1 µs or more is honoured; toggling faster than 10 kHz puts the input in continuous assertion (R479). -/
def execDevThrottleNAssert (usTenths : Nat) (toggling : Bool) (s : State) : Answer := .next (
  if usTenths < 10 ∧ toggling = false then s
  else ({ s with pins := { s.pins with throttle := true, throttleCont := s.pins.throttleCont || toggling } }).clocksOn)

/-- DEV_THROTTLE_N_RELEASE: the input has been high for 1 ms. A stuck alarm clears (R479). -/
def execDevThrottleNRelease (s : State) : Answer := .next (
  let stuck := s.pins.stuck
  let s := { s with pins := { s.pins with throttle := false, throttleCont := false, stuck := false } }
  let s := if stuck then (s.putAlarm (putBit s.mgmt.alarm 6 false)).event0 0x50 (leBytes 1 1 ++ leBytes 1 0) else s
  s.clocksOn)

/-- INPUT_STUCK: the assertion has lasted more than 60 s; it is still honoured (R479). -/
def execInputStuck (s : State) : Answer := .next (
  if s.pins.throttle = false ∨ s.pins.stuck then s
  else (({ s with pins := { s.pins with stuck := true } }).alarm 6).event0 0x50 (leBytes 1 1 ++ leBytes 1 1))

end Sys2Proof.Machine
end

