-- ==== Sys2Proof/Machine/Debug.lean ====
section
/-! DEFINITION. The BAR2 window (R403, R513) and debug accesses (R404, R528, R529). -/

namespace Sys2Proof.Machine

open Sys2Proof

/-! ### Protected state (R402) -/

/-- Whether a DPA lies in protected state: a region of a protected partition, a configuration region or a save region.
Log 194 (DESIGN CHOICE). -/
def State.dpaProtected (s : State) (dpa : Nat) : Bool := match s.regionOf dpa with
  | none => false
  | some r =>
    let p := s.regPart r
    s.isProtected p || s.cfgNamed p r || s.saveNamed p r

/-! ### BAR2 (R513) -/

/-- First DPA of an access. -/
def State.bar2Dpa (s : State) (off : Nat) : Nat := s.get glbPg GLB_BAR2_WIN_BASE * 2 ^ 30 + off

/-- The pieces of an access, one a line, as (DPA, bytes). -/
def linePieces : Nat → Nat → Nat → List (Nat × Nat)
  | 0, _, _ => []
  | k + 1, a, n => if n = 0 then [] else
    let m := min n (256 - a % 256)
    (a, m) :: linePieces k (a + m) (n - m)

/-- Partition whose rebalance stands between steps 5 and 7 on the region of a DPA. -/
def State.rebalancing (s : State) (dpa : Nat) : Option Nat := match s.regionOf dpa with
  | none => none
  | some r => (List.range 32).find? (fun p => let rb := s.atRebind p; decide (5 ≤ rb.sub) && (rb.src == r || rb.dst == r))

/-- Whether a line of an access is refused: outside the address space or every region, or on a retired channel. -/
def State.bar2Bad (s : State) (dpa : Nat) : Bool := decide (2 ^ 39 ≤ dpa) || (match s.place dpa with
  | none => true
  | some p => s.chanRetired p.chan)

/-- An access that is not performed: answers whether it is, with what is counted. Log 229 (DESIGN CHOICE). -/
def State.bar2Check (s : State) (l : List (Nat × Nat)) (read : Bool) : Bool × State :=
  let ur := fun (s : State) => s.bump (pciPg + PCI_UR_CNT) 1
  if s.ready = false then (false, ur s)
  else if l.any (fun e => s.dpaProtected e.1) then (false, if read then ur (s.bump (secPg + SEC_BAR2_BLOCK) 1) else s.bump (secPg + SEC_BAR2_BLOCK) 1)
  else match (l.filterMap (fun e => s.rebalancing e.1)).head? with
    | some p => (false, ur (s.bump (partPg p + PART_REBIND_IGN) 1))
    | none => if l.any (fun e => s.bar2Bad e.1) then (false, ur s) else (true, s)

/-- Read the pieces of an access under key index 0. -/
def State.bar2Lines (s : State) : List (Nat × Nat) → State × Option Bytes
  | [] => (s, some [])
  | e :: l => match s.place e.1 with
    | none => (s, none)
    | some p =>
      let (s, x) := if e.2 = 256 then s.lineRead p 0 e.1 else s.lineShort p 0 (match s.regionOf e.1 with
        | some r => s.regPart r
        | none => 0) e.1 e.2
      let (s, rest) := State.bar2Lines (s.beat 2 (p.chan / 16)) l
      match x, rest with
      | .data d, some b => (s, some (d ++ b))
      | _, _ => (s, none)

/-- BAR2_READ (R513). -/
def execBar2Read (off len : Nat) (s : State) : Answer :=
  onUnit (decide (0 < len) && decide (len ≤ 4096) && decide (off + len ≤ 2 ^ 36)) (
    let l := linePieces (len + 1) (s.bar2Dpa off) len
    match s.bar2Check l true with
    | (false, s) => s.emit (.unsupported 0)
    | (true, s) => match s.bar2Lines l with
      | (s, some b) => s.emit (.readData 0 b)
      | (s, none) => s.emit (.completerAbort 0))

/-- BAR2_WRITE (R513): each line is written whole or in part; a part that fails is dropped. Log 229 (DESIGN CHOICE). -/
def execBar2Write (off : Nat) (data : Bytes) (s : State) : Answer :=
  onUnit (decide (0 < data.length) && decide (data.length ≤ 4096) && decide (off + data.length ≤ 2 ^ 36)) (
    let a := s.bar2Dpa off
    let l := linePieces (data.length + 1) a data.length
    match s.bar2Check l false with
    | (false, s) => s
    | (true, s) => l.foldl (fun s e => match s.place e.1 with
      | none => s
      | some p =>
        let b := sliceBytes data (e.1 - a) e.2
        let s := s.beat 2 (p.chan / 16)
        if e.2 = 256 then s.lineWrite p 0 e.1 b
        else (s.lineModify p 0 (match s.regionOf e.1 with
          | some r => s.regPart r
          | none => 0) e.1 (fun d => (patchBytes d p.byte b, []))).1) s)

/-! ### Halting islands (R404, R528) -/

/-- Slices that an island serves. -/
def islandSlices (i : Nat) : List Nat :=
  if i < 128 then [islandSlice i] else if i < 136 then (List.range 4).map (· + 4 * (i - 128)) else []

/-- Whether an island holds state of a protected partition (R402). Log 228 (DESIGN CHOICE). -/
def State.islandClosed (s : State) (i : Nat) : Bool :=
  (islandSlices i).any s.crumbClosed ||
    (decide (136 ≤ i) && decide (i < 152) && (List.range 16).any (fun k => (s.chanParts (16 * (i - 136) + k)).any s.isProtected))

/-- Count a blocked debug access. -/
def State.dbgBlock (s : State) : State := s.bump (secPg + SEC_DBG_BLOCK) 1

/-- The result of a halt request; HALTED shows the selected island. -/
def State.haltResult (s : State) (i n : Nat) : State :=
  (s.set dbgPg DBG_HALT_RESULT n).mark dbgPg DBG_HALT_HALTED (s.halted.contains i)

/-- HALT of an island. -/
def State.islandHalt (s : State) (i : Nat) : State :=
  if s.on dbgPg DBG_TEST_CTL_TEST = false then s.haltResult i 2
  else if 152 ≤ i then s.haltResult i 3
  else if s.islandClosed i then (s.haltResult i 1).dbgBlock
  else (if s.halted.contains i then s else { s with halted := i :: s.halted }).haltResult i 0

/-- An island goes on, with the ramp of R86. -/
def State.restart (s : State) (i : Nat) : State :=
  if s.halted.contains i = false then s
  else
    let s := { s with halted := s.halted.filter (· != i) }
    if i < 128 then ({ s with power := { s.power with ramps := Tab.put {} i {} s.power.ramps } }).clock i else s

/-- RESUME of an island. -/
def State.islandResume (s : State) (i : Nat) : State := (s.restart i).haltResult i 0

/-- TEST set or cleared: cleared, every halted island goes on; the regulators change mode (R345). -/
def State.testMode (s : State) (on : Bool) : State :=
  let s := if on then s else s.halted.foldl (fun s i => s.restart i) s
  ((s.mark dbgPg DBG_TEST_CTL_TEST on).mark dbgPg DBG_HALT_HALTED (s.halted.contains (s.get dbgPg DBG_HALT_ISLAND))).reglMode

/-! ### Words of a target (R529) -/

/-- What a debug access finds. -/
inductive DbgRes where
  | range
  | blocked
  | word (v : Nat)
  deriving DecidableEq, Repr

/-- Cell of a compute island by UNIT, as row × 16 + column. -/
def dbgCell (i unit : Nat) : Nat := cellKey (i / 16) ((i % 16 / 4 * 16 + unit / 16) * 64 + i % 4 * 16 + unit % 16)

/-- Words of a space: registers are 32 vector registers of 16 words, 8 predicate registers of a word, 16 long accumulators of 11. -/
def dbgSize (space : Nat) : Nat := [8192, 696, 512, 32, 262144, 4096].getD space 0

/-- Whether a target names a space, unit and word that exist. Log 227 (DESIGN CHOICE). -/
def dbgRange (i unit space word : Nat) : Bool :=
  decide (word < dbgSize space) &&
    (if space ≤ 3 then decide (i < 128) && decide (unit < 256)
     else if space = 4 then decide (128 ≤ i) && decide (i < 136) && decide (unit < 32)
     else decide (136 ≤ i) && decide (i < 152) && decide (unit < 16))

/-- The share byte that a word of a shared-store bank starts at (R88, R89): a bank holds the four shares one after the other.
Log 227 (DESIGN CHOICE). -/
def bankAt (i unit word : Nat) : Nat := shareAt ((i - 128) * 4 + word / 65536) (32 * (word % 65536 / 64) + unit) + word % 64 * 4

/-- Whether a target is closed to debug accesses (R404). Log 228 (DESIGN CHOICE). -/
def State.dbgClosed (s : State) (i unit space word : Nat) : Bool :=
  if space ≤ 3 then s.crumbClosed (islandSlice i)
  else if space = 4 then s.crumbClosed ((i - 128) * 4 + word / 65536)
  else
    let chan := 16 * (i - 136) + unit
    let b := (s.bufs chan).getD (word / 64) { cl := 0, key := 0, part := 32 }
    (s.chanParts chan).any s.isProtected || (decide (b.part < 32) && s.isProtected b.part)

/-- The word of a register space. Log 227 (DESIGN CHOICE). -/
def CellSt.dbgReg (c : CellSt) (w : Nat) : Nat :=
  if w < 512 then bitsOf (Tab.get 0 c.vreg (w / 16)).toNat (32 * (w % 16) + 31) (32 * (w % 16))
  else if w < 520 then (Tab.get 0 c.preg (w - 512)).toNat
  else
    let a := Tab.get {} c.lacc ((w - 520) / 11)
    let k := (w - 520) % 11
    if k < 10 then bitsOf a.a.toNat (32 * k + 31) (32 * k) else a.spec.toNat

/-- Store a word of the register space. -/
def CellSt.dbgSet (c : CellSt) (w v : Nat) : CellSt :=
  if w < 512 then
    { c with vreg := Tab.upd 0 c.vreg (w / 16) (fun x => BitVec.ofNat 512 (putBits x.toNat (32 * (w % 16) + 31) (32 * (w % 16)) v)) }
  else if w < 520 then { c with preg := Tab.put 0 (w - 512) (BitVec.ofNat 16 v) c.preg }
  else
    let k := (w - 520) % 11
    { c with lacc := Tab.upd {} c.lacc ((w - 520) / 11) (fun a =>
      if k < 10 then { a with a := BitVec.ofNat 320 (putBits a.a.toNat (32 * k + 31) (32 * k) v) } else { a with spec := BitVec.ofNat 2 v }) }

/-- The word that a debug read returns. Log 227 (DESIGN CHOICE). -/
def State.dbgWord (s : State) (i unit space word : Nat) : Nat :=
  let k := dbgCell i unit
  let c := s.atCell k
  if space = 0 then leNat (Memory.read s.spad (spadAt k 0 + 4 * word) 4)
  else if space = 1 then c.dbgReg word
  else if space = 2 then bitsOf (Tab.get 0 c.prog (word / 2)).toNat (32 * (word % 2) + 31) (32 * (word % 2))
  else if space = 3 then (Tab.get 0 c.routes (2 * word)).toNat % 2 ^ 16 + (Tab.get 0 c.routes (2 * word + 1)).toNat % 2 ^ 16 * 2 ^ 16
  else if space = 4 then leNat (Memory.read s.share (bankAt i unit word) 4)
  else leAt ((s.bufs (16 * (i - 136) + unit)).getD (word / 64) { cl := 0, key := 0, part := 0 }).data (4 * (word % 64)) 4

/-- A debug write. -/
def State.dbgPut (s : State) (i unit space word v : Nat) : State :=
  let k := dbgCell i unit
  if space = 0 then { s with spad := Memory.write s.spad (spadAt k 0 + 4 * word) (leBytes 4 v) }
  else if space = 1 then s.updCell k (fun c => c.dbgSet word v)
  else if space = 2 then
    let f := fun (x : BitVec 64) => BitVec.ofNat 64 (putBits x.toNat (32 * (word % 2) + 31) (32 * (word % 2)) v)
    s.updCell k (fun c => { c with prog := Tab.upd 0 c.prog (word / 2) f })
  else if space = 3 then
    s.updCell k (fun c =>
      let r := Tab.put 0 (2 * word) (BitVec.ofNat 64 (v % 2 ^ 16)) c.routes
      { c with routes := Tab.put 0 (2 * word + 1) (BitVec.ofNat 64 (v / 2 ^ 16 % 2 ^ 16)) r })
  else if space = 4 then { s with share := Memory.write s.share (bankAt i unit word) (leBytes 4 v) }
  else
    let chan := 16 * (i - 136) + unit
    s.setBufs chan (((s.bufs chan).zipIdx).map (fun e =>
      if e.2 = word / 64 then { e.1 with data := patchBytes e.1.data (4 * (word % 64)) (leBytes 4 v), dirty := true } else e.1))

/-- A read through the DBG page or the port. -/
def State.dbgRead (s : State) (i unit space word : Nat) : DbgRes :=
  if dbgRange i unit space word = false then .range
  else if s.dbgClosed i unit space word then .blocked
  else .word (s.dbgWord i unit space word)

/-- READ in DBG_ACC_CTL. -/
def State.dbgReadReq (s : State) : State :=
  let i := s.get dbgPg DBG_ACC_TGT_ISLAND
  let r := s.dbgRead i (s.get dbgPg DBG_ACC_TGT_UNIT) (s.get dbgPg DBG_ACC_TGT_SPACE) (s.get dbgPg DBG_ACC_WORD_WORD)
  let s := ((s.set dbgPg DBG_ACC_CTL_BLOCKED 0).set dbgPg DBG_ACC_CTL_RANGE 0).set dbgPg DBG_ACC_CTL_NOT_HALTED 0
  match r with
  | .range => s.set dbgPg DBG_ACC_CTL_RANGE 1
  | .blocked => ((s.set dbgPg DBG_ACC_CTL_BLOCKED 1).wr (dbgPg + DBG_ACC_DATA) 0).dbgBlock
  | .word v => s.wr (dbgPg + DBG_ACC_DATA) v

/-- WRITE in DBG_ACC_CTL: only on a halted island. -/
def State.dbgWriteReq (s : State) : State :=
  let i := s.get dbgPg DBG_ACC_TGT_ISLAND
  let u := s.get dbgPg DBG_ACC_TGT_UNIT
  let sp := s.get dbgPg DBG_ACC_TGT_SPACE
  let w := s.get dbgPg DBG_ACC_WORD_WORD
  let r := s.dbgRead i u sp w
  let s := ((s.set dbgPg DBG_ACC_CTL_BLOCKED 0).set dbgPg DBG_ACC_CTL_RANGE 0).set dbgPg DBG_ACC_CTL_NOT_HALTED 0
  match r with
  | .range => s.set dbgPg DBG_ACC_CTL_RANGE 1
  | .blocked => (s.set dbgPg DBG_ACC_CTL_BLOCKED 1).dbgBlock
  | .word _ =>
    if s.halted.contains i = false then s.set dbgPg DBG_ACC_CTL_NOT_HALTED 1
    else s.dbgPut i u sp w (s.rd (dbgPg + DBG_ACC_DATA))

/-! ### The debug access port (R404) -/

/-- An access to device memory through the port, at the DPA of a word; under key index 0, as BAR2. Log 230 (DESIGN CHOICE). -/
def State.portMem (s : State) (write : Bool) (word v : Nat) : State :=
  let a := 4 * word
  if s.bar2Bad a then s.emit (.jtag true 0)
  else if s.dpaProtected a then s.dbgBlock.emit (.jtag true 0)
  else match s.place a with
    | none => s.emit (.jtag true 0)
    | some p =>
      let part := match s.regionOf a with
        | some r => s.regPart r
        | none => 0
      if write then ((s.lineModify p 0 part a (fun d => (patchBytes d p.byte (leBytes 4 v), []))).1).emit (.jtag false 0)
      else match s.lineShort p 0 part a 4 with
        | (s, .data d) => s.emit (.jtag false (BitVec.ofNat 32 (leNat d)))
        | (s, _) => s.emit (.jtag true 0)

/-- DEBUG_ACCESS_PORT (R404): the session opens with the first access and PORT_OPEN shows it; targets are those of DBG_ACC_TGT, and SPACE 6 is
device memory. The last access may close it. Log 230 (DESIGN CHOICE). -/
def execDebugAccessPort (write : Bool) (isl unit space word : Nat) (value : Word) (close : Bool) (s : State) : Answer := .next (
  if s.running = false then s
  else
    let s := { s.set dbgPg DBG_TEST_CTL_PORT_OPEN 1 with sec := { s.sec with jtag := true } }
    let s := if space = 6 then s.portMem write word value.toNat
      else match s.dbgRead isl unit space word with
        | .range => s.emit (.jtag true 0)
        | .blocked => s.dbgBlock.emit (.jtag true 0)
        | .word v =>
          if write then
            (if s.halted.contains isl then (s.dbgPut isl unit space word value.toNat).emit (.jtag false 0) else s.emit (.jtag true 0))
          else s.emit (.jtag false (BitVec.ofNat 32 v))
    if close then { s.set dbgPg DBG_TEST_CTL_PORT_OPEN 0 with sec := { s.sec with jtag := false } } else s)

end Sys2Proof.Machine
end

