-- ==== Sys2Proof/Machine/Registers.lean ====
section
/-! DEFINITION. What a host access to BAR0 finds: the page and the unit behind it (R518), the words of registers that are not stored as
they read, the capability table (R230-R233), where an offset of a virtual function's BAR0 leads (R512), and the pair latches of
reads (R5, R517). -/

namespace Sys2Proof.Machine

open Sys2Proof

/-! ### Pages and their units (R518) -/

/-- The entry of the capability table that describes the unit of a page: an island's is its slice's. Log 17 (DESIGN CHOICE). -/
def pageUnit : Pg → Nat → Option (Nat × Nat)
  | .isl, i => if i < 128 then some (1, islandSlice i) else none
  | .memt, i => some (5, i)
  | .nap, i => some (5, i)
  | .memc, i => some (2, i)
  | .lnk, i => some (3, i)
  | _, _ => none

/-- STATE of the unit of a page; a page without an entry is ACTIVE. Log 17 (DESIGN CHOICE). -/
def State.pageState (s : State) (p : Pg) (i : Nat) : Nat := match pageUnit p i with
  | some (t, n) => s.entryState t n
  | none => 1

/-- BLK_STAT: READY, UNDER_RESET, RETIRED. -/
def State.blkStat (s : State) (p : Pg) (i : Nat) : Nat :=
  let st := s.pageState p i
  (if s.ready && st != 3 then 1 else 0) + (if st = 3 then 2 else 0) + (if st = 2 then 4 else 0)

/-! ### The capability table -/

/-- Counts of the resource-count entries: of the device, or of a partition in a virtual function's view (R233). -/
def State.resourceCount (s : State) (part : Option Nat) (i : Nat) : Nat := match part with
  | none => [32, 1024, 4096, 65536, 512, 256, 256].getD i 0
  | some p =>
    let pg := partPg p
    [1, s.get pg PART_CTX_RANGE_COUNT, s.get pg PART_QUE_RANGE_COUNT, 32 * s.get pg PART_FEN_RANGE_COUNT,
      s.get pg PART_EVQ_RANGE_COUNT, (s.partKeys p).length, (s.attached p).length].getD i 0

/-- Partition that a unit is bound to. -/
def State.unitPart (s : State) (typ idx : Nat) : Option Nat :=
  if typ = 1 then s.sliceOwner idx else if typ = 2 then s.chanOwner idx else if typ = 3 then s.portOwner idx else none

/-- ATTR of an entry. -/
def entryAttr (typ idx : Nat) : Nat :=
  if typ = 1 then idx / 4 else if typ = 2 then idx / 16 + idx % 16 / 2 * 16 else if typ = 3 then idx / 18 else 0

/-- DATA of an entry beyond the retirement reason. -/
def State.entryData (s : State) (part : Option Nat) (typ idx : Nat) : Nat :=
  if typ = 2 then s.get (memcPg idx) MEMC_LANE_STAT_SPARES_USED * 2 ^ 8 +
    (s.get (memcPg idx) MEMC_LANE_STAT_ERAS_CW0 + s.get (memcPg idx) MEMC_LANE_STAT_ERAS_CW1) * 2 ^ 16
  else if typ = 3 then s.get (lnkPg idx) LNK_STAT_HALF * 2 ^ 8
  else if typ = 5 then s.get (Pg.base .memt idx) MEMT_REFRESH_DOUBLED * 2 ^ 8
  else if typ = 6 then s.resourceCount part idx * 2 ^ 32
  else if typ = 7 then s.get pciPg PCI_LINK_STAT_GEN * 2 ^ 8 + s.get pciPg PCI_LINK_STAT_WIDTH * 2 ^ 16
  else 0

/-- Reason of a unit's retirement. -/
def State.retireReason (s : State) (typ idx : Nat) : Nat := Tab.get 0 s.captReason (typ * 1024 + idx)

/-- Whether a unit is bound to partition `p` (R235: PART_CHAN is authoritative for a shared channel). -/
def State.unitIn (s : State) (p typ idx : Nat) : Bool := if typ = 2 then (s.chanParts idx).contains p else s.unitPart typ idx == some p

/-- The 16 bytes of an entry (R232). -/
def State.entryBytes (s : State) (part : Option Nat) (e : Nat × Nat) : Bytes :=
  let st := s.entryState e.1 e.2
  leBytes 1 e.1 ++ leBytes 1 st ++ leBytes 2 e.2 ++ leBytes 1 ((s.unitPart e.1 e.2).getD 0xFF) ++ leBytes 1 0 ++
    leBytes 2 (entryAttr e.1 e.2) ++ leBytes 8 (s.entryData part e.1 e.2 + (if st = 2 then s.retireReason e.1 e.2 else 0))

/-- The entries in their order: all 540, or those that a virtual function's view shows. -/
def State.entryList (s : State) (part : Option Nat) : List (Nat × Nat) :=
  let all := [(1, 32), (2, 256), (3, 36), (4, 192), (5, 16), (6, 7), (7, 1)].flatMap (fun (e : Nat × Nat) => (List.range e.2).map (fun i => (e.1, i)))
  match part with
  | none => all
  | some p => all.filter (fun (e : Nat × Nat) => e.1 == 6 || s.unitIn p e.1 e.2)

/-- The 64 bytes of the header (R230). Log 18 (DESIGN CHOICE). -/
def State.captHeader (s : State) (count : Nat) : Bytes :=
  leBytes 4 0x5043564F ++ leBytes 2 1 ++ leBytes 2 0 ++ leBytes 4 s.captStat ++ leBytes 4 s.captGen ++ leBytes 2 0x40 ++
    leBytes 2 count ++ leBytes 4 0x7800 ++ leBytes 4 Config.stepping.toNat ++ leBytes 36 0

/-- The word of the capability table, or of a function's view of it, at an offset. Log 18 (DESIGN CHOICE). -/
def State.captWord (s : State) (fn off : Nat) : Nat :=
  let part := if fn = 0 then none else Tab.get none s.attach fn
  let l := if fn ≠ 0 ∧ part = none then [] else s.entryList part
  if off < 0x40 then leAt (s.captHeader l.length) (off / 4 * 4) 4
  else match l[(off - 0x40) / 16]? with
    | some e => if s.ready then leAt (s.entryBytes part e) ((off - 0x40) % 16 / 4 * 4) 4 else 0
    | none => 0

/-! ### Words of registers -/

/-- The event queue that a context's mirror acts on (R530). -/
def State.mirror (s : State) (x : Nat) : Nat := evqPg (s.ctxEvq x)

/-- CTX_OBJ_STAT: STATE and REFS of the object that CTX_OBJ_CTL selects. -/
def State.objStat (s : State) (x : Nat) : Nat :=
  let h := s.get (ctxPg x) CTX_OBJ_CTL_HANDLE
  (s.atObj (objKey x h)).state + min 0xFFFF (s.objRefs x h) * 2 ^ 16

/-- What PART_MAP_DATA shows of the selected map. -/
def State.mapData (s : State) (p : Nat) : Nat :=
  let pg := partPg p
  match s.mapOf (s.get pg PART_MAP_SEL_FUNCTION) (s.get pg PART_MAP_SEL_KIND) (s.get pg PART_MAP_SEL_HANDLE) with
  | some t => t % 65536 + 65536
  | none => 0

/-- HELD_LEFT of a port in milliseconds: what is left of the 10 s of its hold. -/
def State.heldLeft (s : State) (p : Nat) : Nat := match (s.atLink p).heldAt with
  | some t => min 0xFFFF ((t + 1000000000 - s.mclk + 99999) / 100000)
  | none => 0

/-- The word of a context page's register, or the stored one. -/
def State.ctxWord (s : State) (x o v : Nat) : Nat :=
  if o = CTX_OBJ_STAT then s.objStat x
  else if o = CTX_EVQ_HEAD then s.rd (s.mirror x + EVQ_HEAD)
  else if o = CTX_EVQ_TAIL then s.rd (s.mirror x + EVQ_TAIL)
  else if o = CTX_EVQ_DROP then s.rd (s.mirror x + EVQ_DROP)
  else if 0x200 ≤ o ∧ o < 0x300 ∧ o % 32 = 0x18 then putBits v 15 0 (min 0xFFFF (s.segHold x (o % 0x100 / 32)))
  else if o = CTX_STAT then putBits v 31 24 (s.ownerOf (ctxPg x))
  else v

/-- The word of a security page's register, or the stored one. -/
def State.secWord (s : State) (o v : Nat) : Nat :=
  if 0x050 ≤ o ∧ o < 0x070 then
    let i := (o - 0x050) / 4
    bitsOf (s.kftRow (s.get secPg SEC_KFT_SEL_PARTITION) (s.get secPg SEC_KFT_SEL_ROW)) (32 * i + 31) (32 * i)
  else v

/-- The word of an attestation page's register, or the stored one (R417). -/
def State.attWord (s : State) (o v : Nat) : Nat :=
  if o = ATT_STAT then putBits (putBits v 1 1 (s.get secPg SEC_FW_CTL_UPDATING)) 2 2 (if s.resetList.isEmpty then 0 else 1) else v

/-- The word that the register at offset `o` of page `i` of kind `p` shows, `v` being what is stored for it. -/
def State.pageWord (s : State) (p : Pg) (i o v : Nat) : Nat :=
  let pg := p.base i
  if o = 0x00C then s.blkStat p i
  else if o = 0x018 then s.causeOf pg
  else if o = 0x020 then putBits v 9 9 (if s.tdiLocked (s.ownerOf pg) then 1 else 0)
  else if o < 0x40 then v
  else match p with
    | .glb => if o = GLB_MCLK then s.mclk % 2 ^ 32 else if o = GLB_MCLK + 4 then s.mclk / 2 ^ 32 % 2 ^ 32
      else if o = GLB_EVQ_FN then Tab.get 0 s.evqFn (s.get glbPg GLB_EVQ_SEL_EVQ) else v
    | .dbg => if o = DBG_HALT then putBits v 10 10 (if s.halted.contains (s.get dbgPg DBG_HALT_ISLAND) then 1 else 0) else v
    | .pci => if 0x204 ≤ o ∧ o < 0x224 then s.rd (dlogPg (s.get pciPg PCI_DLOG_SEL_FUNCTION) + o) else v
    | .isl => if o = 0x044 then s.clkStat i v else v
    | .lnk => if o = LNK_STAT then putBits v 31 16 (s.heldLeft i) else v
    | .rte => if o = RTE_DATA then s.rteData else v
    | .part => if o = PART_MAP_DATA then s.mapData i else if o = PART_KEYS then v ||| 1 else v
    | .rgl1 => if RGL_OVERSUB_STAT ≤ o then s.oversub ((o - RGL_OVERSUB_STAT) / 4) else v
    | .sec => s.secWord o v
    | .key => if o % 64 = KEY_HOLD % 64 ∧ 0x100 ≤ o then min 0xFFFFFFFF (s.keyHold (i * 32 + (o - 0x100) / 64))
      else if i = 0 ∧ o = KEY_STAT then v ||| 3 else v
    | .att => s.attWord o v
    | .ctx => s.ctxWord i o v
    | .que => if o = QUE_DB then 0 else v
    | _ => v

/-- The word that a read of a BAR0 offset of the physical function returns (R231, R515, R518). Log 25 (DESIGN CHOICE). -/
def State.readWord (s : State) (off : Nat) : Nat :=
  if off < 0x10000 then s.captWord 0 off
  else if s.ready = false then 0
  else match pageAt off with
    | none => 0
    | some (p, i) =>
      let o := off % 0x1000
      if (regAt p o).isNone then 0
      else if s.pageState p i = 3 ∧ o ≠ 0x000 ∧ o ≠ 0x00C ∧ o ≠ 0x020 then (resetWord off).toNat
      else s.pageWord p i o (s.rd off)

/-! ### Where an offset leads (R512, R242) -/

/-- The offset in the physical function's BAR0 that an offset of function `fn`'s BAR0 leads to; a virtual function reaches only what its
handles map: doorbells, fence entries, context pages. -/
def State.route (s : State) (fn off : Nat) : Option Nat :=
  if fn = 0 then some off
  else if off < 0x4000 then none
  else if off < 0x10000 then
    if off % 64 = 0 then (s.mapOf fn 0 ((off - 0x4000) / 64)).map (fun q => quePg q + QUE_DB) else none
  else if off < 0x20000 then (s.mapOf fn 1 ((off - 0x10000) / 64)).map (fun f => fenAt f + 0x100 + off % 64)
  else if off < 0x40000 then (s.mapOf fn 2 ((off - 0x20000) / 0x1000)).map (fun x => ctxPg x + off % 0x1000)
  else none

/-- Whether function `fn` reaches the page at `pg` of the target `t` of a handle kind: the physical function reaches every page. -/
def State.reachesPage (s : State) (fn kind t : Nat) : Bool :=
  fn == 0 || s.maps.any (fun (e : Nat × Option Nat) => e.1 / 4096 == fn && e.1 / 1024 % 4 == kind && e.2 == some t)

/-- Size of a function's BAR0 (R511, R512). -/
def barSize (fn : Nat) : Nat := if fn = 0 then 0x4000000 else 0x40000

/-- Whether the interface of a function is in ERROR: its BAR0 reads all ones (R411). Log 21 (DESIGN CHOICE). -/
def State.barDead (s : State) (fn : Nat) : Bool := fn != 0 && s.tdi fn == 3

/-- What a read of one word by a function returns. Log 21 (DESIGN CHOICE). -/
def State.readFor (s : State) (fn off : Nat) : Nat :=
  if s.barDead fn then 0xFFFFFFFF
  else if fn ≠ 0 ∧ off < 0x4000 then s.captWord fn off
  else match s.route fn off with
    | some o => s.readWord o
    | none => 0

/-! ### Pairs (R5, R517) -/

/-- Whether a BAR0 offset of the physical function holds the low, or the high, word of a pair. -/
def halfAt (off : Nat) : Half := match pageAt off with
  | some (p, _) => match regAt p (off % 0x1000) with
    | some r => r.half
    | none => .single
  | none => .single

/-- Key of a function's latch or held word for the pair whose low word stands at `off`. Log 16 (DESIGN CHOICE). -/
def pairKey (fn off : Nat) : Nat := fn * 2 ^ 26 + off

/-- A read by a function: of a low word, which latches the high word; of a high word, which takes the latch; of any other.
Log 16 (DESIGN CHOICE). -/
def State.readOf (s : State) (fn off : Nat) : State × Nat :=
  if s.barDead fn then (s, 0xFFFFFFFF)
  else match s.route fn off with
    | none => (s, s.readFor fn off)
    | some o => match halfAt o with
      | .single => (s, s.readWord o)
      | .low => ({ s with pairLatch := Tab.put none (pairKey fn o) (some (BitVec.ofNat 32 (s.readWord (o + 4)))) s.pairLatch }, s.readWord o)
      | .high => match Tab.get none s.pairLatch (pairKey fn (o - 4)) with
        | some w => ({ s with pairLatch := Tab.put none (pairKey fn (o - 4)) none s.pairLatch }, w.toNat)
        | none => (s, s.readWord o)

/-- A read of one word and its completion. Log 25 (DESIGN CHOICE). -/
def State.readCmd (s : State) (fn off : Nat) : State :=
  let (t, v) := s.readOf fn off
  t.emit (.readData fn (leBytes 4 v))

end Sys2Proof.Machine
end

