-- ==== Sys2Proof/Machine/HostWrite.lean ====
section
/-! DEFINITION. A write to BAR0 (R5-R7, R514-R523): the access codes and the ownership rule, what each register does with what it is
given, BLK_SEQ, pairs and 8 B accesses. Every command that writes a register goes through here. -/

namespace Sys2Proof.Machine

open Sys2Proof

/-! ### Fields (R6, R7) -/

/-- The bits that a register's fields name. -/
def Reg.mask (r : Reg) : Nat := r.flds.foldl (fun m f => m ||| maskOf f.hi f.lo) 0

/-- What a field holds after a write of `v` over `old`: `own` is whether RWL and RWO fields take it, `once` whether the RWO ones still
may. -/
def Fld.put (own once : Bool) (v old : Nat) (f : Fld) : Nat :=
  let x := bitsOf v f.hi f.lo
  match f.acc with
  | .rw => putBits old f.hi f.lo x
  | .rwl => if own then putBits old f.hi f.lo x else old
  | .rwo => if own ∧ once then putBits old f.hi f.lo x else old
  | .w1c => putBits old f.hi f.lo ((2 ^ (f.hi + 1 - f.lo) - 1 - x) &&& bitsOf old f.hi f.lo)
  | .w1k => if own then old ||| (x <<< f.lo) else old
  | .w1s => old
  | .wo => old
  | .ro => old

/-- Where the word of a register is kept: the dirty-log registers of PCI are those of the selected function (R188). -/
def State.home (s : State) (off : Nat) : Nat :=
  if pciPg + 0x204 ≤ off ∧ off < pciPg + 0x224 then dlogPg (s.get pciPg PCI_DLOG_SEL_FUNCTION) + off % 0x1000 else off

/-- Store what the fields of a register take of a write. -/
def State.storeFields (s : State) (own : Bool) (r : Reg) (off v : Nat) : State :=
  let h := s.home off
  let once := !Tab.get false s.rwo off
  let s := s.wr h (r.flds.foldl (fun w f => f.put own once v w) (s.rd h))
  if own && r.flds.any (fun f => f.acc == .rwo) then { s with rwo := Tab.put false off true s.rwo } else s

/-- Store a word of a pair: BASE and LIMIT of a segment entry go to its staging copy (R173). -/
def State.storeHalf (s : State) (own : Bool) (p : Pg) (o : Nat) (r : Reg) (off v : Nat) : State :=
  if p = .ctx ∧ 0x200 ≤ o ∧ o < 0x300 then
    (if own then { s with segStage := Tab.put (0 : Word) off (BitVec.ofNat 32 v) s.segStage } else s)
  else s.storeFields own r off v

/-- HIGH of SHST_MERGE_STAT clears as a whole when any 1 bit is written. Log 13 (DESIGN CHOICE). -/
def wholeClear (p : Pg) (o v : Nat) : Nat := if p = .shst ∧ o = SHST_MERGE_STAT ∧ bitsOf v 25 16 ≠ 0 then v ||| maskOf 25 16 else v

/-! ### Ownership (R522) -/

/-- The writer for which Skeldor's own path stands. Log 20 (DEDUCED). -/
def skeldor : Nat := 256

/-- Whether `fn` is the owner of the page at `pg`. Log 19 (DESIGN CHOICE). -/
def State.owns (s : State) (fn pg : Nat) : Bool :=
  if s.on pg BLK_OWNER_SKELDOR then fn == skeldor else fn == s.ownerOf pg

/-- Whether a part of another function's write is dropped. -/
def State.partDropped (s : State) (r : Reg) (off v : Nat) : Bool :=
  r.flds.any (fun f =>
    let x := bitsOf v f.hi f.lo
    match f.acc with
    | .rwl => x != bitsOf (s.readWord off) f.hi f.lo
    | .rwo => x != bitsOf (s.readWord off) f.hi f.lo
    | .w1s => x != 0
    | .w1k => x != 0
    | .wo => true
    | _ => false)

/-- An ownership violation of the page at `pg` by `fn`. -/
def State.violate (s : State) (pg fn : Nat) : State :=
  let s := (s.bumpF pg BLK_ERR_CNT_VIOL 1).set pg BLK_OWNER_LAST_VIOL fn
  let s := (s.bump (glbPg + GLB_VIOL_CNT) 1).wr (glbPg + GLB_VIOL_PAGE) (pg / 0x1000 + fn % 256 * 2 ^ 14)
  s.raise pg 0

/-- A write has taken effect (R520). -/
def State.bumpSeq (s : State) (pg : Nat) : State := s.wr (pg + 0x024) (s.rd (pg + 0x024) + 1)

/-! ### Registers that may be written only at times -/

/-- Whether a register takes writes in the present state: those that its rule ties to ENABLE 0, to an IDLE span slot, or to contexts at
rest (R277, and the tables of the QUE, EVQ, FEN, PART, PCI and CTX pages). Log 13 (DESIGN CHOICE). -/
def State.writable (s : State) (p : Pg) (i o : Nat) : Bool :=
  let pg := p.base i
  match p with
  | .que => if o = QUE_RING ∨ o = QUE_RING + 4 ∨ o = QUE_CPL ∨ o = QUE_CPL + 4 ∨ o = QUE_CTX then !s.on pg QUE_CTL_ENABLE else true
  | .evq => if o = EVQ_BASE ∨ o = EVQ_BASE + 4 then !s.on pg EVQ_CTL_ENABLE else true
  | .fen => if 0x100 ≤ o ∧ o % 64 = FEN_SRC % 64 then !s.on (pg + 64 * ((o - 0x100) / 64)) FEN_CTL_ENABLE else true
  | .pci => if 0x208 ≤ o ∧ o < 0x224 then !s.on (dlogPg (s.get pciPg PCI_DLOG_SEL_FUNCTION)) PCI_DLOG_CTL_ENABLE else true
  | .ctx => if o = CTX_SAVE_CTL then s.ctxState i == 0 || s.ctxState i == 3 else true
  | .part =>
    if o = PART_DLOG_HOST ∨ o = PART_DLOG_HOST + 4 then !s.on pg PART_DLOG_CTL_ENABLE
    else if 0x100 ≤ o ∧ o < 0x200 ∧ (o % 32 = PART_SPAN_ID % 32 ∨ o % 32 = PART_SPAN_M % 32) then s.slotState i ((o - 0x100) / 32) == 0
    else if o = PART_SPAN_TBL_DATA then s.slotState i (s.get pg PART_SPAN_TBL_SEL_SLOT) == 0
    else if o = PART_SAVE_REGION then (s.partCtxs i).all (fun x => s.ctxState x != 1 && s.ctxState x != 2)
    else true
  | _ => true

/-! ### What the owner's write of a register does, page by page. Each answers whether the write is taken. -/

/-- GLB_EVQ_FN (R527). -/
def State.evqFnSet (s : State) (v : Nat) : State × Bool :=
  let e := s.get glbPg GLB_EVQ_SEL_EVQ
  let f := v % 256
  let holder := s.rangeOwner PART_EVQ_RANGE_BASE PART_EVQ_RANGE_COUNT e
  if s.on (evqPg e) EVQ_CTL_ENABLE ∨ (f ≠ 0 ∧ (holder.isNone ∨ Tab.get none s.attach f ≠ holder)) then (s.badAccess glbPg, false)
  else ({ s with evqFn := Tab.put 0 e f s.evqFn }, true)

/-- EVQ_CTL (R527). -/
def State.evqCtlSet (s : State) (e v : Nat) : State × Bool :=
  if bitOf v 0 ∧ vectorsOf (Tab.get 0 s.evqFn e) ≤ bitsOf v 11 6 then (s.badAccess (evqPg e), false)
  else (s.wr (evqPg e + EVQ_CTL) (v &&& maskOf 11 0), true)

/-- CTX_EVQ_HEAD (R530). -/
def State.evqMirrorSet (s : State) (x v : Nat) : State × Bool :=
  let e := s.ctxEvq x
  if Tab.get 0 s.evqFn e ≠ s.ownerOf (ctxPg x) then (s.badAccess (ctxPg x), false) else (s.evqHead e v, true)

/-- QUE_CTL (R193, R198, R222, R532): the settings, then ENABLE, RESTART, CLEAR_LATCH. Log 12 (DESIGN CHOICE). -/
def State.queCtlSet (s : State) (q v : Nat) : State × Bool :=
  let pg := quePg q
  let on := s.on pg QUE_CTL_ENABLE
  if on ∧ bitOf v 0 = false ∧ s.queueBusy q then (s.badAccess pg, false)
  else
    let s := s.wr (pg + QUE_CTL) (putBits (v &&& maskOf 24 0) 0 0 (if on then 1 else 0))
    let s := if bitOf v 0 then (if on then s else s.queueEnable q) else if on then s.queueDisable q else s
    let s := if bitOf v 25 then s.queueRestart q else s
    (if bitOf v 26 then s.clearLatch q else s, true)

/-- FEN_CTL (R207, R213): QUEUE and REMOTE only while ENABLE is 0, ENABLE, REARM. -/
def State.fenCtlSet (s : State) (f v : Nat) : State :=
  let e := fenAt f
  let s := if s.on e FEN_CTL_ENABLE then s else s.set e ⟨0x114, 12, 0⟩ v
  let s := (s.mark e FEN_CTL_ENABLE (bitOf v 13)).fenSettle f
  if bitOf v 14 then s.fenceRearm f else s

/-- CTX_CTL (R190, R191). Log 12 (DESIGN CHOICE). -/
def State.ctxCtlSet (s : State) (x v : Nat) : State :=
  let s := s.wr (ctxPg x + CTX_CTL) (v &&& (maskOf 16 8 ||| 4))
  let s := if bitOf v 0 then s.contextActivate x else s
  if bitOf v 1 then s.contextTeardown x else s

/-- CTX_OBJ_CTL (R224, R225): a write with OP not 0 starts the request; a handle beyond 4,094 names no object. Log 24 (DESIGN CHOICE). -/
def State.objCtlSet (s : State) (x v : Nat) : State :=
  let s := s.set (ctxPg x) ⟨CTX_OBJ_CTL, 13, 0⟩ v
  let h := v % 4096
  let op := bitsOf v 13 12
  if h = 4095 then s
  else if op = 1 then s.objectCreate x h else if op = 2 then s.objectFree x h else if op = 3 then s.objectForceFree x h else s

/-- A word of a segment entry (R173, R175): the staging copy, or CANCEL then COMMIT. -/
def State.segSet (s : State) (x o off v : Nat) : State :=
  let g := o % 0x100 / 32
  if o % 32 = 0x18 then
    let s := if bitOf v 17 then s.segCancel x g else s
    if bitOf v 31 then s.segCommit x g else s
  else { s with segStage := Tab.put (0 : Word) off (BitVec.ofNat 32 v) s.segStage }

/-- The span registers of a slot (R255, R260, R261). -/
def State.spanCtlSet (s : State) (p l v : Nat) : State :=
  let s := if s.slotState p l = 0 then s.set (spanAt p l) PART_SPAN_0_RANK (bitsOf v 15 4) else s
  let s := if bitOf v 0 then s.spanSlotJoin p l else s
  if bitOf v 1 then s.spanSlotLeave p l else s

/-- PART_SPAN_TBL_DATA: the selected entry of the member table, which the configuration region of an ACTIVE partition holds (R237).
Log 130 (DESIGN CHOICE). -/
def State.spanTblSet (s : State) (p v : Nat) : State :=
  let pg := partPg p
  let l := s.get pg PART_SPAN_TBL_SEL_SLOT
  let r := s.get pg PART_SPAN_TBL_SEL_RANK
  let s := { s.wr (pg + PART_SPAN_TBL_DATA) (v % 4096) with spanTbl := Tab.put 0 ((p * 8 + l) * 4096 + r) (v % 4096) s.spanTbl }
  if State.partState s p = 2 then s.tableLine p ((l * 4096 + r) / 128) else s

/-- PART_CTL (R239, R240): FORM, ACTIVATE, DISSOLVE. -/
def State.partCtlSet (s : State) (p v : Nat) : State :=
  let s := if bitOf v 0 then s.partitionForm p else s
  let s := if bitOf v 1 then s.partitionActivate p else s
  if bitOf v 2 then s.partitionDissolve p else s

/-- LNK_CTL (R292, R302, R323): the settings, then ENABLE cleared, RETRAIN, REKEY. -/
def State.lnkCtlSet (s : State) (p v : Nat) : State :=
  let was := s.on (lnkPg p) LNK_CTL_ENABLE
  let s := s.wr (lnkPg p + LNK_CTL) (v &&& 15)
  let s := if was ∧ bitOf v 0 = false then s.enableClear p else s
  let s := if bitOf v 4 then s.linkRetrain p else s
  if bitOf v 5 then s.rekeyStart p else s

/-- GLB_RCV_APPROVE (R440): the fields, then APPROVE, HOLD, REQUEST. -/
def State.approveSet (s : State) (v : Nat) : State :=
  let s := s.wr (rcvPg + GLB_RCV_APPROVE) (v &&& maskOf 10 3)
  let s := if bitOf v 0 then s.recoveryApprove else s
  let s := if bitOf v 1 then s.recoveryHold else s
  if bitOf v 2 then s.recoveryRequest else s

/-- The recovery page. -/
def State.rcvSet (s : State) (o v : Nat) : Option State :=
  if o = GLB_RCV_APPROVE then some (s.approveSet v)
  else if o = GLB_CRUMB_CTL then
    let s := s.set rcvPg GLB_CRUMB_CTL_SIZE v
    some (if bitOf v 16 then s.crumbClear else s)
  else if o = GLB_RETIRE_REQ_GO.off then
    let s := (s.set rcvPg GLB_RETIRE_REQ_TYPE v).set rcvPg GLB_RETIRE_REQ_INDEX (v / 256)
    some (if bitOf v 16 then s.retireRequest else s)
  else none

/-- The debug page (R528, R529). -/
def State.dbgSet (s : State) (o v : Nat) : Option State :=
  if o = DBG_TEST_CTL then some (s.testMode (bitOf v 0))
  else if o = DBG_HALT then
    let i := v % 256
    let s := s.set dbgPg DBG_HALT_ISLAND i
    let s := if bitOf v 8 then s.islandHalt i else s
    some (if bitOf v 9 then s.islandResume i else s)
  else if o = DBG_ACC_CTL_READ.off then
    let s := if bitOf v 0 then s.dbgReadReq else s
    some (if bitOf v 1 then s.dbgWriteReq else s)
  else none

/-- PCI_DLOG_CTL of the selected function (R187, R188). -/
def State.dlogSet (s : State) (v : Nat) : State :=
  let f := s.get pciPg PCI_DLOG_SEL_FUNCTION
  let pg := dlogPg f
  let s := s.mark pg PCI_DLOG_CTL_ENABLE (bitOf v 0)
  let s := if bitOf v 0 then s else { s with dlogWords := s.dlogWords.filter (fun e => e.1 / 2 ^ 33 != f) }
  let s := if bitOf v 4 then s.set pg PCI_DLOG_CTL_OVERFLOW 0 else s
  if bitOf v 1 ∧ s.on pg PCI_DLOG_CTL_FLIP_BUSY = false then s.hostDlogFlip f else s

/-- Whether an offset of a PART page is a range register, PART_KEYS or PART_CFG_REGION. -/
def isRangeReg (o : Nat) : Bool := decide (PART_CTX_RANGE ≤ o) && decide (o ≤ PART_CFG_REGION)

/-- The partition page. -/
def State.partSet (s : State) (p o v : Nat) : Option (State × Bool) :=
  let pg := partPg p
  if o = PART_CTL then some (s.partCtlSet p v, true)
  else if o = PART_REBIND_CTL_OP.off then some (s.rebindCtlWrite p v, true)
  else if isRangeReg o then some (s.rangeRegWrite p o v)
  else if o = PART_FN_CTL_FUNCTION.off then some (s.fnCtlWrite p v, true)
  else if o = PART_MAP_DATA then some (s.handleMapWrite p v, true)
  else if 0x100 ≤ o ∧ o < 0x200 ∧ o % 32 = 0 then some (s.spanCtlSet p ((o - 0x100) / 32) v, true)
  else if o = PART_SPAN_TBL_DATA then some (s.spanTblSet p v, true)
  else if o = PART_RT_MASK then some (s.rtMaskWrite p v)
  else if o = PART_RL_CTL then
    let s := if bitOf v 2 then s.set pg PART_RL_CTL_RL_ERR 0 else s
    some (if bitOf v 0 then s.runListSwap p else s, true)
  else if o = PART_DLOG_CTL_ENABLE.off then
    let s := s.mark pg PART_DLOG_CTL_ENABLE (bitOf v 0)
    some (if bitOf v 1 ∧ s.on pg PART_DLOG_CTL_FLIP_BUSY = false then s.deviceDlogFlip p else s, true)
  else none

/-- The security page (R393, R397, R398, R419). -/
def State.secSet (s : State) (o v : Nat) : Option (State × Bool) :=
  if o = SEC_PROTECT then some (s.secProtectSet v, true)
  else if o = SEC_KLOCK then some (s.keyLockSet v, true)
  else if o = SEC_UNLOCK_GO.off then some (s.keyUnlock v, true)
  else if SEC_KFT_DATA ≤ o ∧ o < SEC_ALARM then some (s.kftWriteWord ((o - SEC_KFT_DATA) / 4) v)
  else if o = SEC_FW_CTL then some (if bitOf v 0 then s.commitSvn else s, true)
  else none

/-- The memory map page (R146). -/
def State.mapSet (s : State) (o off v : Nat) : Option (State × Bool) :=
  let flip := fun (r : State × Bool) => some (r.1, !r.2)
  if 0x800 ≤ o then flip (s.setWrite ((o - 0x800) / 32) off v)
  else if 0x400 ≤ o then flip (s.regionWrite ((o - 0x400) / 16) (o % 16 / 4) v)
  else none

/-- A write by the owner of the page to the register `r` at offset `o`: its own rule, or its fields are stored. -/
def State.ownWrite (s : State) (p : Pg) (i o off : Nat) (r : Reg) (v : Nat) : State × Bool :=
  let plain := s.storeFields true r off (wholeClear p o v)
  let own := fun (x : Option (State × Bool)) => x.getD (plain, true)
  let act := fun (x : Option State) => (x.getD plain, true)
  if s.writable p i o = false then (s, false)
  else if o < 0x40 then (plain.pageError (p.base i) (s.causeOf (p.base i)), true)
  else match p with
    | .glb => own (if o = GLB_EVQ_FN then some (s.evqFnSet v) else none)
    | .map => own (s.mapSet o off v)
    | .rcv => act (s.rcvSet o v)
    | .dbg => act (s.dbgSet o v)
    | .pci => act (if o = PCI_DLOG_CTL_ENABLE.off then some (s.dlogSet v) else none)
    | .isl => act (if o = ISL_CLK_CTL then some (plain.clock i) else none)
    | .memc => act (if o = MEMC_REPAIR_CTL then some (if bitOf v 9 then plain.sweepStart i (v % 512) else plain) else none)
    | .lnk => act (if o = LNK_CTL then some (s.lnkCtlSet i v) else none)
    | .rte => act (if o = RTE_SELF then some (s.selfSet v) else if o = RTE_DATA then some (s.rteWrite v) else none)
    | .part => own (if o = PART_SCHED_CTL_PRIO_MAX.off then some (plain.schedule i, true) else s.partSet i o v)
    | .rgl1 => act (if o = RGL_CNT_SEL then some (s.counterSnapshot v) else none)
    | .pwr => act (if o = PWR_THROTTLE_CTL ∨ o = PWR_FILL_CTL then some plain.clocks else none)
    | .sec => own (s.secSet o v)
    | .key =>
      let k := i * 32 + (o - 0x100) / 64
      own (if o % 64 = 0 then some (s.keyCtlWrite k v, true)
        else if KEY_OWNER0 % 64 ≤ o % 64 then some (s.ownerHashWrite k off v) else none)
    | .mgmt => act (if o = MGMT_MBX_CTL then some (if bitOf v 0 then plain.mbxGo 1 else plain) else none)
    | .splt => act (if o = SPLT_MODE_CTL then some plain.modePending else none)
    | .ctx =>
      if o = CTX_EVQ_HEAD then s.evqMirrorSet i v
      else act (if o = CTX_CTL then some (s.ctxCtlSet i v) else if o = CTX_OBJ_CTL then some (s.objCtlSet i v)
        else if 0x200 ≤ o ∧ o < 0x300 then some (s.segSet i o off v)
        else if o = CTX_SCHED_PRIORITY.off then some (plain.scheduleFor i) else none)
    | .que => if o = QUE_CTL then s.queCtlSet i v else act (if o = QUE_DB then some (s.doorbell i v) else none)
    | .fen => act (if o % 64 = FEN_CTL % 64 then some (s.fenCtlSet (i * 32 + (o - 0x100) / 64) v) else none)
    | .evq => if o = EVQ_CTL then s.evqCtlSet i v else act (if o = EVQ_HEAD then some (s.evqHead i v) else none)
    | _ => (plain, true)

/-! ### Writes by anyone (R518, R520, R522) -/

/-- Another function's write: its RW and W1C parts take effect; a dropped part is a violation. Log 14 (DEDUCED). -/
def State.otherWrite (s : State) (fn : Nat) (p : Pg) (i o off : Nat) (r : Reg) (v : Nat) : State :=
  let pg := p.base i
  let was := s.causeOf pg
  let t := s.storeFields false r off (wholeClear p o v)
  let t := if o < 0x40 then t.pageError pg was else t
  if s.partDropped r off v then t.violate pg fn else t.bumpSeq pg

/-- A write of one register that stands alone. Log 12 (DESIGN CHOICE). -/
def State.oneWrite (s : State) (fn : Nat) (p : Pg) (i o off : Nat) (r : Reg) (v : Nat) : State :=
  let v := v &&& r.mask
  if s.owns fn (p.base i) then
    let (t, taken) := s.ownWrite p i o off r v
    if taken then t.bumpSeq (p.base i) else t
  else s.otherWrite fn p i o off r v

/-- A write of a pair whose low word stands at `off`: both words, or the high word alone; one write, and none of it when a part is
dropped. Log 16 (DESIGN CHOICE). -/
def State.pairWrite (s : State) (fn : Nat) (p : Pg) (i off : Nat) (rl rh : Reg) (lo : Option Nat) (hi : Nat) : State :=
  let pg := p.base i
  let lo := lo.map (· &&& rl.mask)
  let hi := hi &&& rh.mask
  let put := fun (own : Bool) =>
    let t := match lo with
      | some v => s.storeHalf own p (off % 0x1000) rl off v
      | none => s
    (t.storeHalf own p ((off + 4) % 0x1000) rh (off + 4) hi).bumpSeq pg
  let dropped := (match lo with
    | some v => s.partDropped rl off v
    | none => false) || s.partDropped rh (off + 4) hi
  if s.owns fn pg then (if s.writable p i (off % 0x1000) then put true else s)
  else if dropped then s.violate pg fn
  else put false

/-- Whether the page of an offset takes a write now: READY, not under reset; a RETIRED unit's page drops it as a bad access (R231,
R518). -/
def State.pageTakes (s : State) (p : Pg) (i : Nat) : State × Bool :=
  if s.ready = false ∨ s.pageState p i = 3 then (s, false)
  else if s.pageState p i = 2 then (s.badAccess (p.base i), false)
  else (s, true)

/-- A 4 B write by `fn` at a BAR0 offset of the physical function. -/
def State.write4 (s : State) (fn off v : Nat) : State :=
  match pageAt off with
  | none => s
  | some (p, i) => match regAt p (off % 0x1000) with
    | none => s
    | some r =>
      let (s, ok) := s.pageTakes p i
      if ok = false then s
      else match r.half with
        | .single => s.oneWrite fn p i (off % 0x1000) off r v
        | .low => { s with pairHeld := Tab.put none (pairKey fn off) (some (BitVec.ofNat 32 v)) s.pairHeld }
        | .high =>
          let k := pairKey fn (off - 4)
          let lo := (Tab.get none s.pairHeld k).map (·.toNat)
          match regAt p ((off - 4) % 0x1000) with
          | none => s
          | some rl => ({ s with pairHeld := Tab.put none k none s.pairHeld }).pairWrite fn p i (off - 4) rl r lo v

/-- An 8 B write: of a pair as one write, of two registers as two writes in ascending order (R514). -/
def State.write8 (s : State) (fn off v : Nat) : State := (s.write4 fn off (v % 2 ^ 32)).write4 fn (off + 4) (v / 2 ^ 32)

/-- A write of another size or alignment (R514): Unsupported Request, counted, and noted in the page. Log 21 (DESIGN CHOICE). -/
def State.badWrite (s : State) (fn : Nat) (off : Option Nat) : State :=
  let s := (s.emit (.unsupported fn)).bump (pciPg + PCI_UR_CNT) 1
  match off.bind pageAt with
  | some (p, i) => if s.ready && s.pageState p i != 3 then s.badAccess (p.base i) else s
  | none => s

/-- A write by function `fn` at an offset of its BAR0. Log 15 (DEDUCED). -/
def State.hostWrite (s : State) (fn off size v : Nat) : State :=
  if size = 4 ∧ off % 4 = 0 then (match s.route fn off with
    | some o => s.write4 fn o v
    | none => s)
  else if size = 8 ∧ off % 8 = 0 then
    (match s.route fn off, s.route fn (off + 4) with
      | some o, some o' => if o' = o + 4 then s.write8 fn o v else (s.write4 fn o (v % 2 ^ 32)).write4 fn o' (v / 2 ^ 32)
      | some o, none => s.write4 fn o (v % 2 ^ 32)
      | none, some o' => s.write4 fn o' (v / 2 ^ 32)
      | none, none => s)
  else s.badWrite fn (s.route fn (off / 4 * 4))

/-- The writes that have a row of their own: the physical function, or Skeldor through its own path, writes a register of a unit.
Log 19 (DESIGN CHOICE). -/
def State.rowWrite (s : State) (fn : Nat) (ok : Bool) (off : Nat) (value : Word) : Answer :=
  onUnit (ok && decide (fn ≤ skeldor)) (
    if fn = 0 then s.write4 0 off value.toNat
    else if fn = skeldor then (match pageAt off with
      | some (p, _) => if p.skeldor then s.write4 skeldor off value.toNat else s
      | none => s)
    else s)

/-- The same for a register that a virtual function can reach through a handle of `kind` mapped to `t`. -/
def State.handleWrite (s : State) (fn kind t : Nat) (ok : Bool) (off : Nat) (value : Word) : Answer :=
  onUnit (ok && decide (fn < 256)) (if s.reachesPage fn kind t then s.write4 fn off value.toNat else s)

end Sys2Proof.Machine
end

