-- ==== Sys2Proof/Machine/HostCommands.lean ====
section
/-! DEFINITION. The commands of the host on BAR0: reads of pairs, plain writes, and the register writes that have a row of their own.
`fn` is the writing function (0 the physical one, 256 Skeldor's own path); `value` is the word written. -/

namespace Sys2Proof.Machine

open Sys2Proof

/-! ### Plain accesses -/

/-- REGISTER_WRITE (R522): a write of `size` bytes at an offset of the function's BAR0. -/
def execRegisterWrite (fn off size : Nat) (value : BitVec 64) (s : State) : Answer :=
  onUnit (decide (fn < 256) && decide (off + size ≤ barSize fn)) (s.hostWrite fn off size value.toNat)

/-- PAIR_LOW_READ (R5): the low word, and the high word latched. -/
def execPairLowRead (fn off : Nat) (s : State) : Answer :=
  onUnit (decide (fn < 256) && decide (off + 4 ≤ barSize fn) && decide (off % 4 = 0)) (s.readCmd fn off)

/-- PAIR_HIGH_READ (R5): the latched high word, or the live one. -/
def execPairHighRead (fn off : Nat) (s : State) : Answer :=
  onUnit (decide (fn < 256) && decide (off + 4 ≤ barSize fn) && decide (off % 4 = 0)) (s.readCmd fn off)

/-- PAIR_LOW_WRITE (R5): the low word is held. -/
def execPairLowWrite (fn off : Nat) (value : Word) (s : State) : Answer :=
  onUnit (decide (fn < 256) && decide (off + 4 ≤ barSize fn) && decide (off % 4 = 0)) (s.hostWrite fn off 4 value.toNat)

/-- PAIR_HIGH_WRITE (R5): both words take effect. -/
def execPairHighWrite (fn off : Nat) (value : Word) (s : State) : Answer :=
  onUnit (decide (fn < 256) && decide (off + 4 ≤ barSize fn) && decide (off % 4 = 0)) (s.hostWrite fn off 4 value.toNat)

/-! ### Memory and segments -/

/-- REPAIR_SWEEP_START (R155): START of MEMC_REPAIR_CTL. -/
def execRepairSweepStart (fn chan : Nat) (value : Word) (s : State) : Answer :=
  s.rowWrite fn (decide (chan < 256)) (memcPg chan + MEMC_REPAIR_CTL) value

/-- REGION_VALID_SET (R146): word 0 of a region with VALID 1. -/
def execRegionValidSet (fn region : Nat) (value : Word) (s : State) : Answer :=
  s.rowWrite fn (decide (region < 64)) (regionAt region + GLB_REGION_0) value

/-- REGION_VALID_CLEAR (R146): word 0 of a region with VALID 0. -/
def execRegionValidClear (fn region : Nat) (value : Word) (s : State) : Answer :=
  s.rowWrite fn (decide (region < 64)) (regionAt region + GLB_REGION_0) value

/-- SEGMENT_COMMIT (R173): COMMIT of a segment. -/
def execSegmentCommit (fn ctx seg : Nat) (value : Word) (s : State) : Answer :=
  s.handleWrite fn 2 ctx (decide (ctx < 1024) && decide (seg < 8)) (segAt ctx seg + CTX_SEG_6) value

/-- SEGMENT_CANCEL (R175): CANCEL of a segment. -/
def execSegmentCancel (fn ctx seg : Nat) (value : Word) (s : State) : Answer :=
  s.handleWrite fn 2 ctx (decide (ctx < 1024) && decide (seg < 8)) (segAt ctx seg + CTX_SEG_6) value

/-- HOST_DLOG_FLIP (R188): FLIP of PCI_DLOG_CTL, for the selected function. -/
def execHostDlogFlip (fn : Nat) (value : Word) (s : State) : Answer :=
  s.rowWrite fn true (pciPg + PCI_DLOG_CTL_FLIP.off) value

/-- DEVICE_DLOG_FLIP (R189): FLIP of PART_DLOG_CTL. -/
def execDeviceDlogFlip (fn part : Nat) (value : Word) (s : State) : Answer :=
  s.rowWrite fn (decide (part < 32)) (partPg part + PART_DLOG_CTL_FLIP.off) value

/-! ### Contexts, queues, fences, objects, event queues -/

/-- CONTEXT_ACTIVATE (R190): ACTIVATE of CTX_CTL. -/
def execContextActivate (fn ctx : Nat) (value : Word) (s : State) : Answer :=
  s.handleWrite fn 2 ctx (decide (ctx < 1024)) (ctxPg ctx + CTX_CTL) value

/-- CONTEXT_TEARDOWN (R190, R456): TEARDOWN of CTX_CTL. -/
def execContextTeardown (fn ctx : Nat) (value : Word) (s : State) : Answer :=
  s.handleWrite fn 2 ctx (decide (ctx < 1024)) (ctxPg ctx + CTX_CTL) value

/-- QUEUE_ENABLE (R193): ENABLE of QUE_CTL set. -/
def execQueueEnable (fn q : Nat) (value : Word) (s : State) : Answer :=
  s.rowWrite fn (decide (q < 4096)) (quePg q + QUE_CTL) value

/-- QUEUE_DISABLE (R532): ENABLE of QUE_CTL cleared. -/
def execQueueDisable (fn q : Nat) (value : Word) (s : State) : Answer :=
  s.rowWrite fn (decide (q < 4096)) (quePg q + QUE_CTL) value

/-- QUEUE_RESTART (R198): RESTART of QUE_CTL. -/
def execQueueRestart (fn q : Nat) (value : Word) (s : State) : Answer :=
  s.rowWrite fn (decide (q < 4096)) (quePg q + QUE_CTL) value

/-- QUEUE_CLEAR_LATCH (R222): CLEAR_LATCH of QUE_CTL. -/
def execQueueClearLatch (fn q : Nat) (value : Word) (s : State) : Answer :=
  s.rowWrite fn (decide (q < 4096)) (quePg q + QUE_CTL) value

/-- DOORBELL (R194): a new tail. -/
def execDoorbell (fn q : Nat) (tail : Word) (s : State) : Answer :=
  s.handleWrite fn 0 q (decide (q < 4096)) (quePg q + QUE_DB) tail

/-- FENCE_REARM (R213): REARM of FEN_CTL. -/
def execFenceRearm (fn fence : Nat) (value : Word) (s : State) : Answer :=
  s.handleWrite fn 1 fence (decide (fence < 65536)) (fenAt fence + FEN_CTL) value

/-- OBJECT_CREATE (R224): OP 1 of CTX_OBJ_CTL. -/
def execObjectCreate (fn ctx : Nat) (value : Word) (s : State) : Answer :=
  s.handleWrite fn 2 ctx (decide (ctx < 1024)) (ctxPg ctx + CTX_OBJ_CTL) value

/-- OBJECT_FREE (R225): OP 2 of CTX_OBJ_CTL. -/
def execObjectFree (fn ctx : Nat) (value : Word) (s : State) : Answer :=
  s.handleWrite fn 2 ctx (decide (ctx < 1024)) (ctxPg ctx + CTX_OBJ_CTL) value

/-- OBJECT_FORCE_FREE (R225): OP 3 of CTX_OBJ_CTL. -/
def execObjectForceFree (fn ctx : Nat) (value : Word) (s : State) : Answer :=
  s.handleWrite fn 2 ctx (decide (ctx < 1024)) (ctxPg ctx + CTX_OBJ_CTL) value

/-- EVQ_HEAD_WRITE (R227): records consumed. -/
def execEvqHeadWrite (fn evq : Nat) (value : Word) (s : State) : Answer :=
  s.rowWrite fn (decide (evq < 512)) (evqPg evq + EVQ_HEAD) value

/-- EVQ_FN_WRITE (R527): the function of the selected event queue. -/
def execEvqFnWrite (fn : Nat) (value : Word) (s : State) : Answer :=
  s.rowWrite fn true (glbPg + GLB_EVQ_FN) value

/-- EVQ_CTL_WRITE (R527): EVQ_CTL. -/
def execEvqCtlWrite (fn evq : Nat) (value : Word) (s : State) : Answer :=
  s.rowWrite fn (decide (evq < 512)) (evqPg evq + EVQ_CTL) value

/-- CTX_EVQ_HEAD_WRITE (R530): the head of the context's event queue. -/
def execCtxEvqHeadWrite (fn ctx : Nat) (value : Word) (s : State) : Answer :=
  s.handleWrite fn 2 ctx (decide (ctx < 1024)) (ctxPg ctx + CTX_EVQ_HEAD) value

/-! ### Partitions, spans, scheduling -/

/-- PARTITION_FORM (R239): FORM of PART_CTL. -/
def execPartitionForm (fn part : Nat) (value : Word) (s : State) : Answer :=
  s.rowWrite fn (decide (part < 32)) (partPg part + PART_CTL) value

/-- PARTITION_ACTIVATE (R239): ACTIVATE of PART_CTL. -/
def execPartitionActivate (fn part : Nat) (value : Word) (s : State) : Answer :=
  s.rowWrite fn (decide (part < 32)) (partPg part + PART_CTL) value

/-- PARTITION_DISSOLVE (R240): DISSOLVE of PART_CTL. -/
def execPartitionDissolve (fn part : Nat) (value : Word) (s : State) : Answer :=
  s.rowWrite fn (decide (part < 32)) (partPg part + PART_CTL) value

/-- PART_RANGE_WRITE (R234, R239): a range register, PART_KEYS or PART_CFG_REGION at offset `off` of the page. -/
def execPartRangeWrite (fn part off : Nat) (value : Word) (s : State) : Answer :=
  s.rowWrite fn (decide (part < 32) && isRangeReg off && decide (off % 4 = 0)) (partPg part + off) value

/-- FUNCTION_ATTACH (R241): ATTACH of PART_FN_CTL. -/
def execFunctionAttach (fn part : Nat) (value : Word) (s : State) : Answer :=
  s.rowWrite fn (decide (part < 32)) (partPg part + PART_FN_CTL_ATTACH.off) value

/-- FUNCTION_DETACH (R241): DETACH of PART_FN_CTL. -/
def execFunctionDetach (fn part : Nat) (value : Word) (s : State) : Answer :=
  s.rowWrite fn (decide (part < 32)) (partPg part + PART_FN_CTL_DETACH.off) value

/-- HANDLE_MAP (R242): PART_MAP_DATA. -/
def execHandleMap (fn part : Nat) (value : Word) (s : State) : Answer :=
  s.rowWrite fn (decide (part < 32)) (partPg part + PART_MAP_DATA) value

/-- REBIND_ABORT (R253): ABORT of PART_REBIND_CTL. -/
def execRebindAbort (fn part : Nat) (value : Word) (s : State) : Answer :=
  s.rowWrite fn (decide (part < 32)) (partPg part + PART_REBIND_CTL_ABORT.off) value

/-- SPAN_SLOT_JOIN (R260): JOIN of a span slot. -/
def execSpanSlotJoin (fn part slot : Nat) (value : Word) (s : State) : Answer :=
  s.rowWrite fn (decide (part < 32) && decide (slot < 8)) (spanAt part slot + PART_SPAN_0) value

/-- SPAN_SLOT_LEAVE (R261): LEAVE of a span slot. -/
def execSpanSlotLeave (fn part slot : Nat) (value : Word) (s : State) : Answer :=
  s.rowWrite fn (decide (part < 32) && decide (slot < 8)) (spanAt part slot + PART_SPAN_0) value

/-- RT_MASK_WRITE (R267): PART_RT_MASK. -/
def execRtMaskWrite (fn part : Nat) (value : Word) (s : State) : Answer :=
  s.rowWrite fn (decide (part < 32)) (partPg part + PART_RT_MASK) value

/-- RUN_LIST_SWAP (R289): SWAP of PART_RL_CTL. -/
def execRunListSwap (fn part : Nat) (value : Word) (s : State) : Answer :=
  s.rowWrite fn (decide (part < 32)) (partPg part + PART_RL_CTL) value

/-! ### Links and regulation -/

/-- LINK_REKEY (R302): REKEY of LNK_CTL. -/
def execLinkRekey (fn port : Nat) (value : Word) (s : State) : Answer :=
  s.rowWrite fn (decide (port < 36)) (lnkPg port + LNK_CTL) value

/-- LINK_RETRAIN (R323): RETRAIN of LNK_CTL. -/
def execLinkRetrain (fn port : Nat) (value : Word) (s : State) : Answer :=
  s.rowWrite fn (decide (port < 36)) (lnkPg port + LNK_CTL) value

/-- PORT_ENABLE_CLEAR (R333): ENABLE of LNK_CTL cleared. -/
def execPortEnableClear (fn port : Nat) (value : Word) (s : State) : Answer :=
  s.rowWrite fn (decide (port < 36)) (lnkPg port + LNK_CTL) value

/-- RTE_SELF_WRITE (R323): the device identity. -/
def execRteSelfWrite (fn : Nat) (value : Word) (s : State) : Answer :=
  s.rowWrite fn true (rtePg + RTE_SELF) value

/-- ROUTE_ENTRY_WRITE (R321): the selected route entry. -/
def execRouteEntryWrite (fn : Nat) (value : Word) (s : State) : Answer :=
  s.rowWrite fn true (rtePg + RTE_DATA) value

/-- COUNTER_SNAPSHOT (R348): RGL_CNT_SEL. -/
def execCounterSnapshot (fn : Nat) (value : Word) (s : State) : Answer :=
  s.rowWrite fn true (rglFwd + RGL_CNT_SEL) value

/-! ### Keys and isolation -/

/-- KEY_ARM (R386): ARM of KEY_CTL. -/
def execKeyArm (fn slot : Nat) (value : Word) (s : State) : Answer :=
  s.rowWrite fn (decide (slot < 256)) (keyAt slot + KEY_CTL) value

/-- KEY_RETIRE (R399): RETIRE of KEY_CTL. -/
def execKeyRetire (fn slot : Nat) (value : Word) (s : State) : Answer :=
  s.rowWrite fn (decide (slot < 256)) (keyAt slot + KEY_CTL) value

/-- KEY_FORCE (R399): FORCE of KEY_CTL. -/
def execKeyForce (fn slot : Nat) (value : Word) (s : State) : Answer :=
  s.rowWrite fn (decide (slot < 256)) (keyAt slot + KEY_CTL) value

/-- SEC_PROTECT_SET (R397): SEC_PROTECT. -/
def execSecProtectSet (fn : Nat) (value : Word) (s : State) : Answer :=
  s.rowWrite fn true (secPg + SEC_PROTECT) value

/-- KEY_LOCK_SET (R397): SEC_KLOCK. -/
def execKeyLockSet (fn : Nat) (value : Word) (s : State) : Answer :=
  s.rowWrite fn true (secPg + SEC_KLOCK) value

/-- KEY_UNLOCK (R398): GO of SEC_UNLOCK. Log 192 (DESIGN CHOICE). -/
def execKeyUnlock (fn : Nat) (value : Word) (s : State) : Answer :=
  s.rowWrite fn true (secPg + SEC_UNLOCK_GO.off) value

/-- KFT_WRITE (R393, R397): a word of the selected key-flow row. -/
def execKftWrite (fn word : Nat) (value : Word) (s : State) : Answer :=
  s.rowWrite fn (decide (word < 8)) (secPg + SEC_KFT_DATA + 4 * word) value

/-- COMMIT_SVN (R419): COMMIT_SVN of SEC_FW_CTL. -/
def execCommitSvn (fn : Nat) (value : Word) (s : State) : Answer :=
  s.rowWrite fn true (secPg + SEC_FW_CTL) value

/-! ### Recovery and debug -/

/-- RECOVERY_APPROVE (R440): APPROVE of GLB_RCV_APPROVE. -/
def execRecoveryApprove (fn : Nat) (value : Word) (s : State) : Answer :=
  s.rowWrite fn true (rcvPg + GLB_RCV_APPROVE) value

/-- RECOVERY_HOLD (R440): HOLD of GLB_RCV_APPROVE. -/
def execRecoveryHold (fn : Nat) (value : Word) (s : State) : Answer :=
  s.rowWrite fn true (rcvPg + GLB_RCV_APPROVE) value

/-- RECOVERY_REQUEST (R440, R468): REQUEST of GLB_RCV_APPROVE. -/
def execRecoveryRequest (fn : Nat) (value : Word) (s : State) : Answer :=
  s.rowWrite fn true (rcvPg + GLB_RCV_APPROVE) value

/-- RETIRE_REQUEST (R451, R468): GO of GLB_RETIRE_REQ. -/
def execRetireRequest (fn : Nat) (value : Word) (s : State) : Answer :=
  s.rowWrite fn true (rcvPg + GLB_RETIRE_REQ_GO.off) value

/-- CRUMB_CLEAR (R445): CLEAR of GLB_CRUMB_CTL. -/
def execCrumbClear (fn : Nat) (value : Word) (s : State) : Answer :=
  s.rowWrite fn true (rcvPg + GLB_CRUMB_CTL) value

/-- TEST_MODE_WRITE (R528): DBG_TEST_CTL. -/
def execTestModeWrite (fn : Nat) (value : Word) (s : State) : Answer :=
  s.rowWrite fn true (dbgPg + DBG_TEST_CTL) value

/-- ISLAND_HALT (R528): HALT of DBG_HALT. -/
def execIslandHalt (fn : Nat) (value : Word) (s : State) : Answer :=
  s.rowWrite fn true (dbgPg + DBG_HALT) value

/-- ISLAND_RESUME (R528): RESUME of DBG_HALT. -/
def execIslandResume (fn : Nat) (value : Word) (s : State) : Answer :=
  s.rowWrite fn true (dbgPg + DBG_HALT) value

/-- DEBUG_READ (R529): READ of DBG_ACC_CTL. -/
def execDebugRead (fn : Nat) (value : Word) (s : State) : Answer :=
  s.rowWrite fn true (dbgPg + DBG_ACC_CTL_READ.off) value

/-- DEBUG_WRITE (R529): WRITE of DBG_ACC_CTL. -/
def execDebugWrite (fn : Nat) (value : Word) (s : State) : Answer :=
  s.rowWrite fn true (dbgPg + DBG_ACC_CTL_WRITE.off) value

end Sys2Proof.Machine
end

