-- ==== Sys2Proof/Machine/Dispatch.lean ====
section
/-! DEFINITION. The dispatch of the commands: one arm per row of the opcode table. -/

namespace Sys2Proof.Machine

open Sys2Proof

/-- The effect of a command on everything but the queue of waiting commands. -/
def exec (i : Instr) (s : State) : Host.Outcome State Fault Refusal :=
  match i with
  | .registerWrite fn off size value => Sys2Proof.Machine.execRegisterWrite fn off size value s
  | .pairLowRead fn off => Sys2Proof.Machine.execPairLowRead fn off s
  | .pairHighRead fn off => Sys2Proof.Machine.execPairHighRead fn off s
  | .pairLowWrite fn off value => Sys2Proof.Machine.execPairLowWrite fn off value s
  | .pairHighWrite fn off value => Sys2Proof.Machine.execPairHighWrite fn off value s
  | .epochBoundary steps => Sys2Proof.Machine.execEpochBoundary steps s
  | .powerModelDivergence => Sys2Proof.Machine.execPowerModelDivergence s
  | .stragglerShift => Sys2Proof.Machine.execStragglerShift s
  | .refreshNormalReturn tower => Sys2Proof.Machine.execRefreshNormalReturn tower s
  | .hangDetect kind idx => Sys2Proof.Machine.execHangDetect kind idx s
  | .roundOverrun slice => Sys2Proof.Machine.execRoundOverrun slice s
  | .spanWaitExpire q seq => Sys2Proof.Machine.execSpanWaitExpire q seq s
  | .watchdogExpire proc => Sys2Proof.Machine.execWatchdogExpire proc s
  | .retireThreshold unit idx => Sys2Proof.Machine.execRetireThreshold unit idx s
  | .handshakeWordReceive src dst seq word => Sys2Proof.Machine.execHandshakeWordReceive src dst seq word s
  | .seamWordReceive dir line seq word badWires q seqNo => Sys2Proof.Machine.execSeamWordReceive dir line seq word badWires q seqNo s
  | .supplyDroop isl band cycles => Sys2Proof.Machine.execSupplyDroop isl band cycles s
  | .tensorOp core cell slot badProg badA badB badSide => Sys2Proof.Machine.execTensorOp core cell slot badProg badA badB badSide s
  | .vectorOp core cell slot badWord => Sys2Proof.Machine.execVectorOp core cell slot badWord s
  | .moverRequest core cell slot => Sys2Proof.Machine.execMoverRequest core cell slot s
  | .roundEnd core cell => Sys2Proof.Machine.execRoundEnd core cell s
  | .jump core cell => Sys2Proof.Machine.execJump core cell s
  | .branch core cell => Sys2Proof.Machine.execBranch core cell s
  | .repeat_ core cell => Sys2Proof.Machine.execRepeat core cell s
  | .routerTokenForward core cell port vc => Sys2Proof.Machine.execRouterTokenForward core cell port vc s
  | .shstReadRequest core r => Sys2Proof.Machine.execShstReadRequest core r s
  | .shstLineArrive core line key part => Sys2Proof.Machine.execShstLineArrive core line key part s
  | .lineIn core mover => Sys2Proof.Machine.execLineIn core mover s
  | .lineOut core run => Sys2Proof.Machine.execLineOut core run s
  | .spread core run => Sys2Proof.Machine.execSpread core run s
  | .bcast core run => Sys2Proof.Machine.execBcast core run s
  | .gather core run => Sys2Proof.Machine.execGather core run s
  | .xcore core run => Sys2Proof.Machine.execXcore core run s
  | .save core run => Sys2Proof.Machine.execSave core run s
  | .restore core mover => Sys2Proof.Machine.execRestore core mover s
  | .moverCompletion core mover => Sys2Proof.Machine.execMoverCompletion core mover s
  | .sliceQuiescent slice => Sys2Proof.Machine.execSliceQuiescent slice s
  | .mouldRegister q seq => Sys2Proof.Machine.execMouldRegister q seq s
  | .mouldRegistrationDone part id => Sys2Proof.Machine.execMouldRegistrationDone part id s
  | .mouldRelease q seq => Sys2Proof.Machine.execMouldRelease q seq s
  | .configLoad slice q seq => Sys2Proof.Machine.execConfigLoad slice q seq s
  | .configLoadDone slice badWord => Sys2Proof.Machine.execConfigLoadDone slice badWord s
  | .phaseCombine q seq => Sys2Proof.Machine.execPhaseCombine q seq s
  | .phaseStart q seq => Sys2Proof.Machine.execPhaseStart q seq s
  | .boundaryReached q seq => Sys2Proof.Machine.execBoundaryReached q seq s
  | .napLineRead r => Sys2Proof.Machine.execNapLineRead r s
  | .napLineWrite r data => Sys2Proof.Machine.execNapLineWrite r data s
  | .napShortRead r size => Sys2Proof.Machine.execNapShortRead r size s
  | .napPartialWrite r data => Sys2Proof.Machine.execNapPartialWrite r data s
  | .atomicAdd r wide ret operand => Sys2Proof.Machine.execAtomicAdd r wide ret operand s
  | .atomicSmin r wide ret operand => Sys2Proof.Machine.execAtomicSmin r wide ret operand s
  | .atomicSmax r wide ret operand => Sys2Proof.Machine.execAtomicSmax r wide ret operand s
  | .atomicUmin r wide ret operand => Sys2Proof.Machine.execAtomicUmin r wide ret operand s
  | .atomicUmax r wide ret operand => Sys2Proof.Machine.execAtomicUmax r wide ret operand s
  | .atomicSwap r wide operand => Sys2Proof.Machine.execAtomicSwap r wide operand s
  | .atomicCas r wide operand comparand => Sys2Proof.Machine.execAtomicCas r wide operand comparand s
  | .xadd r acc spec => Sys2Proof.Machine.execXadd r acc spec s
  | .dramBurstReceived chan cl errs r => Sys2Proof.Machine.execDramBurstReceived chan cl errs r s
  | .refreshRow tower => Sys2Proof.Machine.execRefreshRow tower s
  | .towerTempSample tower temps => Sys2Proof.Machine.execTowerTempSample tower temps s
  | .patrolScrubLine chan badLanes => Sys2Proof.Machine.execPatrolScrubLine chan badLanes s
  | .repairSweepStart fn chan value => Sys2Proof.Machine.execRepairSweepStart fn chan value s
  | .repairSweepLine chan => Sys2Proof.Machine.execRepairSweepLine chan s
  | .regionValidSet fn region value => Sys2Proof.Machine.execRegionValidSet fn region value s
  | .regionValidClear fn region value => Sys2Proof.Machine.execRegionValidClear fn region value s
  | .segmentCommit fn ctx seg value => Sys2Proof.Machine.execSegmentCommit fn ctx seg value s
  | .segmentCancel fn ctx seg value => Sys2Proof.Machine.execSegmentCancel fn ctx seg value s
  | .segmentApplied ctx seg => Sys2Proof.Machine.execSegmentApplied ctx seg s
  | .atsTranslationCompletion fn page pages bus rd wr err => Sys2Proof.Machine.execAtsTranslationCompletion fn page pages bus rd wr err s
  | .atsTimeout fn page => Sys2Proof.Machine.execAtsTimeout fn page s
  | .invalidationRequest fn page pages => Sys2Proof.Machine.execInvalidationRequest fn page pages s
  | .invalidationCompletion fn => Sys2Proof.Machine.execInvalidationCompletion fn s
  | .hostReadCompletion q seq status dst data => Sys2Proof.Machine.execHostReadCompletion q seq status dst data s
  | .hostDlogFlip fn value => Sys2Proof.Machine.execHostDlogFlip fn value s
  | .hostDlogFlipDone func => Sys2Proof.Machine.execHostDlogFlipDone func s
  | .deviceDlogFlip fn part value => Sys2Proof.Machine.execDeviceDlogFlip fn part value s
  | .deviceDlogFlipDone part => Sys2Proof.Machine.execDeviceDlogFlipDone part s
  | .contextActivate fn ctx value => Sys2Proof.Machine.execContextActivate fn ctx value s
  | .contextTeardown fn ctx value => Sys2Proof.Machine.execContextTeardown fn ctx value s
  | .contextQuiesced ctx => Sys2Proof.Machine.execContextQuiesced ctx s
  | .queueEnable fn q value => Sys2Proof.Machine.execQueueEnable fn q value s
  | .queueDisable fn q value => Sys2Proof.Machine.execQueueDisable fn q value s
  | .queueRestart fn q value => Sys2Proof.Machine.execQueueRestart fn q value s
  | .queueClearLatch fn q value => Sys2Proof.Machine.execQueueClearLatch fn q value s
  | .doorbell fn q tail => Sys2Proof.Machine.execDoorbell fn q tail s
  | .descriptorArrive q ok desc => Sys2Proof.Machine.execDescriptorArrive q ok desc s
  | .commandAccept q args runs => Sys2Proof.Machine.execCommandAccept q args runs s
  | .commandStart q seq => Sys2Proof.Machine.execCommandStart q seq s
  | .commandResolve q seq => Sys2Proof.Machine.execCommandResolve q seq s
  | .nop q seq => Sys2Proof.Machine.execNop q seq s
  | .compute q seq => Sys2Proof.Machine.execCompute q seq s
  | .copy q seq => Sys2Proof.Machine.execCopy q seq s
  | .fill q seq => Sys2Proof.Machine.execFill q seq s
  | .convert q seq => Sys2Proof.Machine.execConvert q seq s
  | .wait q seq => Sys2Proof.Machine.execWait q seq s
  | .signal q seq => Sys2Proof.Machine.execSignal q seq s
  | .event q seq => Sys2Proof.Machine.execEvent q seq s
  | .fenceRearm fn fence value => Sys2Proof.Machine.execFenceRearm fn fence value s
  | .objectCreate fn ctx value => Sys2Proof.Machine.execObjectCreate fn ctx value s
  | .objectFree fn ctx value => Sys2Proof.Machine.execObjectFree fn ctx value s
  | .objectForceFree fn ctx value => Sys2Proof.Machine.execObjectForceFree fn ctx value s
  | .evqHeadWrite fn evq value => Sys2Proof.Machine.execEvqHeadWrite fn evq value s
  | .msixHoldoffExpire fn vector => Sys2Proof.Machine.execMsixHoldoffExpire fn vector s
  | .partitionForm fn part value => Sys2Proof.Machine.execPartitionForm fn part value s
  | .partitionActivate fn part value => Sys2Proof.Machine.execPartitionActivate fn part value s
  | .partitionDissolve fn part value => Sys2Proof.Machine.execPartitionDissolve fn part value s
  | .partRangeWrite fn part off value => Sys2Proof.Machine.execPartRangeWrite fn part off value s
  | .functionAttach fn part value => Sys2Proof.Machine.execFunctionAttach fn part value s
  | .functionDetach fn part value => Sys2Proof.Machine.execFunctionDetach fn part value s
  | .handleMap fn part value => Sys2Proof.Machine.execHandleMap fn part value s
  | .sliceGrow part => Sys2Proof.Machine.execSliceGrow part s
  | .sliceShrink part => Sys2Proof.Machine.execSliceShrink part s
  | .channelBind part => Sys2Proof.Machine.execChannelBind part s
  | .channelRelease part => Sys2Proof.Machine.execChannelRelease part s
  | .rebalance part => Sys2Proof.Machine.execRebalance part s
  | .portBind part => Sys2Proof.Machine.execPortBind part s
  | .portBindTimeout part => Sys2Proof.Machine.execPortBindTimeout part s
  | .portUnbind part => Sys2Proof.Machine.execPortUnbind part s
  | .portUnbindDrainDone port => Sys2Proof.Machine.execPortUnbindDrainDone port s
  | .rebindAbort fn part value => Sys2Proof.Machine.execRebindAbort fn part value s
  | .spanSlotJoin fn part slot value => Sys2Proof.Machine.execSpanSlotJoin fn part slot value s
  | .spanJoinTimeout part slot => Sys2Proof.Machine.execSpanJoinTimeout part slot s
  | .spanSlotLeave fn part slot value => Sys2Proof.Machine.execSpanSlotLeave fn part slot value s
  | .spanLeaveComplete part slot => Sys2Proof.Machine.execSpanLeaveComplete part slot s
  | .rtMaskWrite fn part value => Sys2Proof.Machine.execRtMaskWrite fn part value s
  | .quantumExpire ctx => Sys2Proof.Machine.execQuantumExpire ctx s
  | .npDeadlineExpire q seq => Sys2Proof.Machine.execNpDeadlineExpire q seq s
  | .runListSwap fn part value => Sys2Proof.Machine.execRunListSwap fn part value s
  | .runListReadDone part ok list => Sys2Proof.Machine.execRunListReadDone part ok list s
  | .runListEntryEnd part entry => Sys2Proof.Machine.execRunListEntryEnd part entry s
  | .linkBlockSend port data => Sys2Proof.Machine.execLinkBlockSend port data s
  | .linkBlockReceive port b => Sys2Proof.Machine.execLinkBlockReceive port b s
  | .nakRepeat port => Sys2Proof.Machine.execNakRepeat port s
  | .linkRekey fn port value => Sys2Proof.Machine.execLinkRekey fn port value s
  | .rd port t => Sys2Proof.Machine.execRd port t s
  | .wr port t => Sys2Proof.Machine.execWr port t s
  | .atom port t => Sys2Proof.Machine.execAtom port t s
  | .reduce port t => Sys2Proof.Machine.execReduce port t s
  | .reduceSpc port t => Sys2Proof.Machine.execReduceSpc port t s
  | .fenceSig port t => Sys2Proof.Machine.execFenceSig port t s
  | .rsp port t => Sys2Proof.Machine.execRsp port t s
  | .barrier port t => Sys2Proof.Machine.execBarrier port t s
  | .spanJoin port t => Sys2Proof.Machine.execSpanJoin port t s
  | .spanAns port t => Sys2Proof.Machine.execSpanAns port t s
  | .spanLeave port t => Sys2Proof.Machine.execSpanLeave port t s
  | .cmdCheck port t => Sys2Proof.Machine.execCmdCheck port t s
  | .cmdRefuse port t => Sys2Proof.Machine.execCmdRefuse port t s
  | .heartbeat port t => Sys2Proof.Machine.execHeartbeat port t s
  | .heartbeatSend port => Sys2Proof.Machine.execHeartbeatSend port s
  | .partnerState port t => Sys2Proof.Machine.execPartnerState port t s
  | .bindReq port t => Sys2Proof.Machine.execBindReq port t s
  | .bindAck port t => Sys2Proof.Machine.execBindAck port t s
  | .bindRefuse port t => Sys2Proof.Machine.execBindRefuse port t s
  | .unbind port t => Sys2Proof.Machine.execUnbind port t s
  | .cert port t => Sys2Proof.Machine.execCert port t s
  | .keyOffer port t => Sys2Proof.Machine.execKeyOffer port t s
  | .keyProof port t => Sys2Proof.Machine.execKeyProof port t s
  | .keySwitch port t => Sys2Proof.Machine.execKeySwitch port t s
  | .trunkSync port t => Sys2Proof.Machine.execTrunkSync port t s
  | .routeAdv port t => Sys2Proof.Machine.execRouteAdv port t s
  | .routeAdvTimer => Sys2Proof.Machine.execRouteAdvTimer s
  | .requestExpire tag => Sys2Proof.Machine.execRequestExpire tag s
  | .portTrain port strong half => Sys2Proof.Machine.execPortTrain port strong half s
  | .trainingFailure port => Sys2Proof.Machine.execTrainingFailure port s
  | .holdDownExpire port => Sys2Proof.Machine.execHoldDownExpire port s
  | .linkRetrain fn port value => Sys2Proof.Machine.execLinkRetrain fn port value s
  | .rteSelfWrite fn value => Sys2Proof.Machine.execRteSelfWrite fn value s
  | .routeEntryWrite fn value => Sys2Proof.Machine.execRouteEntryWrite fn value s
  | .partnerLossTimeout port => Sys2Proof.Machine.execPartnerLossTimeout port s
  | .routeSwitch dest => Sys2Proof.Machine.execRouteSwitch dest s
  | .regulatorIssue reg waiting => Sys2Proof.Machine.execRegulatorIssue reg waiting s
  | .counterSnapshot fn value => Sys2Proof.Machine.execCounterSnapshot fn value s
  | .powerSample mv deciA => Sys2Proof.Machine.execPowerSample mv deciA s
  | .elecLimitActivate => Sys2Proof.Machine.execElecLimitActivate s
  | .elecLimitLift => Sys2Proof.Machine.execElecLimitLift s
  | .inputLow => Sys2Proof.Machine.execInputLow s
  | .inputLowClear => Sys2Proof.Machine.execInputLowClear s
  | .thermalSample kind idx temp => Sys2Proof.Machine.execThermalSample kind idx temp s
  | .thermalTrip kind idx => Sys2Proof.Machine.execThermalTrip kind idx s
  | .hardThrottleLift kind => Sys2Proof.Machine.execHardThrottleLift kind s
  | .keyArm fn slot value => Sys2Proof.Machine.execKeyArm fn slot value s
  | .keyRetire fn slot value => Sys2Proof.Machine.execKeyRetire fn slot value s
  | .keyForce fn slot value => Sys2Proof.Machine.execKeyForce fn slot value s
  | .secProtectSet fn value => Sys2Proof.Machine.execSecProtectSet fn value s
  | .keyLockSet fn value => Sys2Proof.Machine.execKeyLockSet fn value s
  | .keyUnlock fn value => Sys2Proof.Machine.execKeyUnlock fn value s
  | .kftWrite fn word value => Sys2Proof.Machine.execKftWrite fn word value s
  | .spdmMessage code stream => Sys2Proof.Machine.execSpdmMessage code stream s
  | .ideIntegrityFail stream => Sys2Proof.Machine.execIdeIntegrityFail stream s
  | .lockInterface func => Sys2Proof.Machine.execLockInterface func s
  | .stopInterface func => Sys2Proof.Machine.execStopInterface func s
  | .functionLevelReset func => Sys2Proof.Machine.execFunctionLevelReset func s
  | .attestReport version part nonce => Sys2Proof.Machine.execAttestReport version part nonce s
  | .certChainGet sel => Sys2Proof.Machine.execCertChainGet sel s
  | .ownerRetire slot epoch key sig => Sys2Proof.Machine.execOwnerRetire slot epoch key sig s
  | .vendorDebugEnter token => Sys2Proof.Machine.execVendorDebugEnter token s
  | .commitSvn fn value => Sys2Proof.Machine.execCommitSvn fn value s
  | .engineReset kind idx => Sys2Proof.Machine.execEngineReset kind idx s
  | .tastingTurn outcome => Sys2Proof.Machine.execTastingTurn outcome s
  | .partitionReset part => Sys2Proof.Machine.execPartitionReset part s
  | .deviceLevelReset cause train => Sys2Proof.Machine.execDeviceLevelReset cause train s
  | .powerCycleRequest cause => Sys2Proof.Machine.execPowerCycleRequest cause s
  | .recoveryApprove fn value => Sys2Proof.Machine.execRecoveryApprove fn value s
  | .recoveryHold fn value => Sys2Proof.Machine.execRecoveryHold fn value s
  | .recoveryRequest fn value => Sys2Proof.Machine.execRecoveryRequest fn value s
  | .sliceRetire slice reason => Sys2Proof.Machine.execSliceRetire slice reason s
  | .channelGroupRetire group reason => Sys2Proof.Machine.execChannelGroupRetire group reason s
  | .portRetire port reason => Sys2Proof.Machine.execPortRetire port reason s
  | .retireRequest fn value => Sys2Proof.Machine.execRetireRequest fn value s
  | .crumbClear fn value => Sys2Proof.Machine.execCrumbClear fn value s
  | .getStatus src tag => Sys2Proof.Machine.execGetStatus src tag s
  | .setCap src tag watts window => Sys2Proof.Machine.execSetCap src tag watts window s
  | .readTelemetry src tag => Sys2Proof.Machine.execReadTelemetry src tag s
  | .fwBegin src tag stage size => Sys2Proof.Machine.execFwBegin src tag stage size s
  | .fwData src tag off data => Sys2Proof.Machine.execFwData src tag off data s
  | .fwEnd src tag => Sys2Proof.Machine.execFwEnd src tag s
  | .fwSessionTimeout => Sys2Proof.Machine.execFwSessionTimeout s
  | .retireClear src tag type idx => Sys2Proof.Machine.execRetireClear src tag type idx s
  | .deviceReset src tag => Sys2Proof.Machine.execDeviceReset src tag s
  | .sbAlarmClear value => Sys2Proof.Machine.execSbAlarmClear value s
  | .modPwrEnAssert mv train => Sys2Proof.Machine.execModPwrEnAssert mv train s
  | .pwrOffTimeExpire mv train => Sys2Proof.Machine.execPwrOffTimeExpire mv train s
  | .devResetNRelease train => Sys2Proof.Machine.execDevResetNRelease train s
  | .devThrottleNAssert usTenths toggling => Sys2Proof.Machine.execDevThrottleNAssert usTenths toggling s
  | .stageStop mv => Sys2Proof.Machine.execStageStop mv s
  | .bar2Read off len => Sys2Proof.Machine.execBar2Read off len s
  | .bar2Write off data => Sys2Proof.Machine.execBar2Write off data s
  | .evqFnWrite fn value => Sys2Proof.Machine.execEvqFnWrite fn value s
  | .evqCtlWrite fn evq value => Sys2Proof.Machine.execEvqCtlWrite fn evq value s
  | .ctxEvqHeadWrite fn ctx value => Sys2Proof.Machine.execCtxEvqHeadWrite fn ctx value s
  | .testModeWrite fn value => Sys2Proof.Machine.execTestModeWrite fn value s
  | .islandHalt fn value => Sys2Proof.Machine.execIslandHalt fn value s
  | .islandResume fn value => Sys2Proof.Machine.execIslandResume fn value s
  | .debugRead fn value => Sys2Proof.Machine.execDebugRead fn value s
  | .debugWrite fn value => Sys2Proof.Machine.execDebugWrite fn value s
  | .startInterface func => Sys2Proof.Machine.execStartInterface func s
  | .pcieLinkUp gen width => Sys2Proof.Machine.execPcieLinkUp gen width s
  | .portEnableClear fn port value => Sys2Proof.Machine.execPortEnableClear fn port value s
  | .sbAlarmMaskWrite value => Sys2Proof.Machine.execSbAlarmMaskWrite value s
  | .msixVectorUnmask fn vector => Sys2Proof.Machine.execMsixVectorUnmask fn vector s
  | .atsEnable fn on => Sys2Proof.Machine.execAtsEnable fn on s
  | .debugAccessPort write isl unit space word value close => Sys2Proof.Machine.execDebugAccessPort write isl unit space word value close s
  | .modPwrEnRemove => Sys2Proof.Machine.execModPwrEnRemove s
  | .devResetNAssert => Sys2Proof.Machine.execDevResetNAssert s
  | .perstNAssert => Sys2Proof.Machine.execPerstNAssert s
  | .perstNRelease => Sys2Proof.Machine.execPerstNRelease s
  | .devThrottleNRelease => Sys2Proof.Machine.execDevThrottleNRelease s
  | .inputStuck => Sys2Proof.Machine.execInputStuck s
  | .oscillatorStop => Sys2Proof.Machine.execOscillatorStop s
  | .railFault => Sys2Proof.Machine.execRailFault s

end Sys2Proof.Machine
end

