-- ==== Sys2Proof/WellFormed.lean ====
section
/-! DEFINITION. Well-formed commands: every unit, page, handle and identifier that an operand names exists (R14), and every
field of what a command brings fits its width. A command that is not well-formed is none the device can receive. -/

namespace Sys2Proof

/-! ### Units (R14) -/

/-- Functions (R231, R511). -/
def functionOk (fn : Nat) : Bool := decide (fn < 256)

/-- Who writes a register: a function, or Skeldor (256) over its own path (R522). -/
def agentOk (fn : Nat) : Bool := decide (fn ≤ 256)

/-- Who sends a mailbox request: 0 the tray controller, 1 the physical function (R471). -/
def sourceOk (src : Nat) : Bool := decide (src ≤ 1)

/-- Partitions, contexts, queues, slices, ports. -/
def partOk (p : Nat) : Bool := decide (p < 32)
def ctxOk (x : Nat) : Bool := decide (x < 1024)
def queueOk (q : Nat) : Bool := decide (q < 4096)
def sliceOk (n : Nat) : Bool := decide (n < 32)
def portOk (p : Nat) : Bool := decide (p < 36)

/-- What the code finds in a word of data (R69): good, uncorrectable or corrected. -/
def dataWord (b : Nat) : Bool := b == 0 || b == 1 || b == 3

/-- Cells (R64) and movers (R95) of the eight fabric cores. -/
def cellOk (core cell : Nat) : Bool := decide (core < 8) && decide (cell < 4096)
def moverOk (core mover : Nat) : Bool := decide (core < 8) && decide (mover < 16)

/-- Size of a function's BAR0 (R511, R512). -/
def bar0Size (fn : Nat) : Nat := if fn = 0 then 0x4000000 else 0x40000

/-- MSI-X vectors of a function (R228). -/
def vectorCount (fn : Nat) : Nat := if fn = 0 then 64 else 8

/-- Engines with a beacon, by kind (R429): slices, shared stores, towers, the PCI Express engine. -/
def engines : Nat → Nat
  | 0 => 32
  | 1 => 8
  | 2 => 16
  | 3 => 1
  | _ => 0

/-- Temperature sensors by kind (R369): junctions, towers, base dies, power stages. -/
def sensors : Nat → Nat
  | 1 => 128
  | 2 => 16
  | 3 => 16
  | 4 => 4
  | _ => 0

/-- Units by row of the retirement table (R451). -/
def retireUnits (unit : Nat) : Nat := [32, 32, 32, 8, 16, 256, 128, 128, 128, 128, 192, 36].getD unit 0

/-! ### Records -/

/-- A request to a narrow access path: a device-physical address of 39 bits, a key index, a context, a queue. -/
def Req.wf (r : Req) : Bool := decide (r.dpa < 2 ^ 39) && decide (r.key < 256) && ctxOk r.ctx && queueOk r.q

/-- The header fields of a link transaction (R307, R309) and its payload of at most 4,096 bytes. -/
def Txn.wf (t : Txn) : Bool :=
  decide (t.op < 256) && decide (t.level < 8) && decide (t.cls < 4) && decide (t.dst < 4096) && decide (t.src < 4096) &&
  decide (t.tag < 65536) && decide (t.span < 2 ^ 32) && decide (t.age < 4096) && decide (t.addr < 2 ^ 64) &&
  decide (t.key < 256) && decide (t.attr < 256) && decide (t.queue < 4096) && decide (t.aux < 2 ^ 32) &&
  decide (t.status < 256) && decide (t.payload.length ≤ 4096)

/-- The fields of a link block (R293, R295). -/
def Block.wf (b : Block) : Bool :=
  decide (b.type < 4) && decide (b.lseq < 4096) && decide (b.lack < 4096) && decide (b.crBuf < 32) && decide (b.crCnt < 128) &&
  decide (b.body.length = 256) && decide (b.crc < 2 ^ 24)

/-! ### Commands -/

/-- Well-formed commands. -/
def Instr.wf : Instr → Bool
  | .registerWrite fn off size _ => functionOk fn && decide (off + size ≤ bar0Size fn)
  | .pairLowRead fn off => functionOk fn && decide (off + 4 ≤ bar0Size fn) && decide (off % 4 = 0)
  | .pairHighRead fn off => functionOk fn && decide (off + 4 ≤ bar0Size fn) && decide (off % 4 = 0)
  | .pairLowWrite fn off _ => functionOk fn && decide (off + 4 ≤ bar0Size fn) && decide (off % 4 = 0)
  | .pairHighWrite fn off _ => functionOk fn && decide (off + 4 ≤ bar0Size fn) && decide (off % 4 = 0)
  | .epochBoundary steps => decide (steps ≤ 8)
  | .powerModelDivergence => true
  | .stragglerShift => true
  | .refreshNormalReturn tower => decide (tower < 16)
  | .hangDetect kind idx => decide (kind ≤ 3) && decide (idx < engines kind)
  | .roundOverrun slice => sliceOk slice
  | .spanWaitExpire q _ => queueOk q
  | .watchdogExpire proc => decide (proc < 4)
  | .retireThreshold unit idx => decide (unit ≤ 11) && decide (idx < retireUnits unit)
  | .handshakeWordReceive src dst _ _ => decide (src < 193) && decide (dst < 193)
  | .seamWordReceive dir _ _ _ _ q _ => decide (dir < 2) && queueOk q
  | .supplyDroop isl band _ => decide (isl < 192) && decide (band ≤ 4)
  | .tensorOp core cell _ p a b w => cellOk core cell && (p == 0 || p == 2 || p == 3) && [a, b, w].all dataWord
  | .vectorOp core cell _ bad => cellOk core cell && decide (bad ≤ 3)
  | .moverRequest core cell _ => cellOk core cell
  | .roundEnd core cell => cellOk core cell
  | .jump core cell => cellOk core cell
  | .branch core cell => cellOk core cell
  | .repeat_ core cell => cellOk core cell
  | .routerTokenForward core cell port vc => cellOk core cell && decide (port < 5) && decide (vc < 2)
  | .shstReadRequest core _ => decide (core < 8)
  | .shstLineArrive core l key part => decide (core < 8) && decide (l.loc ≤ 1) && decide (key < 256) && partOk part && dataWord l.badWord
  | .lineIn core mover => moverOk core mover
  | .lineOut core run => moverOk core run.mover && dataWord run.badWord
  | .spread core run => moverOk core run.mover && dataWord run.badWord
  | .bcast core run => moverOk core run.mover && dataWord run.badWord
  | .gather core run => moverOk core run.mover && dataWord run.badWord
  | .xcore core run => moverOk core run.mover && dataWord run.badWord
  | .save core run => moverOk core run.mover && dataWord run.badWord
  | .restore core mover => moverOk core mover
  | .moverCompletion core mover => moverOk core mover
  | .sliceQuiescent slice => sliceOk slice
  | .mouldRegister q _ => queueOk q
  | .mouldRegistrationDone part id => partOk part && decide (id < 64)
  | .mouldRelease q _ => queueOk q
  | .configLoad slice q _ => sliceOk slice && queueOk q
  | .configLoadDone slice _ => sliceOk slice
  | .phaseCombine q _ => queueOk q
  | .phaseStart q _ => queueOk q
  | .boundaryReached q _ => queueOk q
  | .napLineRead r => r.wf
  | .napLineWrite r _ => r.wf
  | .napShortRead r size => r.wf && (size == 8 || size == 32 || size == 64)
  | .napPartialWrite r data => r.wf && decide (r.dpa % 256 + data.length ≤ 256) && decide (data.length < 256)
  | .atomicAdd r _ _ _ => r.wf
  | .atomicSmin r _ _ _ => r.wf
  | .atomicSmax r _ _ _ => r.wf
  | .atomicUmin r _ _ _ => r.wf
  | .atomicUmax r _ _ _ => r.wf
  | .atomicSwap r _ _ => r.wf
  | .atomicCas r _ _ _ => r.wf
  | .xadd r _ _ => r.wf
  | .dramBurstReceived chan cl _ r => decide (chan < 256) && decide (cl < 2 ^ 23) && r.wf
  | .refreshRow tower => decide (tower < 16)
  | .towerTempSample tower temps => decide (tower < 16) && decide (temps.length = 8)
  | .patrolScrubLine chan _ => decide (chan < 256)
  | .repairSweepStart fn chan _ => agentOk fn && decide (chan < 256)
  | .repairSweepLine chan => decide (chan < 256)
  | .regionValidSet fn region _ => agentOk fn && decide (region < 64)
  | .regionValidClear fn region _ => agentOk fn && decide (region < 64)
  | .segmentCommit fn ctx seg _ => functionOk fn && ctxOk ctx && decide (seg < 8)
  | .segmentCancel fn ctx seg _ => functionOk fn && ctxOk ctx && decide (seg < 8)
  | .segmentApplied ctx seg => ctxOk ctx && decide (seg < 8)
  | .atsTranslationCompletion fn _ _ _ _ _ _ => functionOk fn
  | .atsTimeout fn _ => functionOk fn
  | .invalidationRequest fn _ _ => functionOk fn
  | .invalidationCompletion fn => functionOk fn
  | .hostReadCompletion q _ _ _ _ => queueOk q
  | .hostDlogFlip fn _ => agentOk fn
  | .hostDlogFlipDone func => functionOk func
  | .deviceDlogFlip fn part _ => agentOk fn && partOk part
  | .deviceDlogFlipDone part => partOk part
  | .contextActivate fn ctx _ => functionOk fn && ctxOk ctx
  | .contextTeardown fn ctx _ => functionOk fn && ctxOk ctx
  | .contextQuiesced ctx => ctxOk ctx
  | .queueEnable fn q _ => agentOk fn && queueOk q
  | .queueDisable fn q _ => agentOk fn && queueOk q
  | .queueRestart fn q _ => agentOk fn && queueOk q
  | .queueClearLatch fn q _ => agentOk fn && queueOk q
  | .doorbell fn q _ => functionOk fn && queueOk q
  | .descriptorArrive q _ _ => queueOk q
  | .commandAccept q _ _ => queueOk q
  | .commandStart q _ => queueOk q
  | .commandResolve q _ => queueOk q
  | .nop q _ => queueOk q
  | .compute q _ => queueOk q
  | .copy q _ => queueOk q
  | .fill q _ => queueOk q
  | .convert q _ => queueOk q
  | .wait q _ => queueOk q
  | .signal q _ => queueOk q
  | .event q _ => queueOk q
  | .fenceRearm fn fence _ => functionOk fn && decide (fence < 65536)
  | .objectCreate fn ctx _ => functionOk fn && ctxOk ctx
  | .objectFree fn ctx _ => functionOk fn && ctxOk ctx
  | .objectForceFree fn ctx _ => functionOk fn && ctxOk ctx
  | .evqHeadWrite fn evq _ => agentOk fn && decide (evq < 512)
  | .msixHoldoffExpire fn vector => functionOk fn && decide (vector < vectorCount fn)
  | .partitionForm fn part _ => agentOk fn && partOk part
  | .partitionActivate fn part _ => agentOk fn && partOk part
  | .partitionDissolve fn part _ => agentOk fn && partOk part
  | .partRangeWrite fn part off _ => agentOk fn && partOk part && decide (0x0B4 ≤ off) && decide (off ≤ 0x0E4) && decide (off % 4 = 0)
  | .functionAttach fn part _ => agentOk fn && partOk part
  | .functionDetach fn part _ => agentOk fn && partOk part
  | .handleMap fn part _ => agentOk fn && partOk part
  | .sliceGrow part => partOk part
  | .sliceShrink part => partOk part
  | .channelBind part => partOk part
  | .channelRelease part => partOk part
  | .rebalance part => partOk part
  | .portBind part => partOk part
  | .portBindTimeout part => partOk part
  | .portUnbind part => partOk part
  | .portUnbindDrainDone port => portOk port
  | .rebindAbort fn part _ => agentOk fn && partOk part
  | .spanSlotJoin fn part slot _ => agentOk fn && partOk part && decide (slot < 8)
  | .spanJoinTimeout part slot => partOk part && decide (slot < 8)
  | .spanSlotLeave fn part slot _ => agentOk fn && partOk part && decide (slot < 8)
  | .spanLeaveComplete part slot => partOk part && decide (slot < 8)
  | .rtMaskWrite fn part _ => agentOk fn && partOk part
  | .quantumExpire ctx => ctxOk ctx
  | .npDeadlineExpire q _ => queueOk q
  | .runListSwap fn part _ => agentOk fn && partOk part
  | .runListReadDone part _ _ => partOk part
  | .runListEntryEnd part entry => partOk part && decide (entry < 4096)
  | .linkBlockSend port _ => portOk port
  | .linkBlockReceive port b => portOk port && b.wf
  | .nakRepeat port => portOk port
  | .linkRekey fn port _ => agentOk fn && portOk port
  | .rd port t => portOk port && t.wf
  | .wr port t => portOk port && t.wf
  | .atom port t => portOk port && t.wf
  | .reduce port t => portOk port && t.wf
  | .reduceSpc port t => portOk port && t.wf
  | .fenceSig port t => portOk port && t.wf
  | .rsp port t => portOk port && t.wf
  | .barrier port t => portOk port && t.wf
  | .spanJoin port t => portOk port && t.wf
  | .spanAns port t => portOk port && t.wf
  | .spanLeave port t => portOk port && t.wf
  | .cmdCheck port t => portOk port && t.wf
  | .cmdRefuse port t => portOk port && t.wf
  | .heartbeat port t => portOk port && t.wf
  | .heartbeatSend port => portOk port
  | .partnerState port t => portOk port && t.wf
  | .bindReq port t => portOk port && t.wf
  | .bindAck port t => portOk port && t.wf
  | .bindRefuse port t => portOk port && t.wf
  | .unbind port t => portOk port && t.wf
  | .cert port t => portOk port && t.wf
  | .keyOffer port t => portOk port && t.wf
  | .keyProof port t => portOk port && t.wf
  | .keySwitch port t => portOk port && t.wf
  | .trunkSync port t => portOk port && t.wf
  | .routeAdv port t => portOk port && t.wf
  | .routeAdvTimer => true
  | .requestExpire tag => decide (tag < 65536)
  | .portTrain port _ _ => portOk port
  | .trainingFailure port => portOk port
  | .holdDownExpire port => portOk port
  | .linkRetrain fn port _ => agentOk fn && portOk port
  | .rteSelfWrite fn _ => agentOk fn
  | .routeEntryWrite fn _ => agentOk fn
  | .partnerLossTimeout port => portOk port
  | .routeSwitch dest => decide (dest < 4096)
  | .regulatorIssue reg waiting => decide (reg < 295) && decide ((waiting.map (·.age)).Nodup)
  | .counterSnapshot fn _ => agentOk fn
  | .powerSample mv deciA => decide (mv < 65536) && decide (deciA < 65536)
  | .elecLimitActivate => true
  | .elecLimitLift => true
  | .inputLow => true
  | .inputLowClear => true
  | .thermalSample kind idx _ => (kind != 2) && decide (idx < sensors kind)
  | .thermalTrip kind idx => decide (idx < sensors kind)
  | .hardThrottleLift kind => decide (1 ≤ kind) && decide (kind ≤ 4)
  | .keyArm fn slot _ => agentOk fn && decide (slot < 256)
  | .keyRetire fn slot _ => agentOk fn && decide (slot < 256)
  | .keyForce fn slot _ => agentOk fn && decide (slot < 256)
  | .secProtectSet fn _ => agentOk fn
  | .keyLockSet fn _ => agentOk fn
  | .keyUnlock fn _ => agentOk fn
  | .kftWrite fn word _ => agentOk fn && decide (word < 8)
  | .spdmMessage code stream => decide (code < 5) && decide (stream < 16)
  | .ideIntegrityFail stream => decide (stream < 16)
  | .lockInterface func => decide (1 ≤ func) && functionOk func
  | .stopInterface func => decide (1 ≤ func) && functionOk func
  | .functionLevelReset func => functionOk func
  | .attestReport _ _ _ => true
  | .certChainGet _ => true
  | .ownerRetire _ _ _ _ => true
  | .vendorDebugEnter _ => true
  | .commitSvn fn _ => agentOk fn
  | .engineReset kind idx => decide (kind ≤ 2) && decide (idx < engines kind)
  | .tastingTurn outcome => decide (outcome ≤ 3)
  | .partitionReset part => partOk part
  | .deviceLevelReset cause _ => decide (1 ≤ cause) && decide (cause ≤ 4)
  | .powerCycleRequest cause => decide (1 ≤ cause) && decide (cause ≤ 4)
  | .recoveryApprove fn _ => agentOk fn
  | .recoveryHold fn _ => agentOk fn
  | .recoveryRequest fn _ => agentOk fn
  | .sliceRetire slice _ => sliceOk slice
  | .channelGroupRetire group _ => decide (group < 128)
  | .portRetire port _ => portOk port
  | .retireRequest fn _ => agentOk fn
  | .crumbClear fn _ => agentOk fn
  | .getStatus src _ => sourceOk src
  | .setCap src _ watts window => sourceOk src && decide (watts < 2 ^ 16) && decide (window < 2 ^ 8)
  | .readTelemetry src _ => sourceOk src
  | .fwBegin src _ stage size => sourceOk src && decide (stage < 2 ^ 8) && decide (size < 2 ^ 32)
  | .fwData src _ off data => sourceOk src && decide (off < 2 ^ 32) && decide (data.length ≤ 1012)
  | .fwEnd src _ => sourceOk src
  | .fwSessionTimeout => true
  | .retireClear src _ type idx => sourceOk src && decide (type < 2 ^ 8) && decide (idx < 2 ^ 16)
  | .deviceReset src _ => sourceOk src
  | .sbAlarmClear _ => true
  | .modPwrEnAssert _ _ => true
  | .modPwrEnRemove => true
  | .pwrOffTimeExpire _ _ => true
  | .devResetNAssert => true
  | .devResetNRelease _ => true
  | .perstNAssert => true
  | .perstNRelease => true
  | .devThrottleNAssert _ _ => true
  | .devThrottleNRelease => true
  | .inputStuck => true
  | .stageStop _ => true
  | .oscillatorStop => true
  | .bar2Read off len => decide (0 < len) && decide (len ≤ 4096) && decide (off + len ≤ 2 ^ 36)
  | .bar2Write off data => decide (0 < data.length) && decide (data.length ≤ 4096) && decide (off + data.length ≤ 2 ^ 36)
  | .evqFnWrite fn _ => agentOk fn
  | .evqCtlWrite fn evq _ => agentOk fn && decide (evq < 512)
  | .ctxEvqHeadWrite fn ctx _ => functionOk fn && ctxOk ctx
  | .testModeWrite fn _ => agentOk fn
  | .islandHalt fn _ => agentOk fn
  | .islandResume fn _ => agentOk fn
  | .debugRead fn _ => agentOk fn
  | .debugWrite fn _ => agentOk fn
  | .startInterface func => decide (1 ≤ func) && functionOk func
  | .railFault => true
  | .pcieLinkUp gen width => decide (4 ≤ gen) && decide (gen ≤ 7) && [1, 2, 4, 8, 16].contains width
  | .portEnableClear fn port _ => agentOk fn && portOk port
  | .sbAlarmMaskWrite _ => true
  | .msixVectorUnmask fn vector => functionOk fn && decide (vector < vectorCount fn)
  | .atsEnable fn _ => functionOk fn
  | .debugAccessPort _ _ _ _ _ _ _ => true

end Sys2Proof
end

