-- ==== Sys2Proof/Safety.lean ====
section
/-! DEFINITION. The terms in which claims about the block are stated: a step that is safe, the canonical form of every byte memory,
who holds a page, which bits of a written word a register has. -/

namespace Sys2Proof.Machine

open Sys2Proof

/-- A step that neither faults nor is refused. -/
def safeStep (s : State) : Bool := match step s with
  | .next _ => true
  | _ => false

/-- Every byte memory of the block is in its canonical form: device memory, scratchpads, shares, staged firmware. -/
def State.memOk (s : State) : Bool :=
  Memory.wf s.mem && Memory.wf s.spad && Memory.wf s.share && Memory.wf s.mgmt.sessionData

/-- Page `i` of kind `p` takes writes of function `fn` as its owner's: the module is READY, the page's unit is in service, `fn` owns
the page (R518, R522). -/
def State.holds (s : State) (fn : Nat) (p : Pg) (i : Nat) : Prop :=
  s.ready = true ∧ s.pageState p i = 1 ∧ s.owns fn (p.base i) = true

/-- The bits of a written word that the fields of the register at offset `o` of a page name (R7). -/
def written (p : Pg) (o : Nat) (v : Word) : Nat := match regAt p o with
  | some r => v.toNat &&& r.mask
  | none => 0

/-- No byte of device memory, of a scratchpad or of a share differs. -/
def State.sameBytes (s t : State) : Prop :=
  (∀ a, Memory.get t.mem a = Memory.get s.mem a) ∧ (∀ a, Memory.get t.spad a = Memory.get s.spad a) ∧
    ∀ a, Memory.get t.share a = Memory.get s.share a

/-- No register differs but those listed. -/
def State.sameRegs (s t : State) (l : List Nat) : Prop := ∀ a, a ∉ l → t.rd a = s.rd a

end Sys2Proof.Machine
end

