-- ==== Sys2Proof/Certificates/Slice0/Obligations.lean ====
section
/-! DEFINITION. The statements for the provers: what the rules of the spec say that the commands and the machine do. -/

open Sys2Proof Sys2Proof.Machine

/-- For every command and state, a step with the command at the front of the queue is the command's meaning on the state with the queue's rest. On an empty queue the step goes on: one count of the management clock passes while the die assembly runs, except at the last count of an epoch of a READY device, and nothing else changes (the idle step is the model's own choice, log entry 1). -/
def Obligations.StepRunsFrontCommand : Prop :=
  (∀ (c : Instr) (rest : List Instr) (s : State), step { s with pending := c :: rest } = exec c { s with pending := rest }) ∧
  ∀ s : State, s.pending = [] → ∃ t : State, step s = .next t ∧ t = { s with mclk := t.mclk } ∧
    t.mclk = s.mclk + (if s.pins.pgood && s.pins.resetN && !s.pins.oscStopped && !(s.ready && (s.mclk + 1) % 41667 == 0) then 1 else 0)

/-- For every command and state: a well-formed command (Instr.wf: every unit, page, handle and identifier exists) answers a next state; any other is refused under the name noSuchUnit; no command faults, and none is refused in one state and answered in another. -/
def Obligations.WellFormedCommandsAnswer : Prop :=
  ∀ (c : Instr) (s : State), (c.wf = true → ∃ t : State, exec c s = .next t) ∧ (c.wf = false → exec c s = .refused .noSuchUnit)

/-- Right after reset no command waits, the management-clock count is 0, every register of every page reads its reset value of the register map, every memory is empty of listed bytes, no command is accepted, no context, queue or partition is in use, every fence is SIGNALLED at value 0 (the memories' zeros and the registers for which the spec gives no reset value are the model's own choices, log entries 3 and 4). -/
def Obligations.ResetState : Prop :=
  State.reset.pending = [] ∧ State.reset.mclk = 0 ∧ State.reset.ready = false ∧
  (∀ off, State.reset.rd off = (resetWord off).toNat) ∧ State.reset.memOk = true ∧
  (∀ a, Memory.get State.reset.mem a = 0 ∧ Memory.get State.reset.spad a = 0 ∧ Memory.get State.reset.share a = 0) ∧
  (∀ q, State.reset.cmdsOf q = [] ∧ Tab.get none State.reset.heads q = none ∧ Tab.get 0 State.reset.tails q = 0) ∧
  (∀ x, x < 1024 → State.reset.ctxState x = 0) ∧ (∀ p, p < 32 → State.reset.get (partPg p) PART_STAT_STATE = 0) ∧
  (∀ q, q < 4096 → State.reset.on (quePg q) QUE_STAT_ENABLED = false) ∧
  (∀ f, f < 65536 → State.reset.fenState f = 0 ∧ State.reset.rd64 (fenValue f) = 0) ∧
  State.reset.rd (rcvPg + GLB_HANG_CTL) = 0x04004418 ∧ State.reset.get pwrPg PWR_PROFILE_F_CEIL = 96

/-- For every state whose device memory, scratchpads, shares and staged firmware are in canonical form (addresses strictly rising, no listed byte 0), every step that answers a next state answers one in that form. That form is the model's own choice (log entry 4): equal memories are equal data. -/
def Obligations.MemoryStaysCanonical : Prop :=
  ∀ s t : State, s.memOk = true → step s = .next t → t.memOk = true

/-- The memories of the reset state are in canonical form. In any memory in that form, after a string of bytes is stored from an address, its bytes read back in order from that address upward, every other address reads as before, and the form holds. -/
def Obligations.MemoryCanonicalAtReset : Prop :=
  State.reset.memOk = true ∧
  ∀ (m : List Host.Cell) (a : Nat) (bs : Bytes), Memory.wf m = true →
    Memory.wf (Memory.write m a bs) = true ∧
    (∀ i, i < bs.length → Memory.get (Memory.write m a bs) (a + i) = bs.getD i 0) ∧
    ∀ x, x < a ∨ a + bs.length ≤ x → Memory.get (Memory.write m a bs) x = Memory.get m x

/-- For every page of a kind whose registers have no rule of their own (core, shared store, tower, narrow path, the client and global regulator pages, temperature), every single register of it beyond the header and each of its fields: a 4 B write by the owner of the page answers a next state in which an RW or RWL field holds the bits written, a W1C field its old bits without the ones written 1 (the HIGH field of SHST_MERGE_STAT is cleared whole by any one), and any other field what it held; BLK_SEQ has advanced by 1; every other register and all other state is as before. -/
def Obligations.OwnerWritesFields : Prop :=
  ∀ (s : State) (p : Pg) (i o : Nat) (r : Reg) (f : Fld) (v : Word),
    p ∈ [Pg.core, Pg.shst, Pg.memt, Pg.nap, Pg.rgl0, Pg.rglp, Pg.thm] → i < p.count → 0x40 ≤ o → o < 0x1000 →
    regAt p o = some r → r.half = .single → f ∈ r.flds → s.holds 0 p i →
    ∃ t : State, exec (.registerWrite 0 (p.base i + o) 4 (v.setWidth 64)) s = .next t ∧
      t = { s with regs := t.regs } ∧ s.sameRegs t [p.base i + o, p.base i + 0x024] ∧
      t.rd (p.base i + 0x024) = (s.rd (p.base i + 0x024) + 1) % 2 ^ 32 ∧
      bitsOf (t.rd (p.base i + o)) f.hi f.lo = match f.acc with
        | .rw | .rwl => bitsOf v.toNat f.hi f.lo
        | .w1c => (2 ^ (f.hi + 1 - f.lo) - 1 - bitsOf (wholeClear p o (written p o v)) f.hi f.lo) &&& bitsOf (s.rd (p.base i + o)) f.hi f.lo
        | _ => bitsOf (s.rd (p.base i + o)) f.hi f.lo

/-- The module is READY. (1) The physical function writes a register, beyond the header, of a page that another function owns, and the word differs from what the register shows in an RWL field: with PAGE_ERROR off (EVT_EN 0), that field is as before, VIOL and GLB_VIOL_CNT increase by 1, LAST_VIOL and GLB_VIOL_PAGE record function 0, OWNER_VIOL is set and BLK_SEQ does not advance. (2) A write to the page of a unit under reset changes nothing at all. (3) A write to an offset that names no register changes nothing. (4) A write of 2 B completes with Unsupported Request; PCI_UR_CNT and BAD of the page count it and BAD_ACCESS is set (PAGE_ERROR off), and nothing else changes. -/
def Obligations.OtherWritersAreHeld : Prop :=
  (∀ (s : State) (p : Pg) (i o : Nat) (r : Reg) (f : Fld) (v : Word), i < p.count → 0x40 ≤ o → o < 0x1000 → regAt p o = some r →
    r.half = .single → f ∈ r.flds → f.acc = .rwl → s.ready = true → s.pageState p i = 1 → s.owns 0 (p.base i) = false →
    s.on (p.base i) BLK_CTL_EVT_EN = false → bitsOf v.toNat f.hi f.lo ≠ bitsOf (s.readWord (p.base i + o)) f.hi f.lo →
    ∃ t : State, exec (.registerWrite 0 (p.base i + o) 4 (v.setWidth 64)) s = .next t ∧
      bitsOf (t.rd (p.base i + o)) f.hi f.lo = bitsOf (s.rd (p.base i + o)) f.hi f.lo ∧
      t.get (p.base i) BLK_ERR_CNT_VIOL = min 0xFFFF (s.get (p.base i) BLK_ERR_CNT_VIOL + 1) ∧
      t.get (p.base i) BLK_OWNER_LAST_VIOL = 0 ∧ bitOf (t.get (p.base i) BLK_ERR_SUM) 0 = true ∧
      t.rd (glbPg + GLB_VIOL_CNT) = min 0xFFFFFFFF (s.rd (glbPg + GLB_VIOL_CNT) + 1) ∧
      t.rd (glbPg + GLB_VIOL_PAGE) = p.base i / 0x1000 ∧ t.rd (p.base i + 0x024) = s.rd (p.base i + 0x024) ∧ s.sameBytes t) ∧
  (∀ (s : State) (p : Pg) (i o : Nat) (v : Word), i < p.count → o < 0x1000 → o % 4 = 0 → s.pageState p i = 3 →
    exec (.registerWrite 0 (p.base i + o) 4 (v.setWidth 64)) s = .next s) ∧
  (∀ (s : State) (p : Pg) (i o : Nat) (v : Word), i < p.count → o < 0x1000 → o % 4 = 0 → regAt p o = none →
    exec (.registerWrite 0 (p.base i + o) 4 (v.setWidth 64)) s = .next s) ∧
  ∀ (s : State) (p : Pg) (i o : Nat) (v : Word), i < p.count → o < 0x1000 → o % 4 = 0 → s.ready = true → s.pageState p i ≠ 3 →
    s.on (p.base i) BLK_CTL_EVT_EN = false →
    ∃ t : State, exec (.registerWrite 0 (p.base i + o) 2 (v.setWidth 64)) s = .next t ∧ t = { s with regs := t.regs, out := .unsupported 0 :: s.out } ∧
      t.rd (pciPg + PCI_UR_CNT) = min 0xFFFFFFFF (s.rd (pciPg + PCI_UR_CNT) + 1) ∧
      t.get (p.base i) BLK_ERR_CNT_BAD = min 0xFFFF (s.get (p.base i) BLK_ERR_CNT_BAD + 1) ∧
      bitOf (t.get (p.base i) BLK_ERR_SUM) 1 = true ∧
      s.sameRegs t [pciPg + PCI_UR_CNT, p.base i + 0x010, p.base i + 0x014]

/-- For the physical function. A read of the low word of a pair returns it and latches the high word; the next read of the high word returns the latched word and releases the latch, and with none held the live word. A write of the low word is held and changes no register. The owner's write of the high word of QUE_RING, while the queue's ENABLE is 0, makes the held low word and the high word take effect together, releases the held word and advances BLK_SEQ once; with none held the low word keeps its value. -/
def Obligations.PairsReadAndWriteTogether : Prop :=
  (∀ (s : State) (o : Nat), o + 8 ≤ 0x4000000 → o % 4 = 0 → halfAt o = .low →
    exec (.pairLowRead 0 o) s = .next { s with
      pairLatch := Tab.put none (pairKey 0 o) (some (BitVec.ofNat 32 (s.readWord (o + 4)))) s.pairLatch,
      out := .readData 0 (leBytes 4 (s.readWord o)) :: s.out }) ∧
  (∀ (s : State) (o : Nat) (w : Word), o + 8 ≤ 0x4000000 → o % 4 = 0 → halfAt (o + 4) = .high →
    (Tab.get none s.pairLatch (pairKey 0 o) = some w → exec (.pairHighRead 0 (o + 4)) s = .next { s with
      pairLatch := Tab.put none (pairKey 0 o) none s.pairLatch, out := .readData 0 (leBytes 4 w.toNat) :: s.out }) ∧
    (Tab.get none s.pairLatch (pairKey 0 o) = none →
      exec (.pairHighRead 0 (o + 4)) s = .next { s with out := .readData 0 (leBytes 4 (s.readWord (o + 4))) :: s.out })) ∧
  ∀ (s : State) (q : Nat) (lo hi : Word), q < 4096 → s.holds 0 .que q →
    let a := quePg q + QUE_RING
    exec (.pairLowWrite 0 a lo) s = .next { s with pairHeld := Tab.put none (pairKey 0 a) (some lo) s.pairHeld } ∧
    (s.on (quePg q) QUE_CTL_ENABLE = false →
      let u := { s with pairHeld := Tab.put none (pairKey 0 a) none s.pairHeld }
      (Tab.get none s.pairHeld (pairKey 0 a) = some lo → ∃ t : State, exec (.pairHighWrite 0 (a + 4) hi) s = .next t ∧
        t = { u with regs := t.regs } ∧ bitsOf (t.rd a) 31 12 = bitsOf lo.toNat 31 12 ∧ t.rd (a + 4) = hi.toNat ∧
        t.rd (quePg q + 0x024) = (s.rd (quePg q + 0x024) + 1) % 2 ^ 32 ∧ s.sameRegs t [a, a + 4, quePg q + 0x024]) ∧
      (Tab.get none s.pairHeld (pairKey 0 a) = none → ∃ t : State, exec (.pairHighWrite 0 (a + 4) hi) s = .next t ∧
        t = { u with regs := t.regs } ∧ t.rd (a + 4) = hi.toNat ∧
        t.rd (quePg q + 0x024) = (s.rd (quePg q + 0x024) + 1) % 2 ^ 32 ∧ s.sameRegs t [a + 4, quePg q + 0x024]))

/-- A request whose address lies in a region on a channel in service, within the ranges of its command, with a current generation and a key index in service. A full read of a line that no buffer holds delivers the stored line when it was sealed under that key, and changes no byte; one that a buffer holds, clean or dirty for less than 10 us, delivers the buffer; an uncorrectable line breaks the command. A full write stores its 256 bytes at the line, drops the line's buffers, and leaves every other byte. A short read of a buffered line delivers its bytes. A partial write, an atomic or an XADD on a buffered line replaces its bytes by the new value (sum, signed or unsigned least or greatest, operand, operand when equal to the comparand, exact sum), makes the buffer dirty, and returns the old value where asked; device memory itself stays until the write-back. One that is not aligned to its size, or outside the ranges of its command, breaks the command with RIGHTS, the latter with the refusal 0x21 recorded, and one of an old generation is dropped and counted. -/
def Obligations.NarrowAccessesToALine : Prop :=
  ∀ (s : State) (r : Req) (p : Place), reqOk r = true → s.place r.dpa = some p →
    let u := s.beat 2 (p.chan / 16)
    let inside := fun (n : Nat) => s.strays r n = none
    let served := fun (n : Nat) => inside n ∧ Tab.get 0 s.gens r.ctx = r.gen ∧ s.chanRetired p.chan = false ∧ s.keyServed r.key = true
    let small : List (Instr × Nat) := [(.napShortRead r 8, 8), (.napShortRead r 32, 32), (.napShortRead r 64, 64)]
    let signedMin := fun (w : Nat) (x y : BitVec w) => if x.slt y then x else y
    (Tab.get 0 s.gens r.ctx ≠ r.gen → inside 256 → ∀ c : Instr, c ∈ [.napLineRead r, .napLineWrite r (List.replicate 256 0)] →
      exec c s = .next (s.errCount (napPg (p.chan / 16)) NAP_STALE_DROP 1)) ∧
    (∀ c i, s.strays r 256 = some (c, i) → exec (.napLineRead r) s =
      .next ((s.xlatRej c.ctx 0x21 ((c.ranges.getD i {}).seg) i true).breakCmd c.q c.seq codeRights 4 c.q 0x21)) ∧
    (served 256 → (∀ b, b ∈ u.bufs p.chan → b.cl ≠ p.cl) →
      (∀ w, w < 2 → Tab.get 0 s.badLines (lineNo p.chan p.cl) = w + 1 → exec (.napLineRead r) s =
        .next ((u.uncorrected p.chan p.cl w).deliver r (.failed codeMemUncorrectable 0 (136 + p.chan / 16)))) ∧
      (Tab.get 0 s.badLines (lineNo p.chan p.cl) = 0 → (r.key = 0 ∨ Tab.get {} s.seals (lineNo p.chan p.cl) = s.sealFor r.key r.dpa) →
        ∃ t : State, exec (.napLineRead r) s = .next t ∧ t.mem = s.mem ∧ s.sameBytes t ∧
          t.out = .served r.q r.seq (if r.key = 0 then s.lineStored p.chan p.cl else s.lineData p.chan p.cl) :: s.out)) ∧
    (served 256 → ∀ b, u.match? p.chan p.cl r.key = some b → (b.dirty = false ∨ s.mclk < b.since + 1000) →
      exec (.napLineRead r) s = .next (((u.bump64 (napPg (p.chan / 16) + NAP_HIT_CNT) 1).useBuf p.chan b).deliver r (.data b.data))) ∧
    (served 256 → ∀ data : Bytes, data.length = 256 → Memory.wf s.mem = true →
      ∃ t : State, exec (.napLineWrite r data) s = .next t ∧ (∀ i, i < 256 → Memory.get t.mem (lineKey p.chan p.cl + i) = data.getD i 0) ∧
        (∀ a, a < lineKey p.chan p.cl ∨ lineKey p.chan p.cl + 256 ≤ a → Memory.get t.mem a = Memory.get s.mem a) ∧
        Tab.get {} t.seals (lineNo p.chan p.cl) = s.sealFor r.key r.dpa ∧ Tab.get 0 t.badLines (lineNo p.chan p.cl) = 0 ∧
        (∀ b, b ∈ t.bufs p.chan → b.cl ≠ p.cl) ∧ t.spad = s.spad ∧ t.share = s.share) ∧
    (∀ b, u.match? p.chan p.cl r.key = some b →
      let w := (u.useBuf p.chan b).bump64 (napPg (p.chan / 16) + NAP_HIT_CNT) 1
      let after := fun (d : Bytes) (old : Bytes) => ((w.useBuf p.chan { b with data := d, dirty := true, since := if b.dirty then b.since else s.mclk }).markBlock r.dpa).deliver r (.data old)
      (∀ e, e ∈ small → served e.2 → r.dpa % e.2 = 0 → exec e.1 s = .next (w.deliver r (.data (sliceBytes b.data p.byte e.2)))) ∧
      (∀ data : Bytes, served data.length → data.length < 256 → r.dpa % 256 + data.length ≤ 256 → exec (.napPartialWrite r data) s = .next (after (patchBytes b.data p.byte data) [])) ∧
      (∀ acc spec, served 64 → r.dpa % 64 = 0 → exec (.xadd r acc spec) s =
        .next (after (patchBytes b.data p.byte ((accOf (sliceBytes b.data p.byte 64)).add ⟨acc, spec⟩).bytes) [])) ∧
      (∀ (wide ret : Bool) (operand comparand : BitVec 64),
        let n := if wide then 8 else 4
        let old := leAt b.data p.byte n
        let x := operand.toNat % 2 ^ (8 * n)
        let o' := BitVec.ofNat (8 * n) old
        let x' := BitVec.ofNat (8 * n) x
        let put := fun (v : Nat) (back : Bool) => after (patchBytes b.data p.byte (leBytes n v)) (if back then leBytes n old else [])
        served n → r.dpa % n = 0 →
        exec (.atomicAdd r wide ret operand) s = .next (put ((old + x) % 2 ^ (8 * n)) ret) ∧
        exec (.atomicSmin r wide ret operand) s = .next (put (signedMin _ o' x').toNat ret) ∧
        exec (.atomicSmax r wide ret operand) s = .next (put (if o'.slt x' then x' else o').toNat ret) ∧
        exec (.atomicUmin r wide ret operand) s = .next (put (min old x) ret) ∧
        exec (.atomicUmax r wide ret operand) s = .next (put (max old x) ret) ∧
        exec (.atomicSwap r wide operand) s = .next (put x true) ∧
        exec (.atomicCas r wide operand comparand) s = .next (put (if old = comparand.toNat % 2 ^ (8 * n) then x else old) true))) ∧
    (∀ e, e ∈ small → r.dpa % e.2 ≠ 0 → exec e.1 s = .next (s.breakCmd r.q r.seq codeRights 4 r.q)) ∧
    (∀ acc spec, r.dpa % 64 ≠ 0 → exec (.xadd r acc spec) s = .next (s.breakCmd r.q r.seq codeRights 4 r.q)) ∧
    (∀ (wide ret : Bool) (operand : BitVec 64), r.dpa % (if wide then 8 else 4) ≠ 0 →
      exec (.atomicAdd r wide ret operand) s = .next (s.breakCmd r.q r.seq codeRights 4 r.q) ∧
      exec (.atomicSwap r wide operand) s = .next (s.breakCmd r.q r.seq codeRights 4 r.q))

/-- The memory-controller island is not halted. With e unlisted bad lanes and f listed ones in a codeword, 2e + f of at most 8 is corrected. A burst, of a line that no buffer holds, without errors or erasures delivers the line; one that is corrected is counted with its lanes and delivers it; one that is not corrected marks and records the line as uncorrectable in the first codeword that is not, and breaks the reader; a line sealed under another key is a tag failure; errors in tag lanes are read again, and count as a tag retry when they have gone, else as a tag failure. Refresh moves to the tower's next row. The patrol scrub goes to the channel's next line, counts a corrected one, or one read with erasures, as written back, marks an uncorrectable one; a clean line changes nothing else. START of MEMC_REPAIR_CTL, written by the owner of the page (Skeldor), lists the lane as an erasure, points the sweep at line 0 and shows BUSY, and is ignored while a sweep runs, with eight spares in use or dead, or for a lane above 271. A sweep step moves the pointer; the last one takes the lane off the erasures into the spares, clears BUSY and sets DONE. -/
def Obligations.LanesRefreshScrubAndRepair : Prop :=
  ∀ (s : State) (chan : Nat), chan < 256 →
    let c := s.atChan chan
    let pg := memcPg chan
    let runs := s.halted.contains (136 + chan / 16) = false
    (∀ (cl : Nat) (bad again : List Nat) (r : Req), cl < 2 ^ 23 → reqOk r = true → runs → (∀ b, b ∈ s.bufs chan → b.cl ≠ cl) →
      Tab.get 0 s.badLines (lineNo chan cl) = 0 →
      let e := cwErrors (c.lanesAt cl) bad
      let fits := ∀ w, w < 2 → 2 * (e w).1 + (e w).2 ≤ 8
      let tagged := fun (l : List Nat) => (c.lanesAt cl).tagErrors l
      let line := fun (u : State) => u.deliver r (.data (if r.key = 0 then u.lineStored chan cl else u.lineData chan cl))
      let mine := r.key = 0 ∨ Tab.get {} s.seals (lineNo chan cl) = s.sealFor r.key r.dpa
      let lost := fun (u : State) => u.deliver r (.failed codeTagFail 0 (136 + chan / 16))
      (e 0 = (0, 0) → e 1 = (0, 0) → tagged bad = false → mine → exec (.dramBurstReceived chan cl ⟨bad, again⟩ r) s = .next (line s)) ∧
      (fits → ¬ mine → exec (.dramBurstReceived chan cl ⟨bad, again⟩ r) s =
        .next (lost ((s.countCorr chan cl bad).tagFailed chan cl (s.sealFor r.key r.dpa) 1))) ∧
      (fits → (e 0).1 + (e 1).1 ≠ 0 → (e 0).2 + (e 1).2 = 0 → tagged bad = false → mine →
        exec (.dramBurstReceived chan cl ⟨bad, again⟩ r) s = .next (line ((s.errCount pg MEMC_CORR 1).countLanes chan bad))) ∧
      (¬ fits → exec (.dramBurstReceived chan cl ⟨bad, again⟩ r) s =
        .next (((s.setBad chan cl (if 2 * (e 0).1 + (e 0).2 ≤ 8 then 1 else 0)).uncorrected chan cl (if 2 * (e 0).1 + (e 0).2 ≤ 8 then 1 else 0)).deliver r
          (.failed codeMemUncorrectable 0 (136 + chan / 16)))) ∧
      (r.key ≠ 0 → fits → tagged bad = true → mine → again = [] →
        exec (.dramBurstReceived chan cl ⟨bad, again⟩ r) s = .next (line (((s.countCorr chan cl bad).countCorr chan cl []).errCount pg MEMC_TAG_RETRY 1))) ∧
      (r.key ≠ 0 → fits → tagged bad = true → mine → again = bad → exec (.dramBurstReceived chan cl ⟨bad, again⟩ r) s =
        .next (lost (((((s.countCorr chan cl bad).countCorr chan cl bad).setBad chan cl 2)).tagFailed chan cl (s.sealFor r.key r.dpa) 1)))) ∧
    (∀ tower, tower < 16 → ∃ t : State, exec (.refreshRow tower) s = .next t ∧ (t.atTower tower).row = ((s.atTower tower).row + 1) % 65536 ∧
      t.regs = s.regs ∧ t.mem = s.mem ∧ s.sameBytes t) ∧
    (∀ bad : List Nat,
      let e := cwErrors (c.lanesAt c.scrub) bad
      let fits := ∀ w, w < 2 → 2 * (e w).1 + (e w).2 ≤ 8
      let next := s.updChan chan (fun c => { c with scrub := (c.scrub + 1) % 2 ^ 23 })
      let known := Tab.get 0 s.badLines (lineNo chan c.scrub)
      runs →
      (∀ w, w < 2 → known = w + 1 → exec (.patrolScrubLine chan bad) s = .next (next.uncorrected chan c.scrub w)) ∧
      (known = 0 → fits → e 0 = (0, 0) → e 1 = (0, 0) → exec (.patrolScrubLine chan bad) s = .next next) ∧
      (known = 0 → fits → (e 0).1 + (e 0).2 + (e 1).1 + (e 1).2 ≠ 0 → exec (.patrolScrubLine chan bad) s =
        .next ((next.countCorr chan c.scrub bad).bump (pg + MEMC_SCRUB_CNT) 1)) ∧
      (known = 0 → ¬ fits → exec (.patrolScrubLine chan bad) s =
        .next ((next.setBad chan c.scrub (if 2 * (e 0).1 + (e 0).2 ≤ 8 then 1 else 0)).uncorrected chan c.scrub (if 2 * (e 0).1 + (e 0).2 ≤ 8 then 1 else 0)))) ∧
    (∀ (fn : Nat) (v : Word), (fn = 0 ∨ fn = 256) → s.holds fn .memc chan →
      let w := written .memc MEMC_REPAIR_CTL v
      let lane := w % 512
      let takes := c.sweep = none ∧ c.spared.length + c.dead.length < 8 ∧ lane ≤ 271
      (bitOf w 9 = true → takes → ∃ t : State, exec (.repairSweepStart fn chan v) s = .next t ∧ (t.atChan chan).sweep = some (lane, 0) ∧ lane ∈ (t.atChan chan).eras ∧
        (t.atChan chan).spared = c.spared ∧ (∀ k, k ≠ chan → t.atChan k = s.atChan k) ∧ t.get pg MEMC_REPAIR_CTL_BUSY = 1 ∧
        t.get pg MEMC_LANE_STAT_SPARES_USED = c.spared.length + 1 ∧ s.sameBytes t) ∧
      (bitOf w 9 = false ∨ ¬ takes → ∃ t : State, exec (.repairSweepStart fn chan v) s = .next t ∧ t = { s with regs := t.regs })) ∧
    (c.sweep = none → exec (.repairSweepLine chan) s = .next s) ∧
    (∀ lane ptr, runs → c.sweep = some (lane, ptr) → Tab.get 0 s.badLines (lineNo chan ptr) = 0 →
      (∀ w, w < 2 → (c.eras.filter (fun l => decide (l < 272) && decide (l % 2 = w))).length ≤ 8) →
      (ptr + 1 < 2 ^ 23 → exec (.repairSweepLine chan) s = .next ((s.countEras chan ptr).updChan chan (fun c => { c with sweep := some (lane, ptr + 1) }))) ∧
      (2 ^ 23 ≤ ptr + 1 → ∃ t : State, exec (.repairSweepLine chan) s = .next t ∧
        t.atChan chan = { c with sweep := none, eras := c.eras.erase lane, spared := lane :: c.spared } ∧
        t.get pg MEMC_REPAIR_CTL_BUSY = 0 ∧ t.get pg MEMC_REPAIR_CTL_DONE = 1 ∧ s.sameBytes t))

/-- The physical function owns the page. VALID written 1 to a region that is not valid takes effect when every check rule passes; else the entry keeps VALID 0 and the first rule that fails is recorded. A write that changes word 0 of a valid region is dropped with rule 9; VALID written 0 is dropped with rule 5 while the region is in use, else the region is no longer valid. FLIP of PCI_DLOG_CTL starts the exchange of the selected function's bitmaps unless one runs; when it is done ACTIVE has toggled and FLIP_BUSY is 0. FLIP of PART_DLOG_CTL keeps the partition's block log as the old one and starts an empty log; when it is done the old one has gone out to the address in PART_DLOG_HOST and FLIP_BUSY is 0. A completion without an exchange changes nothing. -/
def Obligations.RegionsAndDirtyLogs : Prop :=
  ∀ s : State,
    (∀ (r : Nat) (v : Word), r < 64 → s.holds 0 .map 0 →
      let a := regionAt r + GLB_REGION_0
      let w := written .map (GLB_REGION_0 + 16 * r) v
      let t := s.wr a w
      (bitOf w 0 = true → s.regValid r = false → t.regionRule r = 0 → exec (.regionValidSet 0 r v) s = .next (t.bumpSeq mapPg) ∧ (t.bumpSeq mapPg).regValid r = true) ∧
      (bitOf w 0 = true → s.regValid r = false → t.regionRule r ≠ 0 → ∃ u : State, exec (.regionValidSet 0 r v) s = .next u ∧ u.regValid r = false ∧
        u.get mapPg GLB_MAP_ERR_INDEX = r ∧ u.get mapPg GLB_MAP_ERR_RULE = t.regionRule r ∧ s.sameBytes u) ∧
      (bitOf w 0 = true → s.regValid r = true → w = s.rd a → exec (.regionValidSet 0 r v) s = .next (s.bumpSeq mapPg)) ∧
      (bitOf w 0 = true → s.regValid r = true → w ≠ s.rd a → exec (.regionValidSet 0 r v) s = .next (s.mapError r false 9)) ∧
      (bitOf w 0 = false → s.regValid r = true → s.regionInUse r = true → exec (.regionValidClear 0 r v) s = .next (s.mapError r false 5)) ∧
      (bitOf w 0 = false → s.regValid r = true → s.regionInUse r = false →
        exec (.regionValidClear 0 r v) s = .next (t.bumpSeq mapPg) ∧ (t.bumpSeq mapPg).regValid r = false)) ∧
    (∀ v : Word, s.holds 0 .pci 0 →
      let f := s.get pciPg PCI_DLOG_SEL_FUNCTION
      let w := written .pci PCI_DLOG_CTL_FLIP.off v
      let t := s.mark (dlogPg f) PCI_DLOG_CTL_ENABLE (bitOf w 0)
      bitOf w 4 = false →
      (bitOf w 1 = true → s.on (dlogPg f) PCI_DLOG_CTL_FLIP_BUSY = false → exec (.hostDlogFlip 0 v) s = .next ((t.set (dlogPg f) PCI_DLOG_CTL_FLIP_BUSY 1).bumpSeq pciPg)) ∧
      (s.on (dlogPg f) PCI_DLOG_CTL_FLIP_BUSY = true → exec (.hostDlogFlip 0 v) s = .next (t.bumpSeq pciPg))) ∧
    (∀ f, f < 256 →
      (s.on (dlogPg f) PCI_DLOG_CTL_FLIP_BUSY = false → exec (.hostDlogFlipDone f) s = .next s) ∧
      (s.on (dlogPg f) PCI_DLOG_CTL_FLIP_BUSY = true → ∃ t : State, exec (.hostDlogFlipDone f) s = .next t ∧ t = { s with regs := t.regs } ∧
        t.on (dlogPg f) PCI_DLOG_CTL_ACTIVE = !s.on (dlogPg f) PCI_DLOG_CTL_ACTIVE ∧ t.on (dlogPg f) PCI_DLOG_CTL_FLIP_BUSY = false ∧
        s.sameRegs t [dlogPg f + PCI_DLOG_CTL_FLIP.off])) ∧
    ∀ (p : Nat) (v : Word), p < 32 →
      let w := written .part PART_DLOG_CTL_FLIP.off v
      (s.holds 0 .part p → bitOf w 1 = true → s.on (partPg p) PART_DLOG_CTL_FLIP_BUSY = false →
        ∃ t : State, exec (.deviceDlogFlip 0 p v) s = .next t ∧ t.on (partPg p) PART_DLOG_CTL_FLIP_BUSY = true ∧ (t.atPart p).dlogOld = (s.atPart p).dlog ∧
          (t.atPart p).dlog = [] ∧ t.on (partPg p) PART_DLOG_CTL_ENABLE = bitOf w 0 ∧ s.sameRegs t [partPg p + PART_DLOG_CTL_FLIP.off, partPg p + 0x024] ∧ s.sameBytes t) ∧
      (s.on (partPg p) PART_DLOG_CTL_FLIP_BUSY = false → exec (.deviceDlogFlipDone p) s = .next s) ∧
      (s.on (partPg p) PART_DLOG_CTL_FLIP_BUSY = true → exec (.deviceDlogFlipDone p) s =
        .next (((s.hostStore 0 (s.rd64 (partPg p + PART_DLOG_HOST)) (dlogBytes (s.atPart p).dlogOld)).set (partPg p) PART_DLOG_CTL_FLIP_BUSY 0).updPart p
          (fun x => { x with dlogOld := [] })))

/-- A translation completion that answers an outstanding request of its function stores the translation in place of those it overlaps, one request fewer being outstanding (no translation of the function being marked, and no command waiting for one); one that answers none changes nothing. A request that times out is held as a translation in error. When the page belonged to a translation marked invalid, a time-out breaks the commands that refer to it and the other pages wanted are asked for. An invalidation request marks every translation of the function that it overlaps, counts if there was one, and leaves the others; its completion goes out once, when no read of the function is without an answer, and drops no translation that is not marked. Data that the host returns for a running command are put at their place among its source bytes, when no LINE_IN asked for them; an error status breaks the command with the run-time reason 0x20 for the range read, and flushes its cells. -/
def Obligations.HostTranslations : Prop :=
  ∀ (s : State) (fn : Nat), fn < 256 →
    (∀ (page pages bus : Nat) (rd wr err : Bool),
      let answers := fun (e : Nat × Nat) => e.1 = fn ∧ page ≤ e.2 ∧ e.2 < page + max pages 1
      ((∀ e, e ∈ s.xreq → ¬ answers e) → exec (.atsTranslationCompletion fn page pages bus rd wr err) s = .next s) ∧
      ((∃ e, e ∈ s.xreq ∧ answers e) → (∀ x, x ∈ s.trans → x.fn = fn → x.marked = false) → (∀ c, c ∈ s.allCmds → c.retrans = false) →
        ∃ t : State, exec (.atsTranslationCompletion fn page pages bus rd wr err) s = .next t ∧
          t.trans.head? = some { fn := fn, page := page, pages := max pages 1, bus := bus, rd := rd, wr := wr, err := err } ∧
          (∀ x, x ∈ s.trans → (x.fn ≠ fn ∨ page + max pages 1 ≤ x.page ∨ x.page + x.pages ≤ page) → x ∈ t.trans) ∧
          t.xreq.length + 1 = s.xreq.length ∧ t.regs = s.regs ∧ s.sameBytes t)) ∧
    (∀ page,
      ((fn, page) ∉ s.xreq → exec (.atsTimeout fn page) s = .next s) ∧
      ((fn, page) ∈ s.xreq →
        let u := { s with xreq := s.xreq.erase (fn, page) }
        let again := ∃ x, x ∈ s.trans ∧ x.marked = true ∧ x.fn = fn ∧ x.page ≤ page ∧ page < x.page + x.pages
        (again → exec (.atsTimeout fn page) s = .next ((u.retransFailed fn page).askMarked fn)) ∧
        (¬ again → exec (.atsTimeout fn page) s =
          .next { u with trans := { fn := fn, page := page, pages := 1, bus := 0, rd := false, wr := false, err := true } :: s.trans }))) ∧
    (∀ page pages,
      let hit := fun (x : Trans) => decide (x.fn = fn ∧ x.page < page + pages ∧ page < x.page + x.pages)
      ∃ t : State, exec (.invalidationRequest fn page pages) s = .next t ∧ t.trans = s.trans.map (fun x => if hit x then { x with marked := true } else x) ∧ t.inval = s.inval ++ [fn] ∧
        t.rd (pciPg + PCI_ATS_INVAL_CNT) = (if s.trans.any hit then min 0xFFFFFFFF (s.rd (pciPg + PCI_ATS_INVAL_CNT) + 1) else s.rd (pciPg + PCI_ATS_INVAL_CNT)) ∧
        s.sameRegs t [pciPg + PCI_ATS_INVAL_CNT, pciPg + PCI_ATS_XREQ_CNT] ∧ s.sameBytes t) ∧
    (fn ∉ s.inval ∨ s.hostOutstanding fn = true → exec (.invalidationCompletion fn) s = .next s) ∧
    (fn ∈ s.inval → s.hostOutstanding fn = false → ∃ t : State, exec (.invalidationCompletion fn) s = .next t ∧ t.out = .invalDone fn :: s.out ∧ t.inval = s.inval.erase fn ∧
      (∀ x, x ∈ s.trans → (x.marked = false ∨ x.fn ≠ fn) → x ∈ t.trans) ∧ t.regs = s.regs ∧ s.sameBytes t) ∧
    ∀ (q seq status dst : Nat) (data : Bytes) (c : Cmd), q < 4096 → s.cmd? q seq = some c →
      ((c.work = true ∨ c.started = false) → exec (.hostReadCompletion q seq status dst data) s = .next s) ∧
      (c.work = false → c.started = true → status ≠ 0 → exec (.hostReadCompletion q seq status dst data) s = .next ((s.xlatBreak c 0x20 codeTranslationReject (s.readRange c dst)).flushCmd q seq)) ∧
      (c.work = false → c.started = true → status = 0 → s.lineInOf q seq dst = none → exec (.hostReadCompletion q seq status dst data) s =
        .next (s.updCmd q seq (fun c => { c with got := c.got + data.length, buf := patchBytes (c.buf ++ List.replicate (dst + data.length - c.buf.length) 0) dst data })))

/-- The physical function owns the page of queue q and writes QUE_CTL without RESTART and CLEAR_LATCH (the settings, bits 24 to 1, are stored first). Setting ENABLE on a queue that is not enabled: a context that is not ACTIVE records reason 0x09, then a ring or completion area outside its segment 0x07, then a real-time queue of a partition without reservation 0x08, and nothing else changes; when all checks pass ENABLE and ENABLED become 1. Clearing ENABLE while no accepted, unresolved command is held returns tail, HEAD, SEQ and DONE to 0, clears QUE_STAT, and drops the descriptor at the head; while one is held the write is dropped whole with BAD_ACCESS. BLK_SEQ counts a write that takes effect; everything not named is as before. -/
def Obligations.QueueEnableAndDisable : Prop :=
  ∀ (s : State) (q : Nat) (v : Word), q < 4096 → s.holds 0 .que q →
    let pg := quePg q
    let w := written .que QUE_CTL v
    bitOf w 25 = false → bitOf w 26 = false →
    (bitOf w 0 = true → s.on pg QUE_CTL_ENABLE = false →
      let t := s.wr (pg + QUE_CTL) (putBits (w &&& maskOf 24 0) 0 0 0)
      let late := t.get pg QUE_CTL_CLASS = 1 ∧ t.rd (partPg (t.partOf (t.queCtx q)) + PART_RT_MASK) = 0
      t.on pg QUE_STAT_ENABLED = false →
        (t.ctxState (t.queCtx q) ≠ 1 → exec (.queueEnable 0 q v) s = .next ((t.set pg QUE_ERR_REASON 0x09).bumpSeq pg)) ∧
        (t.ctxState (t.queCtx q) = 1 → ¬ (t.ringOk q = true ∧ t.cplOk q = true) →
          exec (.queueEnable 0 q v) s = .next ((t.set pg QUE_ERR_REASON 0x07).bumpSeq pg)) ∧
        (t.ctxState (t.queCtx q) = 1 → t.ringOk q = true → t.cplOk q = true → late →
          exec (.queueEnable 0 q v) s = .next ((t.set pg QUE_ERR_REASON 0x08).bumpSeq pg)) ∧
        (t.ctxState (t.queCtx q) = 1 → t.ringOk q = true → t.cplOk q = true → ¬ late →
          exec (.queueEnable 0 q v) s = .next (((t.set pg QUE_STAT_ENABLED 1).set pg QUE_CTL_ENABLE 1).bumpSeq pg))) ∧
    (bitOf w 0 = false → s.on pg QUE_CTL_ENABLE = true →
      (s.queueBusy q = true → exec (.queueDisable 0 q v) s = .next (s.badAccess pg)) ∧
      (s.queueBusy q = false →
        let t := s.wr (pg + QUE_CTL) (putBits (w &&& maskOf 24 0) 0 0 1)
        let u := { t with tails := Tab.put 0 q 0 s.tails, heads := Tab.put none q none s.heads, cmds := Tab.put [] q [] s.cmds, latched := Tab.put [] q [] s.latched }
        exec (.queueDisable 0 q v) s =
          .next ((((((u.wr (pg + QUE_STAT) 0).set pg QUE_CTL_ENABLE 0).wr (pg + QUE_HEAD) 0).wr (pg + QUE_SEQ) 0).wr (pg + QUE_DONE) 0).bumpSeq pg)))

/-- The physical function owns the page of queue q. RESTART (ENABLE kept as it is) of a halted queue whose completion area still lies in its segment clears HALTED and drops the fetched head, so that the head descriptor is fetched again; with a completion area outside it, reason 0x0A is recorded and the queue stays halted. CLEAR_LATCH clears the latch and STAT.LATCH. A doorbell of an enabled queue with an ACTIVE context whose value lies between the tail and 2^n ahead of the head becomes the tail; any other is ignored and counted. BLK_SEQ counts each write; everything not named is as before. -/
def Obligations.QueueRestartLatchDoorbell : Prop :=
  ∀ (s : State) (q : Nat) (v : Word), q < 4096 → s.holds 0 .que q →
    let pg := quePg q
    let w := written .que QUE_CTL v
    let t := s.wr (pg + QUE_CTL) (w &&& maskOf 24 0)
    (bitOf w 0 = s.on pg QUE_CTL_ENABLE → bitOf w 26 = false → bitOf w 25 = true →
      t.on pg QUE_STAT_HALTED = true →
      (t.cplOk q = true → exec (.queueRestart 0 q v) s =
        .next (({ t.set pg QUE_STAT_HALTED 0 with heads := Tab.put none q none t.heads }).bumpSeq pg)) ∧
      (t.cplOk q = false → exec (.queueRestart 0 q v) s = .next ((t.set pg QUE_ERR_REASON 0x0A).bumpSeq pg))) ∧
    (bitOf w 0 = true → s.on pg QUE_CTL_ENABLE = true → bitOf w 25 = false → bitOf w 26 = true →
      exec (.queueClearLatch 0 q v) s =
        .next ((({ t with latched := Tab.put [] q [] s.latched }).set pg QUE_STAT_LATCH 0).bumpSeq pg)) ∧
    (let ahead := fun (n : Nat) => (n + 2 ^ 32 - s.rd (pg + QUE_HEAD)) % 2 ^ 32
     let old := (Tab.get 0 s.tails q).toNat
     let good := s.on pg QUE_STAT_ENABLED = true ∧ s.ctxState (s.queCtx q) = 1 ∧ ahead old ≤ ahead v.toNat ∧ ahead v.toNat ≤ 2 ^ s.queLog q
     (good → exec (.doorbell 0 q v) s = .next (({ s with tails := Tab.put 0 q v s.tails }).bumpSeq pg)) ∧
     (¬ good → exec (.doorbell 0 q v) s = .next ((s.errCount pg QUE_DB_ERR_CNT 1).bumpSeq pg)))

/-- A function that reaches and owns the page of context x writes word 6 of segment g. COMMIT (without CANCEL) of a staging copy that fails check c of R173 sets ERR to c and changes nothing else; one that passes and is widening makes the six words of the staging copy the committed entry and clears ERR; one that passes and narrows, while accepted commands name the segment and no change waits, leaves the entry and becomes pending (no rebalance covers the segment in either case). CANCEL discards a pending change that has not applied. SEGMENT_APPLIED with no command naming the segment applies the pending change, clears PENDING and writes the SEGMENT_APPLIED record. -/
def Obligations.SegmentCommitAndApply : Prop :=
  ∀ (s : State) (fn x g : Nat) (v : Word), fn < 256 → x < 1024 → g < 8 →
    let e := segOfWords (s.segStaged x g)
    let p := s.get (ctxPg x) CTX_STAT_PARTITION
    let c := if e.valid then s.segCheck p e else 0
    let k := x * 8 + g
    (s.reachesPage fn 2 x = true → s.holds fn .ctx x →
      let w := written .ctx (0x218 + 32 * g) v
      (bitOf w 17 = false → bitOf w 31 = true →
        (c ≠ 0 → exec (.segmentCommit fn x g v) s = .next ((s.set (segAt x g) CTX_SEG_6_ERR c).bumpSeq (ctxPg x))) ∧
        (c = 0 → s.rebalCovers p (s.seg x g) = false → s.rebalCovers p e = false →
          (widening (s.seg x g) e = true → ∃ t : State, exec (.segmentCommit fn x g v) s = .next t ∧ t.seg x g = e ∧
            t.get (segAt x g) CTX_SEG_6_ERR = 0 ∧ t = { s with regs := t.regs } ∧
            s.sameRegs t ((ctxPg x + 0x024) :: (List.range 7).map (fun i => segAt x g + CTX_SEG_0 + 4 * i))) ∧
          (widening (s.seg x g) e = false → s.segHold x g ≠ 0 → s.atSegPend k = {} → ∃ t : State, exec (.segmentCommit fn x g v) s = .next t ∧
            t.seg x g = s.seg x g ∧ t.get (segAt x g) CTX_SEG_6_PENDING = 1 ∧ t.get (segAt x g) CTX_SEG_6_ERR = 0 ∧
            t.atSegPend k = ⟨(s.segStaged x g).map (BitVec.ofNat 32), false, false⟩ ∧ t = { s with regs := t.regs, segPend := t.segPend }))) ∧
      (bitOf w 17 = true → bitOf w 31 = false → (s.atSegPend k).words ≠ [] → (s.atSegPend k).applied = false →
        exec (.segmentCancel fn x g v) s =
          .next (((s.updSegPend k (fun _ => {})).set (segAt x g) CTX_SEG_6_PENDING 0).bumpSeq (ctxPg x)))) ∧
    (let q := s.atSegPend k
     q.words.length = 6 → q.applied = false → q.rebal = false → s.segHold x g = 0 → (∀ h, h < 8 → h ≠ g → (s.atSegPend (x * 8 + h)).words = []) →
      ∃ t : State, exec (.segmentApplied x g) s = .next (t.event (s.ctxEvq x) 0x0A (s.ownerOf (ctxPg x)) (leBytes 2 x ++ leBytes 1 g)) ∧
        t.seg x g = segOfWords (q.words.map (·.toNat)) ∧ t.get (segAt x g) CTX_SEG_6_PENDING = 0 ∧ t.atSegPend k = {} ∧
        t = { s with regs := t.regs, segPend := t.segPend })

/-- A function that reaches and owns the page of context x writes CTX_CTL. ACTIVATE of a FREE or QUIESCED slot of an ACTIVE partition whose save area passes its checks makes it ACTIVE in that partition with an empty object table, GUILTY clear and a fresh save key; with a save area that fails them only SAVE_ERR is set. TEARDOWN of an ACTIVE context whose queues are all disabled and whose queues signal no fence makes it QUIESCING with the code OWNER_EXITED (EXITED set by the write) or CONTEXT_TORN_DOWN, and its copies of the generation move on. CONTEXT_QUIESCED at the end of such a teardown (no command, request or slice of the context left) clears the segments and what is pending on them, drops the save key, keeps the objects, makes the context QUIESCED, advances its generation modulo 256, writes the CONTEXT_QUIESCED record and lets the scheduler decide again. -/
def Obligations.ContextLifecycle : Prop :=
  ∀ (s : State) (fn x : Nat) (v : Word), fn < 256 → x < 1024 →
    let pg := ctxPg x
    (s.reachesPage fn 2 x = true → s.holds fn .ctx x →
      let w := written .ctx CTX_CTL v
      let t := s.wr (pg + CTX_CTL) (w &&& (maskOf 16 8 ||| 4))
      (∀ p, bitOf w 0 = true → bitOf w 1 = false → t.ctxPart x = some p → t.ctxState x = 0 ∨ t.ctxState x = 3 →
        t.get (partPg p) PART_STAT_STATE = 2 →
        (t.saveOk p x = false → exec (.contextActivate fn x v) s = .next ((t.set pg CTX_SCHED_STAT_SAVE_ERR 1).bumpSeq pg)) ∧
        (t.saveOk p x = true →
          let u := { t with objs := Tab.clear t.objs (x * 4096) (x * 4096 + 4096), ctxs := Tab.put {} x {} t.ctxs,
                            sec := { t.sec with serial := t.sec.serial + 1, saveKey := Tab.put 0 x (t.sec.serial + 1) t.sec.saveKey } }
          exec (.contextActivate fn x v) s =
            .next ((((u.set pg CTX_STAT_STATE 1).set pg CTX_STAT_PARTITION p).set pg CTX_RCV_STAT_GUILTY 0).bumpSeq pg))) ∧
      (bitOf w 0 = false → bitOf w 1 = true → t.ctxState x = 1 → t.quesOf x = [] → t.fencesOf x = [] → t.openCmds x = [] →
        let code := if bitOf w 2 then codeOwnerExited else codeContextTornDown
        ∃ u : State, exec (.contextTeardown fn x v) s = .next u ∧ u.ctxState x = 2 ∧
          (u.atCtx x).tearCode = code ∧ (u.atCtx x).tearStep = 5 ∧ (u.atCtx x).tq = some s.mclk ∧
          Tab.get 0 u.gens x = (t.ctxGen x + 1) % 256 ∧ s.sameBytes u)) ∧
    (s.ctxState x = 2 → (s.atCtx x).tearStep = 5 → s.allCmds.any (fun c => c.ctx == x) = false →
      s.reqs.any (fun e => match e.2 with | some r => r.ctx == x | none => false) = false →
      (s.ctxSlices x).any (fun n => s.sliceMoving n) = false →
      s.ctxSlices x = [] →
      let g := (s.ctxGen x + 1) % 256
      ∃ u : State, exec (.contextQuiesced x) s =
          .next (let w := u.eventAll [u.ctxEvq x, 0] 0x06 (u.ownerOf pg) (leBytes 2 x ++ leBytes 1 g)
            w.schedule (w.partOf x)) ∧
        u.ctxState x = 3 ∧ u.ctxGen x = g ∧ (∀ i, i < 8 → (u.seg x i).valid = false ∧ u.atSegPend (x * 8 + i) = {}) ∧
        Tab.get 0 u.sec.saveKey x = 0 ∧ u.atCtx x = {} ∧ u.objs = s.objs ∧ s.sameBytes u)

/-- A function that reaches and owns the page of fence f writes FEN_CTL with REARM while the fence's ENABLE is 1 and stays 1. When the fence is BROKEN and no accepted, unresolved command names it, STATE becomes PENDING if VALUE is below TARGET and SIGNALLED otherwise, VALUE and TARGET keep their values, and nothing else changes but BLK_SEQ; otherwise the write leaves everything but BLK_SEQ. -/
def Obligations.FenceRearm : Prop :=
  ∀ (s : State) (fn f : Nat) (v : Word), fn < 256 → f < 65536 → s.reachesPage fn 1 f = true → s.holds fn .fen (f / 32) →
    let w := written .fen (0x114 + 64 * (f % 32)) v
    let t := s.set (fenAt f) FEN_CTL_ENABLE 1
    let pg := Pg.base .fen (f / 32)
    bitOf w 13 = true → bitOf w 14 = true → s.on (fenAt f) FEN_CTL_ENABLE = true →
      (s.fenBroken f = true → s.fenceNamed f = false → ∃ u : State, exec (.fenceRearm fn f v) s = .next u ∧
        u.fenState f = (if s.rd64 (fenValue f) < s.rd64 (fenTarget f) then 1 else 0) ∧
        u.rd64 (fenValue f) = s.rd64 (fenValue f) ∧ u.rd64 (fenTarget f) = s.rd64 (fenTarget f) ∧
        u = { s with regs := u.regs } ∧ s.sameRegs u [fenAt f + FEN_STAT, pg + 0x024, fenAt f + FEN_CTL]) ∧
      (¬ (s.fenBroken f = true ∧ s.fenceNamed f = false) → exec (.fenceRearm fn f v) s = .next (t.bumpSeq pg))

/-- A function that reaches and owns the page of context x writes CTX_OBJ_CTL for a handle h below 4,095. CREATE of a FREE object with the staged segment, offset and length inside the segment makes it LIVE with them and RESULT 0; of an object not FREE RESULT 1; outside its segment RESULT 2. FREE and FORCE_FREE of a FREE object give RESULT 3. FREE of an object that an accepted command names makes it FREEING with RESULT 0. FORCE_FREE of an object that no command names makes it FREE, writes OBJECT_RELEASED, RESULT 0. -/
def Obligations.MemoryObjects : Prop :=
  ∀ (s : State) (fn x : Nat) (v : Word), fn < 256 → x < 1024 → s.reachesPage fn 2 x = true → s.holds fn .ctx x →
    let pg := ctxPg x
    let w := written .ctx CTX_OBJ_CTL v
    let h := w % 4096
    let t := s.set pg ⟨CTX_OBJ_CTL, 13, 0⟩ w
    let k := objKey x h
    let off := t.rd (pg + CTX_OBJ_SEG) / 8 * 8 + t.rd (pg + CTX_OBJ_OFF_HI) % 2 ^ 13 * 2 ^ 32
    let len := t.rd (pg + CTX_OBJ_LEN_LO) + t.rd (pg + CTX_OBJ_LEN_HI) % 2 ^ 13 * 2 ^ 32
    let g := t.rd (pg + CTX_OBJ_SEG) % 8
    let fits := (t.seg x g).valid = true ∧ off + len ≤ (t.seg x g).limit
    let done := fun (u : State) (r : Nat) => (u.set pg CTX_OBJ_CTL_RESULT r).bumpSeq pg
    h < 4095 →
    (bitsOf w 13 12 = 1 →
      ((s.atObj k).state ≠ 0 → exec (.objectCreate fn x v) s = .next (done t 1)) ∧
      ((s.atObj k).state = 0 → ¬ fits → exec (.objectCreate fn x v) s = .next (done t 2)) ∧
      ((s.atObj k).state = 0 → fits → exec (.objectCreate fn x v) s =
        .next (done (t.updObj k (fun _ => { state := 1, seg := g, off := off, len := len })) 0))) ∧
    (bitsOf w 13 12 = 2 →
      ((s.atObj k).state = 0 → exec (.objectFree fn x v) s = .next (done t 3)) ∧
      ((s.atObj k).state ≠ 0 → s.objRefs x h ≠ 0 →
        exec (.objectFree fn x v) s = .next (done (t.updObj k (fun o => { o with state := 2 })) 0))) ∧
    (bitsOf w 13 12 = 3 →
      ((s.atObj k).state = 0 → exec (.objectForceFree fn x v) s = .next (done t 3)) ∧
      ((s.atObj k).state ≠ 0 → (s.allCmds.any (fun c => c.ctx == x && c.ranges.any (fun r => r.handle == h))) = false →
        exec (.objectForceFree fn x v) s =
          .next (done (((t.updObj k (fun o => { o with state := 2 })).updObj k (fun _ => {})).event (t.ctxEvq x) 0x05 (t.ownerOf pg) (leBytes 2 x ++ leBytes 2 h)) 0)))

/-- The physical function owns the pages written. GLB_EVQ_FN gives the selected event queue a function, when the queue is disabled and the function is 0 or attached to the partition that holds the queue; otherwise the write is dropped with BAD_ACCESS. EVQ_CTL is stored, unless it leaves ENABLE set with a vector that the queue's function has not: dropped with BAD_ACCESS. EVQ_HEAD, written directly or through the context's mirror, takes the value; while no record was dropped nothing else happens, and when records were dropped and room has returned the OVERFLOW record with their number is written. -/
def Obligations.EventQueueRegisters : Prop :=
  ∀ (s : State) (v : Word),
    (s.holds 0 .glb 0 →
      let e := s.get glbPg GLB_EVQ_SEL_EVQ
      let f := written .glb GLB_EVQ_FN v % 256
      let holder := s.rangeOwner PART_EVQ_RANGE_BASE PART_EVQ_RANGE_COUNT e
      let good := s.on (evqPg e) EVQ_CTL_ENABLE = false ∧ (f = 0 ∨ (holder.isSome = true ∧ Tab.get none s.attach f = holder))
      (good → exec (.evqFnWrite 0 v) s = .next (({ s with evqFn := Tab.put 0 e f s.evqFn }).bumpSeq glbPg)) ∧
      (¬ good → exec (.evqFnWrite 0 v) s = .next (s.badAccess glbPg))) ∧
    ∀ e, e < 512 → s.holds 0 .evq e →
      (let w := written .evq EVQ_CTL v
       let bad := bitOf w 0 = true ∧ (if Tab.get 0 s.evqFn e = 0 then 64 else 8) ≤ bitsOf w 11 6
       (bad → exec (.evqCtlWrite 0 e v) s = .next (s.badAccess (evqPg e))) ∧
       (¬ bad → exec (.evqCtlWrite 0 e v) s = .next ((s.wr (evqPg e + EVQ_CTL) (w &&& maskOf 11 0)).bumpSeq (evqPg e)))) ∧
      (let t := s.wr (evqPg e + EVQ_HEAD) v.toNat
       let n := Tab.get 0 s.evqLost e
       let after := ({ t with evqLost := Tab.put 0 e 0 t.evqLost }).evqWrite e 0x09 0 (leBytes 4 n)
       (n = 0 → exec (.evqHeadWrite 0 e v) s = .next (t.bumpSeq (evqPg e))) ∧
       (n ≠ 0 → t.evqRoom e ≠ 0 → t.on (evqPg e) EVQ_CTL_ENABLE = true → exec (.evqHeadWrite 0 e v) s = .next (after.bumpSeq (evqPg e))) ∧
       ∀ x, x < 1024 → s.holds 0 .ctx x → s.ctxEvq x = e →
         (Tab.get 0 s.evqFn e ≠ 0 → exec (.ctxEvqHeadWrite 0 x v) s = .next (s.badAccess (ctxPg x))) ∧
         (Tab.get 0 s.evqFn e = 0 → n = 0 → exec (.ctxEvqHeadWrite 0 x v) s = .next (t.bumpSeq (ctxPg x))))

/-- For an unmasked vector of a function whose DMA is not blocked, with a deferred message and an event queue that holds unconsumed records (its last message not in the future), the end of HOLDOFF sends one MSI-X message now; without unconsumed records it sends none, and in both cases nothing stays deferred. Clearing the mask of a vector sends the message that the mask held back, once, and none if none was held; a vector's mask is then 0. Setting or clearing ATS Enable of a function changes that function's bit alone. -/
def Obligations.VectorsAndAts : Prop :=
  ∀ (s : State) (fn v : Nat), fn < 256 → v < vectorsOf fn →
    let k := fn * 64 + v
    let x := s.atVec k
    (∀ t, x.last = some t → t ≤ s.mclk) → s.dmaOff fn = false →
    (x.deferred = true → x.masked = false → s.unconsumed fn v = true → ∃ t : State, exec (.msixHoldoffExpire fn v) s = .next t ∧
      t = { s with vecs := t.vecs, out := .msix fn v :: s.out } ∧ t.atVec k = { x with deferred := false, last := some s.mclk } ∧
      ∀ j, j ≠ k → t.atVec j = s.atVec j) ∧
    (x.deferred = true → s.unconsumed fn v = false →
      exec (.msixHoldoffExpire fn v) s = .next (s.updVec k (fun x => { x with deferred := false }))) ∧
    (x.masked = true → x.pend = true → ∃ t : State, exec (.msixVectorUnmask fn v) s = .next t ∧
      t = { s with vecs := t.vecs, out := .msix fn v :: s.out } ∧ t.atVec k = { x with masked := false, pend := false, last := some s.mclk } ∧
      ∀ j, j ≠ k → t.atVec j = s.atVec j) ∧
    (x.pend = false → exec (.msixVectorUnmask fn v) s = .next (s.updVec k (fun x => { x with masked := false, pend := false }))) ∧
    ∀ on, exec (.atsEnable fn on) s = .next { s with atsOn := Tab.put false fn on s.atsOn }

/-- Of a queue that may fetch: a ring outside its segment, a descriptor that cannot be read, and one with a fault each halt the queue with their reason; any other descriptor waits at the head. Acceptance needs an enabled queue that runs, an ACTIVE context and a descriptor at the head. A pending segment change holds it (HELD). The first range that fails refuses or delays the command. When ranges and later checks pass, the command joins the end of its queue with those ranges, unstarted, head and sequence number advance, and its fence's TARGET rises to its VALUE; a later check that fails refuses it. An accepted command starts in its turn: broken when a predecessor is broken and it is not independent, finished at once with ONLY_IF_BROKEN and the latch clear, else running. The oldest command of a queue whose work has ended and whose requests are answered writes its record and is finished; any other stays. -/
def Obligations.QueueEngineTakesCommands : Prop :=
  ∀ (s : State) (q : Nat), q < 4096 →
    let pg := quePg q
    let x := s.queCtx q
    let p := s.partOf x
    let no := s.rd (pg + QUE_SEQ)
    (∀ (ok : Bool) (desc : Bytes),
      (s.mayFetch q = false → exec (.descriptorArrive q ok desc) s = .next s) ∧
      (s.mayFetch q = true → s.ringOk q = false → exec (.descriptorArrive q ok desc) s = .next (s.queueHalt q 0x04 no)) ∧
      (∀ u, s.mayFetch q = true → s.ringOk q = true → s.readRing q ok desc = (u, none) → exec (.descriptorArrive q ok desc) s = .next (u.queueHalt q 0x04 no)) ∧
      (∀ u d, s.mayFetch q = true → s.ringOk q = true → s.readRing q ok desc = (u, some d) →
        (u.descFault q d ≠ 0 → exec (.descriptorArrive q ok desc) s = .next (u.queueHalt q (u.descFault q d) no)) ∧
        (u.descFault q d = 0 → exec (.descriptorArrive q ok desc) s = .next { u with heads := Tab.put none q (some d) u.heads }))) ∧
    (∀ (args runs : Bytes),
      let accepts := s.on pg QUE_STAT_ENABLED = true ∧ s.on pg QUE_STAT_HALTED = false ∧ s.ctxState x = 1
      (Tab.get none s.heads q = none ∨ ¬ accepts → exec (.commandAccept q args runs) s = .next s) ∧
      (∀ d, Tab.get none s.heads q = some d → accepts →
        let first := descRanges d
        let named := fun (c : Cmd) => c.q = q ∧ c.seq = no ∧ c.desc = d ∧ c.ctx = x ∧ c.gen = s.ctxGen x ∧ c.part = p ∧ c.started = false ∧ c.work = false ∧ c.code = 0
        (s.segWaits x first = true → exec (.commandAccept q args runs) s = .next (s.set pg QUE_STAT_HELD 1)) ∧
        (∀ i r e, s.segWaits x first = false → s.checkRanges q d runs 0 0 first = .inr (i, r, e) →
          ∃ c, named c ∧ exec (.commandAccept q args runs) s = .next (s.rangeFails c i r e)) ∧
        (∀ l, s.segWaits x first = false → s.checkRanges q d runs 0 0 first = .inl l → dOp d ≠ 1 →
          (s.lateCheck x p d [] l = none → ∃ t c, exec (.commandAccept q args runs) s = .next t ∧ named c ∧ c.ranges = l ∧ t.cmdsOf q = s.cmdsOf q ++ [c] ∧
            t.rd (pg + QUE_HEAD) = (s.rd (pg + QUE_HEAD) + 1) % 2 ^ 32 ∧ t.rd (pg + QUE_SEQ) = (no + 1) % 2 ^ 32 ∧ Tab.get none t.heads q = none ∧
            (dNoFence d = false → t.rd64 (fenTarget (dFence d)) = max (s.rd64 (fenTarget (dFence d))) (dValue d)) ∧ s.sameBytes t) ∧
          (∀ code detail mould, s.lateCheck x p d [] l = some (code, detail, mould) → ∃ c, named c ∧ exec (.commandAccept q args runs) s =
            .next ((if mould then s.mouldRej x detail (dMould d) true 0 else s).refuseCmd c code detail))) ∧
        (∀ l0 u ab l1, s.segWaits x first = false → s.checkRanges q d runs 0 0 first = .inl l0 → dOp d = 1 → s.readArgs (l0.headD {}) args = (u, .inr ab) →
          let image := u.readyImage p d
          let more := match image with
            | some m => argRanges m ab (dNargs d)
            | none => []
          u.segWaits x more = false → u.checkRanges q d runs l0.length l0.length more = .inl l1 →
            (u.lateCheck x p d ab (l0 ++ l1) = none → ∃ c, named c ∧ exec (.commandAccept q args runs) s = .next (u.takeCmd c image (l0 ++ l1))) ∧
            (∀ code detail mould, u.lateCheck x p d ab (l0 ++ l1) = some (code, detail, mould) → ∃ c, named c ∧ exec (.commandAccept q args runs) s =
              .next ((if mould then u.mouldRej x detail (dMould d) true 0 else u).refuseCmd c code detail))))) ∧
    (∀ seq c, s.cmd? q seq = some c →
      let waits := c.started = true ∨ c.work = true ∨ c.held = true ∨ c.retrans = true ∨ s.turn c = false ∨ s.scopeBlocks c = true
      let idle := dRunOnBroken c.desc = true ∧ dOnlyIfBroken c.desc = true ∧ s.brokenBefore c = none
      (waits → exec (.commandStart q seq) s = .next s) ∧
      (∀ root, ¬ waits → dIndependent c.desc = false → dRunOnBroken c.desc = false → s.brokenBefore c = some root →
        exec (.commandStart q seq) s = .next (s.breakCmd c.q c.seq codePredecessorBroken 4 c.q root)) ∧
      (¬ waits → (dIndependent c.desc = true ∨ dRunOnBroken c.desc = true ∨ s.brokenBefore c = none) → ∃ n,
        (idle → exec (.commandStart q seq) s = .next (s.updCmd c.q c.seq (fun c => { c with started := true, startNo := n, work := true, skip := true }))) ∧
        (¬ idle → exec (.commandStart q seq) s = .next ((s.updCmd c.q c.seq (fun c => { c with started := true, startNo := n })).scheduleFor c.ctx)))) ∧
    (∀ seq, (s.cmdsOf q).head? = none → exec (.commandResolve q seq) s = .next s) ∧
    ∀ seq c, (s.cmdsOf q).head? = some c →
      ((c.seq ≠ seq ∨ c.work = false ∨ s.reqsOf q seq ≠ []) → exec (.commandResolve q seq) s = .next s) ∧
      (c.seq = seq → c.work = true → s.reqsOf q seq = [] →
        let u := if c.recorded then s else s.writeRecord c
        (u.reqsOf q seq ≠ [] → exec (.commandResolve q seq) s = .next u) ∧
        (u.reqsOf q seq = [] → exec (.commandResolve q seq) s = .next ((u.finish c).drainQue q)))

/-- Of a started command that runs, with the opcode of the row. NOP's work ends at once. EVENT puts its payload into a USER record. A local SIGNAL's work ends; with REMOTE it sends its fence signal over the span first and ends when it is answered. WAIT ends when each fence named has reached its value; one that is BROKEN below it breaks the WAIT with PREDECESSOR_BROKEN, or with RUN_ON_BROKEN sets its bit of RESULT; else the WAIT stays. FILL repeats its pattern over the destination, COPY writes the source bytes there, CONVERT writes each element in the destination format with its own rounding (and the scales of a block format), here with sources in device memory; once the writes are acknowledged the work ends. A COMPUTE without a span opens its phase; in a span it first sends its mould digest and member count. One that is to break, a COMPUTE excepted, breaks at this point, and a command not started, ended or held stays as it is. -/
def Obligations.WorkOfQueueCommands : Prop :=
  ∀ (s : State) (q seq : Nat) (c : Cmd), q < 4096 → s.cmd? q seq = some c →
    let rows : List (Instr × Nat) := [(.nop q seq, 0), (.compute q seq, 1), (.copy q seq, 2), (.fill q seq, 3), (.convert q seq, 4), (.wait q seq, 5), (.signal q seq, 6), (.event q seq, 9)]
    let runs := c.started = true ∧ c.work = false ∧ c.held = false
    let fresh := c.retrans = false ∧ c.written = false
    let ends := fun (u : State) =>
      let v := u.updCmd c.q c.seq (fun c => { c with written := true })
      if (v.reqsOf c.q c.seq).isEmpty then v.cmdDone c.q c.seq 0 else v
    let src := c.ranges.getD 0 {}
    let dst := c.ranges.getD 1 {}
    (∀ e, e ∈ rows → (¬ runs ∨ dOp c.desc ≠ e.2) → exec e.1 s = .next s) ∧
    (∀ e, e ∈ rows → e.2 ≠ 1 → runs → dOp c.desc = e.2 → c.stop ≠ 0 → exec e.1 s = .next (s.stopNow c)) ∧
    (runs → c.stop = 0 →
      (dOp c.desc = 0 → exec (.nop q seq) s = .next (s.cmdDone c.q c.seq 0)) ∧
      (dOp c.desc = 9 → exec (.event q seq) s = .next ((s.event (s.queEvq q) 0x08 (s.ownerOf (quePg q)) (sliceBytes c.desc 0x20 16)).cmdDone q seq 0)) ∧
      (dOp c.desc = 6 → dSlot c.desc = none → exec (.signal q seq) s = .next (s.cmdDone q seq 0)) ∧
      (∀ slot, dOp c.desc = 6 → dSlot c.desc = some slot → c.issued = false → exec (.signal q seq) s =
        .next ((s.updCmd q seq (fun c => { c with issued := true })).sendReq c slot (leAt c.desc 0x22 2 % 4096)
          { op := 6, addr := leAt c.desc 0x24 2, payload := leBytes 8 (leAt c.desc 0x28 8) ++ leBytes 8 0 })) ∧
      (∀ slot, dOp c.desc = 6 → dSlot c.desc = some slot → c.issued = true → s.reqsOf q seq = [] → (s.atRoute (leAt c.desc 0x22 2 % 4096)).hold = false →
        exec (.signal q seq) s = .next (s.cmdDone q seq 0)) ∧
      (dOp c.desc = 5 →
        let es := waitEntries c.desc
        let reached := fun (e : Nat × Nat) => e.2 ≤ s.rd64 (fenValue e.1)
        let failed := fun (e : Nat × Nat) => ¬ reached e ∧ s.fenBroken e.1 = true
        ((∀ e, e ∈ es → reached e) → exec (.wait q seq) s = .next (s.cmdDone q seq 0)) ∧
        ((∃ e, e ∈ es ∧ ¬ reached e ∧ ¬ failed e) → (∀ e, e ∈ es → ¬ failed e) → exec (.wait q seq) s = .next s) ∧
        (∀ a e b, es = a ++ e :: b → (∀ g, g ∈ a → ¬ failed g) → failed e → dRunOnBroken c.desc = false →
          exec (.wait q seq) s = .next (s.breakCmd q seq codePredecessorBroken 4 q (s.fenceRoot e.1))) ∧
        (dRunOnBroken c.desc = true → (∀ e, e ∈ es → reached e ∨ failed e) → ∃ m, exec (.wait q seq) s = .next (s.cmdDone q seq m) ∧
          ∀ i, i < es.length → (bitOf m i = true ↔ failed (es.getD i (0, 0))))) ∧
      (dOp c.desc = 3 → fresh →
        let n := leAt c.desc 0x28 8
        ∃ b, exec (.fill q seq) s = .next (ends (s.rangeWrite c src 0 b)) ∧ b.length = n ∧
          ∀ i, i < n → b.getD i 0 = BitVec.ofNat 8 (leAt c.desc 0x30 8 / 256 ^ (i % 8))) ∧
      (∀ u b, dOp c.desc = 2 → fresh → src.loc = 0 → 0 < leAt c.desc 0x30 8 → s.devRead src.key src.addr (leAt c.desc 0x30 8) = (u, .inr b) →
        exec (.copy q seq) s = .next (ends (u.rangeWrite c dst 0 b))) ∧
      (∀ sf df u b, dOp c.desc = 4 → fresh → src.loc = 0 → fmtOf (leAt c.desc 0x38 1) = some sf → fmtOf (leAt c.desc 0x39 1) = some df → sf.isBlock = false → sf ≠ .acc →
        let n := leAt c.desc 0x30 8
        0 < sf.arrayBytes n → s.devRead src.key src.addr (sf.arrayBytes n) = (u, .inr b) →
        let out := df.convert ((List.range n).map (fun k => roundingOf c.acw c.seed (dTweak c.desc) 0 (k / 4096) (k % 4096)))
          ((List.range n).map (fun k => (sf.number (sf.element b k) 0).asRead))
        let v := u.rangeWrite c dst 0 out.1
        let w := if df.isBlock then v.rangeWrite c (c.ranges.getD 2 {}) 0 out.2.1 else v
        exec (.convert q seq) s = .next (ends (w.updCmd q seq (fun c => { c with warn := c.warn ||| out.2.2 })))) ∧
      (dOp c.desc = 1 → c.issued = false → c.boundary = false → dSlot c.desc = none →
        exec (.compute q seq) s = .next ((s.updCmd q seq (fun c => { c with issued := true })).openPhase c)) ∧
      (∀ slot, dOp c.desc = 1 → c.issued = false → c.boundary = false → dSlot c.desc = some slot → c.spr ≠ {} → ∀ d,
        (s.updCmd q seq (fun c => { c with issued := true })).cmd? q seq = some d →
        exec (.compute q seq) s = .next ((s.updCmd q seq (fun c => { c with issued := true })).openPhase d)) ∧
      (∀ slot, dOp c.desc = 1 → c.issued = false → c.boundary = false → dSlot c.desc = some slot → c.spr = {} →
        let u := ((s.updCmd q seq (fun c => { c with issued := true })).castColl c.part slot (s.updCmd q seq (fun c => { c with issued := true }) |>.checkTxn c slot)).checksHeld c slot
        ∀ d, u.cmd? q seq = some d →
          (d.work = true → exec (.compute q seq) s = .next u) ∧ (d.work = false → exec (.compute q seq) s = .next (u.openPhase d))))

/-- MOULD_REGISTER, running, with its image in device memory: an image of a READY entry's digest shares that entry and the work ends; an image no entry has takes the lowest FREE entry, CHECKING, with its bytes, digest and place in the mould store, where it is written under the configuration key (with no place there the entry has none, and nothing is written). When the check of a CHECKING entry has passed it is READY with one registration and the command's work ends with its number; when it has failed the entry is FREE. MOULD_RELEASE counts one registration less; the last one makes the entry RELEASING, or FREE when no accepted COMPUTE names it; an entry without registration breaks the command. A quiescent slice of the command's context without the configuration starts to load it, CFG_VALID 0; when the load is done the cells hold what the mould store gives at the entry's place, CFG_VALID is 1, resident allocations are filled and a tile is handed out; a bad word, or a store that cannot be read, leaves the configuration not valid with the refusal 0x15. With the phase's tiles done the combine step runs once; then the next phase of the cursor opens, and after the last the work ends; in a COLLECTIVE phase of a span the barrier comes before the combine step. At a boundary a command that is to break breaks; one that nothing waits for goes on. -/
def Obligations.MouldsAndPhasesOfACommand : Prop :=
  (∀ (s : State) (q seq : Nat) (c : Cmd), q < 4096 → s.cmd? q seq = some c →
    let src := c.ranges.getD 0 {}
    (∀ u m, c.started = true → c.work = false → c.held = false → dOp c.desc = 7 → c.stop = 0 → c.retrans = false → c.written = false → src.loc = 0 →
      0 < leAt c.desc 0x28 4 → s.devRead src.key src.addr (leAt c.desc 0x28 4) = (u, .inr m) →
      let v := u.updCmd q seq (fun c => { c with buf := m, written := true })
      (∃ t : State, exec (.mouldRegister q seq) s = .next t ∧ ∀ i, imageHash m = iDigest m → u.mouldWith c.part 2 (imageHash m) = some i →
        t = (v.updMould (c.part * 64 + i) (fun e => { e with count := e.count + 1 })).cmdDone c.q c.seq i) ∧
      (∀ i, (∀ st, st ∈ [1, 2, 3] → u.mouldWith c.part st (imageHash m) = none) → u.mouldFree c.part = some i →
        ∃ t : State, (t.atMould (c.part * 64 + i)).state = 1 ∧ (t.atMould (c.part * 64 + i)).image = m ∧ (t.atMould (c.part * 64 + i)).digest = imageHash m ∧
          (t.atMould (c.part * 64 + i)).start = u.storePlace c.part m.length ∧ (t.atMould (c.part * 64 + i)).regBy = some (c.q, c.seq) ∧
          (∀ k, k ≠ c.part * 64 + i → t.atMould k = u.atMould k) ∧ t.regs = u.regs ∧ u.sameBytes t ∧
          (u.storePlace c.part m.length = none → exec (.mouldRegister q seq) s = .next t) ∧
          ∀ a, u.storePlace c.part m.length = some a → exec (.mouldRegister q seq) s = .next (t.cfgWrite c.part a m))) ∧
    (c.started = true → c.work = false → dOp c.desc = 8 →
      let i := dMould c.desc
      let e := s.atMould (c.part * 64 + i)
      (e.state ≤ 1 ∨ e.count = 0 → exec (.mouldRelease q seq) s = .next (s.mouldRefuse c 0x17 i 0)) ∧
      (2 ≤ e.state → 2 ≤ e.count → exec (.mouldRelease q seq) s = .next ((s.updMould (c.part * 64 + i) (fun e => { e with count := e.count - 1 })).cmdDone q seq 0)) ∧
      (2 ≤ e.state → e.count = 1 → ∃ t : State, exec (.mouldRelease q seq) s = .next t ∧
        (t.atMould (c.part * 64 + i)).state = (if s.mouldNamed c.part i then 3 else 0) ∧ t.regs = s.regs ∧ s.sameBytes t)) ∧
    (∀ slice, slice < 32 →
      let y := s.atSlice slice
      let may := c.started = true ∧ c.work = false ∧ dOp c.desc = 1 ∧ y.ctx = some c.ctx ∧ s.quiet slice = true ∧ y.loading = false ∧ y.tile = none ∧ y.leaving = false ∧
        y.cfg ≠ some (s.cfgOf c)
      (¬ may → exec (.configLoad slice q seq) s = .next s) ∧
      (may → ∃ t : State, exec (.configLoad slice q seq) s = .next t ∧ t.atSlice slice = { y with cfg := some (s.cfgOf c), cmd := some (q, seq), loading := true } ∧
        (∀ k, k < 4 → t.on (islPg (sliceIsland slice k)) ISL_STAT_CFG_VALID = false) ∧ s.sameBytes t) ∧
      (y.loading = true → y.cmd = some (q, seq) →
        let lost := fun (u : State) => (u.cfgBad slice (sliceIsland slice 0)).mouldRej c.ctx 0x15 (dMould c.desc) true slice
        exec (.configLoadDone slice true) s = .next (lost s) ∧
        ((s.mouldOf c).start = none → exec (.configLoadDone slice false) s = .next (lost s)) ∧
        (∀ a u, (s.mouldOf c).start = some a → s.cfgRead c.part a (s.mouldOf c).image.length = (u, none) → exec (.configLoadDone slice false) s = .next (lost u)) ∧
        (∀ a u b, (s.mouldOf c).start = some a → s.cfgRead c.part a (s.mouldOf c).image.length = (u, some b) → exec (.configLoadDone slice false) s =
          .next (((((u.loadCells slice b).updSlice slice (fun x => { x with loading := false })).cfgValid slice true).resFill c slice).feed slice)))) ∧
    (c.work = true ∨ dOp c.desc ≠ 1 ∨ s.tilesDone c = false ∨ c.spr.waiting = true → exec (.phaseCombine q seq) s = .next s) ∧
    (c.work = false → dOp c.desc = 1 → s.tilesDone c = true → c.spr.waiting = false →
      let fin := fun (u : State) => u.updCmd q seq (fun c => { c with spr := { c.spr with active := false, combined := true } })
      (dSlot c.desc = none → exec (.phaseCombine q seq) s = .next (fin (s.combine c))) ∧
      (∀ l, dSlot c.desc = some l → (s.phaseOf c).kind ≠ 3 → c.spr.combined = false → exec (.phaseCombine q seq) s = .next (fin (s.combine c))) ∧
      (∀ l, dSlot c.desc = some l → (s.phaseOf c).kind = 3 → c.spr.combined = false → exec (.phaseCombine q seq) s = .next ((s.sendBarrier c l).barrierDone q seq)) ∧
      (∀ l, dSlot c.desc = some l → (s.phaseOf c).kind = 3 → c.spr.combined = true →
        exec (.phaseCombine q seq) s = .next ((s.combine c).updCmd q seq (fun c => { c with spr := { c.spr with active := false } }))) ∧
      (∀ l, dSlot c.desc = some l → (s.phaseOf c).kind ≠ 3 → c.spr.combined = true → exec (.phaseCombine q seq) s = .next s)) ∧
    (let stays := c.work = true ∨ c.started = false ∨ c.held = true ∨ c.issued = false ∨ dOp c.desc ≠ 1 ∨ c.boundary = true ∨ c.stop ≠ 0 ∨ c.spr.active = true ∨ c.spr.waiting = true ∨
        s.moving q seq (fun _ => true) = true ∨ s.reqsOf q seq ≠ []
     (stays → exec (.phaseStart q seq) s = .next s) ∧
     (¬ stays → c.spr.combined = false → exec (.phaseStart q seq) s = .next (s.openPhase c)) ∧
     (¬ stays → c.spr.combined = true → nextPhase (s.mouldOf c).image c.spr = none → exec (.phaseStart q seq) s = .next (((s.cmdSlices q seq).foldl State.unfillSlice s).cmdDone q seq 0)) ∧
     (∀ spr d, ¬ stays → c.spr.combined = true → nextPhase (s.mouldOf c).image c.spr = some spr →
       (s.updCmd q seq (fun c => { c with spr := spr })).cmd? q seq = some d →
       exec (.phaseStart q seq) s = .next ((s.updCmd q seq (fun c => { c with spr := spr })).openPhase d))) ∧
    (let stays := c.work = true ∨ c.started = false ∨ (c.boundary = false ∧ c.stop = 0) ∨ s.noBoundary c = true ∨ s.atBoundary c = false
     (stays → exec (.boundaryReached q seq) s = .next s) ∧
     (¬ stays → c.stop ≠ 0 → exec (.boundaryReached q seq) s = .next ((s.stopNow c).scheduleFor c.ctx)) ∧
     (¬ stays → c.stop = 0 → (s.atRebind c.part).op ≠ 1 → (s.atCtx c.ctx).tq = none →
       exec (.boundaryReached q seq) s = .next (((s.updCmd q seq (fun d => { d with boundary := false })).scheduleFor c.ctx).feedCtx c.ctx)) ∧
     (¬ stays → c.stop = 0 → (s.atRebind c.part).op ≠ 1 → (s.atCtx c.ctx).tq ≠ none → exec (.boundaryReached q seq) s = .next (s.preempted c.ctx)))) ∧
  ∀ (s : State) (part id : Nat), part < 32 → id < 64 →
    let k := part * 64 + id
    let e := s.atMould k
    let room := e.start.isSome
    (e.state ≠ 1 → exec (.mouldRegistrationDone part id) s = .next s) ∧
    (∀ q n, e.state = 1 → e.regBy = some (q, n) → s.mouldWait = [] → imageCheck e.image e.image.length room true = none →
      exec (.mouldRegistrationDone part id) s =
        .next { (s.updMould k (fun e => { e with state := 2, count := 1, regBy := none })).cmdDone q n id with mouldWait := [] }) ∧
    (∀ reason detail, e.state = 1 → s.mouldWait = [] → imageCheck e.image e.image.length room true = some (reason, detail) →
      ∃ t : State, exec (.mouldRegistrationDone part id) s = .next t ∧ (t.atMould k).state = 0 ∧ s.sameBytes t)

/-- The physical function owns the page of partition p and writes PART_CTL with one trigger. FORM of a FREE partition makes it FORMING with LAST_RESULT 0; of any other only LAST_RESULT 0x0F. ACTIVATE of a FORMING partition that passes the checks of R239, with a healthy entropy source, makes it ACTIVE with a fresh configuration key, its requested slices bound, its key-flow table back at its defaults, its mould table empty, its member tables written into its configuration region (no other byte of memory changes) and LAST_RESULT 0; a check that fails leaves it FORMING with that check's code. DISSOLVE of a FORMING or ACTIVE partition that is not empty records 0x13 and nothing else; of an empty one it makes the partition FREE with no slice bound, its SEC_PROTECT and SEC_KLOCK bits 0 and LAST_RESULT 0. -/
def Obligations.PartitionLifecycle : Prop :=
  ∀ (s : State) (p : Nat) (v : Word), p < 32 → s.holds 0 .part p →
    let pg := partPg p
    let w := written .part PART_CTL v
    let res := fun (u : State) (n : Nat) => u.set pg PART_STAT_LAST_RESULT n
    (bitOf w 0 = true → bitOf w 1 = false → bitOf w 2 = false →
      (s.partState p = 0 → exec (.partitionForm 0 p v) s = .next ((res (s.set pg PART_STAT_STATE 1) 0).bumpSeq pg)) ∧
      (s.partState p ≠ 0 → exec (.partitionForm 0 p v) s = .next ((res s 0x0F).bumpSeq pg))) ∧
    (bitOf w 0 = false → bitOf w 1 = true → bitOf w 2 = false →
      (s.partState p ≠ 1 → exec (.partitionActivate 0 p v) s = .next ((res s 0x0F).bumpSeq pg)) ∧
      (s.partState p = 1 → s.activateRule p ≠ 0 → exec (.partitionActivate 0 p v) s = .next ((res s (s.activateRule p)).bumpSeq pg)) ∧
      (s.partState p = 1 → s.activateRule p = 0 → s.sec.entropyBad = false → ∃ t : State, exec (.partitionActivate 0 p v) s = .next t ∧
        t.partState p = 2 ∧ t.get pg PART_STAT_LAST_RESULT = 0 ∧ t.rd (pg + PART_SLICES) = s.rd (pg + PART_SLICE_REQ) ∧
        Tab.get 0 t.sec.cfgKey p = s.sec.serial + 1 ∧ t.sec.serial = s.sec.serial + 1 ∧
        (∀ i, i < 64 → t.atMould (p * 64 + i) = {}) ∧ (∀ r, r < 256 → Tab.get 0 t.sec.kft (p * 256 + r) = 0) ∧
        t.captGen = s.captGen + 2 ∧ t.spad = s.spad ∧ t.share = s.share ∧
        (Memory.wf s.mem = true → ∀ a, (∀ n pl, n < 256 → s.place (s.cfgAt p (s.storeSize p + 256 * n)) = some pl → a < lineKey pl.chan pl.cl ∨ lineKey pl.chan pl.cl + 256 ≤ a) →
          Memory.get t.mem a = Memory.get s.mem a))) ∧
    (bitOf w 0 = false → bitOf w 1 = false → bitOf w 2 = true →
      (s.partState p = 1 ∨ s.partState p = 2 → s.partEmpty p = false → exec (.partitionDissolve 0 p v) s = .next ((res s 0x13).bumpSeq pg)) ∧
      (s.partState p = 1 ∨ s.partState p = 2 → s.partEmpty p = true → ∃ t : State, exec (.partitionDissolve 0 p v) s = .next t ∧
        t.partState p = 0 ∧ t.get pg PART_STAT_LAST_RESULT = 0 ∧ t.rd (pg + PART_SLICES) = 0 ∧
        bitOf (t.rd (secPg + SEC_PROTECT)) p = false ∧ bitOf (t.rd (secPg + SEC_KLOCK)) p = false))

/-- The physical function owns the page of partition p. A range register (CTX, QUE, FEN, EVQ) of a FORMING partition takes the word written, with LAST_RESULT 0; of a FREE partition it is dropped with 0x0F. ATTACH of a virtual function (DETACH not set) to a partition that is not ACTIVE gives RESULT 7, of a function attached anywhere RESULT 1, and otherwise attaches it with RESULT 0. DETACH of a function not attached to p gives RESULT 7; of one attached to p with no handle mapped, no event queue of its own and an unlocked interface it ends the attachment with RESULT 0. Everything not named is as before. -/
def Obligations.PartitionRangesAndFunctions : Prop :=
  ∀ (s : State) (p : Nat) (v : Word), p < 32 → s.holds 0 .part p →
    let pg := partPg p
    (∀ off, off ∈ [PART_CTX_RANGE, PART_QUE_RANGE, PART_FEN_RANGE, PART_EVQ_RANGE] →
      (s.partState p = 1 → exec (.partRangeWrite 0 p off v) s =
        .next (((s.wr (pg + off) (written .part off v)).set pg PART_STAT_LAST_RESULT 0).bumpSeq pg)) ∧
      (s.partState p = 0 → exec (.partRangeWrite 0 p off v) s = .next (s.set pg PART_STAT_LAST_RESULT 0x0F))) ∧
    (let w := written .part PART_FN_CTL_FUNCTION.off v
     let f := w % 256
     let t := s.set pg PART_FN_CTL_FUNCTION f
     let done := fun (u : State) (n : Nat) => (u.set pg PART_FN_CTL_RESULT n).bumpSeq pg
     f ≠ 0 →
      (bitOf w 8 = true → bitOf w 9 = false →
        (s.partState p ≠ 2 → exec (.functionAttach 0 p v) s = .next (done t 7)) ∧
        (s.partState p = 2 → (Tab.get none s.attach f).isSome = true → exec (.functionAttach 0 p v) s = .next (done t 1)) ∧
        (s.partState p = 2 → Tab.get none s.attach f = none →
          exec (.functionAttach 0 p v) s = .next (done { t with attach := Tab.put none f (some p) s.attach } 0))) ∧
      (bitOf w 8 = false → bitOf w 9 = true →
        (Tab.get none s.attach f ≠ some p → exec (.functionDetach 0 p v) s = .next (done t 7)) ∧
        (Tab.get none s.attach f = some p → s.handlesOf f = [] → (∀ e, e < 512 → Tab.get 0 s.evqFn e ≠ f) → Tab.get 0 s.sec.tdi f = 0 →
          exec (.functionDetach 0 p v) s = .next (done { t with attach := Tab.put none f none s.attach } 0))))

/-- The physical function owns the page of partition p and writes PART_MAP_DATA with VALID for the handle that PART_MAP_SEL selects, of a function attached to p with an unlocked interface. A write that repeats the present map gives RESULT 0 and changes nothing else. A target outside the partition's ranges, or a handle beyond the function's count, gives RESULT 3; a target whose page another virtual function owns RESULT 4; a free handle then leads to its target, whose page the function owns, a context shows it as its FUNCTION, and RESULT is 0. A function not attached to p gives RESULT 7. -/
def Obligations.HandleMapping : Prop :=
  ∀ (s : State) (p : Nat) (v : Word), p < 32 → s.holds 0 .part p →
    let pg := partPg p
    let w := written .part PART_MAP_DATA v
    let f := s.get pg PART_MAP_SEL_FUNCTION
    let kind := s.get pg PART_MAP_SEL_KIND
    let h := s.get pg PART_MAP_SEL_HANDLE
    let n := w % 65536
    let tgt := targetPage kind n
    let done := fun (u : State) (r : Nat) => (u.set pg PART_FN_CTL_RESULT r).bumpSeq pg
    bitOf w 16 = true →
    (Tab.get none s.attach f ≠ some p → exec (.handleMap 0 p v) s = .next (done s 7)) ∧
    (f ≠ 0 → Tab.get none s.attach f = some p → s.tdiLocked f = false → kind ≤ 2 →
      (s.mapOf f kind h = some n → exec (.handleMap 0 p v) s = .next (done s 0)) ∧
      (s.mapOf f kind h ≠ some n → (768 ≤ h ∧ kind = 0) ∨ (32 ≤ h ∧ kind = 2) ∨ s.targetIn p kind n = false → exec (.handleMap 0 p v) s = .next (done s 3)) ∧
      (s.mapOf f kind h ≠ some n → h < handleCount kind → s.targetIn p kind n = true →
        (s.ownerOf tgt ≠ 0 → s.ownerOf tgt ≠ f → exec (.handleMap 0 p v) s = .next (done s 4)) ∧
        (s.ownerOf tgt = 0 ∨ s.ownerOf tgt = f → s.mapOf f kind h = none →
          let t := ({ s with maps := Tab.put none (mapKey f kind h) (some n) s.maps }).set tgt BLK_OWNER_FUNCTION f
          exec (.handleMap 0 p v) s = .next (done (if kind = 2 then t.set (ctxPg n) CTX_STAT_FUNCTION f else t) 0))))

/-- Of partition p, whose latched operation is rb. SLICE_GROW at step 1 with a slice added that is retired or bound elsewhere ends with result 1; otherwise, with no COMPUTE of p running, the requested slices are bound and it ends with result 0. SLICE_SHRINK that leaves nothing outside PART_RT_MASK ends with result 2; otherwise its leaving slices are marked, one that is not quiescent shows as held, a configuration load on one stops with its configuration not valid, and it waits at step 3. CHANNEL_BIND with a channel not in service ends with result 3, otherwise the channels are added and it ends with 0. CHANNEL_RELEASE with no valid region of p on its channels removes them and ends with 0; with more than one, or one and MOVE 0, it ends with 4. ABORT of a growth at step 1 ends with 0x0D (ABORTED). Ending clears BUSY and STEP, writes RESULT, and sets DONE only for result 0; after it the keys whose retirement waited go on. -/
def Obligations.RebindSlicesAndChannels : Prop :=
  ∀ (s : State) (p : Nat), p < 32 →
    let pg := partPg p
    let rb := s.atRebind p
    let old := s.rd (pg + PART_SLICES)
    let more := bitsMinus rb.slices old
    let less := bitsMinus old rb.slices
    let busy := more.any (fun n => s.capState 1 n != 1 || (s.sliceOwner n).isSome)
    let rt := s.rd (pg + PART_RT_MASK)
    let hit := (List.range 64).filter (fun r => s.regValid r && s.regPart r == p && (s.regChans r).any (fun c => bitOf rb.chans c))
    (rb.op = 1 → rb.step = 1 → less = [] →
      (busy = true → exec (.sliceGrow p) s = .next (s.rebindEnd p 1)) ∧
      (busy = false → s.runningOf p = [] → ∃ u : State, exec (.sliceGrow p) s = .next (((u.rebindEnd p 0).schedule p).schedule p) ∧
        u.rd (pg + PART_SLICES) = rb.slices % 2 ^ 32 ∧ (∀ a, a ≠ pg + PART_SLICES → a ≠ pg + PART_REBIND_CTL_STEP.off → u.rd a = s.rd a) ∧
        u.mem = s.mem ∧ u.spad = s.spad ∧ u.share = s.share)) ∧
    (rb.op = 1 → rb.step = 1 → less ≠ [] → more = [] →
      (rb.slices = 0 ∨ less.any (fun n => bitOf rt n) = true ∨ bitsMinus rb.slices rt = [] →
        exec (.sliceShrink p) s = .next (s.rebindEnd p 2)) ∧
      (rb.slices ≠ 0 → less.any (fun n => bitOf rt n) = false → bitsMinus rb.slices rt ≠ [] → s.leaversOf p less = [] →
        ∃ u : State, exec (.sliceShrink p) s = .next u ∧ (∀ n, n ∈ less → (u.atSlice n).leaving = true) ∧
          (∀ n, n ∈ less → bitOf (u.get (Pg.base .core (n / 4)) CORE_QUIET_HELD) (n % 4) = !s.quiet n) ∧
          (∀ n, n ∈ less → (s.atSlice n).loading = true → (u.atSlice n).loading = false ∧ (u.atSlice n).cfg = none) ∧
          (∀ n, n ∉ less → u.atSlice n = s.atSlice n) ∧ u.get pg PART_REBIND_CTL_STEP = 3 ∧
          s.sameRegs u ((pg + PART_REBIND_CTL_STEP.off) :: (List.range 8).map (fun k => Pg.base .core k + CORE_QUIET_HELD.off) ++ (List.range 128).map (fun i => islPg i + ISL_STAT_CFG_VALID.off)) ∧
          s.sameBytes u)) ∧
    (rb.op = 2 →
      ((onesBelow 256 rb.chans).any (fun c => s.capState 2 c != 1) = true → exec (.channelBind p) s = .next (s.rebindEnd p 3)) ∧
      ((onesBelow 256 rb.chans).any (fun c => s.capState 2 c != 1) = false →
        ∃ u : State, exec (.channelBind p) s = .next (u.rebindEnd p 0) ∧ u.chanMap p PART_CHAN = (s.chanMap p PART_CHAN ||| rb.chans) % 2 ^ 256)) ∧
    (rb.op = 3 → rb.sub = 0 →
      (hit = [] → ∃ u : State, exec (.channelRelease p) s = .next (u.rebindEnd p 0) ∧
        ∀ c, c < 256 → bitOf rb.chans c = true → bitOf (u.chanMap p PART_CHAN) c = false) ∧
      (1 < hit.length ∨ (hit.length = 1 ∧ rb.move = false) → exec (.channelRelease p) s = .next (s.rebindEnd p 4))) ∧
    (∀ v : Word, s.holds 0 .part p → bitOf v.toNat 4 = true → bitOf v.toNat 3 = false → bitOf v.toNat 6 = false → rb.op = 1 → rb.step = 1 →
      s.on pg PART_REBIND_CTL_BUSY = true →
      let w := written .part PART_REBIND_CTL_OP.off v
      exec (.rebindAbort 0 p v) s = .next ((((s.set pg PART_REBIND_CTL_OP w).mark pg PART_REBIND_CTL_MOVE (bitOf w 7)).rebindEnd p 0x0D).bumpSeq pg)) ∧
    (∀ n, n < 256 → ∃ u : State, s.rebindEnd p n = u.keysSettle ∧ u.get pg PART_REBIND_CTL_BUSY = 0 ∧ u.get pg PART_REBIND_CTL_STEP = 0 ∧
      u.get pg PART_REBIND_CTL_RESULT = n ∧ u.get pg PART_REBIND_CTL_DONE = (if n = 0 then 1 else s.get pg PART_REBIND_CTL_DONE) ∧
      u.get pg PART_STAT_REBIND_BUSY = 0 ∧ u.atRebind p = {})

/-- Operation 4 of partition p moves region SRC to DST. At its start (sub-step 0) a failing condition of R250 ends it with that result; otherwise pass 1 copies every 2 MiB block of SRC and shows PASS. While at most 64 blocks are dirty, or after 8 passes, and no other change of a covering segment is pending, the change of BASE becomes pending on every covering segment; with more dirty blocks another pass copies the logged ones. In the switch (sub-step 5) with HOLD 0 on every covering segment and no block left in the log, every covering segment takes its words with BASE moved from SRC to DST, and the operation ends with result 0; while a segment is held nothing changes. -/
def Obligations.RebalanceOfARegion : Prop :=
  ∀ (s : State) (p : Nat), p < 32 → (s.atRebind p).op = 4 →
    let rb := s.atRebind p
    let segs := s.coverSegs p rb.src
    let r := s.rebalRule p rb.src rb.dst 0
    (rb.sub = 0 →
      (r ≠ 0 → exec (.rebalance p) s = .next (s.rebindEnd p r)) ∧
      (r = 0 → exec (.rebalance p) s = .next (s.rebalPass p 3 (s.regionBlocks rb.src)))) ∧
    (rb.sub = 3 ∨ rb.sub = 4 →
      (64 < rb.log.length → rb.pass < 8 → exec (.rebalance p) s = .next (s.rebalPass p 4 rb.log)) ∧
      (rb.log.length ≤ 64 ∨ 8 ≤ rb.pass → (∀ e, e ∈ segs → (s.atSegPend (e.1 * 8 + e.2)).words = []) →
        exec (.rebalance p) s = .next ((segs.foldl (fun t e => t.segNarrow e.1 e.2 (t.movedWords rb.src rb.dst e) true) s).rebalSub p 5))) ∧
    (rb.sub = 5 →
      ((∃ e, e ∈ segs ∧ s.segHold e.1 e.2 ≠ 0) → exec (.rebalance p) s = .next s) ∧
      ((∀ e, e ∈ segs → s.segHold e.1 e.2 = 0) → rb.log = [] → exec (.rebalance p) s =
        .next ((segs.foldl (fun t e => (t.segApply e.1 e.2 (t.movedWords rb.src rb.dst e)).segDone e.1 e.2)
          (s.rebalSub p 6)).rebindEnd p 0)))

/-- Operation 5 of partition p at step 1: span identity 0 ends with result 0x24; a request that does not name exactly one port, or a port that is retired, not up or bound, ends with 0x0A; otherwise a BIND_REQ with the identity is sent and the operation waits at step 3, where PORT_BIND_TIMEOUT ends it with 0x0C. Operation 6 at step 1 that would take the last bound port of an ACTIVE slot ends with 0x0A; a request without a bound port of p ends with 0; otherwise UNBIND goes to each partner, the ports drain, and step 2 follows. A draining port with no request outstanding on it is unbound: it leaves PART_PORTS and its LNK_STAT binding fields read 0; the last one ends the operation. -/
def Obligations.PortsOfASpanSlot : Prop :=
  ∀ (s : State) (p : Nat), p < 32 →
    let rb := s.atRebind p
    let mine := s.partPorts p
    let l := mine.filter (fun n => bitOf rb.ports n)
    let slotOf := fun (n : Nat) => s.get (lnkPg n) LNK_STAT_SPAN_SLOT
    (rb.op = 5 → rb.step = 1 →
      (rb.span = 0 → exec (.portBind p) s = .next (s.rebindEnd p 0x24)) ∧
      (rb.span ≠ 0 → onePort rb.ports = none → exec (.portBind p) s = .next (s.rebindEnd p 0x0A)) ∧
      (∀ n, rb.span ≠ 0 → onePort rb.ports = some n →
        (s.capState 3 n ≠ 1 ∨ s.portUp n = false ∨ s.on (lnkPg n) LNK_STAT_BOUND = true →
          exec (.portBind p) s = .next (s.rebindEnd p 0x0A)) ∧
        (s.capState 3 n = 1 → s.portUp n = true → s.on (lnkPg n) LNK_STAT_BOUND = false → exec (.portBind p) s =
          .next (((s.updLink n (fun x => { x with bindBy := x.bindBy ++ [p] })).sendMgmt n { op := 0x22, span := rb.span }).rebindStep p 3)))) ∧
    (∀ n, rb.op = 5 → rb.step = 3 → onePort rb.ports = some n → exec (.portBindTimeout p) s =
      .next ((s.updLink n (fun x => { x with bindBy := x.bindBy.filter (· != p) })).rebindEnd p 0x0C)) ∧
    (rb.op = 6 → rb.step = 1 →
      let last := ∃ n, n ∈ l ∧ s.get (spanAt p (slotOf n)) PART_SPAN_0_STATE = 2 ∧ ∀ k, k ∈ mine → slotOf k = slotOf n → k ∈ l
      (last → exec (.portUnbind p) s = .next (s.rebindEnd p 0x0A)) ∧
      (¬ last → l = [] → exec (.portUnbind p) s = .next (s.rebindEnd p 0)) ∧
      (¬ last → l ≠ [] → exec (.portUnbind p) s =
        .next ((l.foldl (fun t n => (t.sendMgmt n { op := 0x25 }).updLink n (fun x => { x with draining := true })) s).rebindStep p 2))) ∧
    (∀ n, n < 36 → (s.atLink n).draining = true → s.portBusy n = false → s.get (lnkPg n) LNK_STAT_PARTITION = p →
      s.on (lnkPg n) LNK_STAT_BOUND = true →
      ∃ u : State, (exec (.portUnbindDrainDone n) s = .next u ∨ exec (.portUnbindDrainDone n) s = .next (u.rebindEnd p 0)) ∧
        u.partPorts p = mine.filter (fun k => k != n) ∧ u.get (lnkPg n) LNK_STAT_BOUND = 0 ∧ u.get (lnkPg n) LNK_STAT_PARTITION = 0 ∧
        u.get (lnkPg n) LNK_STAT_SPAN_SLOT = 0 ∧ (u.atLink n).draining = false ∧ s.sameBytes u ∧
        ((rb.op = 6 ∧ rb.step = 2 ∧ (mine.filter (fun k => k != n)).all (fun k => !bitOf rb.ports k) = true) ↔
          exec (.portUnbindDrainDone n) s ≠ .next u))

/-- The physical function owns the page of partition p. A PART_SPAN write with JOIN (not LEAVE) on an IDLE slot stores RANK first; then of a partition that is not ACTIVE RESULT becomes 0x0F, of an identity 0 0x24, of an own rank outside the table or of another device 0x21, of a member without a route 0x23, and the slot stays IDLE; when every check passes and no join message of the span came early, the slot becomes JOINING with RESULT 0, its join message goes to every other member, and a slot that awaits nothing becomes ACTIVE. LEAVE moves an ACTIVE slot to LEAVING and a JOINING one to IDLE with result 0x0D. SPAN_JOIN_TIMEOUT of a JOINING slot makes it IDLE with result 0x22. SPAN_LEAVE_COMPLETE of a LEAVING slot that no accepted command and no live request uses sends the leave message, unbinds its ports and makes it IDLE with result 0. -/
def Obligations.SpanSlotJoinAndLeave : Prop :=
  ∀ (s : State) (p l : Nat) (v : Word), p < 32 → l < 8 → s.holds 0 .part p →
    let pg := partPg p
    let w := written .part (PART_SPAN_0 + 32 * l) v
    let t := s.set (spanAt p l) PART_SPAN_0_RANK (bitsOf w 15 4)
    let own := t.slotRank p l
    let span := t.slotSpan p l
    let turned := fun (r : Nat) => exec (.spanSlotJoin 0 p l v) s = .next ((t.slotResult p l r 0).bumpSeq pg)
    let good := own < t.spanM p l ∧ t.spanDev p l own = t.self
    let routes := ∀ e, e ∈ t.spanPeers p l → (t.nextHop e.2).isSome = true
    (bitOf w 0 = true → bitOf w 1 = false → s.slotState p l = 0 →
      (t.partState p ≠ 2 → turned 0x0F) ∧
      (t.partState p = 2 → span = 0 → turned 0x24) ∧
      (t.partState p = 2 → span ≠ 0 → ¬ good → turned 0x21) ∧
      (t.partState p = 2 → span ≠ 0 → good → ¬ routes → turned 0x23) ∧
      (t.partState p = 2 → span ≠ 0 → good → routes → (∀ e, e ∈ s.earlyJoins → e.1 ≠ span) →
        let j := (t.set (spanAt p l) PART_SPAN_0_STATE 1).slotResult p l 0 0
        let k := p * 8 + l
        let u := { j with joins := Tab.put {} k {} s.joins, spanNo := Tab.put 0 k 0 s.spanNo }
        exec (.spanSlotJoin 0 p l v) s = .next (((u.castColl p l { op := 0x11, addr := u.slotRank p l, payload := u.spanDigest p l ++ leBytes 2 (u.spanM p l) ++ leBytes 14 0 }).joinDone p l).bumpSeq pg))) ∧
    (bitOf w 0 = false → bitOf w 1 = true →
      (s.slotState p l = 2 → exec (.spanSlotLeave 0 p l v) s = .next ((s.set (spanAt p l) PART_SPAN_0_STATE 3).bumpSeq pg)) ∧
      (s.slotState p l = 1 → exec (.spanSlotLeave 0 p l v) s = .next ((s.slotIdle p l 0x0D 0).bumpSeq pg))) ∧
    (s.slotState p l = 1 → ∃ r, exec (.spanJoinTimeout p l) s = .next (s.slotIdle p l 0x22 (s.spanDev p l r))) ∧
    (s.slotState p l = 3 → s.slotUsed p l = false → ∃ u : State, exec (.spanLeaveComplete p l) s = .next (u.slotIdle p l 0 0)) ∧
    (∀ (u : State) (r d : Nat), r < 256 → d < 4096 → (u.slotIdle p l r d).slotState p l = 0 ∧
      (u.slotIdle p l r d).get (spanAt p l) PART_SPAN_RESULT_RESULT = r ∧ (u.slotIdle p l r d).get (spanAt p l) PART_SPAN_RESULT_PEER = d ∧
      (u.slotIdle p l r d).atJoin (p * 8 + l) = {})

/-- Of partition p. A PART_RT_MASK write that names a slice not bound to p is dropped with LAST_RESULT 1; one that clears a mask that is not 0 while a real-time queue is enabled is dropped with 0x14; any other, with no slice cleared, stores the mask, and the scheduler decides. At a quantum's end of a context that holds an unreserved slice, is not being preempted and is scheduled by the device, the context is preempted when another of its partition wants slices at an equal or higher priority, and otherwise its quantum starts again now. SWAP (not CLEAR of RL_ERR) without a read under way sets SWAP_BUSY and reads 16 bytes an entry at RL_BASE; with one under way it does nothing. The list that arrives waits as the fresh list, with LOADED 1 and SWAP_BUSY 0, and the scheduler decides; a failed read sets RL_ERR. In host mode an entry's end ends it, its context leaves its slices if its commands stand at a boundary, and the scheduler decides. -/
def Obligations.SchedulerRegistersAndQuanta : Prop :=
  ∀ (s : State) (p : Nat) (v : Word), p < 32 →
    let pg := partPg p
    (s.holds 0 .part p →
      let unbound := (onesBelow 32 v.toNat).any (fun n => !bitOf (s.rd (pg + PART_SLICES)) n)
      let rt := (s.enabledQues p).any (fun q => s.get (quePg q) QUE_CTL_CLASS == 1)
      let old := s.rd (pg + PART_RT_MASK)
      (unbound = true → exec (.rtMaskWrite 0 p v) s = .next (s.set pg PART_STAT_LAST_RESULT 0x01)) ∧
      (unbound = false → v = 0 → old ≠ 0 → rt = true → exec (.rtMaskWrite 0 p v) s = .next (s.set pg PART_STAT_LAST_RESULT 0x14)) ∧
      (unbound = false → ¬ (v = 0 ∧ rt = true) → (∀ n, bitOf old n = true → bitOf v.toNat n = true) →
        exec (.rtMaskWrite 0 p v) s = .next (((s.wr (pg + PART_RT_MASK) v.toNat).schedule p).bumpSeq pg))) ∧
    (s.holds 0 .part p →
      let w := written .part PART_RL_CTL v
      let n := max 1 (min 4096 (s.get pg PART_RL_COUNT_COUNT))
      bitOf w 0 = true → bitOf w 2 = false →
      (s.on pg PART_RL_CTL_SWAP_BUSY = false → exec (.runListSwap 0 p v) s =
        .next (((s.set pg PART_RL_CTL_SWAP_BUSY 1).emit (.hostRead 0 (s.rd64 (pg + PART_RL_BASE)) (16 * n) false)).bumpSeq pg)) ∧
      (s.on pg PART_RL_CTL_SWAP_BUSY = true → exec (.runListSwap 0 p v) s = .next (s.bumpSeq pg))) ∧
    (∀ list : Bytes, s.on pg PART_RL_CTL_SWAP_BUSY = true →
      exec (.runListReadDone p false list) s = .next ((s.set pg PART_RL_CTL_SWAP_BUSY 0).set pg PART_RL_CTL_RL_ERR 1) ∧
      ∃ u : State, exec (.runListReadDone p true list) s = .next (u.schedule p) ∧ u.get pg PART_RL_CTL_SWAP_BUSY = 0 ∧ u.get pg PART_RL_CTL_LOADED = 1 ∧
        (u.atPart p).list = (s.atPart p).list ∧
        ∃ l, (u.atPart p).fresh = some l ∧ l.length = max 1 (min 4096 (s.get pg PART_RL_COUNT_COUNT)) ∧
          ∀ i, i < l.length → l[i]? = some (leAt list (16 * i) 2 % 1024, leAt list (16 * i + 2) 1, leAt list (16 * i + 4) 4, leAt list (16 * i + 8) 4)) ∧
    (∀ j, j < 4096 → s.hostMode 1 = true →
      let u := s.endEntry p j
      exec (.runListEntryEnd p j) s = .next ((u.preempted (((u.atPart p).list.getD j (0, 0, 0, 0)).1 % 1024)).schedule p)) ∧
    (∀ x, x < 1024 → s.hostMode 1 = false → (s.held x false).isEmpty = false → (s.atCtx x).tq = none →
      let rival := ∃ y, y ∈ s.partCtxs (s.partOf x) ∧ y ≠ x ∧ s.wants y false = true ∧ s.prioOf x ≤ s.prioOf y
      (rival → exec (.quantumExpire x) s = .next ((s.preempt x).preempted x)) ∧
      (¬ rival → exec (.quantumExpire x) s =
        .next (s.updCtx x (fun e => { e with quantum := some s.mclk, qlen := s.quantumOf x * 100 }))))

/-- PORT_TRAIN of a port that may train (ENABLE, an identity, DOWN, not retired) makes it TRAINING with STRONG and HALF set when either end asks, and sends PARTNER_STATE; any other port stays as it is. A training failure in TRAINING or KEYING is counted; with fewer than two earlier failures within 1 s the port is DOWN and the time is noted, with two it is HELD from now on, LINK_HELD is recorded with reason 7, alarm bit 12 rises and the fault log takes it. HOLD_DOWN_EXPIRE makes a HELD port DOWN. RETRAIN (ENABLE kept 1) stores the settings and takes the port down unless it is HELD; clearing ENABLE of a port that is not UP closes it and ends its hold-down. PARTNER_LOSS_TIMEOUT loses an UP port with reason 1: one that is in no trunk is closed, its loss counted, routes through it held, and LINK_DOWN recorded. A closed port is DOWN and out of the forward pool. -/
def Obligations.PortTrainingAndLoss : Prop :=
  ∀ (s : State) (p : Nat), p < 36 →
    let pg := lnkPg p
    (∀ strong half : Bool,
      (s.mayTrain p = false → exec (.portTrain p strong half) s = .next s) ∧
      (s.mayTrain p = true → ∃ u : State, exec (.portTrain p strong half) s = .next (u.sendState p 0) ∧ u.portState p = 1 ∧
        u.on pg LNK_STAT_STRONG = (strong || s.on pg LNK_CTL_FEC_STRONG) ∧ u.on pg LNK_STAT_HALF = (half || s.on pg LNK_CTL_HALF_RATE || s.laneHalf) ∧
        u.atLink p = (s.atLink p).closed)) ∧
    (let recent := (s.atLink p).fails.filter (fun t => decide (s.mclk < t + 100000000))
     let u := (s.errCount pg LNK_TRAIN_FAIL 1).portClose p
     s.portState p = 1 ∨ s.portState p = 2 →
      (recent.length < 2 → exec (.trainingFailure p) s = .next (u.updLink p (fun x => { x with fails := s.mclk :: recent }))) ∧
      (2 ≤ recent.length → exec (.trainingFailure p) s =
        .next (((((u.updLink p (fun x => { x with fails := [], heldAt := some s.mclk })).set pg LNK_STAT_STATE 4).linkEvent 0x22 p 7).alarm 12).fault 11 p s.mclk))) ∧
    (s.portState p = 4 → exec (.holdDownExpire p) s = .next ((s.updLink p (fun x => { x with heldAt := none })).set pg LNK_STAT_STATE 0)) ∧
    (∀ v : Word, s.holds 0 .lnk p →
      let w := written .lnk LNK_CTL v
      let t := s.wr (pg + LNK_CTL) (w &&& 15)
      (bitOf w 0 = true → bitOf w 4 = true → bitOf w 5 = false →
        (s.portState p = 4 → exec (.linkRetrain 0 p v) s = .next (t.bumpSeq pg)) ∧
        (s.portState p ≠ 4 → exec (.linkRetrain 0 p v) s = .next ((t.portRetrain p 6).bumpSeq pg)) ∧
        (s.portState p ≠ 3 → t.portRetrain p 6 = t.portClose p)) ∧
      (bitOf w 0 = false → bitOf w 4 = false → bitOf w 5 = false → s.on pg LNK_CTL_ENABLE = true → s.portState p ≠ 3 →
        exec (.portEnableClear 0 p v) s = .next (((t.portClose p).updLink p (fun x => { x with heldAt := none })).bumpSeq pg))) ∧
    (s.portUp p = true → exec (.partnerLossTimeout p) s = .next (s.portLost p 1) ∧
      (s.inTrunk p = false →
        let u := ((s.portClose p).updLink p (fun x => { x with lostAt := some s.mclk })).errCount pg LNK_LOSS_CNT 1
        s.portLost p 1 = (u.routesHold (u.portDev p)).linkEvent 0x21 p 1)) ∧
    (s.portClose p).portState p = 0 ∧ (s.portClose p).get pg LNK_STAT_FWD_POOL = 0

/-- RTE_SELF takes its identity once: DEVICE, SET, and the entry of the device itself LOCAL; a second write changes nothing but BLK_SEQ. A write of RTE_DATA leaves a LOCAL entry; in host-assisted mode it stores VALID, NEXT, ALT and HOPS and the entry is not learned any more, its STATE being UNREACHABLE without VALID or with 15 hops, ON_NEXT when NEXT is reached, else ON_ALT when ALT is, else UNREACHABLE; in hardware mode only clearing VALID acts, and the entry is learned again. ROUTE_SWITCH of an entry that holds requests with none outstanding moves it to the other neighbour when that one is another and reached, keeps it when the present one still is, and else makes it UNREACHABLE and breaks what needs the device; then the held requests go on, and an UNREACHABLE entry may be learned again. ROUTE_ADV_TIMER advertises the whole table. REQUEST_EXPIRE frees the tag of an outstanding request and fails its command with code LINK_LOST; of one already resolved it only frees the tag. RGL_CNT_SEL copies the three byte and stall counters of the client. -/
def Obligations.RoutesAndRequests : Prop :=
  ∀ (s : State),
    (∀ v : Word, s.holds 0 .rte 0 →
      let w := written .rte RTE_SELF v
      (s.on rtePg RTE_SELF_SET = true → exec (.rteSelfWrite 0 v) s = .next (s.bumpSeq rtePg)) ∧
      (s.on rtePg RTE_SELF_SET = false → exec (.rteSelfWrite 0 v) s =
        .next ((((s.set rtePg RTE_SELF_DEVICE w).set rtePg RTE_SELF_SET 1).updRoute (w % 4096) (fun r => { r with valid := true, state := 3 })).bumpSeq rtePg))) ∧
    (∀ v : Word, s.holds 0 .rte 0 →
      let d := s.get rtePg RTE_SEL_DEST
      let r := s.atRoute d
      let w := v.toNat
      let next := bitsOf w 14 3
      let alt := bitsOf w 26 15
      let hops := bitsOf w 30 27
      let st := if bitOf w 0 = false ∨ hops = 15 then 0 else if s.reaches next then 1 else if s.reaches alt then 2 else 0
      (r.state = 3 → exec (.routeEntryWrite 0 v) s = .next (s.bumpSeq rtePg)) ∧
      (r.state ≠ 3 → s.hostMode 5 = true → exec (.routeEntryWrite 0 v) s =
        .next ((s.setRoute d { r with valid := bitOf w 0, next := next, alt := alt, hops := hops, learned := false, state := st }).bumpSeq rtePg)) ∧
      (r.state ≠ 3 → s.hostMode 5 = false → r.valid = true → bitOf w 0 = false → exec (.routeEntryWrite 0 v) s =
        .next (((s.setRoute d { r with valid := false, state := 0, learned := false, hold := false }).learn d).bumpSeq rtePg)) ∧
      (r.state ≠ 3 → s.hostMode 5 = false → bitOf w 0 = true ∨ r.valid = false → exec (.routeEntryWrite 0 v) s = .next (s.bumpSeq rtePg))) ∧
    (∀ d, d < 4096 → (s.atRoute d).hold = true → s.toward d = false →
      let r := s.atRoute d
      let here := if r.state = 2 then r.alt else r.next
      let other := if r.state = 2 then r.next else r.alt
      let goOn := fun (u : State) => r.held.foldl (fun t e => t.issueHeld d e) u
      (s.reaches other = true → other ≠ here → exec (.routeSwitch d) s =
        .next (goOn (s.setRoute d { r with hold := false, state := (if r.state = 2 then 1 else 2), held := [] }))) ∧
      (s.reaches other = false ∨ other = here → s.reaches here = true → r.state ≠ 0 → exec (.routeSwitch d) s =
        .next (goOn (s.setRoute d { r with hold := false, held := [] }))) ∧
      (s.reaches other = false ∨ other = here → s.reaches here = false ∨ r.state = 0 → exec (.routeSwitch d) s =
        .next ((goOn ((s.setRoute d { r with hold := false, state := 0, held := [] }).absent d none)).learn d))) ∧
    exec .routeAdvTimer s = .next (s.advertise (s.routes.map (·.1))) ∧
    (∀ tag r, tag < 65536 → Tab.get none s.reqs tag = some r →
      let u := { s with reqs := Tab.put none tag none s.reqs }
      (r.dead = true → exec (.requestExpire tag) s = .next u) ∧
      (r.dead = false → exec (.requestExpire tag) s = .next (u.reqFails r codeLinkLost 2 r.port 0))) ∧
    (∀ v : Word, s.holds 0 .rgl1 0 → 
      let u := s.wr (rglFwd + RGL_CNT_SEL) (written .rgl1 RGL_CNT_SEL v)
      let r := u.get rglFwd RGL_CNT_SEL_REGULATOR
      let c := u.get rglFwd RGL_CNT_SEL_CLIENT
      let x : Regl := if r < 295 then s.atRegl r else {}
      ∃ t : State, exec (.counterSnapshot 0 v) s = .next t ∧ t.rd (rglFwd + RGL_CNT_SEL) = u.rd (rglFwd + RGL_CNT_SEL) ∧ t.regls = s.regls ∧
        ∀ i, i < 3 → t.rd64 (rglFwd + RGL_CNT_DATA + 16 * i) = Tab.get 0 x.bytes (c * 3 + i) % 2 ^ 64 ∧
          t.rd64 (rglFwd + RGL_CNT_DATA + 16 * i + 8) = Tab.get 0 x.stalls (c * 3 + i) % 2 ^ 64)

/-- A request of well-formed fields and a known opcode arrives on a port that is UP; its buffer's credits are owed to the partner. Past age 1000 it is counted as expired and answered with status 5; for another device it is forwarded; at its destination RD of a size and alignment of R308, WR of 1 to 4,096 bytes with its payload, ATOM at its alignment, and REDUCE and REDUCE_SPC at a line's start are served when the range lies in a region exported to the span under a bound key index: the answer carries status 0 and the data read or, with the return bit, the old value; without that right the answer is REFUSED (1). -/
def Obligations.MemoryTransactionsArrive : Prop :=
  ∀ (s : State) (p : Nat) (t : Txn), p < 36 → txnOk t = true → knownOp t.op = true → s.portUp p = true →
    let at_ := fun (n : Nat) => { t with op := n, cls := 0 }
    let u := fun (n : Nat) => s.updLink p (fun x => x.owe (at_ n))
    let dpa := t.addr % 2 ^ 39
    let rows : List (Instr × Nat) := [(.rd p t, 1), (.wr p t, 2), (.atom p t, 3), (.reduce p t, 4), (.reduceSpc p t, 5)]
    (∀ e, e ∈ rows →
      (1000 < t.age → exec e.1 s = .next (((u e.2).errCount rtePg RTE_EXPIRED 1).answer (at_ e.2) 5 [])) ∧
      (t.age ≤ 1000 → t.dst ≠ s.self → exec e.1 s = .next ((u e.2).forward (at_ e.2))) ∧
      (t.age ≤ 1000 → t.dst = s.self → (∀ n b, s.ingressCheck t n b = none) → exec e.1 s = .next ((u e.2).answer (at_ e.2) 1 []))) ∧
    (t.age ≤ 1000 → t.dst = s.self →
      (∀ part v d, rdSized dpa t.aux = true → 256 ≤ t.aux → s.ingressCheck t t.aux false = some part → (s.place dpa).isSome = true →
        (u 1).devRead t.key dpa t.aux = (v, .inr d) → exec (.rd p t) s = .next (v.answer (at_ 1) 0 d)) ∧
      (∀ part v, 1 ≤ t.aux → t.aux ≤ 4096 → t.aux ≤ t.payload.length → s.ingressCheck t t.aux false = some part →
        (u 2).devWrite t.key part dpa (t.payload.take t.aux) = (v, .done) → exec (.wr p t) s = .next (v.answer (at_ 2) 0 [])) ∧
      (let wide := bitOf t.attr 6
       let n := if wide then 8 else 4
       ∀ part f pl v d, dpa % n = 0 → s.ingressCheck t n true = some part → s.place dpa = some pl → s.chanRetired pl.chan = false →
        atomFn (bitsOf t.attr 5 3) wide (leAt t.payload 0 n) (leAt t.payload 8 n) = some f →
        (u 3).lineModify pl t.key part dpa (atomicOn n pl.byte (bitOf t.attr 7) f) = (v, .data d) → exec (.atom p t) s = .next (v.answer (at_ 3) 0 d)) ∧
      (let w := wBytes (bitsOf t.aux 11 9)
       let n := bitsOf t.aux 21 12
       ∀ part v, bitsOf t.aux 11 9 ≤ 5 → n * w ≤ 4096 → n * w ≤ t.payload.length → dpa % 64 = 0 → s.ingressCheck t (64 * n) true = some part →
        (u 4).addAll t.key part dpa ((List.range n).map (fun i => (i, reduceElem (at_ 4) w i))) = (v, .done) →
        exec (.reduce p t) s = .next (v.answer (at_ 4) 0 [])) ∧
      (let es := (List.range t.aux).map (fun i => (leAt t.payload (4 * i) 2, (⟨0, BitVec.ofNat 2 (leAt t.payload (4 * i + 2) 1)⟩ : LongAcc)))
       let top := (es.map (fun e => e.1 + 1)).foldl max 0
       ∀ part v, 4 * t.aux ≤ t.payload.length → dpa % 64 = 0 → s.ingressCheck t (64 * top) true = some part →
        (u 5).addAll t.key part dpa es = (v, .done) → exec (.reduceSpc p t) s = .next (v.answer (at_ 5) 0 [])))

/-- On a port that is UP a transaction for this device within its lifetime. FENCE_SIG that R207 does not allow is answered REFUSED; an allowed one raises the fence's target, and signals the fence with the value, or, when its broken bit is set, breaks it with code PREDECESSOR_BROKEN and the detail it carries, and is answered with status 0. RSP with a tag that is not outstanding changes nothing but the credits owed; one for a request already resolved only frees the tag; status 0 frees the tag and gives a read's data to its command; any other status fails the command with the status's code. BARRIER of a span that this device is in puts the member's token among those held, unless rank and source do not match the table or the token is held already, and completes the barrier when it can. -/
def Obligations.FenceSignalsResponsesBarriers : Prop :=
  ∀ (s : State) (p : Nat) (t : Txn), p < 36 → txnOk t = true → knownOp t.op = true → s.portUp p = true → t.age ≤ 1000 → t.dst = s.self →
    (let r := { t with op := 6, cls := 0 }
     let u := s.updLink p (fun x => x.owe r)
     let f := t.addr % 65536
     let v := leAt t.payload 0 8
     (s.fenceTakes t f v = false → exec (.fenceSig p t) s = .next (u.answer r 1 [])) ∧
     (s.fenceTakes t f v = true →
      (bitOf (leAt t.payload 8 1) 0 = false → exec (.fenceSig p t) s = .next (((u.raiseTarget f v).signalFence f v).answer r 0 [])) ∧
      (bitOf (leAt t.payload 8 1) 0 = true → exec (.fenceSig p t) s =
        .next (((u.raiseTarget f v).remoteFenceBreak f codePredecessorBroken (leAt t.payload 9 1) t.src (some v)).answer r 0 [])))) ∧
    (let u := s.updLink p (fun x => x.owe { t with op := 7, cls := 1 })
     (Tab.get none s.reqs t.tag = none → exec (.rsp p t) s = .next u) ∧
     (∀ r, Tab.get none s.reqs t.tag = some r →
      let g := { u with reqs := Tab.put none t.tag none s.reqs }
      (r.dead = true → exec (.rsp p t) s = .next g) ∧
      (r.dead = false → t.status = 0 → r.op = 1 → exec (.rsp p t) s = .next (g.arriveBytes r.q r.seq r.base (sliceBytes t.payload r.skip r.take))) ∧
      (r.dead = false → t.status = 0 → r.op ≠ 1 → exec (.rsp p t) s = .next g) ∧
      (r.dead = false → t.status ≠ 0 → exec (.rsp p t) s = .next (g.reqFails r (statusCode t.status) 5 t.src t.src)))) ∧
    (let u := s.updLink p (fun x => x.owe { t with op := 0x10, cls := 2 })
     let no := t.addr % 2 ^ 32
     (s.slotWith t.span [1, 2, 3] = none → exec (.barrier p t) s = .next u) ∧
     (∀ e : Nat × Nat, s.slotWith t.span [1, 2, 3] = some e →
      let b : Tok := { slot := e.1 * 8 + e.2, cmd := no, bar := bitsOf t.addr 47 32, rank := bitsOf t.addr 59 48, acc := t.aux }
      let bad := s.spanM e.1 e.2 ≤ b.rank ∨ s.spanDev e.1 e.2 b.rank ≠ t.src ∨ ∃ k, k ∈ s.toks ∧ k.slot = b.slot ∧ k.cmd = no ∧ k.bar = b.bar ∧ k.rank = b.rank
      (bad → exec (.barrier p t) s = .next u) ∧
      (¬ bad → s.spanCmd e.1 e.2 no = none → exec (.barrier p t) s = .next { u with toks := s.toks ++ [b] }) ∧
      (∀ c, ¬ bad → s.spanCmd e.1 e.2 no = some c → exec (.barrier p t) s = .next (({ u with toks := s.toks ++ [b] }).barrierDone c.q c.seq))))

/-- On a port that is UP a message for this device. SPAN_JOIN of a span whose slot is JOINING or ACTIVE is answered with 0x20 when its digest differs, 0x21 when rank and source do not match the table, and else with 0, and then noted; of any other span it waits, replacing an earlier one of the same source. SPAN_ANS with a refusal returns the JOINING slot to IDLE with that result and the device; an acceptance that matches the table is noted. SPAN_LEAVE of a member notes it and breaks what needs it. CMD_CHECK and CMD_REFUSE of a command number that has not begun here are held for it; of an unresolved one that has been issued a CMD_CHECK compares the digest and a CMD_REFUSE breaks it; of one that is done they change nothing. Messages of a span this device is not in change nothing but the credits owed. -/
def Obligations.SpanMessagesArrive : Prop :=
  ∀ (s : State) (p : Nat) (t : Txn), p < 36 → txnOk t = true → knownOp t.op = true → s.portUp p = true → t.dst = s.self →
    let u := fun (n : Nat) => s.updLink p (fun x => x.owe { t with op := n, cls := 2 })
    let rank := t.addr % 4096
    let no := t.addr % 2 ^ 32
    (s.slotWith t.span [1, 2] = none → exec (.spanJoin p t) s = .next { u 0x11 with
      earlyJoins := s.earlyJoins.filter (fun e => !(e.1 == t.span && e.2.2.1 == t.src)) ++ [(t.span, rank, t.src, t.payload)] }) ∧
    (∀ e : Nat × Nat, s.slotWith t.span [1, 2] = some e →
      let r := if sliceBytes t.payload 0 48 ≠ s.spanDigest e.1 e.2 then 0x20 else if s.spanM e.1 e.2 ≤ rank ∨ s.spanDev e.1 e.2 rank ≠ t.src then 0x21 else 0
      let sent := (u 0x11).sendColl e.1 e.2 t.src { op := 0x12, addr := s.slotRank e.1 e.2, aux := r }
      (r ≠ 0 → exec (.spanJoin p t) s = .next sent) ∧
      (r = 0 → exec (.spanJoin p t) s = .next ((sent.updJoin (e.1 * 8 + e.2) (fun j => { j with
        joins := if j.joins.contains rank then j.joins else rank :: j.joins, left := j.left.filter (· != rank) })).joinDone e.1 e.2))) ∧
    (∀ e : Nat × Nat, s.slotWith t.span [1] = some e →
      (t.aux ≠ 0 → exec (.spanAns p t) s = .next ((u 0x12).slotIdle e.1 e.2 (t.aux % 256) t.src)) ∧
      (t.aux = 0 → rank < s.spanM e.1 e.2 → s.spanDev e.1 e.2 rank = t.src → exec (.spanAns p t) s =
        .next (((u 0x12).updJoin (e.1 * 8 + e.2) (fun j => { j with answers := if j.answers.contains rank then j.answers else rank :: j.answers })).joinDone e.1 e.2))) ∧
    (∀ e : Nat × Nat, s.slotWith t.span [2, 3] = some e → rank < s.spanM e.1 e.2 → s.spanDev e.1 e.2 rank = t.src → exec (.spanLeave p t) s =
      .next (((u 0x13).updJoin (e.1 * 8 + e.2) (fun j => { j with left := rank :: j.left })).absent t.src (some e))) ∧
    (∀ e : Nat × Nat, s.slotWith t.span [1, 2, 3] = some e →
      let ahead := Tab.get 0 s.spanNo (e.1 * 8 + e.2) ≤ no
      (s.spanCmd e.1 e.2 no = none → ahead →
        exec (.cmdCheck p t) s = .next ((u 0x14).holdCheck e.1 e.2 no t.src t.payload) ∧
        exec (.cmdRefuse p t) s = .next ((u 0x15).holdCheck e.1 e.2 no t.src [])) ∧
      (∀ c, s.spanCmd e.1 e.2 no = some c → c.work = false → c.issued = true →
        exec (.cmdCheck p t) s = .next ((u 0x14).checkOne c e.2 t.src t.payload) ∧
        exec (.cmdRefuse p t) s = .next ((u 0x15).checkOne c e.2 t.src [])) ∧
      (∀ c, s.spanCmd e.1 e.2 no = some c → c.work = true →
        exec (.cmdCheck p t) s = .next (u 0x14) ∧ exec (.cmdRefuse p t) s = .next (u 0x15))) ∧
    (s.slotWith t.span [1, 2, 3] = none → exec (.spanAns p t) s = .next (u 0x12) ∧ exec (.spanLeave p t) s = .next (u 0x13) ∧
      exec (.cmdCheck p t) s = .next (u 0x14) ∧ exec (.cmdRefuse p t) s = .next (u 0x15))

/-- On a port that is UP. HEARTBEAT gives the partner's INCARN and port, and on a port of a trunk the count of trunk blocks the partner has taken. PARTNER_STATE with GOING_DOWN (1) or PORT_DOWN (2) loses the port with reason 4 or 5. BIND_REQ: a retired port answers refused 2; one bound or being bound to the same span identity answers BIND_ACK; a bound one refuses 1; with no binding of its own in progress the request is held; with one, the lower identity refuses 1 and keeps its own, and the higher one's own bindings end with 0x0B and the request is held. BIND_ACK binds the port to the slot of the operation that has waited longest, ends it with result 0 and lets routes use the neighbour, or ends it with 0x0A when the port is bound meanwhile; BIND_REFUSE ends that operation, with 0x0A for reason 2 and else with 0x0B; with no such operation they change nothing. UNBIND drops a held request and makes a bound port drain. PARTNER_STATE with UP on a TRAINING port names the partner, makes the port KEYING, and sends this device's chain and offer; from this device's own identity, or while an entropy test fails, the training fails. -/
def Obligations.PortMessagesArrive : Prop :=
  ∀ (s : State) (p : Nat) (t : Txn), p < 36 → txnOk t = true → knownOp t.op = true →
    let u := fun (n : Nat) => s.updLink p (fun x => x.owe { t with op := n, cls := 3 })
    let pg := lnkPg p
    let x := s.atLink p
    (s.portUp p = true →
      (exec (.heartbeat p t) s = .next ((u 0x20).heartIn p { t with op := 0x20, cls := 3 })) ∧
      (s.rd (pg + LNK_INCARN) = leAt t.payload 0 4 → s.inTrunk p = true → (((u 0x20).heartIn p t).atTrunk (s.trunkKey p)).acked = leAt t.payload 4 4) ∧
      (t.aux = 1 ∨ t.aux = 2 → exec (.partnerState p t) s = .next ((u 0x21).portLost p (3 + t.aux))) ∧
      (s.capState 3 p = 2 → exec (.bindReq p t) s = .next ((u 0x22).sendMgmt p { op := 0x24, aux := 2 })) ∧
      (s.capState 3 p ≠ 2 → t.span ≠ 0 → s.boundSpan p t.span = true → exec (.bindReq p t) s = .next ((u 0x22).sendMgmt p { op := 0x23 })) ∧
      (s.capState 3 p ≠ 2 → ¬ (s.boundSpan p t.span = true ∧ t.span ≠ 0) →
        (s.on pg LNK_STAT_BOUND = true → exec (.bindReq p t) s = .next ((u 0x22).sendMgmt p { op := 0x24, aux := 1 })) ∧
        (s.on pg LNK_STAT_BOUND = false →
          (x.bindBy = [] → exec (.bindReq p t) s = .next ((u 0x22).updLink p (fun x => { x with bindReq := t.span }))) ∧
          (x.bindBy ≠ [] → s.self < s.portDev p → exec (.bindReq p t) s = .next ((u 0x22).sendMgmt p { op := 0x24, aux := 1 })) ∧
          (x.bindBy ≠ [] → ¬ s.self < s.portDev p → exec (.bindReq p t) s =
            .next ((x.bindBy.foldl (fun a part => a.bindFails part 0x0B) (u 0x22)).updLink p (fun x => { x with bindReq := t.span }))))) ∧
      (s.binding p = none → exec (.bindAck p t) s = .next (u 0x23) ∧ exec (.bindRefuse p t) s = .next (u 0x24)) ∧
      (∀ part, s.binding p = some part →
        (s.on pg LNK_STAT_BOUND = true → exec (.bindAck p t) s = .next ((u 0x23).bindFails part 0x0A)) ∧
        (s.on pg LNK_STAT_BOUND = false → exec (.bindAck p t) s = .next (((((u 0x23).updLink p (fun x => { x with bindBy := x.bindBy.drop 1 })).bindPort p part
          (s.atRebind part).slot (s.atRebind part).span).rebindEnd part 0).neighbourUp (s.portDev p))) ∧
        exec (.bindRefuse p t) s = .next ((u 0x24).bindFails part (if t.aux = 2 then 0x0A else 0x0B))) ∧
      (∃ v : State, exec (.unbind p t) s = .next v ∧ (v.atLink p).bindReq = 0 ∧
        (v.atLink p).draining = (if s.on pg LNK_STAT_BOUND then true else x.draining) ∧ v.regs = s.regs ∧ s.sameBytes v)) ∧
    (s.portState p = 1 → t.aux = 0 →
      let v := (u 0x21).partnerIs p t.src (leAt t.payload 4 1 % 64) (leAt t.payload 0 4)
      (t.src = v.self ∨ s.sec.entropyBad = true → exec (.partnerState p t) s = .next (v.trainFails p)) ∧
      (t.src ≠ v.self → s.sec.entropyBad = false → exec (.partnerState p t) s =
        .next (((v.set pg LNK_STAT_STATE 2).sendMgmt p { op := 0x26, payload := ownChain }).sendOffer p)))

/-- On a KEYING port without keys: a chain that does not verify fails the training, one that does is kept; a KEY_OFFER is kept (129 bytes); either is followed by KEY_PROOF once chain, offer and own offer are there. A KEY_PROOF that verifies against the leaf key of the partner's chain and the transcript installs new keys for both directions and forgets the offers, a chain not kept or a proof that does not verify fails the training. On an UP port KEY_SWITCH moves the receiver to its next key with no open group. TRUNK_SYNC on a port of a trunk lets the port's trunk blocks be taken again; a trunk that re-forms resumes at the partner's count, with every block placed after it to be placed again, and what its members' replay buffers hold counts no longer as the trunk's. ROUTE_ADV changes no route entry in host-assisted mode, and in hardware mode notes each entry of the neighbour, 15 hops withdrawing it, and learns entries. -/
def Obligations.KeyingOfAPort : Prop :=
  ∀ (s : State) (p : Nat) (t : Txn), p < 36 → txnOk t = true → knownOp t.op = true →
    let r := fun (n : Nat) => { t with op := n, cls := 3 }
    let u := fun (n : Nat) => s.updLink p (fun x => x.owe (r n))
    let x := s.atLink p
    (s.portState p = 2 → x.keyed = false →
      exec (.cert p t) s = .next (if Config.chainVerify t.payload then ((u 0x26).updLink p (fun x => { x with chain := t.payload, certOk := true })).proofOut p
        else (u 0x26).trainFails p) ∧
      exec (.keyOffer p t) s = .next (((u 0x27).updLink p (fun x => { x with offer := t.payload.take 129 })).proofOut p) ∧
      (let good := x.certOk = true ∧ x.offer ≠ [] ∧ x.ownOffer ≠ [] ∧
        Config.ecdsaVerify (Config.leafKey x.chain) (s.transcript p) (t.payload.take 96) = true
       ∃ v : State, exec (.keyProof p t) s = .next v ∧ (good → (v.atLink p).keyed = true ∧ (v.atLink p).txKey = x.txKey + 1 ∧
         (v.atLink p).rxKey = x.rxKey + 1 ∧ (v.atLink p).groups = 0 ∧ (v.atLink p).ownOffer = [] ∧ (v.atLink p).offer = [] ∧ v.regs = s.regs) ∧
         (¬ good → v = (u 0x28).trainFails p))) ∧
    (s.portUp p = true →
      (∃ v : State, exec (.keySwitch p t) s = .next v ∧ (v.atLink p).rxKey = x.rxKey + 1 ∧ (v.atLink p).rxGroup = none ∧ (v.atLink p).rxTrunk = 0 ∧
        v.regs = s.regs ∧ v.mem = s.mem) ∧
      (s.inTrunk p = false → exec (.trunkSync p t) s = .next (u 0x2A)) ∧
      (s.inTrunk p = true → (s.atTrunk (s.trunkKey p)).sync = false → exec (.trunkSync p t) s = .next ((u 0x2A).updLink p (fun x => { x with syncWait := false }))) ∧
      (s.inTrunk p = true → (s.atTrunk (s.trunkKey p)).sync = true →
        let a := s.atTrunk (s.trunkKey p)
        let n := t.aux % 2 ^ 32
        ∃ v : State, exec (.trunkSync p t) s = .next v ∧ v.atTrunk (s.trunkKey p) = { a with sync := false, acked := n, tx := n, redo := (a.tx + a.redo + 2 ^ 32 - n) % 2 ^ 32 } ∧
          (∀ m, m ∈ s.members (s.trunkKey p) → (v.atLink m).replay = (s.atLink m).replay.map (fun b => ({ b with ord := none } : RepBlk))) ∧
          (v.atLink p).syncWait = false ∧ v.regs = s.regs ∧ s.sameBytes v) ∧
      (s.hostMode 5 = true → exec (.routeAdv p t) s = .next (u 0x2B)) ∧
      (s.hostMode 5 = false → t.aux = 1 → 2 ≤ t.payload.length →
        let e := leAt t.payload 0 2
        exec (.routeAdv p t) s = .next (((u 0x2B).updRoute (e % 4096) (fun a => { a with
          adv := (a.adv.filter (fun b => b.1 != s.portDev p)) ++ (if e / 4096 = 15 then [] else [(s.portDev p, e / 4096)]) })).learn (e % 4096))))

/-- A port that is DOWN or HELD neither sends nor takes a block. A received block that the FEC cannot correct is counted in LNK_FEC_UNCORR and asks for a repeat, one whose CRC fails or whose TYPE is 3 in LNK_CRC_ERR; nothing of it is taken: neither LSEQ, nor acknowledgement, nor credits. Sent without data, or after 1,023 blocks without one, is an IDLE block with its HEARTBEAT, which leaves LSEQ as it is. With the replay buffer of 1,024 blocks full nothing is sent. A keyed port with its own slots waiting, and not back for less than 1 ms, sends a data block of up to 16 slots, the last of a group carrying 15: LSEQ advances modulo 4096, the replay buffer keeps it, and the group counter advances with the block that ends a group. A HEARTBEAT goes in an IDLE block, or as a message when the port has slots of its own waiting. A port that waits repeats its NAK in an IDLE block. REKEY of an UP port (ENABLE kept 1) that does not rekey starts a rekey; elsewhere only the settings are stored. -/
def Obligations.BlocksOfAPort : Prop :=
  ∀ (s : State) (p : Nat), p < 36 →
    let pg := lnkPg p
    let x := s.atLink p
    let silent := s.portState p = 0 ∨ s.portState p = 4
    (∀ (b : Block) (data : Bool), silent → blockOk b = true → exec (.linkBlockSend p data) s = .next s ∧ exec (.linkBlockReceive p b) s = .next s) ∧
    (∀ b : Block, ¬ silent → blockOk b = true →
      (blockFecOk b (s.on pg LNK_STAT_STRONG) = false →
        exec (.linkBlockReceive p b) s = .next ((s.errCount pg LNK_FEC_UNCORR 1).nakStart p)) ∧
      (blockFecOk b (s.on pg LNK_STAT_STRONG) = true → (∀ n, n ∈ b.fecErrs → n = 0) → (∀ n, n ∈ b.fecEras → n = 0) →
        (blockCrcOk b = false ∨ b.type = 3 → exec (.linkBlockReceive p b) s = .next ((s.errCount pg LNK_CRC_ERR 1).nakStart p)) ∧
        (blockCrcOk b = true → b.type = 0 → b.nak = false → idleHeart b = none → s.portUp p = true →
          exec (.linkBlockReceive p b) s = .next (((s.acks p b.lack).creditReturn p b.crBuf b.crCnt).rekeyDrained p)))) ∧
    (¬ silent →
      (∀ data : Bool, data = false ∨ 1023 ≤ x.sinceIdle → ∃ u : State, exec (.linkBlockSend p data) s = .next u ∧ (u.atLink p).txSeq = x.txSeq ∧
        (u.atLink p).sinceIdle = 0 ∧ (u.atLink p).nakDue = false ∧ (u.atLink p).hbSeq = (x.hbSeq + 1) % 2 ^ 32 ∧ (u.atLink p).replay = x.replay) ∧
      (x.sinceIdle < 1023 → 1024 ≤ x.replay.length → exec (.linkBlockSend p true) s = .next s) ∧
      (x.sinceIdle < 1023 → x.replay.length < 1024 → x.keyed = true → (∀ a, x.lostAt = some a → a + 100000 ≤ s.mclk) → x.slots ≠ 0 → x.groups + 1 < 2 ^ 48 →
        let ends := x.slots ≤ 15 ∨ 15 ≤ x.groupLen
        ∃ u : State, exec (.linkBlockSend p true) s = .next u ∧ (u.atLink p).txSeq = (x.txSeq + 1) % 4096 ∧ (u.atLink p).sinceIdle = x.sinceIdle + 1 ∧
          (ends → (u.atLink p).slots = x.slots - 15 ∧ (u.atLink p).groups = x.groups + 1 ∧ (u.atLink p).groupLen = 0) ∧
          (¬ ends → (u.atLink p).slots = x.slots - 16 ∧ (u.atLink p).groups = x.groups ∧ (u.atLink p).groupLen = x.groupLen + 1) ∧
          (u.atLink p).replay.length = x.replay.length + 1)) ∧
    (s.portUp p = true →
      (x.slots = 0 → exec (.heartbeatSend p) s = .next (s.sendIdle p)) ∧
      (x.slots ≠ 0 → exec (.heartbeatSend p) s = .next ((s.sendMgmt p (s.heartTxn p)).updLink p (fun y => { y with hbSeq := (y.hbSeq + 1) % 2 ^ 32 })))) ∧
    (x.nakWait = true → exec (.nakRepeat p) s = .next ((s.updLink p (fun y => { y with nakDue := true })).sendIdle p)) ∧
    (∀ v : Word, s.holds 0 .lnk p →
      let w := written .lnk LNK_CTL v
      let t := s.wr (pg + LNK_CTL) (w &&& 15)
      bitOf w 0 = true → bitOf w 4 = false → bitOf w 5 = true →
      (s.portUp p = true → x.rekey = 0 → exec (.linkRekey 0 p v) s =
        .next (((t.updLink p (fun x => { x with rekey := 1, ownOffer := [], offer := [] })).rekeyDrained p).bumpSeq pg)) ∧
      (s.portUp p = false ∨ x.rekey ≠ 0 → exec (.linkRekey 0 p v) s = .next (t.bumpSeq pg)))

/-- Of the requests waiting at regulator r, each charged to its client and class, those of clients that use it are its requests; in queue-share mode only those that hold a request slot. Of them those that can issue are eligible. With none, nothing is issued. Otherwise exactly one eligible request e is issued and BYTES of its client and class grows by 256 modulo 2^64. In queue-share mode e is the oldest. In rate mode credit is earned first; when some eligible client-class holds 256 credit, e is of one that does, and of the most urgent class among those; when none does, e is of the most urgent class present. No register and no byte of memory changes. -/
def Obligations.RegulatorChoosesOneRequest : Prop :=
  ∀ (s : State) (r : Nat) (w : List Waiting), r < 295 →
    let held := s.reglHeld r (s.reglWaiting r w)
    let l := held.filter (·.can)
    let shared := s.on rglDev RGL_MODE_STAT_QSHARE
    let s0 := s.reglHold r held
    (l = [] → exec (.regulatorIssue r w) s = .next (if shared then s0 else s0.reglEarn r)) ∧
    (l ≠ [] → ∃ (e : Elig) (u : State), e ∈ l ∧ exec (.regulatorIssue r w) s = .next (u.emit (.issue r e.client e.cls e.age)) ∧
      Tab.get 0 (u.atRegl r).bytes (e.client * 3 + e.cls) = (Tab.get 0 (s.atRegl r).bytes (e.client * 3 + e.cls) + 256) % 2 ^ 64 ∧
      u.regs = s.regs ∧ s.sameBytes u ∧
      (shared = true → ∀ f, f ∈ l → e.age ≤ f.age) ∧
      (shared = false →
        let credit := fun (f : Elig) => Tab.get 0 ((s0.reglEarn r).atRegl r).credit (f.client * 3 + f.cls)
        ((∃ f, f ∈ l ∧ 256 ≤ credit f) → 256 ≤ credit e ∧ ∀ f, f ∈ l → 256 ≤ credit f → e.cls ≤ f.cls) ∧
        ((∀ f, f ∈ l → credit f < 256) → ∀ f, f ∈ l → e.cls ≤ f.cls)))

/-- A power sample of a running module shows voltage and current in PWR_INPUT, joins the sum and the count of the epoch, and counts the samples in a row above 2,000 W and below 1,900 W; of a module that does not run nothing changes. The limiter acts on a sample once: at 2,600 W, at ten samples in a row above 2,000 W, or, while it is on, at one above 2,000 W; then each island's limit becomes three quarters of its effective ceiling but not below 600 MHz (code 24), ELEC is set, and its count grows only as it comes on; otherwise nothing changes. After ten samples in a row below 1,900 W it lifts: no island is limited, ELEC is 0. INPUT_LOW of a running module not yet low sets INPUT_LOW, raises alarm bit 4, writes record 0x13 with the voltage and lowers the clocks; INPUT_LOW_CLEAR clears it. -/
def Obligations.PowerSamplesAndLimiter : Prop :=
  ∀ (s : State),
    (∀ mv deciA, mv < 65536 → deciA < 65536 →
      (s.running = false → exec (.powerSample mv deciA) s = .next s) ∧
      (s.running = true → ∃ u : State, exec (.powerSample mv deciA) s = .next u ∧ u.get pwrPg PWR_INPUT_MV = mv ∧ u.get pwrPg PWR_INPUT_DA = deciA ∧
        u.power.sum = s.power.sum + mv * deciA ∧ u.power.count = s.power.count + 1 ∧ u.power.lastA = deciA ∧ u.power.judged = false ∧
        u.power.hiRun = (if 20000000 < mv * deciA then s.power.hiRun + 1 else 0) ∧
        u.power.loRun = (if mv * deciA < 19000000 then s.power.loRun + 1 else 0) ∧ s.sameBytes u)) ∧
    (let w := s.get pwrPg PWR_INPUT_MV * s.get pwrPg PWR_INPUT_DA
     let due := s.power.judged = false ∧ (26000000 ≤ w ∨ 10 ≤ s.power.hiRun ∨ (s.power.elecOn = true ∧ 20000000 < w))
     (¬ due → exec .elecLimitActivate s = .next s) ∧
     (due → ∃ u : State, exec .elecLimitActivate s = .next u.clocks ∧ u.power.elecOn = true ∧ u.power.judged = true ∧ u.on pwrPg PWR_STAT_ELEC = true ∧
      (∀ i, i < 136 → Tab.get 96 u.power.elec i = max 24 ((s.effective i).1 * 3 / 4)) ∧
      u.rd (pwrPg + PWR_ELEC_CNT) = (if s.power.elecOn then s.rd (pwrPg + PWR_ELEC_CNT) else satAdd 0xFFFFFFFF (s.rd (pwrPg + PWR_ELEC_CNT)) 1))) ∧
    (s.power.elecOn = true → 10 ≤ s.power.loRun → exec .elecLimitLift s =
      .next (({ s with power := { s.power with elecOn := false, elec := [] } }.set pwrPg PWR_STAT_ELEC 0).clocks)) ∧
    (s.power.elecOn = false ∨ s.power.loRun < 10 → exec .elecLimitLift s = .next s) ∧
    (s.running = true → s.on pwrPg PWR_STAT_INPUT_LOW = false → exec .inputLow s =
      .next ((((s.set pwrPg PWR_STAT_INPUT_LOW 1).alarm 4).event0 0x13 (leBytes 2 (((s.set pwrPg PWR_STAT_INPUT_LOW 1).alarm 4).get pwrPg PWR_INPUT_MV))).clocks)) ∧
    (s.on pwrPg PWR_STAT_INPUT_LOW = true → exec .inputLowClear s = .next ((s.set pwrPg PWR_STAT_INPUT_LOW 0).clocks))

/-- A base-die or stage sample of a running module is kept as that sensor's reading and judged: a value below the hard limit of its kind sets nothing; one at or above it, with the throttle off, sets the kind's HARD bit, counts it, raises alarm bit 0, writes record 0x12 and lowers the clocks; a value at or above the trip limit counts toward the trip, one below it ends the count. THERMAL_TRIP at two samples in a row trips once: TRIP with kind and index, the trip pin low, alarm bit 1, phase 7, the partners told, the clocks lowered. The hard throttle lifts when every reading of the kind is 5 °C or more below its limit. A tower's eight readings: with a valid one above 85 °C, the tower refreshes doubled; REFRESH_NORMAL_RETURN ends that after eight cool epochs without a faulty sensor, and otherwise changes nothing. -/
def Obligations.TemperatureSamples : Prop :=
  ∀ (s : State),
    (∀ kind i (temp : Int), (kind = 3 ∧ i < 16) ∨ (kind = 4 ∧ i < 4) → s.running = true → -128 ≤ temp → temp ≤ 127 →
      ∃ u : State, exec (.thermalSample kind i temp) s = .next (u.judgeTemp kind i) ∧ u.reading kind i = some temp ∧ u.senses kind i = some temp ∧
        u.therm.trips = s.therm.trips ∧ s.sameBytes u ∧ (∀ f, f ∈ [1, 2, 3, 4] → u.on thmPg (hardBit f) = s.on thmPg (hardBit f))) ∧
    (∀ kind i (temp : Int), s.senses kind i = some temp →
      let v := { s with therm := { s.therm with trips := Tab.upd 0 s.therm.trips (kind * 256 + i) (fun n => if tripLimit kind ≤ temp then n + 1 else 0) } }
      (temp < hardLimit kind ∨ s.on thmPg (hardBit kind) = true → s.judgeTemp kind i = v) ∧
      (hardLimit kind ≤ temp → s.on thmPg (hardBit kind) = false → s.judgeTemp kind i =
        (((((v.set thmPg (hardBit kind) 1).bump (thmPg + THM_HARD_CNT) 1).alarm 0).event0 0x12 (leBytes 1 kind ++ leBytes 1 2 ++ leBytes 2 i ++ leBytes 2 (codeOf 16 temp))).clocks))) ∧
    (∀ kind i, i < sensorCount kind → s.therm.tripped = false → 2 ≤ Tab.get 0 s.therm.trips (kind * 256 + i) →
      let u := { s with therm := { s.therm with tripped := true }, pins := { s.pins with tripN := false } }
      let v := ((u.set thmPg THM_STAT_TRIP 1).set thmPg THM_STAT_TRIP_KIND kind).set thmPg THM_STAT_TRIP_INDEX i
      exec (.thermalTrip kind i) s = .next ((((v.alarm 1).set mgmtPg MGMT_PHASE_PHASE 7).goingDown).clocks)) ∧
    (∀ kind, 1 ≤ kind → kind ≤ 4 → s.on thmPg (hardBit kind) = true →
      (∀ i t, i < sensorCount kind → s.senses kind i = some t → t + 5 ≤ hardLimit kind) →
      exec (.hardThrottleLift kind) s = .next ((s.set thmPg (hardBit kind) 0).clocks)) ∧
    (∀ n (temps : List Int), n < 16 → temps.length = 8 → s.running = true →
      ∃ u : State, exec (.towerTempSample n temps) s = .next (u.judgeTemp 2 n) ∧ u.reading 2 n = (s.towerSample n temps).2 ∧
        ((∃ x, (s.towerSample n temps).2 = some x ∧ 85 < x) → u.on (Pg.base .memt n) MEMT_REFRESH_DOUBLED = true) ∧
        (u.atTower n).last = temps) ∧
    (∀ n, n < 16 →
      let pg := Pg.base .memt n
      (8 ≤ (s.atTower n).cool → s.get pg MEMT_REFRESH_SENSOR_FAULT = 0 → ∃ u : State, exec (.refreshNormalReturn n) s = .next u ∧ u.get pg MEMT_REFRESH_DOUBLED = 0 ∧
        u = { s with regs := u.regs, captGen := u.captGen } ∧ s.sameRegs u [pg + MEMT_REFRESH_DOUBLED.off]) ∧
      ((s.atTower n).cool < 8 ∨ s.get pg MEMT_REFRESH_SENSOR_FAULT ≠ 0 → exec (.refreshNormalReturn n) s = .next s))

/-- POWER_MODEL_DIVERGENCE after 8 epochs beyond 15 % with a plausible measurement sets DIVERGE, raises alarm bit 5, counts it and writes record 0x10 with the measured and the estimated power and the scale; otherwise nothing changes. STRAGGLER_SHIFT while the response is on ends it after 24 epochs without a rise, and while it is off starts it when the conditions of R375 hold, otherwise nothing changes; a start or an end shows in STRAG_SHIFT. SUPPLY_DROOP of an island that is not stopped counts its cycles, those in a band also as stretched, shows a deep droop, counts deep cycles for the guardband, and enters the new band. EPOCH_BOUNDARY of a module that is READY moves the clock to the next multiple of 41,667, counts the epoch, counts an overrun when fewer than eight steps complete, and does the first steps of the epoch's work in their order. -/
def Obligations.DivergenceStragglersDroopsEpochs : Prop :=
  ∀ (s : State),
    (8 ≤ s.power.divEpochs → s.power.bad = false → s.on pwrPg PWR_STAT_DIVERGE = false →
      let u := ((s.set pwrPg PWR_STAT_DIVERGE 1).alarm 5).bumpF pwrPg PWR_EVT_CNT_DIVERGE 1
      exec .powerModelDivergence s =
        .next (u.event0 0x10 (leBytes 2 (u.get pwrPg PWR_NOW_MEAS) ++ leBytes 2 u.estimate ++ leBytes 2 (u.get pwrPg PWR_EST_SCALE_K)))) ∧
    (s.power.divEpochs < 8 ∨ s.power.bad = true ∨ s.on pwrPg PWR_STAT_DIVERGE = true → exec .powerModelDivergence s = .next s) ∧
    (s.on pwrPg PWR_STAT_STRAG_SHIFT = true →
      (24 ≤ s.power.stragQuiet → exec .stragglerShift s = .next (s.stragglerState false)) ∧
      (s.power.stragQuiet < 24 → exec .stragglerShift s = .next s)) ∧
    (s.on pwrPg PWR_STAT_STRAG_SHIFT = false →
      (s.stragglerStarts = true → exec .stragglerShift s = .next (s.stragglerState true)) ∧
      (s.stragglerStarts = false → exec .stragglerShift s = .next s)) ∧
    (∀ b : Bool, ∃ v : State, s.stragglerState b = v.setBulk ∧ v.on pwrPg PWR_STAT_STRAG_SHIFT = b) ∧
    (∀ isl band n, isl < 128 → band ≤ 4 → isl ∉ s.halted →
      let pg := islPg isl
      let old := Tab.get 0 s.droop isl
      ∃ u : State, exec (.supplyDroop isl band n) s = .next u ∧ Tab.get 0 u.droop isl = band ∧
        u.rd64 (pg + ISL_CYC_CNT) = (s.rd64 (pg + ISL_CYC_CNT) + n) % 2 ^ 64 ∧
        u.rd64 (pg + ISL_STRETCH_CNT) = (if old = 0 then s.rd64 (pg + ISL_STRETCH_CNT) else (s.rd64 (pg + ISL_STRETCH_CNT) + n) % 2 ^ 64) ∧
        (old = 4 → n ≠ 0 → u.on pg ISL_STAT_DEEP_DROOP = true) ∧
        Tab.get 0 u.power.deep isl = (if old = 4 then Tab.get 0 s.power.deep isl + n else Tab.get 0 s.power.deep isl) ∧
        s.sameRegs u [pg + ISL_CYC_CNT, pg + ISL_CYC_CNT + 4, pg + ISL_STRETCH_CNT, pg + ISL_STRETCH_CNT + 4, pg + ISL_STAT_DEEP_DROOP.off] ∧ s.sameBytes u) ∧
    (∀ steps, steps ≤ 8 → s.ready = true →
      let u := ({ s with mclk := (s.mclk / 41667 + 1) * 41667, mgmt := { s.mgmt with wdog := s.mgmt.wdog + 1 } }).bump64 (mgmtPg + MGMT_EPOCH) 1
      let v := if steps < 8 then u.bump (mgmtPg + MGMT_EPOCH_OVR) 1 else u
      exec (.epochBoundary steps) s = .next ((List.range steps).foldl (fun a i => if a.ready then a.epochStep (i + 1) else a) v) ∧
        v.mclk % 41667 = 0 ∧ s.mclk < v.mclk ∧ v.mclk ≤ s.mclk + 41667 ∧
        v.rd64 (mgmtPg + MGMT_EPOCH) = (s.rd64 (mgmtPg + MGMT_EPOCH) + 1) % 2 ^ 64)

/-- The physical function owns the page of slot k, and writes KEY_CTL without changing its fixed fields (bits 12 to 3). ARM alone: slot 0 gives RESULT 5, a slot of no partition 1, a slot not FREE 2, one under the key lock 3; a FREE slot of partition p with a healthy entropy source advances its EPOCH modulo 2^32, is ARMED for p, and gives 0. RETIRE: slot 0 gives 5, a FREE slot 6, and any other is retired, with FORCE releasing what accepted commands hold; FORCE alone acts on a RETIRING slot like RETIRE with FORCE and on any other does nothing. A slot whose retirement nothing holds is FREE at once, with STEP 0. -/
def Obligations.KeySlotRequests : Prop :=
  ∀ (s : State) (k : Nat) (v : Word), k < 256 → s.holds 0 .key (k / 32) →
    let pg := Pg.base .key (k / 32)
    let e := keyAt k
    let w := written .key (KEY_CTL + 64 * (k % 32)) v
    let done := fun (u : State) => Host.Outcome.next (u.bumpSeq pg)
    bitsOf w 12 3 = bitsOf (s.rd (e + KEY_CTL)) 12 3 →
    (bitOf w 0 = true → bitOf w 1 = false → bitOf w 2 = false →
      (k = 0 → exec (.keyArm 0 k v) s = done (s.keyResult k 5)) ∧
      (k ≠ 0 → s.keyPart k = none → exec (.keyArm 0 k v) s = done (s.keyResult k 1)) ∧
      (∀ p, k ≠ 0 → s.keyPart k = some p →
        (s.keyState k ≠ 0 → exec (.keyArm 0 k v) s = done (s.keyResult k 2)) ∧
        (s.keyState k = 0 → s.keyLocked p = true → exec (.keyArm 0 k v) s = done (s.keyResult k 3)) ∧
        (s.keyState k = 0 → s.keyLocked p = false → s.sec.entropyBad = false → ∃ t : State, exec (.keyArm 0 k v) s = .next t ∧
          t.rd (e + KEY_EPOCH) = (s.rd (e + KEY_EPOCH) + 1) % 2 ^ 32 ∧ t.keyState k = 1 ∧ t.get e KEY_STAT_PARTITION = p ∧
          t.get e KEY_STAT_RESULT = 0 ∧ s.sameRegs t [e + KEY_EPOCH, e + KEY_STAT_STATE.off, pg + 0x024] ∧ s.sameBytes t))) ∧
    (bitOf w 0 = false → bitOf w 1 = true →
      (k = 0 → exec (.keyRetire 0 k v) s = done (s.keyResult k 5)) ∧
      (k ≠ 0 → s.keyState k = 0 → exec (.keyRetire 0 k v) s = done (s.keyResult k 6)) ∧
      (k ≠ 0 → s.keyState k ≠ 0 → exec (.keyRetire 0 k v) s = done (s.keyRetire k (bitOf w 2)))) ∧
    (bitOf w 0 = false → bitOf w 1 = false → bitOf w 2 = true →
      (s.keyState k = 2 → exec (.keyForce 0 k v) s = done (s.keyRetire k true)) ∧
      (s.keyState k ≠ 2 → exec (.keyForce 0 k v) s = done s)) ∧
    (∀ u : State, k ≠ 0 → u.keyState k = 2 → u.keyHold k = 0 → u.rebalUses k = false → u.keySettle k = u.keyFinish k) ∧
    (∀ u : State, (¬ (u.keyState k = 2 ∧ u.keyHold k = 0 ∧ u.rebalUses k = false)) → u.keySettle k = u)

/-- The physical function owns the security page. A write of SEC_PROTECT sets, and never clears, the bits of partitions that are FORMING or ACTIVE; in vendor debug it sets none. A write of SEC_KLOCK sets, and never clears, the bits of protected partitions. A word written to the selected key-flow row becomes that word of the row; under the partition's key lock a write that would change the row is dropped and counted in SEC_LOCK_VIOL. SEC_UNLOCK takes PARTITION; GO is ignored while BUSY and for a partition without a key lock; with a lock and every key slot of the partition FREE and no function attached, the lock clears at once. COMMIT_SVN raises the fused version to the running one, and never lowers it. -/
def Obligations.ProtectionAndLocks : Prop :=
  ∀ (s : State) (v : Word), s.holds 0 .sec 0 →
    (∃ t : State, exec (.secProtectSet 0 v) s = .next t ∧ s.sameRegs t [secPg + SEC_PROTECT, secPg + 0x024] ∧
      ∀ p, p < 32 → bitOf (t.rd (secPg + SEC_PROTECT)) p =
        (bitOf (s.rd (secPg + SEC_PROTECT)) p || (!s.sec.vendor && bitOf v.toNat p && (s.partState p == 1 || s.partState p == 2)))) ∧
    (∃ t : State, exec (.keyLockSet 0 v) s = .next t ∧ s.sameRegs t [secPg + SEC_KLOCK, secPg + 0x024] ∧
      ∀ p, p < 32 → bitOf (t.rd (secPg + SEC_KLOCK)) p = (bitOf (s.rd (secPg + SEC_KLOCK)) p || (bitOf v.toNat p && bitOf (s.rd (secPg + SEC_PROTECT)) p))) ∧
    (∀ i, i < 8 →
      let p := s.get secPg SEC_KFT_SEL_PARTITION
      let r := s.get secPg SEC_KFT_SEL_ROW
      let row := fun (u : State) => Tab.get (if r = 0 then 2 ^ 256 - 1 else 2 ^ r) u.sec.kft (p * 256 + r)
      let new := putBits (row s) (32 * i + 31) (32 * i) v.toNat
      (s.keyLocked p = false → ∃ t : State, exec (.kftWrite 0 i v) s = .next t ∧ row t = new ∧ s.sameRegs t [secPg + 0x024] ∧ s.sameBytes t) ∧
      (s.keyLocked p = true → new ≠ row s → exec (.kftWrite 0 i v) s = .next (s.bump (secPg + SEC_LOCK_VIOL) 1))) ∧
    (let w := written .sec SEC_UNLOCK_GO.off v
     let p := w % 32
     let t := s.set secPg SEC_UNLOCK_PARTITION p
     (s.on secPg SEC_UNLOCK_BUSY = true ∨ bitOf w 5 = false → exec (.keyUnlock 0 v) s = .next (t.bumpSeq secPg)) ∧
     (s.on secPg SEC_UNLOCK_BUSY = false → bitOf w 5 = true →
      (s.keyLocked p = false → exec (.keyUnlock 0 v) s = .next (t.bumpSeq secPg)) ∧
      (s.keyLocked p = true → s.attached p = [] → (∀ k, k ∈ s.partKeys p → s.keyState k = 0) → ∃ u : State, exec (.keyUnlock 0 v) s = .next u ∧
        u.keyLocked p = false ∧ u.on secPg SEC_UNLOCK_BUSY = false ∧ (∀ q, q < 32 → q ≠ p → u.keyLocked q = s.keyLocked q) ∧ s.sameBytes u))) ∧
    (let w := written .sec SEC_FW_CTL v
     (bitOf w 0 = true → ∃ t : State, exec (.commitSvn 0 v) s = .next t ∧ t.sec.svnFused = max s.sec.svnFused s.sec.svnRun ∧
      t.get attPg ATT_SVN_FUSED = t.sec.svnFused % 2 ^ 16))

/-- SPDM answers certificate slots 0 and 1 and the measurements without a change of state but the message; IDE_KM sets the keys of a stream, which is then secure, or stops it, and PCI_LINK_STAT counts the secure streams. An integrity failure of a secure stream takes it out of the secure state with security alarm cause 6 and moves locked interfaces bound to it to ERROR; of any other stream nothing changes. LOCK_INTERFACE takes an unlocked interface of a function attached to a key-locked partition with a secure stream to CONFIG_LOCKED, and else changes nothing; START_INTERFACE takes CONFIG_LOCKED to RUN and else changes nothing; STOP_INTERFACE leads to CONFIG_UNLOCKED. A function-level reset of a virtual function changes nothing; one of the physical function moves every locked interface to ERROR. -/
def Obligations.StreamsAndInterfaces : Prop :=
  ∀ (s : State),
    (∀ i, i < 16 →
      exec (.spdmMessage 0 i) s = .next (s.emit (.doe 0x100 0 ownChain)) ∧
      exec (.spdmMessage 1 i) s = .next (s.emit (.doe 0x101 0 s.akChain)) ∧
      exec (.spdmMessage 2 i) s = .next (s.emit (.doe 0x102 0 s.runDigests)) ∧
      (∀ c, c = 3 ∨ c = 4 → ∃ t : State, exec (.spdmMessage c i) s = .next t ∧ t.ideSecure i = (c == 3) ∧ (∀ j, j ≠ i → t.ideSecure j = s.ideSecure j) ∧
        t.get pciPg PCI_LINK_STAT_IDE_SECURE = ((List.range 16).filter t.ideSecure).length ∧ s.sameBytes t) ∧
      (s.ideSecure i = false → exec (.ideIntegrityFail i) s = .next s) ∧
      (s.ideSecure i = true → exec (.ideIntegrityFail i) s = .next
        (((List.range 256).filter (fun f => f != 0 && streamOf f == i)).foldl (fun u f => u.tdiError f 4) ((s.setIde i false).securityAlarm 6 none i)))) ∧
    (∀ f, 1 ≤ f → f < 256 →
      (∀ p, Tab.get none s.attach f = some p → s.tdi f = 0 → s.keyLocked p = true → s.ideSecure (streamOf f) = true →
        exec (.lockInterface f) s = .next (s.setTdi f 1)) ∧
      (s.tdi f ≠ 0 ∨ Tab.get none s.attach f = none ∨ s.ideSecure (streamOf f) = false ∨ (∃ p, Tab.get none s.attach f = some p ∧ s.keyLocked p = false) → exec (.lockInterface f) s = .next s) ∧
      (s.tdi f = 1 → exec (.startInterface f) s = .next (s.setTdi f 2)) ∧
      (s.tdi f ≠ 1 → exec (.startInterface f) s = .next s) ∧
      exec (.stopInterface f) s = .next (s.setTdi f 0) ∧
      exec (.functionLevelReset f) s = .next s ∧
      (∀ n, (s.setTdi f n).tdi f = n ∧ ∀ g, g ≠ f → (s.setTdi f n).tdi g = s.tdi g)) ∧
    exec (.functionLevelReset 0) s = .next (((List.range 256).drop 1).foldl (fun u f => u.tdiError f 3) s)

/-- While the attestation protocol is busy every request is answered with status 1. A report request of another version, with a nonce that is not 32 bytes, or for a partition number that is neither below 32 nor 0xFF is answered with 2; any other counts REPORT_CTR and is answered with 0, the report body, and a signature of 96 bytes that the spec leaves open. Selector 0 gives the identity's chain, 1 the attestation key's, any other 2. An owner's request with a slot beyond 255, a key that is not 97 or a signature that is not 96 bytes is answered with 2, one that is not in order with 3; one in order retires the slot with FORCE, raises security alarm cause 5 and is answered with 0. A vendor debug token that does not verify uses the nonce up and changes nothing else; one that verifies enters vendor debug: every slot but 0 is FREE, configuration and save keys are gone, SEC_PROTECT and SEC_KLOCK are 0; a module in vendor debug ignores tokens. -/
def Obligations.AttestationProtocol : Prop :=
  ∀ (s : State),
    (s.attBusy = true → (∀ (a b : Nat) (n : Bytes), exec (.attestReport a b n) s = .next (s.emit (.doe 1 1 []))) ∧ (∀ a, exec (.certChainGet a) s = .next (s.emit (.doe 2 1 []))) ∧
      ∀ (k e : Nat) (key sig : Bytes), exec (.ownerRetire k e key sig) s = .next (s.emit (.doe 3 1 []))) ∧
    (s.attBusy = false →
      (∀ (a p : Nat) (n : Bytes), a ≠ 1 ∨ n.length ≠ 32 ∨ (32 ≤ p ∧ p ≠ 0xFF) → exec (.attestReport a p n) s = .next (s.emit (.doe 1 2 []))) ∧
      (∀ (p : Nat) (n : Bytes), n.length = 32 → p < 32 ∨ p = 0xFF →
        let u := s.bump64 (attPg + ATT_CTR) 1
        ∃ sig : Bytes, sig.length = 96 ∧ exec (.attestReport 1 p n) s =
          .next (({ u with draws := s.draws + 1 }).emit (.doe 1 0 (({ u with draws := s.draws + 1 }).reportBody p n ++ sig)))) ∧
      exec (.certChainGet 0) s = .next (s.emit (.doe 2 0 ownChain)) ∧
      exec (.certChainGet 1) s = .next (s.emit (.doe 2 0 s.akChain)) ∧
      (∀ a, 2 ≤ a → exec (.certChainGet a) s = .next (s.emit (.doe 2 2 []))) ∧
      (∀ (k e : Nat) (key sig : Bytes),
        (256 ≤ k ∨ key.length ≠ 97 ∨ sig.length ≠ 96 → exec (.ownerRetire k e key sig) s = .next (s.emit (.doe 3 2 []))) ∧
        (k < 256 → key.length = 97 → sig.length = 96 →
          let good := s.keyState k = 1 ∧ s.rd (keyAt k + KEY_EPOCH) = e ∧ leBytes 48 (sha384 key) = s.ownerHash k ∧
            Config.ecdsaVerify key (retireMessage k e) sig = true
          ∃ t : State, exec (.ownerRetire k e key sig) s = .next t ∧ (¬ good → t = s.emit (.doe 3 3 [])) ∧
            (good → t = ((s.keyRetire k true).securityAlarm 5 (some k) 0).emit (.doe 3 0 []))))) ∧
    (∀ token : Bytes,
      let good := Config.ecdsaVerify Config.debugKey (leBytes 48 identity ++ Config.nonce s.sec.nonce) token
      (s.sec.vendor = true → exec (.vendorDebugEnter token) s = .next s) ∧
      (s.sec.vendor = false → ∃ t : State, exec (.vendorDebugEnter token) s = .next t ∧ t.mem = s.mem ∧ t.spad = s.spad ∧ t.share = s.share ∧
        (good = false → t = { s with sec := { s.sec with nonce := s.sec.nonce + 1 } }) ∧
        (good = true → t.sec.vendor = true ∧ t.sec.cfgKey = [] ∧ t.sec.saveKey = [] ∧ (∀ k, 1 ≤ k → k < 256 → t.keyState k = 0) ∧
          t.rd (secPg + SEC_PROTECT) = 0 ∧ t.rd (secPg + SEC_KLOCK) = 0)))

/-- HANG_DETECT of an engine whose beacon has stood still for fewer epochs than the threshold (THRESH, at least 4) changes nothing; otherwise the engine is hung. ROUND_OVERRUN of a slice that runs no command, or whose round is within ROUND_MULT (at least 2) times its cycles, changes nothing; otherwise the slice is hung. A hung engine whose level already runs, or a higher one, changes nothing, except that a shared store that hangs while a slice of its core is reset widens that reset to its core; a slice not tasted within 256 epochs calls for the context level, one tasted lately for a partition reset, another engine for an engine reset, lately tasted or the queue engine for a device-level reset. SPAN_WAIT_EXPIRE of a span command that has waited for SPAN_WAIT (at least 64) whole epochs breaks it with HANG (kind 5), naming a device whose token is missing, and before that changes nothing. At its deadline a command that is not at a boundary is counted in PART_OVR_CNT and, in hardware mode of recovery, breaks with its slices reset after their crumbs. WATCHDOG_EXPIRE below level 5 raises alarm bit 13 and starts a device-level reset without approval. -/
def Obligations.HangsAndDeadlines : Prop :=
  ∀ (s : State),
    (∀ kind i, kind ≤ 3 → i < engineCount kind →
      let stale := (Tab.get {} s.beacons (scopeKey kind i)).stale
      let lately := s.tastedLately kind i
      let level := if kind = 0 then (if lately then 4 else 1) else if kind = 3 ∨ lately = true then 5 else 2
      let u := { s with beacons := Tab.put {} (scopeKey kind i) {} s.beacons }
      let union := kind = 1 ∧ level = 2 ∧ s.levelNow = 2 ∧ s.get rcvPg GLB_RCV_STAT_ENGINE_KIND = 0 ∧ s.get rcvPg GLB_RCV_STAT_INDEX / 4 = i
      (stale < max 4 (s.get rcvPg GLB_HANG_CTL_THRESH) → exec (.hangDetect kind i) s = .next s) ∧
      (max 4 (s.get rcvPg GLB_HANG_CTL_THRESH) ≤ stale →
        (level ≤ s.levelNow → ¬ union → exec (.hangDetect kind i) s = .next s) ∧
        (union → exec (.hangDetect kind i) s = .next (s.unionLevel i)) ∧
        (s.levelNow < level → kind = 0 → lately = false → exec (.hangDetect kind i) s = .next (u.contextLevel i)) ∧
        (s.levelNow < level → (kind ≠ 0 ∨ lately = true) → exec (.hangDetect kind i) s =
          .next (u.startLevel level kind i (if kind = 0 then (s.sliceOwner i).getD 0 else 0) codeHang true)))) ∧
    (∀ n, n < 32 →
      (s.sliceCmd n = none → exec (.roundOverrun n) s = .next s) ∧
      (∀ c, s.sliceCmd n = some c →
        let bound := max 2 (s.get rcvPg GLB_HANG_CTL_ROUND_MULT) * (s.phaseOf c).cycles
        ((s.atSlice n).cycles ≤ bound → exec (.roundOverrun n) s = .next s) ∧
        (bound < (s.atSlice n).cycles → exec (.roundOverrun n) s = .next (s.hung 0 n)))) ∧
    (∀ q seq c slot, q < 4096 → s.cmd? q seq = some c → dSlot c.desc = some slot → c.started = true → c.work = false → dOp c.desc = 1 →
      c.spr.waiting = true →
      let limit := ((c.spr.waitFrom + 41666) / 41667 + max 64 (s.get rcvPg GLB_HANG_CTL_SPAN_WAIT)) * 41667
      (s.mclk < limit → exec (.spanWaitExpire q seq) s = .next s) ∧ (limit ≤ s.mclk → exec (.spanWaitExpire q seq) s =
        .next (((s.flushCmd q seq).breakCmd q seq codeHang 5 (s.missingDev c slot % 65536) 0 (s.missingDev c slot)).tearAdvance c.ctx))) ∧
    (∀ q seq c, q < 4096 → s.cmd? q seq = some c → c.work = false → c.started = true → c.boundary = true →
      ¬ (s.atBoundary c = true ∧ s.noBoundary c = false) → s.levelNow < 2 →
      let l := s.cmdSlices q seq
      let u := s.bump (partPg c.part + PART_OVR_CNT) 1
      (u.hostMode 3 = false → exec (.npDeadlineExpire q seq) s = .next ((u.takeCrumbs 2 codePreemptOverrun 0 (l.headD 0) l).overrun c l)) ∧
      (u.hostMode 3 = true → exec (.npDeadlineExpire q seq) s =
        .next (({ u with rcv := { u.rcv with late := some (q, seq) } }).startLevel 2 0 (l.headD 0) c.part codePreemptOverrun true))) ∧
    (∀ k, k < 4 →
      (5 ≤ s.levelNow → exec (.watchdogExpire k) s = .next s) ∧
      (s.levelNow < 5 → ∃ u : State, exec (.watchdogExpire k) s = .next u ∧ u.levelNow = 5 ∧ u.rcv.approved = true ∧
        u.on rcvPg GLB_RCV_STAT_WAIT_APPROVAL = false ∧ (∀ n, n < 32 → (u.atSlice n).stopped = true) ∧ u.mgmt.alarm = (s.mgmt.alarm ||| 2 ^ 13)))

/-- With no level in progress, in hardware mode of recovery, ENGINE_RESET starts level 2 for its engine, takes the crumbs of its slices and runs steps 2 to 5; in host-assisted mode it is proposed. PARTITION_RESET of an ACTIVE or DISSOLVING partition does the same at level 4 with the partition's slices; of another partition, or at level 5 and above, it changes nothing. DEVICE_LEVEL_RESET of a READY module with fewer than two resets in the last 600 s brings every unit down and up again, and with two it becomes a power cycle with cause 2; a module that is not READY is left as it is. A power cycle request leaves the module not READY at level 6 with DEV_CYCLE_REQ_N low and the cause recorded, except that of a dead Skeldor. A tasting turn (level 3) whose command is done passes to the next suspect; one whose command still runs is held back after 256 epochs and its context goes behind, is guilty when an engine of the scope has stood still for TASTE_THRESH (at least 1) epochs, and goes on otherwise. -/
def Obligations.LevelsOfRecovery : Prop :=
  ∀ (s : State),
    (s.levelNow = 0 →
      (∀ kind i, kind ≤ 2 → i < engineCount kind →
        let part := if kind = 0 then (s.sliceOwner i).getD 0 else 0
        (s.hostMode 3 = false → exec (.engineReset kind i) s =
          .next (((s.startLevel 2 kind i part codeHang false).takeCrumbs 2 codeHang kind i (scopeSlices kind i)).engineRun kind i)) ∧
        (s.hostMode 3 = true → exec (.engineReset kind i) s = .next (s.startLevel 2 kind i part codeHang true))) ∧
      (∀ p, p < 32 →
        (s.partState p < 2 → exec (.partitionReset p) s = .next s) ∧
        (2 ≤ s.partState p → s.hostMode 3 = false → s.rcv.scope = none →
          let u := s.startLevel 4 4 0 p s.rcv.cause false
          exec (.partitionReset p) s = .next ((u.takeCrumbs 4 s.rcv.cause 4 0 (u.partSlices p)).partitionRun p 4 0)))) ∧
    (∀ p, p < 32 → 5 ≤ s.levelNow → exec (.partitionReset p) s = .next s) ∧
    (∀ (cause : Nat) (train : TrainIn), 1 ≤ cause → cause ≤ 4 →
      (s.ready = false → exec (.deviceLevelReset cause train) s = .next s) ∧
      (s.ready = true → s.levelNow ≠ 6 → (cause ≠ 1 ∨ s.hostMode 3 = false ∨ s.rcv.approved = true) →
        (s.lateResets.length < 2 → exec (.deviceLevelReset cause train) s = .next ((s.deviceDown cause true).bringUp train)) ∧
        (2 ≤ s.lateResets.length → exec (.deviceLevelReset cause train) s = .next (s.powerCycle 2))) ∧
      (∃ t : State, exec (.powerCycleRequest cause) s = .next t ∧ t.ready = false ∧ t.pins.cycleN = false ∧ t.levelNow = 6 ∧ t.mem = s.mem ∧ t.mclk = s.mclk ∧
        (¬ (cause = 3 ∧ 64 ≤ s.mgmt.wdog) → t.flash.cause = cause ∧ t.get mgmtPg MGMT_PHASE_PHASE = 8))) ∧
    (∀ x rest q seq kind i c, s.rcv.suspects = x :: rest → s.rcv.turn = some (q, seq) → s.rcv.scope = some (kind, i) → s.levelNow = 3 → s.cmd? q seq = some c →
      (c.work = true → exec (.tastingTurn 0) s = .next s.turnOver ∧ exec (.tastingTurn 3) s = .next s.turnOver ∧ exec (.tastingTurn 1) s = .next s ∧
        exec (.tastingTurn 2) s = .next s) ∧
      (c.work = false → exec (.tastingTurn 0) s = .next s ∧ exec (.tastingTurn 3) s = .next s ∧
        (s.tasteStale kind i = false → exec (.tastingTurn 2) s = .next s) ∧ (s.tasteStale kind i = true → exec (.tastingTurn 2) s = .next (s.guilty x q seq kind i)) ∧
        (rest = [] → exec (.tastingTurn 1) s = .next s.turnOver) ∧
        (rest ≠ [] → exec (.tastingTurn 1) s = .next (((s.holdCmd q seq).forgetReqs q seq).turnOver))))

/-- The physical function owns the recovery page; of GLB_RCV_APPROVE LEVEL and PARTITION (bits 10 to 3) are stored first. APPROVE with nothing waiting does no more; with a level waiting it runs that level, or the higher one of 4 to 6 that LEVEL holds. HOLD sets HELD while a level waits, and else nothing. REQUEST with LEVEL 4, 5 or 6 is collected for the next epoch boundary with LEVEL and PARTITION; with any other it is ignored. GO of GLB_RETIRE_REQ stores TYPE and INDEX, sets BUSY and is collected; while BUSY only the fields are stored. CLEAR of GLB_CRUMB_CTL stores SIZE and returns WRITTEN and FULL to 0. Nothing else changes but BLK_SEQ. -/
def Obligations.ApprovalsAndRequests : Prop :=
  ∀ (s : State) (v : Word), s.holds 0 .rcv 0 →
    let done := fun (u : State) => Host.Outcome.next (u.bumpSeq rcvPg)
    (let w := written .rcv GLB_RCV_APPROVE v
     let t := s.wr (rcvPg + GLB_RCV_APPROVE) (w &&& maskOf 10 3)
     let was := s.levelNow
     let want := t.get rcvPg GLB_RCV_APPROVE_LEVEL
     let part := if was = 4 ∨ s.get rcvPg GLB_RCV_STAT_ENGINE_KIND = 0 then s.get rcvPg GLB_RCV_STAT_PARTITION else t.get rcvPg GLB_RCV_APPROVE_PARTITION
     (bitOf w 0 = true → bitOf w 1 = false → bitOf w 2 = false →
      (s.on rcvPg GLB_RCV_STAT_WAIT_APPROVAL = false → exec (.recoveryApprove 0 v) s = done t) ∧
      (s.on rcvPg GLB_RCV_STAT_WAIT_APPROVAL = true → exec (.recoveryApprove 0 v) s =
        done (t.runLevel (if was < want ∧ 4 ≤ want ∧ want ≤ 6 then want else was) part))) ∧
     (bitOf w 0 = false → bitOf w 1 = true → bitOf w 2 = false →
      (s.on rcvPg GLB_RCV_STAT_WAIT_APPROVAL = false → exec (.recoveryHold 0 v) s = done t) ∧
      (s.on rcvPg GLB_RCV_STAT_WAIT_APPROVAL = true → exec (.recoveryHold 0 v) s = done (t.set rcvPg GLB_RCV_STAT_HELD 1))) ∧
     (bitOf w 0 = false → bitOf w 1 = false → bitOf w 2 = true →
      (4 ≤ want → want ≤ 6 → exec (.recoveryRequest 0 v) s = done { t with mgmt := { s.mgmt with
        collected := s.mgmt.collected ++ [{ src := 1, kind := 3, a := want, b := t.get rcvPg GLB_RCV_APPROVE_PARTITION }] } }) ∧
      (want < 4 ∨ 6 < want → exec (.recoveryRequest 0 v) s = done t))) ∧
    (let w := written .rcv GLB_RETIRE_REQ_GO.off v
     let t := (s.set rcvPg GLB_RETIRE_REQ_TYPE w).set rcvPg GLB_RETIRE_REQ_INDEX (w / 256)
     bitOf w 16 = true →
      (s.on rcvPg GLB_RETIRE_REQ_BUSY = true → exec (.retireRequest 0 v) s = done t) ∧
      (s.on rcvPg GLB_RETIRE_REQ_BUSY = false → ∃ u : State, exec (.retireRequest 0 v) s = done u ∧ u.on rcvPg GLB_RETIRE_REQ_BUSY = true ∧
        u.mgmt.collected = s.mgmt.collected ++ [{ src := 1, kind := 1, a := t.get rcvPg GLB_RETIRE_REQ_TYPE, b := t.get rcvPg GLB_RETIRE_REQ_INDEX }] ∧
        t.sameRegs u [rcvPg + GLB_RETIRE_REQ_BUSY.off])) ∧
    (let w := written .rcv GLB_CRUMB_CTL v
     bitOf w 16 = true → exec (.crumbClear 0 v) s =
      done (((s.set rcvPg GLB_CRUMB_CTL_SIZE w).set rcvPg GLB_CRUMB_STAT_WRITTEN 0).set rcvPg GLB_CRUMB_STAT_FULL 0))

/-- A unit that is RETIRED stays as it is. CHANNEL_GROUP_RETIRE makes the entries of both channels of the group RETIRED and takes them out of service; PORT_RETIRE takes the port down and makes its entry RETIRED. SLICE_RETIRE of a slice that no binding operation touches and that lies in no tasting scope marks it as leaving, CAPT_GEN being odd from there; one that runs no command goes at once, and one whose retirement was ordered before too; a command that runs there and does not stand at a boundary is asked for one. Below its count a threshold row does nothing: 2 configuration faults, 4 distinct storage words, 3 engine resets, 16 distinct lines, 1,000 seam words, 3 hold-downs. At it a slice retires with reason 1, 2 or 3, a lane with 256 corrected symbols starts its sweep, a group retires with 2 or 6, a seam channel is recorded with reason 7 for the next device-level reset, and a port retires with reason 8. -/
def Obligations.UnitsRetire : Prop :=
  ∀ (s : State),
    (∀ n r, n < 32 →
      (s.capState 1 n = 2 → exec (.sliceRetire n r) s = .next s) ∧
      (s.capState 1 n ≠ 2 → s.rcv.scope = none → (∀ p, p < 32 → s.rebindTouches p [n] [] [] = false) →
        let u := (s.capOpen n).markLeaving n
        (n ∉ s.rcv.retiring → u.captGen % 2 = 1) ∧ (s.sliceCmd n = none ∨ n ∈ s.rcv.retiring → exec (.sliceRetire n r) s = .next (u.sliceGone n r)) ∧
        (∀ c, s.sliceCmd n = some c → c.work = false → n ∉ s.rcv.retiring → (s.atSlice n).stopped = false → (s.atBoundary c = false ∨ s.noBoundary c = true) →
          exec (.sliceRetire n r) s = .next (u.askBoundary c.q c.seq)))) ∧
    (∀ g r, g < 128 →
      (s.capState 2 (2 * g) = 2 → exec (.channelGroupRetire g r) s = .next s) ∧
      (s.capState 2 (2 * g) ≠ 2 → ∃ t : State, exec (.channelGroupRetire g r) s = .next t ∧ t.capState 2 (2 * g) = 2 ∧ t.capState 2 (2 * g + 1) = 2 ∧
        t.get (memcPg (2 * g)) MEMC_LANE_STAT_IN_SERVICE = 0 ∧ t.get (memcPg (2 * g + 1)) MEMC_LANE_STAT_IN_SERVICE = 0)) ∧
    (∀ p r, p < 36 →
      (s.capState 3 p = 2 → exec (.portRetire p r) s = .next s) ∧
      (s.capState 3 p ≠ 2 → exec (.portRetire p r) s = .next (s.retirePort p r)) ∧ (s.retirePort p r).capState 3 p = 2) ∧
    (let n := fun (unit i : Nat) => (s.faultsOf unit i).length
     let kinds := fun (unit i : Nat) => (((s.faultsOf unit i).map (·.2)).eraseDups).length
     (∀ i, i < 32 → s.capState 1 i ≠ 2 →
      exec (.retireThreshold 0 i) s = .next (if 2 ≤ n 0 i then s.retireSlice i 1 else s) ∧
      exec (.retireThreshold 1 i) s = .next (if 4 ≤ kinds 1 i then s.retireSlice i 2 else s) ∧
      exec (.retireThreshold 2 i) s = .next (if 3 ≤ n 2 i then s.retireSlice i 3 else s)) ∧
     (∀ i, i < 256 →
      (s.weakLane i = none → exec (.retireThreshold 5 i) s = .next s) ∧
      (∀ l, s.weakLane i = some l → exec (.retireThreshold 5 i) s = .next ((s.sweepStart i l).laneStarted i l) ∧
        256 ≤ ((s.faultsOf 5 i).filter (fun e => e.2 == l)).length)) ∧
     (∀ g, g < 128 → s.capState 2 (2 * g) ≠ 2 →
      exec (.retireThreshold 7 g) s = .next (s.retireGroup g 6) ∧
      exec (.retireThreshold 8 g) s = .next (if 16 ≤ kinds 8 g then s.retireGroup g 2 else s)) ∧
     (∀ i, i < 192 → exec (.retireThreshold 10 i) s = .next (if 1000 ≤ n 10 i then s.recordRetired 4 i 7 else s)) ∧
     (∀ p, p < 36 → s.capState 3 p ≠ 2 → exec (.retireThreshold 11 p) s = .next (if 3 ≤ n 11 p then s.retirePort p 8 else s)))

/-- The physical function owns the debug page. TEST is stored; cleared, every halted island goes on. HALT (not RESUME) of the island named: outside test mode RESULT 2, an island that cannot halt 3, one that holds protected state 1 with the block counted, any other is halted with RESULT 0; RESUME makes it go on. READ (not WRITE) of a target that does not exist sets RANGE; of one closed by protection sets BLOCKED, reads 0 and counts; of any other it gives the word, with the three flags 0. WRITE answers a missing or a closed target likewise, sets NOT_HALTED on an island that runs, and on a halted one stores DBG_ACC_DATA in the word. -/
def Obligations.DebugPage : Prop :=
  ∀ (s : State) (v : Word), s.holds 0 .dbg 0 →
    let done := fun (u : State) => Host.Outcome.next (u.bumpSeq dbgPg)
    (let on := bitOf (written .dbg DBG_TEST_CTL v) 0
     let t := if on then s else s.halted.foldl (fun u i => u.restart i) s
     exec (.testModeWrite 0 v) s = done (((t.mark dbgPg DBG_TEST_CTL_TEST on).mark dbgPg DBG_HALT_HALTED (t.halted.contains (t.get dbgPg DBG_HALT_ISLAND))).reglMode)) ∧
    (let w := written .dbg DBG_HALT v
     let i := w % 256
     let t := s.set dbgPg DBG_HALT_ISLAND i
     (bitOf w 8 = true → bitOf w 9 = false →
      (s.on dbgPg DBG_TEST_CTL_TEST = false → exec (.islandHalt 0 v) s = done (t.haltResult i 2)) ∧
      (s.on dbgPg DBG_TEST_CTL_TEST = true →
        (152 ≤ i → exec (.islandHalt 0 v) s = done (t.haltResult i 3)) ∧
        (i < 152 → s.islandClosed i = true → exec (.islandHalt 0 v) s = done (t.haltResult i 1).dbgBlock) ∧
        (i < 152 → s.islandClosed i = false → ∃ u : State, exec (.islandHalt 0 v) s = done u ∧ i ∈ u.halted ∧ (∀ j, j ≠ i → (j ∈ u.halted ↔ j ∈ s.halted)) ∧
          u.get dbgPg DBG_HALT_RESULT = 0 ∧ u.on dbgPg DBG_HALT_HALTED = true ∧ s.sameBytes u))) ∧
     (bitOf w 8 = false → bitOf w 9 = true → exec (.islandResume 0 v) s = done ((t.restart i).haltResult i 0) ∧ i ∉ (t.restart i).halted)) ∧
    (let i := s.get dbgPg DBG_ACC_TGT_ISLAND
     let u := s.get dbgPg DBG_ACC_TGT_UNIT
     let sp := s.get dbgPg DBG_ACC_TGT_SPACE
     let n := s.get dbgPg DBG_ACC_WORD_WORD
     let w := written .dbg DBG_ACC_CTL_READ.off v
     let t := ((s.set dbgPg DBG_ACC_CTL_BLOCKED 0).set dbgPg DBG_ACC_CTL_RANGE 0).set dbgPg DBG_ACC_CTL_NOT_HALTED 0
     let range := dbgRange i u sp n
     let closed := s.dbgClosed i u sp n
     (bitOf w 0 = true → bitOf w 1 = false →
      (range = false → exec (.debugRead 0 v) s = done (t.set dbgPg DBG_ACC_CTL_RANGE 1)) ∧
      (range = true → closed = true → exec (.debugRead 0 v) s = done (((t.set dbgPg DBG_ACC_CTL_BLOCKED 1).wr (dbgPg + DBG_ACC_DATA) 0).dbgBlock)) ∧
      (range = true → closed = false → exec (.debugRead 0 v) s = done (t.wr (dbgPg + DBG_ACC_DATA) (s.dbgWord i u sp n)))) ∧
     (bitOf w 0 = false → bitOf w 1 = true →
      (range = false → exec (.debugWrite 0 v) s = done (t.set dbgPg DBG_ACC_CTL_RANGE 1)) ∧
      (range = true → closed = true → exec (.debugWrite 0 v) s = done ((t.set dbgPg DBG_ACC_CTL_BLOCKED 1).dbgBlock)) ∧
      (range = true → closed = false →
        (i ∉ s.halted → exec (.debugWrite 0 v) s = done (t.set dbgPg DBG_ACC_CTL_NOT_HALTED 1)) ∧
        (i ∈ s.halted → exec (.debugWrite 0 v) s = done (t.dbgPut i u sp n (s.rd (dbgPg + DBG_ACC_DATA)))))))

/-- A BAR2 access within its window of 1 to 4,096 bytes. Of a module that is not READY, and of lines outside every region or on a retired channel, a read is an Unsupported Request and counted, a write dropped and counted. One that touches protected state is counted in SEC_BAR2_BLOCK, the read as an Unsupported Request besides; while the region is being rebalanced at its switch it is refused and counted in PART_REBIND_IGN. Any other read answers the bytes of its lines, or Completer Abort when one fails, and any other write of a line writes it, whole or in part, under key index 0. The debug port of a powered module out of reset opens its session, shows it in PORT_OPEN until the access that closes it; a target that does not exist, is closed by protection, or is written while it runs answers an error, any other read its word and a write of a halted island its effect; SPACE 6 is device memory. -/
def Obligations.WindowsIntoTheModule : Prop :=
  ∀ (s : State),
    (∀ off len, 0 < len → len ≤ 4096 → off + len ≤ 2 ^ 36 →
      let l := linePieces (len + 1) (s.bar2Dpa off) len
      let ur := fun (u : State) => u.bump (pciPg + PCI_UR_CNT) 1
      let shut := ∃ e, e ∈ l ∧ s.dpaProtected e.1 = true
      let moving := (l.filterMap (fun e => s.rebalancing e.1)).head?
      let bad := ∃ e, e ∈ l ∧ s.bar2Bad e.1 = true
      (s.ready = false → exec (.bar2Read off len) s = .next ((ur s).emit (.unsupported 0)) ∧
        ∀ data : Bytes, data.length = len → exec (.bar2Write off data) s = .next (ur s)) ∧
      (s.ready = true → shut → exec (.bar2Read off len) s = .next ((ur (s.bump (secPg + SEC_BAR2_BLOCK) 1)).emit (.unsupported 0)) ∧
        ∀ data : Bytes, data.length = len → exec (.bar2Write off data) s = .next (s.bump (secPg + SEC_BAR2_BLOCK) 1)) ∧
      (∀ p, s.ready = true → ¬ shut → moving = some p → exec (.bar2Read off len) s =
          .next ((ur (s.bump (partPg p + PART_REBIND_IGN) 1)).emit (.unsupported 0)) ∧
        ∀ data : Bytes, data.length = len → exec (.bar2Write off data) s = .next (ur (s.bump (partPg p + PART_REBIND_IGN) 1))) ∧
      (s.ready = true → ¬ shut → moving = none → bad → exec (.bar2Read off len) s = .next ((ur s).emit (.unsupported 0)) ∧
        ∀ data : Bytes, data.length = len → exec (.bar2Write off data) s = .next (ur s)) ∧
      (s.ready = true → ¬ shut → moving = none → ¬ bad →
        (∀ u b, s.bar2Lines l = (u, some b) → exec (.bar2Read off len) s = .next (u.emit (.readData 0 b))) ∧
        (∀ u, s.bar2Lines l = (u, none) → exec (.bar2Read off len) s = .next (u.emit (.completerAbort 0))) ∧
        ∀ data : Bytes, data.length = len →
          (∀ e pl, l = [e] → s.place e.1 = some pl → e.2 = 256 → exec (.bar2Write off data) s =
            .next ((s.beat 2 (pl.chan / 16)).lineWrite pl 0 e.1 (sliceBytes data (e.1 - s.bar2Dpa off) 256))) ∧
          (∀ e pl, l = [e] → s.place e.1 = some pl → e.2 < 256 → ∃ part, exec (.bar2Write off data) s =
            .next (((s.beat 2 (pl.chan / 16)).lineModify pl 0 part e.1 (fun d => (patchBytes d pl.byte (sliceBytes data (e.1 - s.bar2Dpa off) e.2), []))).1) ∧
            (∀ r, s.regionOf e.1 = some r → part = s.regPart r)))) ∧
    (∀ (write : Bool) (i u sp n : Nat) (v : Word) (close : Bool),
      let o := { s.set dbgPg DBG_TEST_CTL_PORT_OPEN 1 with sec := { s.sec with jtag := true } }
      let fin := fun (x : State) => Host.Outcome.next (if close then { x.set dbgPg DBG_TEST_CTL_PORT_OPEN 0 with sec := { x.sec with jtag := false } } else x)
      (s.pins.pgood = false ∨ s.pins.oscStopped = true ∨ s.pins.resetN = false → exec (.debugAccessPort write i u sp n v close) s = .next s) ∧
      (s.pins.pgood = true → s.pins.oscStopped = false → s.pins.resetN = true →
        (sp = 6 → exec (.debugAccessPort write i u sp n v close) s = fin (o.portMem write n v.toNat)) ∧
        (sp ≠ 6 → dbgRange i u sp n = false → exec (.debugAccessPort write i u sp n v close) s = fin (o.emit (.jtag true 0))) ∧
        (sp ≠ 6 → dbgRange i u sp n = true → s.dbgClosed i u sp n = true → exec (.debugAccessPort write i u sp n v close) s = fin (o.dbgBlock.emit (.jtag true 0))) ∧
        (sp ≠ 6 → dbgRange i u sp n = true → s.dbgClosed i u sp n = false →
          (write = false → exec (.debugAccessPort write i u sp n v close) s = fin (o.emit (.jtag false (BitVec.ofNat 32 (s.dbgWord i u sp n))))) ∧
          (write = true → i ∈ s.halted → exec (.debugAccessPort write i u sp n v close) s = fin ((o.dbgPut i u sp n v.toNat).emit (.jtag false 0))) ∧
          (write = true → i ∉ s.halted → exec (.debugAccessPort write i u sp n v close) s = fin (o.emit (.jtag true 0))))))

/-- Between islands of one half a handshake word in sequence enters the channel's FIFO, which keeps the last 16, and the next number is expected; a word ahead of the sequence is dropped, resynchronises and is a handshake error, a repeat is dropped and is one too; at a stopped island with a full FIFO nothing arrives, and between the halves there is no channel. A seam word comes by the channel of its request's line, one of those in service; with none in service nothing arrives. With two bad wires or more it is dropped and counted; in sequence with no bad wire it enters the channel's FIFO of 48, with one it is corrected and counted besides; a gap or a repeat is a handshake error. A lost word breaks the command that issued it with MEM_UNCORRECTABLE at the receiving half's island, and a repeat never moves the number expected. (What tells a gap from a repeat, and the number expected after a gap, is the model's choice: log 40. Three bad wires or more: log 41.) -/
def Obligations.WordsOnTheFabric : Prop :=
  ∀ (s : State),
    (∀ (src dst : Nat) (seq : BitVec 16) (word : BitVec 272), src < 193 → dst < 193 →
      let k := src * 256 + dst
      let fifo := Tab.get [] s.hsFifo k
      let ahead := seqAhead seq (Tab.get 0 s.hsSeq k)
      let next := { s with hsSeq := Tab.put 0 k ((seq.toNat + 1) % 2 ^ 16) s.hsSeq }
      let open_ := islandHalf src = islandHalf dst ∧ ¬ (dst ∈ s.halted ∧ 16 ≤ fifo.length)
      (¬ open_ → exec (.handshakeWordReceive src dst seq word) s = .next s) ∧
      (open_ → ahead = 0 → fifo.length < 16 → exec (.handshakeWordReceive src dst seq word) s =
        .next { next with hsFifo := Tab.put [] k (fifo ++ [word]) s.hsFifo }) ∧
      (open_ → ahead = 0 → 16 ≤ fifo.length → exec (.handshakeWordReceive src dst seq word) s =
        .next { next with hsFifo := Tab.put [] k (fifo.drop 1 ++ [word]) s.hsFifo }) ∧
      (open_ → ahead ≠ 0 → ahead < 2 ^ 15 → exec (.handshakeWordReceive src dst seq word) s = .next (next.handshakeError src dst)) ∧
      (open_ → 2 ^ 15 ≤ ahead → exec (.handshakeWordReceive src dst seq word) s = .next (s.handshakeError src dst)) ∧
      (ahead = 0 ↔ seq.toNat = Tab.get 0 s.hsSeq k % 2 ^ 16)) ∧
    (∀ (dir line : Nat) (seq : BitVec 16) (word : BitVec 256) (bad q n : Nat), dir < 2 →
      (∀ chan, s.seamChan line = some chan → chan < 192 ∧ s.capState 4 chan ≠ 2) ∧
      (s.seamChan line = none ↔ ∀ chan, chan < 192 → s.capState 4 chan = 2) ∧
      (s.seamChan line = none → exec (.seamWordReceive dir line seq word bad q n) s = .next s) ∧
      (∀ chan, s.seamChan line = some chan →
        let k := dir * 192 + chan
        let isl := if dir = 0 then 189 else 188
        let fifo := Tab.get [] s.seamFifo k
        let err := Tab.get (0, 0) s.seamErr k
        let ahead := seqAhead seq (Tab.get 0 s.seamSeq k)
        let next := { s with seamSeq := Tab.put 0 k ((seq.toNat + 1) % 2 ^ 16) s.seamSeq }
        let lost := fun (u : State) => (u.breakCmd q n codeMemUncorrectable 0 isl).flushCmd q n
        (2 ≤ bad → ahead < 2 ^ 15 → exec (.seamWordReceive dir line seq word bad q n) s =
          .next (lost { next with seamErr := Tab.put (0, 0) k (err.1, err.2 + 1) s.seamErr })) ∧
        (2 ≤ bad → 2 ^ 15 ≤ ahead → exec (.seamWordReceive dir line seq word bad q n) s =
          .next (lost { s with seamErr := Tab.put (0, 0) k (err.1, err.2 + 1) s.seamErr })) ∧
        (bad = 0 → ahead = 0 → fifo.length < 48 → exec (.seamWordReceive dir line seq word bad q n) s =
          .next { next with seamFifo := Tab.put [] k (fifo ++ [word]) s.seamFifo }) ∧
        (bad = 1 → ahead = 0 → ∃ u : State, exec (.seamWordReceive dir line seq word bad q n) s = .next u ∧ Tab.get (0, 0) u.seamErr k = (err.1 + 1, err.2) ∧
          Tab.get 0 u.seamSeq k = (seq.toNat + 1) % 2 ^ 16 ∧ (Tab.get [] u.seamFifo k).getLast? = some word ∧ u.regs = s.regs ∧ s.sameBytes u) ∧
        (bad = 0 → ahead ≠ 0 → ahead < 2 ^ 15 → exec (.seamWordReceive dir line seq word bad q n) s = .next (lost (next.countHs isl))) ∧
        (bad = 0 → 2 ^ 15 ≤ ahead → exec (.seamWordReceive dir line seq word bad q n) s = .next (lost (s.countHs isl)))))

/-- Of a running cell that has reached control slot i with the operation of the command. JUMP goes to slot IMM[7:0]. BRANCH goes there when lane 0 of predicate register IMM[10:8] is 1, else to slot i + 1. REPEAT goes back to IMM[7:0] while a return is left and to i + 1 when none is, the count being read from SRC_A as the loop is entered. ROUND_END ends the cell's part and clears its repeat counts, and what the island and the slice do at a tile's end follows. Each clears the slots fired. A cell that does not run, or has reached no such slot, stays as it is. A mover instruction that is next for its unit, with its operands there, runs: where DST names no channel and the queues have places, one request of its command goes to the end of one of the slice's four movers, which shows busy; where DST names an output channel to the routers with a place, one control token of the instruction's word and 24 bytes of SRC_A joins that channel. Its slot counts as fired. -/
def Obligations.ControlInstructionsOfACell : Prop :=
  ∀ (s : State) (core cell : Nat), core < 8 → cell < 4096 →
    let k := cellKey core cell
    let c := s.atCell k
    let slice := cellSlice core cell
    (s.cellRuns core cell = false ∨ c.control = none → exec (.roundEnd core cell) s = .next s ∧ exec (.jump core cell) s = .next s ∧
      exec (.branch core cell) s = .next s ∧ exec (.repeat_ core cell) s = .next s) ∧
    (∀ i, c.control = some i →
      ((c.word i).op ≠ 1 → exec (.roundEnd core cell) s = .next s) ∧ ((c.word i).op ≠ 2 → exec (.jump core cell) s = .next s) ∧
      ((c.word i).op ≠ 3 → exec (.branch core cell) s = .next s) ∧ ((c.word i).op ≠ 4 → exec (.repeat_ core cell) s = .next s)) ∧
    (∀ i, s.cellRuns core cell = true → c.control = some i → (c.word i).op = 1 → exec (.roundEnd core cell) s =
      .next (((s.updCell k (fun c => { c with ended := true, reps := [], fired := [] })).islandEnd slice (cellIsland core cell)).tileEnd slice)) ∧
    (∀ i, s.cellRuns core cell = true → c.control = some i → (c.word i).op = 2 → exec (.jump core cell) s =
      .next (s.updCell k (fun c => { c with pc := (c.word i).imm % 256, fired := [] }))) ∧
    (∀ i, s.cellRuns core cell = true → c.control = some i → (c.word i).op = 3 →
      let taken := (Tab.get 0 c.preg ((c.word i).imm / 256 % 8)).toNat % 2 = 1
      (taken → exec (.branch core cell) s = .next (s.updCell k (fun c => { c with pc := (c.word i).imm % 256, fired := [] }))) ∧
      (¬ taken → exec (.branch core cell) s = .next (s.updCell k (fun c => { c with pc := i + 1, fired := [] })))) ∧
    (∀ i, s.cellRuns core cell = true → c.control = some i → (c.word i).op = 4 →
      let left := if Tab.get 0 c.reps i = 0 then c.count (c.word i).srcA else Tab.get 0 c.reps i - 1
      (left = 0 → exec (.repeat_ core cell) s = .next (s.updCell k (fun c => { c with pc := i + 1, reps := Tab.put 0 i 0 c.reps, fired := [] }))) ∧
      (left ≠ 0 → exec (.repeat_ core cell) s = .next (s.updCell k (fun c =>
        { c with pc := (c.word i).imm % 256, reps := Tab.put 0 i left c.reps, fired := [] })))) ∧
    (∀ slot cmd, s.sliceCmd slice = some cmd → s.cellRuns core cell = true → c.ready slot 2 = true → c.srcReady (c.word slot).srcA 1 = true →
      c.srcReady (c.word slot).srcB 1 = true →
      let frame := fun (u : State) => slot ∈ (u.atCell k).fired ∧ (u.atCell k).pc = c.pc ∧
        s.sameRegs u [shstPg core + SHST_MOVER_STAT_BUSY.off, pwrPg + PWR_FILL_CNT] ∧ s.sameBytes u
      (isChan (c.word slot).dst = false → (∀ m, m < 4 → (s.moverQueue core (slice % 4 * 4 + m)).length < 32) →
        ∃ u m r, exec (.moverRequest core cell slot) s = .next u ∧ m < 4 ∧ u.moverQueue core (slice % 4 * 4 + m) = s.moverQueue core (slice % 4 * 4 + m) ++ [r] ∧
          r.op < 6 ∧ r.q = cmd.q ∧ r.seq = cmd.seq ∧ r.ctx = cmd.ctx ∧ r.share = slice ∧ r.done = false ∧
          bitOf (u.get (shstPg core) SHST_MOVER_STAT_BUSY) (slice % 4 * 4 + m) = true ∧ frame u) ∧
      (∀ i, operandOf (c.word slot).dst = .chan i → (c.outQ i).length < 4 → (∀ j, j < 4 → c.wired (8 + j) 1 = false) →
        ∃ u : State, exec (.moverRequest core cell slot) s = .next u ∧ (∃ tok, (u.atCell k).outQ i = c.outQ i ++ [tok] ∧ tokCtrl tok = true) ∧
          (∀ m, m < 16 → u.moverQueue core m = s.moverQueue core m) ∧ frame u))

/-- A tensor instruction of a running cell, next for its unit with its operands there and room at its output, fires: its slot counts as fired. Where it is of a format pair with exact accumulation and its destination is long accumulator r, no byte of memory changes, and with dense operands accumulator r + i (mod 16) of the m by 4 small tile becomes its old value plus the exact dot product of row i / 4 of SRC_A and row i mod 4 of SRC_B under their scales, over the positions of the firing that the phase still has; accumulators outside the tile stay. A vector instruction fires likewise, and one into vector register r that rounds no accumulators and loads no addends gives the register the result of its operation on its operand bytes. An instruction that is not next, or whose operand or output is not ready, changes nothing. A token at a router port that only goes to the cell's own port joins the end of the local channel the route entry names, when the configuration opens that to the router and it has a place; a data token waits for a control token of the same port, and without a token nothing changes. -/
def Obligations.UnitsOfACellFire : Prop :=
  ∀ (s : State) (core cell : Nat), core < 8 → cell < 4096 →
    let k := cellKey core cell
    let c := s.atCell k
    let slice := cellSlice core cell
    (∀ (slot : Nat),
      let x := c.word slot
      let w := (Tab.get 0 c.prog slot).toNat
      let v := x.op / 16
      (∀ bad, s.cellRuns core cell = false ∨ c.ready slot 0 = false ∨ c.srcReady x.srcA 1 = false ∨ c.srcReady x.srcB 1 = false ∨
        c.dstReady x.dst (outToks (s.siteOut slice x.imm)) = false → exec (.tensorOp core cell slot bad bad bad bad) s = .next s) ∧
      (s.cellRuns core cell = true → c.ready slot 0 = true → c.srcReady x.srcA 1 = true → c.srcReady x.srcB 1 = true →
        c.dstReady x.dst (outToks (s.siteOut slice x.imm)) = true →
        ((pairOf (x.op % 16)).isSome = true → ∃ u : State, exec (.tensorOp core cell slot 0 0 0 0) s = .next u ∧ slot ∈ (u.atCell k).fired ∧ s.mem = u.mem) ∧
        (∀ r pr, operandOf x.dst = .lacc r → pairOf (x.op % 16) = some pr → x.op % 16 < 9 →
          ∃ u : State, exec (.tensorOp core cell slot 0 0 0 0) s = .next u ∧ slot ∈ (u.atCell k).fired ∧ s.sameBytes u ∧
            (Config.sparseSide v % 3 = 0 →
              let f := if Config.pairSwapped v = true then (pr.2, pr.1) else pr
              let m := (tensorShape (x.op % 16)).1
              let line := Memory.read s.spad (spadAt k (Config.sideLine w % 512)) 64
              let ba := s.readSrc k c x.srcA (if isChan x.srcA then 32 else 512)
              let bb := if Config.stationary v = true then c.stat else s.readSrc k c x.srcB (if isChan x.srcB then 32 else 512)
              let cb := isChan x.srcB && !Config.stationary v
              let d := fireDepth (x.op % 16) 0 (isChan x.srcA) cb
              let p := if d = 32 then 0 else Tab.get 0 c.steps r % 32
              let n := match s.depthOf slice with
                | some t => min d (t - Tab.get 0 c.steps r)
                | none => d
              (∀ i, i < 4 * m →
                Tab.get {} (u.atCell k).lacc ((r + i) % 16) = (dotExact f.1 f.2 (Tab.get {} c.lacc ((r + i) % 16)) [⟨
                  ((List.range d).map (fun j => f.1.element ba (if isChan x.srcA then i / 4 * d + j else i / 4 * 32 + p + j))).take n,
                  ((List.range d).map (fun j => f.2.element bb (if cb then i % 4 * d + j else i % 4 * 32 + p + j))).take n,
                  leAt line (i / 4) 1, leAt line (4 + i % 4) 1⟩]).1) ∧
              (∀ q, (∀ i, i < 4 * m → q ≠ (r + i) % 16) → Tab.get {} (u.atCell k).lacc q = Tab.get {} c.lacc q))))) ∧
    (∀ (slot : Nat),
      let x := c.word slot
      let code := Config.vectorCode x.op % 39
      let na := if isChan x.srcA then 32 else 64
      let nb := if isChan x.srcB then 32 else 64
      (∀ bad, s.cellRuns core cell = false ∨ c.ready slot 1 = false ∨ c.srcReady x.srcA (vectorToks x.op) = false ∨
        c.srcReady x.srcB (vectorToks x.op) = false ∨ c.dstReady x.dst (s.vectorRoom slice x) = false → exec (.vectorOp core cell slot bad) s = .next s) ∧
      (s.cellRuns core cell = true → c.ready slot 1 = true → c.srcReady x.srcA (vectorToks x.op) = true → c.srcReady x.srcB (vectorToks x.op) = true →
        c.dstReady x.dst (s.vectorRoom slice x) = true →
        ∃ u : State, exec (.vectorOp core cell slot 0) s = .next u ∧ slot ∈ (u.atCell k).fired ∧ s.mem = u.mem ∧
          (∀ r, operandOf x.dst = .vreg r → code ≤ 32 ∨ code = 38 →
            Tab.get 0 (u.atCell k).vreg r = BitVec.ofNat 512 (leAt (vectorResult code .fp32 .fp32
              (fun i => s.siteRounding slice x.imm (s.elemOf slice k i)) (s.readSrc k c x.srcA na) (s.readSrc k c x.srcB nb)).1 0 64) ∧
            (∀ q, q ≠ r → Tab.get 0 (u.atCell k).vreg q = Tab.get 0 c.vreg q) ∧ (u.atCell k).lacc = c.lacc ∧ (u.atCell k).preg = c.preg ∧
            s.sameRegs u [pwrPg + PWR_FILL_CNT] ∧ s.sameBytes u))) ∧
    (∀ port vc, port < 5 → vc < 2 →
      (c.portHead port vc = none → exec (.routerTokenForward core cell port vc) s = .next s) ∧
      (∀ t i, c.portHead port vc = some (t, i) →
        (vc = 0 → (c.portHead port 1).isSome = true → exec (.routerTokenForward core cell port vc) s = .next s) ∧
        (let e := (Tab.get 0 c.routes (tokRoute t)).toNat
         cellIsland core cell ∉ s.halted → (vc = 1 ∨ c.portHead port 1 = none) → onesBelow 5 (rOut e) = [4] →
          (c.wired (localChan e t) 0 = false ∨ 4 ≤ (c.inQ (localChan e t)).length → exec (.routerTokenForward core cell port vc) s = .next s) ∧
          (c.wired (localChan e t) 0 = true → (c.inQ (localChan e t)).length < 4 →
           ∃ u : State, exec (.routerTokenForward core cell port vc) s = .next u ∧ (u.atCell k).inQ (localChan e t) = c.inQ (localChan e t) ++ [t] ∧
            (port < 4 → Tab.get [] (u.atCell k).link (port * 2 + vc) = (Tab.get [] c.link (port * 2 + vc)).drop 1) ∧
            (port = 4 → (u.atCell k).outQ i = (c.outQ i).drop 1) ∧ u.regs = s.regs ∧ s.sameBytes u))))

/-- A cell's read of device memory inside its command's ranges and of the live generation, or of a share of its partition, joins the open merge entry of its line, or is counted and gets an entry (with 512 taken, none, and FULL_SEEN); a share of another partition refuses it; a host or remote read is only counted. A line arrives for all destinations of its entry, which goes. Of a mover's first request not done: LINE_IN asks for device lines through the merge table, or for host or remote lines once, and is done as it asks for none left; LINE_OUT writes share lines to its range and closes merge entries; SPREAD delivers share lines to a cell and BCAST to a group on the islands named; GATHER puts a cell's tokens and scratchpad into the share; XCORE copies to another share of the partition; SAVE writes scratchpads and share to the record, RESTORE reads them back or, at a line that fails, the context's commands lose their state; each is then done. The oldest request, done, leaves its queue. A quiescent slice shows it and its held binding changes take effect. -/
def Obligations.SharedStoreAndMovers : Prop :=
  ∀ (s : State) (core m : Nat), core < 8 → m < 16 →
    (∀ r : LineRead, r.loc < 2 → (r.loc = 1 → s.sliceOwner (r.line / 32768) = some r.part) →
      (r.loc = 0 → s.cellStrays (cellSlice core r.dest) r = none ∧ (s.place (256 * r.line)).isSome = true ∧ Tab.get 0 s.gens r.ctx = r.gen) →
      let pg := shstPg core
      let l := (s.atCore core).merge
      let hit := l.find? (fun e => e.isOpen && e.loc == r.loc && e.line == r.line && e.key == r.key && e.part == r.part)
      let e : Merge := { loc := r.loc, line := r.line, key := r.key, part := r.part, dests := [.cell r.dest] }
      let u := s.bump64 (pg + SHST_READ_CNT) 1
      (∀ e, hit = some e →
        let e' := { e with dests := e.dests ++ [.cell r.dest], isOpen := decide (e.dests.length + 1 < 32) }
        exec (.shstReadRequest core r) s = .next ((s.setMerge core (l.set (l.idxOf e) e')).bump64 (pg + SHST_MERGE_CNT) 1)) ∧
      (hit = none → l.length < 512 → exec (.shstReadRequest core r) s = .next (u.setMerge core (l ++ [e]))) ∧
      (hit = none → 512 ≤ l.length → exec (.shstReadRequest core r) s =
        .next ((u.updCore core (fun c => { c with loose := c.loose ++ [{ e with isOpen := false }] })).set pg SHST_MERGE_STAT_FULL_SEEN 1))) ∧
    (∀ r : LineRead, (2 ≤ r.loc → exec (.shstReadRequest core r) s = .next (s.bump64 (shstPg core + SHST_READ_CNT) 1)) ∧
      (∀ q n, r.loc = 1 → s.sliceOwner (r.line / 32768) ≠ some r.part → (s.atSlice (cellSlice core r.dest)).cmd = some (q, n) →
        exec (.shstReadRequest core r) s = .next (((s.shareDrop core).breakCmd q n codeRights 0 (128 + core)).flushCmd q n)) ∧
      (∀ p, r.loc = 0 → s.cellStrays (cellSlice core r.dest) r = none → s.place (256 * r.line) = some p → Tab.get 0 s.gens r.ctx ≠ r.gen →
        exec (.shstReadRequest core r) s = .next (s.errCount (napPg (p.chan / 16)) NAP_STALE_DROP 1))) ∧
    (∀ loc line key part,
      let hit := (s.atCore core).merge.find? (fun e => e.loc == loc && e.line == line && e.key == key && e.part == part)
      let spare := (s.atCore core).loose.find? (fun e => e.loc == loc && e.line == line && e.key == key && e.part == part)
      (hit = none → spare = none → exec (.shstLineArrive core ⟨loc, line, 0⟩ key part) s = .next s) ∧
      (∀ e, hit = some e ∨ (hit = none ∧ spare = some e) →
        let t := if hit = none then ((s.beat 1 core).setMerge core ((s.atCore core).merge.erase e)).updCore core (fun c => { c with loose := c.loose.erase e })
          else (s.beat 1 core).setMerge core ((s.atCore core).merge.erase e)
        let give := fun (u : State) (b : Bytes) => e.dests.foldl (fun a d => a.deliverLine core (if 1 < e.dests.length then 1 else 2) b d) u
        (loc = 1 → exec (.shstLineArrive core ⟨loc, line, 0⟩ key part) s = .next (give t (t.shareRead (line / 32768) (line % 32768) 1))) ∧
        (∀ u b, loc ≠ 1 → t.devRead key (line * 256) 256 = (u, .inr b) → exec (.shstLineArrive core ⟨loc, line, 0⟩ key part) s = .next (give u b)))) ∧
    (∀ r c g, s.moverHead core m 0 = some r → s.moverAdmit core m r true = (s, some (c, g)) →
      (g.loc = 0 → let n := min (r.lines - r.sent) (128 - (r.sent - r.back / 256))
        exec (.lineIn core m) s = .next ((List.range n).foldl (fun a i => a.storeRead core 0 ((g.addr + r.addr) / 256 + r.sent + i) g.key c.part
          (.share r.share (r.sline + r.sent + i) m)) (s.moverSent core m r n 0))) ∧
      (g.loc ≠ 0 → r.sent ≠ 0 ∨ c.retrans = true → exec (.lineIn core m) s = .next s) ∧
      (g.loc = 1 → r.sent = 0 → c.retrans = false →
        let t := ((s.bump64 (shstPg core + SHST_READ_CNT) r.lines).moverSent core m r r.lines c.asked).updCmd r.q r.seq
          (fun c => { c with asked := c.asked + 256 * r.lines })
        exec (.lineIn core m) s = .next (t.hostRangeRead (t.ownerOf (ctxPg c.ctx)) g r.addr (256 * r.lines))) ∧
      (2 ≤ g.loc → r.sent = 0 → c.retrans = false →
        let t := ((s.bump64 (shstPg core + SHST_READ_CNT) r.lines).moverSent core m r r.lines c.asked).updCmd r.q r.seq
          (fun c => { c with asked := c.asked + 256 * r.lines })
        exec (.lineIn core m) s = .next (t.remoteRead c g r.addr (256 * r.lines) c.asked))) ∧
    (∀ r c g, s.moverHead core m 1 = some r → s.moverAdmit core m r true = (s, some (c, g)) → (g.loc = 1 → c.retrans = false) →
      let u := if g.loc = 0 then s.closeMerge core 0 ((g.addr + r.addr) / 256) r.lines else s
      exec (.lineOut core ⟨m, 0, 0⟩) s = .next ((u.rangeWrite c g r.addr (s.shareRead r.share r.sline r.lines)).moverDone core m r)) ∧
    (∀ r cg, s.moverHead core m 2 = some r → s.moverAdmit core m r false = (s, some cg) → exec (.spread core ⟨m, 0, 0⟩) s =
      .next ((s.deliverLines (cellKey core r.cell) 2 (Config.spreadLine r.route % 512) (s.shareRead r.share r.sline r.lines)).moverDone core m r)) ∧
    (∀ r c g, s.moverHead core m 3 = some r → s.moverAdmit core m r false = (s, some (c, g)) →
      let cells := (s.castIslands core r).flatMap (fun i => s.groupCells core i r.group c.spr.phase)
      exec (.bcast core ⟨m, 0, 0⟩) s = .next ((cells.foldl (fun a n => a.deliverLines (cellKey core n) 1 (Config.spreadLine r.group % 512)
        (s.shareRead r.share r.sline r.lines)) s).moverDone core m r)) ∧
    (∀ r cg, s.moverHead core m 4 = some r → s.moverAdmit core m r false = (s, some cg) →
      let at_ := Config.spreadLine r.route % 512
      let k := cellKey core r.cell
      let t := (s.atCell k).portTake (8 * r.lines)
      exec (.gather core ⟨m, 0, 0⟩) s = .next (((s.updCell k (fun _ => t.1)).shareWrite r.share r.sline
        (t.2 ++ Memory.read s.spad (spadAt k at_) (min (256 * r.lines - t.2.length) (64 * (512 - at_))))).moverDone core m r)) ∧
    (∀ r c g, s.moverHead core m 5 = some r → s.moverAdmit core m r false = (s, some (c, g)) →
      (s.sliceOwner r.core = some c.part → exec (.xcore core ⟨m, 0, 0⟩) s = .next ((s.shareWrite r.core r.sline (s.shareRead r.share r.sline r.lines)).moverDone core m r)) ∧
      (s.sliceOwner r.core ≠ some c.part → exec (.xcore core ⟨m, 0, 0⟩) s = .next ((s.shareDrop (r.core / 4)).moverStop r codeRights 0 (128 + r.core / 4) 0))) ∧
    (∀ r, s.moverHead core m 6 = some r →
      let u := s.saveWrite r.ctx r.addr ((sliceKeys r.share).flatMap (fun k => Memory.read s.spad (spadAt k 0) 32768))
      exec (.save core ⟨m, 0, 0⟩) s = .next ((u.saveWrite r.ctx (r.addr + saveSpad) (u.shareRead r.share 0 32768)).moverDone core m r)) ∧
    (∀ r, s.moverHead core m 7 = some r →
      let rd := s.saveRead r.ctx r.addr (saveCtl / 256)
      let b := rd.2.1
      ∃ isl : Nat, exec (.restore core m) s = .next (match rd.2.2 with
        | none => (((List.range 1024).foldl (fun (a : State) i =>
          { a with spad := Memory.write a.spad (spadAt ((sliceKeys r.share).getD i 0) 0) (sliceBytes b (32768 * i) 32768) }) rd.1).shareWrite r.share 0 (b.drop saveSpad)).moverDone core m r
        | some e => (rd.1.restoreFail r.ctx e isl).moverDone core m r)) ∧
    (∀ r rest, s.moverQueue core m = r :: rest →
      (r.done = false → exec (.moverCompletion core m) s = .next s) ∧
      (r.done = true → r.op ≠ 6 → r.op ≠ 7 → exec (.moverCompletion core m) s =
        .next (((s.setMover core m rest).moverTell core r).moverRefill r.share)) ∧
      (64 ≤ r.route → (s.setMover core m rest).moverTell core r = s.setMover core m rest) ∧
      (r.done = true → r.op = 7 → exec (.moverCompletion core m) s = .next ((s.setMover core m rest).feed r.share)) ∧
      (r.done = true → r.op = 6 → exec (.moverCompletion core m) s = .next (((s.setMover core m rest).release r.share).scheduleFor r.ctx))) ∧
    (∀ n, n < 32 → (s.isQuiescent n = false → exec (.sliceQuiescent n) s = .next s) ∧
      (s.isQuiescent n = true → ∃ u : State, exec (.sliceQuiescent n) s = .next u ∧ u.quiet n = true ∧
        bitOf (u.get (Pg.base .core (n / 4)) CORE_QUIET_HELD) (n % 4) = false ∧ s.sameBytes u)) ∧
    (∀ mm, ∀ r : MoverReq, ∀ c, s.cmd? r.q r.seq = some c → s.sliceOwner r.share = some c.part →
      (mm = true → ((c.ranges.getD r.range {}).loc = 0 → Tab.get 0 s.gens r.ctx = r.gen) ∧ r.addr + 256 * r.lines ≤ (c.ranges.getD r.range {}).len) →
      s.moverAdmit core m r mm = (s, some (c, c.ranges.getD r.range {})))

/-- For source 0 (tray controller) and 1 (physical function). A mailbox that cannot be reached, or still waits for a response, takes no request. While the module is up the request's bytes stand in the mailbox and its operation is run: GET_STATUS and READ_TELEMETRY answer; SET_CAP sets cap and window, held to their ranges, and DEVICE_RESET is collected, from the tray controller, while the physical function is answered NOT_ALLOWED; FW_BEGIN and RETIRE_CLEAR are collected; FW_DATA stores up to 1,008 B, a longer one is a BAD_REQUEST; FW_END closes the session and stages or erases the image. A session that times out ends and its partial image is erased. SB_ALARM written clears the bits whose cause no longer holds and a mask write masks, the alert pin following. -/
def Obligations.MailboxRequests : Prop :=
  (∀ (s : State) (src : Nat) (tag : Word), src ≤ 1 →
    let asks := fun (op : Nat) (b : Bytes) => leBytes 1 op ++ leBytes 1 0 ++ leBytes 2 b.length ++ leBytes 4 tag.toNat ++ b
    let put := fun (op : Nat) (b : Bytes) => (s.mbxPut src (asks op b)).mbxFlags src true false
    (∀ c : Instr, c ∈ [.getStatus src tag, .setCap src tag 0 0, .readTelemetry src tag, .fwBegin src tag 0 0, .fwData src tag 0 [], .fwEnd src tag, .retireClear src tag 0 0, .deviceReset src tag] →
      (s.mbxReached src = false ∨ s.mbxBusy src = true) → exec c s = .next s) ∧
    (s.mbxReached src = true → s.mbxBusy src = false → s.ready = true →
      exec (.getStatus src tag) s = .next ((put 1 []).getStatus src tag.toNat) ∧
      exec (.readTelemetry src tag) s = .next ((put 3 []).readTelemetry src tag.toNat) ∧
      exec (.fwEnd src tag) s = .next ((put 6 []).fwEnd src tag.toNat) ∧
      (∀ watts window, watts < 2 ^ 16 → window < 2 ^ 8 →
        let u := put 2 (leBytes 2 watts ++ leBytes 1 window)
        (src = 0 → exec (.setCap src tag watts window) s =
          .next (({ u with power := { u.power with trayCap := min (max watts 600) 2000, trayWin := min (max window 1) 60 } }).respond src 0 tag.toNat [])) ∧
        (src = 1 → exec (.setCap src tag watts window) s = .next (u.respond src 4 tag.toNat []))) ∧
      (src = 0 → exec (.deviceReset src tag) s = .next ((put 8 []).mbxCollect src 3 5 0 tag.toNat)) ∧
      (src = 1 → exec (.deviceReset src tag) s = .next ((put 8 []).respond src 4 tag.toNat [])) ∧
      (∀ stage size, stage < 2 ^ 8 → size < 2 ^ 32 → exec (.fwBegin src tag stage size) s = .next ((put 4 (leBytes 1 stage ++ leBytes 4 size)).mbxCollect src 4 stage size tag.toNat)) ∧
      (∀ type idx, type < 2 ^ 8 → idx < 2 ^ 16 → exec (.retireClear src tag type idx) s = .next ((put 7 (leBytes 1 type ++ leBytes 2 idx)).mbxCollect src 2 type idx tag.toNat)) ∧
      (∀ (off : Nat) (data : Bytes), off < 2 ^ 32 →
        (data.length ≤ 1008 → exec (.fwData src tag off data) s = .next ((put 5 (leBytes 4 off ++ data)).fwData src tag.toNat off data)) ∧
        (1008 < data.length → data.length ≤ 1012 → exec (.fwData src tag off data) s = .next ((put 5 (leBytes 4 off ++ data)).respond src 2 tag.toNat [])))) ∧
    (src = 0 → s.mbxReached 0 = true → s.mbxBusy 0 = false → s.ready = false → exec (.getStatus 0 tag) s = .next ((put 1 []).respond 0 1 tag.toNat []))) ∧
  (∀ s : State, s.mgmt.session = none → exec .fwSessionTimeout s = .next s) ∧
  (∀ (s : State) src stage size, s.mgmt.session = some (src, stage, size) → ∃ t : State, exec .fwSessionTimeout s = .next t ∧ t.mgmt.session = none ∧ t.mgmt.sessionData = [] ∧
    t.get secPg SEC_FW_CTL_UPDATING = 0 ∧ Tab.get {} t.flash.staged stage = {} ∧ t.mem = s.mem ∧ s.sameBytes t) ∧
  ∀ (s : State) (v : Word),
    (s.mbxReached 0 = false → exec (.sbAlarmClear v) s = .next s ∧ exec (.sbAlarmMaskWrite v) s = .next s) ∧
    (s.mbxReached 0 = true → s.mgmt.alarm < 2 ^ 32 →
      (∃ t : State, exec (.sbAlarmClear v) s = .next t ∧ (∀ i, i < 32 → (bitOf t.mgmt.alarm i = true ↔ bitOf s.mgmt.alarm i = true ∧ (bitOf v.toNat i = false ∨ bitOf s.alarmHolds i = true))) ∧
        t.rd (mgmtPg + MGMT_ALARM) = t.mgmt.alarm ∧ (t.pins.alertN = true ↔ ∀ i, i < 32 → bitOf t.mgmt.alarm i = true → bitOf t.mgmt.alarmMask i = true) ∧
        t.mgmt.alarmMask = s.mgmt.alarmMask ∧ s.sameRegs t [mgmtPg + MGMT_ALARM] ∧ s.sameBytes t) ∧
      (∃ t : State, exec (.sbAlarmMaskWrite v) s = .next t ∧ t.mgmt.alarmMask = v.toNat ∧ t.mgmt.alarm = s.mgmt.alarm ∧
        (t.pins.alertN = true ↔ ∀ i, i < 32 → bitOf t.mgmt.alarm i = true → bitOf v.toNat i = true) ∧ t.regs = s.regs ∧ s.sameBytes t))

/-- MOD_PWR_EN starts the stages, from 48.0 V to below 60.5 V, and bring-up follows unless DEV_RESET_N holds it; within the minimum off time the assertion is held until the time is over. Its removal ends power, clears the stage controller's outputs and starts that time. A stop at or below 46.0 V, or at or above 60.5 V, ends power at once and latches, so that the stages do not start again by themselves. A rail fault drops DEV_PGOOD. A stopped oscillator resets the die assembly and asserts DEV_CYCLE_REQ_N. DEV_RESET_N asserted resets the die assembly, released brings it up unless power is off or a cycle was asked for. PERST_N starts the device-level reset with cause 2 and takes the host link down; released, the link may train, and it comes up at its generation and width. DEV_THROTTLE_N is honoured from 1 us on, or when it toggles, the clocks of a module that runs following; after 60 s it is reported stuck, and its release clears that. -/
def Obligations.PinsPowerAndReset : Prop :=
  ∀ (s : State) (mv : Nat) (train : TrainIn),
    let runs := 48000 ≤ mv ∧ mv < 60500
    let clocked := fun (u : State) => if u.running = true then u.clocks else u
    let on := fun (u : State) =>
      let a := { u with pins := { u.pins with pwrEn := true, heldOn := false } }
      let b := { a with pins := { a.pins with pgood := true } }
      if runs then (if b.pins.resetN then b.bringUp train else b) else a
    (s.pins.pwrEn = true → exec (.modPwrEnAssert mv train) s = .next s) ∧
    (s.pins.pwrEn = false → s.pins.offTimer = true → exec (.modPwrEnAssert mv train) s = .next { s with pins := { s.pins with pwrEn := true, heldOn := true } }) ∧
    (s.pins.pwrEn = false → s.pins.offTimer = false → exec (.modPwrEnAssert mv train) s = .next (on s)) ∧
    (s.pins.heldOn = false → exec (.pwrOffTimeExpire mv train) s = .next { s with pins := { s.pins with offTimer := false } }) ∧
    (s.pins.heldOn = true → exec (.pwrOffTimeExpire mv train) s = .next (on { s with pins := { s.pins with offTimer := false } })) ∧
    (s.pins.pwrEn = false → exec .modPwrEnRemove s = .next s) ∧
    (s.pins.pwrEn = true → ∃ t : State, exec .modPwrEnRemove s = .next t ∧ t.ready = false ∧ t.pins.pwrEn = false ∧ t.pins.pgood = false ∧ t.pins.stopLatch = false ∧
      t.pins.cycleN = true ∧ t.pins.tripN = true ∧ (s.pins.stopLatch = false → t.pins.offTimer = true) ∧ (s.pins.stopLatch = true → t.pins.offTimer = s.pins.offTimer)) ∧
    ((s.pins.pgood = false ∨ (46000 < mv ∧ mv < 60500)) → exec (.stageStop mv) s = .next s) ∧
    (s.pins.pgood = true → (mv ≤ 46000 ∨ 60500 ≤ mv) → ∃ t : State, exec (.stageStop mv) s = .next t ∧ t.ready = false ∧ t.pins.pgood = false ∧ t.pins.stopLatch = true ∧ t.pins.offTimer = true) ∧
    exec .railFault s = .next { s with pins := { s.pins with pgood := false } } ∧
    (s.pins.pgood = false → exec .oscillatorStop s = .next s) ∧
    (s.pins.pgood = true → ∃ t : State, exec .oscillatorStop s = .next t ∧ t.ready = false ∧ t.pins.oscStopped = true ∧ t.pins.cycleN = false) ∧
    (s.pins.pgood = false → exec .devResetNAssert s = .next { s with pins := { s.pins with resetN := false } }) ∧
    (s.pins.pgood = true → ∃ t : State, exec .devResetNAssert s = .next t ∧ t.ready = false ∧ t.pins.resetN = false) ∧
    (s.pins.resetN = true → exec (.devResetNRelease train) s = .next s) ∧
    (s.pins.resetN = false →
      let u := { s with pins := { s.pins with resetN := true } }
      let up := s.pins.pgood = true ∧ s.pins.oscStopped = false ∧ s.pins.cycleN = true
      (up → exec (.devResetNRelease train) s = .next (u.bringUp train)) ∧ (¬ up → exec (.devResetNRelease train) s = .next u)) ∧
    (∃ t : State, exec .perstNAssert s = .next t ∧ t.pins.perstN = false ∧ (s.pins.pgood = true → t.pins.linkUp = false) ∧
      (s.pins.pgood = true → s.ready = true → s.levelNow < 5 → t.levelNow = 5)) ∧
    exec .perstNRelease s = .next { s with pins := { s.pins with perstN := true } } ∧
    (∀ gen width, 4 ≤ gen → gen ≤ 7 → width ∈ [1, 2, 4, 8, 16] →
      let trains := s.pins.pgood = true ∧ s.pins.resetN = true ∧ s.pins.perstN = true ∧ s.pins.oscStopped = false
      (¬ trains → exec (.pcieLinkUp gen width) s = .next s) ∧
      (trains → ∃ t : State, exec (.pcieLinkUp gen width) s = .next t ∧ t.pins.linkUp = true ∧ t.get pciPg PCI_LINK_STAT_GEN = gen ∧
        t.get pciPg PCI_LINK_STAT_WIDTH = width ∧ t.get pciPg PCI_LINK_STAT_LINK_UP = 1 ∧ s.sameBytes t)) ∧
    (∀ tenths toggling,
      (tenths < 10 → toggling = false → exec (.devThrottleNAssert tenths toggling) s = .next s) ∧
      (10 ≤ tenths ∨ toggling = true → exec (.devThrottleNAssert tenths toggling) s =
        .next (clocked { s with pins := { s.pins with throttle := true, throttleCont := s.pins.throttleCont || toggling } }))) ∧
    (s.pins.stuck = false → exec .devThrottleNRelease s = .next (clocked { s with pins := { s.pins with throttle := false, throttleCont := false, stuck := false } })) ∧
    (s.pins.stuck = true → ∃ t : State, exec .devThrottleNRelease s = .next t ∧ t.pins.throttle = false ∧ t.pins.stuck = false ∧ bitOf t.mgmt.alarm 6 = false) ∧
    ((s.pins.throttle = false ∨ s.pins.stuck = true) → exec .inputStuck s = .next s) ∧
    (s.pins.throttle = true → s.pins.stuck = false → ∃ t : State, exec .inputStuck s = .next t ∧ t.pins.stuck = true ∧ t.pins.throttle = true ∧ bitOf t.mgmt.alarm 6 = true ∧ s.sameBytes t)

/-- A BAR2 access of 1 to 4,096 bytes within the window, of a module that is READY, one of whose addresses lies in protected state, is not performed: a read answers Unsupported Request and no data, a write has no effect, and each counts in SEC_BAR2_BLOCK (which stops at its highest value). Nothing else changes but the count of Unsupported Requests of a read. -/
def Obligations.WindowAccessToProtectedState : Prop :=
  ∀ (s : State) (off : Nat) (data : Bytes), 0 < data.length → data.length ≤ 4096 → off + data.length ≤ 2 ^ 36 → s.ready = true →
    (∃ e, e ∈ linePieces (data.length + 1) (s.bar2Dpa off) data.length ∧ s.dpaProtected e.1 = true) →
    (∃ t : State, exec (.bar2Write off data) s = .next t ∧ t = { s with regs := t.regs } ∧ s.sameRegs t [secPg + SEC_BAR2_BLOCK] ∧
      t.rd (secPg + SEC_BAR2_BLOCK) = min 0xFFFFFFFF (s.rd (secPg + SEC_BAR2_BLOCK) + 1)) ∧
    ∃ t : State, exec (.bar2Read off data.length) s = .next t ∧ t = { s with regs := t.regs, out := .unsupported 0 :: s.out } ∧
      s.sameRegs t [secPg + SEC_BAR2_BLOCK, pciPg + PCI_UR_CNT] ∧ t.rd (secPg + SEC_BAR2_BLOCK) = min 0xFFFFFFFF (s.rd (secPg + SEC_BAR2_BLOCK) + 1)
end

