-- ==== Sys2Proof/Laws/Bits.lean ====
section
/-! SUPPORT. Laws of bit fields: reading a field after writing it, and after writing another. -/

namespace Sys2Proof

theorem testBit_bitsOf (n hi lo i : Nat) : (bitsOf n hi lo).testBit i = (decide (i < hi + 1 - lo) && n.testBit (lo + i)) := by
  simp [bitsOf, Nat.testBit_mod_two_pow, Nat.testBit_shiftRight]

theorem bitsOf_lt (n hi lo : Nat) : bitsOf n hi lo < 2 ^ (hi + 1 - lo) := Nat.mod_lt _ (Nat.two_pow_pos _)

/-- Every bit of a word after one field is replaced. -/
theorem testBit_putBits (n hi lo v i : Nat) (h : lo ≤ hi) :
    (putBits n hi lo v).testBit i = if lo ≤ i ∧ i ≤ hi then v.testBit (i - lo) else n.testBit i := by
  have h1 : n % 2 ^ lo < 2 ^ lo := Nat.mod_lt _ (Nat.two_pow_pos _)
  have h2 : v % 2 ^ (hi + 1 - lo) < 2 ^ (hi + 1 - lo) := Nat.mod_lt _ (Nat.two_pow_pos _)
  have h3 : (v % 2 ^ (hi + 1 - lo)) <<< lo + n % 2 ^ lo < 2 ^ (hi + 1) := by
    rw [Nat.shiftLeft_eq]
    have e : 2 ^ (hi + 1) = 2 ^ (hi + 1 - lo) * 2 ^ lo := by rw [← Nat.pow_add]; congr 1; omega
    rw [e]
    calc v % 2 ^ (hi + 1 - lo) * 2 ^ lo + n % 2 ^ lo < v % 2 ^ (hi + 1 - lo) * 2 ^ lo + 2 ^ lo := by omega
      _ = (v % 2 ^ (hi + 1 - lo) + 1) * 2 ^ lo := by rw [Nat.add_mul, Nat.one_mul]
      _ ≤ 2 ^ (hi + 1 - lo) * 2 ^ lo := Nat.mul_le_mul_right _ (by omega)
  unfold putBits
  simp only [Nat.add_assoc]
  rw [Nat.shiftLeft_add_eq_or_of_lt h3, Nat.shiftLeft_add_eq_or_of_lt h1]
  simp only [Nat.testBit_or, Nat.testBit_shiftLeft, Nat.testBit_shiftRight, Nat.testBit_mod_two_pow]
  by_cases a : lo ≤ i
  · by_cases b : i ≤ hi
    · have c : ¬ hi + 1 ≤ i := by omega
      have d : ¬ i < lo := by omega
      have e : i - lo < hi + 1 - lo := by omega
      simp [a, b, c, d, e]
    · have c : hi + 1 ≤ i := by omega
      have d : ¬ i < lo := by omega
      have e : ¬ i - lo < hi + 1 - lo := by omega
      have f : hi + 1 + (i - (hi + 1)) = i := by omega
      simp [a, b, c, d, e, f]
  · have c : ¬ hi + 1 ≤ i := by omega
    have d : i < lo := by omega
    simp [a, c, d]

/-- A field reads as written. -/
theorem bitsOf_putBits_self (n hi lo v : Nat) (h : lo ≤ hi) : bitsOf (putBits n hi lo v) hi lo = v % 2 ^ (hi + 1 - lo) := by
  apply Nat.eq_of_testBit_eq
  intro i
  rw [testBit_bitsOf, testBit_putBits _ _ _ _ _ h, Nat.testBit_mod_two_pow]
  by_cases a : i < hi + 1 - lo
  · have b : lo ≤ lo + i ∧ lo + i ≤ hi := by omega
    have c : lo + i - lo = i := by omega
    simp [a, b, c]
  · simp [a]

/-- A field that shares no bit with the one written reads as before. -/
theorem bitsOf_putBits_disjoint (n hi lo v hi' lo' : Nat) (h : lo ≤ hi) (hd : hi < lo' ∨ hi' < lo) :
    bitsOf (putBits n hi lo v) hi' lo' = bitsOf n hi' lo' := by
  apply Nat.eq_of_testBit_eq
  intro i
  rw [testBit_bitsOf, testBit_bitsOf, testBit_putBits _ _ _ _ _ h]
  by_cases a : i < hi' + 1 - lo'
  · have b : ¬ (lo ≤ lo' + i ∧ lo' + i ≤ hi) := by omega
    simp [a, b]
  · simp [a]

/-- Replacing a field below bit `w` keeps the word below 2^w. -/
theorem putBits_lt (n hi lo v w : Nat) (h : lo ≤ hi) (hw : hi < w) (hn : n < 2 ^ w) : putBits n hi lo v < 2 ^ w := by
  apply Nat.lt_pow_two_of_testBit
  intro i hi'
  rw [testBit_putBits _ _ _ _ _ h]
  have b : ¬ (lo ≤ i ∧ i ≤ hi) := by omega
  simp only [b, if_false]
  exact Nat.testBit_lt_two_pow (Nat.lt_of_lt_of_le hn (Nat.pow_le_pow_right (by omega) hi'))

end Sys2Proof
end

