-- ==== Sys2Proof/Laws/Tab.lean ====
section
/-! SUPPORT. Laws of sparse tables and byte memories: what a read finds after a write, and that every operation keeps the
canonical form. -/

namespace Sys2Proof.Machine

open Sys2Proof

variable {α : Type}

/-- A key that no entry has reads the default. -/
theorem Tab.get_absent (d : α) {t : Tab α} {k : Nat} (h : ∀ e ∈ t, e.1 ≠ k) : Tab.get d t k = d := by
  induction t with
  | nil => rfl
  | cons e t ih =>
    have := h e (List.mem_cons_self ..)
    simp only [Tab.get]
    rw [if_neg (fun x => this x.symm)]
    exact ih (fun e he => h e (List.mem_cons_of_mem _ he))

theorem Tab.get_del_self (d : α) (k : Nat) (t : Tab α) : Tab.get d (Tab.del k t) k = d := by
  induction t with
  | nil => rfl
  | cons e t ih =>
    by_cases h : e.1 = k
    · simp [Tab.del, h, ih]
    · simp [Tab.del, h, Tab.get, Ne.symm h, ih]

theorem Tab.get_del_ne (d : α) {k k' : Nat} (h : k' ≠ k) (t : Tab α) : Tab.get d (Tab.del k t) k' = Tab.get d t k' := by
  induction t with
  | nil => rfl
  | cons e t ih =>
    by_cases he : e.1 = k
    · simp [Tab.del, he, Tab.get, h, ih]
    · simp [Tab.del, he, Tab.get, ih]

theorem Tab.get_ins_self (d : α) (k : Nat) (v : α) (t : Tab α) : Tab.get d (Tab.ins k v (Tab.del k t)) k = v := by
  induction t with
  | nil => simp [Tab.del, Tab.ins, Tab.get]
  | cons e t ih =>
    by_cases he : e.1 = k
    · simpa [Tab.del, he] using ih
    · simp only [Tab.del, he, if_false, Tab.ins]
      split
      · simp [Tab.get]
      · simp [Tab.get, Ne.symm he, ih]

theorem Tab.get_ins_ne (d : α) {k k' : Nat} (h : k' ≠ k) (v : α) (t : Tab α) : Tab.get d (Tab.ins k v t) k' = Tab.get d t k' := by
  induction t with
  | nil => simp [Tab.ins, Tab.get, h]
  | cons e t ih =>
    simp only [Tab.ins]
    split
    · simp [Tab.get, h]
    · simp [Tab.get, ih]

/-- A read of the key written finds the value written. -/
@[simp] theorem Tab.get_put_self [DecidableEq α] (d : α) (k : Nat) (v : α) (t : Tab α) : Tab.get d (Tab.put d k v t) k = v := by
  unfold Tab.put
  split
  · next h => rw [h, Tab.get_del_self]
  · exact Tab.get_ins_self d k v t

/-- A read of any other key finds what it found before. -/
theorem Tab.get_put_ne [DecidableEq α] (d : α) {k k' : Nat} (h : k' ≠ k) (v : α) (t : Tab α) :
    Tab.get d (Tab.put d k v t) k' = Tab.get d t k' := by
  unfold Tab.put
  split
  · exact Tab.get_del_ne d h t
  · rw [Tab.get_ins_ne d h, Tab.get_del_ne d h]

/-- A write read back by case. -/
theorem Tab.get_put [DecidableEq α] (d : α) (k k' : Nat) (v : α) (t : Tab α) :
    Tab.get d (Tab.put d k v t) k' = if k' = k then v else Tab.get d t k' := by
  by_cases h : k' = k
  · simp [h]
  · simp [h, Tab.get_put_ne]

/-! ### The canonical form -/

theorem Tab.wfFrom_mono [DecidableEq α] (d : α) {a b : Nat} (h : a ≤ b) {t : Tab α} (hw : Tab.wfFrom d b t = true) :
    Tab.wfFrom d a t = true := by
  cases t with
  | nil => rfl
  | cons e t =>
    simp only [Tab.wfFrom, Bool.and_eq_true, decide_eq_true_eq] at hw ⊢
    exact ⟨⟨by omega, hw.1.2⟩, hw.2⟩

/-- Dropping entries keeps the canonical form. -/
theorem Tab.wfFrom_filter [DecidableEq α] (d : α) (p : Nat × α → Bool) {lo : Nat} {t : Tab α} (hw : Tab.wfFrom d lo t = true) :
    Tab.wfFrom d lo (t.filter p) = true := by
  induction t generalizing lo with
  | nil => rfl
  | cons e t ih =>
    simp only [Tab.wfFrom, Bool.and_eq_true, decide_eq_true_eq] at hw
    simp only [List.filter_cons]
    split
    · simp only [Tab.wfFrom, Bool.and_eq_true, decide_eq_true_eq]
      exact ⟨hw.1, ih hw.2⟩
    · exact Tab.wfFrom_mono d (by omega) (ih hw.2)

theorem Tab.wfFrom_del [DecidableEq α] (d : α) (k : Nat) {lo : Nat} {t : Tab α} (hw : Tab.wfFrom d lo t = true) :
    Tab.wfFrom d lo (Tab.del k t) = true := by
  induction t generalizing lo with
  | nil => rfl
  | cons e t ih =>
    simp only [Tab.wfFrom, Bool.and_eq_true, decide_eq_true_eq] at hw
    by_cases he : e.1 = k
    · simp only [Tab.del, he, if_true]
      exact Tab.wfFrom_mono d (by omega) (ih hw.2)
    · simp only [Tab.del, he, if_false, Tab.wfFrom, Bool.and_eq_true, decide_eq_true_eq]
      exact ⟨hw.1, ih hw.2⟩

theorem Tab.wfFrom_ins [DecidableEq α] (d : α) {k lo : Nat} {v : α} (hv : v ≠ d) (hk : lo ≤ k) {t : Tab α}
    (hw : Tab.wfFrom d lo (Tab.del k t) = true) : Tab.wfFrom d lo (Tab.ins k v (Tab.del k t)) = true := by
  induction t generalizing lo with
  | nil => simp [Tab.del, Tab.ins, Tab.wfFrom, hv, hk]
  | cons e t ih =>
    by_cases he : e.1 = k
    · simp only [Tab.del, he, if_true] at hw ⊢
      exact ih hk hw
    · simp only [Tab.del, he, if_false, Tab.wfFrom, Bool.and_eq_true, decide_eq_true_eq, Tab.ins] at hw ⊢
      split
      · next h =>
        simp only [Tab.wfFrom, Bool.and_eq_true, decide_eq_true_eq]
        exact ⟨⟨hk, hv⟩, ⟨by omega, hw.1.2⟩, hw.2⟩
      · next h =>
        simp only [Tab.wfFrom, Bool.and_eq_true, decide_eq_true_eq]
        exact ⟨hw.1, ih (by omega) hw.2⟩

/-- A write keeps the canonical form. -/
theorem Tab.wfFrom_put [DecidableEq α] (d : α) (k : Nat) (v : α) {t : Tab α} (hw : Tab.wfFrom d 0 t = true) :
    Tab.wfFrom d 0 (Tab.put d k v t) = true := by
  unfold Tab.put
  split
  · exact Tab.wfFrom_del d k hw
  · next h => exact Tab.wfFrom_ins d h (Nat.zero_le k) (Tab.wfFrom_del d k hw)

/-! ### Byte memories -/

/-- Storing one byte keeps the canonical form. -/
theorem Memory.wf_put {m : List Host.Cell} (h : Memory.wf m = true) (a : Nat) (b : Byte) : Memory.wf (Memory.put m a b) = true :=
  Tab.wfFrom_put 0 a b h

/-- Storing bytes keeps the canonical form. -/
theorem Memory.wf_write {m : List Host.Cell} (h : Memory.wf m = true) (a : Nat) (bs : Bytes) : Memory.wf (Memory.write m a bs) = true := by
  induction bs generalizing m a with
  | nil => exact h
  | cons b bs ih => exact ih (Memory.wf_put h a b) (a + 1)

/-- Dropping entries, and clearing an interval, keep the canonical form. -/
theorem Memory.wf_filter {m : List Host.Cell} (h : Memory.wf m = true) (p : Host.Cell → Bool) : Memory.wf (m.filter p) = true :=
  Tab.wfFrom_filter 0 p h
theorem Memory.wf_clear {m : List Host.Cell} (h : Memory.wf m = true) (lo hi : Nat) : Memory.wf (Memory.clear m lo hi) = true :=
  Memory.wf_filter h _

/-- A byte outside those stored reads as before. -/
theorem Memory.get_write_out (m : List Host.Cell) (a : Nat) (bs : Bytes) (x : Nat) (h : x < a ∨ a + bs.length ≤ x) :
    Memory.get (Memory.write m a bs) x = Memory.get m x := by
  induction bs generalizing m a with
  | nil => rfl
  | cons b bs ih =>
    simp only [List.length_cons] at h
    rw [Memory.write, ih (Memory.put m a b) (a + 1) (by omega)]
    exact Tab.get_put_ne 0 (by omega) b m

/-- A byte among those stored reads as stored. -/
theorem Memory.get_write_in (m : List Host.Cell) (a : Nat) (bs : Bytes) (i : Nat) (h : i < bs.length) :
    Memory.get (Memory.write m a bs) (a + i) = bs[i] := by
  induction bs generalizing m a i with
  | nil => simp at h
  | cons b bs ih =>
    cases i with
    | zero =>
      rw [Memory.write, Memory.get_write_out _ _ _ _ (Or.inl (by omega))]
      simp [Memory.get, Memory.put]
    | succ i =>
      have h' : i < bs.length := by simpa using h
      have := ih (Memory.put m a b) (a + 1) i h'
      simpa [Memory.write, Nat.add_assoc, Nat.add_comm 1 i] using this

end Sys2Proof.Machine
end

