-- ==== Sys2Proof/Laws/State.lean ====
section
/-! SUPPORT. Laws of the named operations: what a register and a field read after a write, and the fields of the state that an
operation leaves as they are. -/

namespace Sys2Proof.Machine

open Sys2Proof

/-! ### Registers -/

theorem State.rd_lt (s : State) (off : Nat) : s.rd off < 2 ^ 32 := (Tab.get (resetWord off) s.regs off).isLt

/-- A register reads the low 32 bits of what was written to it. -/
@[simp] theorem State.rd_wr_self (s : State) (a v : Nat) : (s.wr a v).rd a = v % 2 ^ 32 := by
  simp [State.rd, State.wr]

/-- Any other register reads as before. -/
theorem State.rd_wr_ne (s : State) (a v : Nat) {b : Nat} (h : b ≠ a) : (s.wr a v).rd b = s.rd b := by
  have : ∀ d d' : Word, Tab.get d (Tab.put d' a (BitVec.ofNat 32 v) s.regs) b = Tab.get d s.regs b := by
    intro d d'
    unfold Tab.put
    split
    · exact Tab.get_del_ne d h _
    · rw [Tab.get_ins_ne d h, Tab.get_del_ne d h]
  simp only [State.rd, State.wr, this]

theorem State.rd_wr (s : State) (a v b : Nat) : (s.wr a v).rd b = if b = a then v % 2 ^ 32 else s.rd b := by
  by_cases h : b = a
  · simp [h]
  · simp [h, State.rd_wr_ne]

/-- A write of what the register holds changes no register. -/
theorem State.rd_wr_same (s : State) (a b : Nat) : (s.wr a (s.rd a)).rd b = s.rd b := by
  rw [State.rd_wr]
  split
  · next h => rw [h, Nat.mod_eq_of_lt (s.rd_lt a)]
  · rfl

/-- A field reads what was set. -/
theorem State.get_set_self (s : State) (pg : Nat) (f : F) (v : Nat) (h : f.lo ≤ f.hi) (hw : f.hi < 32) :
    (s.set pg f v).get pg f = v % 2 ^ (f.hi + 1 - f.lo) := by
  rw [State.get, State.set, State.rd_wr_self, Nat.mod_eq_of_lt (putBits_lt _ _ _ _ _ h hw (s.rd_lt _)), bitsOf_putBits_self _ _ _ _ h]

/-- A field of another register reads as before. -/
theorem State.get_set_ne (s : State) (pg : Nat) (f : F) (v : Nat) {pg' : Nat} {g : F} (h : pg' + g.off ≠ pg + f.off) :
    (s.set pg f v).get pg' g = s.get pg' g := by
  rw [State.get, State.set, State.rd_wr_ne _ _ _ h, State.get]

/-- Another field of the same register reads as before. -/
theorem State.get_set_disjoint (s : State) (pg : Nat) (f : F) (v : Nat) {g : F} (ho : g.off = f.off) (h : f.lo ≤ f.hi)
    (hw : f.hi < 32) (hd : f.hi < g.lo ∨ g.hi < f.lo) : (s.set pg f v).get pg g = s.get pg g := by
  rw [State.get, State.set, ho, State.rd_wr_self, Nat.mod_eq_of_lt (putBits_lt _ _ _ _ _ h hw (s.rd_lt _)),
    bitsOf_putBits_disjoint _ _ _ _ _ _ h hd, State.get, ho]

theorem State.rd_set_ne (s : State) (pg : Nat) (f : F) (v : Nat) {b : Nat} (h : b ≠ pg + f.off) : (s.set pg f v).rd b = s.rd b :=
  State.rd_wr_ne _ _ _ h

theorem State.get_wr_ne (s : State) (a v pg : Nat) (f : F) (h : pg + f.off ≠ a) : (s.wr a v).get pg f = s.get pg f := by
  rw [State.get, State.rd_wr_ne _ _ _ h, State.get]

@[simp] theorem State.mark_eq (s : State) (pg : Nat) (f : F) (b : Bool) : s.mark pg f b = s.set pg f (if b then 1 else 0) := rfl
@[simp] theorem State.bump_eq (s : State) (off n : Nat) : s.bump off n = s.wr off (satAdd 0xFFFFFFFF (s.rd off) n) := rfl
@[simp] theorem State.bumpF_eq (s : State) (pg : Nat) (f : F) (n : Nat) :
    s.bumpF pg f n = s.set pg f (satAdd (2 ^ (f.hi + 1 - f.lo) - 1) (s.get pg f) n) := rfl
@[simp] theorem State.wr64_eq (s : State) (off v : Nat) : s.wr64 off v = (s.wr off v).wr (off + 4) (v / 2 ^ 32) := rfl
@[simp] theorem State.on_eq (s : State) (pg : Nat) (f : F) : s.on pg f = (s.get pg f != 0) := rfl

/-! ### Fields that an operation leaves as they are -/

@[simp] theorem State.wr_pending (s : State) (a v : Nat) : (s.wr a v).pending = s.pending := rfl
@[simp] theorem State.wr_mclk (s : State) (a v : Nat) : (s.wr a v).mclk = s.mclk := rfl
@[simp] theorem State.wr_draws (s : State) (a v : Nat) : (s.wr a v).draws = s.draws := rfl
@[simp] theorem State.wr_out (s : State) (a v : Nat) : (s.wr a v).out = s.out := rfl
@[simp] theorem State.wr_pairLatch (s : State) (a v : Nat) : (s.wr a v).pairLatch = s.pairLatch := rfl
@[simp] theorem State.wr_pairHeld (s : State) (a v : Nat) : (s.wr a v).pairHeld = s.pairHeld := rfl
@[simp] theorem State.wr_rwo (s : State) (a v : Nat) : (s.wr a v).rwo = s.rwo := rfl
@[simp] theorem State.wr_capt (s : State) (a v : Nat) : (s.wr a v).capt = s.capt := rfl
@[simp] theorem State.wr_captGen (s : State) (a v : Nat) : (s.wr a v).captGen = s.captGen := rfl
@[simp] theorem State.wr_ready (s : State) (a v : Nat) : (s.wr a v).ready = s.ready := rfl
@[simp] theorem State.wr_hsSeq (s : State) (a v : Nat) : (s.wr a v).hsSeq = s.hsSeq := rfl
@[simp] theorem State.wr_hsFifo (s : State) (a v : Nat) : (s.wr a v).hsFifo = s.hsFifo := rfl
@[simp] theorem State.wr_seamSeq (s : State) (a v : Nat) : (s.wr a v).seamSeq = s.seamSeq := rfl
@[simp] theorem State.wr_seamFifo (s : State) (a v : Nat) : (s.wr a v).seamFifo = s.seamFifo := rfl
@[simp] theorem State.wr_seamErr (s : State) (a v : Nat) : (s.wr a v).seamErr = s.seamErr := rfl
@[simp] theorem State.wr_droop (s : State) (a v : Nat) : (s.wr a v).droop = s.droop := rfl
@[simp] theorem State.wr_cells (s : State) (a v : Nat) : (s.wr a v).cells = s.cells := rfl
@[simp] theorem State.wr_spad (s : State) (a v : Nat) : (s.wr a v).spad = s.spad := rfl
@[simp] theorem State.wr_share (s : State) (a v : Nat) : (s.wr a v).share = s.share := rfl
@[simp] theorem State.wr_cores (s : State) (a v : Nat) : (s.wr a v).cores = s.cores := rfl
@[simp] theorem State.wr_slices (s : State) (a v : Nat) : (s.wr a v).slices = s.slices := rfl
@[simp] theorem State.wr_gates (s : State) (a v : Nat) : (s.wr a v).gates = s.gates := rfl
@[simp] theorem State.wr_mem (s : State) (a v : Nat) : (s.wr a v).mem = s.mem := rfl
@[simp] theorem State.wr_seals (s : State) (a v : Nat) : (s.wr a v).seals = s.seals := rfl
@[simp] theorem State.wr_badLines (s : State) (a v : Nat) : (s.wr a v).badLines = s.badLines := rfl
@[simp] theorem State.wr_nap (s : State) (a v : Nat) : (s.wr a v).nap = s.nap := rfl
@[simp] theorem State.wr_gens (s : State) (a v : Nat) : (s.wr a v).gens = s.gens := rfl
@[simp] theorem State.wr_chans (s : State) (a v : Nat) : (s.wr a v).chans = s.chans := rfl
@[simp] theorem State.wr_towers (s : State) (a v : Nat) : (s.wr a v).towers = s.towers := rfl
@[simp] theorem State.wr_moulds (s : State) (a v : Nat) : (s.wr a v).moulds = s.moulds := rfl
@[simp] theorem State.wr_mouldWait (s : State) (a v : Nat) : (s.wr a v).mouldWait = s.mouldWait := rfl
@[simp] theorem State.wr_mouldSerial (s : State) (a v : Nat) : (s.wr a v).mouldSerial = s.mouldSerial := rfl
@[simp] theorem State.wr_segStage (s : State) (a v : Nat) : (s.wr a v).segStage = s.segStage := rfl
@[simp] theorem State.wr_segPend (s : State) (a v : Nat) : (s.wr a v).segPend = s.segPend := rfl
@[simp] theorem State.wr_trans (s : State) (a v : Nat) : (s.wr a v).trans = s.trans := rfl
@[simp] theorem State.wr_xreq (s : State) (a v : Nat) : (s.wr a v).xreq = s.xreq := rfl
@[simp] theorem State.wr_atsOn (s : State) (a v : Nat) : (s.wr a v).atsOn = s.atsOn := rfl
@[simp] theorem State.wr_inval (s : State) (a v : Nat) : (s.wr a v).inval = s.inval := rfl
@[simp] theorem State.wr_tails (s : State) (a v : Nat) : (s.wr a v).tails = s.tails := rfl
@[simp] theorem State.wr_heads (s : State) (a v : Nat) : (s.wr a v).heads = s.heads := rfl
@[simp] theorem State.wr_cmds (s : State) (a v : Nat) : (s.wr a v).cmds = s.cmds := rfl
@[simp] theorem State.wr_latched (s : State) (a v : Nat) : (s.wr a v).latched = s.latched := rfl
@[simp] theorem State.wr_objs (s : State) (a v : Nat) : (s.wr a v).objs = s.objs := rfl
@[simp] theorem State.wr_evqFn (s : State) (a v : Nat) : (s.wr a v).evqFn = s.evqFn := rfl
@[simp] theorem State.wr_evqLost (s : State) (a v : Nat) : (s.wr a v).evqLost = s.evqLost := rfl
@[simp] theorem State.wr_vecs (s : State) (a v : Nat) : (s.wr a v).vecs = s.vecs := rfl
@[simp] theorem State.wr_maps (s : State) (a v : Nat) : (s.wr a v).maps = s.maps := rfl
@[simp] theorem State.wr_attach (s : State) (a v : Nat) : (s.wr a v).attach = s.attach := rfl
@[simp] theorem State.wr_rebind (s : State) (a v : Nat) : (s.wr a v).rebind = s.rebind := rfl
@[simp] theorem State.wr_spanTbl (s : State) (a v : Nat) : (s.wr a v).spanTbl = s.spanTbl := rfl
@[simp] theorem State.wr_joins (s : State) (a v : Nat) : (s.wr a v).joins = s.joins := rfl
@[simp] theorem State.wr_spanNo (s : State) (a v : Nat) : (s.wr a v).spanNo = s.spanNo := rfl
@[simp] theorem State.wr_toks (s : State) (a v : Nat) : (s.wr a v).toks = s.toks := rfl
@[simp] theorem State.wr_ctxs (s : State) (a v : Nat) : (s.wr a v).ctxs = s.ctxs := rfl
@[simp] theorem State.wr_parts (s : State) (a v : Nat) : (s.wr a v).parts = s.parts := rfl
@[simp] theorem State.wr_links (s : State) (a v : Nat) : (s.wr a v).links = s.links := rfl
@[simp] theorem State.wr_trunks (s : State) (a v : Nat) : (s.wr a v).trunks = s.trunks := rfl
@[simp] theorem State.wr_earlyJoins (s : State) (a v : Nat) : (s.wr a v).earlyJoins = s.earlyJoins := rfl
@[simp] theorem State.wr_routes (s : State) (a v : Nat) : (s.wr a v).routes = s.routes := rfl
@[simp] theorem State.wr_reqs (s : State) (a v : Nat) : (s.wr a v).reqs = s.reqs := rfl
@[simp] theorem State.wr_nextTag (s : State) (a v : Nat) : (s.wr a v).nextTag = s.nextTag := rfl
@[simp] theorem State.wr_incarn (s : State) (a v : Nat) : (s.wr a v).incarn = s.incarn := rfl
@[simp] theorem State.wr_regls (s : State) (a v : Nat) : (s.wr a v).regls = s.regls := rfl
@[simp] theorem State.wr_power (s : State) (a v : Nat) : (s.wr a v).power = s.power := rfl
@[simp] theorem State.wr_therm (s : State) (a v : Nat) : (s.wr a v).therm = s.therm := rfl
@[simp] theorem State.wr_flash (s : State) (a v : Nat) : (s.wr a v).flash = s.flash := rfl
@[simp] theorem State.wr_sec (s : State) (a v : Nat) : (s.wr a v).sec = s.sec := rfl
@[simp] theorem State.wr_beacons (s : State) (a v : Nat) : (s.wr a v).beacons = s.beacons := rfl
@[simp] theorem State.wr_rcv (s : State) (a v : Nat) : (s.wr a v).rcv = s.rcv := rfl
@[simp] theorem State.wr_mgmt (s : State) (a v : Nat) : (s.wr a v).mgmt = s.mgmt := rfl
@[simp] theorem State.wr_pins (s : State) (a v : Nat) : (s.wr a v).pins = s.pins := rfl
@[simp] theorem State.wr_halted (s : State) (a v : Nat) : (s.wr a v).halted = s.halted := rfl
@[simp] theorem State.wr_captReason (s : State) (a v : Nat) : (s.wr a v).captReason = s.captReason := rfl
@[simp] theorem State.wr_hsErr (s : State) (a v : Nat) : (s.wr a v).hsErr = s.hsErr := rfl
@[simp] theorem State.wr_dlogWords (s : State) (a v : Nat) : (s.wr a v).dlogWords = s.dlogWords := rfl

@[simp] theorem State.set_pending (s : State) (pg : Nat) (f : F) (v : Nat) : (s.set pg f v).pending = s.pending := rfl
@[simp] theorem State.set_mclk (s : State) (pg : Nat) (f : F) (v : Nat) : (s.set pg f v).mclk = s.mclk := rfl
@[simp] theorem State.set_draws (s : State) (pg : Nat) (f : F) (v : Nat) : (s.set pg f v).draws = s.draws := rfl
@[simp] theorem State.set_out (s : State) (pg : Nat) (f : F) (v : Nat) : (s.set pg f v).out = s.out := rfl
@[simp] theorem State.set_pairLatch (s : State) (pg : Nat) (f : F) (v : Nat) : (s.set pg f v).pairLatch = s.pairLatch := rfl
@[simp] theorem State.set_pairHeld (s : State) (pg : Nat) (f : F) (v : Nat) : (s.set pg f v).pairHeld = s.pairHeld := rfl
@[simp] theorem State.set_rwo (s : State) (pg : Nat) (f : F) (v : Nat) : (s.set pg f v).rwo = s.rwo := rfl
@[simp] theorem State.set_capt (s : State) (pg : Nat) (f : F) (v : Nat) : (s.set pg f v).capt = s.capt := rfl
@[simp] theorem State.set_captGen (s : State) (pg : Nat) (f : F) (v : Nat) : (s.set pg f v).captGen = s.captGen := rfl
@[simp] theorem State.set_ready (s : State) (pg : Nat) (f : F) (v : Nat) : (s.set pg f v).ready = s.ready := rfl
@[simp] theorem State.set_hsSeq (s : State) (pg : Nat) (f : F) (v : Nat) : (s.set pg f v).hsSeq = s.hsSeq := rfl
@[simp] theorem State.set_hsFifo (s : State) (pg : Nat) (f : F) (v : Nat) : (s.set pg f v).hsFifo = s.hsFifo := rfl
@[simp] theorem State.set_seamSeq (s : State) (pg : Nat) (f : F) (v : Nat) : (s.set pg f v).seamSeq = s.seamSeq := rfl
@[simp] theorem State.set_seamFifo (s : State) (pg : Nat) (f : F) (v : Nat) : (s.set pg f v).seamFifo = s.seamFifo := rfl
@[simp] theorem State.set_seamErr (s : State) (pg : Nat) (f : F) (v : Nat) : (s.set pg f v).seamErr = s.seamErr := rfl
@[simp] theorem State.set_droop (s : State) (pg : Nat) (f : F) (v : Nat) : (s.set pg f v).droop = s.droop := rfl
@[simp] theorem State.set_cells (s : State) (pg : Nat) (f : F) (v : Nat) : (s.set pg f v).cells = s.cells := rfl
@[simp] theorem State.set_spad (s : State) (pg : Nat) (f : F) (v : Nat) : (s.set pg f v).spad = s.spad := rfl
@[simp] theorem State.set_share (s : State) (pg : Nat) (f : F) (v : Nat) : (s.set pg f v).share = s.share := rfl
@[simp] theorem State.set_cores (s : State) (pg : Nat) (f : F) (v : Nat) : (s.set pg f v).cores = s.cores := rfl
@[simp] theorem State.set_slices (s : State) (pg : Nat) (f : F) (v : Nat) : (s.set pg f v).slices = s.slices := rfl
@[simp] theorem State.set_gates (s : State) (pg : Nat) (f : F) (v : Nat) : (s.set pg f v).gates = s.gates := rfl
@[simp] theorem State.set_mem (s : State) (pg : Nat) (f : F) (v : Nat) : (s.set pg f v).mem = s.mem := rfl
@[simp] theorem State.set_seals (s : State) (pg : Nat) (f : F) (v : Nat) : (s.set pg f v).seals = s.seals := rfl
@[simp] theorem State.set_badLines (s : State) (pg : Nat) (f : F) (v : Nat) : (s.set pg f v).badLines = s.badLines := rfl
@[simp] theorem State.set_nap (s : State) (pg : Nat) (f : F) (v : Nat) : (s.set pg f v).nap = s.nap := rfl
@[simp] theorem State.set_gens (s : State) (pg : Nat) (f : F) (v : Nat) : (s.set pg f v).gens = s.gens := rfl
@[simp] theorem State.set_chans (s : State) (pg : Nat) (f : F) (v : Nat) : (s.set pg f v).chans = s.chans := rfl
@[simp] theorem State.set_towers (s : State) (pg : Nat) (f : F) (v : Nat) : (s.set pg f v).towers = s.towers := rfl
@[simp] theorem State.set_moulds (s : State) (pg : Nat) (f : F) (v : Nat) : (s.set pg f v).moulds = s.moulds := rfl
@[simp] theorem State.set_mouldWait (s : State) (pg : Nat) (f : F) (v : Nat) : (s.set pg f v).mouldWait = s.mouldWait := rfl
@[simp] theorem State.set_mouldSerial (s : State) (pg : Nat) (f : F) (v : Nat) : (s.set pg f v).mouldSerial = s.mouldSerial := rfl
@[simp] theorem State.set_segStage (s : State) (pg : Nat) (f : F) (v : Nat) : (s.set pg f v).segStage = s.segStage := rfl
@[simp] theorem State.set_segPend (s : State) (pg : Nat) (f : F) (v : Nat) : (s.set pg f v).segPend = s.segPend := rfl
@[simp] theorem State.set_trans (s : State) (pg : Nat) (f : F) (v : Nat) : (s.set pg f v).trans = s.trans := rfl
@[simp] theorem State.set_xreq (s : State) (pg : Nat) (f : F) (v : Nat) : (s.set pg f v).xreq = s.xreq := rfl
@[simp] theorem State.set_atsOn (s : State) (pg : Nat) (f : F) (v : Nat) : (s.set pg f v).atsOn = s.atsOn := rfl
@[simp] theorem State.set_inval (s : State) (pg : Nat) (f : F) (v : Nat) : (s.set pg f v).inval = s.inval := rfl
@[simp] theorem State.set_tails (s : State) (pg : Nat) (f : F) (v : Nat) : (s.set pg f v).tails = s.tails := rfl
@[simp] theorem State.set_heads (s : State) (pg : Nat) (f : F) (v : Nat) : (s.set pg f v).heads = s.heads := rfl
@[simp] theorem State.set_cmds (s : State) (pg : Nat) (f : F) (v : Nat) : (s.set pg f v).cmds = s.cmds := rfl
@[simp] theorem State.set_latched (s : State) (pg : Nat) (f : F) (v : Nat) : (s.set pg f v).latched = s.latched := rfl
@[simp] theorem State.set_objs (s : State) (pg : Nat) (f : F) (v : Nat) : (s.set pg f v).objs = s.objs := rfl
@[simp] theorem State.set_evqFn (s : State) (pg : Nat) (f : F) (v : Nat) : (s.set pg f v).evqFn = s.evqFn := rfl
@[simp] theorem State.set_evqLost (s : State) (pg : Nat) (f : F) (v : Nat) : (s.set pg f v).evqLost = s.evqLost := rfl
@[simp] theorem State.set_vecs (s : State) (pg : Nat) (f : F) (v : Nat) : (s.set pg f v).vecs = s.vecs := rfl
@[simp] theorem State.set_maps (s : State) (pg : Nat) (f : F) (v : Nat) : (s.set pg f v).maps = s.maps := rfl
@[simp] theorem State.set_attach (s : State) (pg : Nat) (f : F) (v : Nat) : (s.set pg f v).attach = s.attach := rfl
@[simp] theorem State.set_rebind (s : State) (pg : Nat) (f : F) (v : Nat) : (s.set pg f v).rebind = s.rebind := rfl
@[simp] theorem State.set_spanTbl (s : State) (pg : Nat) (f : F) (v : Nat) : (s.set pg f v).spanTbl = s.spanTbl := rfl
@[simp] theorem State.set_joins (s : State) (pg : Nat) (f : F) (v : Nat) : (s.set pg f v).joins = s.joins := rfl
@[simp] theorem State.set_spanNo (s : State) (pg : Nat) (f : F) (v : Nat) : (s.set pg f v).spanNo = s.spanNo := rfl
@[simp] theorem State.set_toks (s : State) (pg : Nat) (f : F) (v : Nat) : (s.set pg f v).toks = s.toks := rfl
@[simp] theorem State.set_ctxs (s : State) (pg : Nat) (f : F) (v : Nat) : (s.set pg f v).ctxs = s.ctxs := rfl
@[simp] theorem State.set_parts (s : State) (pg : Nat) (f : F) (v : Nat) : (s.set pg f v).parts = s.parts := rfl
@[simp] theorem State.set_links (s : State) (pg : Nat) (f : F) (v : Nat) : (s.set pg f v).links = s.links := rfl
@[simp] theorem State.set_trunks (s : State) (pg : Nat) (f : F) (v : Nat) : (s.set pg f v).trunks = s.trunks := rfl
@[simp] theorem State.set_earlyJoins (s : State) (pg : Nat) (f : F) (v : Nat) : (s.set pg f v).earlyJoins = s.earlyJoins := rfl
@[simp] theorem State.set_routes (s : State) (pg : Nat) (f : F) (v : Nat) : (s.set pg f v).routes = s.routes := rfl
@[simp] theorem State.set_reqs (s : State) (pg : Nat) (f : F) (v : Nat) : (s.set pg f v).reqs = s.reqs := rfl
@[simp] theorem State.set_nextTag (s : State) (pg : Nat) (f : F) (v : Nat) : (s.set pg f v).nextTag = s.nextTag := rfl
@[simp] theorem State.set_incarn (s : State) (pg : Nat) (f : F) (v : Nat) : (s.set pg f v).incarn = s.incarn := rfl
@[simp] theorem State.set_regls (s : State) (pg : Nat) (f : F) (v : Nat) : (s.set pg f v).regls = s.regls := rfl
@[simp] theorem State.set_power (s : State) (pg : Nat) (f : F) (v : Nat) : (s.set pg f v).power = s.power := rfl
@[simp] theorem State.set_therm (s : State) (pg : Nat) (f : F) (v : Nat) : (s.set pg f v).therm = s.therm := rfl
@[simp] theorem State.set_flash (s : State) (pg : Nat) (f : F) (v : Nat) : (s.set pg f v).flash = s.flash := rfl
@[simp] theorem State.set_sec (s : State) (pg : Nat) (f : F) (v : Nat) : (s.set pg f v).sec = s.sec := rfl
@[simp] theorem State.set_beacons (s : State) (pg : Nat) (f : F) (v : Nat) : (s.set pg f v).beacons = s.beacons := rfl
@[simp] theorem State.set_rcv (s : State) (pg : Nat) (f : F) (v : Nat) : (s.set pg f v).rcv = s.rcv := rfl
@[simp] theorem State.set_mgmt (s : State) (pg : Nat) (f : F) (v : Nat) : (s.set pg f v).mgmt = s.mgmt := rfl
@[simp] theorem State.set_pins (s : State) (pg : Nat) (f : F) (v : Nat) : (s.set pg f v).pins = s.pins := rfl
@[simp] theorem State.set_halted (s : State) (pg : Nat) (f : F) (v : Nat) : (s.set pg f v).halted = s.halted := rfl
@[simp] theorem State.set_captReason (s : State) (pg : Nat) (f : F) (v : Nat) : (s.set pg f v).captReason = s.captReason := rfl
@[simp] theorem State.set_hsErr (s : State) (pg : Nat) (f : F) (v : Nat) : (s.set pg f v).hsErr = s.hsErr := rfl
@[simp] theorem State.set_dlogWords (s : State) (pg : Nat) (f : F) (v : Nat) : (s.set pg f v).dlogWords = s.dlogWords := rfl

@[simp] theorem State.emit_pending (s : State) (o : Out) : (s.emit o).pending = s.pending := rfl
@[simp] theorem State.emit_mclk (s : State) (o : Out) : (s.emit o).mclk = s.mclk := rfl
@[simp] theorem State.emit_draws (s : State) (o : Out) : (s.emit o).draws = s.draws := rfl
@[simp] theorem State.emit_regs (s : State) (o : Out) : (s.emit o).regs = s.regs := rfl
@[simp] theorem State.emit_pairLatch (s : State) (o : Out) : (s.emit o).pairLatch = s.pairLatch := rfl
@[simp] theorem State.emit_pairHeld (s : State) (o : Out) : (s.emit o).pairHeld = s.pairHeld := rfl
@[simp] theorem State.emit_rwo (s : State) (o : Out) : (s.emit o).rwo = s.rwo := rfl
@[simp] theorem State.emit_capt (s : State) (o : Out) : (s.emit o).capt = s.capt := rfl
@[simp] theorem State.emit_captGen (s : State) (o : Out) : (s.emit o).captGen = s.captGen := rfl
@[simp] theorem State.emit_ready (s : State) (o : Out) : (s.emit o).ready = s.ready := rfl
@[simp] theorem State.emit_hsSeq (s : State) (o : Out) : (s.emit o).hsSeq = s.hsSeq := rfl
@[simp] theorem State.emit_hsFifo (s : State) (o : Out) : (s.emit o).hsFifo = s.hsFifo := rfl
@[simp] theorem State.emit_seamSeq (s : State) (o : Out) : (s.emit o).seamSeq = s.seamSeq := rfl
@[simp] theorem State.emit_seamFifo (s : State) (o : Out) : (s.emit o).seamFifo = s.seamFifo := rfl
@[simp] theorem State.emit_seamErr (s : State) (o : Out) : (s.emit o).seamErr = s.seamErr := rfl
@[simp] theorem State.emit_droop (s : State) (o : Out) : (s.emit o).droop = s.droop := rfl
@[simp] theorem State.emit_cells (s : State) (o : Out) : (s.emit o).cells = s.cells := rfl
@[simp] theorem State.emit_spad (s : State) (o : Out) : (s.emit o).spad = s.spad := rfl
@[simp] theorem State.emit_share (s : State) (o : Out) : (s.emit o).share = s.share := rfl
@[simp] theorem State.emit_cores (s : State) (o : Out) : (s.emit o).cores = s.cores := rfl
@[simp] theorem State.emit_slices (s : State) (o : Out) : (s.emit o).slices = s.slices := rfl
@[simp] theorem State.emit_gates (s : State) (o : Out) : (s.emit o).gates = s.gates := rfl
@[simp] theorem State.emit_mem (s : State) (o : Out) : (s.emit o).mem = s.mem := rfl
@[simp] theorem State.emit_seals (s : State) (o : Out) : (s.emit o).seals = s.seals := rfl
@[simp] theorem State.emit_badLines (s : State) (o : Out) : (s.emit o).badLines = s.badLines := rfl
@[simp] theorem State.emit_nap (s : State) (o : Out) : (s.emit o).nap = s.nap := rfl
@[simp] theorem State.emit_gens (s : State) (o : Out) : (s.emit o).gens = s.gens := rfl
@[simp] theorem State.emit_chans (s : State) (o : Out) : (s.emit o).chans = s.chans := rfl
@[simp] theorem State.emit_towers (s : State) (o : Out) : (s.emit o).towers = s.towers := rfl
@[simp] theorem State.emit_moulds (s : State) (o : Out) : (s.emit o).moulds = s.moulds := rfl
@[simp] theorem State.emit_mouldWait (s : State) (o : Out) : (s.emit o).mouldWait = s.mouldWait := rfl
@[simp] theorem State.emit_mouldSerial (s : State) (o : Out) : (s.emit o).mouldSerial = s.mouldSerial := rfl
@[simp] theorem State.emit_segStage (s : State) (o : Out) : (s.emit o).segStage = s.segStage := rfl
@[simp] theorem State.emit_segPend (s : State) (o : Out) : (s.emit o).segPend = s.segPend := rfl
@[simp] theorem State.emit_trans (s : State) (o : Out) : (s.emit o).trans = s.trans := rfl
@[simp] theorem State.emit_xreq (s : State) (o : Out) : (s.emit o).xreq = s.xreq := rfl
@[simp] theorem State.emit_atsOn (s : State) (o : Out) : (s.emit o).atsOn = s.atsOn := rfl
@[simp] theorem State.emit_inval (s : State) (o : Out) : (s.emit o).inval = s.inval := rfl
@[simp] theorem State.emit_tails (s : State) (o : Out) : (s.emit o).tails = s.tails := rfl
@[simp] theorem State.emit_heads (s : State) (o : Out) : (s.emit o).heads = s.heads := rfl
@[simp] theorem State.emit_cmds (s : State) (o : Out) : (s.emit o).cmds = s.cmds := rfl
@[simp] theorem State.emit_latched (s : State) (o : Out) : (s.emit o).latched = s.latched := rfl
@[simp] theorem State.emit_objs (s : State) (o : Out) : (s.emit o).objs = s.objs := rfl
@[simp] theorem State.emit_evqFn (s : State) (o : Out) : (s.emit o).evqFn = s.evqFn := rfl
@[simp] theorem State.emit_evqLost (s : State) (o : Out) : (s.emit o).evqLost = s.evqLost := rfl
@[simp] theorem State.emit_vecs (s : State) (o : Out) : (s.emit o).vecs = s.vecs := rfl
@[simp] theorem State.emit_maps (s : State) (o : Out) : (s.emit o).maps = s.maps := rfl
@[simp] theorem State.emit_attach (s : State) (o : Out) : (s.emit o).attach = s.attach := rfl
@[simp] theorem State.emit_rebind (s : State) (o : Out) : (s.emit o).rebind = s.rebind := rfl
@[simp] theorem State.emit_spanTbl (s : State) (o : Out) : (s.emit o).spanTbl = s.spanTbl := rfl
@[simp] theorem State.emit_joins (s : State) (o : Out) : (s.emit o).joins = s.joins := rfl
@[simp] theorem State.emit_spanNo (s : State) (o : Out) : (s.emit o).spanNo = s.spanNo := rfl
@[simp] theorem State.emit_toks (s : State) (o : Out) : (s.emit o).toks = s.toks := rfl
@[simp] theorem State.emit_ctxs (s : State) (o : Out) : (s.emit o).ctxs = s.ctxs := rfl
@[simp] theorem State.emit_parts (s : State) (o : Out) : (s.emit o).parts = s.parts := rfl
@[simp] theorem State.emit_links (s : State) (o : Out) : (s.emit o).links = s.links := rfl
@[simp] theorem State.emit_trunks (s : State) (o : Out) : (s.emit o).trunks = s.trunks := rfl
@[simp] theorem State.emit_earlyJoins (s : State) (o : Out) : (s.emit o).earlyJoins = s.earlyJoins := rfl
@[simp] theorem State.emit_routes (s : State) (o : Out) : (s.emit o).routes = s.routes := rfl
@[simp] theorem State.emit_reqs (s : State) (o : Out) : (s.emit o).reqs = s.reqs := rfl
@[simp] theorem State.emit_nextTag (s : State) (o : Out) : (s.emit o).nextTag = s.nextTag := rfl
@[simp] theorem State.emit_incarn (s : State) (o : Out) : (s.emit o).incarn = s.incarn := rfl
@[simp] theorem State.emit_regls (s : State) (o : Out) : (s.emit o).regls = s.regls := rfl
@[simp] theorem State.emit_power (s : State) (o : Out) : (s.emit o).power = s.power := rfl
@[simp] theorem State.emit_therm (s : State) (o : Out) : (s.emit o).therm = s.therm := rfl
@[simp] theorem State.emit_flash (s : State) (o : Out) : (s.emit o).flash = s.flash := rfl
@[simp] theorem State.emit_sec (s : State) (o : Out) : (s.emit o).sec = s.sec := rfl
@[simp] theorem State.emit_beacons (s : State) (o : Out) : (s.emit o).beacons = s.beacons := rfl
@[simp] theorem State.emit_rcv (s : State) (o : Out) : (s.emit o).rcv = s.rcv := rfl
@[simp] theorem State.emit_mgmt (s : State) (o : Out) : (s.emit o).mgmt = s.mgmt := rfl
@[simp] theorem State.emit_pins (s : State) (o : Out) : (s.emit o).pins = s.pins := rfl
@[simp] theorem State.emit_halted (s : State) (o : Out) : (s.emit o).halted = s.halted := rfl
@[simp] theorem State.emit_captReason (s : State) (o : Out) : (s.emit o).captReason = s.captReason := rfl
@[simp] theorem State.emit_hsErr (s : State) (o : Out) : (s.emit o).hsErr = s.hsErr := rfl
@[simp] theorem State.emit_dlogWords (s : State) (o : Out) : (s.emit o).dlogWords = s.dlogWords := rfl

@[simp] theorem State.emit_out (s : State) (o : Out) : (s.emit o).out = o :: s.out := rfl
@[simp] theorem State.emit_rd (s : State) (o : Out) (a : Nat) : (s.emit o).rd a = s.rd a := rfl
@[simp] theorem State.emit_get (s : State) (o : Out) (pg : Nat) (f : F) : (s.emit o).get pg f = s.get pg f := rfl

/-! ### Entries of the unit tables -/

theorem State.atCell_updCell (s : State) (k : Nat) (f : CellSt → CellSt) (j : Nat) :
    (s.updCell k f).atCell j = if j = k then f (s.atCell k) else s.atCell j := by
  simp [State.atCell, State.updCell, Tab.upd, Tab.get_put]
@[simp] theorem State.updCell_rd (s : State) (k : Nat) (f : CellSt → CellSt) (a : Nat) : (s.updCell k f).rd a = s.rd a := rfl
@[simp] theorem State.updCell_get (s : State) (k : Nat) (f : CellSt → CellSt) (pg : Nat) (g : F) : (s.updCell k f).get pg g = s.get pg g := rfl
theorem State.updCell_frame (s : State) (k : Nat) (f : CellSt → CellSt) : s.updCell k f = { s with cells := (s.updCell k f).cells } := rfl

theorem State.atCore_updCore (s : State) (k : Nat) (f : CoreSt → CoreSt) (j : Nat) :
    (s.updCore k f).atCore j = if j = k then f (s.atCore k) else s.atCore j := by
  simp [State.atCore, State.updCore, Tab.upd, Tab.get_put]
@[simp] theorem State.updCore_rd (s : State) (k : Nat) (f : CoreSt → CoreSt) (a : Nat) : (s.updCore k f).rd a = s.rd a := rfl
@[simp] theorem State.updCore_get (s : State) (k : Nat) (f : CoreSt → CoreSt) (pg : Nat) (g : F) : (s.updCore k f).get pg g = s.get pg g := rfl
theorem State.updCore_frame (s : State) (k : Nat) (f : CoreSt → CoreSt) : s.updCore k f = { s with cores := (s.updCore k f).cores } := rfl

theorem State.atSlice_updSlice (s : State) (k : Nat) (f : SliceSt → SliceSt) (j : Nat) :
    (s.updSlice k f).atSlice j = if j = k then f (s.atSlice k) else s.atSlice j := by
  simp [State.atSlice, State.updSlice, Tab.upd, Tab.get_put]
@[simp] theorem State.updSlice_rd (s : State) (k : Nat) (f : SliceSt → SliceSt) (a : Nat) : (s.updSlice k f).rd a = s.rd a := rfl
@[simp] theorem State.updSlice_get (s : State) (k : Nat) (f : SliceSt → SliceSt) (pg : Nat) (g : F) : (s.updSlice k f).get pg g = s.get pg g := rfl
theorem State.updSlice_frame (s : State) (k : Nat) (f : SliceSt → SliceSt) : s.updSlice k f = { s with slices := (s.updSlice k f).slices } := rfl

theorem State.atChan_updChan (s : State) (k : Nat) (f : ChanSt → ChanSt) (j : Nat) :
    (s.updChan k f).atChan j = if j = k then f (s.atChan k) else s.atChan j := by
  simp [State.atChan, State.updChan, Tab.upd, Tab.get_put]
@[simp] theorem State.updChan_rd (s : State) (k : Nat) (f : ChanSt → ChanSt) (a : Nat) : (s.updChan k f).rd a = s.rd a := rfl
@[simp] theorem State.updChan_get (s : State) (k : Nat) (f : ChanSt → ChanSt) (pg : Nat) (g : F) : (s.updChan k f).get pg g = s.get pg g := rfl
theorem State.updChan_frame (s : State) (k : Nat) (f : ChanSt → ChanSt) : s.updChan k f = { s with chans := (s.updChan k f).chans } := rfl

theorem State.atTower_updTower (s : State) (k : Nat) (f : TowerSt → TowerSt) (j : Nat) :
    (s.updTower k f).atTower j = if j = k then f (s.atTower k) else s.atTower j := by
  simp [State.atTower, State.updTower, Tab.upd, Tab.get_put]
@[simp] theorem State.updTower_rd (s : State) (k : Nat) (f : TowerSt → TowerSt) (a : Nat) : (s.updTower k f).rd a = s.rd a := rfl
@[simp] theorem State.updTower_get (s : State) (k : Nat) (f : TowerSt → TowerSt) (pg : Nat) (g : F) : (s.updTower k f).get pg g = s.get pg g := rfl
theorem State.updTower_frame (s : State) (k : Nat) (f : TowerSt → TowerSt) : s.updTower k f = { s with towers := (s.updTower k f).towers } := rfl

theorem State.atMould_updMould (s : State) (k : Nat) (f : Mould → Mould) (j : Nat) :
    (s.updMould k f).atMould j = if j = k then f (s.atMould k) else s.atMould j := by
  simp [State.atMould, State.updMould, Tab.upd, Tab.get_put]
@[simp] theorem State.updMould_rd (s : State) (k : Nat) (f : Mould → Mould) (a : Nat) : (s.updMould k f).rd a = s.rd a := rfl
@[simp] theorem State.updMould_get (s : State) (k : Nat) (f : Mould → Mould) (pg : Nat) (g : F) : (s.updMould k f).get pg g = s.get pg g := rfl
theorem State.updMould_frame (s : State) (k : Nat) (f : Mould → Mould) : s.updMould k f = { s with moulds := (s.updMould k f).moulds } := rfl

theorem State.atSegPend_updSegPend (s : State) (k : Nat) (f : SegPend → SegPend) (j : Nat) :
    (s.updSegPend k f).atSegPend j = if j = k then f (s.atSegPend k) else s.atSegPend j := by
  simp [State.atSegPend, State.updSegPend, Tab.upd, Tab.get_put]
@[simp] theorem State.updSegPend_rd (s : State) (k : Nat) (f : SegPend → SegPend) (a : Nat) : (s.updSegPend k f).rd a = s.rd a := rfl
@[simp] theorem State.updSegPend_get (s : State) (k : Nat) (f : SegPend → SegPend) (pg : Nat) (g : F) : (s.updSegPend k f).get pg g = s.get pg g := rfl
theorem State.updSegPend_frame (s : State) (k : Nat) (f : SegPend → SegPend) : s.updSegPend k f = { s with segPend := (s.updSegPend k f).segPend } := rfl

theorem State.atObj_updObj (s : State) (k : Nat) (f : Obj → Obj) (j : Nat) :
    (s.updObj k f).atObj j = if j = k then f (s.atObj k) else s.atObj j := by
  simp [State.atObj, State.updObj, Tab.upd, Tab.get_put]
@[simp] theorem State.updObj_rd (s : State) (k : Nat) (f : Obj → Obj) (a : Nat) : (s.updObj k f).rd a = s.rd a := rfl
@[simp] theorem State.updObj_get (s : State) (k : Nat) (f : Obj → Obj) (pg : Nat) (g : F) : (s.updObj k f).get pg g = s.get pg g := rfl
theorem State.updObj_frame (s : State) (k : Nat) (f : Obj → Obj) : s.updObj k f = { s with objs := (s.updObj k f).objs } := rfl

theorem State.atVec_updVec (s : State) (k : Nat) (f : Vec → Vec) (j : Nat) :
    (s.updVec k f).atVec j = if j = k then f (s.atVec k) else s.atVec j := by
  simp [State.atVec, State.updVec, Tab.upd, Tab.get_put]
@[simp] theorem State.updVec_rd (s : State) (k : Nat) (f : Vec → Vec) (a : Nat) : (s.updVec k f).rd a = s.rd a := rfl
@[simp] theorem State.updVec_get (s : State) (k : Nat) (f : Vec → Vec) (pg : Nat) (g : F) : (s.updVec k f).get pg g = s.get pg g := rfl
theorem State.updVec_frame (s : State) (k : Nat) (f : Vec → Vec) : s.updVec k f = { s with vecs := (s.updVec k f).vecs } := rfl

theorem State.atRebind_updRebind (s : State) (k : Nat) (f : Rebind → Rebind) (j : Nat) :
    (s.updRebind k f).atRebind j = if j = k then f (s.atRebind k) else s.atRebind j := by
  simp [State.atRebind, State.updRebind, Tab.upd, Tab.get_put]
@[simp] theorem State.updRebind_rd (s : State) (k : Nat) (f : Rebind → Rebind) (a : Nat) : (s.updRebind k f).rd a = s.rd a := rfl
@[simp] theorem State.updRebind_get (s : State) (k : Nat) (f : Rebind → Rebind) (pg : Nat) (g : F) : (s.updRebind k f).get pg g = s.get pg g := rfl
theorem State.updRebind_frame (s : State) (k : Nat) (f : Rebind → Rebind) : s.updRebind k f = { s with rebind := (s.updRebind k f).rebind } := rfl

theorem State.atJoin_updJoin (s : State) (k : Nat) (f : JoinSt → JoinSt) (j : Nat) :
    (s.updJoin k f).atJoin j = if j = k then f (s.atJoin k) else s.atJoin j := by
  simp [State.atJoin, State.updJoin, Tab.upd, Tab.get_put]
@[simp] theorem State.updJoin_rd (s : State) (k : Nat) (f : JoinSt → JoinSt) (a : Nat) : (s.updJoin k f).rd a = s.rd a := rfl
@[simp] theorem State.updJoin_get (s : State) (k : Nat) (f : JoinSt → JoinSt) (pg : Nat) (g : F) : (s.updJoin k f).get pg g = s.get pg g := rfl
theorem State.updJoin_frame (s : State) (k : Nat) (f : JoinSt → JoinSt) : s.updJoin k f = { s with joins := (s.updJoin k f).joins } := rfl

theorem State.atCtx_updCtx (s : State) (k : Nat) (f : CtxSt → CtxSt) (j : Nat) :
    (s.updCtx k f).atCtx j = if j = k then f (s.atCtx k) else s.atCtx j := by
  simp [State.atCtx, State.updCtx, Tab.upd, Tab.get_put]
@[simp] theorem State.updCtx_rd (s : State) (k : Nat) (f : CtxSt → CtxSt) (a : Nat) : (s.updCtx k f).rd a = s.rd a := rfl
@[simp] theorem State.updCtx_get (s : State) (k : Nat) (f : CtxSt → CtxSt) (pg : Nat) (g : F) : (s.updCtx k f).get pg g = s.get pg g := rfl
theorem State.updCtx_frame (s : State) (k : Nat) (f : CtxSt → CtxSt) : s.updCtx k f = { s with ctxs := (s.updCtx k f).ctxs } := rfl

theorem State.atPart_updPart (s : State) (k : Nat) (f : PartSt → PartSt) (j : Nat) :
    (s.updPart k f).atPart j = if j = k then f (s.atPart k) else s.atPart j := by
  simp [State.atPart, State.updPart, Tab.upd, Tab.get_put]
@[simp] theorem State.updPart_rd (s : State) (k : Nat) (f : PartSt → PartSt) (a : Nat) : (s.updPart k f).rd a = s.rd a := rfl
@[simp] theorem State.updPart_get (s : State) (k : Nat) (f : PartSt → PartSt) (pg : Nat) (g : F) : (s.updPart k f).get pg g = s.get pg g := rfl
theorem State.updPart_frame (s : State) (k : Nat) (f : PartSt → PartSt) : s.updPart k f = { s with parts := (s.updPart k f).parts } := rfl

theorem State.atLink_updLink (s : State) (k : Nat) (f : LinkSt → LinkSt) (j : Nat) :
    (s.updLink k f).atLink j = if j = k then f (s.atLink k) else s.atLink j := by
  simp [State.atLink, State.updLink, Tab.upd, Tab.get_put]
@[simp] theorem State.updLink_rd (s : State) (k : Nat) (f : LinkSt → LinkSt) (a : Nat) : (s.updLink k f).rd a = s.rd a := rfl
@[simp] theorem State.updLink_get (s : State) (k : Nat) (f : LinkSt → LinkSt) (pg : Nat) (g : F) : (s.updLink k f).get pg g = s.get pg g := rfl
theorem State.updLink_frame (s : State) (k : Nat) (f : LinkSt → LinkSt) : s.updLink k f = { s with links := (s.updLink k f).links } := rfl

theorem State.atTrunk_updTrunk (s : State) (k : Nat) (f : TrunkSt → TrunkSt) (j : Nat) :
    (s.updTrunk k f).atTrunk j = if j = k then f (s.atTrunk k) else s.atTrunk j := by
  simp [State.atTrunk, State.updTrunk, Tab.upd, Tab.get_put]
@[simp] theorem State.updTrunk_rd (s : State) (k : Nat) (f : TrunkSt → TrunkSt) (a : Nat) : (s.updTrunk k f).rd a = s.rd a := rfl
@[simp] theorem State.updTrunk_get (s : State) (k : Nat) (f : TrunkSt → TrunkSt) (pg : Nat) (g : F) : (s.updTrunk k f).get pg g = s.get pg g := rfl
theorem State.updTrunk_frame (s : State) (k : Nat) (f : TrunkSt → TrunkSt) : s.updTrunk k f = { s with trunks := (s.updTrunk k f).trunks } := rfl

theorem State.atRoute_updRoute (s : State) (k : Nat) (f : Route → Route) (j : Nat) :
    (s.updRoute k f).atRoute j = if j = k then f (s.atRoute k) else s.atRoute j := by
  simp [State.atRoute, State.updRoute, Tab.upd, Tab.get_put]
@[simp] theorem State.updRoute_rd (s : State) (k : Nat) (f : Route → Route) (a : Nat) : (s.updRoute k f).rd a = s.rd a := rfl
@[simp] theorem State.updRoute_get (s : State) (k : Nat) (f : Route → Route) (pg : Nat) (g : F) : (s.updRoute k f).get pg g = s.get pg g := rfl
theorem State.updRoute_frame (s : State) (k : Nat) (f : Route → Route) : s.updRoute k f = { s with routes := (s.updRoute k f).routes } := rfl

theorem State.atRegl_updRegl (s : State) (k : Nat) (f : Regl → Regl) (j : Nat) :
    (s.updRegl k f).atRegl j = if j = k then f (s.atRegl k) else s.atRegl j := by
  simp [State.atRegl, State.updRegl, Tab.upd, Tab.get_put]
@[simp] theorem State.updRegl_rd (s : State) (k : Nat) (f : Regl → Regl) (a : Nat) : (s.updRegl k f).rd a = s.rd a := rfl
@[simp] theorem State.updRegl_get (s : State) (k : Nat) (f : Regl → Regl) (pg : Nat) (g : F) : (s.updRegl k f).get pg g = s.get pg g := rfl
theorem State.updRegl_frame (s : State) (k : Nat) (f : Regl → Regl) : s.updRegl k f = { s with regls := (s.updRegl k f).regls } := rfl

end Sys2Proof.Machine
end

