-- ==== Sys2Proof/Laws/Registers.lean ====
section
/-! SUPPORT. Laws of host accesses: where an offset lies, and what the owner's write of a register does. -/

namespace Sys2Proof.Machine

open Sys2Proof

/-! ### Pages (R526) -/

theorem pageAt_glb (o : Nat) (ho : o < 0x1000) : pageAt (Pg.base .glb 0 + o) = some (.glb, 0) := by
  have e : (Pg.base .glb 0 + o) / 0x1000 = 0x10 := by show (0x10000 + o) / 0x1000 = _; omega
  unfold pageAt
  simp only [e]
  rfl

theorem pageAt_map (o : Nat) (ho : o < 0x1000) : pageAt (Pg.base .map 0 + o) = some (.map, 0) := by
  have e : (Pg.base .map 0 + o) / 0x1000 = 0x11 := by show (0x11000 + o) / 0x1000 = _; omega
  unfold pageAt
  simp only [e]
  rfl

theorem pageAt_rcv (o : Nat) (ho : o < 0x1000) : pageAt (Pg.base .rcv 0 + o) = some (.rcv, 0) := by
  have e : (Pg.base .rcv 0 + o) / 0x1000 = 0x12 := by show (0x12000 + o) / 0x1000 = _; omega
  unfold pageAt
  simp only [e]
  rfl

theorem pageAt_dbg (o : Nat) (ho : o < 0x1000) : pageAt (Pg.base .dbg 0 + o) = some (.dbg, 0) := by
  have e : (Pg.base .dbg 0 + o) / 0x1000 = 0x13 := by show (0x13000 + o) / 0x1000 = _; omega
  unfold pageAt
  simp only [e]
  rfl

theorem pageAt_pci (o : Nat) (ho : o < 0x1000) : pageAt (Pg.base .pci 0 + o) = some (.pci, 0) := by
  have e : (Pg.base .pci 0 + o) / 0x1000 = 0x14 := by show (0x14000 + o) / 0x1000 = _; omega
  unfold pageAt
  simp only [e]
  rfl

theorem pageAt_core (i o : Nat) (hi : i < Pg.count .core) (ho : o < 0x1000) : pageAt (Pg.base .core i + o) = some (.core, i) := by
  have hi' : i < 8 := hi
  have e : (Pg.base .core i + o) / 0x1000 = 0x100 + 0x20 * i := by show (0x100000 + 0x20000 * i + o) / 0x1000 = _; omega
  unfold pageAt
  simp only [e]
  repeat rw [if_neg (by omega)]
  rw [if_pos (by omega)]
  (repeat rw [if_neg (by omega)])
  rw [if_pos (by omega)]
  simp only [Option.some.injEq, Prod.mk.injEq, true_and]
  omega

theorem pageAt_shst (i o : Nat) (hi : i < Pg.count .shst) (ho : o < 0x1000) : pageAt (Pg.base .shst i + o) = some (.shst, i) := by
  have hi' : i < 8 := hi
  have e : (Pg.base .shst i + o) / 0x1000 = 0x101 + 0x20 * i := by show (0x101000 + 0x20000 * i + o) / 0x1000 = _; omega
  unfold pageAt
  simp only [e]
  repeat rw [if_neg (by omega)]
  rw [if_pos (by omega)]
  (repeat rw [if_neg (by omega)])
  rw [if_pos (by omega)]
  simp only [Option.some.injEq, Prod.mk.injEq, true_and]
  omega

theorem pageAt_isl (i o : Nat) (hi : i < Pg.count .isl) (ho : o < 0x1000) : pageAt (Pg.base .isl i + o) = some (.isl, i) := by
  have hi' : i < 128 := hi
  have e : (Pg.base .isl i + o) / 0x1000 = 0x102 + 0x20 * (i / 16) + 0x1 * (i % 16) := by show (0x102000 + 0x20000 * (i / 16) + 0x1000 * (i % 16) + o) / 0x1000 = _; omega
  unfold pageAt
  simp only [e]
  repeat rw [if_neg (by omega)]
  rw [if_pos (by omega)]
  (repeat rw [if_neg (by omega)])
  rw [if_pos (by omega)]
  simp only [Option.some.injEq, Prod.mk.injEq, true_and]
  omega

theorem pageAt_memt (i o : Nat) (hi : i < Pg.count .memt) (ho : o < 0x1000) : pageAt (Pg.base .memt i + o) = some (.memt, i) := by
  have hi' : i < 16 := hi
  have e : (Pg.base .memt i + o) / 0x1000 = 0x200 + 0x20 * i := by show (0x200000 + 0x20000 * i + o) / 0x1000 = _; omega
  unfold pageAt
  simp only [e]
  repeat rw [if_neg (by omega)]
  rw [if_pos (by omega)]
  (repeat rw [if_neg (by omega)])
  rw [if_pos (by omega)]
  simp only [Option.some.injEq, Prod.mk.injEq, true_and]
  omega

theorem pageAt_nap (i o : Nat) (hi : i < Pg.count .nap) (ho : o < 0x1000) : pageAt (Pg.base .nap i + o) = some (.nap, i) := by
  have hi' : i < 16 := hi
  have e : (Pg.base .nap i + o) / 0x1000 = 0x201 + 0x20 * i := by show (0x201000 + 0x20000 * i + o) / 0x1000 = _; omega
  unfold pageAt
  simp only [e]
  repeat rw [if_neg (by omega)]
  rw [if_pos (by omega)]
  (repeat rw [if_neg (by omega)])
  rw [if_pos (by omega)]
  simp only [Option.some.injEq, Prod.mk.injEq, true_and]
  omega

theorem pageAt_memc (i o : Nat) (hi : i < Pg.count .memc) (ho : o < 0x1000) : pageAt (Pg.base .memc i + o) = some (.memc, i) := by
  have hi' : i < 256 := hi
  have e : (Pg.base .memc i + o) / 0x1000 = 0x202 + 0x20 * (i / 16) + 0x1 * (i % 16) := by show (0x202000 + 0x20000 * (i / 16) + 0x1000 * (i % 16) + o) / 0x1000 = _; omega
  unfold pageAt
  simp only [e]
  repeat rw [if_neg (by omega)]
  rw [if_pos (by omega)]
  (repeat rw [if_neg (by omega)])
  rw [if_pos (by omega)]
  simp only [Option.some.injEq, Prod.mk.injEq, true_and]
  omega

theorem pageAt_lnk (i o : Nat) (hi : i < Pg.count .lnk) (ho : o < 0x1000) : pageAt (Pg.base .lnk i + o) = some (.lnk, i) := by
  have hi' : i < 36 := hi
  have e : (Pg.base .lnk i + o) / 0x1000 = 0x400 + 0x1 * i := by show (0x400000 + 0x1000 * i + o) / 0x1000 = _; omega
  unfold pageAt
  simp only [e]
  repeat rw [if_neg (by omega)]
  rw [if_pos (by omega)]
  simp only [Option.some.injEq, Prod.mk.injEq, true_and]
  omega

theorem pageAt_rte (o : Nat) (ho : o < 0x1000) : pageAt (Pg.base .rte 0 + o) = some (.rte, 0) := by
  have e : (Pg.base .rte 0 + o) / 0x1000 = 0x480 := by show (0x480000 + o) / 0x1000 = _; omega
  unfold pageAt
  simp only [e]
  rfl

theorem pageAt_part (i o : Nat) (hi : i < Pg.count .part) (ho : o < 0x1000) : pageAt (Pg.base .part i + o) = some (.part, i) := by
  have hi' : i < 32 := hi
  have e : (Pg.base .part i + o) / 0x1000 = 0x500 + 0x1 * i := by show (0x500000 + 0x1000 * i + o) / 0x1000 = _; omega
  unfold pageAt
  simp only [e]
  repeat rw [if_neg (by omega)]
  rw [if_pos (by omega)]
  simp only [Option.some.injEq, Prod.mk.injEq, true_and]
  omega

theorem pageAt_rgl0 (o : Nat) (ho : o < 0x1000) : pageAt (Pg.base .rgl0 0 + o) = some (.rgl0, 0) := by
  have e : (Pg.base .rgl0 0 + o) / 0x1000 = 0x600 := by show (0x600000 + o) / 0x1000 = _; omega
  unfold pageAt
  simp only [e]
  rfl

theorem pageAt_rgl1 (o : Nat) (ho : o < 0x1000) : pageAt (Pg.base .rgl1 0 + o) = some (.rgl1, 0) := by
  have e : (Pg.base .rgl1 0 + o) / 0x1000 = 0x601 := by show (0x601000 + o) / 0x1000 = _; omega
  unfold pageAt
  simp only [e]
  rfl

theorem pageAt_rglp (i o : Nat) (hi : i < Pg.count .rglp) (ho : o < 0x1000) : pageAt (Pg.base .rglp i + o) = some (.rglp, i) := by
  have hi' : i < 32 := hi
  have e : (Pg.base .rglp i + o) / 0x1000 = 0x602 + 0x1 * i := by show (0x602000 + 0x1000 * i + o) / 0x1000 = _; omega
  unfold pageAt
  simp only [e]
  repeat rw [if_neg (by omega)]
  rw [if_pos (by omega)]
  simp only [Option.some.injEq, Prod.mk.injEq, true_and]
  omega

theorem pageAt_pwr (o : Nat) (ho : o < 0x1000) : pageAt (Pg.base .pwr 0 + o) = some (.pwr, 0) := by
  have e : (Pg.base .pwr 0 + o) / 0x1000 = 0x700 := by show (0x700000 + o) / 0x1000 = _; omega
  unfold pageAt
  simp only [e]
  rfl

theorem pageAt_thm (o : Nat) (ho : o < 0x1000) : pageAt (Pg.base .thm 0 + o) = some (.thm, 0) := by
  have e : (Pg.base .thm 0 + o) / 0x1000 = 0x701 := by show (0x701000 + o) / 0x1000 = _; omega
  unfold pageAt
  simp only [e]
  rfl

theorem pageAt_sec (o : Nat) (ho : o < 0x1000) : pageAt (Pg.base .sec 0 + o) = some (.sec, 0) := by
  have e : (Pg.base .sec 0 + o) / 0x1000 = 0x800 := by show (0x800000 + o) / 0x1000 = _; omega
  unfold pageAt
  simp only [e]
  rfl

theorem pageAt_key (i o : Nat) (hi : i < Pg.count .key) (ho : o < 0x1000) : pageAt (Pg.base .key i + o) = some (.key, i) := by
  have hi' : i < 8 := hi
  have e : (Pg.base .key i + o) / 0x1000 = 0x801 + 0x1 * i := by show (0x801000 + 0x1000 * i + o) / 0x1000 = _; omega
  unfold pageAt
  simp only [e]
  repeat rw [if_neg (by omega)]
  rw [if_pos (by omega)]
  simp only [Option.some.injEq, Prod.mk.injEq, true_and]
  omega

theorem pageAt_att (o : Nat) (ho : o < 0x1000) : pageAt (Pg.base .att 0 + o) = some (.att, 0) := by
  have e : (Pg.base .att 0 + o) / 0x1000 = 0x809 := by show (0x809000 + o) / 0x1000 = _; omega
  unfold pageAt
  simp only [e]
  rfl

theorem pageAt_mgmt (o : Nat) (ho : o < 0x1000) : pageAt (Pg.base .mgmt 0 + o) = some (.mgmt, 0) := by
  have e : (Pg.base .mgmt 0 + o) / 0x1000 = 0x900 := by show (0x900000 + o) / 0x1000 = _; omega
  unfold pageAt
  simp only [e]
  rfl

theorem pageAt_splt (o : Nat) (ho : o < 0x1000) : pageAt (Pg.base .splt 0 + o) = some (.splt, 0) := by
  have e : (Pg.base .splt 0 + o) / 0x1000 = 0x901 := by show (0x901000 + o) / 0x1000 = _; omega
  unfold pageAt
  simp only [e]
  rfl

theorem pageAt_ctx (i o : Nat) (hi : i < Pg.count .ctx) (ho : o < 0x1000) : pageAt (Pg.base .ctx i + o) = some (.ctx, i) := by
  have hi' : i < 1024 := hi
  have e : (Pg.base .ctx i + o) / 0x1000 = 0x1000 + 0x1 * i := by show (0x1000000 + 0x1000 * i + o) / 0x1000 = _; omega
  unfold pageAt
  simp only [e]
  repeat rw [if_neg (by omega)]
  rw [if_pos (by omega)]
  simp only [Option.some.injEq, Prod.mk.injEq, true_and]
  omega

theorem pageAt_que (i o : Nat) (hi : i < Pg.count .que) (ho : o < 0x1000) : pageAt (Pg.base .que i + o) = some (.que, i) := by
  have hi' : i < 4096 := hi
  have e : (Pg.base .que i + o) / 0x1000 = 0x2000 + 0x1 * i := by show (0x2000000 + 0x1000 * i + o) / 0x1000 = _; omega
  unfold pageAt
  simp only [e]
  repeat rw [if_neg (by omega)]
  rw [if_pos (by omega)]
  simp only [Option.some.injEq, Prod.mk.injEq, true_and]
  omega

theorem pageAt_fen (i o : Nat) (hi : i < Pg.count .fen) (ho : o < 0x1000) : pageAt (Pg.base .fen i + o) = some (.fen, i) := by
  have hi' : i < 2048 := hi
  have e : (Pg.base .fen i + o) / 0x1000 = 0x3000 + 0x1 * i := by show (0x3000000 + 0x1000 * i + o) / 0x1000 = _; omega
  unfold pageAt
  simp only [e]
  repeat rw [if_neg (by omega)]
  rw [if_pos (by omega)]
  simp only [Option.some.injEq, Prod.mk.injEq, true_and]
  omega

theorem pageAt_evq (i o : Nat) (hi : i < Pg.count .evq) (ho : o < 0x1000) : pageAt (Pg.base .evq i + o) = some (.evq, i) := by
  have hi' : i < 512 := hi
  have e : (Pg.base .evq i + o) / 0x1000 = 0x3800 + 0x1 * i := by show (0x3800000 + 0x1000 * i + o) / 0x1000 = _; omega
  unfold pageAt
  simp only [e]
  repeat rw [if_neg (by omega)]
  rw [if_pos (by omega)]
  simp only [Option.some.injEq, Prod.mk.injEq, true_and]
  omega

/-- Every page starts at a multiple of 4 KiB. -/
theorem base_mod (p : Pg) (i o : Nat) (ho : o < 0x1000) : (p.base i + o) % 0x1000 = o := by
  cases p <;> simp only [Pg.base] <;> omega

/-- Every offset of a page leads to that page. -/
theorem pageAt_base (p : Pg) (i o : Nat) (hi : i < p.count) (ho : o < 0x1000) : pageAt (p.base i + o) = some (p, i) := by
  have one : ∀ n : Nat, n < 1 → n = 0 := by omega
  cases p
  case glb => rw [one i hi]; exact pageAt_glb o ho
  case map => rw [one i hi]; exact pageAt_map o ho
  case rcv => rw [one i hi]; exact pageAt_rcv o ho
  case dbg => rw [one i hi]; exact pageAt_dbg o ho
  case pci => rw [one i hi]; exact pageAt_pci o ho
  case core => exact pageAt_core i o hi ho
  case shst => exact pageAt_shst i o hi ho
  case isl => exact pageAt_isl i o hi ho
  case memt => exact pageAt_memt i o hi ho
  case nap => exact pageAt_nap i o hi ho
  case memc => exact pageAt_memc i o hi ho
  case lnk => exact pageAt_lnk i o hi ho
  case rte => rw [one i hi]; exact pageAt_rte o ho
  case part => exact pageAt_part i o hi ho
  case rgl0 => rw [one i hi]; exact pageAt_rgl0 o ho
  case rgl1 => rw [one i hi]; exact pageAt_rgl1 o ho
  case rglp => exact pageAt_rglp i o hi ho
  case pwr => rw [one i hi]; exact pageAt_pwr o ho
  case thm => rw [one i hi]; exact pageAt_thm o ho
  case sec => rw [one i hi]; exact pageAt_sec o ho
  case key => exact pageAt_key i o hi ho
  case att => rw [one i hi]; exact pageAt_att o ho
  case mgmt => rw [one i hi]; exact pageAt_mgmt o ho
  case splt => rw [one i hi]; exact pageAt_splt o ho
  case ctx => exact pageAt_ctx i o hi ho
  case que => exact pageAt_que i o hi ho
  case fen => exact pageAt_fen i o hi ho
  case evq => exact pageAt_evq i o hi ho

/-- Two places of two pages are the same only when the pages and the offsets are. -/
theorem base_inj {p q : Pg} {i j o o' : Nat} (hi : i < p.count) (hj : j < q.count) (ho : o < 0x1000) (ho' : o' < 0x1000)
    (h : p.base i + o = q.base j + o') : p = q ∧ i = j ∧ o = o' := by
  have a := pageAt_base p i o hi ho
  have c := base_mod p i o ho
  rw [h, pageAt_base q j o' hj ho'] at a
  rw [h, base_mod q j o' ho'] at c
  simp at a
  exact ⟨a.1.symm, a.2.symm, c.symm⟩

/-- A register that the state does not list reads its reset value. -/
theorem State.rd_absent {s : State} {off : Nat} (h : ∀ e ∈ s.regs, e.1 ≠ off) : s.rd off = (resetWord off).toNat := by
  unfold State.rd
  rw [Tab.get_absent _ h]

/-- The reset value of a page's register, its header apart. -/
theorem resetWord_base (p : Pg) (i o : Nat) (hi : i < p.count) (ho : o < 0x1000) (hh : o ≠ 0 ∧ o ≠ 4 ∧ o ≠ 0x20) :
    resetWord (p.base i + o) = ((regAt p o).map (fun r => BitVec.ofNat 32 r.reset)).getD 0 := by
  unfold resetWord
  rw [pageAt_base p i o hi ho]
  simp only [base_mod p i o ho, if_neg hh.1, if_neg hh.2.1, if_neg hh.2.2]
  cases regAt p o <;> rfl

/-! ### Writes by the owner (R522) -/

/-- A 4 B write by the owner of a page that takes writes does what the register's own rule says, and counts in BLK_SEQ when it is
taken (R518, R520). -/
theorem State.write4_own {s : State} {fn : Nat} {p : Pg} {i o : Nat} {r : Reg} (v : Word) (h : s.holds fn p i)
    (hp : pageAt (p.base i + o) = some (p, i)) (ho : o < 0x1000) (hr : regAt p o = some r) (hh : r.half = .single) :
    s.write4 fn (p.base i + o) v.toNat = (let x := s.ownWrite p i o (p.base i + o) r (written p o v)
      if x.2 = true then x.1.bumpSeq (p.base i) else x.1) := by
  obtain ⟨h1, h2, h3⟩ := h
  unfold State.write4
  simp [hp, base_mod p i o ho, hr, hh, State.pageTakes, h1, h2, State.oneWrite, h3, written]

/-- A row of the physical function's writes answers the state after that write. -/
theorem State.rowWrite_pf (s : State) (ok : Bool) (off : Nat) (v : Word) (h : ok = true) :
    s.rowWrite 0 ok off v = .next (s.write4 0 off v.toNat) := by
  simp [State.rowWrite, onUnit, h, skeldor]

/-- A row of a write through a handle answers the state after that write. -/
theorem State.handleWrite_reach (s : State) (fn kind t : Nat) (ok : Bool) (off : Nat) (v : Word) (h : ok = true) (hf : fn < 256)
    (hr : s.reachesPage fn kind t = true) : s.handleWrite fn kind t ok off v = .next (s.write4 fn off v.toNat) := by
  simp [State.handleWrite, onUnit, h, hf, hr]

/-! ### Fields (R6, R7) -/

/-- The fields of a register lie in the word and share no bit. -/
def Reg.sound (r : Reg) : Bool := r.flds.all (fun f => decide (f.lo ≤ f.hi) && decide (f.hi < 32)) &&
  decide (r.flds.Pairwise (fun f g => f.hi < g.lo ∨ g.hi < f.lo))

theorem regs_sound (p : Pg) : (headerRegs ++ p.regs).all Reg.sound = true := by
  cases p <;> decide

theorem regAt_sound {p : Pg} {o : Nat} {r : Reg} (h : regAt p o = some r) : r.sound = true := by
  have hm : r ∈ headerRegs ++ p.regs := by
    unfold regAt at h
    have := List.mem_of_find?_eq_some h
    rw [List.mem_append]
    split at this
    · exact .inl this
    · exact .inr this
  exact List.all_eq_true.mp (regs_sound p) r hm

theorem Fld.put_other (own once : Bool) (v old : Nat) (f g : Fld) (hf : f.lo ≤ f.hi) (hd : f.hi < g.lo ∨ g.hi < f.lo) :
    bitsOf (f.put own once v old) g.hi g.lo = bitsOf old g.hi g.lo := by
  have e := fun x => bitsOf_putBits_disjoint old f.hi f.lo x g.hi g.lo hf hd
  have k : bitsOf (old ||| (bitsOf v f.hi f.lo <<< f.lo)) g.hi g.lo = bitsOf old g.hi g.lo := by
    apply Nat.eq_of_testBit_eq; intro i
    rw [testBit_bitsOf, testBit_bitsOf, Nat.testBit_or, Nat.testBit_shiftLeft, testBit_bitsOf]
    by_cases a : i < g.hi + 1 - g.lo
    · by_cases b : f.lo ≤ g.lo + i
      · have c : ¬ (g.lo + i - f.lo < f.hi + 1 - f.lo) := by omega
        simp [a, b, c]
      · have b' : ¬ g.lo + i ≥ f.lo := b
        simp [a, b']
    · simp [a]
  unfold Fld.put
  cases f.acc <;> simp only [] <;> (try split) <;> first | exact e _ | exact k | rfl

/-- What a field takes depends only on what the field held. -/
theorem Fld.put_self (own once : Bool) (v old old' : Nat) (f : Fld) (hf : f.lo ≤ f.hi) (h : bitsOf old f.hi f.lo = bitsOf old' f.hi f.lo) :
    bitsOf (f.put own once v old) f.hi f.lo = bitsOf (f.put own once v old') f.hi f.lo := by
  have k : ∀ x, bitsOf (x ||| (bitsOf v f.hi f.lo <<< f.lo)) f.hi f.lo = bitsOf x f.hi f.lo ||| bitsOf v f.hi f.lo := by
    intro x
    apply Nat.eq_of_testBit_eq; intro i
    have c : f.lo + i - f.lo = i := by omega
    by_cases a : i < f.hi + 1 - f.lo <;> simp [testBit_bitsOf, a, c]
  unfold Fld.put
  cases f.acc <;> simp only [] <;> (try split) <;> (try simp only [bitsOf_putBits_self _ _ _ _ hf]) <;> (try rw [k, k]) <;> (try rw [h]) <;> (try exact h)

/-- After a write each field of a register holds what it takes alone. -/
theorem fields_put (own once : Bool) (v : Nat) (fs : List Fld) (hs : ∀ g ∈ fs, g.lo ≤ g.hi)
    (hp : fs.Pairwise (fun f g => f.hi < g.lo ∨ g.hi < f.lo)) (f : Fld) (hf : f ∈ fs) (old : Nat) :
    bitsOf (fs.foldl (fun w f => f.put own once v w) old) f.hi f.lo = bitsOf (f.put own once v old) f.hi f.lo := by
  have out : ∀ (gs : List Fld) (w : Nat) (f : Fld), (∀ g ∈ gs, g.lo ≤ g.hi) → (∀ g ∈ gs, g.hi < f.lo ∨ f.hi < g.lo) →
      bitsOf (gs.foldl (fun w f => f.put own once v w) w) f.hi f.lo = bitsOf w f.hi f.lo := by
    intro gs
    induction gs with
    | nil => intros; rfl
    | cons g gs ih =>
      intro w f h1 h2
      simp only [List.foldl_cons]
      rw [ih _ f (fun x hx => h1 x (List.mem_cons_of_mem _ hx)) (fun x hx => h2 x (List.mem_cons_of_mem _ hx)),
        Fld.put_other own once v w g f (h1 g List.mem_cons_self) (h2 g List.mem_cons_self)]
  induction fs generalizing old with
  | nil => cases hf
  | cons g gs ih =>
    rw [List.pairwise_cons] at hp
    simp only [List.foldl_cons]
    have hs' : ∀ g ∈ gs, g.lo ≤ g.hi := fun x hx => hs x (List.mem_cons_of_mem _ hx)
    rcases List.mem_cons.mp hf with rfl | hm
    · exact out gs _ f hs' (fun x hx => (hp.1 x hx).symm)
    · rw [ih hs' hp.2 hm, Fld.put_self own once v _ old f (hs' f hm)]
      exact Fld.put_other own once v old g f (hs g List.mem_cons_self) (hp.1 f hm)

end Sys2Proof.Machine
end

