-- ==== Sys2Proof/Laws/HostWrite.lean ====
section
/-! SUPPORT. What the owner's write of each register with a rule of its own does: one law for each register. -/

namespace Sys2Proof.Machine

open Sys2Proof

theorem State.write_queCtl {s : State} {fn : Nat} (q : Nat) (hi : q < 4096) (v : Word) (h : s.holds fn .que q) :
    s.write4 fn (quePg q + QUE_CTL) v.toNat = (let r : State × Bool := s.queCtlSet q (written .que QUE_CTL v)
      if r.2 = true then r.1.bumpSeq (quePg q) else r.1) := by
  show s.write4 fn (Pg.base .que q + QUE_CTL) v.toNat = _
  rw [State.write4_own v h (pageAt_que q _ hi (by decide)) (by decide) (by rfl) (by rfl)]
  have e : ∀ r, s.ownWrite .que q QUE_CTL (Pg.base .que q + QUE_CTL) r (written .que QUE_CTL v) = s.queCtlSet q (written .que QUE_CTL v) := fun _ => rfl
  rw [e]
  rfl

theorem State.write_queDb {s : State} {fn : Nat} (q : Nat) (hi : q < 4096) (v : Word) (h : s.holds fn .que q) :
    s.write4 fn (quePg q + QUE_DB) v.toNat = (s.doorbell q (written .que QUE_DB v)).bumpSeq (quePg q) := by
  show s.write4 fn (Pg.base .que q + QUE_DB) v.toNat = _
  rw [State.write4_own v h (pageAt_que q _ hi (by decide)) (by decide) (by rfl) (by rfl)]
  have e : ∀ r, s.ownWrite .que q QUE_DB (Pg.base .que q + QUE_DB) r (written .que QUE_DB v) = (s.doorbell q (written .que QUE_DB v), true) := fun _ => rfl
  rw [e]
  rfl

theorem State.write_ctxCtl {s : State} {fn : Nat} (x : Nat) (hi : x < 1024) (v : Word) (h : s.holds fn .ctx x) :
    s.write4 fn (ctxPg x + CTX_CTL) v.toNat = (s.ctxCtlSet x (written .ctx CTX_CTL v)).bumpSeq (ctxPg x) := by
  show s.write4 fn (Pg.base .ctx x + CTX_CTL) v.toNat = _
  rw [State.write4_own v h (pageAt_ctx x _ hi (by decide)) (by decide) (by rfl) (by rfl)]
  have e : ∀ r, s.ownWrite .ctx x CTX_CTL (Pg.base .ctx x + CTX_CTL) r (written .ctx CTX_CTL v) = (s.ctxCtlSet x (written .ctx CTX_CTL v), true) := fun _ => rfl
  rw [e]
  rfl

theorem State.write_objCtl {s : State} {fn : Nat} (x : Nat) (hi : x < 1024) (v : Word) (h : s.holds fn .ctx x) :
    s.write4 fn (ctxPg x + CTX_OBJ_CTL) v.toNat = (s.objCtlSet x (written .ctx CTX_OBJ_CTL v)).bumpSeq (ctxPg x) := by
  show s.write4 fn (Pg.base .ctx x + CTX_OBJ_CTL) v.toNat = _
  rw [State.write4_own v h (pageAt_ctx x _ hi (by decide)) (by decide) (by rfl) (by rfl)]
  have e : ∀ r, s.ownWrite .ctx x CTX_OBJ_CTL (Pg.base .ctx x + CTX_OBJ_CTL) r (written .ctx CTX_OBJ_CTL v) = (s.objCtlSet x (written .ctx CTX_OBJ_CTL v), true) := fun _ => rfl
  rw [e]
  rfl

theorem State.write_ctxEvqHead {s : State} {fn : Nat} (x : Nat) (hi : x < 1024) (v : Word) (h : s.holds fn .ctx x) :
    s.write4 fn (ctxPg x + CTX_EVQ_HEAD) v.toNat = (let r : State × Bool := s.evqMirrorSet x (written .ctx CTX_EVQ_HEAD v)
      if r.2 = true then r.1.bumpSeq (ctxPg x) else r.1) := by
  show s.write4 fn (Pg.base .ctx x + CTX_EVQ_HEAD) v.toNat = _
  rw [State.write4_own v h (pageAt_ctx x _ hi (by decide)) (by decide) (by rfl) (by rfl)]
  have e : ∀ r, s.ownWrite .ctx x CTX_EVQ_HEAD (Pg.base .ctx x + CTX_EVQ_HEAD) r (written .ctx CTX_EVQ_HEAD v) = s.evqMirrorSet x (written .ctx CTX_EVQ_HEAD v) := fun _ => rfl
  rw [e]
  rfl

theorem State.write_evqCtl {s : State} {fn : Nat} (e : Nat) (hi : e < 512) (v : Word) (h : s.holds fn .evq e) :
    s.write4 fn (evqPg e + EVQ_CTL) v.toNat = (let r : State × Bool := s.evqCtlSet e (written .evq EVQ_CTL v)
      if r.2 = true then r.1.bumpSeq (evqPg e) else r.1) := by
  show s.write4 fn (Pg.base .evq e + EVQ_CTL) v.toNat = _
  rw [State.write4_own v h (pageAt_evq e _ hi (by decide)) (by decide) (by rfl) (by rfl)]
  have e : ∀ r, s.ownWrite .evq e EVQ_CTL (Pg.base .evq e + EVQ_CTL) r (written .evq EVQ_CTL v) = s.evqCtlSet e (written .evq EVQ_CTL v) := fun _ => rfl
  rw [e]
  rfl

theorem State.write_evqHead {s : State} {fn : Nat} (e : Nat) (hi : e < 512) (v : Word) (h : s.holds fn .evq e) :
    s.write4 fn (evqPg e + EVQ_HEAD) v.toNat = (s.evqHead e (written .evq EVQ_HEAD v)).bumpSeq (evqPg e) := by
  show s.write4 fn (Pg.base .evq e + EVQ_HEAD) v.toNat = _
  rw [State.write4_own v h (pageAt_evq e _ hi (by decide)) (by decide) (by rfl) (by rfl)]
  have e : ∀ r, s.ownWrite .evq e EVQ_HEAD (Pg.base .evq e + EVQ_HEAD) r (written .evq EVQ_HEAD v) = (s.evqHead e (written .evq EVQ_HEAD v), true) := fun _ => rfl
  rw [e]
  rfl

theorem State.write_evqFn {s : State} {fn : Nat} (v : Word) (h : s.holds fn .glb 0) :
    s.write4 fn (glbPg + GLB_EVQ_FN) v.toNat = (let r : State × Bool := s.evqFnSet (written .glb GLB_EVQ_FN v)
      if r.2 = true then r.1.bumpSeq (glbPg) else r.1) := by
  show s.write4 fn (Pg.base .glb 0 + GLB_EVQ_FN) v.toNat = _
  rw [State.write4_own v h (pageAt_glb _ (by decide)) (by decide) (by rfl) (by rfl)]
  have e : ∀ r, s.ownWrite .glb 0 GLB_EVQ_FN (Pg.base .glb 0 + GLB_EVQ_FN) r (written .glb GLB_EVQ_FN v) = s.evqFnSet (written .glb GLB_EVQ_FN v) := fun _ => rfl
  rw [e]
  rfl

theorem State.write_partCtl {s : State} {fn : Nat} (p : Nat) (hi : p < 32) (v : Word) (h : s.holds fn .part p) :
    s.write4 fn (partPg p + PART_CTL) v.toNat = (s.partCtlSet p (written .part PART_CTL v)).bumpSeq (partPg p) := by
  show s.write4 fn (Pg.base .part p + PART_CTL) v.toNat = _
  rw [State.write4_own v h (pageAt_part p _ hi (by decide)) (by decide) (by rfl) (by rfl)]
  have e : ∀ r, s.ownWrite .part p PART_CTL (Pg.base .part p + PART_CTL) r (written .part PART_CTL v) = (s.partCtlSet p (written .part PART_CTL v), true) := fun _ => rfl
  rw [e]
  rfl

theorem State.write_rebindCtl {s : State} {fn : Nat} (p : Nat) (hi : p < 32) (v : Word) (h : s.holds fn .part p) :
    s.write4 fn (partPg p + PART_REBIND_CTL_OP.off) v.toNat = (s.rebindCtlWrite p (written .part PART_REBIND_CTL_OP.off v)).bumpSeq (partPg p) := by
  show s.write4 fn (Pg.base .part p + PART_REBIND_CTL_OP.off) v.toNat = _
  rw [State.write4_own v h (pageAt_part p _ hi (by decide)) (by decide) (by rfl) (by rfl)]
  have e : ∀ r, s.ownWrite .part p PART_REBIND_CTL_OP.off (Pg.base .part p + PART_REBIND_CTL_OP.off) r (written .part PART_REBIND_CTL_OP.off v) = (s.rebindCtlWrite p (written .part PART_REBIND_CTL_OP.off v), true) := fun _ => rfl
  rw [e]
  rfl

theorem State.write_fnCtl {s : State} {fn : Nat} (p : Nat) (hi : p < 32) (v : Word) (h : s.holds fn .part p) :
    s.write4 fn (partPg p + PART_FN_CTL_FUNCTION.off) v.toNat = (s.fnCtlWrite p (written .part PART_FN_CTL_FUNCTION.off v)).bumpSeq (partPg p) := by
  show s.write4 fn (Pg.base .part p + PART_FN_CTL_FUNCTION.off) v.toNat = _
  rw [State.write4_own v h (pageAt_part p _ hi (by decide)) (by decide) (by rfl) (by rfl)]
  have e : ∀ r, s.ownWrite .part p PART_FN_CTL_FUNCTION.off (Pg.base .part p + PART_FN_CTL_FUNCTION.off) r (written .part PART_FN_CTL_FUNCTION.off v) = (s.fnCtlWrite p (written .part PART_FN_CTL_FUNCTION.off v), true) := fun _ => rfl
  rw [e]
  rfl

theorem State.write_mapData {s : State} {fn : Nat} (p : Nat) (hi : p < 32) (v : Word) (h : s.holds fn .part p) :
    s.write4 fn (partPg p + PART_MAP_DATA) v.toNat = (s.handleMapWrite p (written .part PART_MAP_DATA v)).bumpSeq (partPg p) := by
  show s.write4 fn (Pg.base .part p + PART_MAP_DATA) v.toNat = _
  rw [State.write4_own v h (pageAt_part p _ hi (by decide)) (by decide) (by rfl) (by rfl)]
  have e : ∀ r, s.ownWrite .part p PART_MAP_DATA (Pg.base .part p + PART_MAP_DATA) r (written .part PART_MAP_DATA v) = (s.handleMapWrite p (written .part PART_MAP_DATA v), true) := fun _ => rfl
  rw [e]
  rfl

theorem State.write_rtMask {s : State} {fn : Nat} (p : Nat) (hi : p < 32) (v : Word) (h : s.holds fn .part p) :
    s.write4 fn (partPg p + PART_RT_MASK) v.toNat = (let r : State × Bool := s.rtMaskWrite p (written .part PART_RT_MASK v)
      if r.2 = true then r.1.bumpSeq (partPg p) else r.1) := by
  show s.write4 fn (Pg.base .part p + PART_RT_MASK) v.toNat = _
  rw [State.write4_own v h (pageAt_part p _ hi (by decide)) (by decide) (by rfl) (by rfl)]
  have e : ∀ r, s.ownWrite .part p PART_RT_MASK (Pg.base .part p + PART_RT_MASK) r (written .part PART_RT_MASK v) = s.rtMaskWrite p (written .part PART_RT_MASK v) := fun _ => rfl
  rw [e]
  rfl

theorem State.write_rlCtl {s : State} {fn : Nat} (p : Nat) (hi : p < 32) (v : Word) (h : s.holds fn .part p) :
    s.write4 fn (partPg p + PART_RL_CTL) v.toNat = (let t := if bitOf (written .part PART_RL_CTL v) 2 then s.set (partPg p) PART_RL_CTL_RL_ERR 0 else s
      if bitOf (written .part PART_RL_CTL v) 0 then t.runListSwap p else t).bumpSeq (partPg p) := by
  show s.write4 fn (Pg.base .part p + PART_RL_CTL) v.toNat = _
  rw [State.write4_own v h (pageAt_part p _ hi (by decide)) (by decide) (by rfl) (by rfl)]
  have e : ∀ r, s.ownWrite .part p PART_RL_CTL (Pg.base .part p + PART_RL_CTL) r (written .part PART_RL_CTL v) = (let t := if bitOf (written .part PART_RL_CTL v) 2 then s.set (partPg p) PART_RL_CTL_RL_ERR 0 else s
      if bitOf (written .part PART_RL_CTL v) 0 then t.runListSwap p else t, true) := fun _ => rfl
  rw [e]
  rfl

theorem State.write_partDlog {s : State} {fn : Nat} (p : Nat) (hi : p < 32) (v : Word) (h : s.holds fn .part p) :
    s.write4 fn (partPg p + PART_DLOG_CTL_ENABLE.off) v.toNat = (let t := s.mark (partPg p) PART_DLOG_CTL_ENABLE (bitOf (written .part PART_DLOG_CTL_ENABLE.off v) 0)
      if bitOf (written .part PART_DLOG_CTL_ENABLE.off v) 1 ∧ t.on (partPg p) PART_DLOG_CTL_FLIP_BUSY = false then t.deviceDlogFlip p else t).bumpSeq (partPg p) := by
  show s.write4 fn (Pg.base .part p + PART_DLOG_CTL_ENABLE.off) v.toNat = _
  rw [State.write4_own v h (pageAt_part p _ hi (by decide)) (by decide) (by rfl) (by rfl)]
  have e : ∀ r, s.ownWrite .part p PART_DLOG_CTL_ENABLE.off (Pg.base .part p + PART_DLOG_CTL_ENABLE.off) r (written .part PART_DLOG_CTL_ENABLE.off v) = (let t := s.mark (partPg p) PART_DLOG_CTL_ENABLE (bitOf (written .part PART_DLOG_CTL_ENABLE.off v) 0)
      if bitOf (written .part PART_DLOG_CTL_ENABLE.off v) 1 ∧ t.on (partPg p) PART_DLOG_CTL_FLIP_BUSY = false then t.deviceDlogFlip p else t, true) := fun _ => rfl
  rw [e]
  rfl

theorem State.write_lnkCtl {s : State} {fn : Nat} (p : Nat) (hi : p < 36) (v : Word) (h : s.holds fn .lnk p) :
    s.write4 fn (lnkPg p + LNK_CTL) v.toNat = (s.lnkCtlSet p (written .lnk LNK_CTL v)).bumpSeq (lnkPg p) := by
  show s.write4 fn (Pg.base .lnk p + LNK_CTL) v.toNat = _
  rw [State.write4_own v h (pageAt_lnk p _ hi (by decide)) (by decide) (by rfl) (by rfl)]
  have e : ∀ r, s.ownWrite .lnk p LNK_CTL (Pg.base .lnk p + LNK_CTL) r (written .lnk LNK_CTL v) = (s.lnkCtlSet p (written .lnk LNK_CTL v), true) := fun _ => rfl
  rw [e]
  rfl

theorem State.write_rteSelf {s : State} {fn : Nat} (v : Word) (h : s.holds fn .rte 0) :
    s.write4 fn (rtePg + RTE_SELF) v.toNat = (s.selfSet (written .rte RTE_SELF v)).bumpSeq (rtePg) := by
  show s.write4 fn (Pg.base .rte 0 + RTE_SELF) v.toNat = _
  rw [State.write4_own v h (pageAt_rte _ (by decide)) (by decide) (by rfl) (by rfl)]
  have e : ∀ r, s.ownWrite .rte 0 RTE_SELF (Pg.base .rte 0 + RTE_SELF) r (written .rte RTE_SELF v) = (s.selfSet (written .rte RTE_SELF v), true) := fun _ => rfl
  rw [e]
  rfl

theorem State.write_rteData {s : State} {fn : Nat} (v : Word) (h : s.holds fn .rte 0) :
    s.write4 fn (rtePg + RTE_DATA) v.toNat = (s.rteWrite (written .rte RTE_DATA v)).bumpSeq (rtePg) := by
  show s.write4 fn (Pg.base .rte 0 + RTE_DATA) v.toNat = _
  rw [State.write4_own v h (pageAt_rte _ (by decide)) (by decide) (by rfl) (by rfl)]
  have e : ∀ r, s.ownWrite .rte 0 RTE_DATA (Pg.base .rte 0 + RTE_DATA) r (written .rte RTE_DATA v) = (s.rteWrite (written .rte RTE_DATA v), true) := fun _ => rfl
  rw [e]
  rfl

theorem State.write_cntSel {s : State} {fn : Nat} (v : Word) (h : s.holds fn .rgl1 0) :
    s.write4 fn (rglFwd + RGL_CNT_SEL) v.toNat = (s.counterSnapshot (written .rgl1 RGL_CNT_SEL v)).bumpSeq (rglFwd) := by
  show s.write4 fn (Pg.base .rgl1 0 + RGL_CNT_SEL) v.toNat = _
  rw [State.write4_own v h (pageAt_rgl1 _ (by decide)) (by decide) (by rfl) (by rfl)]
  have e : ∀ r, s.ownWrite .rgl1 0 RGL_CNT_SEL (Pg.base .rgl1 0 + RGL_CNT_SEL) r (written .rgl1 RGL_CNT_SEL v) = (s.counterSnapshot (written .rgl1 RGL_CNT_SEL v), true) := fun _ => by simp [State.ownWrite, State.writable, RGL_CNT_SEL]
  rw [e]
  rfl

theorem State.write_secProtect {s : State} {fn : Nat} (v : Word) (h : s.holds fn .sec 0) :
    s.write4 fn (secPg + SEC_PROTECT) v.toNat = (s.secProtectSet (written .sec SEC_PROTECT v)).bumpSeq (secPg) := by
  show s.write4 fn (Pg.base .sec 0 + SEC_PROTECT) v.toNat = _
  rw [State.write4_own v h (pageAt_sec _ (by decide)) (by decide) (by rfl) (by rfl)]
  have e : ∀ r, s.ownWrite .sec 0 SEC_PROTECT (Pg.base .sec 0 + SEC_PROTECT) r (written .sec SEC_PROTECT v) = (s.secProtectSet (written .sec SEC_PROTECT v), true) := fun _ => rfl
  rw [e]
  rfl

theorem State.write_secKlock {s : State} {fn : Nat} (v : Word) (h : s.holds fn .sec 0) :
    s.write4 fn (secPg + SEC_KLOCK) v.toNat = (s.keyLockSet (written .sec SEC_KLOCK v)).bumpSeq (secPg) := by
  show s.write4 fn (Pg.base .sec 0 + SEC_KLOCK) v.toNat = _
  rw [State.write4_own v h (pageAt_sec _ (by decide)) (by decide) (by rfl) (by rfl)]
  have e : ∀ r, s.ownWrite .sec 0 SEC_KLOCK (Pg.base .sec 0 + SEC_KLOCK) r (written .sec SEC_KLOCK v) = (s.keyLockSet (written .sec SEC_KLOCK v), true) := fun _ => rfl
  rw [e]
  rfl

theorem State.write_secUnlock {s : State} {fn : Nat} (v : Word) (h : s.holds fn .sec 0) :
    s.write4 fn (secPg + SEC_UNLOCK_GO.off) v.toNat = (s.keyUnlock (written .sec SEC_UNLOCK_GO.off v)).bumpSeq (secPg) := by
  show s.write4 fn (Pg.base .sec 0 + SEC_UNLOCK_GO.off) v.toNat = _
  rw [State.write4_own v h (pageAt_sec _ (by decide)) (by decide) (by rfl) (by rfl)]
  have e : ∀ r, s.ownWrite .sec 0 SEC_UNLOCK_GO.off (Pg.base .sec 0 + SEC_UNLOCK_GO.off) r (written .sec SEC_UNLOCK_GO.off v) = (s.keyUnlock (written .sec SEC_UNLOCK_GO.off v), true) := fun _ => rfl
  rw [e]
  rfl

theorem State.write_secFwCtl {s : State} {fn : Nat} (v : Word) (h : s.holds fn .sec 0) :
    s.write4 fn (secPg + SEC_FW_CTL) v.toNat = (if bitOf (written .sec SEC_FW_CTL v) 0 then s.commitSvn else s).bumpSeq (secPg) := by
  show s.write4 fn (Pg.base .sec 0 + SEC_FW_CTL) v.toNat = _
  rw [State.write4_own v h (pageAt_sec _ (by decide)) (by decide) (by rfl) (by rfl)]
  have e : ∀ r, s.ownWrite .sec 0 SEC_FW_CTL (Pg.base .sec 0 + SEC_FW_CTL) r (written .sec SEC_FW_CTL v) = (if bitOf (written .sec SEC_FW_CTL v) 0 then s.commitSvn else s, true) := fun _ => rfl
  rw [e]
  rfl

theorem State.write_rcvApprove {s : State} {fn : Nat} (v : Word) (h : s.holds fn .rcv 0) :
    s.write4 fn (rcvPg + GLB_RCV_APPROVE) v.toNat = (s.approveSet (written .rcv GLB_RCV_APPROVE v)).bumpSeq (rcvPg) := by
  show s.write4 fn (Pg.base .rcv 0 + GLB_RCV_APPROVE) v.toNat = _
  rw [State.write4_own v h (pageAt_rcv _ (by decide)) (by decide) (by rfl) (by rfl)]
  have e : ∀ r, s.ownWrite .rcv 0 GLB_RCV_APPROVE (Pg.base .rcv 0 + GLB_RCV_APPROVE) r (written .rcv GLB_RCV_APPROVE v) = (s.approveSet (written .rcv GLB_RCV_APPROVE v), true) := fun _ => rfl
  rw [e]
  rfl

theorem State.write_crumbCtl {s : State} {fn : Nat} (v : Word) (h : s.holds fn .rcv 0) :
    s.write4 fn (rcvPg + GLB_CRUMB_CTL) v.toNat = (let t := s.set rcvPg GLB_CRUMB_CTL_SIZE (written .rcv GLB_CRUMB_CTL v)
      if bitOf (written .rcv GLB_CRUMB_CTL v) 16 then t.crumbClear else t).bumpSeq (rcvPg) := by
  show s.write4 fn (Pg.base .rcv 0 + GLB_CRUMB_CTL) v.toNat = _
  rw [State.write4_own v h (pageAt_rcv _ (by decide)) (by decide) (by rfl) (by rfl)]
  have e : ∀ r, s.ownWrite .rcv 0 GLB_CRUMB_CTL (Pg.base .rcv 0 + GLB_CRUMB_CTL) r (written .rcv GLB_CRUMB_CTL v) = (let t := s.set rcvPg GLB_CRUMB_CTL_SIZE (written .rcv GLB_CRUMB_CTL v)
      if bitOf (written .rcv GLB_CRUMB_CTL v) 16 then t.crumbClear else t, true) := fun _ => rfl
  rw [e]
  rfl

theorem State.write_retireReq {s : State} {fn : Nat} (v : Word) (h : s.holds fn .rcv 0) :
    s.write4 fn (rcvPg + GLB_RETIRE_REQ_GO.off) v.toNat = (let t := (s.set rcvPg GLB_RETIRE_REQ_TYPE (written .rcv GLB_RETIRE_REQ_GO.off v)).set rcvPg GLB_RETIRE_REQ_INDEX ((written .rcv GLB_RETIRE_REQ_GO.off v) / 256)
      if bitOf (written .rcv GLB_RETIRE_REQ_GO.off v) 16 then t.retireRequest else t).bumpSeq (rcvPg) := by
  show s.write4 fn (Pg.base .rcv 0 + GLB_RETIRE_REQ_GO.off) v.toNat = _
  rw [State.write4_own v h (pageAt_rcv _ (by decide)) (by decide) (by rfl) (by rfl)]
  have e : ∀ r, s.ownWrite .rcv 0 GLB_RETIRE_REQ_GO.off (Pg.base .rcv 0 + GLB_RETIRE_REQ_GO.off) r (written .rcv GLB_RETIRE_REQ_GO.off v) = (let t := (s.set rcvPg GLB_RETIRE_REQ_TYPE (written .rcv GLB_RETIRE_REQ_GO.off v)).set rcvPg GLB_RETIRE_REQ_INDEX ((written .rcv GLB_RETIRE_REQ_GO.off v) / 256)
      if bitOf (written .rcv GLB_RETIRE_REQ_GO.off v) 16 then t.retireRequest else t, true) := fun _ => rfl
  rw [e]
  rfl

theorem State.write_testCtl {s : State} {fn : Nat} (v : Word) (h : s.holds fn .dbg 0) :
    s.write4 fn (dbgPg + DBG_TEST_CTL) v.toNat = (s.testMode (bitOf (written .dbg DBG_TEST_CTL v) 0)).bumpSeq (dbgPg) := by
  show s.write4 fn (Pg.base .dbg 0 + DBG_TEST_CTL) v.toNat = _
  rw [State.write4_own v h (pageAt_dbg _ (by decide)) (by decide) (by rfl) (by rfl)]
  have e : ∀ r, s.ownWrite .dbg 0 DBG_TEST_CTL (Pg.base .dbg 0 + DBG_TEST_CTL) r (written .dbg DBG_TEST_CTL v) = (s.testMode (bitOf (written .dbg DBG_TEST_CTL v) 0), true) := fun _ => rfl
  rw [e]
  rfl

theorem State.write_dbgHalt {s : State} {fn : Nat} (v : Word) (h : s.holds fn .dbg 0) :
    s.write4 fn (dbgPg + DBG_HALT) v.toNat = (let t := s.set dbgPg DBG_HALT_ISLAND ((written .dbg DBG_HALT v) % 256)
      let t := if bitOf (written .dbg DBG_HALT v) 8 then t.islandHalt ((written .dbg DBG_HALT v) % 256) else t
      if bitOf (written .dbg DBG_HALT v) 9 then t.islandResume ((written .dbg DBG_HALT v) % 256) else t).bumpSeq (dbgPg) := by
  show s.write4 fn (Pg.base .dbg 0 + DBG_HALT) v.toNat = _
  rw [State.write4_own v h (pageAt_dbg _ (by decide)) (by decide) (by rfl) (by rfl)]
  have e : ∀ r, s.ownWrite .dbg 0 DBG_HALT (Pg.base .dbg 0 + DBG_HALT) r (written .dbg DBG_HALT v) = (let t := s.set dbgPg DBG_HALT_ISLAND ((written .dbg DBG_HALT v) % 256)
      let t := if bitOf (written .dbg DBG_HALT v) 8 then t.islandHalt ((written .dbg DBG_HALT v) % 256) else t
      if bitOf (written .dbg DBG_HALT v) 9 then t.islandResume ((written .dbg DBG_HALT v) % 256) else t, true) := fun _ => rfl
  rw [e]
  rfl

theorem State.write_dbgAcc {s : State} {fn : Nat} (v : Word) (h : s.holds fn .dbg 0) :
    s.write4 fn (dbgPg + DBG_ACC_CTL_READ.off) v.toNat = (let t := if bitOf (written .dbg DBG_ACC_CTL_READ.off v) 0 then s.dbgReadReq else s
      if bitOf (written .dbg DBG_ACC_CTL_READ.off v) 1 then t.dbgWriteReq else t).bumpSeq (dbgPg) := by
  show s.write4 fn (Pg.base .dbg 0 + DBG_ACC_CTL_READ.off) v.toNat = _
  rw [State.write4_own v h (pageAt_dbg _ (by decide)) (by decide) (by rfl) (by rfl)]
  have e : ∀ r, s.ownWrite .dbg 0 DBG_ACC_CTL_READ.off (Pg.base .dbg 0 + DBG_ACC_CTL_READ.off) r (written .dbg DBG_ACC_CTL_READ.off v) = (let t := if bitOf (written .dbg DBG_ACC_CTL_READ.off v) 0 then s.dbgReadReq else s
      if bitOf (written .dbg DBG_ACC_CTL_READ.off v) 1 then t.dbgWriteReq else t, true) := fun _ => rfl
  rw [e]
  rfl

theorem State.write_pciDlog {s : State} {fn : Nat} (v : Word) (h : s.holds fn .pci 0) :
    s.write4 fn (pciPg + PCI_DLOG_CTL_ENABLE.off) v.toNat = (s.dlogSet (written .pci PCI_DLOG_CTL_ENABLE.off v)).bumpSeq (pciPg) := by
  show s.write4 fn (Pg.base .pci 0 + PCI_DLOG_CTL_ENABLE.off) v.toNat = _
  rw [State.write4_own v h (pageAt_pci _ (by decide)) (by decide) (by rfl) (by rfl)]
  have e : ∀ r, s.ownWrite .pci 0 PCI_DLOG_CTL_ENABLE.off (Pg.base .pci 0 + PCI_DLOG_CTL_ENABLE.off) r (written .pci PCI_DLOG_CTL_ENABLE.off v) = (s.dlogSet (written .pci PCI_DLOG_CTL_ENABLE.off v), true) := fun _ => rfl
  rw [e]
  rfl


/-! ### Registers of which a page has several -/

theorem regAt_region (r : Nat) (h : r < 64) : regAt .map (0x400 + 16 * r) = some ⟨0x400, 64, 16, .single, [⟨0, 0, .rwl, 0⟩, ⟨5, 1, .rwl, 0⟩, ⟨11, 6, .rwl, 0⟩]⟩ := by
  interval_cases r <;> rfl

theorem State.write_region {s : State} {fn : Nat} (r : Nat) (hi : r < 64) (v : Word) (h : s.holds fn .map 0) :
    s.write4 fn (regionAt r + GLB_REGION_0) v.toNat = (let x := s.regionWrite r 0 (written .map (0x400 + 16 * r) v)
      if x.2 = true then x.1 else x.1.bumpSeq mapPg) := by
  have ho : 0x400 + 16 * r < 0x1000 := by omega
  have ea : regionAt r + GLB_REGION_0 = Pg.base .map 0 + (0x400 + 16 * r) := by
    show mapPg + 16 * r + 0x400 = mapPg + (0x400 + 16 * r); omega
  rw [ea, State.write4_own v h (pageAt_map _ ho) ho (regAt_region r hi) rfl]
  have e : ∀ q, s.ownWrite .map 0 (0x400 + 16 * r) (Pg.base .map 0 + (0x400 + 16 * r)) q (written .map (0x400 + 16 * r) v) =
      ((s.regionWrite r 0 (written .map (0x400 + 16 * r) v)).1, !(s.regionWrite r 0 (written .map (0x400 + 16 * r) v)).2) := by
    intro q
    have h1 : ¬ 0x400 + 16 * r < 0x40 := by omega
    have h2 : ¬ 0x800 ≤ 0x400 + 16 * r := by omega
    have h3 : (0x400 + 16 * r - 0x400) / 16 = r := by omega
    have h4 : (0x400 + 16 * r) % 16 / 4 = 0 := by omega
    simp [State.ownWrite, State.writable, State.mapSet, h1, h2, h3, h4]
  rw [e]
  cases hb : (s.regionWrite r 0 (written .map (0x400 + 16 * r) v)).2 <;> simp [hb] <;> rfl

theorem regAt_seg6 (g : Nat) (h : g < 8) : ∃ r, regAt .ctx (0x218 + 32 * g) = some r ∧ r.half = .single := by
  interval_cases g <;> exact ⟨_, rfl, rfl⟩

theorem State.write_seg6 {s : State} {fn : Nat} (x : Nat) (hi : x < 1024) (g : Nat) (hg : g < 8) (v : Word) (h : s.holds fn .ctx x) :
    s.write4 fn (segAt x g + CTX_SEG_6) v.toNat =
      (let t := if bitOf (written .ctx (0x218 + 32 * g) v) 17 then s.segCancel x g else s
       if bitOf (written .ctx (0x218 + 32 * g) v) 31 then t.segCommit x g else t).bumpSeq (ctxPg x) := by
  have ho : 0x218 + 32 * g < 0x1000 := by omega
  have ea : segAt x g + CTX_SEG_6 = Pg.base .ctx x + (0x218 + 32 * g) := by
    show ctxPg x + 32 * g + 0x218 = ctxPg x + (0x218 + 32 * g); omega
  obtain ⟨r, hr, hh⟩ := regAt_seg6 g hg
  rw [ea, State.write4_own v h (pageAt_ctx x _ hi ho) ho hr hh]
  have e : s.ownWrite .ctx x (0x218 + 32 * g) (Pg.base .ctx x + (0x218 + 32 * g)) r (written .ctx (0x218 + 32 * g) v) =
      (let t := if bitOf (written .ctx (0x218 + 32 * g) v) 17 then s.segCancel x g else s
       if bitOf (written .ctx (0x218 + 32 * g) v) 31 then t.segCommit x g else t, true) := by
    have h1 : ¬ 0x218 + 32 * g < 0x40 := by omega
    have h2 : ¬ 0x218 + 32 * g = 0x190 := by omega
    have h3 : ¬ 0x218 + 32 * g = 0x040 := by omega
    have h4 : ¬ 0x218 + 32 * g = 0x140 := by omega
    have h5 : 0x200 ≤ 0x218 + 32 * g ∧ 0x218 + 32 * g < 0x300 := by omega
    have h6 : (0x218 + 32 * g) % 0x100 / 32 = g := by omega
    have h7 : (0x218 + 32 * g) % 32 = 0x18 := by omega
    have h8 : ¬ 0x218 + 32 * g = 0x168 := by omega
    have h9 : ¬ 0x218 + 32 * g = CTX_SAVE_CTL := by simp only [CTX_SAVE_CTL]; omega
    simp [State.ownWrite, State.writable, State.segSet, CTX_EVQ_HEAD, CTX_CTL, CTX_OBJ_CTL, h1, h2, h3, h4, h5, h6, h7, h9]
  rw [e]
  rfl

theorem regAt_fence (k : Nat) (h : k < 32) : ∃ r, regAt .fen (0x114 + 64 * k) = some r ∧ r.half = .single := by
  interval_cases k <;> exact ⟨_, rfl, rfl⟩

theorem State.write_fence {s : State} {fn : Nat} (f : Nat) (hf : f < 65536) (v : Word) (h : s.holds fn .fen (f / 32)) :
    s.write4 fn (fenAt f + FEN_CTL) v.toNat = (s.fenCtlSet f (written .fen (0x114 + 64 * (f % 32)) v)).bumpSeq (Pg.base .fen (f / 32)) := by
  have hk : f % 32 < 32 := Nat.mod_lt _ (by decide)
  have hi : f / 32 < Pg.count .fen := by show f / 32 < 2048; omega
  have ho : 0x114 + 64 * (f % 32) < 0x1000 := by omega
  have ea : fenAt f + FEN_CTL = Pg.base .fen (f / 32) + (0x114 + 64 * (f % 32)) := by
    show Pg.base .fen (f / 32) + 64 * (f % 32) + 0x114 = _; omega
  obtain ⟨r, hr, hh⟩ := regAt_fence (f % 32) hk
  rw [ea, State.write4_own v h (pageAt_fen _ _ hi ho) ho hr hh]
  have e : s.ownWrite .fen (f / 32) (0x114 + 64 * (f % 32)) (Pg.base .fen (f / 32) + (0x114 + 64 * (f % 32))) r (written .fen (0x114 + 64 * (f % 32)) v) =
      (s.fenCtlSet f (written .fen (0x114 + 64 * (f % 32)) v), true) := by
    have h1 : ¬ 0x114 + 64 * (f % 32) < 0x40 := by omega
    have h2 : (0x114 + 64 * (f % 32)) % 64 = 20 := by omega
    have h3 : f / 32 * 32 + (0x114 + 64 * (f % 32) - 0x100) / 64 = f := by omega
    have h4 : 0x114 % 64 = 20 := rfl
    simp [State.ownWrite, State.writable, FEN_SRC, FEN_CTL, h1, h2, h3]
  rw [e]
  rfl

theorem regAt_key (k : Nat) (h : k < 32) : ∃ r, regAt .key (0x100 + 64 * k) = some r ∧ r.half = .single := by
  interval_cases k <;> exact ⟨_, rfl, rfl⟩

theorem State.write_keyCtl {s : State} {fn : Nat} (k : Nat) (hk : k < 256) (v : Word) (h : s.holds fn .key (k / 32)) :
    s.write4 fn (keyAt k + KEY_CTL) v.toNat = (s.keyCtlWrite k (written .key (0x100 + 64 * (k % 32)) v)).bumpSeq (Pg.base .key (k / 32)) := by
  have hm : k % 32 < 32 := Nat.mod_lt _ (by decide)
  have hi : k / 32 < Pg.count .key := by show k / 32 < 8; omega
  have ho : 0x100 + 64 * (k % 32) < 0x1000 := by omega
  have ea : keyAt k + KEY_CTL = Pg.base .key (k / 32) + (0x100 + 64 * (k % 32)) := by
    show Pg.base .key (k / 32) + 64 * (k % 32) + 0x100 = _; omega
  obtain ⟨r, hr, hh⟩ := regAt_key (k % 32) hm
  rw [ea, State.write4_own v h (pageAt_key _ _ hi ho) ho hr hh]
  have e : s.ownWrite .key (k / 32) (0x100 + 64 * (k % 32)) (Pg.base .key (k / 32) + (0x100 + 64 * (k % 32))) r (written .key (0x100 + 64 * (k % 32)) v) =
      (s.keyCtlWrite k (written .key (0x100 + 64 * (k % 32)) v), true) := by
    have h1 : ¬ 0x100 + 64 * (k % 32) < 0x40 := by omega
    have h2 : (0x100 + 64 * (k % 32)) % 64 = 0 := by omega
    have h3 : k / 32 * 32 + (0x100 + 64 * (k % 32) - 0x100) / 64 = k := by omega
    have h5 : k / 32 * 32 + k % 32 = k := by omega
    simp [State.ownWrite, State.writable, h1, h2, h3, h5]
  rw [e]
  rfl

theorem regAt_span (l : Nat) (h : l < 8) : ∃ r, regAt .part (0x100 + 32 * l) = some r ∧ r.half = .single := by
  interval_cases l <;> exact ⟨_, rfl, rfl⟩

theorem State.write_span {s : State} {fn : Nat} (p : Nat) (hp : p < 32) (l : Nat) (hl : l < 8) (v : Word) (h : s.holds fn .part p) :
    s.write4 fn (spanAt p l + PART_SPAN_0) v.toNat = (s.spanCtlSet p l (written .part (0x100 + 32 * l) v)).bumpSeq (partPg p) := by
  have ho : 0x100 + 32 * l < 0x1000 := by omega
  have ea : spanAt p l + PART_SPAN_0 = Pg.base .part p + (0x100 + 32 * l) := by
    show partPg p + 32 * l + 0x100 = partPg p + _; omega
  obtain ⟨r, hr, hh⟩ := regAt_span l hl
  rw [ea, State.write4_own v h (pageAt_part p _ hp ho) ho hr hh]
  have e : s.ownWrite .part p (0x100 + 32 * l) (Pg.base .part p + (0x100 + 32 * l)) r (written .part (0x100 + 32 * l) v) =
      (s.spanCtlSet p l (written .part (0x100 + 32 * l) v), true) := by
    interval_cases l <;> rfl
  rw [e]
  rfl

theorem regAt_kft (k : Nat) (h : k < 8) : ∃ r, regAt .sec (0x050 + 4 * k) = some r ∧ r.half = .single := by
  interval_cases k <;> exact ⟨_, rfl, rfl⟩

theorem State.write_kft {s : State} {fn : Nat} (k : Nat) (hk : k < 8) (v : Word) (h : s.holds fn .sec 0) :
    s.write4 fn (secPg + SEC_KFT_DATA + 4 * k) v.toNat = (let x := s.kftWriteWord k (written .sec (0x050 + 4 * k) v)
      if x.2 = true then x.1.bumpSeq secPg else x.1) := by
  have ho : 0x050 + 4 * k < 0x1000 := by omega
  have ea : secPg + SEC_KFT_DATA + 4 * k = Pg.base .sec 0 + (0x050 + 4 * k) := by
    show secPg + 0x050 + 4 * k = secPg + _; omega
  obtain ⟨r, hr, hh⟩ := regAt_kft k hk
  rw [ea, State.write4_own v h (pageAt_sec _ ho) ho hr hh]
  have e : s.ownWrite .sec 0 (0x050 + 4 * k) (Pg.base .sec 0 + (0x050 + 4 * k)) r (written .sec (0x050 + 4 * k) v) =
      s.kftWriteWord k (written .sec (0x050 + 4 * k) v) := by
    interval_cases k <;> rfl
  rw [e]
  rfl

theorem State.write_repair {s : State} {fn : Nat} (c : Nat) (hc : c < 256) (v : Word) (h : s.holds fn .memc c)
    (hs : bitOf (written .memc MEMC_REPAIR_CTL v) 9 = true) :
    s.write4 fn (memcPg c + MEMC_REPAIR_CTL) v.toNat =
      (let w := written .memc MEMC_REPAIR_CTL v
       let old := putBits (s.rd (memcPg c + MEMC_REPAIR_CTL)) 8 0 (bitsOf w 8 0)
       ((s.wr (memcPg c + MEMC_REPAIR_CTL) (putBits old 11 11 ((1 - bitsOf w 11 11) &&& bitsOf old 11 11))).sweepStart c
        (w % 512)).bumpSeq (memcPg c)) := by
  show s.write4 fn (Pg.base .memc c + MEMC_REPAIR_CTL) v.toNat = _
  rw [State.write4_own v h (pageAt_memc _ _ hc (by decide)) (by decide) (by rfl) (by rfl)]
  have hm : ¬ (pciPg + 0x204 ≤ Pg.base .memc c + MEMC_REPAIR_CTL ∧ Pg.base .memc c + MEMC_REPAIR_CTL < pciPg + 0x224) := by
    simp only [pciPg, Pg.base, MEMC_REPAIR_CTL]; omega
  have hh : s.home (Pg.base .memc c + MEMC_REPAIR_CTL) = Pg.base .memc c + MEMC_REPAIR_CTL := by
    unfold State.home; rw [if_neg hm]
  simp only [State.ownWrite, State.writable, State.storeFields, hh, wholeClear]
  simp [MEMC_REPAIR_CTL, Fld.put, hs, SHST_MERGE_STAT, memcPg, State.set, State.rd, MEMC_REPAIR_CTL_LANE, show bitOf (written .memc 0x05C v) 9 = true from hs]

end Sys2Proof.Machine
end

