-- ==== Sys2Proof/Tests/Slice0.lean ====
section
/-! SUPPORT. The model's own tests: ill-formed commands, the worked examples of the spec, one-step tests, and for each statement
concrete inputs that meet its hypotheses. -/

set_option Elab.async false

namespace Sys2Proof.Machine

/-- The state an outcome answers, the reset state where it answers none. -/
def nextOf (o : Host.Outcome State Fault Refusal) : State := match o with
  | .next t => t
  | _ => State.reset

/-- A step on an empty queue idles. -/
theorem test_reset_idles : step State.reset = .next State.reset := rfl

/-! ### Ill-formed commands -/

/-- Functions, agents, partitions, contexts, queues, slices, ports and senders that do not exist (R14). -/
theorem test_illformed_units : [Instr.functionLevelReset 256, .evqFnWrite 257 0, .sliceGrow 32, .quantumExpire 1024, .nop 4096 0, .roundOverrun 32,
    .nakRepeat 36, .getStatus 2 0, .roundEnd 8 0, .roundEnd 0 4096, .lineIn 8 0, .lineIn 0 16].all (fun i => !i.wf) = true := by decide

/-- Accesses beyond a function's BAR0, unaligned halves of a pair, beyond BAR2, of no or too many bytes. -/
theorem test_illformed_accesses : [Instr.registerWrite 1 0x40000 4 0, .pairLowRead 0 0x4000000, .pairHighRead 0 2, .pairLowWrite 0 1 0, .pairHighWrite 3 0x40000 0,
    .bar2Read 0 0, .bar2Read 0 4097, .bar2Read (2 ^ 36) 1, .bar2Write 0 [], .bar2Write (2 ^ 36) [0], .partRangeWrite 0 0 0xB0 0, .partRangeWrite 0 0 0xE8 0,
    .partRangeWrite 0 0 0xB6 0].all (fun i => !i.wf) = true := by decide

/-- Units that a command names by its own number. -/
theorem test_illformed_numbers : [Instr.epochBoundary 9, .refreshNormalReturn 16, .hangDetect 4 0, .hangDetect 1 8, .watchdogExpire 4, .retireThreshold 12 0,
    .retireThreshold 11 36, .handshakeWordReceive 193 0 0 0, .handshakeWordReceive 0 193 0 0, .seamWordReceive 2 0 0 0 0 0 0, .supplyDroop 192 0 0, .supplyDroop 0 5 0,
    .lineOut 0 ⟨0, 2, 0⟩, .tensorOp 0 0 0 1 0 0 0, .tensorOp 0 0 0 0 0 0 2, .routerTokenForward 0 0 5 0, .routerTokenForward 0 0 0 2, .shstLineArrive 0 ⟨2, 0, 0⟩ 0 0, .shstLineArrive 0 ⟨0, 0, 0⟩ 256 0,
    .mouldRegistrationDone 0 64, .refreshRow 16, .towerTempSample 0 [], .repairSweepLine 256, .regionValidSet 0 64 0, .segmentApplied 0 8].all (fun i => !i.wf) = true := by decide

theorem test_illformed_numbers_2 : [Instr.fenceRearm 0 65536 0, .evqHeadWrite 0 512 0, .msixHoldoffExpire 0 64, .msixHoldoffExpire 1 8, .spanJoinTimeout 0 8,
    .runListEntryEnd 0 4096, .requestExpire 65536, .routeSwitch 4096, .regulatorIssue 295 [], .powerSample 65536 0, .powerSample 0 65536, .thermalSample 2 0 0,
    .thermalTrip 4 4, .hardThrottleLift 0, .hardThrottleLift 5, .keyArm 0 256 0, .kftWrite 0 8 0, .spdmMessage 5 0, .ideIntegrityFail 16, .lockInterface 0,
    .engineReset 3 0, .tastingTurn 4, .powerCycleRequest 0, .powerCycleRequest 5, .channelGroupRetire 128 0, .pcieLinkUp 3 16, .pcieLinkUp 7 3].all
    (fun i => !i.wf) = true := by decide

/-- Fields of what a command brings that do not fit their widths. -/
theorem test_illformed_fields : [Instr.napLineRead ⟨2 ^ 39, 0, 0, 0, 0, 0⟩, .napLineRead ⟨0, 256, 0, 0, 0, 0⟩, .napShortRead ⟨0, 0, 0, 0, 0, 0⟩ 16,
    .napPartialWrite ⟨255, 0, 0, 0, 0, 0⟩ [1, 2], .rd 0 { op := 256 }, .rd 0 { op := 1, dst := 4096 }, .rd 0 { op := 1, aux := 2 ^ 32 },
    .linkBlockReceive 0 { type := 4 }, .linkBlockReceive 0 { type := 0 }, .setCap 0 0 65536 0, .fwBegin 0 0 256 0, .fwBegin 0 0 0 (2 ^ 32), .fwData 0 0 (2 ^ 32) [],
    .retireClear 0 0 256 0].all (fun i => !i.wf) = true := by decide

theorem test_wellformed : [Instr.functionLevelReset 255, .evqFnWrite 256 0, .bar2Read (2 ^ 36 - 1) 1, .registerWrite 0 0x3FFFFFC 4 0, .roundEnd 7 4095,
    .msixHoldoffExpire 0 63, .pcieLinkUp 7 16, .napShortRead ⟨0, 0, 0, 0, 0, 0⟩ 64].all (fun i => i.wf) = true := by decide

/-! ### Worked examples of the spec -/

/-- 03_fabric_cores.md, example under R64: cell (37, 41) of core 5. -/
theorem test_cell_of_the_example : 41 * 64 + 37 = 2661 ∧ cellIsland 5 2661 = 90 ∧ cellSlice 5 2661 = 23 := by decide

/-- 04_moulds.md, example under R110: relative cell (5, 9) of slice 23 is that cell. -/
theorem test_relative_cell : relCell 23 (9 * 32 + 5) = 2661 := by decide

/-- 01_device_organisation.md, example of slice 22. -/
theorem test_islands_of_slice_22 : (List.range 4).map (sliceIsland 22) = [88, 89, 92, 93] := by decide

/-- 02_number_formats_and_exact_arithmetic.md, first example under R43: the block pair adds 2 ^ 141 to A. -/
theorem test_b4_block_pair : dotExact .b4 .b4 {} [⟨(List.range 32).map (Fmt.element .b4 ([0xD3, 0x71] ++ List.replicate 14 0)),
    (List.range 32).map (Fmt.element .b4 ([0x24, 0x1E] ++ List.replicate 14 0)), 0x03, 0xFE⟩] = ({ a := 2 ^ 141 }, 0) := by decide +kernel

/-- The second: three contributions leave 2 ^ 40, which rounds to the FP32 code 0x0D800000. -/
theorem test_contributions_cancel : let a := BitVec.ofInt 320 (6 * 2 ^ (100 - 2 + 140) + 1 * 2 ^ (140 - 98 - 2) - 6 * 2 ^ (100 - 2 + 140))
    a = 2 ^ 40 ∧ Fmt.fp32.round {} (LongAcc.num { a := a }) = (0x0D800000, 0) := by decide +kernel

/-- 02, the example of a clamped scale sum: 2 ^ 127 with the range warning. -/
theorem test_scale_clamp : let r := dotExact .b4 .b4 {} [⟨2 :: List.replicate 31 0, 2 :: List.replicate 31 0, 0x46, 0x3C⟩]
    r.2 = warnRange ∧ Fmt.fp32.round {} r.1.num = (0x7F000000, 0) := by decide +kernel

/-- 02, the example under R59: 5.25 and 0.8 in one B4 block. -/
theorem test_b4_output_block : Fmt.roundBlock .b4 (List.replicate 32 {}) ((f32 0x40A80000) :: (f32 0x3F4CCCCD) :: List.replicate 30 (f32 0)) =
    (0, 7 :: 2 :: List.replicate 30 0, 0) := by decide +kernel

/-- 02, the same under stochastic rounding: 5.25 rounds to 6 from r = 24,576 on. -/
theorem test_stochastic_edge : (Fmt.b4.round { sr := some 24576 } (f32 0x40A80000)).1 = 7 ∧ (Fmt.b4.round { sr := some 24575 } (f32 0x40A80000)).1 = 6 := by
  decide +kernel

/-- SHA-384 of "abc" (R108; the digest is that of FIPS 180-4). -/
theorem test_sha384_abc : beBytes 48 0xcb00753f45a35e8bb5a03d699ac65007272c32ab0eded1631a8b605a43ff5bed8086072ba1e7cc2358baeca134c825a7 =
    leBytes 48 (sha384 [0x61, 0x62, 0x63]) := by decide +kernel

/-- 05_stacked_memory.md, example under R146: where a DPA of region 3 lies. -/
theorem test_region_of_the_example :
    let s := [(mapPg + GLB_SET + 68, 0xFFFFFFFF), (mapPg + 0x430, 1 + 2 * 3 + 64 * 2), (mapPg + 0x434, 512), (mapPg + 0x438, 16), (mapPg + 0x43C, 512)].foldl
      (fun s e => s.wr e.1 e.2) State.reset
    s.regBytes 3 = 32 * 2 ^ 30 ∧ s.place 0x41234560 = some ⟨37, 133402, 96⟩ := by decide +kernel

/-- 05, the same example: line, bank and row of channel line 133,402. -/
theorem test_dram_address : dramAddr 133402 = ⟨1042, 0, 1, 2⟩ := by decide

/-- 10_links.md, example under R314: the REDUCE of three accumulators. -/
theorem test_reduce_of_three : reduceTxns 0 0 4 [{ a := 3 * 2 ^ 100 }, { a := BitVec.ofInt 320 (-5 * 2 ^ 98) }, { a := 2 ^ 120 }] =
    [{ op := 4, attr := 4, aux := 98 + 0 * 2 ^ 9 + 3 * 2 ^ 12, payload := [0x0C, 0, 0, 0, 0xFB, 0xFF, 0xFF, 0xFF, 0, 0, 0x40, 0] }] := by decide +kernel

/-- 12_power_and_thermal.md, R374: a cap of 1,500 W gives 1.725 GHz, in units of 25 MHz. -/
theorem test_steady_ceiling : steadyCeil 1500 * 25 = 1725 ∧ steadyCeil 600 * 25 = 600 ∧ steadyCeil 2000 * 25 = 2200 := by decide

/-- 17_register_map.md, the example of channel 91: the page, BLK_ID, the dropped write of START with its traces, the write of BLK_ERR_SUM. -/
theorem test_register_map_page : memcPg 91 = 0x02AD000 ∧ (resetWord 0x02AD000).toNat = 0x01005B07 ∧ fenAt 0x1200 + FEN_STAT = 0x3090110 := by decide +kernel

theorem test_dropped_write :
    let t := nextOf (exec (.registerWrite 0 0x02AD05C 4 (1 <<< 9)) { State.reset with ready := true, pins := { pwrEn := true, pgood := true } })
    t.rd 0x02AD05C = 0 ∧ bitsOf (t.rd (0x02AD000 + 0x010)) 0 0 = 1 ∧ t.rd (0x02AD000 + 0x024) = 0 ∧ bitsOf (t.rd (glbPg + GLB_VIOL_PAGE)) 15 0 = 0x02AD := by decide +kernel

/-- 00_scope.md, example under R5: the low read latches the high word. -/
theorem test_pair_latch :
    let s := { State.reset with ready := true, pins := { pwrEn := true, pgood := true }, mclk := 0x00000001FFFFFFF0 }
    let t := nextOf (exec (.pairLowRead 0 (glbPg + GLB_MCLK)) s)
    let u := nextOf (exec (.pairHighRead 0 (glbPg + GLB_MCLK + 4)) { t with mclk := 0x0000000200000010 })
    u.out.take 2 = [.readData 0 (leBytes 4 1), .readData 0 (leBytes 4 0xFFFFFFF0)] := by decide +kernel

end Sys2Proof.Machine

/-! ### What meets the hypotheses of the statements -/

namespace Sys2Proof.Machine
theorem pair_some {α β : Type} (x : α × Option β) (h : x.2.isSome = true) : ∃ u b, x = (u, some b) := by
  obtain ⟨u, _ | b⟩ := x
  · cases h
  · exact ⟨u, b, rfl⟩
/-- A descriptor of a command that runs alone. -/
def tDesc : Bytes := (List.replicate 128 0).set 4 64
/-- The module after bring-up with nothing configured. -/
def tUp : State := { State.reset with ready := true, pins := { pwrEn := true, pgood := true } }
/-- Registers stored one after another. -/
def State.puts (s : State) (l : List (Nat × Nat)) : State := l.foldl (fun s e => s.wr e.1 e.2) s
/-- Partition 3 ACTIVE with contexts 8 to 11, queues 16 to 23, fences 64 to 127, event queues 5 and 6, slices 0 to 3, channels 0 and 1; region 0 holds
its 4 MiB of data, region 1 its save area; context 8 is ACTIVE, its segment 0 that data; queue 16 is enabled, its ring at 1 MiB, its completion area
at 2 MiB; it signals fence 64. -/
def tWork : State := tUp.puts [
  (partPg 3 + PART_STAT_STATE.off, 2), (partPg 3 + 0x0B4, 8 + 4 * 2 ^ 10), (partPg 3 + 0x0B8, 16 + 8 * 2 ^ 12), (partPg 3 + 0x0BC, 2 + 2 * 2 ^ 11), (partPg 3 + 0x0C0, 5 + 2 * 2 ^ 9),
  (partPg 3 + PART_SLICES, 15), (partPg 3 + PART_CHAN, 3), (partPg 3 + PART_CFG_REGION, 2), (partPg 3 + PART_SAVE_REGION, 0x41),
  (mapPg + GLB_SET, 3), (mapPg + 0x400, 7), (mapPg + 0x404, 0), (mapPg + 0x408, 0), (mapPg + 0x40C, 1),
  (mapPg + 0x410, 7), (mapPg + 0x414, 0x200), (mapPg + 0x418, 1), (mapPg + 0x41C, 64),
  (ctxPg 8 + CTX_CTL, 5 * 2 ^ 8), (ctxPg 8 + CTX_STAT, 1 + 3 * 2 ^ 16), (ctxPg 8 + CTX_SAVE_CTL, 0 + 1 * 2 ^ 12),
  (ctxPg 8 + CTX_SEG_0, 0x39), (ctxPg 8 + CTX_SEG_4, 0x400000),
  (quePg 16 + QUE_CTX, 8), (quePg 16 + QUE_CTL, 1 + 6 * 2 + 5 * 2 ^ 16), (quePg 16 + QUE_STAT, 1), (quePg 16 + QUE_RING, 0x100000), (quePg 16 + QUE_CPL, 0x200000),
  (fenAt 64 + FEN_CTL, 16 + 2 ^ 13), (evqPg 5 + EVQ_CTL, 1), (evqPg 5 + EVQ_BASE, 0x10000)]
/-- Bytes of a record: fields as (offset, bytes, value). -/
def tBytes (n : Nat) (l : List (Nat × Nat × Nat)) : Bytes := l.foldl (fun b e => patchBytes b e.1 (leBytes e.2.1 e.2.2)) (List.replicate n 0)
/-- `tWork` as device 10 with port 5 UP to device 7, bound to span slot 1 of partition 3, whose members are the two devices. -/
def tLink : State := { tWork.puts [(rtePg + RTE_SELF, 10 + 2 ^ 12), (lnkPg 5 + LNK_CTL_ENABLE.off, 1), (lnkPg 5 + LNK_STAT_STATE.off, 3 + 2 ^ 5 + 3 * 2 ^ 6 + 1 * 2 ^ 11), (lnkPg 5 + LNK_PARTNER_DEVICE.off, 7),
    (partPg 3 + PART_PORTS, 0x20), (spanAt 3 1 + PART_SPAN_ID, 0x77), (spanAt 3 1 + PART_SPAN_M, 2), (spanAt 3 1 + 0x100, 2 * 4)] with
  routes := [(7, { valid := true, state := 1, next := 7 })], spanTbl := [((3 * 8 + 1) * 4096, 10), ((3 * 8 + 1) * 4096 + 1, 7)],
  links := [(5, { keyed := true, credits := (List.range 32).map (fun i => (i, 64)) })] }

/-- Of a state that lists registers of queue pages of queue 16 only, no other queue has a context but 0. -/
theorem quesOf_none {s : State} {x : Nat} (hx : x ≠ 0)
    (h : s.regs.all (fun e => decide (e.1 < 0x2000000 ∨ (0x2010000 ≤ e.1 ∧ e.1 < 0x2011000) ∨ 0x3000000 ≤ e.1)) = true)
    (h16 : (s.queCtx 16 == x && s.on (quePg 16) QUE_STAT_ENABLED) = false) : s.quesOf x = [] := by
  refine List.filter_eq_nil_iff.mpr (fun q hq => ?_)
  have hq : q < 4096 := List.mem_range.mp hq
  by_cases e : q = 16
  · rw [e, h16]; decide
  · have a : s.rd (quePg q + QUE_CTX_CONTEXT.off) = 0 := by
      rw [State.rd_absent (fun e he => by
        have := List.all_eq_true.mp h e he
        have := of_decide_eq_true this
        show e.1 ≠ 0x2000000 + 0x1000 * q + QUE_CTX_CONTEXT.off
        have : QUE_CTX_CONTEXT.off < 0x1000 := by decide
        omega)]
      show (resetWord (Pg.base .que q + QUE_CTX_CONTEXT.off)).toNat = 0
      rw [resetWord_base .que q _ hq (by decide) (by decide)]
      rfl
    have b : s.queCtx q = 0 := by
      show bitsOf (s.rd (quePg q + QUE_CTX_CONTEXT.off)) _ _ = 0
      rw [a]; decide
    rw [b]
    simp [Ne.symm hx]

/-- Of a state that lists registers of context pages of context 8 only, every other context's segments are invalid. -/
theorem segWords_none {s : State} (h : s.regs.all (fun e => decide (e.1 < 0x1000000 ∨ (0x1008000 ≤ e.1 ∧ e.1 < 0x1009000) ∨ 0x1400000 ≤ e.1)) = true)
    {x g : Nat} (hx : x < 1024) (hg : g < 8) (h8 : x ≠ 8) (lo hi : Nat) : segWordsCover (s.segWords x g) lo hi = false := by
  have a : (s.segWords x g).getD 0 0 = 0 := by
    show s.rd (ctxPg x + 32 * g + CTX_SEG_0 + 4 * 0) = 0
    rw [State.rd_absent (fun e he => by
      have := of_decide_eq_true (List.all_eq_true.mp h e he)
      show e.1 ≠ 0x1000000 + 0x1000 * x + 32 * g + 0x200 + 4 * 0
      omega)]
    have e : ctxPg x + 32 * g + CTX_SEG_0 + 4 * 0 = Pg.base .ctx x + (32 * g + 0x200) := by
      show Pg.base .ctx x + 32 * g + 0x200 + 0 = _
      omega
    rw [e, resetWord_base .ctx x _ hx (by omega) (by omega)]
    have : ∀ g < 8, ((regAt .ctx (32 * g + 0x200)).map (fun r => BitVec.ofNat 32 r.reset)).getD 0 = (0 : Word) := by decide +kernel
    rw [this g hg]
    rfl
  unfold segWordsCover
  rw [a]
  simp [bitOf]

/-- Then no segment covers a region that none of context 8 does and no partition saves to. -/
theorem regionInUse_none {s : State} {r : Nat}
    (h : s.regs.all (fun e => decide (e.1 < 0x1000000 ∨ (0x1008000 ≤ e.1 ∧ e.1 < 0x1009000) ∨ 0x1400000 ≤ e.1)) = true)
    (h8 : (List.range 8).all (fun g => !segWordsCover (s.segWords 8 g) (s.regBase r) (s.regBase r + s.regBytes r)) = true)
    (hp : (List.range 32).any (fun p => s.saveNamed p r) = false) (hs : s.segPend = []) : s.regionInUse r = false := by
  unfold State.regionInUse
  rw [hp, hs]
  simp only [List.any_nil, Bool.or_false, Bool.false_or]
  refine Bool.eq_false_iff.mpr (fun t => ?_)
  obtain ⟨x, hx, t⟩ := List.any_eq_true.mp t
  obtain ⟨g, hg, t⟩ := List.any_eq_true.mp t
  by_cases e : x = 8
  · have := List.all_eq_true.mp h8 g hg
    subst e
    rw [t] at this
    cases this
  · rw [segWords_none h (List.mem_range.mp hx) (List.mem_range.mp hg) e] at t
    cases t
end Sys2Proof.Machine

namespace Sys2Proof.Tests.C1

open Sys2Proof.Machine

def off : State := State.reset
def offT : State := { off with pins := { offTimer := true } }
def offH : State := { off with pins := { offTimer := true, heldOn := true, pwrEn := true } }
def upRL : State := { tUp with pins := { tUp.pins with resetN := false } }
def upTh : State := { tUp with pins := { tUp.pins with throttle := true } }
def upSt : State := { tUp with pins := { tUp.pins with throttle := true, stuck := true } }
def offR : State := { off with pins := { resetN := false, throttle := true } }

/-- Concrete inputs that meet the hypotheses of `Obligations.PinsPowerAndReset`, clause by clause. -/
theorem witness_PinsPowerAndReset :
    (let s := tUp;
     s.pins.pwrEn = true) ∧
    (let s := offT;
     s.pins.pwrEn = false ∧ s.pins.offTimer = true) ∧
    (let s := off;
     s.pins.pwrEn = false ∧ s.pins.offTimer = false) ∧
    (let s := tUp;
     s.pins.heldOn = false) ∧
    (let s := offH;
     s.pins.heldOn = true) ∧
    (let s := off;
     s.pins.pwrEn = false) ∧
    (let s := tUp;
     let mv := 46001;
     s.pins.pgood = false ∨ 46000 < mv ∧ mv < 60500) ∧
    (let s := tUp;
     let mv := 46000;
     s.pins.pgood = true ∧ (mv ≤ 46000 ∨ 60500 ≤ mv)) ∧
    (let s := off;
     s.pins.pgood = false) ∧
    (let s := tUp;
     s.pins.pgood = true) ∧
    (let s := tUp;
     s.pins.resetN = true) ∧
    (let s := upRL;
     let up := s.pins.pgood = true ∧ s.pins.oscStopped = false ∧ s.pins.cycleN = true;
     s.pins.resetN = false ∧ up) ∧
    (let s := offR;
     let up := s.pins.pgood = true ∧ s.pins.oscStopped = false ∧ s.pins.cycleN = true;
     s.pins.resetN = false ∧ ¬up) ∧
    (let s := off;
     let gen := 4;
     let width := 1;
     let trains := s.pins.pgood = true ∧ s.pins.resetN = true ∧ s.pins.perstN = true ∧ s.pins.oscStopped = false;
     4 ≤ gen ∧ gen ≤ 7 ∧ width ∈ [1, 2, 4, 8, 16] ∧ ¬trains) ∧
    (let s := tUp;
     let gen := 4;
     let width := 1;
     let trains := s.pins.pgood = true ∧ s.pins.resetN = true ∧ s.pins.perstN = true ∧ s.pins.oscStopped = false;
     4 ≤ gen ∧ gen ≤ 7 ∧ width ∈ [1, 2, 4, 8, 16] ∧ trains) ∧
    (let tenths := 9;
     let toggling := false;
     tenths < 10 ∧ toggling = false) ∧
    (let tenths := 9;
     let toggling := true;
     10 ≤ tenths ∨ toggling = true) ∧
    (let s := tUp;
     s.pins.stuck = false) ∧
    (let s := upSt;
     s.pins.stuck = true) ∧
    (let s := tUp;
     s.pins.throttle = false ∨ s.pins.stuck = true) ∧
    (let s := upTh;
     s.pins.throttle = true ∧ s.pins.stuck = false) := by
  refine ⟨?_, ?_, ?_, ?_, ?_, ?_, ?_, ?_, ?_, ?_, ?_, ?_, ?_, ?_, ?_, ?_, ?_, ?_, ?_, ?_, ?_⟩
  · first | decide +kernel | (simp only [State.holds, State.sameBytes]; decide +kernel)
  · first | decide +kernel | (simp only [State.holds, State.sameBytes]; decide +kernel)
  · first | decide +kernel | (simp only [State.holds, State.sameBytes]; decide +kernel)
  · first | decide +kernel | (simp only [State.holds, State.sameBytes]; decide +kernel)
  · first | decide +kernel | (simp only [State.holds, State.sameBytes]; decide +kernel)
  · first | decide +kernel | (simp only [State.holds, State.sameBytes]; decide +kernel)
  · first | decide +kernel | (simp only [State.holds, State.sameBytes]; decide +kernel)
  · first | decide +kernel | (simp only [State.holds, State.sameBytes]; decide +kernel)
  · first | decide +kernel | (simp only [State.holds, State.sameBytes]; decide +kernel)
  · first | decide +kernel | (simp only [State.holds, State.sameBytes]; decide +kernel)
  · first | decide +kernel | (simp only [State.holds, State.sameBytes]; decide +kernel)
  · first | decide +kernel | (simp only [State.holds, State.sameBytes]; decide +kernel)
  · first | decide +kernel | (simp only [State.holds, State.sameBytes]; decide +kernel)
  · first | decide +kernel | (simp only [State.holds, State.sameBytes]; decide +kernel)
  · first | decide +kernel | (simp only [State.holds, State.sameBytes]; decide +kernel)
  · first | decide +kernel | (simp only [State.holds, State.sameBytes]; decide +kernel)
  · first | decide +kernel | (simp only [State.holds, State.sameBytes]; decide +kernel)
  · first | decide +kernel | (simp only [State.holds, State.sameBytes]; decide +kernel)
  · first | decide +kernel | (simp only [State.holds, State.sameBytes]; decide +kernel)
  · first | decide +kernel | (simp only [State.holds, State.sameBytes]; decide +kernel)
  · first | decide +kernel | (simp only [State.holds, State.sameBytes]; decide +kernel)

end Sys2Proof.Tests.C1

namespace Sys2Proof.Tests.C10

open Sys2Proof.Machine

def st1 : State := { tWork with pending := [.napLineWrite ⟨0,0,8,0,16,0⟩ (List.replicate 256 5)] }
def rr (p : Pg) (o : Nat) : Reg := (regAt p o).getD ⟨0,0,0,.single,[]⟩
def ff (p : Pg) (o i : Nat) : Fld := (rr p o).flds.getD i ⟨0,0,.rw,0⟩
def quietP : State := tUp.puts [(Pg.base .memc 5 + 8, 0)]
def qr : State := { (tWork.puts [(quePg 16 + QUE_CTL, 0)]) with pairHeld := [(pairKey 0 (quePg 16 + QUE_RING), some 0x12345FFF)], pairLatch := [(pairKey 0 (quePg 16 + QUE_RING), some 7)] }

/-- Concrete inputs that meet the hypotheses of `Obligations.StepRunsFrontCommand`, clause by clause. -/
theorem witness_StepRunsFrontCommand :
    (let s : State := tUp;
     s.pending = []) := by
  first | decide +kernel | (simp only [State.holds, State.sameBytes]; decide +kernel)

/-- Concrete inputs that meet the hypotheses of `Obligations.WellFormedCommandsAnswer`, clause by clause. -/
theorem witness_WellFormedCommandsAnswer :
    (let c : Instr := Instr.railFault;
     c.wf = true) ∧
    (let c : Instr := Instr.nop 4096 0;
     c.wf = false) := by
  refine ⟨?_, ?_⟩
  · first | decide +kernel | (simp only [State.holds, State.sameBytes]; decide +kernel)
  · first | decide +kernel | (simp only [State.holds, State.sameBytes]; decide +kernel)

/-- Concrete inputs that meet the hypotheses of `Obligations.ResetState`, clause by clause. -/
theorem witness_ResetState :
    (let x : ℕ := 0;
     x < 1024) ∧
    (let p : ℕ := 0;
     p < 32) ∧
    (let q : ℕ := 0;
     q < 4096) ∧
    (let f : ℕ := 0;
     f < 65536) := by
  refine ⟨?_, ?_, ?_, ?_⟩
  · first | decide +kernel | (simp only [State.holds, State.sameBytes]; decide +kernel)
  · first | decide +kernel | (simp only [State.holds, State.sameBytes]; decide +kernel)
  · first | decide +kernel | (simp only [State.holds, State.sameBytes]; decide +kernel)
  · first | decide +kernel | (simp only [State.holds, State.sameBytes]; decide +kernel)

/-- Concrete inputs that meet the hypotheses of `Obligations.MemoryStaysCanonical`, clause by clause. -/
theorem witness_MemoryStaysCanonical :
    (let s : State := st1;
     let t : State := nextOf (step st1);
     s.memOk = true ∧ step s = Host.Outcome.next t) := by
  refine ⟨by decide +kernel, ?_⟩
  have e : (match step st1 with | .next _ => true | _ => false) = true := by decide +kernel
  show step st1 = .next (nextOf (step st1))
  generalize step st1 = o at e ⊢
  cases o with
  | next t => rfl
  | _ => cases e

/-- Concrete inputs that meet the hypotheses of `Obligations.MemoryCanonicalAtReset`, clause by clause. -/
theorem witness_MemoryCanonicalAtReset :
    (let m : List Host.Cell := [];
     Memory.wf m = true) ∧
    (let m : List Host.Cell := [];
     let bs : Bytes := [0, 1, 0, 2];
     let i : ℕ := 0;
     Memory.wf m = true ∧ i < List.length bs) ∧
    (let m : List Host.Cell := [];
     let a : ℕ := 0;
     let bs : Bytes := [0, 1, 0, 2];
     let x : ℕ := 4;
     Memory.wf m = true ∧ (x < a ∨ a + List.length bs ≤ x)) := by
  refine ⟨?_, ?_, ?_⟩
  · first | decide +kernel | (simp only [State.holds, State.sameBytes]; decide +kernel)
  · first | decide +kernel | (simp only [State.holds, State.sameBytes]; decide +kernel)
  · first | decide +kernel | (simp only [State.holds, State.sameBytes]; decide +kernel)

/-- Concrete inputs that meet the hypotheses of `Obligations.OwnerWritesFields`, clause by clause. -/
theorem witness_OwnerWritesFields :
    (let s : State := tUp;
     let p : Pg := Pg.core;
     let i : ℕ := 7;
     let o : ℕ := CORE_QUIET;
     let r : Reg := rr Pg.core CORE_QUIET;
     let f : Fld := ff Pg.core CORE_QUIET 0;
     p ∈
         [Pg.core, Pg.shst, Pg.memt, Pg.nap, Pg.rgl0,
           Pg.rglp, Pg.thm] ∧
       i < p.count ∧ 64 ≤ o ∧ o < 4096 ∧ regAt p o = some r ∧ r.half = Half.single ∧ f ∈ r.flds ∧ s.holds 0 p i) := by
  first | decide +kernel | (simp only [State.holds, State.sameBytes]; decide +kernel)

/-- Concrete inputs that meet the hypotheses of `Obligations.OtherWritersAreHeld`, clause by clause. -/
theorem witness_OtherWritersAreHeld :
    (let s : State := quietP;
     let p : Pg := Pg.memc;
     let i : ℕ := 5;
     let o : ℕ := 92;
     let r : Reg := rr Pg.memc 92;
     let f : Fld := ff Pg.memc 92 0;
     let v : Word := 5;
     i < p.count ∧
       64 ≤ o ∧
         o < 4096 ∧
           regAt p o = some r ∧
             r.half = Half.single ∧
               f ∈ r.flds ∧
                 f.acc = Acc.rwl ∧
                   s.ready = true ∧
                     s.pageState p i = 1 ∧
                       s.owns 0 (p.base i) = false ∧
                         s.on (p.base i) BLK_CTL_EVT_EN = false ∧
                           bitsOf (BitVec.toNat v) f.hi f.lo ≠ bitsOf (s.readWord (p.base i + o)) f.hi f.lo) ∧
    (let s : State :=
       { tUp with capt := [(2 * 1024 + 5, 3)] };
     let p : Pg := Pg.memc;
     let i : ℕ := 5;
     let o : ℕ := 92;
     i < p.count ∧ o < 4096 ∧ o % 4 = 0 ∧ s.pageState p i = 3) ∧
    (let p : Pg := Pg.memc;
     let i : ℕ := 5;
     let o : ℕ := 2304;
     i < p.count ∧ o < 4096 ∧ o % 4 = 0 ∧ regAt p o = none) ∧
    (let s : State := quietP;
     let p : Pg := Pg.memc;
     let i : ℕ := 5;
     let o : ℕ := 92;
     i < p.count ∧ o < 4096 ∧ o % 4 = 0 ∧ s.ready = true ∧ s.pageState p i ≠ 3 ∧ s.on (p.base i) BLK_CTL_EVT_EN = false) := by
  refine ⟨?_, ?_, ?_, ?_⟩
  · first | decide +kernel | (simp only [State.holds, State.sameBytes]; decide +kernel)
  · first | decide +kernel | (simp only [State.holds, State.sameBytes]; decide +kernel)
  · first | decide +kernel | (simp only [State.holds, State.sameBytes]; decide +kernel)
  · first | decide +kernel | (simp only [State.holds, State.sameBytes]; decide +kernel)

/-- Concrete inputs that meet the hypotheses of `Obligations.PairsReadAndWriteTogether`, clause by clause. -/
theorem witness_PairsReadAndWriteTogether :
    (let o : ℕ := quePg 16 + QUE_RING;
     o + 8 ≤ 67108864 ∧ o % 4 = 0 ∧ halfAt o = Half.low) ∧
    (let s : State := qr;
     let o : ℕ := quePg 16 + QUE_RING;
     let w : Word := 7;
     o + 8 ≤ 67108864 ∧
       o % 4 = 0 ∧
         halfAt (o + 4) = Half.high ∧
           Tab.get none s.pairLatch (pairKey 0 o) = some w) ∧
    (let s : State := tUp;
     let o : ℕ := quePg 16 + QUE_RING;
     o + 8 ≤ 67108864 ∧
       o % 4 = 0 ∧
         halfAt (o + 4) = Half.high ∧
           Tab.get none s.pairLatch (pairKey 0 o) = none) ∧
    (let s : State := tUp;
     let q : ℕ := 16;
     q < 4096 ∧ s.holds 0 Pg.que q) ∧
    (let s : State := qr;
     let q : ℕ := 16;
     let lo : Word := 305422335;
     let a : ℕ := quePg q + QUE_RING;
     q < 4096 ∧
       s.holds 0 Pg.que q ∧
         s.on (quePg q) QUE_CTL_ENABLE = false ∧
           Tab.get none s.pairHeld (pairKey 0 a) = some lo) ∧
    (let s : State := tUp;
     let q : ℕ := 16;
     let a : ℕ := quePg q + QUE_RING;
     q < 4096 ∧
       s.holds 0 Pg.que q ∧
         s.on (quePg q) QUE_CTL_ENABLE = false ∧
           Tab.get none s.pairHeld (pairKey 0 a) = none) := by
  refine ⟨?_, ?_, ?_, ?_, ?_, ?_⟩
  · first | decide +kernel | (simp only [State.holds, State.sameBytes]; decide +kernel)
  · first | decide +kernel | (simp only [State.holds, State.sameBytes]; decide +kernel)
  · first | decide +kernel | (simp only [State.holds, State.sameBytes]; decide +kernel)
  · first | decide +kernel | (simp only [State.holds, State.sameBytes]; decide +kernel)
  · first | decide +kernel | (simp only [State.holds, State.sameBytes]; decide +kernel)
  · first | decide +kernel | (simp only [State.holds, State.sameBytes]; decide +kernel)

end Sys2Proof.Tests.C10

namespace Sys2Proof.Tests.C15

open Sys2Proof.Machine

def a1 : State := tWork.puts [(secPg + SEC_PROTECT, 8)]
def r0 (dpa : Nat) : Req := ⟨dpa, 0, 8, 0, 16, 0⟩
def buf (key : Nat) (dirty : Bool) : NapBuf := { cl := 0, key := key, part := 3, dpa := 0x100, dirty := dirty, data := (List.range 256).map (fun i => BitVec.ofNat 8 (200 + i)) }
def m0 : State := { tWork with mclk := 999, mem := Memory.write [] (lineKey 1 0) [1,2,3,4], cmds := [(16, [{ q := 16, seq := 0, desc := [], ctx := 8, part := 3, started := true, ranges := [{}, { addr := 0, len := 0x400000, need := 3 }, { addr := 0, len := 0x400000, need := 3, key := 5 }] }])] }
def m1 : State := { m0 with nap := [(1, [buf 0 false])] }
def m3 : State := { m0 with badLines := [(lineNo 1 0, 1)] }
def m4 : State := { m0 with gens := [(8, 1)] }
def cs : Cmd := { q := 16, seq := 0, desc := [], ctx := 8, part := 3, started := true, ranges := [{}, { addr := 0, len := 0x100, need := 3 }] }
def ms : State := { m0 with cmds := [(16, [cs])] }

/-- Concrete inputs that meet the hypotheses of `Obligations.WindowAccessToProtectedState`, clause by clause. -/
theorem witness_WindowAccessToProtectedState :
    (let s : State := a1;
     let off : ℕ := 0;
     let data : Bytes := [1, 2, 3];
     0 < List.length data ∧
       List.length data ≤ 4096 ∧
         off + List.length data ≤ 2 ^ 36 ∧
           s.ready = true ∧
             ∃ e ∈ linePieces (List.length data + 1) (s.bar2Dpa off) (List.length data), s.dpaProtected e.1 = true) := by
  first | decide +kernel | (simp only [State.holds, State.sameBytes]; decide +kernel)

/-- Concrete inputs that meet the hypotheses of `Obligations.NarrowAccessesToALine`, clause by clause. -/
theorem witness_NarrowAccessesToALine :
    (let s : State := m4;
     let r : Req := r0 256;
     let p : Place := { chan := 1, cl := 0, byte := 0 };
     let inside : ℕ → Prop := fun (n : ℕ) => s.strays r n = none;
     let c : Instr := Instr.napLineRead r;
     reqOk r = true ∧
       s.place r.dpa = some p ∧
         Tab.get 0 s.gens r.ctx ≠ r.gen ∧
           inside 256 ∧ c ∈ [Instr.napLineRead r, Instr.napLineWrite r (List.replicate 256 0)]) ∧
    (let s : State := ms;
     let r : Req := r0 256;
     let p : Place := { chan := 1, cl := 0, byte := 0 };
     let c : Cmd := cs;
     let i : ℕ := 0;
     reqOk r = true ∧ s.place r.dpa = some p ∧ s.strays r 256 = some (c, i)) ∧
    (let s : State := m3;
     let r : Req := r0 256;
     let p : Place := { chan := 1, cl := 0, byte := 0 };
     let u : State := s.beat 2 (p.chan / 16);
     let inside : ℕ → Prop := fun (n : ℕ) => s.strays r n = none;
     let served : ℕ → Prop := fun (n : ℕ) =>
       inside n ∧ Tab.get 0 s.gens r.ctx = r.gen ∧ s.chanRetired p.chan = false ∧ s.keyServed r.key = true;
     let w : ℕ := 0;
     reqOk r = true ∧
       s.place r.dpa = some p ∧
         served 256 ∧ (∀ b ∈ u.bufs p.chan, b.cl ≠ p.cl) ∧ w < 2 ∧ Tab.get 0 s.badLines (lineNo p.chan p.cl) = w + 1) ∧
    (let s : State := m0;
     let r : Req := r0 256;
     let p : Place := { chan := 1, cl := 0, byte := 0 };
     let u : State := s.beat 2 (p.chan / 16);
     let inside : ℕ → Prop := fun (n : ℕ) => s.strays r n = none;
     let served : ℕ → Prop := fun (n : ℕ) =>
       inside n ∧ Tab.get 0 s.gens r.ctx = r.gen ∧ s.chanRetired p.chan = false ∧ s.keyServed r.key = true;
     reqOk r = true ∧
       s.place r.dpa = some p ∧
         served 256 ∧
           (∀ b ∈ u.bufs p.chan, b.cl ≠ p.cl) ∧
             Tab.get 0 s.badLines (lineNo p.chan p.cl) = 0 ∧
               (r.key = 0 ∨ Tab.get { } s.seals (lineNo p.chan p.cl) = s.sealFor r.key r.dpa)) ∧
    (let s : State := m1;
     let r : Req := r0 256;
     let p : Place := { chan := 1, cl := 0, byte := 0 };
     let u : State := s.beat 2 (p.chan / 16);
     let inside : ℕ → Prop := fun (n : ℕ) => s.strays r n = none;
     let served : ℕ → Prop := fun (n : ℕ) =>
       inside n ∧ Tab.get 0 s.gens r.ctx = r.gen ∧ s.chanRetired p.chan = false ∧ s.keyServed r.key = true;
     let b : NapBuf := buf 0 false;
     reqOk r = true ∧
       s.place r.dpa = some p ∧ served 256 ∧ u.match? p.chan p.cl r.key = some b ∧ (b.dirty = false ∨ s.mclk < b.since + 1000)) ∧
    (let s : State := m0;
     let r : Req := r0 256;
     let p : Place := { chan := 1, cl := 0, byte := 0 };
     let inside : ℕ → Prop := fun (n : ℕ) => s.strays r n = none;
     let served : ℕ → Prop := fun (n : ℕ) =>
       inside n ∧ Tab.get 0 s.gens r.ctx = r.gen ∧ s.chanRetired p.chan = false ∧ s.keyServed r.key = true;
     let data : Bytes := List.replicate 256 5;
     reqOk r = true ∧
       s.place r.dpa = some p ∧ served 256 ∧ List.length data = 256 ∧ Memory.wf s.mem = true) ∧
    (let s : State := m1;
     let r : Req := r0 256;
     let p : Place := { chan := 1, cl := 0, byte := 0 };
     let u : State := s.beat 2 (p.chan / 16);
     let inside : ℕ → Prop := fun (n : ℕ) => s.strays r n = none;
     let served : ℕ → Prop := fun (n : ℕ) =>
       inside n ∧ Tab.get 0 s.gens r.ctx = r.gen ∧ s.chanRetired p.chan = false ∧ s.keyServed r.key = true;
     let small : List (Instr × ℕ) :=
       [(Instr.napShortRead r 8, 8), (Instr.napShortRead r 32, 32), (Instr.napShortRead r 64, 64)];
     let b : NapBuf := buf 0 false;
     let e : Instr × ℕ := (Instr.napShortRead r 8, 8);
     reqOk r = true ∧
       s.place r.dpa = some p ∧ u.match? p.chan p.cl r.key = some b ∧ e ∈ small ∧ served e.2 ∧ r.dpa % e.2 = 0) ∧
    (let s : State := m1;
     let r : Req := r0 256;
     let p : Place := { chan := 1, cl := 0, byte := 0 };
     let u : State := s.beat 2 (p.chan / 16);
     let inside : ℕ → Prop := fun (n : ℕ) => s.strays r n = none;
     let served : ℕ → Prop := fun (n : ℕ) =>
       inside n ∧ Tab.get 0 s.gens r.ctx = r.gen ∧ s.chanRetired p.chan = false ∧ s.keyServed r.key = true;
     let b : NapBuf := buf 0 false;
     let data : Bytes := [];
     reqOk r = true ∧
       s.place r.dpa = some p ∧
         u.match? p.chan p.cl r.key = some b ∧ served (List.length data) ∧ List.length data < 256 ∧ r.dpa % 256 + List.length data ≤ 256) ∧
    (let s : State := m1;
     let r : Req := r0 256;
     let p : Place := { chan := 1, cl := 0, byte := 0 };
     let u : State := s.beat 2 (p.chan / 16);
     let inside : ℕ → Prop := fun (n : ℕ) => s.strays r n = none;
     let served : ℕ → Prop := fun (n : ℕ) =>
       inside n ∧ Tab.get 0 s.gens r.ctx = r.gen ∧ s.chanRetired p.chan = false ∧ s.keyServed r.key = true;
     let b : NapBuf := buf 0 false;
     reqOk r = true ∧ s.place r.dpa = some p ∧ u.match? p.chan p.cl r.key = some b ∧ served 64 ∧ r.dpa % 64 = 0) ∧
    (let s : State := m1;
     let r : Req := r0 256;
     let p : Place := { chan := 1, cl := 0, byte := 0 };
     let u : State := s.beat 2 (p.chan / 16);
     let inside : ℕ → Prop := fun (n : ℕ) => s.strays r n = none;
     let served : ℕ → Prop := fun (n : ℕ) =>
       inside n ∧ Tab.get 0 s.gens r.ctx = r.gen ∧ s.chanRetired p.chan = false ∧ s.keyServed r.key = true;
     let b : NapBuf := buf 0 false;
     let wide : Bool := true;
     let n : ℕ := if wide = true then 8 else 4;
     reqOk r = true ∧ s.place r.dpa = some p ∧ u.match? p.chan p.cl r.key = some b ∧ served n ∧ r.dpa % n = 0) ∧
    (let s : State := m0;
     let r : Req := r0 264;
     let p : Place := { chan := 1, cl := 0, byte := 8 };
     let small : List (Instr × ℕ) :=
       [(Instr.napShortRead r 8, 8), (Instr.napShortRead r 32, 32), (Instr.napShortRead r 64, 64)];
     let e : Instr × ℕ := (Instr.napShortRead r 32, 32);
     reqOk r = true ∧ s.place r.dpa = some p ∧ e ∈ small ∧ r.dpa % e.2 ≠ 0) ∧
    (let s : State := m0;
     let r : Req := r0 264;
     let p : Place := { chan := 1, cl := 0, byte := 8 };
     reqOk r = true ∧ s.place r.dpa = some p ∧ r.dpa % 64 ≠ 0) ∧
    (let s : State := m0;
     let r : Req := r0 508;
     let p : Place := { chan := 1, cl := 0, byte := 252 };
     let wide : Bool := true;
     reqOk r = true ∧ s.place r.dpa = some p ∧ (r.dpa % if wide = true then 8 else 4) ≠ 0) := by
  refine ⟨?_, ?_, ?_, ?_, ?_, ?_, ?_, ?_, ?_, ?_, ?_, ?_, ?_⟩
  · first | decide +kernel | (simp only [State.holds, State.sameBytes]; decide +kernel)
  · first | decide +kernel | (simp only [State.holds, State.sameBytes]; decide +kernel)
  · first | decide +kernel | (simp only [State.holds, State.sameBytes]; decide +kernel)
  · first | decide +kernel | (simp only [State.holds, State.sameBytes]; decide +kernel)
  · first | decide +kernel | (simp only [State.holds, State.sameBytes]; decide +kernel)
  · first | decide +kernel | (simp only [State.holds, State.sameBytes]; decide +kernel)
  · first | decide +kernel | (simp only [State.holds, State.sameBytes]; decide +kernel)
  · first | decide +kernel | (simp only [State.holds, State.sameBytes]; decide +kernel)
  · first | decide +kernel | (simp only [State.holds, State.sameBytes]; decide +kernel)
  · first | decide +kernel | (simp only [State.holds, State.sameBytes]; decide +kernel)
  · first | decide +kernel | (simp only [State.holds, State.sameBytes]; decide +kernel)
  · first | decide +kernel | (simp only [State.holds, State.sameBytes]; decide +kernel)
  · first | decide +kernel | (simp only [State.holds, State.sameBytes]; decide +kernel)

end Sys2Proof.Tests.C15

namespace Sys2Proof.Tests.C15b

open Sys2Proof.Machine

def r0 (dpa : Nat) : Req := ⟨dpa, 0, 8, 0, 16, 0⟩
def rk (dpa : Nat) : Req := ⟨dpa, 5, 8, 0, 16, 0⟩
def m0 : State := { tWork with mclk := 999, mem := Memory.write [] (lineKey 1 0) [1,2,3,4], cmds := [(16, [{ q := 16, seq := 0, desc := [], ctx := 8, part := 3, started := true, ranges := [{}, { addr := 0, len := 0x400000, need := 3 }, { addr := 0, len := 0x400000, need := 3, key := 5 }] }])] }
def n1 : State := { m0 with chans := [(1, { eras := [2,4,6,8,10], spared := [7], sweep := some (10, 5), scrub := 0x7FFFFF })] }
def n2 : State := { m0 with chans := [(1, { sweep := some (10, 0x7FFFFF), eras := [10], spared := [1,2] })], badLines := [(lineNo 1 0, 1)] }
def g1 : State := m0.puts [(mapPg + 0x420, 0)]
def g2 : State := { m0 with cmds := [] }.puts [(mapPg + 0x420, 7), (mapPg + 0x424, 2), (mapPg + 0x428, 65), (mapPg + 0x42C, 1), (pciPg + PCI_DLOG_SEL, 4), (dlogPg 4 + 0x204, 5), (partPg 3 + PART_DLOG_CTL, 5)]
def g3 : State := { (g1.puts [(mapPg + 0x424, 0x300), (mapPg + 0x428, 65), (mapPg + 0x42C, 1)]) with parts := [(3, { dlog := [7] })] }
def tr (fn p n : Nat) (mk : Bool) : Trans := { fn := fn, page := p, pages := n, bus := 0x1000, rd := true, wr := true, marked := mk }
def hcmd (st wk : Bool) : Cmd := { q := 16, seq := 0, desc := [], ctx := 8, part := 3, started := st, work := wk, ranges := [{ loc := 1, runs := [(20, 2, 0x1000)] }], buf := [1,2] }
def h1 : State := { tWork with trans := [tr 0 20 4 false, tr 4 20 4 false], xreq := [(4, 21), (0, 21), (0,30)], inval := [0], cmds := [(16, [hcmd true false])] }
def h2 : State := { tWork with trans := [tr 0 20 4 true, tr 4 20 4 false], xreq := [(4, 21), (0, 21)], inval := [0, 4], cmds := [(16, [hcmd true true])] }
def m5 : State := m0.puts [(keyAt 5 + KEY_STAT_STATE.off, 1)]
def m7 : State := { m5 with seals := [(lineNo 1 0, m5.sealFor 5 0x100)], mem := m0.mem }

/-- Concrete inputs that meet the hypotheses of `Obligations.LanesRefreshScrubAndRepair`, clause by clause. -/
theorem witness_LanesRefreshScrubAndRepair :
    (let s := m0;
     let chan := 1;
     let c := s.atChan chan;
     let runs := s.halted.contains (136 + chan / 16) = false;
     let cl := 0;
     let bad := [];
     let r := r0 256;
     let e := cwErrors (c.lanesAt cl) bad;
     let tagged := fun (l : List ℕ) => (c.lanesAt cl).tagErrors l;
     let mine := r.key = 0 ∨ Tab.get { } s.seals (lineNo chan cl) = s.sealFor r.key r.dpa;
     chan < 256 ∧
       cl < 2 ^ 23 ∧
         reqOk r = true ∧
           runs ∧
             (∀ b ∈ s.bufs chan, b.cl ≠ cl) ∧
               Tab.get 0 s.badLines (lineNo chan cl) = 0 ∧ e 0 = (0, 0) ∧ e 1 = (0, 0) ∧ tagged bad = false ∧ mine) ∧
    (let s := m0;
     let chan := 1;
     let c := s.atChan chan;
     let runs := s.halted.contains (136 + chan / 16) = false;
     let cl := 0;
     let bad := [];
     let r := rk 256;
     let e := cwErrors (c.lanesAt cl) bad;
     let fits := ∀ w < 2, 2 * (e w).1 + (e w).2 ≤ 8;
     let mine := r.key = 0 ∨ Tab.get { } s.seals (lineNo chan cl) = s.sealFor r.key r.dpa;
     chan < 256 ∧
       cl < 2 ^ 23 ∧
         reqOk r = true ∧
           runs ∧ (∀ b ∈ s.bufs chan, b.cl ≠ cl) ∧ Tab.get 0 s.badLines (lineNo chan cl) = 0 ∧ fits ∧ ¬mine) ∧
    (let s := m0;
     let chan := 1;
     let c := s.atChan chan;
     let runs := s.halted.contains (136 + chan / 16) = false;
     let cl := 0;
     let bad := [0, 2, 4, 6];
     let r := r0 256;
     let e := cwErrors (c.lanesAt cl) bad;
     let fits := ∀ w < 2, 2 * (e w).1 + (e w).2 ≤ 8;
     let tagged := fun (l : List ℕ) => (c.lanesAt cl).tagErrors l;
     let mine := r.key = 0 ∨ Tab.get { } s.seals (lineNo chan cl) = s.sealFor r.key r.dpa;
     chan < 256 ∧
       cl < 2 ^ 23 ∧
         reqOk r = true ∧
           runs ∧
             (∀ b ∈ s.bufs chan, b.cl ≠ cl) ∧
               Tab.get 0 s.badLines (lineNo chan cl) = 0 ∧
                 fits ∧ (e 0).1 + (e 1).1 ≠ 0 ∧ (e 0).2 + (e 1).2 = 0 ∧ tagged bad = false ∧ mine) ∧
    (let s := m0;
     let chan := 1;
     let c := s.atChan chan;
     let runs := s.halted.contains (136 + chan / 16) = false;
     let cl := 0;
     let bad := [0, 2, 4, 6, 8];
     let r := r0 256;
     let e := cwErrors (c.lanesAt cl) bad;
     let fits := ∀ w < 2, 2 * (e w).1 + (e w).2 ≤ 8;
     chan < 256 ∧
       cl < 2 ^ 23 ∧
         reqOk r = true ∧
           runs ∧ (∀ b ∈ s.bufs chan, b.cl ≠ cl) ∧ Tab.get 0 s.badLines (lineNo chan cl) = 0 ∧ ¬fits) ∧
    (let s : State := m7;
     let chan : ℕ := 1;
     let c : ChanSt := s.atChan chan;
     let runs : Prop := s.halted.contains (136 + chan / 16) = false;
     let cl : ℕ := 0;
     let bad : List ℕ := [280];
     let again : List ℕ := [];
     let r : Req := rk 256;
     let e : ℕ → ℕ × ℕ := cwErrors (c.lanesAt cl) bad;
     let fits : Prop := ∀ w < 2, 2 * (e w).1 + (e w).2 ≤ 8;
     let tagged : List ℕ → Bool := fun (l : List ℕ) => (c.lanesAt cl).tagErrors l;
     let mine : Prop := r.key = 0 ∨ Tab.get { } s.seals (lineNo chan cl) = s.sealFor r.key r.dpa;
     chan < 256 ∧
       cl < 2 ^ 23 ∧
         reqOk r = true ∧
           runs ∧
             (∀ b ∈ s.bufs chan, b.cl ≠ cl) ∧
               Tab.get 0 s.badLines (lineNo chan cl) = 0 ∧
                 r.key ≠ 0 ∧ fits ∧ tagged bad = true ∧ mine ∧ again = []) ∧
    (let s : State := m7;
     let chan : ℕ := 1;
     let c : ChanSt := s.atChan chan;
     let runs : Prop := s.halted.contains (136 + chan / 16) = false;
     let cl : ℕ := 0;
     let bad : List ℕ := [280];
     let again : List ℕ := [280];
     let r : Req := rk 256;
     let e : ℕ → ℕ × ℕ := cwErrors (c.lanesAt cl) bad;
     let fits : Prop := ∀ w < 2, 2 * (e w).1 + (e w).2 ≤ 8;
     let tagged : List ℕ → Bool := fun (l : List ℕ) => (c.lanesAt cl).tagErrors l;
     let mine : Prop := r.key = 0 ∨ Tab.get { } s.seals (lineNo chan cl) = s.sealFor r.key r.dpa;
     chan < 256 ∧
       cl < 2 ^ 23 ∧
         reqOk r = true ∧
           runs ∧
             (∀ b ∈ s.bufs chan, b.cl ≠ cl) ∧
               Tab.get 0 s.badLines (lineNo chan cl) = 0 ∧
                 r.key ≠ 0 ∧ fits ∧ tagged bad = true ∧ mine ∧ again = bad) ∧
    (let chan := 1;
     let tower := 0;
     chan < 256 ∧ tower < 16) ∧
    (let s := n2;
     let chan := 1;
     let c := s.atChan chan;
     let runs := s.halted.contains (136 + chan / 16) = false;
     let known := Tab.get 0 s.badLines (lineNo chan c.scrub);
     let w := 0;
     chan < 256 ∧ runs ∧ w < 2 ∧ known = w + 1) ∧
    (let s := m0;
     let chan := 1;
     let c := s.atChan chan;
     let runs := s.halted.contains (136 + chan / 16) = false;
     let bad := [];
     let e := cwErrors (c.lanesAt c.scrub) bad;
     let fits := ∀ w < 2, 2 * (e w).1 + (e w).2 ≤ 8;
     let known := Tab.get 0 s.badLines (lineNo chan c.scrub);
     chan < 256 ∧ runs ∧ known = 0 ∧ fits ∧ e 0 = (0, 0) ∧ e 1 = (0, 0)) ∧
    (let s := m0;
     let chan := 1;
     let c := s.atChan chan;
     let runs := s.halted.contains (136 + chan / 16) = false;
     let bad := [0, 2, 4, 6];
     let e := cwErrors (c.lanesAt c.scrub) bad;
     let fits := ∀ w < 2, 2 * (e w).1 + (e w).2 ≤ 8;
     let known := Tab.get 0 s.badLines (lineNo chan c.scrub);
     chan < 256 ∧ runs ∧ known = 0 ∧ fits ∧ (e 0).1 + (e 0).2 + (e 1).1 + (e 1).2 ≠ 0) ∧
    (let s := m0;
     let chan := 1;
     let c := s.atChan chan;
     let runs := s.halted.contains (136 + chan / 16) = false;
     let bad := [0, 2, 4, 6, 8];
     let e := cwErrors (c.lanesAt c.scrub) bad;
     let fits := ∀ w < 2, 2 * (e w).1 + (e w).2 ≤ 8;
     let known := Tab.get 0 s.badLines (lineNo chan c.scrub);
     chan < 256 ∧ runs ∧ known = 0 ∧ ¬fits) ∧
    (let s := m0;
     let chan := 1;
     let c := s.atChan chan;
     let fn := 256;
     let v := 10 + 512;
     let w := written Pg.memc MEMC_REPAIR_CTL v;
     let lane := w % 512;
     let takes := c.sweep = none ∧ c.spared.length + c.dead.length < 8 ∧ lane ≤ 271;
     chan < 256 ∧ (fn = 0 ∨ fn = 256) ∧ s.holds fn Pg.memc chan ∧ bitOf w 9 = true ∧ takes) ∧
    (let s := m0;
     let chan := 1;
     let c := s.atChan chan;
     let fn := 256;
     let v := 10;
     let w := written Pg.memc MEMC_REPAIR_CTL v;
     let lane := w % 512;
     let takes := c.sweep = none ∧ c.spared.length + c.dead.length < 8 ∧ lane ≤ 271;
     chan < 256 ∧ (fn = 0 ∨ fn = 256) ∧ s.holds fn Pg.memc chan ∧ (bitOf w 9 = false ∨ ¬takes)) ∧
    (let s := m0;
     let chan := 1;
     let c := s.atChan chan;
     chan < 256 ∧ c.sweep = none) ∧
    (let s := n1;
     let chan := 1;
     let c := s.atChan chan;
     let runs := s.halted.contains (136 + chan / 16) = false;
     let lane := 10;
     let ptr := 5;
     chan < 256 ∧
       runs ∧
         c.sweep = some (lane, ptr) ∧
           Tab.get 0 s.badLines (lineNo chan ptr) = 0 ∧
             (∀ w < 2, (List.filter (fun (l : ℕ) => Decidable.decide (l < 272) && Decidable.decide (l % 2 = w)) c.eras).length ≤ 8) ∧ ptr + 1 < 2 ^ 23) ∧
    (let s := n2;
     let chan := 1;
     let c := s.atChan chan;
     let runs := s.halted.contains (136 + chan / 16) = false;
     let lane := 10;
     let ptr := 8388607;
     chan < 256 ∧
       runs ∧
         c.sweep = some (lane, ptr) ∧
           Tab.get 0 s.badLines (lineNo chan ptr) = 0 ∧
             (∀ w < 2, (List.filter (fun (l : ℕ) => Decidable.decide (l < 272) && Decidable.decide (l % 2 = w)) c.eras).length ≤ 8) ∧ 2 ^ 23 ≤ ptr + 1) := by
  refine ⟨?_, ?_, ?_, ?_, ?_, ?_, ?_, ?_, ?_, ?_, ?_, ?_, ?_, ?_, ?_, ?_⟩
  · first | decide +kernel | (simp only [State.holds, State.sameBytes]; decide +kernel)
  · first | decide +kernel | (simp only [State.holds, State.sameBytes]; decide +kernel)
  · first | decide +kernel | (simp only [State.holds, State.sameBytes]; decide +kernel)
  · first | decide +kernel | (simp only [State.holds, State.sameBytes]; decide +kernel)
  · first | decide +kernel | (simp only [State.holds, State.sameBytes]; decide +kernel)
  · first | decide +kernel | (simp only [State.holds, State.sameBytes]; decide +kernel)
  · first | decide +kernel | (simp only [State.holds, State.sameBytes]; decide +kernel)
  · first | decide +kernel | (simp only [State.holds, State.sameBytes]; decide +kernel)
  · first | decide +kernel | (simp only [State.holds, State.sameBytes]; decide +kernel)
  · first | decide +kernel | (simp only [State.holds, State.sameBytes]; decide +kernel)
  · first | decide +kernel | (simp only [State.holds, State.sameBytes]; decide +kernel)
  · first | decide +kernel | (simp only [State.holds, State.sameBytes]; decide +kernel)
  · first | decide +kernel | (simp only [State.holds, State.sameBytes]; decide +kernel)
  · first | decide +kernel | (simp only [State.holds, State.sameBytes]; decide +kernel)
  · first | decide +kernel | (simp only [State.holds, State.sameBytes]; decide +kernel)
  · first | decide +kernel | (simp only [State.holds, State.sameBytes]; decide +kernel)

/-- Concrete inputs that meet the hypotheses of `Obligations.RegionsAndDirtyLogs`, clause by clause. -/
theorem witness_RegionsAndDirtyLogs :
    (let s := g3;
     let r := 2;
     let v := 7;
     let a := regionAt r + GLB_REGION_0;
     let w := written Pg.map (GLB_REGION_0 + 16 * r) v;
     let t := s.wr a w;
     r < 64 ∧ s.holds 0 Pg.map 0 ∧ bitOf w 0 = true ∧ s.regValid r = false ∧ t.regionRule r = 0) ∧
    (let s := m0;
     let r := 2;
     let v := 7;
     let a := regionAt r + GLB_REGION_0;
     let w := written Pg.map (GLB_REGION_0 + 16 * r) v;
     let t := s.wr a w;
     r < 64 ∧ s.holds 0 Pg.map 0 ∧ bitOf w 0 = true ∧ s.regValid r = false ∧ t.regionRule r ≠ 0) ∧
    (let s := m0;
     let r := 0;
     let v := 7;
     let a := regionAt r + GLB_REGION_0;
     let w := written Pg.map (GLB_REGION_0 + 16 * r) v;
     r < 64 ∧ s.holds 0 Pg.map 0 ∧ bitOf w 0 = true ∧ s.regValid r = true ∧ w = s.rd a) ∧
    (let s := m0;
     let r := 0;
     let v := 1;
     let a := regionAt r + GLB_REGION_0;
     let w := written Pg.map (GLB_REGION_0 + 16 * r) v;
     r < 64 ∧ s.holds 0 Pg.map 0 ∧ bitOf w 0 = true ∧ s.regValid r = true ∧ w ≠ s.rd a) ∧
    (let s := m0;
     let r := 0;
     let v := 6;
     let w := written Pg.map (GLB_REGION_0 + 16 * r) v;
     r < 64 ∧ s.holds 0 Pg.map 0 ∧ bitOf w 0 = false ∧ s.regValid r = true ∧ s.regionInUse r = true) ∧
    (let s : State := g2;
     let r : ℕ := 2;
     let v : Word := 6;
     let w : ℕ := written Pg.map (GLB_REGION_0 + 16 * r) v;
     r < 64 ∧ s.holds 0 Pg.map 0 ∧ bitOf w 0 = false ∧ s.regValid r = true ∧ s.regionInUse r = false) ∧
    (let s := m0;
     let v := 7;
     let f := s.get pciPg PCI_DLOG_SEL_FUNCTION;
     let w := written Pg.pci PCI_DLOG_CTL_FLIP.off v;
     s.holds 0 Pg.pci 0 ∧
       bitOf w 4 = false ∧
         bitOf w 1 = true ∧ s.on (dlogPg f) PCI_DLOG_CTL_FLIP_BUSY = false) ∧
    (let s := g2;
     let v := 7;
     let f := s.get pciPg PCI_DLOG_SEL_FUNCTION;
     let w := written Pg.pci PCI_DLOG_CTL_FLIP.off v;
     s.holds 0 Pg.pci 0 ∧
       bitOf w 4 = false ∧ s.on (dlogPg f) PCI_DLOG_CTL_FLIP_BUSY = true) ∧
    (let s := m0;
     let f := 0;
     f < 256 ∧ s.on (dlogPg f) PCI_DLOG_CTL_FLIP_BUSY = false) ∧
    (let s := g2;
     let f := 4;
     f < 256 ∧ s.on (dlogPg f) PCI_DLOG_CTL_FLIP_BUSY = true) ∧
    (let s := m0;
     let p := 3;
     let v := 7;
     let w := written Pg.part PART_DLOG_CTL_FLIP.off v;
     p < 32 ∧
       s.holds 0 Pg.part p ∧
         bitOf w 1 = true ∧ s.on (partPg p) PART_DLOG_CTL_FLIP_BUSY = false) ∧
    (let s := m0;
     let p := 3;
     p < 32 ∧ s.on (partPg p) PART_DLOG_CTL_FLIP_BUSY = false) ∧
    (let s := g2;
     let p := 3;
     p < 32 ∧ s.on (partPg p) PART_DLOG_CTL_FLIP_BUSY = true) := by
  refine ⟨?_, ?_, ?_, ?_, ?_, ?_, ?_, ?_, ?_, ?_, ?_, ?_, ?_⟩
  · first | decide +kernel | (simp only [State.holds, State.sameBytes]; decide +kernel)
  · first | decide +kernel | (simp only [State.holds, State.sameBytes]; decide +kernel)
  · first | decide +kernel | (simp only [State.holds, State.sameBytes]; decide +kernel)
  · first | decide +kernel | (simp only [State.holds, State.sameBytes]; decide +kernel)
  · first | decide +kernel | (simp only [State.holds, State.sameBytes]; decide +kernel)
  · exact ⟨by decide, by unfold State.holds; decide +kernel, by decide +kernel, by decide +kernel,
      regionInUse_none (by decide +kernel) (by decide +kernel) (by decide +kernel) rfl⟩
  · first | decide +kernel | (simp only [State.holds, State.sameBytes]; decide +kernel)
  · first | decide +kernel | (simp only [State.holds, State.sameBytes]; decide +kernel)
  · first | decide +kernel | (simp only [State.holds, State.sameBytes]; decide +kernel)
  · first | decide +kernel | (simp only [State.holds, State.sameBytes]; decide +kernel)
  · first | decide +kernel | (simp only [State.holds, State.sameBytes]; decide +kernel)
  · first | decide +kernel | (simp only [State.holds, State.sameBytes]; decide +kernel)
  · first | decide +kernel | (simp only [State.holds, State.sameBytes]; decide +kernel)

/-- Concrete inputs that meet the hypotheses of `Obligations.HostTranslations`, clause by clause. -/
theorem witness_HostTranslations :
    (let s := tWork;
     let fn := 0;
     let page := 20;
     let pages := 0;
     let answers := fun (e : ℕ × ℕ) => e.1 = fn ∧ page ≤ e.2 ∧ e.2 < page + Max.max pages 1;
     fn < 256 ∧ ∀ e ∈ s.xreq, ¬answers e) ∧
    (let s := h1;
     let fn := 0;
     let page := 20;
     let pages := 2;
     let answers := fun (e : ℕ × ℕ) => e.1 = fn ∧ page ≤ e.2 ∧ e.2 < page + Max.max pages 1;
     fn < 256 ∧ (∃ e ∈ s.xreq, answers e) ∧ (∀ x ∈ s.trans, x.fn = fn → x.marked = false) ∧ ∀ c ∈ s.allCmds, c.retrans = false) ∧
    (let s := tWork;
     let fn := 0;
     let page := 20;
     fn < 256 ∧ (fn, page) ∉ s.xreq) ∧
    (let s := h2;
     let fn := 0;
     let page := 21;
     let again := ∃ x ∈ s.trans, x.marked = true ∧ x.fn = fn ∧ x.page ≤ page ∧ page < x.page + x.pages;
     fn < 256 ∧ (fn, page) ∈ s.xreq ∧ again) ∧
    (let s := h1;
     let fn := 0;
     let page := 21;
     let again := ∃ x ∈ s.trans, x.marked = true ∧ x.fn = fn ∧ x.page ≤ page ∧ page < x.page + x.pages;
     fn < 256 ∧ (fn, page) ∈ s.xreq ∧ ¬again) ∧
    (let fn := 0;
     fn < 256) ∧
    (let s := tWork;
     let fn := 0;
     fn < 256 ∧ (fn ∉ s.inval ∨ s.hostOutstanding fn = true)) ∧
    (let s := h1;
     let fn := 0;
     fn < 256 ∧ fn ∈ s.inval ∧ s.hostOutstanding fn = false) ∧
    (let s := h2;
     let fn := 0;
     let q := 16;
     let seq := 0;
     let c := hcmd true true;
     fn < 256 ∧ q < 4096 ∧ s.cmd? q seq = some c ∧ (c.work = true ∨ c.started = false)) ∧
    (let s := h1;
     let fn := 0;
     let q := 16;
     let seq := 0;
     let status := 1;
     let c := hcmd true false;
     fn < 256 ∧ q < 4096 ∧ s.cmd? q seq = some c ∧ c.work = false ∧ c.started = true ∧ status ≠ 0) ∧
    (let s := h1;
     let fn := 0;
     let q := 16;
     let seq := 0;
     let status := 0;
     let dst := 0;
     let c := hcmd true false;
     fn < 256 ∧ q < 4096 ∧ s.cmd? q seq = some c ∧ c.work = false ∧ c.started = true ∧ status = 0 ∧ s.lineInOf q seq dst = none) := by
  refine ⟨?_, ?_, ?_, ?_, ?_, ?_, ?_, ?_, ?_, ?_, ?_⟩
  · first | decide +kernel | (simp only [State.holds, State.sameBytes]; decide +kernel)
  · first | decide +kernel | (simp only [State.holds, State.sameBytes]; decide +kernel)
  · first | decide +kernel | (simp only [State.holds, State.sameBytes]; decide +kernel)
  · first | decide +kernel | (simp only [State.holds, State.sameBytes]; decide +kernel)
  · first | decide +kernel | (simp only [State.holds, State.sameBytes]; decide +kernel)
  · first | decide +kernel | (simp only [State.holds, State.sameBytes]; decide +kernel)
  · first | decide +kernel | (simp only [State.holds, State.sameBytes]; decide +kernel)
  · first | decide +kernel | (simp only [State.holds, State.sameBytes]; decide +kernel)
  · first | decide +kernel | (simp only [State.holds, State.sameBytes]; decide +kernel)
  · first | decide +kernel | (simp only [State.holds, State.sameBytes]; decide +kernel)
  · first | decide +kernel | (simp only [State.holds, State.sameBytes]; decide +kernel)

end Sys2Proof.Tests.C15b

namespace Sys2Proof.Tests.C20

open Sys2Proof.Machine

def cA : Cmd := { q := 16, seq := 0, desc := [], ctx := 8, part := 3 }
def q0 : State := tWork.puts [(quePg 16 + QUE_CTL, 12), (quePg 16 + QUE_STAT, 0)]
def q1 : State := { tWork with cmds := [(16, [cA])], latched := [(16, [(0, 5)])] }
def q2 : State := q0.puts [(ctxPg 8 + CTX_STAT, 3 * 2 ^ 16)]
def q3 : State := q0.puts [(quePg 16 + QUE_RING, 0x3FFFFF)]
def q5 : State := tWork.puts [(quePg 16 + QUE_STAT, 3)]
def q6 : State := tWork.puts [(quePg 16 + QUE_STAT, 3), (quePg 16 + QUE_CPL, 0x3FFFFF)]

/-- Concrete inputs that meet the hypotheses of `Obligations.QueueEnableAndDisable`, clause by clause. -/
theorem witness_QueueEnableAndDisable :
    (let s := q2;
     let q := 16;
     let v := 13;
     let pg := quePg q;
     let w := written Pg.que QUE_CTL v;
     let t := s.wr (pg + QUE_CTL) (putBits (w &&& maskOf 24 0) 0 0 0);
     q < 4096 ∧
       s.holds 0 Pg.que q ∧
         bitOf w 25 = false ∧
           bitOf w 26 = false ∧
             bitOf w 0 = true ∧
               s.on pg QUE_CTL_ENABLE = false ∧
                 t.on pg QUE_STAT_ENABLED = false ∧ t.ctxState (t.queCtx q) ≠ 1) ∧
    (let s := q3;
     let q := 16;
     let v := 13;
     let pg := quePg q;
     let w := written Pg.que QUE_CTL v;
     let t := s.wr (pg + QUE_CTL) (putBits (w &&& maskOf 24 0) 0 0 0);
     q < 4096 ∧
       s.holds 0 Pg.que q ∧
         bitOf w 25 = false ∧
           bitOf w 26 = false ∧
             bitOf w 0 = true ∧
               s.on pg QUE_CTL_ENABLE = false ∧
                 t.on pg QUE_STAT_ENABLED = false ∧ t.ctxState (t.queCtx q) = 1 ∧ ¬(t.ringOk q = true ∧ t.cplOk q = true)) ∧
    (let s := q0;
     let q := 16;
     let v := 13 + 64;
     let pg := quePg q;
     let w := written Pg.que QUE_CTL v;
     let t := s.wr (pg + QUE_CTL) (putBits (w &&& maskOf 24 0) 0 0 0);
     let late :=
       t.get pg QUE_CTL_CLASS = 1 ∧ t.rd (partPg (t.partOf (t.queCtx q)) + PART_RT_MASK) = 0;
     q < 4096 ∧
       s.holds 0 Pg.que q ∧
         bitOf w 25 = false ∧
           bitOf w 26 = false ∧
             bitOf w 0 = true ∧
               s.on pg QUE_CTL_ENABLE = false ∧
                 t.on pg QUE_STAT_ENABLED = false ∧
                   t.ctxState (t.queCtx q) = 1 ∧ t.ringOk q = true ∧ t.cplOk q = true ∧ late) ∧
    (let s := q0;
     let q := 16;
     let v := 13;
     let pg := quePg q;
     let w := written Pg.que QUE_CTL v;
     let t := s.wr (pg + QUE_CTL) (putBits (w &&& maskOf 24 0) 0 0 0);
     let late :=
       t.get pg QUE_CTL_CLASS = 1 ∧ t.rd (partPg (t.partOf (t.queCtx q)) + PART_RT_MASK) = 0;
     q < 4096 ∧
       s.holds 0 Pg.que q ∧
         bitOf w 25 = false ∧
           bitOf w 26 = false ∧
             bitOf w 0 = true ∧
               s.on pg QUE_CTL_ENABLE = false ∧
                 t.on pg QUE_STAT_ENABLED = false ∧
                   t.ctxState (t.queCtx q) = 1 ∧ t.ringOk q = true ∧ t.cplOk q = true ∧ ¬late) ∧
    (let s := q1;
     let q := 16;
     let v := 12;
     let pg := quePg q;
     let w := written Pg.que QUE_CTL v;
     q < 4096 ∧
       s.holds 0 Pg.que q ∧
         bitOf w 25 = false ∧
           bitOf w 26 = false ∧
             bitOf w 0 = false ∧ s.on pg QUE_CTL_ENABLE = true ∧ s.queueBusy q = true) ∧
    (let s := tWork;
     let q := 16;
     let v := 12;
     let pg := quePg q;
     let w := written Pg.que QUE_CTL v;
     q < 4096 ∧
       s.holds 0 Pg.que q ∧
         bitOf w 25 = false ∧
           bitOf w 26 = false ∧
             bitOf w 0 = false ∧ s.on pg QUE_CTL_ENABLE = true ∧ s.queueBusy q = false) := by
  refine ⟨?_, ?_, ?_, ?_, ?_, ?_⟩
  · first | decide +kernel | (simp only [State.holds, State.sameBytes]; decide +kernel)
  · first | decide +kernel | (simp only [State.holds, State.sameBytes]; decide +kernel)
  · first | decide +kernel | (simp only [State.holds, State.sameBytes]; decide +kernel)
  · first | decide +kernel | (simp only [State.holds, State.sameBytes]; decide +kernel)
  · first | decide +kernel | (simp only [State.holds, State.sameBytes]; decide +kernel)
  · first | decide +kernel | (simp only [State.holds, State.sameBytes]; decide +kernel)

/-- Concrete inputs that meet the hypotheses of `Obligations.QueueRestartLatchDoorbell`, clause by clause. -/
theorem witness_QueueRestartLatchDoorbell :
    (let s := q5;
     let q := 16;
     let v := 33554433 + 12;
     let pg := quePg q;
     let w := written Pg.que QUE_CTL v;
     let t := s.wr (pg + QUE_CTL) (w &&& maskOf 24 0);
     q < 4096 ∧
       s.holds 0 Pg.que q ∧
         bitOf w 0 = s.on pg QUE_CTL_ENABLE ∧
           bitOf w 26 = false ∧
             bitOf w 25 = true ∧ t.on pg QUE_STAT_HALTED = true ∧ t.cplOk q = true) ∧
    (let s := q6;
     let q := 16;
     let v := 33554433 + 12;
     let pg := quePg q;
     let w := written Pg.que QUE_CTL v;
     let t := s.wr (pg + QUE_CTL) (w &&& maskOf 24 0);
     q < 4096 ∧
       s.holds 0 Pg.que q ∧
         bitOf w 0 = s.on pg QUE_CTL_ENABLE ∧
           bitOf w 26 = false ∧
             bitOf w 25 = true ∧ t.on pg QUE_STAT_HALTED = true ∧ t.cplOk q = false) ∧
    (let s := tWork;
     let q := 16;
     let v := 67108865;
     let pg := quePg q;
     let w := written Pg.que QUE_CTL v;
     q < 4096 ∧
       s.holds 0 Pg.que q ∧
         bitOf w 0 = true ∧
           s.on pg QUE_CTL_ENABLE = true ∧ bitOf w 25 = false ∧ bitOf w 26 = true) ∧
    (let s := tWork;
     let q := 16;
     let v := 0;
     let pg := quePg q;
     let ahead := fun (n : ℕ) => (n + 2 ^ 32 - s.rd (pg + QUE_HEAD)) % 2 ^ 32;
     let old := BitVec.toNat (Tab.get 0 s.tails q);
     let good :=
       s.on pg QUE_STAT_ENABLED = true ∧
         s.ctxState (s.queCtx q) = 1 ∧ ahead old ≤ ahead (BitVec.toNat v) ∧ ahead (BitVec.toNat v) ≤ 2 ^ s.queLog q;
     q < 4096 ∧ s.holds 0 Pg.que q ∧ good) ∧
    (let s := tWork;
     let q := 16;
     let v := 33554433 + 12;
     let pg := quePg q;
     let ahead := fun (n : ℕ) => (n + 2 ^ 32 - s.rd (pg + QUE_HEAD)) % 2 ^ 32;
     let old := BitVec.toNat (Tab.get 0 s.tails q);
     let good :=
       s.on pg QUE_STAT_ENABLED = true ∧
         s.ctxState (s.queCtx q) = 1 ∧ ahead old ≤ ahead (BitVec.toNat v) ∧ ahead (BitVec.toNat v) ≤ 2 ^ s.queLog q;
     q < 4096 ∧ s.holds 0 Pg.que q ∧ ¬good) := by
  refine ⟨?_, ?_, ?_, ?_, ?_⟩
  · first | decide +kernel | (simp only [State.holds, State.sameBytes]; decide +kernel)
  · first | decide +kernel | (simp only [State.holds, State.sameBytes]; decide +kernel)
  · first | decide +kernel | (simp only [State.holds, State.sameBytes]; decide +kernel)
  · first | decide +kernel | (simp only [State.holds, State.sameBytes]; decide +kernel)
  · first | decide +kernel | (simp only [State.holds, State.sameBytes]; decide +kernel)

end Sys2Proof.Tests.C20

namespace Sys2Proof.Tests.C21

open Sys2Proof.Machine

def vf (s : State) : State := { (s.puts [(ctxPg 8 + 0x20, 4), (quePg 16 + 0x20, 4), (Pg.base .fen 2 + 0x20, 4)]) with attach := [(4, some 3)], maps := [(mapKey 4 0 0, some 16), (mapKey 4 1 0, some 64), (mapKey 4 2 0, some 8)] }
def stage (ws : List Nat) (s : State) : State := { s with segStage := (List.range 6).foldl (fun t i => Tab.put 0 (segAt 8 1 + CTX_SEG_0 + 4 * i) (BitVec.ofNat 32 (ws.getD i 0)) t) [] }
def cS : Cmd := { q := 16, seq := 0, desc := [], ctx := 8, part := 3, ranges := [{ seg := 1 }] }
def sg2 : State := vf (stage [0x39, 0, 0x1001, 0, 0x1000, 0] tWork)
def withSeg : State := tWork.puts [(segAt 8 1 + CTX_SEG_0, 0x39), (segAt 8 1 + CTX_SEG_2, 0x1000), (segAt 8 1 + CTX_SEG_4, 0x1000)]
def sg3 : State := { stage [0, 0, 0x1000, 0, 0x1000, 0] withSeg with cmds := [(16, [cS])] }
def sg4 : State := { sg3 with segPend := [(65, ⟨[1,0,0,0,0x100,0], false, false⟩)] }
def sg5 : State := { sg4 with cmds := [] }
def cl0 : State := vf (tWork.puts [(ctxPg 8 + CTX_STAT, 3 * 2 ^ 16)])
def cl1 : State := vf (tWork.puts [(ctxPg 8 + CTX_STAT, 3 * 2 ^ 16 + 3), (ctxPg 8 + CTX_SAVE_CTL, 0)])
def cl2 : State := vf (tWork.puts [(quePg 16 + QUE_STAT, 0), (quePg 16 + QUE_CTL, 0), (fenAt 64 + FEN_CTL, 0)])
def cl3 : State := { cl2.puts [(ctxPg 8 + CTX_STAT, 2 + 255 * 2 ^ 8 + 3 * 2 ^ 16)] with ctxs := [(8, { tearStep := 5 })] }
def cF : Cmd := { q := 16, seq := 0, desc := tDesc, ctx := 8, part := 3 }
def fb : State := tWork.puts [(fenAt 64 + FEN_STAT, 2), (fenAt 64 + FEN_TARGET, 5)]
def fr1 : State := vf fb
def fr2 : State := vf { fb with cmds := [(16, [cF])] }
def o1 : State := vf (tWork.puts [(ctxPg 8 + CTX_OBJ_SEG, 0x100), (ctxPg 8 + CTX_OBJ_LEN_LO, 64)])
def o2 : State := { o1 with objs := [(objKey 8 5, { state := 1, seg := 0, off := 0x100, len := 64 })] }
def o3 : State := { o2 with cmds := [(16, [{ cS with ranges := [{ handle := 5 }] }])] }
def o4 : State := o1.puts [(ctxPg 8 + CTX_OBJ_LEN_HI, 1)]

/-- Concrete inputs that meet the hypotheses of `Obligations.SegmentCommitAndApply`, clause by clause. -/
theorem witness_SegmentCommitAndApply :
    (let s := sg2;
     let fn := 4;
     let x := 8;
     let g := 1;
     let v := 2147483648;
     let e := segOfWords (s.segStaged x g);
     let p := s.get (ctxPg x) CTX_STAT_PARTITION;
     let c := if e.valid = true then s.segCheck p e else 0;
     let w := written Pg.ctx (536 + 32 * g) v;
     fn < 256 ∧
       x < 1024 ∧
         g < 8 ∧
           s.reachesPage fn 2 x = true ∧
             s.holds fn Pg.ctx x ∧ bitOf w 17 = false ∧ bitOf w 31 = true ∧ c ≠ 0) ∧
    (let s := tWork;
     let fn := 0;
     let x := 8;
     let g := 1;
     let v := 2147483648;
     let e := segOfWords (s.segStaged x g);
     let p := s.get (ctxPg x) CTX_STAT_PARTITION;
     let c := if e.valid = true then s.segCheck p e else 0;
     let w := written Pg.ctx (536 + 32 * g) v;
     fn < 256 ∧
       x < 1024 ∧
         g < 8 ∧
           s.reachesPage fn 2 x = true ∧
             s.holds fn Pg.ctx x ∧
               bitOf w 17 = false ∧
                 bitOf w 31 = true ∧
                   c = 0 ∧ s.rebalCovers p (s.seg x g) = false ∧ s.rebalCovers p e = false ∧ widening (s.seg x g) e = true) ∧
    (let s := sg3;
     let fn := 0;
     let x := 8;
     let g := 1;
     let v := 2147483648;
     let e := segOfWords (s.segStaged x g);
     let p := s.get (ctxPg x) CTX_STAT_PARTITION;
     let c := if e.valid = true then s.segCheck p e else 0;
     let k := x * 8 + g;
     let w := written Pg.ctx (536 + 32 * g) v;
     fn < 256 ∧
       x < 1024 ∧
         g < 8 ∧
           s.reachesPage fn 2 x = true ∧
             s.holds fn Pg.ctx x ∧
               bitOf w 17 = false ∧
                 bitOf w 31 = true ∧
                   c = 0 ∧
                     s.rebalCovers p (s.seg x g) = false ∧
                       s.rebalCovers p e = false ∧ widening (s.seg x g) e = false ∧ s.segHold x g ≠ 0 ∧ s.atSegPend k = { }) ∧
    (let s := sg4;
     let fn := 0;
     let x := 8;
     let g := 1;
     let v := 131072;
     let k := x * 8 + g;
     let w := written Pg.ctx (536 + 32 * g) v;
     fn < 256 ∧
       x < 1024 ∧
         g < 8 ∧
           s.reachesPage fn 2 x = true ∧
             s.holds fn Pg.ctx x ∧
               bitOf w 17 = true ∧ bitOf w 31 = false ∧ (s.atSegPend k).words ≠ [] ∧ (s.atSegPend k).applied = false) ∧
    (let s := sg5;
     let fn := 0;
     let x := 8;
     let g := 1;
     let k := x * 8 + g;
     let q := s.atSegPend k;
     fn < 256 ∧
       x < 1024 ∧
         g < 8 ∧
           q.words.length = 6 ∧ q.applied = false ∧ q.rebal = false ∧ s.segHold x g = 0 ∧ ∀ h < 8, h ≠ g → (s.atSegPend (x * 8 + h)).words = []) := by
  refine ⟨?_, ?_, ?_, ?_, ?_⟩
  · first | decide +kernel | (simp only [State.holds, State.sameBytes]; decide +kernel)
  · first | decide +kernel | (simp only [State.holds, State.sameBytes]; decide +kernel)
  · first | decide +kernel | (simp only [State.holds, State.sameBytes]; decide +kernel)
  · first | decide +kernel | (simp only [State.holds, State.sameBytes]; decide +kernel)
  · first | decide +kernel | (simp only [State.holds, State.sameBytes]; decide +kernel)

/-- Concrete inputs that meet the hypotheses of `Obligations.ContextLifecycle`, clause by clause. -/
theorem witness_ContextLifecycle :
    (let s := cl1;
     let fn := 4;
     let x := 8;
     let v := 1;
     let pg := ctxPg x;
     let w := written Pg.ctx CTX_CTL v;
     let t := s.wr (pg + CTX_CTL) (w &&& (maskOf 16 8 ||| 4));
     let p := 3;
     fn < 256 ∧
       x < 1024 ∧
         s.reachesPage fn 2 x = true ∧
           s.holds fn Pg.ctx x ∧
             bitOf w 0 = true ∧
               bitOf w 1 = false ∧
                 t.ctxPart x = some p ∧
                   (t.ctxState x = 0 ∨ t.ctxState x = 3) ∧
                     t.get (partPg p) PART_STAT_STATE = 2 ∧ t.saveOk p x = false) ∧
    (let s := cl0;
     let fn := 4;
     let x := 8;
     let v := 1;
     let pg := ctxPg x;
     let w := written Pg.ctx CTX_CTL v;
     let t := s.wr (pg + CTX_CTL) (w &&& (maskOf 16 8 ||| 4));
     let p := 3;
     fn < 256 ∧
       x < 1024 ∧
         s.reachesPage fn 2 x = true ∧
           s.holds fn Pg.ctx x ∧
             bitOf w 0 = true ∧
               bitOf w 1 = false ∧
                 t.ctxPart x = some p ∧
                   (t.ctxState x = 0 ∨ t.ctxState x = 3) ∧
                     t.get (partPg p) PART_STAT_STATE = 2 ∧ t.saveOk p x = true) ∧
    (let s : State := cl2;
     let fn : ℕ := 4;
     let x : ℕ := 8;
     let v : Word := 2;
     let pg : ℕ := ctxPg x;
     let w : ℕ := written Pg.ctx CTX_CTL v;
     let t : State := s.wr (pg + CTX_CTL) (w &&& (maskOf 16 8 ||| 4));
     fn < 256 ∧
       x < 1024 ∧
         s.reachesPage fn 2 x = true ∧
           s.holds fn Pg.ctx x ∧
             bitOf w 0 = false ∧
               bitOf w 1 = true ∧ t.ctxState x = 1 ∧ t.quesOf x = [] ∧ t.fencesOf x = [] ∧ t.openCmds x = []) ∧
    (let s := cl3;
     let fn := 0;
     let x := 8;
     fn < 256 ∧
       x < 1024 ∧
         s.ctxState x = 2 ∧
           (s.atCtx x).tearStep = 5 ∧
             (s.allCmds.any fun (c : Cmd) => c.ctx == x) = false ∧
               (List.any s.reqs fun (e : ℕ × Option LinkReq) =>
                     match e.2 with
                     | some r => r.ctx == x
                     | none => false) =
                   false ∧
                 ((s.ctxSlices x).any fun (n : ℕ) => s.sliceMoving n) = false ∧ s.ctxSlices x = []) := by
  refine ⟨?_, ?_, ?_, ?_⟩
  · first | decide +kernel | (simp only [State.holds, State.sameBytes]; decide +kernel)
  · first | decide +kernel | (simp only [State.holds, State.sameBytes]; decide +kernel)
  · exact ⟨by decide, by decide, by decide +kernel, by unfold State.holds; decide +kernel, by decide +kernel, by decide +kernel, by decide +kernel,
      quesOf_none (by decide) (by decide +kernel) (by decide +kernel), by decide +kernel, by decide +kernel⟩
  · first | decide +kernel | (simp only [State.holds, State.sameBytes]; decide +kernel)

/-- Concrete inputs that meet the hypotheses of `Obligations.FenceRearm`, clause by clause. -/
theorem witness_FenceRearm :
    (let s := fr1;
     let fn := 4;
     let f := 64;
     let v := 24592;
     let w := written Pg.fen (276 + 64 * (f % 32)) v;
     fn < 256 ∧
       f < 65536 ∧
         s.reachesPage fn 1 f = true ∧
           s.holds fn Pg.fen (f / 32) ∧
             bitOf w 13 = true ∧
               bitOf w 14 = true ∧
                 s.on (fenAt f) FEN_CTL_ENABLE = true ∧ s.fenBroken f = true ∧ s.fenceNamed f = false) ∧
    (let s := fr2;
     let fn := 4;
     let f := 64;
     let v := 24592;
     let w := written Pg.fen (276 + 64 * (f % 32)) v;
     fn < 256 ∧
       f < 65536 ∧
         s.reachesPage fn 1 f = true ∧
           s.holds fn Pg.fen (f / 32) ∧
             bitOf w 13 = true ∧
               bitOf w 14 = true ∧
                 s.on (fenAt f) FEN_CTL_ENABLE = true ∧ ¬(s.fenBroken f = true ∧ s.fenceNamed f = false)) := by
  refine ⟨?_, ?_⟩
  · first | decide +kernel | (simp only [State.holds, State.sameBytes]; decide +kernel)
  · first | decide +kernel | (simp only [State.holds, State.sameBytes]; decide +kernel)

/-- Concrete inputs that meet the hypotheses of `Obligations.MemoryObjects`, clause by clause. -/
theorem witness_MemoryObjects :
    (let s := o2;
     let fn := 4;
     let x := 8;
     let v := 4101;
     let w := written Pg.ctx CTX_OBJ_CTL v;
     let h := w % 4096;
     let k := objKey x h;
     fn < 256 ∧
       x < 1024 ∧
         s.reachesPage fn 2 x = true ∧ s.holds fn Pg.ctx x ∧ h < 4095 ∧ bitsOf w 13 12 = 1 ∧ (s.atObj k).state ≠ 0) ∧
    (let s := o4;
     let fn := 4;
     let x := 8;
     let v := 4101;
     let pg := ctxPg x;
     let w := written Pg.ctx CTX_OBJ_CTL v;
     let h := w % 4096;
     let t := s.set pg { off := CTX_OBJ_CTL, hi := 13, lo := 0 } w;
     let k := objKey x h;
     let off := t.rd (pg + CTX_OBJ_SEG) / 8 * 8 + t.rd (pg + CTX_OBJ_OFF_HI) % 2 ^ 13 * 2 ^ 32;
     let len := t.rd (pg + CTX_OBJ_LEN_LO) + t.rd (pg + CTX_OBJ_LEN_HI) % 2 ^ 13 * 2 ^ 32;
     let g := t.rd (pg + CTX_OBJ_SEG) % 8;
     let fits := (t.seg x g).valid = true ∧ off + len ≤ (t.seg x g).limit;
     fn < 256 ∧
       x < 1024 ∧
         s.reachesPage fn 2 x = true ∧ s.holds fn Pg.ctx x ∧ h < 4095 ∧ bitsOf w 13 12 = 1 ∧ (s.atObj k).state = 0 ∧ ¬fits) ∧
    (let s := o1;
     let fn := 4;
     let x := 8;
     let v := 4101;
     let pg := ctxPg x;
     let w := written Pg.ctx CTX_OBJ_CTL v;
     let h := w % 4096;
     let t := s.set pg { off := CTX_OBJ_CTL, hi := 13, lo := 0 } w;
     let k := objKey x h;
     let off := t.rd (pg + CTX_OBJ_SEG) / 8 * 8 + t.rd (pg + CTX_OBJ_OFF_HI) % 2 ^ 13 * 2 ^ 32;
     let len := t.rd (pg + CTX_OBJ_LEN_LO) + t.rd (pg + CTX_OBJ_LEN_HI) % 2 ^ 13 * 2 ^ 32;
     let g := t.rd (pg + CTX_OBJ_SEG) % 8;
     let fits := (t.seg x g).valid = true ∧ off + len ≤ (t.seg x g).limit;
     fn < 256 ∧
       x < 1024 ∧
         s.reachesPage fn 2 x = true ∧ s.holds fn Pg.ctx x ∧ h < 4095 ∧ bitsOf w 13 12 = 1 ∧ (s.atObj k).state = 0 ∧ fits) ∧
    (let s := o1;
     let fn := 4;
     let x := 8;
     let v := 8197;
     let w := written Pg.ctx CTX_OBJ_CTL v;
     let h := w % 4096;
     let k := objKey x h;
     fn < 256 ∧
       x < 1024 ∧
         s.reachesPage fn 2 x = true ∧ s.holds fn Pg.ctx x ∧ h < 4095 ∧ bitsOf w 13 12 = 2 ∧ (s.atObj k).state = 0) ∧
    (let s := o3;
     let fn := 4;
     let x := 8;
     let v := 8197;
     let w := written Pg.ctx CTX_OBJ_CTL v;
     let h := w % 4096;
     let k := objKey x h;
     fn < 256 ∧
       x < 1024 ∧
         s.reachesPage fn 2 x = true ∧
           s.holds fn Pg.ctx x ∧ h < 4095 ∧ bitsOf w 13 12 = 2 ∧ (s.atObj k).state ≠ 0 ∧ s.objRefs x h ≠ 0) ∧
    (let s := o1;
     let fn := 4;
     let x := 8;
     let v := 12293;
     let w := written Pg.ctx CTX_OBJ_CTL v;
     let h := w % 4096;
     let k := objKey x h;
     fn < 256 ∧
       x < 1024 ∧
         s.reachesPage fn 2 x = true ∧ s.holds fn Pg.ctx x ∧ h < 4095 ∧ bitsOf w 13 12 = 3 ∧ (s.atObj k).state = 0) ∧
    (let s := o2;
     let fn := 4;
     let x := 8;
     let v := 12293;
     let w := written Pg.ctx CTX_OBJ_CTL v;
     let h := w % 4096;
     let k := objKey x h;
     fn < 256 ∧
       x < 1024 ∧
         s.reachesPage fn 2 x = true ∧
           s.holds fn Pg.ctx x ∧
             h < 4095 ∧
               bitsOf w 13 12 = 3 ∧
                 (s.atObj k).state ≠ 0 ∧
                   (s.allCmds.any fun (c : Cmd) => c.ctx == x && c.ranges.any fun (r : Range) => r.handle == h) =
                     false) := by
  refine ⟨?_, ?_, ?_, ?_, ?_, ?_, ?_⟩
  · first | decide +kernel | (simp only [State.holds, State.sameBytes]; decide +kernel)
  · first | decide +kernel | (simp only [State.holds, State.sameBytes]; decide +kernel)
  · first | decide +kernel | (simp only [State.holds, State.sameBytes]; decide +kernel)
  · first | decide +kernel | (simp only [State.holds, State.sameBytes]; decide +kernel)
  · first | decide +kernel | (simp only [State.holds, State.sameBytes]; decide +kernel)
  · first | decide +kernel | (simp only [State.holds, State.sameBytes]; decide +kernel)
  · first | decide +kernel | (simp only [State.holds, State.sameBytes]; decide +kernel)

end Sys2Proof.Tests.C21

namespace Sys2Proof.Tests.C22

open Sys2Proof.Machine

def e1 : State := (tWork.puts [(glbPg + GLB_EVQ_SEL, 6)])
def e2 : State := { e1 with attach := [(4, some 3), (5, some 2)], evqFn := [(5, 4)] }
def e4 : State := { (tWork.puts [(evqPg 5 + EVQ_TAIL, 64)]) with evqLost := [(5, 7)] }
def v1 : State := { (tWork.puts [(evqPg 5 + EVQ_CTL, 1 + 3 * 64), (evqPg 5 + EVQ_TAIL, 1)]) with mclk := 500, vecs := [(3, { masked := false, deferred := true, last := some 400 }), (4, { deferred := true, pend := true }), (5, {})] }

/-- Concrete inputs that meet the hypotheses of `Obligations.EventQueueRegisters`, clause by clause. -/
theorem witness_EventQueueRegisters :
    (let s : State := e1;
     let v : Word := 0;
     let e : ℕ := s.get glbPg GLB_EVQ_SEL_EVQ;
     let f : ℕ := written Pg.glb GLB_EVQ_FN v % 256;
     let holder : Option ℕ := s.rangeOwner PART_EVQ_RANGE_BASE PART_EVQ_RANGE_COUNT e;
     let good : Prop :=
       s.on (evqPg e) EVQ_CTL_ENABLE = false ∧
         (f = 0 ∨ holder.isSome = true ∧ Tab.get none s.attach f = holder);
     s.holds 0 Pg.glb 0 ∧ good) ∧
    (let s : State := e1;
     let v : Word := 4;
     let e : ℕ := s.get glbPg GLB_EVQ_SEL_EVQ;
     let f : ℕ := written Pg.glb GLB_EVQ_FN v % 256;
     let holder : Option ℕ := s.rangeOwner PART_EVQ_RANGE_BASE PART_EVQ_RANGE_COUNT e;
     let good : Prop :=
       s.on (evqPg e) EVQ_CTL_ENABLE = false ∧
         (f = 0 ∨ holder.isSome = true ∧ Tab.get none s.attach f = holder);
     s.holds 0 Pg.glb 0 ∧ ¬good) ∧
    (let s : State := e2;
     let v : Word := 2049;
     let e : ℕ := 5;
     let w : ℕ := written Pg.evq EVQ_CTL v;
     let bad : Prop := bitOf w 0 = true ∧ (if Tab.get 0 s.evqFn e = 0 then 64 else 8) ≤ bitsOf w 11 6;
     e < 512 ∧ s.holds 0 Pg.evq e ∧ bad) ∧
    (let s : State := e1;
     let v : Word := 0;
     let e : ℕ := 5;
     let w : ℕ := written Pg.evq EVQ_CTL v;
     let bad : Prop := bitOf w 0 = true ∧ (if Tab.get 0 s.evqFn e = 0 then 64 else 8) ≤ bitsOf w 11 6;
     e < 512 ∧ s.holds 0 Pg.evq e ∧ ¬bad) ∧
    (let s : State := e1;
     let e : ℕ := 5;
     let n : ℕ := Tab.get 0 s.evqLost e;
     e < 512 ∧ s.holds 0 Pg.evq e ∧ n = 0) ∧
    (let s : State := e4;
     let v : Word := 4;
     let e : ℕ := 5;
     let t : State := s.wr (evqPg e + EVQ_HEAD) (BitVec.toNat v);
     let n : ℕ := Tab.get 0 s.evqLost e;
     e < 512 ∧
       s.holds 0 Pg.evq e ∧ n ≠ 0 ∧ t.evqRoom e ≠ 0 ∧ t.on (evqPg e) EVQ_CTL_ENABLE = true) ∧
    (let s : State := e2;
     let e : ℕ := 5;
     let x : ℕ := 8;
     e < 512 ∧
       s.holds 0 Pg.evq e ∧ x < 1024 ∧ s.holds 0 Pg.ctx x ∧ s.ctxEvq x = e ∧ Tab.get 0 s.evqFn e ≠ 0) ∧
    (let s : State := e1;
     let e : ℕ := 5;
     let n : ℕ := Tab.get 0 s.evqLost e;
     let x : ℕ := 8;
     e < 512 ∧
       s.holds 0 Pg.evq e ∧
         x < 1024 ∧ s.holds 0 Pg.ctx x ∧ s.ctxEvq x = e ∧ Tab.get 0 s.evqFn e = 0 ∧ n = 0) := by
  refine ⟨?_, ?_, ?_, ?_, ?_, ?_, ?_, ?_⟩
  · first | decide +kernel | (simp only [State.holds, State.sameBytes]; decide +kernel)
  · first | decide +kernel | (simp only [State.holds, State.sameBytes]; decide +kernel)
  · first | decide +kernel | (simp only [State.holds, State.sameBytes]; decide +kernel)
  · first | decide +kernel | (simp only [State.holds, State.sameBytes]; decide +kernel)
  · first | decide +kernel | (simp only [State.holds, State.sameBytes]; decide +kernel)
  · first | decide +kernel | (simp only [State.holds, State.sameBytes]; decide +kernel)
  · first | decide +kernel | (simp only [State.holds, State.sameBytes]; decide +kernel)
  · first | decide +kernel | (simp only [State.holds, State.sameBytes]; decide +kernel)

/-- Concrete inputs that meet the hypotheses of `Obligations.VectorsAndAts`, clause by clause. -/
theorem witness_VectorsAndAts :
    (let s : State := v1;
     let fn : ℕ := 0;
     let v : ℕ := 3;
     let k : ℕ := fn * 64 + v;
     let x : Vec := s.atVec k;
     fn < 256 ∧
       v < vectorsOf fn ∧
         (∀ (t : ℕ), x.last = some t → t ≤ s.mclk) ∧
           s.dmaOff fn = false ∧ x.deferred = true ∧ x.masked = false ∧ s.unconsumed fn v = true) ∧
    (let s : State := v1;
     let fn : ℕ := 0;
     let v : ℕ := 4;
     let k : ℕ := fn * 64 + v;
     let x : Vec := s.atVec k;
     fn < 256 ∧
       v < vectorsOf fn ∧
         (∀ (t : ℕ), x.last = some t → t ≤ s.mclk) ∧ s.dmaOff fn = false ∧ x.deferred = true ∧ s.unconsumed fn v = false) ∧
    (let s : State := v1;
     let fn : ℕ := 0;
     let v : ℕ := 4;
     let k : ℕ := fn * 64 + v;
     let x : Vec := s.atVec k;
     fn < 256 ∧
       v < vectorsOf fn ∧
         (∀ (t : ℕ), x.last = some t → t ≤ s.mclk) ∧ s.dmaOff fn = false ∧ x.masked = true ∧ x.pend = true) ∧
    (let s : State := v1;
     let fn : ℕ := 0;
     let v : ℕ := 3;
     let k : ℕ := fn * 64 + v;
     let x : Vec := s.atVec k;
     fn < 256 ∧ v < vectorsOf fn ∧ (∀ (t : ℕ), x.last = some t → t ≤ s.mclk) ∧ s.dmaOff fn = false ∧ x.pend = false) ∧
    (let s : State := v1;
     let fn : ℕ := 0;
     let v : ℕ := 3;
     let k : ℕ := fn * 64 + v;
     let x : Vec := s.atVec k;
     fn < 256 ∧ v < vectorsOf fn ∧ (∀ (t : ℕ), x.last = some t → t ≤ s.mclk) ∧ s.dmaOff fn = false) := by
  refine ⟨?_, ?_, ?_, ?_, ?_⟩
  · first | decide +kernel | (simp only [State.holds, State.sameBytes]; decide +kernel)
  · first | decide +kernel | (simp only [State.holds, State.sameBytes]; decide +kernel)
  · first | decide +kernel | (simp only [State.holds, State.sameBytes]; decide +kernel)
  · first | decide +kernel | (simp only [State.holds, State.sameBytes]; decide +kernel)
  · first | decide +kernel | (simp only [State.holds, State.sameBytes]; decide +kernel)

end Sys2Proof.Tests.C22

namespace Sys2Proof.Tests.C23

open Sys2Proof.Machine

def qd (l : List (Nat × Nat × Nat)) : Bytes := tBytes 128 l
def nopD : Bytes := qd [(4,2,64),(8,8,5)]
def inMem (d : Bytes) (s : State) : State := { s with mem := Memory.write [] (lineKey 0 (0x100000/512)) d, tails := [(16, 1)] }
def d1 : State := inMem nopD tWork
def d2 : State := inMem (qd [(0,1,10)]) tWork
def d3 : State := (inMem nopD tWork).puts [(quePg 16 + QUE_RING, 0x3FFFFF)]
def hostSeg (s : State) : State := s.puts [(segAt 8 1 + CTX_SEG_0, 0x3B), (segAt 8 1 + CTX_SEG_2, 0x10000000), (segAt 8 1 + CTX_SEG_4, 0x100000)]
def d4 : State := (hostSeg { tWork with tails := [(16,1)] }).puts [(quePg 16 + QUE_RING, 0), (quePg 16 + QUE_RING + 4, 2 ^ 13)]
def hd (d : Bytes) (s : State) : State := { s with heads := [(16, some d)] }
def copyD (a b n : Nat) : Bytes := qd [(0,1,2),(2,2,0x80),(0x20,8,a + 0xFFF * 2 ^ 48),(0x28,8,b + 0xFFF * 2 ^ 48),(0x30,8,n)]
def h1 : State := hd nopD tWork
def h2 : State := hd (copyD 0 0x1000 64) tWork
def h3 : State := hd (copyD 0 0x3FFFF0 64) tWork
def h4 : State := { h2 with segPend := [(64, ⟨[1,0,0,0,0,0], false, false⟩)] }
def waitD : Bytes := qd [(0,1,5),(2,2,0x80),(0x20,1,1),(0x28,2,500)]
def h5 : State := hd waitD tWork
def compD : Bytes := qd [(0,1,1),(2,2,0x80),(0x20,1,2),(0x22,1,0xFF)]
def h6 : State := hd compD tWork
def h8 : State := { h6 with moulds := [(3 * 64 + 2, { state := 2, image := tBytes 1024 [(0x0E,1,1)] })] }
def cmdOf (s : State) (d : Bytes) : Cmd := { q := 16, seq := 0, desc := d, ctx := 8, gen := 0, part := 3, acw := s.acwOf 8 d, seed := 0 }
def got (s : State) : Cmd := ((nextOf (exec (.commandAccept 16 [] []) s)).cmdsOf 16).getLastD (cmdOf s nopD)
def nx (c : Cmd) (s : State := tWork) : State := { s with cmds := [(16, [c])] }
def c0 : Cmd := { q := 16, seq := 0, desc := nopD, ctx := 8, part := 3 }
def latch (s : State) : State := { s with latched := [(16, [(0, 7)])] }
def st2 : State := { nx c0 with cmds := [(16, [c0, { c0 with seq := 1 }])] }
def brk : Cmd := { c0 with started := true, work := true, code := 9, seq := 0 }
def st3 : State := { latch tWork with cmds := [(16, [brk, { c0 with seq := 1 }])], latched := [(16, [(0, 9)])] }
def stB : State := { tWork with cmds := [(16, [{ c0 with seq := 1 }])], latched := [(16, [(0, 9)])] }
def hostCpl : State := { tLink.puts [(segAt 8 1 + CTX_SEG_0, 0x3D + 7 * 2 ^ 16), (segAt 8 1 + CTX_SEG_2, 0x10000000), (segAt 8 1 + CTX_SEG_4, 0x100000), (quePg 16 + QUE_CPL, 0), (quePg 16 + QUE_CPL + 4, 2 ^ 13)] with cmds := [(16, [{ c0 with work := true, started := true, ranges := [{ loc := 2, dev := 7 }] }])] }

/-- Concrete inputs that meet the hypotheses of `Obligations.QueueEngineTakesCommands`, clause by clause. -/
theorem witness_QueueEngineTakesCommands :
    (let s := h1;
     let q := 16;
     q < 4096 ∧ s.mayFetch q = false) ∧
    (let s := d3;
     let q := 16;
     q < 4096 ∧ s.mayFetch q = true ∧ s.ringOk q = false) ∧
    (let s := d4;
     let q := 16;
     let ok := false;
     let desc := nopD;
     let u := (s.readRing q ok desc).1;
     q < 4096 ∧ s.mayFetch q = true ∧ s.ringOk q = true ∧ s.readRing q ok desc = (u, none)) ∧
    (let s := d2;
     let q := 16;
     let ok := true;
     let desc := nopD;
     let u := (s.readRing q ok desc).1;
     let d := (s.readRing q ok desc).2.getD nopD;
     q < 4096 ∧ s.mayFetch q = true ∧ s.ringOk q = true ∧ s.readRing q ok desc = (u, some d) ∧ u.descFault q d ≠ 0) ∧
    (let s := d1;
     let q := 16;
     let ok := true;
     let desc := nopD;
     let u := (s.readRing q ok desc).1;
     let d := (s.readRing q ok desc).2.getD nopD;
     q < 4096 ∧ s.mayFetch q = true ∧ s.ringOk q = true ∧ s.readRing q ok desc = (u, some d) ∧ u.descFault q d = 0) ∧
    (let s := d1;
     let q := 16;
     let pg := quePg q;
     let x := s.queCtx q;
     let accepts := s.on pg QUE_STAT_ENABLED = true ∧ s.on pg QUE_STAT_HALTED = false ∧ s.ctxState x = 1;
     q < 4096 ∧ (Tab.get none s.heads q = none ∨ ¬accepts)) ∧
    (let s := h4;
     let q := 16;
     let pg := quePg q;
     let x := s.queCtx q;
     let accepts := s.on pg QUE_STAT_ENABLED = true ∧ s.on pg QUE_STAT_HALTED = false ∧ s.ctxState x = 1;
     let d := copyD 0 4096 64;
     let first := descRanges d;
     q < 4096 ∧ Tab.get none s.heads q = some d ∧ accepts ∧ s.segWaits x first = true) ∧
    (let s := h3;
     let q := 16;
     let pg := quePg q;
     let x := s.queCtx q;
     let runs := [];
     let accepts := s.on pg QUE_STAT_ENABLED = true ∧ s.on pg QUE_STAT_HALTED = false ∧ s.ctxState x = 1;
     let d := copyD 0 4194288 64;
     let first := descRanges d;
     let i :=
       match s.checkRanges q d runs 0 0 first with
       | Sum.inr (i, fst, snd) => i
       | x => 0;
     let r :=
       match s.checkRanges q d runs 0 0 first with
       | Sum.inr (fst, r, snd) => r
       | x => { dva := 0, len := 0, need := 0 };
     let e :=
       match s.checkRanges q d runs 0 0 first with
       | Sum.inr (fst, fst_1, e) => e
       | x => RangeRes.refuse 2 codeTranslationReject;
     q < 4096 ∧
       Tab.get none s.heads q = some d ∧
         accepts ∧ s.segWaits x first = false ∧ s.checkRanges q d runs 0 0 first = Sum.inr (i, r, e)) ∧
    (let s := h1;
     let q := 16;
     let pg := quePg q;
     let x := s.queCtx q;
     let p := s.partOf x;
     let runs := [];
     let accepts := s.on pg QUE_STAT_ENABLED = true ∧ s.on pg QUE_STAT_HALTED = false ∧ s.ctxState x = 1;
     let d := nopD;
     let first := descRanges d;
     let l :=
       match s.checkRanges q d runs 0 0 first with
       | Sum.inl l => l
       | x => [];
     q < 4096 ∧
       Tab.get none s.heads q = some d ∧
         accepts ∧
           s.segWaits x first = false ∧
             s.checkRanges q d runs 0 0 first = Sum.inl l ∧ dOp d ≠ 1 ∧ s.lateCheck x p d [] l = none) ∧
    (let s := h5;
     let q := 16;
     let pg := quePg q;
     let x := s.queCtx q;
     let p := s.partOf x;
     let runs := [];
     let accepts := s.on pg QUE_STAT_ENABLED = true ∧ s.on pg QUE_STAT_HALTED = false ∧ s.ctxState x = 1;
     let d := waitD;
     let first := descRanges d;
     let l :=
       match s.checkRanges q d runs 0 0 first with
       | Sum.inl l => l
       | x => [];
     let code := codeRights;
     let detail := 0;
     let mould := false;
     q < 4096 ∧
       Tab.get none s.heads q = some d ∧
         accepts ∧
           s.segWaits x first = false ∧
             s.checkRanges q d runs 0 0 first = Sum.inl l ∧ dOp d ≠ 1 ∧ s.lateCheck x p d [] l = some (code, detail, mould)) ∧
    (let s := h8;
     let q := 16;
     let pg := quePg q;
     let x := s.queCtx q;
     let p := s.partOf x;
     let args := [];
     let runs := [];
     let accepts := s.on pg QUE_STAT_ENABLED = true ∧ s.on pg QUE_STAT_HALTED = false ∧ s.ctxState x = 1;
     let d := compD;
     let first := descRanges d;
     let l0 :=
       match s.checkRanges q d runs 0 0 first with
       | Sum.inl l => l
       | x => [];
     let u := (s.readArgs (l0.headD { }) args).1;
     let ab := [];
     let l1 := [];
     let image := u.readyImage p d;
     let more :=
       match image with
       | some m => argRanges m ab (dNargs d)
       | none => [];
     q < 4096 ∧
       Tab.get none s.heads q = some d ∧
         accepts ∧
           s.segWaits x first = false ∧
             s.checkRanges q d runs 0 0 first = Sum.inl l0 ∧
               dOp d = 1 ∧
                 s.readArgs (l0.headD { }) args = (u, Sum.inr ab) ∧
                   u.segWaits x more = false ∧
                     u.checkRanges q d runs l0.length l0.length more = Sum.inl l1 ∧ u.lateCheck x p d ab (l0 ++ l1) = none) ∧
    (let s := h6;
     let q := 16;
     let pg := quePg q;
     let x := s.queCtx q;
     let p := s.partOf x;
     let args := [];
     let runs := [];
     let accepts := s.on pg QUE_STAT_ENABLED = true ∧ s.on pg QUE_STAT_HALTED = false ∧ s.ctxState x = 1;
     let d := compD;
     let first := descRanges d;
     let l0 :=
       match s.checkRanges q d runs 0 0 first with
       | Sum.inl l => l
       | x => [];
     let u := (s.readArgs (l0.headD { }) args).1;
     let ab := [];
     let l1 := [];
     let image := u.readyImage p d;
     let more :=
       match image with
       | some m => argRanges m ab (dNargs d)
       | none => [];
     let code := codeMouldInvalid;
     let detail := 18;
     let mould := true;
     q < 4096 ∧
       Tab.get none s.heads q = some d ∧
         accepts ∧
           s.segWaits x first = false ∧
             s.checkRanges q d runs 0 0 first = Sum.inl l0 ∧
               dOp d = 1 ∧
                 s.readArgs (l0.headD { }) args = (u, Sum.inr ab) ∧
                   u.segWaits x more = false ∧
                     u.checkRanges q d runs l0.length l0.length more = Sum.inl l1 ∧ u.lateCheck x p d ab (l0 ++ l1) = some (code, detail, mould)) ∧
    (let s := st2;
     let q := 16;
     let seq := 1;
     let c :=
       { c0 with seq := 1 };
     let waits :=
       c.started = true ∨ c.work = true ∨ c.held = true ∨ c.retrans = true ∨ s.turn c = false ∨ s.scopeBlocks c = true;
     q < 4096 ∧ s.cmd? q seq = some c ∧ waits) ∧
    (let s : State := stB;
     let q : ℕ := 16;
     let seq : ℕ := 1;
     let c : Cmd :=
       { c0 with seq := 1 };
     let waits : Prop :=
       c.started = true ∨ c.work = true ∨ c.held = true ∨ c.retrans = true ∨ s.turn c = false ∨ s.scopeBlocks c = true;
     let root : ℕ := 9;
     q < 4096 ∧
       s.cmd? q seq = some c ∧
         ¬waits ∧
           dIndependent c.desc = false ∧ dRunOnBroken c.desc = false ∧ s.brokenBefore c = some root) ∧
    (let s := nx c0;
     let q := 16;
     let seq := 0;
     let c := got h1;
     let waits :=
       c.started = true ∨ c.work = true ∨ c.held = true ∨ c.retrans = true ∨ s.turn c = false ∨ s.scopeBlocks c = true;
     q < 4096 ∧
       s.cmd? q seq = some c ∧
         ¬waits ∧ (dIndependent c.desc = true ∨ dRunOnBroken c.desc = true ∨ s.brokenBefore c = none)) ∧
    (let s := d1;
     let q := 16;
     q < 4096 ∧ (s.cmdsOf q).head? = none) ∧
    (let s := nx c0;
     let q := 16;
     let seq := 0;
     let c := got h1;
     q < 4096 ∧ (s.cmdsOf q).head? = some c ∧ (c.seq ≠ seq ∨ c.work = false ∨ s.reqsOf q seq ≠ [])) ∧
    (let s : State := hostCpl;
     let q : ℕ := 16;
     let seq : ℕ := 0;
     let c : Cmd :=
       { c0 with ranges := [{ loc := 2, dev := 7 }], started := true, work := true };
     let u : State := if c.recorded = true then s else s.writeRecord c;
     q < 4096 ∧ (s.cmdsOf q).head? = some c ∧ c.seq = seq ∧ c.work = true ∧ s.reqsOf q seq = [] ∧ u.reqsOf q seq ≠ []) ∧
    (let s := st3;
     let q := 16;
     let seq := 0;
     let c := brk;
     let u := if c.recorded = true then s else s.writeRecord c;
     q < 4096 ∧ (s.cmdsOf q).head? = some c ∧ c.seq = seq ∧ c.work = true ∧ s.reqsOf q seq = [] ∧ u.reqsOf q seq = []) := by
  refine ⟨?_, ?_, ?_, ?_, ?_, ?_, ?_, ?_, ?_, ?_, ?_, ?_, ?_, ?_, ?_, ?_, ?_, ?_, ?_⟩
  · first | decide +kernel | (simp only [State.holds, State.sameBytes]; decide +kernel)
  · first | decide +kernel | (simp only [State.holds, State.sameBytes]; decide +kernel)
  · first | decide +kernel | (simp only [State.holds, State.sameBytes]; decide +kernel)
  · first | decide +kernel | (simp only [State.holds, State.sameBytes]; decide +kernel)
  · first | decide +kernel | (simp only [State.holds, State.sameBytes]; decide +kernel)
  · first | decide +kernel | (simp only [State.holds, State.sameBytes]; decide +kernel)
  · first | decide +kernel | (simp only [State.holds, State.sameBytes]; decide +kernel)
  · first | decide +kernel | (simp only [State.holds, State.sameBytes]; decide +kernel)
  · first | decide +kernel | (simp only [State.holds, State.sameBytes]; decide +kernel)
  · first | decide +kernel | (simp only [State.holds, State.sameBytes]; decide +kernel)
  · first | decide +kernel | (simp only [State.holds, State.sameBytes]; decide +kernel)
  · first | decide +kernel | (simp only [State.holds, State.sameBytes]; decide +kernel)
  · first | decide +kernel | (simp only [State.holds, State.sameBytes]; decide +kernel)
  · first | decide +kernel | (simp only [State.holds, State.sameBytes]; decide +kernel)
  · first | decide +kernel | (simp only [State.holds, State.sameBytes]; decide +kernel)
  · first | decide +kernel | (simp only [State.holds, State.sameBytes]; decide +kernel)
  · first | decide +kernel | (simp only [State.holds, State.sameBytes]; decide +kernel)
  · first | decide +kernel | (simp only [State.holds, State.sameBytes]; decide +kernel)
  · first | decide +kernel | (simp only [State.holds, State.sameBytes]; decide +kernel)

end Sys2Proof.Tests.C23

namespace Sys2Proof.Tests.C23b

open Sys2Proof.Machine

def qd (l : List (Nat × Nat × Nat)) : Bytes := tBytes 128 l
def c0 : Cmd := { q := 16, seq := 0, desc := qd [(4,2,64),(8,8,5)], ctx := 8, part := 3, started := true }
def nx (c : Cmd) (s : State := tWork) : State := { s with cmds := [(16, [c])] }
def copyD (a b n : Nat) : Bytes := qd [(0,1,2),(2,2,0x80),(0x20,8,a + 0xFFF * 2 ^ 48),(0x28,8,b + 0xFFF * 2 ^ 48),(0x30,8,n)]
def fillD (a n pat : Nat) : Bytes := qd [(0,1,3),(2,2,0x80),(0x20,8,a + 0xFFF * 2 ^ 48),(0x28,8,n),(0x30,8,pat)]
def convD (a b n sf df sc : Nat) : Bytes := qd [(0,1,4),(2,2,0x80),(0x20,8,a + 0xFFF * 2 ^ 48),(0x28,8,b + 0xFFF * 2 ^ 48),(0x30,8,n),(0x38,1,sf),(0x39,1,df),(0x40,8,sc + 0xFFF * 2 ^ 48)]
def ranges (d : Bytes) : List Range := match tWork.checkRanges 16 d [] 0 0 (descRanges d) with
  | .inl l => l
  | _ => []
def op (n : Nat) : Bytes := qd [(0,1,n),(2,2,0x80)]
def rows : List Bytes := (List.range 7).map op ++ [op 9]
def waitD (fl : Nat) (l : List (Nat × Nat)) : Bytes := qd ([(0,1,5),(2,2,fl),(0x20,1,l.length)] ++ ((List.range l.length).zip l).flatMap (fun e => [(0x28 + 16*e.1, 2, e.2.1), (0x30 + 16*e.1, 8, e.2.2)]))
def broken (s : State) : State := s.puts [(fenAt 71 + FEN_CTL, 16 + 2^13), (fenAt 70 + FEN_CTL, 16+2^13), (fenAt 71 + FEN_STAT, 2)]
def withR (d : Bytes) : Cmd := { c0 with desc := d, ranges := ranges d }
def spanD : Bytes := qd [(0,1,6),(2,2,0x80),(0x20,1,1),(0x21,1,1),(0x22,2,7),(0x24,2,70),(0x28,8,9)]
def memS : State := { tWork with mem := Memory.write [] 0 [1,2,3,4,5,6,7,8,9,200,255,128] }
def cloc : Bytes := qd [(0,1,1),(2,2,0x80),(0x20,1,2),(0x22,1,0xFF)]
def csp : Bytes := qd [(0,1,1),(2,2,0x80),(0x20,1,2),(0x22,1,1)]
def img : Bytes := tBytes 1024 [(0x0E,1,1)]
def mo (s : State) : State := { s with moulds := [(3 * 64 + 2, { state := 2, image := img })] }
def cs : List Cmd := rows.map (fun d => { c0 with desc := d })
def st (i : Nat) : State := nx (cs.getD i c0)
def cc (i : Nat) : Cmd := cs.getD i c0
def k1 : Cmd := withR (copyD 0 0x1000 64)
def k2 : Cmd := withR (fillD 0x1000 19 0x0123456789ABCDEF)
def k3 : Cmd := withR (convD 0 0x1000 64 4 2 0x2000)
def k6 : Cmd := { c0 with desc := spanD }
def k7 : Cmd := { k6 with issued := true }
def w1 : Cmd := { c0 with desc := waitD 0x80 [(70,0),(71,3)] }
def w2 : Cmd := { c0 with desc := waitD 0x82 [(70,0),(71,3)] }
def w3 : Cmd := { c0 with desc := waitD 0x80 [(70,0)] }
def q1 : Cmd := { c0 with desc := cloc }
def q2 : Cmd := { c0 with desc := csp }
def q3 : Cmd := { q2 with spr := { phase := 1 } }
def stopped : Cmd := { c0 with stop := 7 }
def lk (c : Cmd) : State := { tLink with cmds := [(16, [c])] }
def sJ : State := { mo (lk q2) with joins := [(25, { checks := [(0, 7, [])] })] }
def dJ : Cmd := (((((sJ.updCmd 16 0 (fun c => { c with issued := true })).castColl 3 1 (sJ.updCmd 16 0 (fun c => { c with issued := true }) |>.checkTxn q2 1)).checksHeld q2 1).cmd? 16 0)).getD q2
def ms (c : Cmd) : State := nx c memS

/-- Concrete inputs that meet the hypotheses of `Obligations.WorkOfQueueCommands`, clause by clause. -/
theorem witness_WorkOfQueueCommands :
    (let s := ms k1;
     let q := 16;
     let seq := 0;
     let c := k1;
     let rows :=
       [(Instr.nop q seq, 0), (Instr.compute q seq, 1), (Instr.copy q seq, 2), (Instr.fill q seq, 3),
         (Instr.convert q seq, 4), (Instr.wait q seq, 5), (Instr.signal q seq, 6), (Instr.event q seq, 9)];
     let runs := c.started = true ∧ c.work = false ∧ c.held = false;
     let e := (Instr.nop q seq, 0);
     q < 4096 ∧ s.cmd? q seq = some c ∧ e ∈ rows ∧ (¬runs ∨ dOp c.desc ≠ e.2)) ∧
    (let s := ms stopped;
     let q := 16;
     let seq := 0;
     let c := stopped;
     let rows :=
       [(Instr.nop q seq, 0), (Instr.compute q seq, 1), (Instr.copy q seq, 2), (Instr.fill q seq, 3),
         (Instr.convert q seq, 4), (Instr.wait q seq, 5), (Instr.signal q seq, 6), (Instr.event q seq, 9)];
     let runs := c.started = true ∧ c.work = false ∧ c.held = false;
     let e := (Instr.nop q seq, 0);
     q < 4096 ∧ s.cmd? q seq = some c ∧ e ∈ rows ∧ e.2 ≠ 1 ∧ runs ∧ dOp c.desc = e.2 ∧ c.stop ≠ 0) ∧
    (let s := st 0;
     let q := 16;
     let seq := 0;
     let c := cc 0;
     let runs := c.started = true ∧ c.work = false ∧ c.held = false;
     q < 4096 ∧ s.cmd? q seq = some c ∧ runs ∧ c.stop = 0 ∧ dOp c.desc = 0) ∧
    (let s := st 7;
     let q := 16;
     let seq := 0;
     let c := cc 7;
     let runs := c.started = true ∧ c.work = false ∧ c.held = false;
     q < 4096 ∧ s.cmd? q seq = some c ∧ runs ∧ c.stop = 0 ∧ dOp c.desc = 9) ∧
    (let s := st 6;
     let q := 16;
     let seq := 0;
     let c := cc 6;
     let runs := c.started = true ∧ c.work = false ∧ c.held = false;
     q < 4096 ∧ s.cmd? q seq = some c ∧ runs ∧ c.stop = 0 ∧ dOp c.desc = 6 ∧ dSlot c.desc = none) ∧
    (let s := lk k6;
     let q := 16;
     let seq := 0;
     let c := k6;
     let runs := c.started = true ∧ c.work = false ∧ c.held = false;
     let slot := 1;
     q < 4096 ∧
       s.cmd? q seq = some c ∧
         runs ∧ c.stop = 0 ∧ dOp c.desc = 6 ∧ dSlot c.desc = some slot ∧ c.issued = false) ∧
    (let s := lk k7;
     let q := 16;
     let seq := 0;
     let c := k7;
     let runs := c.started = true ∧ c.work = false ∧ c.held = false;
     let slot := 1;
     q < 4096 ∧
       s.cmd? q seq = some c ∧
         runs ∧
           c.stop = 0 ∧
             dOp c.desc = 6 ∧
               dSlot c.desc = some slot ∧
                 c.issued = true ∧ s.reqsOf q seq = [] ∧ (s.atRoute (leAt c.desc 34 2 % 4096)).hold = false) ∧
    (let s := ms w3;
     let q := 16;
     let seq := 0;
     let c := w3;
     let runs := c.started = true ∧ c.work = false ∧ c.held = false;
     let es := waitEntries c.desc;
     let reached := fun (e : ℕ × ℕ) => e.2 ≤ s.rd64 (fenValue e.1);
     q < 4096 ∧ s.cmd? q seq = some c ∧ runs ∧ c.stop = 0 ∧ dOp c.desc = 5 ∧ ∀ e ∈ es, reached e) ∧
    (let s := ms w1;
     let q := 16;
     let seq := 0;
     let c := w1;
     let runs := c.started = true ∧ c.work = false ∧ c.held = false;
     let es := waitEntries c.desc;
     let reached := fun (e : ℕ × ℕ) => e.2 ≤ s.rd64 (fenValue e.1);
     let failed := fun (e : ℕ × ℕ) => ¬reached e ∧ s.fenBroken e.1 = true;
     q < 4096 ∧
       s.cmd? q seq = some c ∧ runs ∧ c.stop = 0 ∧ dOp c.desc = 5 ∧ (∃ e ∈ es, ¬reached e ∧ ¬failed e) ∧ ∀ e ∈ es, ¬failed e) ∧
    (let s := broken (ms w1);
     let q := 16;
     let seq := 0;
     let c := w1;
     let runs := c.started = true ∧ c.work = false ∧ c.held = false;
     let es := waitEntries c.desc;
     let reached := fun (e : ℕ × ℕ) => e.2 ≤ s.rd64 (fenValue e.1);
     let failed := fun (e : ℕ × ℕ) => ¬reached e ∧ s.fenBroken e.1 = true;
     let a := [(70, 0)];
     let e := (71, 3);
     let b := [];
     q < 4096 ∧
       s.cmd? q seq = some c ∧
         runs ∧
           c.stop = 0 ∧
             dOp c.desc = 5 ∧ es = a ++ e :: b ∧ (∀ g ∈ a, ¬failed g) ∧ failed e ∧ dRunOnBroken c.desc = false) ∧
    (let s := broken (ms w2);
     let q := 16;
     let seq := 0;
     let c := w2;
     let runs := c.started = true ∧ c.work = false ∧ c.held = false;
     let es := waitEntries c.desc;
     let reached := fun (e : ℕ × ℕ) => e.2 ≤ s.rd64 (fenValue e.1);
     let failed := fun (e : ℕ × ℕ) => ¬reached e ∧ s.fenBroken e.1 = true;
     q < 4096 ∧
       s.cmd? q seq = some c ∧
         runs ∧ c.stop = 0 ∧ dOp c.desc = 5 ∧ dRunOnBroken c.desc = true ∧ ∀ e ∈ es, reached e ∨ failed e) ∧
    (let s := ms k2;
     let q := 16;
     let seq := 0;
     let c := k2;
     let runs := c.started = true ∧ c.work = false ∧ c.held = false;
     let fresh := c.retrans = false ∧ c.written = false;
     q < 4096 ∧ s.cmd? q seq = some c ∧ runs ∧ c.stop = 0 ∧ dOp c.desc = 3 ∧ fresh) ∧
    (let s := ms k1;
     let q := 16;
     let seq := 0;
     let c := k1;
     let runs := c.started = true ∧ c.work = false ∧ c.held = false;
     let fresh := c.retrans = false ∧ c.written = false;
     let src := c.ranges.getD 0 { };
     let u := ms k1;
     let b :=
       match memS.devRead 0 0 64 with
       | (fst, Sum.inr b) => b
       | x => [];
     q < 4096 ∧
       s.cmd? q seq = some c ∧
         runs ∧
           c.stop = 0 ∧
             dOp c.desc = 2 ∧
               fresh ∧ src.loc = 0 ∧ 0 < leAt c.desc 48 8 ∧ s.devRead src.key src.addr (leAt c.desc 48 8) = (u, Sum.inr b)) ∧
    (let s := ms k3;
     let q := 16;
     let seq := 0;
     let c := k3;
     let runs := c.started = true ∧ c.work = false ∧ c.held = false;
     let fresh := c.retrans = false ∧ c.written = false;
     let src := c.ranges.getD 0 { };
     let sf := Fmt.i8;
     let df := Fmt.f8e4;
     let u := ms k3;
     let b :=
       match memS.devRead 0 0 64 with
       | (fst, Sum.inr b) => b
       | x => [];
     let n := leAt c.desc 48 8;
     q < 4096 ∧
       s.cmd? q seq = some c ∧
         runs ∧
           c.stop = 0 ∧
             dOp c.desc = 4 ∧
               fresh ∧
                 src.loc = 0 ∧
                   fmtOf (leAt c.desc 56 1) = some sf ∧
                     fmtOf (leAt c.desc 57 1) = some df ∧
                       sf.isBlock = false ∧
                         sf ≠ Fmt.acc ∧ 0 < sf.arrayBytes n ∧ s.devRead src.key src.addr (sf.arrayBytes n) = (u, Sum.inr b)) ∧
    (let s := mo (ms q1);
     let q := 16;
     let seq := 0;
     let c := q1;
     let runs := c.started = true ∧ c.work = false ∧ c.held = false;
     q < 4096 ∧
       s.cmd? q seq = some c ∧
         runs ∧
           c.stop = 0 ∧ dOp c.desc = 1 ∧ c.issued = false ∧ c.boundary = false ∧ dSlot c.desc = none) ∧
    (let s := mo (lk q3);
     let q := 16;
     let seq := 0;
     let c := q3;
     let runs := c.started = true ∧ c.work = false ∧ c.held = false;
     let slot := 1;
     let d :=
       { q3 with issued := true };
     q < 4096 ∧
       s.cmd? q seq = some c ∧
         runs ∧
           c.stop = 0 ∧
             dOp c.desc = 1 ∧
               c.issued = false ∧
                 c.boundary = false ∧
                   dSlot c.desc = some slot ∧
                     c.spr ≠ { } ∧
                       (s.updCmd q seq fun (c : Cmd) =>
                               { q := c.q, seq := c.seq, desc := c.desc, ctx := c.ctx, gen := c.gen, part := c.part, acw := c.acw, seed := c.seed,
                                 safe := c.safe, ranges := c.ranges, started := c.started, work := c.work, skip := c.skip, code := c.code,
                                 detail := c.detail, srcKind := c.srcKind, srcId := c.srcId, remote := c.remote, startNo := c.startNo, stop := c.stop,
                                 boundary := c.boundary, buf := c.buf, got := c.got, asked := c.asked, written := c.written, recorded := c.recorded,
                                 fenced := c.fenced, at_ := c.at_, held := c.held, retrans := c.retrans, issued := true, warn := c.warn,
                                 result := c.result, spanNo := c.spanNo, tq := c.tq, spr := c.spr }).cmd?
                           q seq =
                         some d) ∧
    (let s := sJ;
     let q := 16;
     let seq := 0;
     let c := q2;
     let runs := c.started = true ∧ c.work = false ∧ c.held = false;
     let slot := 1;
     let u :=
       ((s.updCmd q seq fun (c : Cmd) =>
                 { q := c.q, seq := c.seq, desc := c.desc, ctx := c.ctx, gen := c.gen, part := c.part, acw := c.acw, seed := c.seed, safe := c.safe,
                   ranges := c.ranges, started := c.started, work := c.work, skip := c.skip, code := c.code, detail := c.detail, srcKind := c.srcKind,
                   srcId := c.srcId, remote := c.remote, startNo := c.startNo, stop := c.stop, boundary := c.boundary, buf := c.buf, got := c.got,
                   asked := c.asked, written := c.written, recorded := c.recorded, fenced := c.fenced, at_ := c.at_, held := c.held, retrans := c.retrans,
                   issued := true, warn := c.warn, result := c.result, spanNo := c.spanNo, tq := c.tq, spr := c.spr }).castColl
             c.part slot
             ((s.updCmd q seq fun (c : Cmd) =>
                   { q := c.q, seq := c.seq, desc := c.desc, ctx := c.ctx, gen := c.gen, part := c.part, acw := c.acw, seed := c.seed, safe := c.safe,
                     ranges := c.ranges, started := c.started, work := c.work, skip := c.skip, code := c.code, detail := c.detail, srcKind := c.srcKind,
                     srcId := c.srcId, remote := c.remote, startNo := c.startNo, stop := c.stop, boundary := c.boundary, buf := c.buf, got := c.got,
                     asked := c.asked, written := c.written, recorded := c.recorded, fenced := c.fenced, at_ := c.at_, held := c.held,
                     retrans := c.retrans, issued := true, warn := c.warn, result := c.result, spanNo := c.spanNo, tq := c.tq,
                     spr := c.spr }).checkTxn
               c slot)).checksHeld
         c slot;
     let d := dJ;
     q < 4096 ∧
       s.cmd? q seq = some c ∧
         runs ∧
           c.stop = 0 ∧
             dOp c.desc = 1 ∧
               c.issued = false ∧
                 c.boundary = false ∧
                   dSlot c.desc = some slot ∧ c.spr = { } ∧ u.cmd? q seq = some d ∧ d.work = true) ∧
    (let s := mo (ms q2);
     let q := 16;
     let seq := 0;
     let c := q2;
     let runs := c.started = true ∧ c.work = false ∧ c.held = false;
     let slot := 1;
     let u :=
       ((s.updCmd q seq fun (c : Cmd) =>
                 { q := c.q, seq := c.seq, desc := c.desc, ctx := c.ctx, gen := c.gen, part := c.part, acw := c.acw, seed := c.seed, safe := c.safe,
                   ranges := c.ranges, started := c.started, work := c.work, skip := c.skip, code := c.code, detail := c.detail, srcKind := c.srcKind,
                   srcId := c.srcId, remote := c.remote, startNo := c.startNo, stop := c.stop, boundary := c.boundary, buf := c.buf, got := c.got,
                   asked := c.asked, written := c.written, recorded := c.recorded, fenced := c.fenced, at_ := c.at_, held := c.held, retrans := c.retrans,
                   issued := true, warn := c.warn, result := c.result, spanNo := c.spanNo, tq := c.tq, spr := c.spr }).castColl
             c.part slot
             ((s.updCmd q seq fun (c : Cmd) =>
                   { q := c.q, seq := c.seq, desc := c.desc, ctx := c.ctx, gen := c.gen, part := c.part, acw := c.acw, seed := c.seed, safe := c.safe,
                     ranges := c.ranges, started := c.started, work := c.work, skip := c.skip, code := c.code, detail := c.detail, srcKind := c.srcKind,
                     srcId := c.srcId, remote := c.remote, startNo := c.startNo, stop := c.stop, boundary := c.boundary, buf := c.buf, got := c.got,
                     asked := c.asked, written := c.written, recorded := c.recorded, fenced := c.fenced, at_ := c.at_, held := c.held,
                     retrans := c.retrans, issued := true, warn := c.warn, result := c.result, spanNo := c.spanNo, tq := c.tq,
                     spr := c.spr }).checkTxn
               c slot)).checksHeld
         c slot;
     let d :=
       { q2 with issued := true };
     q < 4096 ∧
       s.cmd? q seq = some c ∧
         runs ∧
           c.stop = 0 ∧
             dOp c.desc = 1 ∧
               c.issued = false ∧
                 c.boundary = false ∧
                   dSlot c.desc = some slot ∧ c.spr = { } ∧ u.cmd? q seq = some d ∧ d.work = false) := by
  refine ⟨?_, ?_, ?_, ?_, ?_, ?_, ?_, ?_, ?_, ?_, ?_, ?_, ?_, ?_, ?_, ?_, ?_, ?_⟩
  · first | decide +kernel | (simp only [State.holds, State.sameBytes]; decide +kernel)
  · first | decide +kernel | (simp only [State.holds, State.sameBytes]; decide +kernel)
  · first | decide +kernel | (simp only [State.holds, State.sameBytes]; decide +kernel)
  · first | decide +kernel | (simp only [State.holds, State.sameBytes]; decide +kernel)
  · first | decide +kernel | (simp only [State.holds, State.sameBytes]; decide +kernel)
  · first | decide +kernel | (simp only [State.holds, State.sameBytes]; decide +kernel)
  · first | decide +kernel | (simp only [State.holds, State.sameBytes]; decide +kernel)
  · first | decide +kernel | (simp only [State.holds, State.sameBytes]; decide +kernel)
  · first | decide +kernel | (simp only [State.holds, State.sameBytes]; decide +kernel)
  · first | decide +kernel | (simp only [State.holds, State.sameBytes]; decide +kernel)
  · first | decide +kernel | (simp only [State.holds, State.sameBytes]; decide +kernel)
  · first | decide +kernel | (simp only [State.holds, State.sameBytes]; decide +kernel)
  · first | decide +kernel | (simp only [State.holds, State.sameBytes]; decide +kernel)
  · first | decide +kernel | (simp only [State.holds, State.sameBytes]; decide +kernel)
  · first | decide +kernel | (simp only [State.holds, State.sameBytes]; decide +kernel)
  · first | decide +kernel | (simp only [State.holds, State.sameBytes]; decide +kernel)
  · first | decide +kernel | (simp only [State.holds, State.sameBytes]; decide +kernel)
  · first | decide +kernel | (simp only [State.holds, State.sameBytes]; decide +kernel)

end Sys2Proof.Tests.C23b

namespace Sys2Proof.Tests.C23c

open Sys2Proof.Machine

def qd (l : List (Nat × Nat × Nat)) : Bytes := tBytes 128 l
/-- image: 4 sections; program of cell 0 with one ROUND_END; route; cell config; tiling of one GRID phase -/
def imgOk (phases t0 : Nat) : Bytes := tBytes 768 ([(0,4,0x444D564F),(4,2,1),(6,2,256),(8,4,768),(0xC,2,4),(0xE,1,phases),(0x12,2,1),(0x14,4,100),(0x39,1,phases - 1),(0x3A,2,1),
  (0x100,2,1),(0x102,1,255),(0x104,4,0x140),(0x108,4,40),(0x10C,4,1),
  (0x110,2,2),(0x112,1,255),(0x114,4,0x180),(0x118,4,16),(0x11C,4,1),
  (0x120,2,3),(0x122,1,255),(0x124,4,0x1C0),(0x128,4,64),(0x12C,4,1),
  (0x130,2,6),(0x132,1,255),(0x134,4,0x200),(0x138,4,64*phases),(0x13C,4,phases),
  (0x142,2,1),(0x148,8,0xFFFFFFFFFFFFFF00),(0x150,8,0xFFFFFFFFFFFFFFFF),(0x160,8,0x13),
  (0x182,2,1),(0x188,8,16)] ++ (List.range phases).flatMap (fun p => [(0x200 + 64*p + 0,1,1),(0x200+64*p+4,2,t0),(0x200+64*p+0x18,1,0xFF),(0x200+64*p+0x1C,4,100)]))
def c0 : Cmd := { q := 16, seq := 0, desc := qd [(0,1,1),(2,2,0x80),(0x20,1,2),(0x22,1,0xFF)], ctx := 8, part := 3, started := true }
def nx (c : Cmd) (s : State := tWork) : State := { s with cmds := [(16, [c])] }
def mo (n t0 : Nat) (s : State) : State := { s with moulds := [(3 * 64 + 2, { state := 2, count := 1, image := imgOk n t0, serial := 1, start := some 0 })] }
def regD : Bytes := qd [(0,1,7),(2,2,0x80),(0x20,8,0x1000 + 0xFFF * 2 ^ 48),(0x28,4,768)]
def rgs : List Range := match tWork.checkRanges 16 regD [] 0 0 (descRanges regD) with
  | .inl l => l
  | _ => []
def ir : Bytes := imgOk 1 0
def r1 : Cmd := { c0 with desc := regD, ranges := rgs }
def relD : Bytes := qd [(0,1,8),(2,2,0x80),(0x20,1,2)]
def e1 : Cmd := { c0 with desc := relD }
def mm (st n : Nat) (s : State) : State := { s with moulds := [(3 * 64 + 2, { state := st, count := n, image := ir, serial := 1 })] }
def quietS (s : State) : State := (List.range 4).foldl (fun s n => s.setQuiet n true) s
def inCtx (s : State) : State := { s with slices := [(0, { ctx := some 8 })] }
def cl1 : State := quietS (inCtx (mo 1 0 (nx c0)))
def cl2 : State := nextOf (exec (.configLoad 0 16 0) cl1)
def cA : Cmd := { c0 with issued := true, spr := { active := true, done := 2 } }
def cB : Cmd := { c0 with issued := true, spr := { combined := true } }
def cD : Cmd := { c0 with issued := true, spr := { } }
def sp (c : Cmd) : Cmd := { c with desc := qd [(0,1,1),(2,2,0x80),(0x20,1,2),(0x22,1,1)] }
def lk (c : Cmd) : State := { tLink with cmds := [(16, [c])] }
def coll (s : State) : State := { s with moulds := [(3 * 64 + 2, { state := 2, count := 1, image := patchBytes (imgOk 1 0) 0x200 [3], serial := 1 })] }
def b1 : Cmd := { c0 with boundary := true, issued := true }
def b2 : Cmd := { c0 with stop := 9, issued := true }
def tqd (s : State) : State := { s with ctxs := [(8, { tq := some 100 })] }
def d1 : Cmd := (((mo 2 1 (nx cB)).updCmd 16 0 (fun c => { c with spr := (nextPhase (imgOk 2 1) cB.spr).getD {} })).cmd? 16 0).getD c0
def g1 : State := { nx r1 (mm 1 0 tWork) with moulds := [(3 * 64 + 2, { state := 1, image := ir, regBy := some (16, 0), start := some 0 })] }
def g2 : State := { g1 with moulds := [(3 * 64 + 2, { state := 1, image := ir.set 0 0, regBy := some (16, 0) })] }
def r2 : Cmd := { r1 with desc := qd [(0,1,7),(2,2,0x80),(0x20,8,0x1000 + 0xFFF * 2 ^ 48),(0x28,4,2)] }
def sA2 : State := nx r2 tWork
def u2 : State := (sA2.devRead 0 0x1000 2).1
def clN : State := { cl2 with moulds := [(3 * 64 + 2, { state := 2, count := 1, image := imgOk 1 0, serial := 1 })] }
def clS (s : State) (b : Bytes) : State := s.cfgWrite 3 0 b
def clR : State := clS { cl2 with moulds := [(3 * 64 + 2, { state := 2, count := 1, image := [1], serial := 1, start := some 0 })] } [1]
def cEnd : Cmd := { c0 with issued := true, spr := { active := true, done := 2, combined := true } }
def collD : State := coll (lk (sp cEnd))
def dig : Bytes := leBytes 48 (imageHash ir)
def ird : Bytes := patchBytes ir 0xD0 dig
def g5 : State := { nx r1 (mm 1 0 tWork) with moulds := [(3 * 64 + 2, { state := 1, image := ird, regBy := some (16, 0), start := some 0 })] }

set_option maxRecDepth 100000 in
/-- Concrete inputs that meet the hypotheses of `Obligations.MouldsAndPhasesOfACommand`, clause by clause. -/
theorem witness_MouldsAndPhasesOfACommand :
    (let s := sA2;
     let q := 16;
     let seq := 0;
     let c := r2;
     let src := c.ranges.getD 0 { };
     let u := u2;
     let m := [0, 0];
     q < 4096 ∧
       s.cmd? q seq = some c ∧
         c.started = true ∧
           c.work = false ∧
             c.held = false ∧
               dOp c.desc = 7 ∧
                 c.stop = 0 ∧
                   c.retrans = false ∧
                     c.written = false ∧
                       src.loc = 0 ∧ 0 < leAt c.desc 40 4 ∧ s.devRead src.key src.addr (leAt c.desc 40 4) = (u, Sum.inr m)) ∧
    (let s := sA2;
     let q := 16;
     let seq := 0;
     let c := r2;
     let src := c.ranges.getD 0 { };
     let u := u2;
     let m := [0, 0];
     let i := 0;
     q < 4096 ∧
       s.cmd? q seq = some c ∧
         c.started = true ∧
           c.work = false ∧
             c.held = false ∧
               dOp c.desc = 7 ∧
                 c.stop = 0 ∧
                   c.retrans = false ∧
                     c.written = false ∧
                       src.loc = 0 ∧
                         0 < leAt c.desc 40 4 ∧
                           s.devRead src.key src.addr (leAt c.desc 40 4) = (u, Sum.inr m) ∧
                             (∀ st ∈ [1, 2, 3], u.mouldWith c.part st (imageHash m) = none) ∧ u.mouldFree c.part = some i) ∧
    (let s := nx e1;
     let q := 16;
     let seq := 0;
     let c := e1;
     let i := dMould c.desc;
     let e := s.atMould (c.part * 64 + i);
     q < 4096 ∧ s.cmd? q seq = some c ∧ c.started = true ∧ c.work = false ∧ dOp c.desc = 8 ∧ (e.state ≤ 1 ∨ e.count = 0)) ∧
    (let s := nx e1 (mm 2 2 tWork);
     let q := 16;
     let seq := 0;
     let c := e1;
     let i := dMould c.desc;
     let e := s.atMould (c.part * 64 + i);
     q < 4096 ∧ s.cmd? q seq = some c ∧ c.started = true ∧ c.work = false ∧ dOp c.desc = 8 ∧ 2 ≤ e.state ∧ 2 ≤ e.count) ∧
    (let s := nx e1 (mm 2 1 tWork);
     let q := 16;
     let seq := 0;
     let c := e1;
     let i := dMould c.desc;
     let e := s.atMould (c.part * 64 + i);
     q < 4096 ∧ s.cmd? q seq = some c ∧ c.started = true ∧ c.work = false ∧ dOp c.desc = 8 ∧ 2 ≤ e.state ∧ e.count = 1) ∧
    (let s :=
       nx
         { sp c0 with issued := true, spr := { combined := true } }
         (coll tLink);
     let q := 16;
     let seq := 0;
     let c :=
       { sp c0 with issued := true, spr := { combined := true } };
     let slice := 0;
     let y := s.atSlice slice;
     let may :=
       c.started = true ∧
         c.work = false ∧
           dOp c.desc = 1 ∧
             y.ctx = some c.ctx ∧
               s.quiet slice = true ∧ y.loading = false ∧ y.tile = none ∧ y.leaving = false ∧ y.cfg ≠ some (s.cfgOf c);
     q < 4096 ∧ s.cmd? q seq = some c ∧ slice < 32 ∧ ¬may) ∧
    (let s := cl1;
     let q := 16;
     let seq := 0;
     let c := c0;
     let slice := 0;
     let y := s.atSlice slice;
     let may :=
       c.started = true ∧
         c.work = false ∧
           dOp c.desc = 1 ∧
             y.ctx = some c.ctx ∧
               s.quiet slice = true ∧ y.loading = false ∧ y.tile = none ∧ y.leaving = false ∧ y.cfg ≠ some (s.cfgOf c);
     q < 4096 ∧ s.cmd? q seq = some c ∧ slice < 32 ∧ may) ∧
    (let s := cl2;
     let q := 16;
     let seq := 0;
     let c := c0;
     let slice := 0;
     let y := s.atSlice slice;
     q < 4096 ∧ s.cmd? q seq = some c ∧ slice < 32 ∧ y.loading = true ∧ y.cmd = some (q, seq)) ∧
    (let s : State := clN;
     let q : ℕ := 16;
     let seq : ℕ := 0;
     let c : Cmd := c0;
     let slice : ℕ := 0;
     let y : SliceSt := s.atSlice slice;
     q < 4096 ∧ s.cmd? q seq = some c ∧ slice < 32 ∧ y.loading = true ∧ y.cmd = some (q, seq) ∧ (s.mouldOf c).start = none) ∧
    (let s := cl2;
     let q := 16;
     let seq := 0;
     let c := c0;
     let slice := 0;
     let y := s.atSlice slice;
     let a := 0;
     let u := (s.cfgRead c.part a (List.length (s.mouldOf c).image)).1;
     q < 4096 ∧
       s.cmd? q seq = some c ∧
         slice < 32 ∧
           y.loading = true ∧
             y.cmd = some (q, seq) ∧ (s.mouldOf c).start = some a ∧ s.cfgRead c.part a (List.length (s.mouldOf c).image) = (u, none)) := by
  refine ⟨?_, ?_, ?_, ?_, ?_, ?_, ?_, ?_, ?_, ?_⟩
  · exact ⟨by decide +kernel, by decide +kernel, by decide +kernel, by decide +kernel, by decide +kernel, by decide +kernel, by decide +kernel, by decide +kernel, by decide +kernel, by decide +kernel, by decide +kernel, Prod.ext rfl (by decide +kernel)⟩
  · exact ⟨by decide +kernel, by decide +kernel, by decide +kernel, by decide +kernel, by decide +kernel, by decide +kernel, by decide +kernel, by decide +kernel, by decide +kernel, by decide +kernel, by decide +kernel, Prod.ext rfl (by decide +kernel), by decide +kernel, by decide +kernel⟩
  · first | decide +kernel | (simp only [State.holds, State.sameBytes]; decide +kernel)
  · first | decide +kernel | (simp only [State.holds, State.sameBytes]; decide +kernel)
  · first | decide +kernel | (simp only [State.holds, State.sameBytes]; decide +kernel)
  · first | decide +kernel | (simp only [State.holds, State.sameBytes]; decide +kernel)
  · first | decide +kernel | (simp only [State.holds, State.sameBytes]; decide +kernel)
  · first | decide +kernel | (simp only [State.holds, State.sameBytes]; decide +kernel)
  · first | decide +kernel | (simp only [State.holds, State.sameBytes]; decide +kernel)
  · first | decide +kernel | (simp only [State.holds, State.sameBytes]; decide +kernel)

/-- Concrete inputs that meet the hypotheses of `Obligations.MouldsAndPhasesOfACommand`, clause by clause. -/
theorem witness_MouldsAndPhasesOfACommand_2 :
    (let s : State := clR;
     let q : ℕ := 16;
     let seq : ℕ := 0;
     let c : Cmd := c0;
     let slice : ℕ := 0;
     let y : SliceSt := s.atSlice slice;
     let a : ℕ := 0;
     q < 4096 ∧
       s.cmd? q seq = some c ∧
         slice < 32 ∧
           y.loading = true ∧
             y.cmd = some (q, seq) ∧ (s.mouldOf c).start = some a ∧
               ∃ u b, s.cfgRead c.part a (List.length (s.mouldOf c).image) = (u, some b)) ∧
    (let s :=
       nx
         { sp c0 with issued := true, spr := { combined := true } }
         (coll tLink);
     let q := 16;
     let seq := 0;
     let c :=
       { sp c0 with issued := true, spr := { combined := true } };
     q < 4096 ∧
       s.cmd? q seq = some c ∧ (c.work = true ∨ dOp c.desc ≠ 1 ∨ s.tilesDone c = false ∨ c.spr.waiting = true)) ∧
    (let s := mo 1 0 (nx cA);
     let q := 16;
     let seq := 0;
     let c := cA;
     q < 4096 ∧
       s.cmd? q seq = some c ∧
         c.work = false ∧
           dOp c.desc = 1 ∧ s.tilesDone c = true ∧ c.spr.waiting = false ∧ dSlot c.desc = none) ∧
    (let s := mo 1 0 (lk (sp cA));
     let q := 16;
     let seq := 0;
     let c := sp cA;
     let l := 1;
     q < 4096 ∧
       s.cmd? q seq = some c ∧
         c.work = false ∧
           dOp c.desc = 1 ∧
             s.tilesDone c = true ∧
               c.spr.waiting = false ∧ dSlot c.desc = some l ∧ (s.phaseOf c).kind ≠ 3 ∧ c.spr.combined = false) ∧
    (let s := coll (lk (sp cA));
     let q := 16;
     let seq := 0;
     let c := sp cA;
     let l := 1;
     q < 4096 ∧
       s.cmd? q seq = some c ∧
         c.work = false ∧
           dOp c.desc = 1 ∧
             s.tilesDone c = true ∧
               c.spr.waiting = false ∧ dSlot c.desc = some l ∧ (s.phaseOf c).kind = 3 ∧ c.spr.combined = false) ∧
    (let s : State := collD;
     let q : ℕ := 16;
     let seq : ℕ := 0;
     let c : Cmd := sp cEnd;
     let l : ℕ := 1;
     q < 4096 ∧
       s.cmd? q seq = some c ∧
         c.work = false ∧
           dOp c.desc = 1 ∧
             s.tilesDone c = true ∧
               c.spr.waiting = false ∧ dSlot c.desc = some l ∧ (s.phaseOf c).kind = 3 ∧ c.spr.combined = true) ∧
    (let s : State := mo 1 0 (lk (sp cEnd));
     let q : ℕ := 16;
     let seq : ℕ := 0;
     let c : Cmd := sp cEnd;
     let l : ℕ := 1;
     q < 4096 ∧
       s.cmd? q seq = some c ∧
         c.work = false ∧
           dOp c.desc = 1 ∧
             s.tilesDone c = true ∧
               c.spr.waiting = false ∧ dSlot c.desc = some l ∧ (s.phaseOf c).kind ≠ 3 ∧ c.spr.combined = true) ∧
    (let s :=
       nx
         { sp c0 with issued := true, spr := { active := true, combined := true } }
         (coll tLink);
     let q := 16;
     let seq := 0;
     let c :=
       { sp c0 with issued := true, spr := { active := true, combined := true } };
     let stays :=
       c.work = true ∨
         c.started = false ∨
           c.held = true ∨
             c.issued = false ∨
               dOp c.desc ≠ 1 ∨
                 c.boundary = true ∨
                   c.stop ≠ 0 ∨
                     c.spr.active = true ∨
                       c.spr.waiting = true ∨ (s.moving q seq fun (x : MoverReq) => true) = true ∨ s.reqsOf q seq ≠ [];
     q < 4096 ∧ s.cmd? q seq = some c ∧ stays) ∧
    (let s := mo 1 0 (nx cD);
     let q := 16;
     let seq := 0;
     let c := cD;
     let stays :=
       c.work = true ∨
         c.started = false ∨
           c.held = true ∨
             c.issued = false ∨
               dOp c.desc ≠ 1 ∨
                 c.boundary = true ∨
                   c.stop ≠ 0 ∨
                     c.spr.active = true ∨
                       c.spr.waiting = true ∨ (s.moving q seq fun (x : MoverReq) => true) = true ∨ s.reqsOf q seq ≠ [];
     q < 4096 ∧ s.cmd? q seq = some c ∧ ¬stays ∧ c.spr.combined = false) ∧
    (let s :=
       nx
         { sp c0 with issued := true, spr := { combined := true } }
         (coll tLink);
     let q := 16;
     let seq := 0;
     let c :=
       { sp c0 with issued := true, spr := { combined := true } };
     let stays :=
       c.work = true ∨
         c.started = false ∨
           c.held = true ∨
             c.issued = false ∨
               dOp c.desc ≠ 1 ∨
                 c.boundary = true ∨
                   c.stop ≠ 0 ∨
                     c.spr.active = true ∨
                       c.spr.waiting = true ∨ (s.moving q seq fun (x : MoverReq) => true) = true ∨ s.reqsOf q seq ≠ [];
     q < 4096 ∧ s.cmd? q seq = some c ∧ ¬stays ∧ c.spr.combined = true ∧ nextPhase (s.mouldOf c).image c.spr = none) := by
  refine ⟨?_, ?_, ?_, ?_, ?_, ?_, ?_, ?_, ?_, ?_⟩
  · exact ⟨by decide +kernel, by decide +kernel, by decide +kernel, by decide +kernel, by decide +kernel, by decide +kernel, pair_some _ (by decide +kernel)⟩
  · first | decide +kernel | (simp only [State.holds, State.sameBytes]; decide +kernel)
  · first | decide +kernel | (simp only [State.holds, State.sameBytes]; decide +kernel)
  · first | decide +kernel | (simp only [State.holds, State.sameBytes]; decide +kernel)
  · first | decide +kernel | (simp only [State.holds, State.sameBytes]; decide +kernel)
  · first | decide +kernel | (simp only [State.holds, State.sameBytes]; decide +kernel)
  · first | decide +kernel | (simp only [State.holds, State.sameBytes]; decide +kernel)
  · first | decide +kernel | (simp only [State.holds, State.sameBytes]; decide +kernel)
  · first | decide +kernel | (simp only [State.holds, State.sameBytes]; decide +kernel)
  · first | decide +kernel | (simp only [State.holds, State.sameBytes]; decide +kernel)

/-- Concrete inputs that meet the hypotheses of `Obligations.MouldsAndPhasesOfACommand`, clause by clause. -/
theorem witness_MouldsAndPhasesOfACommand_3 :
    (let s := mo 2 1 (nx cB);
     let q := 16;
     let seq := 0;
     let c := cB;
     let stays :=
       c.work = true ∨
         c.started = false ∨
           c.held = true ∨
             c.issued = false ∨
               dOp c.desc ≠ 1 ∨
                 c.boundary = true ∨
                   c.stop ≠ 0 ∨
                     c.spr.active = true ∨
                       c.spr.waiting = true ∨ (s.moving q seq fun (x : MoverReq) => true) = true ∨ s.reqsOf q seq ≠ [];
     let spr := (nextPhase (imgOk 2 1) cB.spr).getD { };
     let d := d1;
     q < 4096 ∧
       s.cmd? q seq = some c ∧
         ¬stays ∧
           c.spr.combined = true ∧
             nextPhase (s.mouldOf c).image c.spr = some spr ∧
               (s.updCmd q seq fun (c : Cmd) =>
                       { q := c.q, seq := c.seq, desc := c.desc, ctx := c.ctx, gen := c.gen, part := c.part, acw := c.acw, seed := c.seed, safe := c.safe,
                         ranges := c.ranges, started := c.started, work := c.work, skip := c.skip, code := c.code, detail := c.detail,
                         srcKind := c.srcKind, srcId := c.srcId, remote := c.remote, startNo := c.startNo, stop := c.stop, boundary := c.boundary,
                         buf := c.buf, got := c.got, asked := c.asked, written := c.written, recorded := c.recorded, fenced := c.fenced, at_ := c.at_,
                         held := c.held, retrans := c.retrans, issued := c.issued, warn := c.warn, result := c.result, spanNo := c.spanNo, tq := c.tq,
                         spr := spr }).cmd?
                   q seq =
                 some d) ∧
    (let s :=
       nx
         { sp c0 with issued := true, spr := { combined := true } }
         (coll tLink);
     let q := 16;
     let seq := 0;
     let c :=
       { sp c0 with issued := true, spr := { combined := true } };
     let stays :=
       c.work = true ∨ c.started = false ∨ c.boundary = false ∧ c.stop = 0 ∨ s.noBoundary c = true ∨ s.atBoundary c = false;
     q < 4096 ∧ s.cmd? q seq = some c ∧ stays) ∧
    (let s := mo 1 0 (nx b2);
     let q := 16;
     let seq := 0;
     let c := b2;
     let stays :=
       c.work = true ∨ c.started = false ∨ c.boundary = false ∧ c.stop = 0 ∨ s.noBoundary c = true ∨ s.atBoundary c = false;
     q < 4096 ∧ s.cmd? q seq = some c ∧ ¬stays ∧ c.stop ≠ 0) ∧
    (let s := mo 1 0 (nx b1);
     let q := 16;
     let seq := 0;
     let c := b1;
     let stays :=
       c.work = true ∨ c.started = false ∨ c.boundary = false ∧ c.stop = 0 ∨ s.noBoundary c = true ∨ s.atBoundary c = false;
     q < 4096 ∧ s.cmd? q seq = some c ∧ ¬stays ∧ c.stop = 0 ∧ (s.atRebind c.part).op ≠ 1 ∧ (s.atCtx c.ctx).tq = none) ∧
    (let s := tqd (mo 1 0 (nx b1));
     let q := 16;
     let seq := 0;
     let c := b1;
     let stays :=
       c.work = true ∨ c.started = false ∨ c.boundary = false ∧ c.stop = 0 ∨ s.noBoundary c = true ∨ s.atBoundary c = false;
     q < 4096 ∧ s.cmd? q seq = some c ∧ ¬stays ∧ c.stop = 0 ∧ (s.atRebind c.part).op ≠ 1 ∧ (s.atCtx c.ctx).tq ≠ none) ∧
    (let s :=
       nx
         { sp c0 with issued := true, spr := { combined := true } }
         (coll tLink);
     let part := 3;
     let id := 0;
     let k := part * 64 + id;
     let e := s.atMould k;
     part < 32 ∧ id < 64 ∧ e.state ≠ 1) ∧
    (let s : State := g5;
     let part : ℕ := 3;
     let id : ℕ := 2;
     let k : ℕ := part * 64 + id;
     let e : Mould := s.atMould k;
     let room : Bool := e.start.isSome;
     let q : ℕ := 16;
     let n : ℕ := 0;
     part < 32 ∧
       id < 64 ∧
         e.state = 1 ∧
           e.regBy = some (q, n) ∧ s.mouldWait = [] ∧ imageCheck e.image (List.length e.image) room true = none) ∧
    (let s := g2;
     let part := 3;
     let id := 2;
     let k := part * 64 + id;
     let e := s.atMould k;
     let room := e.start.isSome;
     let reason := 1;
     let detail := 0;
     part < 32 ∧
       id < 64 ∧ e.state = 1 ∧ s.mouldWait = [] ∧ imageCheck e.image (List.length e.image) room true = some (reason, detail)) := by
  refine ⟨?_, ?_, ?_, ?_, ?_, ?_, ?_, ?_⟩
  · first | decide +kernel | (simp only [State.holds, State.sameBytes]; decide +kernel)
  · first | decide +kernel | (simp only [State.holds, State.sameBytes]; decide +kernel)
  · first | decide +kernel | (simp only [State.holds, State.sameBytes]; decide +kernel)
  · first | decide +kernel | (simp only [State.holds, State.sameBytes]; decide +kernel)
  · first | decide +kernel | (simp only [State.holds, State.sameBytes]; decide +kernel)
  · first | decide +kernel | (simp only [State.holds, State.sameBytes]; decide +kernel)
  · first | decide +kernel | (simp only [State.holds, State.sameBytes]; decide +kernel)
  · first | decide +kernel | (simp only [State.holds, State.sameBytes]; decide +kernel)

end Sys2Proof.Tests.C23c

namespace Sys2Proof.Tests.C30

open Sys2Proof.Machine

def p1 : State := tWork.puts [(partPg 4 + PART_STAT_STATE.off, 1), (partPg 4 + 0x0B4, 20 + 4 * 2 ^ 10), (partPg 4 + PART_SLICE_REQ, 0x30), (partPg 4 + PART_CFG_REGION, 4), (mapPg + 0x440, 9), (mapPg + 0x444, 0x400), (mapPg + 0x448, 200), (mapPg + 0x44C, 4)]
def p2 : State := p1.puts [(partPg 4 + PART_SLICE_REQ, 0x1)]
def p5 : State := { tWork with attach := [(9, some 3)] }
def ms (k h f : Nat) : State := { (tWork.puts [(partPg 3 + PART_MAP_SEL, f + k * 256 + h * 1024)]) with attach := [(9, some 3)] }
def ms2 : State := (ms 2 0 9).puts [(ctxPg 9 + 0x20, 8)]
def mp1 : State := { ms 0 0 9 with maps := [(mapKey 9 0 0, some 16)] }

/-- Concrete inputs that meet the hypotheses of `Obligations.PartitionLifecycle`, clause by clause. -/
theorem witness_PartitionLifecycle :
    (let s := tWork;
     let p := 4;
     let v := 1;
     let w := written Pg.part PART_CTL v;
     p < 32 ∧
       s.holds 0 Pg.part p ∧
         bitOf w 0 = true ∧ bitOf w 1 = false ∧ bitOf w 2 = false ∧ s.partState p = 0) ∧
    (let s := tWork;
     let p := 3;
     let v := 1;
     let w := written Pg.part PART_CTL v;
     p < 32 ∧
       s.holds 0 Pg.part p ∧
         bitOf w 0 = true ∧ bitOf w 1 = false ∧ bitOf w 2 = false ∧ s.partState p ≠ 0) ∧
    (let s := tWork;
     let p := 3;
     let v := 2;
     let w := written Pg.part PART_CTL v;
     p < 32 ∧
       s.holds 0 Pg.part p ∧
         bitOf w 0 = false ∧ bitOf w 1 = true ∧ bitOf w 2 = false ∧ s.partState p ≠ 1) ∧
    (let s := p2;
     let p := 4;
     let v := 2;
     let w := written Pg.part PART_CTL v;
     p < 32 ∧
       s.holds 0 Pg.part p ∧
         bitOf w 0 = false ∧ bitOf w 1 = true ∧ bitOf w 2 = false ∧ s.partState p = 1 ∧ s.activateRule p ≠ 0) ∧
    (let s := p1;
     let p := 4;
     let v := 2;
     let w := written Pg.part PART_CTL v;
     p < 32 ∧
       s.holds 0 Pg.part p ∧
         bitOf w 0 = false ∧
           bitOf w 1 = true ∧ bitOf w 2 = false ∧ s.partState p = 1 ∧ s.activateRule p = 0 ∧ s.sec.entropyBad = false) ∧
    (let s := tWork;
     let p := 3;
     let v := 4;
     let w := written Pg.part PART_CTL v;
     p < 32 ∧
       s.holds 0 Pg.part p ∧
         bitOf w 0 = false ∧
           bitOf w 1 = false ∧ bitOf w 2 = true ∧ (s.partState p = 1 ∨ s.partState p = 2) ∧ s.partEmpty p = false) ∧
    (let s := p1;
     let p := 4;
     let v := 4;
     let w := written Pg.part PART_CTL v;
     p < 32 ∧
       s.holds 0 Pg.part p ∧
         bitOf w 0 = false ∧
           bitOf w 1 = false ∧ bitOf w 2 = true ∧ (s.partState p = 1 ∨ s.partState p = 2) ∧ s.partEmpty p = true) := by
  refine ⟨?_, ?_, ?_, ?_, ?_, ?_, ?_⟩
  · first | decide +kernel | (simp only [State.holds, State.sameBytes]; decide +kernel)
  · first | decide +kernel | (simp only [State.holds, State.sameBytes]; decide +kernel)
  · first | decide +kernel | (simp only [State.holds, State.sameBytes]; decide +kernel)
  · first | decide +kernel | (simp only [State.holds, State.sameBytes]; decide +kernel)
  · first | decide +kernel | (simp only [State.holds, State.sameBytes]; decide +kernel)
  · first | decide +kernel | (simp only [State.holds, State.sameBytes]; decide +kernel)
  · first | decide +kernel | (simp only [State.holds, State.sameBytes]; decide +kernel)

/-- Concrete inputs that meet the hypotheses of `Obligations.PartitionRangesAndFunctions`, clause by clause. -/
theorem witness_PartitionRangesAndFunctions :
    (let s := p1;
     let p := 4;
     let off := PART_CTX_RANGE;
     p < 32 ∧
       s.holds 0 Pg.part p ∧
         off ∈ [PART_CTX_RANGE, PART_QUE_RANGE, PART_FEN_RANGE, PART_EVQ_RANGE] ∧
           s.partState p = 1) ∧
    (let s := tWork;
     let p := 4;
     let off := PART_CTX_RANGE;
     p < 32 ∧
       s.holds 0 Pg.part p ∧
         off ∈ [PART_CTX_RANGE, PART_QUE_RANGE, PART_FEN_RANGE, PART_EVQ_RANGE] ∧
           s.partState p = 0) ∧
    (let s := tWork;
     let p := 4;
     let v := 265;
     let w := written Pg.part PART_FN_CTL_FUNCTION.off v;
     let f := w % 256;
     p < 32 ∧ s.holds 0 Pg.part p ∧ f ≠ 0 ∧ bitOf w 8 = true ∧ bitOf w 9 = false ∧ s.partState p ≠ 2) ∧
    (let s := p5;
     let p := 3;
     let v := 265;
     let w := written Pg.part PART_FN_CTL_FUNCTION.off v;
     let f := w % 256;
     p < 32 ∧
       s.holds 0 Pg.part p ∧
         f ≠ 0 ∧
           bitOf w 8 = true ∧
             bitOf w 9 = false ∧ s.partState p = 2 ∧ (Tab.get none s.attach f).isSome = true) ∧
    (let s := tWork;
     let p := 3;
     let v := 265;
     let w := written Pg.part PART_FN_CTL_FUNCTION.off v;
     let f := w % 256;
     p < 32 ∧
       s.holds 0 Pg.part p ∧
         f ≠ 0 ∧
           bitOf w 8 = true ∧
             bitOf w 9 = false ∧ s.partState p = 2 ∧ Tab.get none s.attach f = none) ∧
    (let s := tWork;
     let p := 3;
     let v := 521;
     let w := written Pg.part PART_FN_CTL_FUNCTION.off v;
     let f := w % 256;
     p < 32 ∧
       s.holds 0 Pg.part p ∧
         f ≠ 0 ∧ bitOf w 8 = false ∧ bitOf w 9 = true ∧ Tab.get none s.attach f ≠ some p) ∧
    (let s := p5;
     let p := 3;
     let v := 521;
     let w := written Pg.part PART_FN_CTL_FUNCTION.off v;
     let f := w % 256;
     p < 32 ∧
       s.holds 0 Pg.part p ∧
         f ≠ 0 ∧
           bitOf w 8 = false ∧
             bitOf w 9 = true ∧
               Tab.get none s.attach f = some p ∧
                 s.handlesOf f = [] ∧ (∀ e < 512, Tab.get 0 s.evqFn e ≠ f) ∧ Tab.get 0 s.sec.tdi f = 0) := by
  refine ⟨?_, ?_, ?_, ?_, ?_, ?_, ?_⟩
  · first | decide +kernel | (simp only [State.holds, State.sameBytes]; decide +kernel)
  · first | decide +kernel | (simp only [State.holds, State.sameBytes]; decide +kernel)
  · first | decide +kernel | (simp only [State.holds, State.sameBytes]; decide +kernel)
  · first | decide +kernel | (simp only [State.holds, State.sameBytes]; decide +kernel)
  · first | decide +kernel | (simp only [State.holds, State.sameBytes]; decide +kernel)
  · first | decide +kernel | (simp only [State.holds, State.sameBytes]; decide +kernel)
  · first | decide +kernel | (simp only [State.holds, State.sameBytes]; decide +kernel)

/-- Concrete inputs that meet the hypotheses of `Obligations.HandleMapping`, clause by clause. -/
theorem witness_HandleMapping :
    (let s := ms 2 0 8;
     let p := 3;
     let v := 65552;
     let pg := partPg p;
     let w := written Pg.part PART_MAP_DATA v;
     let f := s.get pg PART_MAP_SEL_FUNCTION;
     p < 32 ∧ s.holds 0 Pg.part p ∧ bitOf w 16 = true ∧ Tab.get none s.attach f ≠ some p) ∧
    (let s : State := mp1;
     let p : ℕ := 3;
     let v : Word := 65552;
     let pg : ℕ := partPg p;
     let w : ℕ := written Pg.part PART_MAP_DATA v;
     let f : ℕ := s.get pg PART_MAP_SEL_FUNCTION;
     let kind : ℕ := s.get pg PART_MAP_SEL_KIND;
     let h : ℕ := s.get pg PART_MAP_SEL_HANDLE;
     let n : ℕ := w % 65536;
     p < 32 ∧
       s.holds 0 Pg.part p ∧
         bitOf w 16 = true ∧
           f ≠ 0 ∧
             Tab.get none s.attach f = some p ∧ s.tdiLocked f = false ∧ kind ≤ 2 ∧ s.mapOf f kind h = some n) ∧
    (let s := ms 0 0 9;
     let p := 3;
     let v := 65600;
     let pg := partPg p;
     let w := written Pg.part PART_MAP_DATA v;
     let f := s.get pg PART_MAP_SEL_FUNCTION;
     let kind := s.get pg PART_MAP_SEL_KIND;
     let h := s.get pg PART_MAP_SEL_HANDLE;
     let n := w % 65536;
     p < 32 ∧
       s.holds 0 Pg.part p ∧
         bitOf w 16 = true ∧
           f ≠ 0 ∧
             Tab.get none s.attach f = some p ∧
               s.tdiLocked f = false ∧
                 kind ≤ 2 ∧ s.mapOf f kind h ≠ some n ∧ (768 ≤ h ∧ kind = 0 ∨ 32 ≤ h ∧ kind = 2 ∨ s.targetIn p kind n = false)) ∧
    (let s := ms2;
     let p := 3;
     let v := 65545;
     let pg := partPg p;
     let w := written Pg.part PART_MAP_DATA v;
     let f := s.get pg PART_MAP_SEL_FUNCTION;
     let kind := s.get pg PART_MAP_SEL_KIND;
     let h := s.get pg PART_MAP_SEL_HANDLE;
     let n := w % 65536;
     let tgt := targetPage kind n;
     p < 32 ∧
       s.holds 0 Pg.part p ∧
         bitOf w 16 = true ∧
           f ≠ 0 ∧
             Tab.get none s.attach f = some p ∧
               s.tdiLocked f = false ∧
                 kind ≤ 2 ∧
                   s.mapOf f kind h ≠ some n ∧
                     h < handleCount kind ∧ s.targetIn p kind n = true ∧ s.ownerOf tgt ≠ 0 ∧ s.ownerOf tgt ≠ f) ∧
    (let s := ms 0 0 9;
     let p := 3;
     let v := 65552;
     let pg := partPg p;
     let w := written Pg.part PART_MAP_DATA v;
     let f := s.get pg PART_MAP_SEL_FUNCTION;
     let kind := s.get pg PART_MAP_SEL_KIND;
     let h := s.get pg PART_MAP_SEL_HANDLE;
     let n := w % 65536;
     let tgt := targetPage kind n;
     p < 32 ∧
       s.holds 0 Pg.part p ∧
         bitOf w 16 = true ∧
           f ≠ 0 ∧
             Tab.get none s.attach f = some p ∧
               s.tdiLocked f = false ∧
                 kind ≤ 2 ∧
                   s.mapOf f kind h ≠ some n ∧
                     h < handleCount kind ∧
                       s.targetIn p kind n = true ∧ (s.ownerOf tgt = 0 ∨ s.ownerOf tgt = f) ∧ s.mapOf f kind h = none) := by
  refine ⟨?_, ?_, ?_, ?_, ?_⟩
  · first | decide +kernel | (simp only [State.holds, State.sameBytes]; decide +kernel)
  · first | decide +kernel | (simp only [State.holds, State.sameBytes]; decide +kernel)
  · first | decide +kernel | (simp only [State.holds, State.sameBytes]; decide +kernel)
  · first | decide +kernel | (simp only [State.holds, State.sameBytes]; decide +kernel)
  · first | decide +kernel | (simp only [State.holds, State.sameBytes]; decide +kernel)

end Sys2Proof.Tests.C30

namespace Sys2Proof.Tests.C40

open Sys2Proof.Machine

def rbS (r : Rebind) (s : State := tWork) : State := { (s.puts [(partPg 3 + PART_REBIND_CTL_STEP.off, 0x100)]).set (partPg 3) PART_REBIND_CTL_BUSY 1 with rebind := [(3, r)] }
def w5 : State := tWork.puts [(partPg 5 + PART_STAT_STATE.off, 2), (partPg 5 + PART_SLICES, 0x100)]
def k1 : State := rbS { op := 1, step := 1, slices := 0x3F }
def k2 : State := rbS { op := 1, step := 1, slices := 0x10F } w5
def k3 : State := rbS { op := 1, step := 1, slices := 0x3 }
def k4 : State := rbS { op := 1, step := 1, slices := 0 }
def k5 : State := rbS { op := 2, step := 1, chans := 0x14 }
def k6 : State := { k5 with capt := [(2 * 1024 + 2, 2)] }
def k7 : State := rbS { op := 3, step := 1, chans := 0x100 }
def k8 : State := rbS { op := 3, step := 1, chans := 1 }

/-- Concrete inputs that meet the hypotheses of `Obligations.RebindSlicesAndChannels`, clause by clause. -/
theorem witness_RebindSlicesAndChannels :
    (let s : State := k2;
     let p : ℕ := 3;
     let pg : ℕ := partPg p;
     let rb : Rebind := s.atRebind p;
     let old : ℕ := s.rd (pg + PART_SLICES);
     let more : List ℕ := bitsMinus rb.slices old;
     let less : List ℕ := bitsMinus old rb.slices;
     let busy : Bool := more.any fun (n : ℕ) => s.capState 1 n != 1 || (s.sliceOwner n).isSome;
     p < 32 ∧ rb.op = 1 ∧ rb.step = 1 ∧ less = [] ∧ busy = true) ∧
    (let s : State := k1;
     let p : ℕ := 3;
     let pg : ℕ := partPg p;
     let rb : Rebind := s.atRebind p;
     let old : ℕ := s.rd (pg + PART_SLICES);
     let more : List ℕ := bitsMinus rb.slices old;
     let less : List ℕ := bitsMinus old rb.slices;
     let busy : Bool := more.any fun (n : ℕ) => s.capState 1 n != 1 || (s.sliceOwner n).isSome;
     p < 32 ∧ rb.op = 1 ∧ rb.step = 1 ∧ less = [] ∧ busy = false ∧ s.runningOf p = []) ∧
    (let s : State := k4;
     let p : ℕ := 3;
     let pg : ℕ := partPg p;
     let rb : Rebind := s.atRebind p;
     let old : ℕ := s.rd (pg + PART_SLICES);
     let more : List ℕ := bitsMinus rb.slices old;
     let less : List ℕ := bitsMinus old rb.slices;
     let rt : ℕ := s.rd (pg + PART_RT_MASK);
     p < 32 ∧
       rb.op = 1 ∧
         rb.step = 1 ∧
           less ≠ [] ∧
             more = [] ∧ (rb.slices = 0 ∨ (less.any fun (n : ℕ) => bitOf rt n) = true ∨ bitsMinus rb.slices rt = [])) ∧
    (let s : State := k3;
     let p : ℕ := 3;
     let pg : ℕ := partPg p;
     let rb : Rebind := s.atRebind p;
     let old : ℕ := s.rd (pg + PART_SLICES);
     let more : List ℕ := bitsMinus rb.slices old;
     let less : List ℕ := bitsMinus old rb.slices;
     let rt : ℕ := s.rd (pg + PART_RT_MASK);
     p < 32 ∧
       rb.op = 1 ∧
         rb.step = 1 ∧
           less ≠ [] ∧
             more = [] ∧
               rb.slices ≠ 0 ∧
                 (less.any fun (n : ℕ) => bitOf rt n) = false ∧ bitsMinus rb.slices rt ≠ [] ∧ s.leaversOf p less = []) ∧
    (let s : State := k6;
     let p : ℕ := 3;
     let rb : Rebind := s.atRebind p;
     p < 32 ∧ rb.op = 2 ∧ ((onesBelow 256 rb.chans).any fun (c : ℕ) => s.capState 2 c != 1) = true) ∧
    (let s : State := k5;
     let p : ℕ := 3;
     let rb : Rebind := s.atRebind p;
     p < 32 ∧ rb.op = 2 ∧ ((onesBelow 256 rb.chans).any fun (c : ℕ) => s.capState 2 c != 1) = false) ∧
    (let s : State := k7;
     let p : ℕ := 3;
     let rb : Rebind := s.atRebind p;
     let hit : List ℕ :=
       List.filter (fun (r : ℕ) => s.regValid r && s.regPart r == p && (s.regChans r).any fun (c : ℕ) => bitOf rb.chans c) (List.range 64);
     p < 32 ∧ rb.op = 3 ∧ rb.sub = 0 ∧ hit = []) ∧
    (let s : State := k8;
     let p : ℕ := 3;
     let rb : Rebind := s.atRebind p;
     let hit : List ℕ :=
       List.filter (fun (r : ℕ) => s.regValid r && s.regPart r == p && (s.regChans r).any fun (c : ℕ) => bitOf rb.chans c) (List.range 64);
     p < 32 ∧ rb.op = 3 ∧ rb.sub = 0 ∧ (1 < hit.length ∨ hit.length = 1 ∧ rb.move = false)) ∧
    (let s : State := k1;
     let p : ℕ := 3;
     let pg : ℕ := partPg p;
     let rb : Rebind := s.atRebind p;
     let v : Word := 16;
     p < 32 ∧
       s.holds 0 Pg.part p ∧
         bitOf (BitVec.toNat v) 4 = true ∧
           bitOf (BitVec.toNat v) 3 = false ∧
             bitOf (BitVec.toNat v) 6 = false ∧ rb.op = 1 ∧ rb.step = 1 ∧ s.on pg PART_REBIND_CTL_BUSY = true) ∧
    (let p : ℕ := 3;
     let n : ℕ := 0;
     p < 32 ∧ n < 256) := by
  refine ⟨?_, ?_, ?_, ?_, ?_, ?_, ?_, ?_, ?_, ?_⟩
  · first | decide +kernel | (simp only [State.holds, State.sameBytes]; decide +kernel)
  · first | decide +kernel | (simp only [State.holds, State.sameBytes]; decide +kernel)
  · first | decide +kernel | (simp only [State.holds, State.sameBytes]; decide +kernel)
  · first | decide +kernel | (simp only [State.holds, State.sameBytes]; decide +kernel)
  · first | decide +kernel | (simp only [State.holds, State.sameBytes]; decide +kernel)
  · first | decide +kernel | (simp only [State.holds, State.sameBytes]; decide +kernel)
  · first | decide +kernel | (simp only [State.holds, State.sameBytes]; decide +kernel)
  · first | decide +kernel | (simp only [State.holds, State.sameBytes]; decide +kernel)
  · first | decide +kernel | (simp only [State.holds, State.sameBytes]; decide +kernel)
  · first | decide +kernel | (simp only [State.holds, State.sameBytes]; decide +kernel)

end Sys2Proof.Tests.C40

namespace Sys2Proof.Tests.C40b

open Sys2Proof.Machine

def rbS (r : Rebind) (s : State := tWork) : State := { (s.puts [(partPg 3 + PART_REBIND_CTL_STEP.off, 0x100)]).set (partPg 3) PART_REBIND_CTL_BUSY 1 with rebind := [(3, r)] }
/-- region 4: one channel (set 1 = channel 0), 2 MiB at DPA 2^31, starting 300; region 5 the same at 400 -/
def reg (s : State) : State := s.puts [(mapPg + GLB_SET + 32, 1), (mapPg + 0x440, 7 + 64), (mapPg + 0x444, 0x400), (mapPg + 0x448, 300), (mapPg + 0x44C, 1),
  (mapPg + 0x450, 7 + 64), (mapPg + 0x454, 0x401), (mapPg + 0x458, 400), (mapPg + 0x45C, 1)]
def y1 : State := rbS { op := 4, src := 4, dst := 5 } (reg tWork)
def y2 : State := rbS { op := 4, src := 4, dst := 6 } (reg tWork)
def y3 : State := rbS { op := 4, src := 4, dst := 5, sub := 3, pass := 1, log := (List.range 65).map (fun i => 2 ^ 20 + i) } (reg tWork)
def y4 : State := rbS { op := 4, src := 4, dst := 5, sub := 4, pass := 8, log := [0x400] } (reg tWork)
def segd : State := (reg tWork).puts [(segAt 8 1 + CTX_SEG_0, 0x39), (segAt 8 1 + CTX_SEG_2, 0x80000000), (segAt 8 1 + CTX_SEG_4, 0x1000)]
def y6 : State := { rbS { op := 4, src := 4, dst := 5, sub := 5, pass := 2, log := [] } segd with segPend := [(65, ⟨[0x39,0,0x80200000,0,0x1000,0], false, true⟩)] }
def y7 : State := { y6 with cmds := [(16, [{ q := 16, seq := 0, desc := [], ctx := 8, part := 3, ranges := [{ seg := 1 }] }])] }

/-- Concrete inputs that meet the hypotheses of `Obligations.RebalanceOfARegion`, clause by clause. -/
theorem witness_RebalanceOfARegion :
    (let s : State := y2;
     let p : ℕ := 3;
     let rb : Rebind := s.atRebind p;
     let r : ℕ := s.rebalRule p rb.src rb.dst 0;
     p < 32 ∧ (s.atRebind p).op = 4 ∧ rb.sub = 0 ∧ r ≠ 0) ∧
    (let s : State := y1;
     let p : ℕ := 3;
     let rb : Rebind := { op := 4, src := 4, dst := 5 };
     let r : ℕ := s.rebalRule p rb.src rb.dst 0;
     p < 32 ∧ s.atRebind p = rb ∧ rb.op = 4 ∧ rb.sub = 0 ∧ r = 0) ∧
    (let s : State := y3;
     let p : ℕ := 3;
     let rb : Rebind := s.atRebind p;
     p < 32 ∧ (s.atRebind p).op = 4 ∧ (rb.sub = 3 ∨ rb.sub = 4) ∧ 64 < rb.log.length ∧ rb.pass < 8) ∧
    (let s : State := y4;
     let p : ℕ := 3;
     let rb : Rebind := s.atRebind p;
     let segs : List (ℕ × ℕ) := s.coverSegs p rb.src;
     p < 32 ∧ (s.atRebind p).op = 4 ∧ (rb.sub = 3 ∨ rb.sub = 4) ∧ (rb.log.length ≤ 64 ∨ 8 ≤ rb.pass) ∧ ∀ e ∈ segs, (s.atSegPend (e.1 * 8 + e.2)).words = []) ∧
    (let s : State := y7;
     let p : ℕ := 3;
     let rb : Rebind := s.atRebind p;
     let segs : List (ℕ × ℕ) := s.coverSegs p rb.src;
     p < 32 ∧ (s.atRebind p).op = 4 ∧ rb.sub = 5 ∧ ∃ e ∈ segs, s.segHold e.1 e.2 ≠ 0) ∧
    (let s : State := y6;
     let p : ℕ := 3;
     let rb : Rebind := s.atRebind p;
     let segs : List (ℕ × ℕ) := s.coverSegs p rb.src;
     p < 32 ∧ (s.atRebind p).op = 4 ∧ rb.sub = 5 ∧ (∀ e ∈ segs, s.segHold e.1 e.2 = 0) ∧ rb.log = []) := by
  refine ⟨?_, ?_, ?_, ?_, ?_, ?_⟩
  · first | decide +kernel | (simp only [State.holds, State.sameBytes]; decide +kernel)
  · have e : y1.regionInUse 5 = false := regionInUse_none (by decide +kernel) (by decide +kernel) (by decide +kernel) rfl
    have f : y1.rebalRule 3 4 5 0 = 0 := by
      unfold State.rebalRule
      rw [e]
      decide +kernel
    exact ⟨by decide, by decide +kernel, rfl, rfl, f⟩
  · first | decide +kernel | (simp only [State.holds, State.sameBytes]; decide +kernel)
  · first | decide +kernel | (simp only [State.holds, State.sameBytes]; decide +kernel)
  · first | decide +kernel | (simp only [State.holds, State.sameBytes]; decide +kernel)
  · first | decide +kernel | (simp only [State.holds, State.sameBytes]; decide +kernel)

end Sys2Proof.Tests.C40b

namespace Sys2Proof.Tests.C40c

open Sys2Proof.Machine

def rbS (r : Rebind) (s : State) : State := { (s.puts [(partPg 3 + PART_REBIND_CTL_STEP.off, 0x100)]).set (partPg 3) PART_REBIND_CTL_BUSY 1 with rebind := [(3, r)] }
def free5 : State := tLink.puts [(lnkPg 5 + LNK_STAT_STATE.off, 3), (partPg 3 + PART_PORTS, 0)]
def b1 : State := rbS { op := 5, step := 1, ports := 0x20, span := 0x77, slot := 1 } free5
def b2 : State := rbS { op := 5, step := 1, ports := 0x20, span := 0, slot := 1 } free5
def b3 : State := rbS { op := 5, step := 1, ports := 0x30, span := 0x77, slot := 1 } free5
def b4 : State := rbS { op := 5, step := 1, ports := 0x20, span := 0x77, slot := 1 } tLink
def b5 : State := rbS { op := 5, step := 3, ports := 0x20, span := 0x77, slot := 1 } free5
def b6 : State := rbS { op := 6, step := 1, ports := 0x20, span := 0x77, slot := 1 } tLink
def b7 : State := rbS { op := 6, step := 1, ports := 0x10, span := 0x77, slot := 1 } tLink
def b8 : State := rbS { op := 6, step := 1, ports := 0x20, span := 0x77, slot := 1 } (tLink.puts [(spanAt 3 1 + 0x100, 0)])
def dr (s : State) : State := { s with links := [(5, { keyed := true, draining := true })] }
def b9 : State := dr (rbS { op := 6, step := 2, ports := 0x20, span := 0x77, slot := 1 } (tLink.puts [(spanAt 3 1 + 0x100, 0)]))
def idle (s : State) : State := s.puts [(spanAt 3 1 + 0x100, 0)]
def j1 : State := idle tLink
def j2 : State := idle (tLink.puts [(partPg 3 + PART_STAT_STATE.off, 1)])
def j3 : State := idle (tLink.puts [(spanAt 3 1 + PART_SPAN_ID, 0)])
def j4 : State := { j1 with routes := [] }
def j5 : State := tLink.puts [(spanAt 3 1 + 0x100, 4)]
def j6 : State := tLink.puts [(spanAt 3 1 + 0x100, 12)]

/-- Concrete inputs that meet the hypotheses of `Obligations.PortsOfASpanSlot`, clause by clause. -/
theorem witness_PortsOfASpanSlot :
    (let s := b2;
     let p := 3;
     let rb := s.atRebind p;
     p < 32 ∧ rb.op = 5 ∧ rb.step = 1 ∧ rb.span = 0) ∧
    (let s := b3;
     let p := 3;
     let rb := s.atRebind p;
     p < 32 ∧ rb.op = 5 ∧ rb.step = 1 ∧ rb.span ≠ 0 ∧ onePort rb.ports = none) ∧
    (let s := b4;
     let p := 3;
     let rb := s.atRebind p;
     let n := 5;
     p < 32 ∧
       rb.op = 5 ∧
         rb.step = 1 ∧
           rb.span ≠ 0 ∧
             onePort rb.ports = some n ∧
               (s.capState 3 n ≠ 1 ∨ s.portUp n = false ∨ s.on (lnkPg n) LNK_STAT_BOUND = true)) ∧
    (let s := b1;
     let p := 3;
     let rb := s.atRebind p;
     let n := 5;
     p < 32 ∧
       rb.op = 5 ∧
         rb.step = 1 ∧
           rb.span ≠ 0 ∧
             onePort rb.ports = some n ∧
               s.capState 3 n = 1 ∧ s.portUp n = true ∧ s.on (lnkPg n) LNK_STAT_BOUND = false) ∧
    (let s := b5;
     let p := 3;
     let rb := s.atRebind p;
     let n := 5;
     p < 32 ∧ rb.op = 5 ∧ rb.step = 3 ∧ onePort rb.ports = some n) ∧
    (let s := b6;
     let p := 3;
     let rb := s.atRebind p;
     let mine := s.partPorts p;
     let l := List.filter (fun (n : ℕ) => bitOf rb.ports n) mine;
     let slotOf := fun (n : ℕ) => s.get (lnkPg n) LNK_STAT_SPAN_SLOT;
     let last := ∃ n ∈ l, s.get (spanAt p (slotOf n)) PART_SPAN_0_STATE = 2 ∧ ∀ k ∈ mine, slotOf k = slotOf n → k ∈ l;
     p < 32 ∧ rb.op = 6 ∧ rb.step = 1 ∧ last) ∧
    (let s := b7;
     let p := 3;
     let rb := s.atRebind p;
     let mine := s.partPorts p;
     let l := List.filter (fun (n : ℕ) => bitOf rb.ports n) mine;
     let slotOf := fun (n : ℕ) => s.get (lnkPg n) LNK_STAT_SPAN_SLOT;
     let last := ∃ n ∈ l, s.get (spanAt p (slotOf n)) PART_SPAN_0_STATE = 2 ∧ ∀ k ∈ mine, slotOf k = slotOf n → k ∈ l;
     p < 32 ∧ rb.op = 6 ∧ rb.step = 1 ∧ ¬last ∧ l = []) ∧
    (let s := b8;
     let p := 3;
     let rb := s.atRebind p;
     let mine := s.partPorts p;
     let l := List.filter (fun (n : ℕ) => bitOf rb.ports n) mine;
     let slotOf := fun (n : ℕ) => s.get (lnkPg n) LNK_STAT_SPAN_SLOT;
     let last := ∃ n ∈ l, s.get (spanAt p (slotOf n)) PART_SPAN_0_STATE = 2 ∧ ∀ k ∈ mine, slotOf k = slotOf n → k ∈ l;
     p < 32 ∧ rb.op = 6 ∧ rb.step = 1 ∧ ¬last ∧ l ≠ []) ∧
    (let s := b9;
     let p := 3;
     let n := 5;
     p < 32 ∧
       n < 36 ∧
         (s.atLink n).draining = true ∧
           s.portBusy n = false ∧
             s.get (lnkPg n) LNK_STAT_PARTITION = p ∧
               s.on (lnkPg n) LNK_STAT_BOUND = true) := by
  refine ⟨?_, ?_, ?_, ?_, ?_, ?_, ?_, ?_, ?_⟩
  · first | decide +kernel | (simp only [State.holds, State.sameBytes]; decide +kernel)
  · first | decide +kernel | (simp only [State.holds, State.sameBytes]; decide +kernel)
  · first | decide +kernel | (simp only [State.holds, State.sameBytes]; decide +kernel)
  · first | decide +kernel | (simp only [State.holds, State.sameBytes]; decide +kernel)
  · first | decide +kernel | (simp only [State.holds, State.sameBytes]; decide +kernel)
  · first | decide +kernel | (simp only [State.holds, State.sameBytes]; decide +kernel)
  · first | decide +kernel | (simp only [State.holds, State.sameBytes]; decide +kernel)
  · first | decide +kernel | (simp only [State.holds, State.sameBytes]; decide +kernel)
  · first | decide +kernel | (simp only [State.holds, State.sameBytes]; decide +kernel)

/-- Concrete inputs that meet the hypotheses of `Obligations.SpanSlotJoinAndLeave`, clause by clause. -/
theorem witness_SpanSlotJoinAndLeave :
    (let s := j2;
     let p := 3;
     let l := 1;
     let v := 1;
     let w := written Pg.part (PART_SPAN_0 + 32 * l) v;
     let t := s.set (spanAt p l) PART_SPAN_0_RANK (bitsOf w 15 4);
     p < 32 ∧
       l < 8 ∧
         s.holds 0 Pg.part p ∧
           bitOf w 0 = true ∧ bitOf w 1 = false ∧ s.slotState p l = 0 ∧ t.partState p ≠ 2) ∧
    (let s := j3;
     let p := 3;
     let l := 1;
     let v := 1;
     let w := written Pg.part (PART_SPAN_0 + 32 * l) v;
     let t := s.set (spanAt p l) PART_SPAN_0_RANK (bitsOf w 15 4);
     let span := t.slotSpan p l;
     p < 32 ∧
       l < 8 ∧
         s.holds 0 Pg.part p ∧
           bitOf w 0 = true ∧ bitOf w 1 = false ∧ s.slotState p l = 0 ∧ t.partState p = 2 ∧ span = 0) ∧
    (let s := j1;
     let p := 3;
     let l := 1;
     let v := 17;
     let w := written Pg.part (PART_SPAN_0 + 32 * l) v;
     let t := s.set (spanAt p l) PART_SPAN_0_RANK (bitsOf w 15 4);
     let own := t.slotRank p l;
     let span := t.slotSpan p l;
     let good := own < t.spanM p l ∧ t.spanDev p l own = t.self;
     p < 32 ∧
       l < 8 ∧
         s.holds 0 Pg.part p ∧
           bitOf w 0 = true ∧ bitOf w 1 = false ∧ s.slotState p l = 0 ∧ t.partState p = 2 ∧ span ≠ 0 ∧ ¬good) ∧
    (let s := j4;
     let p := 3;
     let l := 1;
     let v := 1;
     let w := written Pg.part (PART_SPAN_0 + 32 * l) v;
     let t := s.set (spanAt p l) PART_SPAN_0_RANK (bitsOf w 15 4);
     let own := t.slotRank p l;
     let span := t.slotSpan p l;
     let good := own < t.spanM p l ∧ t.spanDev p l own = t.self;
     let routes := ∀ e ∈ t.spanPeers p l, (t.nextHop e.2).isSome = true;
     p < 32 ∧
       l < 8 ∧
         s.holds 0 Pg.part p ∧
           bitOf w 0 = true ∧ bitOf w 1 = false ∧ s.slotState p l = 0 ∧ t.partState p = 2 ∧ span ≠ 0 ∧ good ∧ ¬routes) ∧
    (let s := j1;
     let p := 3;
     let l := 1;
     let v := 1;
     let w := written Pg.part (PART_SPAN_0 + 32 * l) v;
     let t := s.set (spanAt p l) PART_SPAN_0_RANK (bitsOf w 15 4);
     let own := t.slotRank p l;
     let span := t.slotSpan p l;
     let good := own < t.spanM p l ∧ t.spanDev p l own = t.self;
     let routes := ∀ e ∈ t.spanPeers p l, (t.nextHop e.2).isSome = true;
     p < 32 ∧
       l < 8 ∧
         s.holds 0 Pg.part p ∧
           bitOf w 0 = true ∧
             bitOf w 1 = false ∧ s.slotState p l = 0 ∧ t.partState p = 2 ∧ span ≠ 0 ∧ good ∧ routes ∧ ∀ e ∈ s.earlyJoins, e.1 ≠ span) ∧
    (let s := tLink;
     let p := 3;
     let l := 1;
     let v := 2;
     let w := written Pg.part (PART_SPAN_0 + 32 * l) v;
     p < 32 ∧ l < 8 ∧ s.holds 0 Pg.part p ∧ bitOf w 0 = false ∧ bitOf w 1 = true ∧ s.slotState p l = 2) ∧
    (let s := j5;
     let p := 3;
     let l := 1;
     let v := 2;
     let w := written Pg.part (PART_SPAN_0 + 32 * l) v;
     p < 32 ∧ l < 8 ∧ s.holds 0 Pg.part p ∧ bitOf w 0 = false ∧ bitOf w 1 = true ∧ s.slotState p l = 1) ∧
    (let s := j5;
     let p := 3;
     let l := 1;
     p < 32 ∧ l < 8 ∧ s.holds 0 Pg.part p ∧ s.slotState p l = 1) ∧
    (let s := j6;
     let p := 3;
     let l := 1;
     p < 32 ∧ l < 8 ∧ s.holds 0 Pg.part p ∧ s.slotState p l = 3 ∧ s.slotUsed p l = false) ∧
    (let s := j1;
     let p := 3;
     let l := 1;
     let r := 0;
     let d := 0;
     p < 32 ∧ l < 8 ∧ s.holds 0 Pg.part p ∧ r < 256 ∧ d < 4096) := by
  refine ⟨?_, ?_, ?_, ?_, ?_, ?_, ?_, ?_, ?_, ?_⟩
  · first | decide +kernel | (simp only [State.holds, State.sameBytes]; decide +kernel)
  · first | decide +kernel | (simp only [State.holds, State.sameBytes]; decide +kernel)
  · first | decide +kernel | (simp only [State.holds, State.sameBytes]; decide +kernel)
  · first | decide +kernel | (simp only [State.holds, State.sameBytes]; decide +kernel)
  · first | decide +kernel | (simp only [State.holds, State.sameBytes]; decide +kernel)
  · first | decide +kernel | (simp only [State.holds, State.sameBytes]; decide +kernel)
  · first | decide +kernel | (simp only [State.holds, State.sameBytes]; decide +kernel)
  · first | decide +kernel | (simp only [State.holds, State.sameBytes]; decide +kernel)
  · first | decide +kernel | (simp only [State.holds, State.sameBytes]; decide +kernel)
  · first | decide +kernel | (simp only [State.holds, State.sameBytes]; decide +kernel)

end Sys2Proof.Tests.C40c

namespace Sys2Proof.Tests.C45

open Sys2Proof.Machine

def s1 : State := tWork.puts [(partPg 3 + PART_RT_MASK, 1), (quePg 16 + QUE_CTL, 1 + 6 * 2 + 64 + 5 * 2 ^ 16)]
def s2 : State := tWork.puts [(partPg 3 + PART_RL_CTL, 2), (partPg 3 + PART_RL_COUNT, 2)]
def hm (s : State) : State := s.puts [(spltPg + SPLT_MODE_STAT, 2)]
def cc : Cmd := { q := 16, seq := 0, desc := tBytes 128 [(0,1,1)], ctx := 8, part := 3, started := true }
def cw : Cmd := { q := 17, seq := 0, desc := tBytes 128 [(0,1,1)], ctx := 9, part := 3, started := true }
def s4 : State := { tWork with mclk := 5, slices := [(0, { ctx := some 8, cmd := some (16, 0) })], cmds := [(16, [cc])] }
def s5 : State := { (s4.puts [(ctxPg 9 + CTX_STAT, 1 + 3 * 2 ^ 16), (ctxPg 9 + CTX_SAVE_CTL, 1 + 2 ^ 12), (quePg 17 + QUE_CTX, 9), (quePg 17 + QUE_STAT, 1)]) with cmds := [(16, [cc]), (17, [cw])] }
def s6 : State := { hm s4 with parts := [(3, { list := [(8, 0, 15, 200)], group := [0] })] }

/-- Concrete inputs that meet the hypotheses of `Obligations.SchedulerRegistersAndQuanta`, clause by clause. -/
theorem witness_SchedulerRegistersAndQuanta :
    (let s : State := s1;
     let p : ℕ := 3;
     let v : Word := 16;
     let pg : ℕ := partPg p;
     let unbound : Bool := (onesBelow 32 (BitVec.toNat v)).any fun (n : ℕ) => !bitOf (s.rd (pg + PART_SLICES)) n;
     p < 32 ∧ s.holds 0 Pg.part p ∧ unbound = true) ∧
    (let s : State := s1;
     let p : ℕ := 3;
     let v : Word := 0;
     let pg : ℕ := partPg p;
     let unbound : Bool := (onesBelow 32 (BitVec.toNat v)).any fun (n : ℕ) => !bitOf (s.rd (pg + PART_SLICES)) n;
     let rt : Bool := (s.enabledQues p).any fun (q : ℕ) => s.get (quePg q) QUE_CTL_CLASS == 1;
     let old : ℕ := s.rd (pg + PART_RT_MASK);
     p < 32 ∧ s.holds 0 Pg.part p ∧ unbound = false ∧ v = 0 ∧ old ≠ 0 ∧ rt = true) ∧
    (let s : State := s1.puts [(partPg 3 + PART_RT_MASK, 0)];
     let p : ℕ := 3;
     let v : Word := 1;
     let pg : ℕ := partPg p;
     let unbound : Bool := (onesBelow 32 (BitVec.toNat v)).any fun (n : ℕ) => !bitOf (s.rd (pg + PART_SLICES)) n;
     let rt : Bool := (s.enabledQues p).any fun (q : ℕ) => s.get (quePg q) QUE_CTL_CLASS == 1;
     let old : ℕ := s.rd (pg + PART_RT_MASK);
     p < 32 ∧
       s.holds 0 Pg.part p ∧
         unbound = false ∧ ¬(v = 0 ∧ rt = true) ∧ ∀ (n : ℕ), bitOf old n = true → bitOf (BitVec.toNat v) n = true) ∧
    (let s : State := s1;
     let p : ℕ := 3;
     let v : Word := 1;
     let pg : ℕ := partPg p;
     let w : ℕ := written Pg.part PART_RL_CTL v;
     p < 32 ∧
       s.holds 0 Pg.part p ∧
         bitOf w 0 = true ∧ bitOf w 2 = false ∧ s.on pg PART_RL_CTL_SWAP_BUSY = false) ∧
    (let s : State := s2;
     let p : ℕ := 3;
     let v : Word := 1;
     let pg : ℕ := partPg p;
     let w : ℕ := written Pg.part PART_RL_CTL v;
     p < 32 ∧
       s.holds 0 Pg.part p ∧
         bitOf w 0 = true ∧ bitOf w 2 = false ∧ s.on pg PART_RL_CTL_SWAP_BUSY = true) ∧
    (let s : State := s2;
     let p : ℕ := 3;
     let pg : ℕ := partPg p;
     p < 32 ∧ s.on pg PART_RL_CTL_SWAP_BUSY = true) ∧
    (let s : State := s6;
     let p : ℕ := 3;
     let j : ℕ := 0;
     p < 32 ∧ j < 4096 ∧ s.hostMode 1 = true) ∧
    (let s : State := s5;
     let p : ℕ := 3;
     let x : ℕ := 8;
     let rival : Prop := ∃ y ∈ s.partCtxs (s.partOf x), y ≠ x ∧ s.wants y false = true ∧ s.prioOf x ≤ s.prioOf y;
     p < 32 ∧ x < 1024 ∧ s.hostMode 1 = false ∧ (s.held x false).isEmpty = false ∧ (s.atCtx x).tq = none ∧ rival) ∧
    (let s : State := s4;
     let p : ℕ := 3;
     let x : ℕ := 8;
     let rival : Prop := ∃ y ∈ s.partCtxs (s.partOf x), y ≠ x ∧ s.wants y false = true ∧ s.prioOf x ≤ s.prioOf y;
     p < 32 ∧ x < 1024 ∧ s.hostMode 1 = false ∧ (s.held x false).isEmpty = false ∧ (s.atCtx x).tq = none ∧ ¬rival) := by
  refine ⟨?_, ?_, ?_, ?_, ?_, ?_, ?_, ?_, ?_⟩
  · first | decide +kernel | (simp only [State.holds, State.sameBytes]; decide +kernel)
  · first | decide +kernel | (simp only [State.holds, State.sameBytes]; decide +kernel)
  · refine ⟨by decide, by unfold State.holds; decide +kernel, by decide +kernel, by decide +kernel, ?_⟩
    have e : (s1.puts [(partPg 3 + PART_RT_MASK, 0)]).rd (partPg 3 + PART_RT_MASK) = 0 := by decide +kernel
    rw [e]
    intro n h
    simp [bitOf] at h
  · first | decide +kernel | (simp only [State.holds, State.sameBytes]; decide +kernel)
  · first | decide +kernel | (simp only [State.holds, State.sameBytes]; decide +kernel)
  · first | decide +kernel | (simp only [State.holds, State.sameBytes]; decide +kernel)
  · first | decide +kernel | (simp only [State.holds, State.sameBytes]; decide +kernel)
  · first | decide +kernel | (simp only [State.holds, State.sameBytes]; decide +kernel)
  · first | decide +kernel | (simp only [State.holds, State.sameBytes]; decide +kernel)

end Sys2Proof.Tests.C45

namespace Sys2Proof.Tests.C50

open Sys2Proof.Machine

def st (n : Nat) (s : State) : State := s.set (lnkPg 5) LNK_STAT_STATE n
def a0 : State := st 0 tLink
def a1 : State := { st 1 tLink with mclk := 5 }
def a2 : State := { st 2 tLink with mclk := 1000000005, links := [(5, { fails := [5, 1000000004, 900000006] })] }
def a4 : State := st 4 { tLink with links := [(5, { heldAt := some 5 })] }
def a5 : State := { (tLink.set (lnkPg 5) LNK_STAT_BOUND 0).set (lnkPg 5) LNK_STAT_FWD_POOL 0 with routes := [] }
def r0 : State := (tLink.set rtePg RTE_SEL_DEST 10).updRoute 10 (fun r => { r with valid := true, state := 3 })
def r1 : State := tLink.set rtePg RTE_SEL_DEST 9
def r2 : State := tLink.set rtePg RTE_SEL_DEST 7
def q1 : LinkReq := { q := 16, seq := 0, ctx := 8, dst := 7, port := 5, op := 1, slot := 25 }
def h1 : State := { tLink with routes := [(8, { valid := true, state := 1, next := 7, alt := 6, hold := true, held := [(q1, { op := 1, dst := 8, src := 10, aux := 64, span := 0x77 })] }), (9, { valid := true, state := 2, next := 7, alt := 6, hold := true }), (6, {}), (11, { valid := true, state := 1, next := 3, alt := 6, hold := true }), (12, { valid := true, state := 2, next := 6, alt := 7, hold := true })] }
def cm : Cmd := { q := 16, seq := 0, desc := tBytes 128 [(0,1,2),(2,2,0x80)], ctx := 8, part := 3, started := true, issued := true }
def x1 : State := { tLink with reqs := [(4, some q1), (5, some { q1 with dead := true })], cmds := [(16, [cm])] }
def hostMd (s : State) : State := s.set spltPg SPLT_MODE_STAT_EFFECTIVE 32

/-- Concrete inputs that meet the hypotheses of `Obligations.PortTrainingAndLoss`, clause by clause. -/
theorem witness_PortTrainingAndLoss :
    (let s : State := tUp;
     let p : ℕ := 0;
     p < 36 ∧ s.mayTrain p = false) ∧
    (let s : State := a0;
     let p : ℕ := 0;
     p < 36 ∧ s.mayTrain p = true) ∧
    (let s : State := a1;
     let p : ℕ := 5;
     let recent : List ℕ := List.filter (fun (t : ℕ) => Decidable.decide (s.mclk < t + 100000000)) (s.atLink p).fails;
     p < 36 ∧ (s.portState p = 1 ∨ s.portState p = 2) ∧ recent.length < 2) ∧
    (let s : State := a2;
     let p : ℕ := 5;
     let recent : List ℕ := List.filter (fun (t : ℕ) => Decidable.decide (s.mclk < t + 100000000)) (s.atLink p).fails;
     p < 36 ∧ (s.portState p = 1 ∨ s.portState p = 2) ∧ 2 ≤ recent.length) ∧
    (let s : State := a4;
     let p : ℕ := 5;
     p < 36 ∧ s.portState p = 4) ∧
    (let s : State := a4;
     let p : ℕ := 5;
     let v : Word := 17;
     let w : ℕ := written Pg.lnk LNK_CTL v;
     p < 36 ∧
       s.holds 0 Pg.lnk p ∧
         bitOf w 0 = true ∧ bitOf w 4 = true ∧ bitOf w 5 = false ∧ s.portState p = 4) ∧
    (let s : State := tUp;
     let p : ℕ := 0;
     let v : Word := 17;
     let w : ℕ := written Pg.lnk LNK_CTL v;
     p < 36 ∧
       s.holds 0 Pg.lnk p ∧
         bitOf w 0 = true ∧ bitOf w 4 = true ∧ bitOf w 5 = false ∧ s.portState p ≠ 4) ∧
    (let s : State := tUp;
     let p : ℕ := 0;
     let v : Word := 17;
     let w : ℕ := written Pg.lnk LNK_CTL v;
     p < 36 ∧
       s.holds 0 Pg.lnk p ∧
         bitOf w 0 = true ∧ bitOf w 4 = true ∧ bitOf w 5 = false ∧ s.portState p ≠ 3) ∧
    (let s : State := tUp;
     let p : ℕ := 0;
     let pg : ℕ := lnkPg p;
     let v : Word := 0;
     let w : ℕ := written Pg.lnk LNK_CTL v;
     p < 36 ∧
       s.holds 0 Pg.lnk p ∧
         bitOf w 0 = false ∧
           bitOf w 4 = false ∧ bitOf w 5 = false ∧ s.on pg LNK_CTL_ENABLE = true ∧ s.portState p ≠ 3) ∧
    (let s : State := a5;
     let p : ℕ := 5;
     p < 36 ∧ s.portUp p = true) ∧
    (let s : State := a5;
     let p : ℕ := 5;
     p < 36 ∧ s.portUp p = true ∧ s.inTrunk p = false) ∧
    (let p : ℕ := 0;
     p < 36) := by
  refine ⟨?_, ?_, ?_, ?_, ?_, ?_, ?_, ?_, ?_, ?_, ?_, ?_⟩
  · first | decide +kernel | (simp only [State.holds, State.sameBytes]; decide +kernel)
  · first | decide +kernel | (simp only [State.holds, State.sameBytes]; decide +kernel)
  · first | decide +kernel | (simp only [State.holds, State.sameBytes]; decide +kernel)
  · first | decide +kernel | (simp only [State.holds, State.sameBytes]; decide +kernel)
  · first | decide +kernel | (simp only [State.holds, State.sameBytes]; decide +kernel)
  · first | decide +kernel | (simp only [State.holds, State.sameBytes]; decide +kernel)
  · first | decide +kernel | (simp only [State.holds, State.sameBytes]; decide +kernel)
  · first | decide +kernel | (simp only [State.holds, State.sameBytes]; decide +kernel)
  · first | decide +kernel | (simp only [State.holds, State.sameBytes]; decide +kernel)
  · first | decide +kernel | (simp only [State.holds, State.sameBytes]; decide +kernel)
  · first | decide +kernel | (simp only [State.holds, State.sameBytes]; decide +kernel)
  · first | decide +kernel | (simp only [State.holds, State.sameBytes]; decide +kernel)

/-- Concrete inputs that meet the hypotheses of `Obligations.RoutesAndRequests`, clause by clause. -/
theorem witness_RoutesAndRequests :
    (let s : State := r0;
     s.holds 0 Pg.rte 0 ∧ s.on rtePg RTE_SELF_SET = true) ∧
    (let s : State := tUp;
     s.holds 0 Pg.rte 0 ∧ s.on rtePg RTE_SELF_SET = false) ∧
    (let s : State := r0;
     let d : ℕ := s.get rtePg RTE_SEL_DEST;
     let r : Route := s.atRoute d;
     s.holds 0 Pg.rte 0 ∧ r.state = 3) ∧
    (let s : State := hostMd r1;
     let d : ℕ := s.get rtePg RTE_SEL_DEST;
     let r : Route := s.atRoute d;
     s.holds 0 Pg.rte 0 ∧ r.state ≠ 3 ∧ s.hostMode 5 = true) ∧
    (let s : State := r2;
     let v : Word := 0;
     let d : ℕ := s.get rtePg RTE_SEL_DEST;
     let r : Route := s.atRoute d;
     let w : ℕ := BitVec.toNat v;
     s.holds 0 Pg.rte 0 ∧ r.state ≠ 3 ∧ s.hostMode 5 = false ∧ r.valid = true ∧ bitOf w 0 = false) ∧
    (let s : State := tUp;
     let v : Word := 0;
     let d : ℕ := s.get rtePg RTE_SEL_DEST;
     let r : Route := s.atRoute d;
     let w : ℕ := BitVec.toNat v;
     s.holds 0 Pg.rte 0 ∧ r.state ≠ 3 ∧ s.hostMode 5 = false ∧ (bitOf w 0 = true ∨ r.valid = false)) ∧
    (let s : State := h1;
     let d : ℕ := 9;
     let r : Route := s.atRoute d;
     let here : ℕ := if r.state = 2 then r.alt else r.next;
     let other : ℕ := if r.state = 2 then r.next else r.alt;
     d < 4096 ∧ (s.atRoute d).hold = true ∧ s.toward d = false ∧ s.reaches other = true ∧ other ≠ here) ∧
    (let s : State := h1;
     let d : ℕ := 8;
     let r : Route := s.atRoute d;
     let here : ℕ := if r.state = 2 then r.alt else r.next;
     let other : ℕ := if r.state = 2 then r.next else r.alt;
     d < 4096 ∧
       (s.atRoute d).hold = true ∧ s.toward d = false ∧ (s.reaches other = false ∨ other = here) ∧ s.reaches here = true ∧ r.state ≠ 0) ∧
    (let s : State := h1;
     let d : ℕ := 11;
     let r : Route := s.atRoute d;
     let here : ℕ := if r.state = 2 then r.alt else r.next;
     let other : ℕ := if r.state = 2 then r.next else r.alt;
     d < 4096 ∧
       (s.atRoute d).hold = true ∧
         s.toward d = false ∧ (s.reaches other = false ∨ other = here) ∧ (s.reaches here = false ∨ r.state = 0)) ∧
    (let s : State := x1;
     let tag : ℕ := 5;
     let r : LinkReq :=
       { q1 with dead := true };
     tag < 65536 ∧ Tab.get none s.reqs tag = some r ∧ r.dead = true) ∧
    (let s : State := x1;
     let tag : ℕ := 4;
     let r : LinkReq := q1;
     tag < 65536 ∧ Tab.get none s.reqs tag = some r ∧ r.dead = false) ∧
    (let s : State := tUp;
     s.holds 0 Pg.rgl1 0) := by
  refine ⟨?_, ?_, ?_, ?_, ?_, ?_, ?_, ?_, ?_, ?_, ?_, ?_⟩
  · first | decide +kernel | (simp only [State.holds, State.sameBytes]; decide +kernel)
  · first | decide +kernel | (simp only [State.holds, State.sameBytes]; decide +kernel)
  · first | decide +kernel | (simp only [State.holds, State.sameBytes]; decide +kernel)
  · first | decide +kernel | (simp only [State.holds, State.sameBytes]; decide +kernel)
  · first | decide +kernel | (simp only [State.holds, State.sameBytes]; decide +kernel)
  · first | decide +kernel | (simp only [State.holds, State.sameBytes]; decide +kernel)
  · first | decide +kernel | (simp only [State.holds, State.sameBytes]; decide +kernel)
  · first | decide +kernel | (simp only [State.holds, State.sameBytes]; decide +kernel)
  · first | decide +kernel | (simp only [State.holds, State.sameBytes]; decide +kernel)
  · first | decide +kernel | (simp only [State.holds, State.sameBytes]; decide +kernel)
  · first | decide +kernel | (simp only [State.holds, State.sameBytes]; decide +kernel)
  · first | decide +kernel | (simp only [State.holds, State.sameBytes]; decide +kernel)

end Sys2Proof.Tests.C50

namespace Sys2Proof.Tests.C50b

open Sys2Proof.Machine

def ex : State := tLink.puts [(spanAt 3 1 + PART_SPAN_EXPORT, 1)]
def ex2 : State := ex.set (spanAt 3 1) PART_SPAN_0_STATE 2
def t0 : Txn := { op := 1, dst := 10, src := 7, tag := 9, span := 0x77, age := 3, addr := 0x40, aux := 256, attr := 7 }
def tR : Txn := { t0 with addr := 0x100, aux := 256 }
def tAge : Txn := { t0 with age := 1001 }
def tFar : Txn := { t0 with dst := 9 }
def tW : Txn := { t0 with op := 2, addr := 0x33, aux := 5, payload := [1,2,3,4,5,6] }
def tSpc : Txn := { t0 with op := 5, addr := 0x80, aux := 1, payload := leBytes 2 0 ++ leBytes 1 1 ++ leBytes 1 0 ++ [] }
def uu (n : Nat) (s : State) (t : Txn) : State := s.updLink 5 (fun x => x.owe { t with op := n, cls := 0 })
def rdv (t : Txn) : State × (NapRes ⊕ Bytes) := (uu 1 ex2 t).devRead t.key (t.addr % 2^39) t.aux
def rdB (t : Txn) : Bytes := match rdv t with
  | (_, .inr b) => b
  | _ => []

/-- Concrete inputs that meet the hypotheses of `Obligations.MemoryTransactionsArrive`, clause by clause. -/
theorem witness_MemoryTransactionsArrive :
    (let s : State := tLink;
     let p : ℕ := 5;
     let t : Txn := tAge;
     let rows : List (Instr × ℕ) :=
       [(Instr.rd p t, 1), (Instr.wr p t, 2), (Instr.atom p t, 3), (Instr.reduce p t, 4),
         (Instr.reduceSpc p t, 5)];
     let e : Instr × ℕ := (Instr.rd p t, 1);
     p < 36 ∧ txnOk t = true ∧ knownOp t.op = true ∧ s.portUp p = true ∧ e ∈ rows ∧ 1000 < t.age) ∧
    (let s : State := tLink;
     let p : ℕ := 5;
     let t : Txn := tFar;
     let rows : List (Instr × ℕ) :=
       [(Instr.rd p t, 1), (Instr.wr p t, 2), (Instr.atom p t, 3), (Instr.reduce p t, 4),
         (Instr.reduceSpc p t, 5)];
     let e : Instr × ℕ := (Instr.rd p t, 1);
     p < 36 ∧
       txnOk t = true ∧
         knownOp t.op = true ∧ s.portUp p = true ∧ e ∈ rows ∧ t.age ≤ 1000 ∧ t.dst ≠ s.self) ∧
    (let s : State := tLink;
     let p : ℕ := 5;
     let t : Txn := { t0 with addr := 0x7000000000 };
     let rows : List (Instr × ℕ) :=
       [(Instr.rd p t, 1), (Instr.wr p t, 2), (Instr.atom p t, 3), (Instr.reduce p t, 4),
         (Instr.reduceSpc p t, 5)];
     let e : Instr × ℕ := (Instr.rd p t, 1);
     p < 36 ∧
       txnOk t = true ∧
         knownOp t.op = true ∧
           s.portUp p = true ∧ e ∈ rows ∧ t.age ≤ 1000 ∧ t.dst = s.self ∧ ∀ (n : ℕ) (b : Bool), s.ingressCheck t n b = none) ∧
    (let s : State := ex2;
     let p : ℕ := 5;
     let t : Txn := tR;
     let at_ : ℕ → Txn := fun (n : ℕ) =>
       { op := n, level := t.level, dst := t.dst, src := t.src, tag := t.tag, span := t.span, age := t.age, addr := t.addr, key := t.key, attr := t.attr,
         queue := t.queue, aux := t.aux, status := t.status, payload := t.payload };
     let u : ℕ → State := fun (n : ℕ) => s.updLink p fun (x : LinkSt) => x.owe (at_ n);
     let dpa : ℕ := t.addr % 2 ^ 39;
     let part : ℕ := 3;
     let v : State := (rdv tR).1;
     let d : Bytes := rdB tR;
     p < 36 ∧
       txnOk t = true ∧
         knownOp t.op = true ∧
           s.portUp p = true ∧
             t.age ≤ 1000 ∧
               t.dst = s.self ∧
                 rdSized dpa t.aux = true ∧
                   256 ≤ t.aux ∧
                     s.ingressCheck t t.aux false = some part ∧
                       (s.place dpa).isSome = true ∧ (u 1).devRead t.key dpa t.aux = (v, Sum.inr d)) ∧
    (let s : State := ex2;
     let p : ℕ := 5;
     let t : Txn := tW;
     let at_ : ℕ → Txn := fun (n : ℕ) =>
       { op := n, level := t.level, dst := t.dst, src := t.src, tag := t.tag, span := t.span, age := t.age, addr := t.addr, key := t.key, attr := t.attr,
         queue := t.queue, aux := t.aux, status := t.status, payload := t.payload };
     let u : ℕ → State := fun (n : ℕ) => s.updLink p fun (x : LinkSt) => x.owe (at_ n);
     let dpa : ℕ := t.addr % 2 ^ 39;
     let part : ℕ := 3;
     let v : State := ((uu 2 ex2 tW).devWrite 0 3 51 (List.take 5 tW.payload)).1;
     p < 36 ∧
       txnOk t = true ∧
         knownOp t.op = true ∧
           s.portUp p = true ∧
             t.age ≤ 1000 ∧
               t.dst = s.self ∧
                 1 ≤ t.aux ∧
                   t.aux ≤ 4096 ∧
                     t.aux ≤ List.length t.payload ∧
                       s.ingressCheck t t.aux false = some part ∧
                         (u 2).devWrite t.key part dpa (List.take t.aux t.payload) = (v, NapRes.done)) ∧
    (let s : State := ex2;
     let p : ℕ := 5;
     let t : Txn := t0;
     let at_ : ℕ → Txn := fun (n : ℕ) =>
       { op := n, level := t.level, dst := t.dst, src := t.src, tag := t.tag, span := t.span, age := t.age, addr := t.addr, key := t.key, attr := t.attr,
         queue := t.queue, aux := t.aux, status := t.status, payload := t.payload };
     let u : ℕ → State := fun (n : ℕ) => s.updLink p fun (x : LinkSt) => x.owe (at_ n);
     let dpa : ℕ := t.addr % 2 ^ 39;
     let w : ℕ := wBytes (bitsOf t.aux 11 9);
     let n : ℕ := bitsOf t.aux 21 12;
     let part : ℕ := 3;
     let v : State := (rdv tR).1;
     p < 36 ∧
       txnOk t = true ∧
         knownOp t.op = true ∧
           s.portUp p = true ∧
             t.age ≤ 1000 ∧
               t.dst = s.self ∧
                 bitsOf t.aux 11 9 ≤ 5 ∧
                   n * w ≤ 4096 ∧
                     n * w ≤ List.length t.payload ∧
                       dpa % 64 = 0 ∧
                         s.ingressCheck t (64 * n) true = some part ∧
                           (u 4).addAll t.key part dpa (List.map (fun (i : ℕ) => (i, reduceElem (at_ 4) w i)) (List.range n)) =
                             (v, NapRes.done)) ∧
    (let s : State := ex2;
     let p : ℕ := 5;
     let t : Txn := tSpc;
     let at_ : ℕ → Txn := fun (n : ℕ) =>
       { op := n, level := t.level, dst := t.dst, src := t.src, tag := t.tag, span := t.span, age := t.age, addr := t.addr, key := t.key, attr := t.attr,
         queue := t.queue, aux := t.aux, status := t.status, payload := t.payload };
     let u : ℕ → State := fun (n : ℕ) => s.updLink p fun (x : LinkSt) => x.owe (at_ n);
     let dpa : ℕ := t.addr % 2 ^ 39;
     let es : List (ℕ × LongAcc) :=
       List.map (fun (i : ℕ) => (leAt t.payload (4 * i) 2, { spec := BitVec.ofNat 2 (leAt t.payload (4 * i + 2) 1) }))
         (List.range t.aux);
     let top : ℕ := List.foldl Max.max 0 (List.map (fun (e : ℕ × LongAcc) => e.1 + 1) es);
     let part : ℕ := 3;
     let v : State :=
       ((uu 5 ex2 tSpc).addAll 0 3 128
           (List.map (fun (i : ℕ) => (leAt tSpc.payload (4 * i) 2, { spec := BitVec.ofNat 2 (leAt tSpc.payload (4 * i + 2) 1) }))
             (List.range 1))).1;
     p < 36 ∧
       txnOk t = true ∧
         knownOp t.op = true ∧
           s.portUp p = true ∧
             t.age ≤ 1000 ∧
               t.dst = s.self ∧
                 4 * t.aux ≤ List.length t.payload ∧
                   dpa % 64 = 0 ∧
                     s.ingressCheck t (64 * top) true = some part ∧ (u 5).addAll t.key part dpa es = (v, NapRes.done)) := by
  refine ⟨?_, ?_, ?_, ?_, ?_, ?_, ?_⟩
  · first | decide +kernel | (simp only [State.holds, State.sameBytes]; decide +kernel)
  · first | decide +kernel | (simp only [State.holds, State.sameBytes]; decide +kernel)
  · refine ⟨by decide, by decide +kernel, by decide +kernel, by decide +kernel, List.mem_cons_self .., by decide +kernel, by decide +kernel, ?_⟩
    intro n b
    have e : tLink.regionOf (0x7000000000 % 2 ^ 39) = none := by decide +kernel
    unfold State.ingressCheck
    simp only [t0, e]
  · first | decide +kernel | (simp only [State.holds, State.sameBytes]; decide +kernel)
  · first | decide +kernel | (simp only [State.holds, State.sameBytes]; decide +kernel)
  · first | decide +kernel | (simp only [State.holds, State.sameBytes]; decide +kernel)
  · first | decide +kernel | (simp only [State.holds, State.sameBytes]; decide +kernel)

end Sys2Proof.Tests.C50b

namespace Sys2Proof.Tests.C50c

open Sys2Proof.Machine

def ex2 : State := (tLink.puts [(spanAt 3 1 + PART_SPAN_EXPORT, 1)]).set (spanAt 3 1) PART_SPAN_0_STATE 2
def fen : State := ((((ex2.set (fenAt 64) FEN_CTL_ENABLE 1).set (fenAt 64) FEN_CTL_REMOTE 1).set (fenAt 64) FEN_SRC_REMOTE_DEV 7).set (fenAt 64) FEN_CTL_QUEUE 16).set (fenAt 64) FEN_SRC_SPAN_SLOT 1
def tF (v b : Nat) : Txn := { op := 6, dst := 10, src := 7, tag := 9, span := 0x77, age := 3, addr := 64, queue := 16, payload := leBytes 8 v ++ leBytes 1 b ++ leBytes 1 6 ++ leBytes 6 0 }
def f1 : Txn := tF 5 0
def f2 : Txn := tF 5 1
def q1 : LinkReq := { q := 16, seq := 0, ctx := 8, dst := 7, port := 5, op := 1, slot := 25, take := 4 }
def q2 : LinkReq := { q1 with op := 2 }
def q3 : LinkReq := { q1 with dead := true }
def cm : Cmd := { q := 16, seq := 0, desc := tBytes 128 [(0,1,1),(2,2,0x80),(0x22,1,1)], ctx := 8, part := 3, started := true, issued := true, buf := [0,0,0,0,0,0], spanNo := 4 }
def rq : State := { ex2 with reqs := [(4, some q1), (5, some q2), (6, some q3)], cmds := [(16, [cm])] }
def rs (tag st : Nat) : Txn := { op := 7, dst := 10, src := 7, tag := tag, status := st, payload := [1,2,3,4] }
def bar (no br rk : Nat) : Txn := { op := 0x10, dst := 10, src := 7, span := 0x77, addr := no + br * 2^32 + rk * 2^48, aux := 3 }
def b1 : Txn := bar 4 0 1
def st (n : Nat) : State := rq.set (spanAt 3 1) PART_SPAN_0_STATE n
def sj (rk : Nat) (pl : Bytes) : Txn := { op := 0x11, dst := 10, src := 7, span := 0x77, addr := rk, payload := pl }
def dg : Bytes := ex2.spanDigest 3 1
def m1 : Txn := sj 1 dg
def m2 : Txn := sj 0 dg
def m5 : Txn := { m1 with aux := 0x20 }
def m6 : Txn := { m1 with addr := 4, payload := leBytes 48 0 ++ leBytes 2 2 }
def jn : State := st 1

/-- Concrete inputs that meet the hypotheses of `Obligations.FenceSignalsResponsesBarriers`, clause by clause. -/
theorem witness_FenceSignalsResponsesBarriers :
    (let s : State := ex2;
     let p : ℕ := 5;
     let t : Txn := f1;
     let f : ℕ := t.addr % 65536;
     let v : ℕ := leAt t.payload 0 8;
     p < 36 ∧
       txnOk t = true ∧
         knownOp t.op = true ∧ s.portUp p = true ∧ t.age ≤ 1000 ∧ t.dst = s.self ∧ s.fenceTakes t f v = false) ∧
    (let s : State := fen;
     let p : ℕ := 5;
     let t : Txn := f1;
     let f : ℕ := t.addr % 65536;
     let v : ℕ := leAt t.payload 0 8;
     p < 36 ∧
       txnOk t = true ∧
         knownOp t.op = true ∧
           s.portUp p = true ∧
             t.age ≤ 1000 ∧ t.dst = s.self ∧ s.fenceTakes t f v = true ∧ bitOf (leAt t.payload 8 1) 0 = false) ∧
    (let s : State := fen;
     let p : ℕ := 5;
     let t : Txn := f2;
     let f : ℕ := t.addr % 65536;
     let v : ℕ := leAt t.payload 0 8;
     p < 36 ∧
       txnOk t = true ∧
         knownOp t.op = true ∧
           s.portUp p = true ∧
             t.age ≤ 1000 ∧ t.dst = s.self ∧ s.fenceTakes t f v = true ∧ bitOf (leAt t.payload 8 1) 0 = true) ∧
    (let s : State := ex2;
     let p : ℕ := 5;
     let t : Txn := f1;
     p < 36 ∧
       txnOk t = true ∧
         knownOp t.op = true ∧
           s.portUp p = true ∧ t.age ≤ 1000 ∧ t.dst = s.self ∧ Tab.get none s.reqs t.tag = none) ∧
    (let s : State := rq;
     let p : ℕ := 5;
     let t : Txn := rs 6 0;
     let r : LinkReq := q3;
     p < 36 ∧
       txnOk t = true ∧
         knownOp t.op = true ∧
           s.portUp p = true ∧ t.age ≤ 1000 ∧ t.dst = s.self ∧ Tab.get none s.reqs t.tag = some r ∧ r.dead = true) ∧
    (let s : State := rq;
     let p : ℕ := 5;
     let t : Txn := rs 4 0;
     let r : LinkReq := q1;
     p < 36 ∧
       txnOk t = true ∧
         knownOp t.op = true ∧
           s.portUp p = true ∧
             t.age ≤ 1000 ∧
               t.dst = s.self ∧ Tab.get none s.reqs t.tag = some r ∧ r.dead = false ∧ t.status = 0 ∧ r.op = 1) ∧
    (let s : State := rq;
     let p : ℕ := 5;
     let t : Txn := rs 5 0;
     let r : LinkReq := q2;
     p < 36 ∧
       txnOk t = true ∧
         knownOp t.op = true ∧
           s.portUp p = true ∧
             t.age ≤ 1000 ∧
               t.dst = s.self ∧ Tab.get none s.reqs t.tag = some r ∧ r.dead = false ∧ t.status = 0 ∧ r.op ≠ 1) ∧
    (let s : State := rq;
     let p : ℕ := 5;
     let t : Txn := rs 5 3;
     let r : LinkReq := q2;
     p < 36 ∧
       txnOk t = true ∧
         knownOp t.op = true ∧
           s.portUp p = true ∧
             t.age ≤ 1000 ∧ t.dst = s.self ∧ Tab.get none s.reqs t.tag = some r ∧ r.dead = false ∧ t.status ≠ 0) ∧
    (let s : State := ex2;
     let p : ℕ := 5;
     let t : Txn := rs 4 0;
     p < 36 ∧
       txnOk t = true ∧
         knownOp t.op = true ∧ s.portUp p = true ∧ t.age ≤ 1000 ∧ t.dst = s.self ∧ s.slotWith t.span [1, 2, 3] = none) ∧
    (let s : State := ex2;
     let p : ℕ := 5;
     let t : Txn := f1;
     let no : ℕ := t.addr % 2 ^ 32;
     let e : ℕ × ℕ := (3, 1);
     let b : Tok :=
       { slot := e.1 * 8 + e.2, cmd := no, bar := bitsOf t.addr 47 32, rank := bitsOf t.addr 59 48, acc := t.aux };
     let bad : Prop :=
       s.spanM e.1 e.2 ≤ b.rank ∨ s.spanDev e.1 e.2 b.rank ≠ t.src ∨ ∃ k ∈ s.toks, k.slot = b.slot ∧ k.cmd = no ∧ k.bar = b.bar ∧ k.rank = b.rank;
     p < 36 ∧
       txnOk t = true ∧
         knownOp t.op = true ∧
           s.portUp p = true ∧ t.age ≤ 1000 ∧ t.dst = s.self ∧ s.slotWith t.span [1, 2, 3] = some e ∧ bad) ∧
    (let s : State := ex2;
     let p : ℕ := 5;
     let t : Txn := b1;
     let no : ℕ := t.addr % 2 ^ 32;
     let e : ℕ × ℕ := (3, 1);
     let b : Tok :=
       { slot := e.1 * 8 + e.2, cmd := no, bar := bitsOf t.addr 47 32, rank := bitsOf t.addr 59 48, acc := t.aux };
     let bad : Prop :=
       s.spanM e.1 e.2 ≤ b.rank ∨ s.spanDev e.1 e.2 b.rank ≠ t.src ∨ ∃ k ∈ s.toks, k.slot = b.slot ∧ k.cmd = no ∧ k.bar = b.bar ∧ k.rank = b.rank;
     p < 36 ∧
       txnOk t = true ∧
         knownOp t.op = true ∧
           s.portUp p = true ∧ t.age ≤ 1000 ∧ t.dst = s.self ∧ s.slotWith t.span [1, 2, 3] = some e ∧ ¬bad ∧ s.spanCmd e.1 e.2 no = none) ∧
    (let s : State := rq;
     let p : ℕ := 5;
     let t : Txn := b1;
     let no : ℕ := t.addr % 2 ^ 32;
     let e : ℕ × ℕ := (3, 1);
     let b : Tok :=
       { slot := e.1 * 8 + e.2, cmd := no, bar := bitsOf t.addr 47 32, rank := bitsOf t.addr 59 48, acc := t.aux };
     let bad : Prop :=
       s.spanM e.1 e.2 ≤ b.rank ∨ s.spanDev e.1 e.2 b.rank ≠ t.src ∨ ∃ k ∈ s.toks, k.slot = b.slot ∧ k.cmd = no ∧ k.bar = b.bar ∧ k.rank = b.rank;
     let c : Cmd := cm;
     p < 36 ∧
       txnOk t = true ∧
         knownOp t.op = true ∧
           s.portUp p = true ∧
             t.age ≤ 1000 ∧ t.dst = s.self ∧ s.slotWith t.span [1, 2, 3] = some e ∧ ¬bad ∧ s.spanCmd e.1 e.2 no = some c) := by
  refine ⟨?_, ?_, ?_, ?_, ?_, ?_, ?_, ?_, ?_, ?_, ?_, ?_⟩
  · first | decide +kernel | (simp only [State.holds, State.sameBytes]; decide +kernel)
  · first | decide +kernel | (simp only [State.holds, State.sameBytes]; decide +kernel)
  · first | decide +kernel | (simp only [State.holds, State.sameBytes]; decide +kernel)
  · first | decide +kernel | (simp only [State.holds, State.sameBytes]; decide +kernel)
  · first | decide +kernel | (simp only [State.holds, State.sameBytes]; decide +kernel)
  · first | decide +kernel | (simp only [State.holds, State.sameBytes]; decide +kernel)
  · first | decide +kernel | (simp only [State.holds, State.sameBytes]; decide +kernel)
  · first | decide +kernel | (simp only [State.holds, State.sameBytes]; decide +kernel)
  · first | decide +kernel | (simp only [State.holds, State.sameBytes]; decide +kernel)
  · first | decide +kernel | (simp only [State.holds, State.sameBytes]; decide +kernel)
  · first | decide +kernel | (simp only [State.holds, State.sameBytes]; decide +kernel)
  · first | decide +kernel | (simp only [State.holds, State.sameBytes]; decide +kernel)

/-- Concrete inputs that meet the hypotheses of `Obligations.SpanMessagesArrive`, clause by clause. -/
theorem witness_SpanMessagesArrive :
    (let s : State := st 0;
     let p : ℕ := 5;
     let t : Txn := m1;
     p < 36 ∧
       txnOk t = true ∧
         knownOp t.op = true ∧ s.portUp p = true ∧ t.dst = s.self ∧ s.slotWith t.span [1, 2] = none) ∧
    (let s : State := ex2;
     let p : ℕ := 5;
     let t : Txn := m2;
     let rank : ℕ := t.addr % 4096;
     let e : ℕ × ℕ := (3, 1);
     let r : ℕ :=
       if sliceBytes t.payload 0 48 ≠ s.spanDigest e.1 e.2 then 32
       else if s.spanM e.1 e.2 ≤ rank ∨ s.spanDev e.1 e.2 rank ≠ t.src then 33 else 0;
     p < 36 ∧
       txnOk t = true ∧
         knownOp t.op = true ∧ s.portUp p = true ∧ t.dst = s.self ∧ s.slotWith t.span [1, 2] = some e ∧ r ≠ 0) ∧
    (let s : State := ex2;
     let p : ℕ := 5;
     let t : Txn := m1;
     let rank : ℕ := t.addr % 4096;
     let e : ℕ × ℕ := (3, 1);
     let r : ℕ :=
       if sliceBytes t.payload 0 48 ≠ s.spanDigest e.1 e.2 then 32
       else if s.spanM e.1 e.2 ≤ rank ∨ s.spanDev e.1 e.2 rank ≠ t.src then 33 else 0;
     p < 36 ∧
       txnOk t = true ∧
         knownOp t.op = true ∧ s.portUp p = true ∧ t.dst = s.self ∧ s.slotWith t.span [1, 2] = some e ∧ r = 0) ∧
    (let s : State := jn;
     let p : ℕ := 5;
     let t : Txn := m5;
     let e : ℕ × ℕ := (3, 1);
     p < 36 ∧
       txnOk t = true ∧
         knownOp t.op = true ∧ s.portUp p = true ∧ t.dst = s.self ∧ s.slotWith t.span [1] = some e ∧ t.aux ≠ 0) ∧
    (let s : State := jn;
     let p : ℕ := 5;
     let t : Txn := m1;
     let rank : ℕ := t.addr % 4096;
     let e : ℕ × ℕ := (3, 1);
     p < 36 ∧
       txnOk t = true ∧
         knownOp t.op = true ∧
           s.portUp p = true ∧
             t.dst = s.self ∧ s.slotWith t.span [1] = some e ∧ t.aux = 0 ∧ rank < s.spanM e.1 e.2 ∧ s.spanDev e.1 e.2 rank = t.src) ∧
    (let s : State := ex2;
     let p : ℕ := 5;
     let t : Txn := m1;
     let rank : ℕ := t.addr % 4096;
     let e : ℕ × ℕ := (3, 1);
     p < 36 ∧
       txnOk t = true ∧
         knownOp t.op = true ∧
           s.portUp p = true ∧ t.dst = s.self ∧ s.slotWith t.span [2, 3] = some e ∧ rank < s.spanM e.1 e.2 ∧ s.spanDev e.1 e.2 rank = t.src) ∧
    (let s : State := ex2;
     let p : ℕ := 5;
     let t : Txn := m1;
     let no : ℕ := t.addr % 2 ^ 32;
     let e : ℕ × ℕ := (3, 1);
     let ahead : Prop := Tab.get 0 s.spanNo (e.1 * 8 + e.2) ≤ no;
     p < 36 ∧
       txnOk t = true ∧
         knownOp t.op = true ∧
           s.portUp p = true ∧ t.dst = s.self ∧ s.slotWith t.span [1, 2, 3] = some e ∧ s.spanCmd e.1 e.2 no = none ∧ ahead) ∧
    (let s : State := jn;
     let p : ℕ := 5;
     let t : Txn := m6;
     let no : ℕ := t.addr % 2 ^ 32;
     let e : ℕ × ℕ := (3, 1);
     let c : Cmd := cm;
     p < 36 ∧
       txnOk t = true ∧
         knownOp t.op = true ∧
           s.portUp p = true ∧
             t.dst = s.self ∧
               s.slotWith t.span [1, 2, 3] = some e ∧ s.spanCmd e.1 e.2 no = some c ∧ c.work = false ∧ c.issued = true) ∧
    (let s : State :=
       { rq with cmds := [(16, [{ cm with work := true, code := 9 }])] };
     let p : ℕ := 5;
     let t : Txn := m6;
     let no : ℕ := t.addr % 2 ^ 32;
     let e : ℕ × ℕ := (3, 1);
     let c : Cmd :=
       { cm with work := true, code := 9 };
     p < 36 ∧
       txnOk t = true ∧
         knownOp t.op = true ∧
           s.portUp p = true ∧
             t.dst = s.self ∧ s.slotWith t.span [1, 2, 3] = some e ∧ s.spanCmd e.1 e.2 no = some c ∧ c.work = true) ∧
    (let s : State := st 0;
     let p : ℕ := 5;
     let t : Txn := m1;
     p < 36 ∧
       txnOk t = true ∧
         knownOp t.op = true ∧ s.portUp p = true ∧ t.dst = s.self ∧ s.slotWith t.span [1, 2, 3] = none) := by
  refine ⟨?_, ?_, ?_, ?_, ?_, ?_, ?_, ?_, ?_, ?_⟩
  · first | decide +kernel | (simp only [State.holds, State.sameBytes]; decide +kernel)
  · first | decide +kernel | (simp only [State.holds, State.sameBytes]; decide +kernel)
  · first | decide +kernel | (simp only [State.holds, State.sameBytes]; decide +kernel)
  · first | decide +kernel | (simp only [State.holds, State.sameBytes]; decide +kernel)
  · first | decide +kernel | (simp only [State.holds, State.sameBytes]; decide +kernel)
  · first | decide +kernel | (simp only [State.holds, State.sameBytes]; decide +kernel)
  · first | decide +kernel | (simp only [State.holds, State.sameBytes]; decide +kernel)
  · first | decide +kernel | (simp only [State.holds, State.sameBytes]; decide +kernel)
  · first | decide +kernel | (simp only [State.holds, State.sameBytes]; decide +kernel)
  · first | decide +kernel | (simp only [State.holds, State.sameBytes]; decide +kernel)

end Sys2Proof.Tests.C50c

namespace Sys2Proof.Tests.C50d

open Sys2Proof.Machine

def st (n : Nat) : State := tLink.set (lnkPg 5) LNK_STAT_STATE n
def hb : State := tLink.puts [(lnkPg 5 + LNK_INCARN, 77)]
def t0 : Txn := { op := 0x20, dst := 10, src := 7, span := 0x77, payload := leBytes 4 77 ++ leBytes 4 9 ++ leBytes 8 0 }
def t1 : Txn := { t0 with aux := 1 }
def t3 : Txn := { t0 with span := 0 }
def t4 : Txn := { t0 with src := 10 }
def ub : State := tLink.set (lnkPg 5) LNK_STAT_BOUND 0
def rt : State := tLink.setRetired 3 5 2
def asked : State := { tLink with links := [(5, { bindBy := [3], keyed := true })] }
def bind (s : State) : State := { s with links := [(5, { bindBy := [3], keyed := true })], rebind := [(3, { op := 5, step := 3, ports := 32, slot := 1, span := 0x77 })] }
def low : State := (bind ub).set rtePg RTE_SELF_DEVICE 3
def k1 : State := { st 2 with links := [(5, {})] }
def sy : State := { tLink with trunks := [(tLink.trunkKey 5, { sync := true, tx := 4 })], links := [(5, { keyed := true, replay := [] })] }
def adv : Txn := { t0 with op := 0x2B, aux := 1, payload := leBytes 2 (9 + 3 * 4096) }
def syn : Txn := { t0 with op := 0x2A, aux := 2 }
def hostMd (s : State) : State := s.set spltPg SPLT_MODE_STAT_EFFECTIVE 32
def bd : Bytes := List.replicate 256 0
def b0 : Block := { type := 0, body := bd }
def sealB (b : Block) : Block := { b with crc := crc24 0xB704CE (b.body ++ leBytes 5 (blockCtl b)) }
def g0 : Block := sealB b0
def g3 : Block := { b0 with fecErrs := [9] }
def x1 (n g : Nat) : State := { tLink with mclk := 500000, links := [(5, { keyed := true, slots := n, groupLen := g, lostAt := some 5, sinceIdle := 3 })] }
def full : State := { tLink with links := [(5, { keyed := true, replay := (List.range 1024).map (fun i => ⟨i, 1, false, none, false⟩), slots := 3 })] }
def nk : State := { tLink with links := [(5, { keyed := true, nakWait := true })] }
def lone : State := tLink.set (lnkPg 5) LNK_STAT_BOUND 0

/-- Concrete inputs that meet the hypotheses of `Obligations.PortMessagesArrive`, clause by clause. -/
theorem witness_PortMessagesArrive :
    (let s : State := hb;
     let p : ℕ := 5;
     let t : Txn := t0;
     p < 36 ∧ txnOk t = true ∧ knownOp t.op = true ∧ s.portUp p = true) ∧
    (let s : State := hb;
     let p : ℕ := 5;
     let t : Txn := t0;
     let pg : ℕ := lnkPg p;
     p < 36 ∧
       txnOk t = true ∧
         knownOp t.op = true ∧
           s.portUp p = true ∧ s.rd (pg + LNK_INCARN) = leAt t.payload 0 4 ∧ s.inTrunk p = true) ∧
    (let s : State := hb;
     let p : ℕ := 5;
     let t : Txn := t1;
     p < 36 ∧ txnOk t = true ∧ knownOp t.op = true ∧ s.portUp p = true ∧ (t.aux = 1 ∨ t.aux = 2)) ∧
    (let s : State := rt;
     let p : ℕ := 5;
     let t : Txn := t0;
     p < 36 ∧ txnOk t = true ∧ knownOp t.op = true ∧ s.portUp p = true ∧ s.capState 3 p = 2) ∧
    (let s : State := bind ub;
     let p : ℕ := 5;
     let t : Txn := t0;
     p < 36 ∧
       txnOk t = true ∧
         knownOp t.op = true ∧ s.portUp p = true ∧ s.capState 3 p ≠ 2 ∧ t.span ≠ 0 ∧ s.boundSpan p t.span = true) ∧
    (let s : State := hb;
     let p : ℕ := 5;
     let t : Txn := t0;
     let pg : ℕ := lnkPg p;
     p < 36 ∧
       txnOk t = true ∧
         knownOp t.op = true ∧
           s.portUp p = true ∧
             s.capState 3 p ≠ 2 ∧ ¬(s.boundSpan p t.span = true ∧ t.span ≠ 0) ∧ s.on pg LNK_STAT_BOUND = true) ∧
    (let s : State := ub;
     let p : ℕ := 5;
     let t : Txn := t0;
     let pg : ℕ := lnkPg p;
     let x : LinkSt := s.atLink p;
     p < 36 ∧
       txnOk t = true ∧
         knownOp t.op = true ∧
           s.portUp p = true ∧
             s.capState 3 p ≠ 2 ∧ ¬(s.boundSpan p t.span = true ∧ t.span ≠ 0) ∧ s.on pg LNK_STAT_BOUND = false ∧ x.bindBy = []) ∧
    (let s : State := low;
     let p : ℕ := 5;
     let t : Txn := t3;
     let pg : ℕ := lnkPg p;
     let x : LinkSt := s.atLink p;
     p < 36 ∧
       txnOk t = true ∧
         knownOp t.op = true ∧
           s.portUp p = true ∧
             s.capState 3 p ≠ 2 ∧
               ¬(s.boundSpan p t.span = true ∧ t.span ≠ 0) ∧
                 s.on pg LNK_STAT_BOUND = false ∧ x.bindBy ≠ [] ∧ s.self < s.portDev p) ∧
    (let s : State := bind ub;
     let p : ℕ := 5;
     let t : Txn := t3;
     let pg : ℕ := lnkPg p;
     let x : LinkSt := s.atLink p;
     p < 36 ∧
       txnOk t = true ∧
         knownOp t.op = true ∧
           s.portUp p = true ∧
             s.capState 3 p ≠ 2 ∧
               ¬(s.boundSpan p t.span = true ∧ t.span ≠ 0) ∧
                 s.on pg LNK_STAT_BOUND = false ∧ x.bindBy ≠ [] ∧ ¬s.self < s.portDev p) ∧
    (let s : State := hb;
     let p : ℕ := 5;
     let t : Txn := t0;
     p < 36 ∧ txnOk t = true ∧ knownOp t.op = true ∧ s.portUp p = true ∧ s.binding p = none) ∧
    (let s : State := asked;
     let p : ℕ := 5;
     let t : Txn := t0;
     let pg : ℕ := lnkPg p;
     let part : ℕ := 3;
     p < 36 ∧
       txnOk t = true ∧
         knownOp t.op = true ∧
           s.portUp p = true ∧ s.binding p = some part ∧ s.on pg LNK_STAT_BOUND = true) ∧
    (let s : State := bind ub;
     let p : ℕ := 5;
     let t : Txn := t0;
     let pg : ℕ := lnkPg p;
     let part : ℕ := 3;
     p < 36 ∧
       txnOk t = true ∧
         knownOp t.op = true ∧
           s.portUp p = true ∧ s.binding p = some part ∧ s.on pg LNK_STAT_BOUND = false) ∧
    (let s : State := asked;
     let p : ℕ := 5;
     let t : Txn := t0;
     let part : ℕ := 3;
     p < 36 ∧ txnOk t = true ∧ knownOp t.op = true ∧ s.portUp p = true ∧ s.binding p = some part) ∧
    (let s : State := st 1;
     let p : ℕ := 5;
     let t : Txn := t4;
     let u : ℕ → State := fun (n : ℕ) =>
       s.updLink p fun (x : LinkSt) =>
         x.owe
           { op := n, level := t.level, cls := 3, dst := t.dst, src := t.src, tag := t.tag, span := t.span, age := t.age, addr := t.addr, key := t.key,
             attr := t.attr, queue := t.queue, aux := t.aux, status := t.status, payload := t.payload };
     let v : State := (u 33).partnerIs p t.src (leAt t.payload 4 1 % 64) (leAt t.payload 0 4);
     p < 36 ∧
       txnOk t = true ∧
         knownOp t.op = true ∧ s.portState p = 1 ∧ t.aux = 0 ∧ (t.src = v.self ∨ s.sec.entropyBad = true)) ∧
    (let s : State := st 1;
     let p : ℕ := 5;
     let t : Txn := t0;
     let u : ℕ → State := fun (n : ℕ) =>
       s.updLink p fun (x : LinkSt) =>
         x.owe
           { op := n, level := t.level, cls := 3, dst := t.dst, src := t.src, tag := t.tag, span := t.span, age := t.age, addr := t.addr, key := t.key,
             attr := t.attr, queue := t.queue, aux := t.aux, status := t.status, payload := t.payload };
     let v : State := (u 33).partnerIs p t.src (leAt t.payload 4 1 % 64) (leAt t.payload 0 4);
     p < 36 ∧
       txnOk t = true ∧
         knownOp t.op = true ∧ s.portState p = 1 ∧ t.aux = 0 ∧ t.src ≠ v.self ∧ s.sec.entropyBad = false) := by
  refine ⟨?_, ?_, ?_, ?_, ?_, ?_, ?_, ?_, ?_, ?_, ?_, ?_, ?_, ?_, ?_⟩
  · first | decide +kernel | (simp only [State.holds, State.sameBytes]; decide +kernel)
  · first | decide +kernel | (simp only [State.holds, State.sameBytes]; decide +kernel)
  · first | decide +kernel | (simp only [State.holds, State.sameBytes]; decide +kernel)
  · first | decide +kernel | (simp only [State.holds, State.sameBytes]; decide +kernel)
  · first | decide +kernel | (simp only [State.holds, State.sameBytes]; decide +kernel)
  · first | decide +kernel | (simp only [State.holds, State.sameBytes]; decide +kernel)
  · first | decide +kernel | (simp only [State.holds, State.sameBytes]; decide +kernel)
  · first | decide +kernel | (simp only [State.holds, State.sameBytes]; decide +kernel)
  · first | decide +kernel | (simp only [State.holds, State.sameBytes]; decide +kernel)
  · first | decide +kernel | (simp only [State.holds, State.sameBytes]; decide +kernel)
  · first | decide +kernel | (simp only [State.holds, State.sameBytes]; decide +kernel)
  · first | decide +kernel | (simp only [State.holds, State.sameBytes]; decide +kernel)
  · first | decide +kernel | (simp only [State.holds, State.sameBytes]; decide +kernel)
  · first | decide +kernel | (simp only [State.holds, State.sameBytes]; decide +kernel)
  · first | decide +kernel | (simp only [State.holds, State.sameBytes]; decide +kernel)

/-- Concrete inputs that meet the hypotheses of `Obligations.KeyingOfAPort`, clause by clause. -/
theorem witness_KeyingOfAPort :
    (let s : State := k1;
     let p : ℕ := 5;
     let t : Txn := t0;
     let x : LinkSt := s.atLink p;
     p < 36 ∧ txnOk t = true ∧ knownOp t.op = true ∧ s.portState p = 2 ∧ x.keyed = false) ∧
    (let s : State := tLink;
     let p : ℕ := 5;
     let t : Txn := t0;
     p < 36 ∧ txnOk t = true ∧ knownOp t.op = true ∧ s.portUp p = true) ∧
    (let s : State := lone;
     let p : ℕ := 5;
     let t : Txn := syn;
     p < 36 ∧ txnOk t = true ∧ knownOp t.op = true ∧ s.portUp p = true ∧ s.inTrunk p = false) ∧
    (let s : State := tLink;
     let p : ℕ := 5;
     let t : Txn := t0;
     p < 36 ∧
       txnOk t = true ∧
         knownOp t.op = true ∧ s.portUp p = true ∧ s.inTrunk p = true ∧ (s.atTrunk (s.trunkKey p)).sync = false) ∧
    (let s : State := sy;
     let p : ℕ := 5;
     let t : Txn := t0;
     p < 36 ∧
       txnOk t = true ∧
         knownOp t.op = true ∧ s.portUp p = true ∧ s.inTrunk p = true ∧ (s.atTrunk (s.trunkKey p)).sync = true) ∧
    (let s : State := hostMd tLink;
     let p : ℕ := 5;
     let t : Txn := t0;
     p < 36 ∧ txnOk t = true ∧ knownOp t.op = true ∧ s.portUp p = true ∧ s.hostMode 5 = true) ∧
    (let s : State := tLink;
     let p : ℕ := 5;
     let t : Txn := adv;
     p < 36 ∧
       txnOk t = true ∧
         knownOp t.op = true ∧ s.portUp p = true ∧ s.hostMode 5 = false ∧ t.aux = 1 ∧ 2 ≤ List.length t.payload) := by
  refine ⟨?_, ?_, ?_, ?_, ?_, ?_, ?_⟩
  · first | decide +kernel | (simp only [State.holds, State.sameBytes]; decide +kernel)
  · first | decide +kernel | (simp only [State.holds, State.sameBytes]; decide +kernel)
  · first | decide +kernel | (simp only [State.holds, State.sameBytes]; decide +kernel)
  · first | decide +kernel | (simp only [State.holds, State.sameBytes]; decide +kernel)
  · first | decide +kernel | (simp only [State.holds, State.sameBytes]; decide +kernel)
  · first | decide +kernel | (simp only [State.holds, State.sameBytes]; decide +kernel)
  · first | decide +kernel | (simp only [State.holds, State.sameBytes]; decide +kernel)

set_option maxRecDepth 100000 in
/-- Concrete inputs that meet the hypotheses of `Obligations.BlocksOfAPort`, clause by clause. -/
theorem witness_BlocksOfAPort :
    (let s : State := tUp;
     let p : ℕ := 0;
     let silent : Prop := s.portState p = 0 ∨ s.portState p = 4;
     let b : Block := b0;
     p < 36 ∧ silent ∧ blockOk b = true) ∧
    (let s : State := st 1;
     let p : ℕ := 5;
     let pg : ℕ := lnkPg p;
     let silent : Prop := s.portState p = 0 ∨ s.portState p = 4;
     let b : Block := g3;
     p < 36 ∧ ¬silent ∧ blockOk b = true ∧ blockFecOk b (s.on pg LNK_STAT_STRONG) = false) ∧
    (let s : State := st 1;
     let p : ℕ := 5;
     let pg : ℕ := lnkPg p;
     let silent : Prop := s.portState p = 0 ∨ s.portState p = 4;
     let b : Block := b0;
     p < 36 ∧
       ¬silent ∧
         blockOk b = true ∧
           blockFecOk b (s.on pg LNK_STAT_STRONG) = true ∧
             (∀ n ∈ b.fecErrs, n = 0) ∧ (∀ n ∈ b.fecEras, n = 0) ∧ (blockCrcOk b = false ∨ b.type = 3)) ∧
    (let s : State := tLink;
     let p : ℕ := 5;
     let pg : ℕ := lnkPg p;
     let silent : Prop := s.portState p = 0 ∨ s.portState p = 4;
     let b : Block := g0;
     p < 36 ∧
       ¬silent ∧
         blockOk b = true ∧
           blockFecOk b (s.on pg LNK_STAT_STRONG) = true ∧
             (∀ n ∈ b.fecErrs, n = 0) ∧
               (∀ n ∈ b.fecEras, n = 0) ∧
                 blockCrcOk b = true ∧
                   b.type = 0 ∧ b.nak = false ∧ idleHeart b = none ∧ s.portUp p = true) ∧
    (let s : State := st 1;
     let p : ℕ := 5;
     let x : LinkSt := s.atLink p;
     let silent : Prop := s.portState p = 0 ∨ s.portState p = 4;
     let data : Bool := false;
     p < 36 ∧ ¬silent ∧ (data = false ∨ 1023 ≤ x.sinceIdle)) ∧
    (let s : State := full;
     let p : ℕ := 5;
     let x : LinkSt := s.atLink p;
     let silent : Prop := s.portState p = 0 ∨ s.portState p = 4;
     p < 36 ∧ ¬silent ∧ x.sinceIdle < 1023 ∧ 1024 ≤ x.replay.length) ∧
    (let s : State := x1 1 0;
     let p : ℕ := 5;
     let x : LinkSt := s.atLink p;
     let silent : Prop := s.portState p = 0 ∨ s.portState p = 4;
     p < 36 ∧
       ¬silent ∧
         x.sinceIdle < 1023 ∧
           x.replay.length < 1024 ∧ x.keyed = true ∧ (∀ (a : ℕ), x.lostAt = some a → a + 100000 ≤ s.mclk) ∧ x.slots ≠ 0 ∧ x.groups + 1 < 2 ^ 48) ∧
    (let s : State := tLink;
     let p : ℕ := 5;
     let x : LinkSt := s.atLink p;
     p < 36 ∧ s.portUp p = true ∧ x.slots = 0) ∧
    (let s : State := x1 1 0;
     let p : ℕ := 5;
     let x : LinkSt := s.atLink p;
     p < 36 ∧ s.portUp p = true ∧ x.slots ≠ 0) ∧
    (let s : State := nk;
     let p : ℕ := 5;
     let x : LinkSt := s.atLink p;
     p < 36 ∧ x.nakWait = true) ∧
    (let s : State := tLink;
     let p : ℕ := 5;
     let x : LinkSt := s.atLink p;
     let v : Word := 33;
     let w : ℕ := written Pg.lnk LNK_CTL v;
     p < 36 ∧
       s.holds 0 Pg.lnk p ∧
         bitOf w 0 = true ∧ bitOf w 4 = false ∧ bitOf w 5 = true ∧ s.portUp p = true ∧ x.rekey = 0) ∧
    (let s : State := tUp;
     let p : ℕ := 0;
     let x : LinkSt := s.atLink p;
     let v : Word := 33;
     let w : ℕ := written Pg.lnk LNK_CTL v;
     p < 36 ∧
       s.holds 0 Pg.lnk p ∧
         bitOf w 0 = true ∧ bitOf w 4 = false ∧ bitOf w 5 = true ∧ (s.portUp p = false ∨ x.rekey ≠ 0)) := by
  refine ⟨?_, ?_, ?_, ?_, ?_, ?_, ?_, ?_, ?_, ?_, ?_, ?_⟩
  · first | decide +kernel | (simp only [State.holds, State.sameBytes]; decide +kernel)
  · first | decide +kernel | (simp only [State.holds, State.sameBytes]; decide +kernel)
  · first | decide +kernel | (simp only [State.holds, State.sameBytes]; decide +kernel)
  · first | decide +kernel | (simp only [State.holds, State.sameBytes]; decide +kernel)
  · first | decide +kernel | (simp only [State.holds, State.sameBytes]; decide +kernel)
  · first | decide +kernel | (simp only [State.holds, State.sameBytes]; decide +kernel)
  · first | decide +kernel | (simp only [State.holds, State.sameBytes]; decide +kernel)
  · first | decide +kernel | (simp only [State.holds, State.sameBytes]; decide +kernel)
  · first | decide +kernel | (simp only [State.holds, State.sameBytes]; decide +kernel)
  · first | decide +kernel | (simp only [State.holds, State.sameBytes]; decide +kernel)
  · first | decide +kernel | (simp only [State.holds, State.sameBytes]; decide +kernel)
  · first | decide +kernel | (simp only [State.holds, State.sameBytes]; decide +kernel)

end Sys2Proof.Tests.C50d

namespace Sys2Proof.Tests.C60

open Sys2Proof.Machine

def ea : Waiting := ⟨.copier 3, 7, true⟩
def eb : Waiting := ⟨.mover 16, 5, true⟩
def r1 : State := tWork.puts [(rglPg 3 + RGL_MIN_CHAN, 0x050403)]
def l1 : List Waiting := [ea, eb]
def pw (s : State) (mv da : Nat) : State := (s.set pwrPg PWR_INPUT_MV mv).set pwrPg PWR_INPUT_DA da
def p1 : State := { pw tUp 54000 500 with power := { tUp.power with judged := false } }
def p3 : State := { p1 with power := { p1.power with elecOn := true, loRun := 10 } }
def p5 : State := tUp.set pwrPg PWR_STAT_INPUT_LOW 1
def t0 : State := tUp
def t1 : State := { tUp with therm := { tUp.therm with temp := [(3*256+2, some 100), (4*256+1, some 120), (258, some 105), (2*256+3, some 94)] , trips := [(3*256+2, 2), (258, 3)] } }
def t2 : State := (t1.set thmPg (hardBit 3) 1).set thmPg (hardBit 2) 1
def t3 : State := { t1 with towers := [(2, { cool := 8 }), (3, { cool := 9 })] } |>.set (Pg.base .memt 3) MEMT_REFRESH_SENSOR_FAULT 2
def t4 : State := { t1 with therm := { t1.therm with faulty := [5], temp := t1.therm.temp ++ [] } }
def v0 : State := (tUp.set pwrPg PWR_NOW_MEAS 900).set pwrPg PWR_EST_SCALE_K 7
def v1 : State := { v0 with power := { v0.power with divEpochs := 8 } }
def v2 : State := { tUp.set pwrPg PWR_STAT_STRAG_SHIFT 1 with power := { tUp.power with stragQuiet := 24 } }
def v3 : State := { v2 with power := { tUp.power with stragQuiet := 23 } }
def v4 : State := { ((tUp.set pwrPg PWR_STRAG_CTL_EVENTS 2).set pwrPg PWR_STRAG_CTL_ENABLE 1).set pwrPg PWR_STAT_BIND 2 with power := { tUp.power with stragHist := [9, 3] } }

/-- Concrete inputs that meet the hypotheses of `Obligations.RegulatorChoosesOneRequest`, clause by clause. -/
theorem witness_RegulatorChoosesOneRequest :
    (let s : State := r1;
     let r : ℕ := 0;
     let w : List Waiting := [];
     let held : List Elig := s.reglHeld r (s.reglWaiting r w);
     let l : List Elig := List.filter (fun (x : Elig) => x.can) held;
     r < 295 ∧ l = []) ∧
    (let s : State := r1.set rglDev RGL_MODE_STAT_QSHARE 0;
     let r : ℕ := 0;
     let w : List Waiting := l1;
     let held : List Elig := s.reglHeld r (s.reglWaiting r w);
     let l : List Elig := List.filter (fun (x : Elig) => x.can) held;
     r < 295 ∧ l ≠ []) := by
  refine ⟨?_, ?_⟩
  · first | decide +kernel | (simp only [State.holds, State.sameBytes]; decide +kernel)
  · decide +kernel

/-- Concrete inputs that meet the hypotheses of `Obligations.PowerSamplesAndLimiter`, clause by clause. -/
theorem witness_PowerSamplesAndLimiter :
    (let s : State := State.reset;
     let mv : ℕ := 0;
     let deciA : ℕ := 0;
     mv < 65536 ∧ deciA < 65536 ∧ s.running = false) ∧
    (let s : State := tUp;
     let mv : ℕ := 0;
     let deciA : ℕ := 0;
     mv < 65536 ∧ deciA < 65536 ∧ s.running = true) ∧
    (let s : State := tUp;
     let w : ℕ := s.get pwrPg PWR_INPUT_MV * s.get pwrPg PWR_INPUT_DA;
     let due : Prop := s.power.judged = false ∧ (26000000 ≤ w ∨ 10 ≤ s.power.hiRun ∨ s.power.elecOn = true ∧ 20000000 < w);
     ¬due) ∧
    (let s : State := p1;
     let w : ℕ := s.get pwrPg PWR_INPUT_MV * s.get pwrPg PWR_INPUT_DA;
     let due : Prop := s.power.judged = false ∧ (26000000 ≤ w ∨ 10 ≤ s.power.hiRun ∨ s.power.elecOn = true ∧ 20000000 < w);
     due) ∧
    (let s : State := p3;
     s.power.elecOn = true ∧ 10 ≤ s.power.loRun) ∧
    (let s : State := tUp;
     s.power.elecOn = false ∨ s.power.loRun < 10) ∧
    (let s : State := tUp;
     s.running = true ∧ s.on pwrPg PWR_STAT_INPUT_LOW = false) ∧
    (let s : State := p5;
     s.on pwrPg PWR_STAT_INPUT_LOW = true) := by
  refine ⟨?_, ?_, ?_, ?_, ?_, ?_, ?_, ?_⟩
  · first | decide +kernel | (simp only [State.holds, State.sameBytes]; decide +kernel)
  · first | decide +kernel | (simp only [State.holds, State.sameBytes]; decide +kernel)
  · first | decide +kernel | (simp only [State.holds, State.sameBytes]; decide +kernel)
  · first | decide +kernel | (simp only [State.holds, State.sameBytes]; decide +kernel)
  · first | decide +kernel | (simp only [State.holds, State.sameBytes]; decide +kernel)
  · first | decide +kernel | (simp only [State.holds, State.sameBytes]; decide +kernel)
  · first | decide +kernel | (simp only [State.holds, State.sameBytes]; decide +kernel)
  · first | decide +kernel | (simp only [State.holds, State.sameBytes]; decide +kernel)

/-- Concrete inputs that meet the hypotheses of `Obligations.TemperatureSamples`, clause by clause. -/
theorem witness_TemperatureSamples :
    (let s : State := t0;
     let kind : ℕ := 3;
     let i : ℕ := 0;
     let temp : ℤ := -128;
     (kind = 3 ∧ i < 16 ∨ kind = 4 ∧ i < 4) ∧ s.running = true ∧ -128 ≤ temp ∧ temp ≤ 127) ∧
    (let s : State := t1;
     let kind : ℕ := 1;
     let i : ℕ := 2;
     let temp : ℤ := 105;
     s.senses kind i = some temp ∧
       (temp < hardLimit kind ∨ s.on thmPg (hardBit kind) = true)) ∧
    (let s : State := t4;
     let kind : ℕ := 1;
     let i : ℕ := 5;
     let temp : ℤ := 110;
     s.senses kind i = some temp ∧
       hardLimit kind ≤ temp ∧ s.on thmPg (hardBit kind) = false) ∧
    (let s : State := t1;
     let kind : ℕ := 1;
     let i : ℕ := 2;
     i < sensorCount kind ∧ s.therm.tripped = false ∧ 2 ≤ Tab.get 0 s.therm.trips (kind * 256 + i)) ∧
    (let s : State := t2;
     let kind : ℕ := 2;
     1 ≤ kind ∧
       kind ≤ 4 ∧
         s.on thmPg (hardBit kind) = true ∧
           ∀ (i : ℕ) (t : ℤ), i < sensorCount kind → s.senses kind i = some t → t + 5 ≤ hardLimit kind) ∧
    (let s : State := t0;
     let n : ℕ := 0;
     let temps : List ℤ := [20, 20, 20, 20, 20, 20, 20, 20];
     n < 16 ∧ temps.length = 8 ∧ s.running = true) ∧
    (let s : State := t3;
     let n : ℕ := 2;
     let pg : ℕ := Pg.memt.base n;
     n < 16 ∧ 8 ≤ (s.atTower n).cool ∧ s.get pg MEMT_REFRESH_SENSOR_FAULT = 0) ∧
    (let s : State := t0;
     let n : ℕ := 0;
     let pg : ℕ := Pg.memt.base n;
     n < 16 ∧ ((s.atTower n).cool < 8 ∨ s.get pg MEMT_REFRESH_SENSOR_FAULT ≠ 0)) := by
  refine ⟨?_, ?_, ?_, ?_, ?_, ?_, ?_, ?_⟩
  · first | decide +kernel | (simp only [State.holds, State.sameBytes]; decide +kernel)
  · first | decide +kernel | (simp only [State.holds, State.sameBytes]; decide +kernel)
  · first | decide +kernel | (simp only [State.holds, State.sameBytes]; decide +kernel)
  · first | decide +kernel | (simp only [State.holds, State.sameBytes]; decide +kernel)
  · refine ⟨by decide, by decide, by decide +kernel, ?_⟩
    have e : ∀ i < sensorCount 2, ∀ t ∈ t2.senses 2 i, t + 5 ≤ hardLimit 2 := by decide +kernel
    exact fun i t hi ht => e i hi t ht
  · first | decide +kernel | (simp only [State.holds, State.sameBytes]; decide +kernel)
  · first | decide +kernel | (simp only [State.holds, State.sameBytes]; decide +kernel)
  · first | decide +kernel | (simp only [State.holds, State.sameBytes]; decide +kernel)

/-- Concrete inputs that meet the hypotheses of `Obligations.DivergenceStragglersDroopsEpochs`, clause by clause. -/
theorem witness_DivergenceStragglersDroopsEpochs :
    (let s : State := v1;
     8 ≤ s.power.divEpochs ∧ s.power.bad = false ∧ s.on pwrPg PWR_STAT_DIVERGE = false) ∧
    (let s : State := v0;
     s.power.divEpochs < 8 ∨ s.power.bad = true ∨ s.on pwrPg PWR_STAT_DIVERGE = true) ∧
    (let s : State := v2;
     s.on pwrPg PWR_STAT_STRAG_SHIFT = true ∧ 24 ≤ s.power.stragQuiet) ∧
    (let s : State := v3;
     s.on pwrPg PWR_STAT_STRAG_SHIFT = true ∧ s.power.stragQuiet < 24) ∧
    (let s : State := v4;
     s.on pwrPg PWR_STAT_STRAG_SHIFT = false ∧ s.stragglerStarts = true) ∧
    (let s : State := v0;
     s.on pwrPg PWR_STAT_STRAG_SHIFT = false ∧ s.stragglerStarts = false) ∧
    (let s : State := v0;
     let isl : ℕ := 0;
     let band : ℕ := 0;
     isl < 128 ∧ band ≤ 4 ∧ isl ∉ s.halted) ∧
    (let s : State := v0;
     let steps : ℕ := 0;
     steps ≤ 8 ∧ s.ready = true) := by
  refine ⟨?_, ?_, ?_, ?_, ?_, ?_, ?_, ?_⟩
  · first | decide +kernel | (simp only [State.holds, State.sameBytes]; decide +kernel)
  · first | decide +kernel | (simp only [State.holds, State.sameBytes]; decide +kernel)
  · first | decide +kernel | (simp only [State.holds, State.sameBytes]; decide +kernel)
  · first | decide +kernel | (simp only [State.holds, State.sameBytes]; decide +kernel)
  · first | decide +kernel | (simp only [State.holds, State.sameBytes]; decide +kernel)
  · first | decide +kernel | (simp only [State.holds, State.sameBytes]; decide +kernel)
  · first | decide +kernel | (simp only [State.holds, State.sameBytes]; decide +kernel)
  · first | decide +kernel | (simp only [State.holds, State.sameBytes]; decide +kernel)

end Sys2Proof.Tests.C60

namespace Sys2Proof.Tests.C65

open Sys2Proof.Machine

def bind (s : State) : State := s.puts [(partPg 3 + PART_KEYS + 4, 0x300)]
def k0 : State := bind tWork
def st (n : Nat) (s : State) : State := s.set (keyAt 40) KEY_STAT_STATE n
def k1 : State := st 1 k0
def k2 : State := st 2 k0
def k3 : State := k0.puts [(secPg + SEC_KLOCK, 8), (secPg + SEC_PROTECT, 8)]
def a3 : State := (k3.set secPg SEC_KFT_SEL_PARTITION 3).set secPg SEC_KFT_SEL_ROW 5
def i1 : State := { (k3.setIde 0 true) with attach := [(1, some 3)] }
def i2 : State := { i1 with sec := { i1.sec with tdi := [(1, 1)] } }
def kb : Bytes := List.replicate 97 1
def sg : Bytes := List.replicate 96 2
def b0 : State := tUp.set attPg ATT_STAT_BUSY 0
def b1 : State := tUp
def b2 : State := { b0 with sec := { tUp.sec with vendor := true } }
def iAll : State := { (List.range 16).foldl (fun s i => s.setIde i true) k3 with attach := [(1, some 3)] }

/-- Concrete inputs that meet the hypotheses of `Obligations.KeySlotRequests`, clause by clause. -/
theorem witness_KeySlotRequests :
    (let s : State := k0;
     let k : ℕ := 0;
     let v : Word := 1;
     let e : ℕ := keyAt k;
     let w : ℕ := written Pg.key (KEY_CTL + 64 * (k % 32)) v;
     k < 256 ∧
       s.holds 0 Pg.key (k / 32) ∧
         bitsOf w 12 3 = bitsOf (s.rd (e + KEY_CTL)) 12 3 ∧
           bitOf w 0 = true ∧ bitOf w 1 = false ∧ bitOf w 2 = false ∧ k = 0) ∧
    (let s : State := k0;
     let k : ℕ := 50;
     let v : Word := 1;
     let e : ℕ := keyAt k;
     let w : ℕ := written Pg.key (KEY_CTL + 64 * (k % 32)) v;
     k < 256 ∧
       s.holds 0 Pg.key (k / 32) ∧
         bitsOf w 12 3 = bitsOf (s.rd (e + KEY_CTL)) 12 3 ∧
           bitOf w 0 = true ∧ bitOf w 1 = false ∧ bitOf w 2 = false ∧ k ≠ 0 ∧ s.keyPart k = none) ∧
    (let s : State := k1;
     let k : ℕ := 40;
     let v : Word := 1;
     let e : ℕ := keyAt k;
     let w : ℕ := written Pg.key (KEY_CTL + 64 * (k % 32)) v;
     let p : ℕ := 3;
     k < 256 ∧
       s.holds 0 Pg.key (k / 32) ∧
         bitsOf w 12 3 = bitsOf (s.rd (e + KEY_CTL)) 12 3 ∧
           bitOf w 0 = true ∧
             bitOf w 1 = false ∧ bitOf w 2 = false ∧ k ≠ 0 ∧ s.keyPart k = some p ∧ s.keyState k ≠ 0) ∧
    (let s : State := k3;
     let k : ℕ := 40;
     let v : Word := 1;
     let e : ℕ := keyAt k;
     let w : ℕ := written Pg.key (KEY_CTL + 64 * (k % 32)) v;
     let p : ℕ := 3;
     k < 256 ∧
       s.holds 0 Pg.key (k / 32) ∧
         bitsOf w 12 3 = bitsOf (s.rd (e + KEY_CTL)) 12 3 ∧
           bitOf w 0 = true ∧
             bitOf w 1 = false ∧
               bitOf w 2 = false ∧ k ≠ 0 ∧ s.keyPart k = some p ∧ s.keyState k = 0 ∧ s.keyLocked p = true) ∧
    (let s : State := k0;
     let k : ℕ := 40;
     let v : Word := 1;
     let e : ℕ := keyAt k;
     let w : ℕ := written Pg.key (KEY_CTL + 64 * (k % 32)) v;
     let p : ℕ := 3;
     k < 256 ∧
       s.holds 0 Pg.key (k / 32) ∧
         bitsOf w 12 3 = bitsOf (s.rd (e + KEY_CTL)) 12 3 ∧
           bitOf w 0 = true ∧
             bitOf w 1 = false ∧
               bitOf w 2 = false ∧
                 k ≠ 0 ∧ s.keyPart k = some p ∧ s.keyState k = 0 ∧ s.keyLocked p = false ∧ s.sec.entropyBad = false) ∧
    (let s : State := k0;
     let k : ℕ := 0;
     let v : Word := 2;
     let e : ℕ := keyAt k;
     let w : ℕ := written Pg.key (KEY_CTL + 64 * (k % 32)) v;
     k < 256 ∧
       s.holds 0 Pg.key (k / 32) ∧
         bitsOf w 12 3 = bitsOf (s.rd (e + KEY_CTL)) 12 3 ∧
           bitOf w 0 = false ∧ bitOf w 1 = true ∧ k = 0) ∧
    (let s : State := k0;
     let k : ℕ := 40;
     let v : Word := 2;
     let e : ℕ := keyAt k;
     let w : ℕ := written Pg.key (KEY_CTL + 64 * (k % 32)) v;
     k < 256 ∧
       s.holds 0 Pg.key (k / 32) ∧
         bitsOf w 12 3 = bitsOf (s.rd (e + KEY_CTL)) 12 3 ∧
           bitOf w 0 = false ∧ bitOf w 1 = true ∧ k ≠ 0 ∧ s.keyState k = 0) ∧
    (let s : State := k1;
     let k : ℕ := 40;
     let v : Word := 2;
     let e : ℕ := keyAt k;
     let w : ℕ := written Pg.key (KEY_CTL + 64 * (k % 32)) v;
     k < 256 ∧
       s.holds 0 Pg.key (k / 32) ∧
         bitsOf w 12 3 = bitsOf (s.rd (e + KEY_CTL)) 12 3 ∧
           bitOf w 0 = false ∧ bitOf w 1 = true ∧ k ≠ 0 ∧ s.keyState k ≠ 0) ∧
    (let s : State := k2;
     let k : ℕ := 40;
     let v : Word := 4;
     let e : ℕ := keyAt k;
     let w : ℕ := written Pg.key (KEY_CTL + 64 * (k % 32)) v;
     k < 256 ∧
       s.holds 0 Pg.key (k / 32) ∧
         bitsOf w 12 3 = bitsOf (s.rd (e + KEY_CTL)) 12 3 ∧
           bitOf w 0 = false ∧ bitOf w 1 = false ∧ bitOf w 2 = true ∧ s.keyState k = 2) ∧
    (let s : State := k0;
     let k : ℕ := 0;
     let v : Word := 4;
     let e : ℕ := keyAt k;
     let w : ℕ := written Pg.key (KEY_CTL + 64 * (k % 32)) v;
     k < 256 ∧
       s.holds 0 Pg.key (k / 32) ∧
         bitsOf w 12 3 = bitsOf (s.rd (e + KEY_CTL)) 12 3 ∧
           bitOf w 0 = false ∧ bitOf w 1 = false ∧ bitOf w 2 = true ∧ s.keyState k ≠ 2) ∧
    (let s : State := k0;
     let k : ℕ := 40;
     let v : Word := 0;
     let e : ℕ := keyAt k;
     let w : ℕ := written Pg.key (KEY_CTL + 64 * (k % 32)) v;
     let u : State := k2;
     k < 256 ∧
       s.holds 0 Pg.key (k / 32) ∧
         bitsOf w 12 3 = bitsOf (s.rd (e + KEY_CTL)) 12 3 ∧
           k ≠ 0 ∧ u.keyState k = 2 ∧ u.keyHold k = 0 ∧ u.rebalUses k = false) ∧
    (let s : State := k0;
     let k : ℕ := 0;
     let v : Word := 0;
     let e : ℕ := keyAt k;
     let w : ℕ := written Pg.key (KEY_CTL + 64 * (k % 32)) v;
     let u : State := k0;
     k < 256 ∧
       s.holds 0 Pg.key (k / 32) ∧
         bitsOf w 12 3 = bitsOf (s.rd (e + KEY_CTL)) 12 3 ∧
           ¬(u.keyState k = 2 ∧ u.keyHold k = 0 ∧ u.rebalUses k = false)) := by
  refine ⟨?_, ?_, ?_, ?_, ?_, ?_, ?_, ?_, ?_, ?_, ?_, ?_⟩
  · first | decide +kernel | (simp only [State.holds, State.sameBytes]; decide +kernel)
  · first | decide +kernel | (simp only [State.holds, State.sameBytes]; decide +kernel)
  · first | decide +kernel | (simp only [State.holds, State.sameBytes]; decide +kernel)
  · first | decide +kernel | (simp only [State.holds, State.sameBytes]; decide +kernel)
  · first | decide +kernel | (simp only [State.holds, State.sameBytes]; decide +kernel)
  · first | decide +kernel | (simp only [State.holds, State.sameBytes]; decide +kernel)
  · first | decide +kernel | (simp only [State.holds, State.sameBytes]; decide +kernel)
  · first | decide +kernel | (simp only [State.holds, State.sameBytes]; decide +kernel)
  · first | decide +kernel | (simp only [State.holds, State.sameBytes]; decide +kernel)
  · first | decide +kernel | (simp only [State.holds, State.sameBytes]; decide +kernel)
  · first | decide +kernel | (simp only [State.holds, State.sameBytes]; decide +kernel)
  · first | decide +kernel | (simp only [State.holds, State.sameBytes]; decide +kernel)

/-- Concrete inputs that meet the hypotheses of `Obligations.ProtectionAndLocks`, clause by clause. -/
theorem witness_ProtectionAndLocks :
    (let s : State := k0;
     s.holds 0 Pg.sec 0) ∧
    (let s : State := k0;
     let i : ℕ := 0;
     let p : ℕ := s.get secPg SEC_KFT_SEL_PARTITION;
     s.holds 0 Pg.sec 0 ∧ i < 8 ∧ s.keyLocked p = false) ∧
    (let s : State := a3;
     let v : Word := 0;
     let i : ℕ := 0;
     let p : ℕ := s.get secPg SEC_KFT_SEL_PARTITION;
     let r : ℕ := s.get secPg SEC_KFT_SEL_ROW;
     let row : State → ℕ := fun (u : State) =>
       Tab.get (if r = 0 then 2 ^ 256 - 1 else 2 ^ r) u.sec.kft (p * 256 + r);
     let new : ℕ := putBits (row s) (32 * i + 31) (32 * i) (BitVec.toNat v);
     s.holds 0 Pg.sec 0 ∧ i < 8 ∧ s.keyLocked p = true ∧ new ≠ row s) ∧
    (let s : State := k0;
     let v : Word := 0;
     let w : ℕ := written Pg.sec SEC_UNLOCK_GO.off v;
     s.holds 0 Pg.sec 0 ∧ (s.on secPg SEC_UNLOCK_BUSY = true ∨ bitOf w 5 = false)) ∧
    (let s : State := k0;
     let v : Word := 4294967295;
     let w : ℕ := written Pg.sec SEC_UNLOCK_GO.off v;
     let p : ℕ := w % 32;
     s.holds 0 Pg.sec 0 ∧
       s.on secPg SEC_UNLOCK_BUSY = false ∧ bitOf w 5 = true ∧ s.keyLocked p = false) ∧
    (let s : State := k3;
     let v : Word := 32 + 3;
     let w : ℕ := written Pg.sec SEC_UNLOCK_GO.off v;
     let p : ℕ := w % 32;
     s.holds 0 Pg.sec 0 ∧
       s.on secPg SEC_UNLOCK_BUSY = false ∧
         bitOf w 5 = true ∧ s.keyLocked p = true ∧ s.attached p = [] ∧ ∀ k ∈ s.partKeys p, s.keyState k = 0) ∧
    (let s : State := k0;
     let v : Word := 1;
     let w : ℕ := written Pg.sec SEC_FW_CTL v;
     s.holds 0 Pg.sec 0 ∧ bitOf w 0 = true) := by
  refine ⟨?_, ?_, ?_, ?_, ?_, ?_, ?_⟩
  · first | decide +kernel | (simp only [State.holds, State.sameBytes]; decide +kernel)
  · first | decide +kernel | (simp only [State.holds, State.sameBytes]; decide +kernel)
  · first | decide +kernel | (simp only [State.holds, State.sameBytes]; decide +kernel)
  · first | decide +kernel | (simp only [State.holds, State.sameBytes]; decide +kernel)
  · first | decide +kernel | (simp only [State.holds, State.sameBytes]; decide +kernel)
  · first | decide +kernel | (simp only [State.holds, State.sameBytes]; decide +kernel)
  · first | decide +kernel | (simp only [State.holds, State.sameBytes]; decide +kernel)

/-- Concrete inputs that meet the hypotheses of `Obligations.StreamsAndInterfaces`, clause by clause. -/
theorem witness_StreamsAndInterfaces :
    (let i : ℕ := 0;
     i < 16) ∧
    (let i : ℕ := 0;
     let c : ℕ := 3;
     i < 16 ∧ (c = 3 ∨ c = 4)) ∧
    (let s : State := tUp;
     let i : ℕ := 0;
     i < 16 ∧ s.ideSecure i = false) ∧
    (let s : State := i1;
     let i : ℕ := 0;
     i < 16 ∧ s.ideSecure i = true) ∧
    (let s : State := iAll;
     let f : ℕ := 1;
     let p : ℕ := 3;
     1 ≤ f ∧
       f < 256 ∧
         Tab.get none s.attach f = some p ∧
           s.tdi f = 0 ∧ s.keyLocked p = true ∧ s.ideSecure (streamOf f) = true) ∧
    (let s : State := tUp;
     let f : ℕ := 1;
     1 ≤ f ∧
       f < 256 ∧
         (s.tdi f ≠ 0 ∨
           Tab.get none s.attach f = none ∨
             s.ideSecure (streamOf f) = false ∨
               ∃ (p : ℕ), Tab.get none s.attach f = some p ∧ s.keyLocked p = false)) ∧
    (let s : State := i2;
     let f : ℕ := 1;
     1 ≤ f ∧ f < 256 ∧ s.tdi f = 1) ∧
    (let s : State := tUp;
     let f : ℕ := 1;
     1 ≤ f ∧ f < 256 ∧ s.tdi f ≠ 1) ∧
    (let f : ℕ := 1;
     1 ≤ f ∧ f < 256) ∧
    (let f : ℕ := 1;
     let g : ℕ := 2;
     1 ≤ f ∧ f < 256 ∧ g ≠ f) := by
  refine ⟨?_, ?_, ?_, ?_, ?_, ?_, ?_, ?_, ?_, ?_⟩
  · first | decide +kernel | (simp only [State.holds, State.sameBytes]; decide +kernel)
  · first | decide +kernel | (simp only [State.holds, State.sameBytes]; decide +kernel)
  · first | decide +kernel | (simp only [State.holds, State.sameBytes]; decide +kernel)
  · first | decide +kernel | (simp only [State.holds, State.sameBytes]; decide +kernel)
  · have e : ∀ i < 16, iAll.ideSecure i = true := by decide +kernel
    exact ⟨by decide, by decide, by decide +kernel, by decide +kernel, by decide +kernel, e _ (Nat.mod_lt _ (by decide))⟩
  · first | decide +kernel | (simp only [State.holds, State.sameBytes]; decide +kernel)
  · first | decide +kernel | (simp only [State.holds, State.sameBytes]; decide +kernel)
  · first | decide +kernel | (simp only [State.holds, State.sameBytes]; decide +kernel)
  · first | decide +kernel | (simp only [State.holds, State.sameBytes]; decide +kernel)
  · first | decide +kernel | (simp only [State.holds, State.sameBytes]; decide +kernel)

/-- Concrete inputs that meet the hypotheses of `Obligations.AttestationProtocol`, clause by clause. -/
theorem witness_AttestationProtocol :
    (let s : State := b1;
     s.attBusy = true) ∧
    (let s : State := b2;
     let a : ℕ := 0;
     let p : ℕ := 0;
     let n : Bytes := [];
     s.attBusy = false ∧ (a ≠ 1 ∨ List.length n ≠ 32 ∨ 32 ≤ p ∧ p ≠ 255)) ∧
    (let s : State := b2;
     let p : ℕ := 0;
     let n : Bytes := List.replicate 32 7;
     s.attBusy = false ∧ List.length n = 32 ∧ (p < 32 ∨ p = 255)) ∧
    (let s : State := b2;
     s.attBusy = false) ∧
    (let s : State := b2;
     let a : ℕ := 2;
     s.attBusy = false ∧ 2 ≤ a) ∧
    (let s : State := b2;
     let k : ℕ := 0;
     let key : Bytes := [];
     let sig : Bytes := [];
     s.attBusy = false ∧ (256 ≤ k ∨ List.length key ≠ 97 ∨ List.length sig ≠ 96)) ∧
    (let s : State := b2;
     let k : ℕ := 0;
     let key : Bytes := kb;
     let sig : Bytes := sg;
     s.attBusy = false ∧ k < 256 ∧ List.length key = 97 ∧ List.length sig = 96) ∧
    (let s : State := b2;
     s.sec.vendor = true) ∧
    (let s : State := b1;
     s.sec.vendor = false) := by
  refine ⟨?_, ?_, ?_, ?_, ?_, ?_, ?_, ?_, ?_⟩
  · first | decide +kernel | (simp only [State.holds, State.sameBytes]; decide +kernel)
  · first | decide +kernel | (simp only [State.holds, State.sameBytes]; decide +kernel)
  · first | decide +kernel | (simp only [State.holds, State.sameBytes]; decide +kernel)
  · first | decide +kernel | (simp only [State.holds, State.sameBytes]; decide +kernel)
  · first | decide +kernel | (simp only [State.holds, State.sameBytes]; decide +kernel)
  · first | decide +kernel | (simp only [State.holds, State.sameBytes]; decide +kernel)
  · first | decide +kernel | (simp only [State.holds, State.sameBytes]; decide +kernel)
  · first | decide +kernel | (simp only [State.holds, State.sameBytes]; decide +kernel)
  · first | decide +kernel | (simp only [State.holds, State.sameBytes]; decide +kernel)

end Sys2Proof.Tests.C65

namespace Sys2Proof.Tests.C70

open Sys2Proof.Machine

def hostMd (s : State) : State := s.set spltPg SPLT_MODE_STAT_EFFECTIVE 8
def inCtx (s : State) : State := { s with slices := [(0, { ctx := some 8 })] }
def bk (k i : Nat) (s : State) : State := { s.set rcvPg GLB_HANG_CTL_THRESH 6 with beacons := [(scopeKey k i, { stale := 9 })] }
def lv (n : Nat) (s : State) : State := s.set rcvPg GLB_RCV_STAT_LEVEL n
def cm : Cmd := { q := 16, seq := 0, desc := tBytes 128 [(0,1,1),(2,2,0x80),(0x20,1,2),(0x22,1,1)], ctx := 8, part := 3, started := true, issued := true }
def nx (c : Cmd) (s : State := tWork) : State := { s with cmds := [(16, [c])] }
def onSl (c : Cmd) (s : State := tWork) : State := { nx c s with slices := [(0, { ctx := some 8, cmd := some (16, 0), cfg := some (3, 2, 1), tile := some 4, cycles := 1000 })], moulds := [(3 * 64 + 2, { state := 2, serial := 1, image := tBytes 1024 [(0x0E,1,1),(0x0C,2,1),(0x100,2,6),(0x104,4,0x200),(0x200+0x1C,4,100)] })] }
def wt : Cmd := { cm with spr := { active := true, waiting := true } }
def wl : State := { tLink with cmds := [(16, [wt])] }
def np : Cmd := { cm with boundary := true, spr := { active := true } }
def r4 (s : State) : State := { s with rcv := { s.rcv with resets := [5, 6] } }
def tu (c : Cmd) (rest : List Nat) (s : State := tWork) : State := { (lv 3 (nx c s)) with rcv := { s.rcv with suspects := 8 :: rest, named := 8 :: rest, turn := some (16, 0), scope := some (0, 0) } }
def dn : Cmd := { cm with work := true }
def hh : State := hostMd tWork
def wa (n : Nat) (s : State) : State := (lv n s).set rcvPg GLB_RCV_STAT_WAIT_APPROVAL 1
def rt (s : State) : State := ((s.setRetired 1 0 2).setRetired 2 0 2).setRetired 3 5 2
def ft (u i : Nat) (l : List (Nat × Nat)) (s : State := tWork) : State := { s with rcv := { s.rcv with faults := [(u * 1024 + i, l)] } }
def okR : State := { onSl cm with slices := [(0, { ctx := some 8, cmd := some (16, 0), cfg := some (3, 2, 1), tile := some 4, cycles := 0 })] }
def wl2 : State := { wl with mclk := 10 ^ 9 }
def un : State := bk 1 0 (lv 2 tWork)
def stl : State := { tu cm [9] with beacons := [(scopeKey 0 0, { stale := 9999 })] }

/-- Concrete inputs that meet the hypotheses of `Obligations.HangsAndDeadlines`, clause by clause. -/
theorem witness_HangsAndDeadlines :
    (let s := tWork;
     let kind := 0;
     let i := 0;
     let stale := (Tab.get { } s.beacons (scopeKey kind i)).stale;
     kind ≤ 3 ∧ i < engineCount kind ∧ stale < Max.max 4 (s.get rcvPg GLB_HANG_CTL_THRESH)) ∧
    (let s := bk 0 0 (lv 1 tWork);
     let kind := 0;
     let i := 0;
     let stale := (Tab.get { } s.beacons (scopeKey kind i)).stale;
     let lately := s.tastedLately kind i;
     let level := if kind = 0 then if lately = true then 4 else 1 else if kind = 3 ∨ lately = true then 5 else 2;
     let union :=
       kind = 1 ∧
         level = 2 ∧
           s.levelNow = 2 ∧
             s.get rcvPg GLB_RCV_STAT_ENGINE_KIND = 0 ∧
               s.get rcvPg GLB_RCV_STAT_INDEX / 4 = i;
     kind ≤ 3 ∧
       i < engineCount kind ∧
         Max.max 4 (s.get rcvPg GLB_HANG_CTL_THRESH) ≤ stale ∧ level ≤ s.levelNow ∧ ¬union) ∧
    (let s : State := un;
     let kind : ℕ := 1;
     let i : ℕ := 0;
     let stale : ℕ := (Tab.get { } s.beacons (scopeKey kind i)).stale;
     let lately : Bool := s.tastedLately kind i;
     let level : ℕ := if kind = 0 then if lately = true then 4 else 1 else if kind = 3 ∨ lately = true then 5 else 2;
     let union : Prop :=
       kind = 1 ∧
         level = 2 ∧
           s.levelNow = 2 ∧
             s.get rcvPg GLB_RCV_STAT_ENGINE_KIND = 0 ∧
               s.get rcvPg GLB_RCV_STAT_INDEX / 4 = i;
     kind ≤ 3 ∧ i < engineCount kind ∧ Max.max 4 (s.get rcvPg GLB_HANG_CTL_THRESH) ≤ stale ∧ union) ∧
    (let s := bk 0 0 (inCtx tWork);
     let kind := 0;
     let i := 0;
     let stale := (Tab.get { } s.beacons (scopeKey kind i)).stale;
     let lately := s.tastedLately kind i;
     let level := if kind = 0 then if lately = true then 4 else 1 else if kind = 3 ∨ lately = true then 5 else 2;
     kind ≤ 3 ∧
       i < engineCount kind ∧
         Max.max 4 (s.get rcvPg GLB_HANG_CTL_THRESH) ≤ stale ∧ s.levelNow < level ∧ kind = 0 ∧ lately = false) ∧
    (let s := bk 1 0 tWork;
     let kind := 1;
     let i := 0;
     let stale := (Tab.get { } s.beacons (scopeKey kind i)).stale;
     let lately := s.tastedLately kind i;
     let level := if kind = 0 then if lately = true then 4 else 1 else if kind = 3 ∨ lately = true then 5 else 2;
     kind ≤ 3 ∧
       i < engineCount kind ∧
         Max.max 4 (s.get rcvPg GLB_HANG_CTL_THRESH) ≤ stale ∧ s.levelNow < level ∧ (kind ≠ 0 ∨ lately = true)) ∧
    (let s := tWork;
     let n := 0;
     n < 32 ∧ s.sliceCmd n = none) ∧
    (let s : State := okR;
     let n : ℕ := 0;
     let c : Cmd := cm;
     let bound : ℕ := Max.max 2 (s.get rcvPg GLB_HANG_CTL_ROUND_MULT) * (s.phaseOf c).cycles;
     n < 32 ∧ s.sliceCmd n = some c ∧ (s.atSlice n).cycles ≤ bound) ∧
    (let s := onSl cm;
     let n := 0;
     let c := cm;
     let bound := Max.max 2 (s.get rcvPg GLB_HANG_CTL_ROUND_MULT) * (s.phaseOf c).cycles;
     n < 32 ∧ s.sliceCmd n = some c ∧ bound < (s.atSlice n).cycles) ∧
    (let s := wl;
     let q := 16;
     let seq := 0;
     let c := wt;
     let slot := 1;
     let limit := ((c.spr.waitFrom + 41666) / 41667 + Max.max 64 (s.get rcvPg GLB_HANG_CTL_SPAN_WAIT)) * 41667;
     q < 4096 ∧
       s.cmd? q seq = some c ∧
         dSlot c.desc = some slot ∧
           c.started = true ∧ c.work = false ∧ dOp c.desc = 1 ∧ c.spr.waiting = true ∧ s.mclk < limit) ∧
    (let s : State := wl2;
     let q : ℕ := 16;
     let seq : ℕ := 0;
     let c : Cmd := wt;
     let slot : ℕ := 1;
     let limit : ℕ := ((c.spr.waitFrom + 41666) / 41667 + Max.max 64 (s.get rcvPg GLB_HANG_CTL_SPAN_WAIT)) * 41667;
     q < 4096 ∧
       s.cmd? q seq = some c ∧
         dSlot c.desc = some slot ∧
           c.started = true ∧ c.work = false ∧ dOp c.desc = 1 ∧ c.spr.waiting = true ∧ limit ≤ s.mclk) ∧
    (let s := onSl np;
     let q := 16;
     let seq := 0;
     let c := np;
     let u := s.bump (partPg c.part + PART_OVR_CNT) 1;
     q < 4096 ∧
       s.cmd? q seq = some c ∧
         c.work = false ∧
           c.started = true ∧
             c.boundary = true ∧ ¬(s.atBoundary c = true ∧ s.noBoundary c = false) ∧ s.levelNow < 2 ∧ u.hostMode 3 = false) ∧
    (let s := hostMd (onSl np);
     let q := 16;
     let seq := 0;
     let c := np;
     let u := s.bump (partPg c.part + PART_OVR_CNT) 1;
     q < 4096 ∧
       s.cmd? q seq = some c ∧
         c.work = false ∧
           c.started = true ∧
             c.boundary = true ∧ ¬(s.atBoundary c = true ∧ s.noBoundary c = false) ∧ s.levelNow < 2 ∧ u.hostMode 3 = true) ∧
    (let s := bk 2 1 (lv 5 tWork);
     let k := 0;
     k < 4 ∧ 5 ≤ s.levelNow) ∧
    (let s := tWork;
     let k := 0;
     k < 4 ∧ s.levelNow < 5) := by
  refine ⟨?_, ?_, ?_, ?_, ?_, ?_, ?_, ?_, ?_, ?_, ?_, ?_, ?_, ?_⟩
  · first | decide +kernel | (simp only [State.holds, State.sameBytes]; decide +kernel)
  · first | decide +kernel | (simp only [State.holds, State.sameBytes]; decide +kernel)
  · first | decide +kernel | (simp only [State.holds, State.sameBytes]; decide +kernel)
  · first | decide +kernel | (simp only [State.holds, State.sameBytes]; decide +kernel)
  · first | decide +kernel | (simp only [State.holds, State.sameBytes]; decide +kernel)
  · first | decide +kernel | (simp only [State.holds, State.sameBytes]; decide +kernel)
  · first | decide +kernel | (simp only [State.holds, State.sameBytes]; decide +kernel)
  · first | decide +kernel | (simp only [State.holds, State.sameBytes]; decide +kernel)
  · first | decide +kernel | (simp only [State.holds, State.sameBytes]; decide +kernel)
  · first | decide +kernel | (simp only [State.holds, State.sameBytes]; decide +kernel)
  · first | decide +kernel | (simp only [State.holds, State.sameBytes]; decide +kernel)
  · first | decide +kernel | (simp only [State.holds, State.sameBytes]; decide +kernel)
  · first | decide +kernel | (simp only [State.holds, State.sameBytes]; decide +kernel)
  · first | decide +kernel | (simp only [State.holds, State.sameBytes]; decide +kernel)

/-- Concrete inputs that meet the hypotheses of `Obligations.LevelsOfRecovery`, clause by clause. -/
theorem witness_LevelsOfRecovery :
    (let s := tWork;
     let kind := 0;
     let i := 0;
     s.levelNow = 0 ∧ kind ≤ 2 ∧ i < engineCount kind ∧ s.hostMode 3 = false) ∧
    (let s := hh;
     let kind := 0;
     let i := 0;
     s.levelNow = 0 ∧ kind ≤ 2 ∧ i < engineCount kind ∧ s.hostMode 3 = true) ∧
    (let s := tWork;
     let p := 0;
     s.levelNow = 0 ∧ p < 32 ∧ s.partState p < 2) ∧
    (let s := tWork;
     let p := 3;
     s.levelNow = 0 ∧ p < 32 ∧ 2 ≤ s.partState p ∧ s.hostMode 3 = false ∧ s.rcv.scope = none) ∧
    (let s := lv 5 tWork;
     let p := 0;
     p < 32 ∧ 5 ≤ s.levelNow) ∧
    (let s := State.reset;
     let cause := 1;
     1 ≤ cause ∧ cause ≤ 4 ∧ s.ready = false) ∧
    (let s := tWork;
     let cause := 1;
     1 ≤ cause ∧
       cause ≤ 4 ∧ s.ready = true ∧ s.levelNow ≠ 6 ∧ (cause ≠ 1 ∨ s.hostMode 3 = false ∨ s.rcv.approved = true) ∧ s.lateResets.length < 2) ∧
    (let s := r4 tWork;
     let cause := 1;
     1 ≤ cause ∧
       cause ≤ 4 ∧ s.ready = true ∧ s.levelNow ≠ 6 ∧ (cause ≠ 1 ∨ s.hostMode 3 = false ∨ s.rcv.approved = true) ∧ 2 ≤ s.lateResets.length) ∧
    (let cause := 1;
     1 ≤ cause ∧ cause ≤ 4) ∧
    (let s := tu dn [9];
     let x := 8;
     let rest := [9];
     let q := 16;
     let seq := 0;
     let kind := 0;
     let i := 0;
     let c := dn;
     s.rcv.suspects = x :: rest ∧
       s.rcv.turn = some (q, seq) ∧ s.rcv.scope = some (kind, i) ∧ s.levelNow = 3 ∧ s.cmd? q seq = some c ∧ c.work = true) ∧
    (let s := tu cm [];
     let x := 8;
     let rest := [];
     let q := 16;
     let seq := 0;
     let kind := 0;
     let i := 0;
     let c := cm;
     s.rcv.suspects = x :: rest ∧
       s.rcv.turn = some (q, seq) ∧ s.rcv.scope = some (kind, i) ∧ s.levelNow = 3 ∧ s.cmd? q seq = some c ∧ c.work = false) ∧
    (let s := tu cm [];
     let x := 8;
     let rest := [];
     let q := 16;
     let seq := 0;
     let kind := 0;
     let i := 0;
     let c := cm;
     s.rcv.suspects = x :: rest ∧
       s.rcv.turn = some (q, seq) ∧
         s.rcv.scope = some (kind, i) ∧ s.levelNow = 3 ∧ s.cmd? q seq = some c ∧ c.work = false ∧ s.tasteStale kind i = false) ∧
    (let s : State := stl;
     let x : ℕ := 8;
     let rest : List ℕ := [9];
     let q : ℕ := 16;
     let seq : ℕ := 0;
     let kind : ℕ := 0;
     let i : ℕ := 0;
     let c : Cmd := cm;
     s.rcv.suspects = x :: rest ∧
       s.rcv.turn = some (q, seq) ∧
         s.rcv.scope = some (kind, i) ∧ s.levelNow = 3 ∧ s.cmd? q seq = some c ∧ c.work = false ∧ s.tasteStale kind i = true) ∧
    (let s := tu cm [];
     let x := 8;
     let rest := [];
     let q := 16;
     let seq := 0;
     let kind := 0;
     let i := 0;
     let c := cm;
     s.rcv.suspects = x :: rest ∧
       s.rcv.turn = some (q, seq) ∧
         s.rcv.scope = some (kind, i) ∧ s.levelNow = 3 ∧ s.cmd? q seq = some c ∧ c.work = false ∧ rest = []) ∧
    (let s := tu cm [9];
     let x := 8;
     let rest := [9];
     let q := 16;
     let seq := 0;
     let kind := 0;
     let i := 0;
     let c := cm;
     s.rcv.suspects = x :: rest ∧
       s.rcv.turn = some (q, seq) ∧
         s.rcv.scope = some (kind, i) ∧ s.levelNow = 3 ∧ s.cmd? q seq = some c ∧ c.work = false ∧ rest ≠ []) := by
  refine ⟨?_, ?_, ?_, ?_, ?_, ?_, ?_, ?_, ?_, ?_, ?_, ?_, ?_, ?_, ?_⟩
  · first | decide +kernel | (simp only [State.holds, State.sameBytes]; decide +kernel)
  · first | decide +kernel | (simp only [State.holds, State.sameBytes]; decide +kernel)
  · first | decide +kernel | (simp only [State.holds, State.sameBytes]; decide +kernel)
  · first | decide +kernel | (simp only [State.holds, State.sameBytes]; decide +kernel)
  · first | decide +kernel | (simp only [State.holds, State.sameBytes]; decide +kernel)
  · first | decide +kernel | (simp only [State.holds, State.sameBytes]; decide +kernel)
  · first | decide +kernel | (simp only [State.holds, State.sameBytes]; decide +kernel)
  · first | decide +kernel | (simp only [State.holds, State.sameBytes]; decide +kernel)
  · first | decide +kernel | (simp only [State.holds, State.sameBytes]; decide +kernel)
  · first | decide +kernel | (simp only [State.holds, State.sameBytes]; decide +kernel)
  · first | decide +kernel | (simp only [State.holds, State.sameBytes]; decide +kernel)
  · first | decide +kernel | (simp only [State.holds, State.sameBytes]; decide +kernel)
  · first | decide +kernel | (simp only [State.holds, State.sameBytes]; decide +kernel)
  · first | decide +kernel | (simp only [State.holds, State.sameBytes]; decide +kernel)
  · first | decide +kernel | (simp only [State.holds, State.sameBytes]; decide +kernel)

/-- Concrete inputs that meet the hypotheses of `Obligations.ApprovalsAndRequests`, clause by clause. -/
theorem witness_ApprovalsAndRequests :
    (let s := tWork;
     let v := 1;
     let w := written Pg.rcv GLB_RCV_APPROVE v;
     s.holds 0 Pg.rcv 0 ∧
       bitOf w 0 = true ∧
         bitOf w 1 = false ∧
           bitOf w 2 = false ∧ s.on rcvPg GLB_RCV_STAT_WAIT_APPROVAL = false) ∧
    (let s := wa 2 tWork;
     let v := 1;
     let w := written Pg.rcv GLB_RCV_APPROVE v;
     s.holds 0 Pg.rcv 0 ∧
       bitOf w 0 = true ∧
         bitOf w 1 = false ∧
           bitOf w 2 = false ∧ s.on rcvPg GLB_RCV_STAT_WAIT_APPROVAL = true) ∧
    (let s := tWork;
     let v := 2;
     let w := written Pg.rcv GLB_RCV_APPROVE v;
     s.holds 0 Pg.rcv 0 ∧
       bitOf w 0 = false ∧
         bitOf w 1 = true ∧
           bitOf w 2 = false ∧ s.on rcvPg GLB_RCV_STAT_WAIT_APPROVAL = false) ∧
    (let s := wa 2 tWork;
     let v := 2;
     let w := written Pg.rcv GLB_RCV_APPROVE v;
     s.holds 0 Pg.rcv 0 ∧
       bitOf w 0 = false ∧
         bitOf w 1 = true ∧
           bitOf w 2 = false ∧ s.on rcvPg GLB_RCV_STAT_WAIT_APPROVAL = true) ∧
    (let s := tWork;
     let v := 4 + 4 * 8 + 3 * 64;
     let w := written Pg.rcv GLB_RCV_APPROVE v;
     let t := s.wr (rcvPg + GLB_RCV_APPROVE) (w &&& maskOf 10 3);
     let want := t.get rcvPg GLB_RCV_APPROVE_LEVEL;
     s.holds 0 Pg.rcv 0 ∧
       bitOf w 0 = false ∧ bitOf w 1 = false ∧ bitOf w 2 = true ∧ 4 ≤ want ∧ want ≤ 6) ∧
    (let s := tWork;
     let v := 4;
     let w := written Pg.rcv GLB_RCV_APPROVE v;
     let t := s.wr (rcvPg + GLB_RCV_APPROVE) (w &&& maskOf 10 3);
     let want := t.get rcvPg GLB_RCV_APPROVE_LEVEL;
     s.holds 0 Pg.rcv 0 ∧
       bitOf w 0 = false ∧ bitOf w 1 = false ∧ bitOf w 2 = true ∧ (want < 4 ∨ 6 < want)) ∧
    (let s := tWork.set rcvPg GLB_RETIRE_REQ_BUSY 1;
     let v := 65536;
     let w := written Pg.rcv GLB_RETIRE_REQ_GO.off v;
     s.holds 0 Pg.rcv 0 ∧
       bitOf w 16 = true ∧ s.on rcvPg GLB_RETIRE_REQ_BUSY = true) ∧
    (let s := tWork;
     let v := 65536;
     let w := written Pg.rcv GLB_RETIRE_REQ_GO.off v;
     s.holds 0 Pg.rcv 0 ∧
       bitOf w 16 = true ∧ s.on rcvPg GLB_RETIRE_REQ_BUSY = false) ∧
    (let s := tWork;
     let v := 65536;
     let w := written Pg.rcv GLB_CRUMB_CTL v;
     s.holds 0 Pg.rcv 0 ∧ bitOf w 16 = true) := by
  refine ⟨?_, ?_, ?_, ?_, ?_, ?_, ?_, ?_, ?_⟩
  · first | decide +kernel | (simp only [State.holds, State.sameBytes]; decide +kernel)
  · first | decide +kernel | (simp only [State.holds, State.sameBytes]; decide +kernel)
  · first | decide +kernel | (simp only [State.holds, State.sameBytes]; decide +kernel)
  · first | decide +kernel | (simp only [State.holds, State.sameBytes]; decide +kernel)
  · first | decide +kernel | (simp only [State.holds, State.sameBytes]; decide +kernel)
  · first | decide +kernel | (simp only [State.holds, State.sameBytes]; decide +kernel)
  · first | decide +kernel | (simp only [State.holds, State.sameBytes]; decide +kernel)
  · first | decide +kernel | (simp only [State.holds, State.sameBytes]; decide +kernel)
  · first | decide +kernel | (simp only [State.holds, State.sameBytes]; decide +kernel)

/-- Concrete inputs that meet the hypotheses of `Obligations.UnitsRetire`, clause by clause. -/
theorem witness_UnitsRetire :
    (let s := rt tWork;
     let n := 0;
     n < 32 ∧ s.capState 1 n = 2) ∧
    (let s := tWork;
     let n := 0;
     n < 32 ∧ s.capState 1 n ≠ 2 ∧ s.rcv.scope = none ∧ (∀ p < 32, s.rebindTouches p [n] [] [] = false) ∧ n ∉ s.rcv.retiring) ∧
    (let s := tWork;
     let n := 0;
     n < 32 ∧
       s.capState 1 n ≠ 2 ∧
         s.rcv.scope = none ∧ (∀ p < 32, s.rebindTouches p [n] [] [] = false) ∧ (s.sliceCmd n = none ∨ n ∈ s.rcv.retiring)) ∧
    (let s : State :=
       onSl
         { cm with spr := { active := true } };
     let n : ℕ := 0;
     let c : Cmd :=
       { cm with spr := { active := true } };
     n < 32 ∧
       s.capState 1 n ≠ 2 ∧
         s.rcv.scope = none ∧
           (∀ p < 32, s.rebindTouches p [n] [] [] = false) ∧
             s.sliceCmd n = some c ∧
               c.work = false ∧ n ∉ s.rcv.retiring ∧ (s.atSlice n).stopped = false ∧ (s.atBoundary c = false ∨ s.noBoundary c = true)) ∧
    (let s := rt tWork;
     let g := 0;
     g < 128 ∧ s.capState 2 (2 * g) = 2) ∧
    (let s := tWork;
     let g := 0;
     g < 128 ∧ s.capState 2 (2 * g) ≠ 2) ∧
    (let s := rt tWork;
     let p := 5;
     p < 36 ∧ s.capState 3 p = 2) ∧
    (let s := tWork;
     let p := 0;
     p < 36 ∧ s.capState 3 p ≠ 2) ∧
    (let p := 0;
     p < 36) ∧
    (let s := tWork;
     let i := 0;
     i < 32 ∧ s.capState 1 i ≠ 2) ∧
    (let s := tWork;
     let i := 0;
     i < 256 ∧ s.weakLane i = none) ∧
    (let s := ft 5 0 (List.map (fun (i : ℕ) => (i, 7)) (List.range 256));
     let i := 0;
     let l := 7;
     i < 256 ∧ s.weakLane i = some l) ∧
    (let i := 0;
     i < 192) := by
  refine ⟨?_, ?_, ?_, ?_, ?_, ?_, ?_, ?_, ?_, ?_, ?_, ?_, ?_⟩
  · first | decide +kernel | (simp only [State.holds, State.sameBytes]; decide +kernel)
  · first | decide +kernel | (simp only [State.holds, State.sameBytes]; decide +kernel)
  · first | decide +kernel | (simp only [State.holds, State.sameBytes]; decide +kernel)
  · first | decide +kernel | (simp only [State.holds, State.sameBytes]; decide +kernel)
  · first | decide +kernel | (simp only [State.holds, State.sameBytes]; decide +kernel)
  · first | decide +kernel | (simp only [State.holds, State.sameBytes]; decide +kernel)
  · first | decide +kernel | (simp only [State.holds, State.sameBytes]; decide +kernel)
  · first | decide +kernel | (simp only [State.holds, State.sameBytes]; decide +kernel)
  · first | decide +kernel | (simp only [State.holds, State.sameBytes]; decide +kernel)
  · first | decide +kernel | (simp only [State.holds, State.sameBytes]; decide +kernel)
  · first | decide +kernel | (simp only [State.holds, State.sameBytes]; decide +kernel)
  · first | decide +kernel | (simp only [State.holds, State.sameBytes]; decide +kernel)
  · first | decide +kernel | (simp only [State.holds, State.sameBytes]; decide +kernel)

end Sys2Proof.Tests.C70

namespace Sys2Proof.Tests.C70b

open Sys2Proof.Machine

def tm : State := tWork.set dbgPg DBG_TEST_CTL_TEST 1
def hl : State := { tm with halted := [2, 130, 137] }
def pr (s : State) : State := s.puts [(secPg + SEC_PROTECT, 8)]
def tg (i u sp w : Nat) (s : State) : State := (((s.set dbgPg DBG_ACC_TGT_ISLAND i).set dbgPg DBG_ACC_TGT_UNIT u).set dbgPg DBG_ACC_TGT_SPACE sp).set dbgPg DBG_ACC_WORD_WORD w |>.puts [(dbgPg + DBG_ACC_DATA, 0x12345678)]
def b0 : State := tWork
def nr : State := { tWork with ready := false }
def dat : State := (tWork.devWrite 0 3 0x100 ((List.range 600).map (fun i => BitVec.ofNat 8 i))).1
def reb : State := { tWork with rebind := [(3, { sub := 5, src := 0, dst := 1 })] }

/-- Concrete inputs that meet the hypotheses of `Obligations.DebugPage`, clause by clause. -/
theorem witness_DebugPage :
    (let s : State := tWork;
     s.holds 0 Pg.dbg 0) ∧
    (let s : State := tWork;
     let v : Word := 256;
     let w : ℕ := written Pg.dbg DBG_HALT v;
     s.holds 0 Pg.dbg 0 ∧
       bitOf w 8 = true ∧ bitOf w 9 = false ∧ s.on dbgPg DBG_TEST_CTL_TEST = false) ∧
    (let s : State := tm;
     let v : Word := 408;
     let w : ℕ := written Pg.dbg DBG_HALT v;
     let i : ℕ := w % 256;
     s.holds 0 Pg.dbg 0 ∧
       bitOf w 8 = true ∧
         bitOf w 9 = false ∧ s.on dbgPg DBG_TEST_CTL_TEST = true ∧ 152 ≤ i) ∧
    (let s : State := pr tm;
     let v : Word := 256;
     let w : ℕ := written Pg.dbg DBG_HALT v;
     let i : ℕ := w % 256;
     s.holds 0 Pg.dbg 0 ∧
       bitOf w 8 = true ∧
         bitOf w 9 = false ∧
           s.on dbgPg DBG_TEST_CTL_TEST = true ∧ i < 152 ∧ s.islandClosed i = true) ∧
    (let s : State := tm;
     let v : Word := 256;
     let w : ℕ := written Pg.dbg DBG_HALT v;
     let i : ℕ := w % 256;
     s.holds 0 Pg.dbg 0 ∧
       bitOf w 8 = true ∧
         bitOf w 9 = false ∧
           s.on dbgPg DBG_TEST_CTL_TEST = true ∧ i < 152 ∧ s.islandClosed i = false) ∧
    (let s : State := tWork;
     let v : Word := 512;
     let w : ℕ := written Pg.dbg DBG_HALT v;
     s.holds 0 Pg.dbg 0 ∧ bitOf w 8 = false ∧ bitOf w 9 = true) ∧
    (let s : State := tg 200 3 0 4 hl;
     let v : Word := 1;
     let i : ℕ := s.get dbgPg DBG_ACC_TGT_ISLAND;
     let u : ℕ := s.get dbgPg DBG_ACC_TGT_UNIT;
     let sp : ℕ := s.get dbgPg DBG_ACC_TGT_SPACE;
     let n : ℕ := s.get dbgPg DBG_ACC_WORD_WORD;
     let w : ℕ := written Pg.dbg DBG_ACC_CTL_READ.off v;
     let range : Bool := dbgRange i u sp n;
     s.holds 0 Pg.dbg 0 ∧ bitOf w 0 = true ∧ bitOf w 1 = false ∧ range = false) ∧
    (let s : State := pr tm;
     let v : Word := 1;
     let i : ℕ := s.get dbgPg DBG_ACC_TGT_ISLAND;
     let u : ℕ := s.get dbgPg DBG_ACC_TGT_UNIT;
     let sp : ℕ := s.get dbgPg DBG_ACC_TGT_SPACE;
     let n : ℕ := s.get dbgPg DBG_ACC_WORD_WORD;
     let w : ℕ := written Pg.dbg DBG_ACC_CTL_READ.off v;
     let range : Bool := dbgRange i u sp n;
     let closed : Bool := s.dbgClosed i u sp n;
     s.holds 0 Pg.dbg 0 ∧ bitOf w 0 = true ∧ bitOf w 1 = false ∧ range = true ∧ closed = true) ∧
    (let s : State := tWork;
     let v : Word := 1;
     let i : ℕ := s.get dbgPg DBG_ACC_TGT_ISLAND;
     let u : ℕ := s.get dbgPg DBG_ACC_TGT_UNIT;
     let sp : ℕ := s.get dbgPg DBG_ACC_TGT_SPACE;
     let n : ℕ := s.get dbgPg DBG_ACC_WORD_WORD;
     let w : ℕ := written Pg.dbg DBG_ACC_CTL_READ.off v;
     let range : Bool := dbgRange i u sp n;
     let closed : Bool := s.dbgClosed i u sp n;
     s.holds 0 Pg.dbg 0 ∧ bitOf w 0 = true ∧ bitOf w 1 = false ∧ range = true ∧ closed = false) ∧
    (let s : State := tg 200 3 0 4 hl;
     let v : Word := 2;
     let i : ℕ := s.get dbgPg DBG_ACC_TGT_ISLAND;
     let u : ℕ := s.get dbgPg DBG_ACC_TGT_UNIT;
     let sp : ℕ := s.get dbgPg DBG_ACC_TGT_SPACE;
     let n : ℕ := s.get dbgPg DBG_ACC_WORD_WORD;
     let w : ℕ := written Pg.dbg DBG_ACC_CTL_READ.off v;
     let range : Bool := dbgRange i u sp n;
     s.holds 0 Pg.dbg 0 ∧ bitOf w 0 = false ∧ bitOf w 1 = true ∧ range = false) ∧
    (let s : State := pr tm;
     let v : Word := 2;
     let i : ℕ := s.get dbgPg DBG_ACC_TGT_ISLAND;
     let u : ℕ := s.get dbgPg DBG_ACC_TGT_UNIT;
     let sp : ℕ := s.get dbgPg DBG_ACC_TGT_SPACE;
     let n : ℕ := s.get dbgPg DBG_ACC_WORD_WORD;
     let w : ℕ := written Pg.dbg DBG_ACC_CTL_READ.off v;
     let range : Bool := dbgRange i u sp n;
     let closed : Bool := s.dbgClosed i u sp n;
     s.holds 0 Pg.dbg 0 ∧ bitOf w 0 = false ∧ bitOf w 1 = true ∧ range = true ∧ closed = true) ∧
    (let s : State := tWork;
     let v : Word := 2;
     let i : ℕ := s.get dbgPg DBG_ACC_TGT_ISLAND;
     let u : ℕ := s.get dbgPg DBG_ACC_TGT_UNIT;
     let sp : ℕ := s.get dbgPg DBG_ACC_TGT_SPACE;
     let n : ℕ := s.get dbgPg DBG_ACC_WORD_WORD;
     let w : ℕ := written Pg.dbg DBG_ACC_CTL_READ.off v;
     let range : Bool := dbgRange i u sp n;
     let closed : Bool := s.dbgClosed i u sp n;
     s.holds 0 Pg.dbg 0 ∧
       bitOf w 0 = false ∧ bitOf w 1 = true ∧ range = true ∧ closed = false ∧ i ∉ s.halted) ∧
    (let s : State := tg 2 3 0 4 hl;
     let v : Word := 2;
     let i : ℕ := s.get dbgPg DBG_ACC_TGT_ISLAND;
     let u : ℕ := s.get dbgPg DBG_ACC_TGT_UNIT;
     let sp : ℕ := s.get dbgPg DBG_ACC_TGT_SPACE;
     let n : ℕ := s.get dbgPg DBG_ACC_WORD_WORD;
     let w : ℕ := written Pg.dbg DBG_ACC_CTL_READ.off v;
     let range : Bool := dbgRange i u sp n;
     let closed : Bool := s.dbgClosed i u sp n;
     s.holds 0 Pg.dbg 0 ∧
       bitOf w 0 = false ∧ bitOf w 1 = true ∧ range = true ∧ closed = false ∧ i ∈ s.halted) := by
  refine ⟨?_, ?_, ?_, ?_, ?_, ?_, ?_, ?_, ?_, ?_, ?_, ?_, ?_⟩
  · first | decide +kernel | (simp only [State.holds, State.sameBytes]; decide +kernel)
  · first | decide +kernel | (simp only [State.holds, State.sameBytes]; decide +kernel)
  · first | decide +kernel | (simp only [State.holds, State.sameBytes]; decide +kernel)
  · first | decide +kernel | (simp only [State.holds, State.sameBytes]; decide +kernel)
  · first | decide +kernel | (simp only [State.holds, State.sameBytes]; decide +kernel)
  · first | decide +kernel | (simp only [State.holds, State.sameBytes]; decide +kernel)
  · first | decide +kernel | (simp only [State.holds, State.sameBytes]; decide +kernel)
  · first | decide +kernel | (simp only [State.holds, State.sameBytes]; decide +kernel)
  · first | decide +kernel | (simp only [State.holds, State.sameBytes]; decide +kernel)
  · first | decide +kernel | (simp only [State.holds, State.sameBytes]; decide +kernel)
  · first | decide +kernel | (simp only [State.holds, State.sameBytes]; decide +kernel)
  · first | decide +kernel | (simp only [State.holds, State.sameBytes]; decide +kernel)
  · first | decide +kernel | (simp only [State.holds, State.sameBytes]; decide +kernel)

/-- Concrete inputs that meet the hypotheses of `Obligations.WindowsIntoTheModule`, clause by clause. -/
theorem witness_WindowsIntoTheModule :
    (let s : State := nr;
     let off : ℕ := 256;
     let len : ℕ := 1;
     0 < len ∧ len ≤ 4096 ∧ off + len ≤ 2 ^ 36 ∧ s.ready = false) ∧
    (let s : State := nr;
     let off : ℕ := 256;
     let len : ℕ := 1;
     let data : Bytes := List.replicate 1 5;
     0 < len ∧ len ≤ 4096 ∧ off + len ≤ 2 ^ 36 ∧ s.ready = false ∧ List.length data = len) ∧
    (let s : State := pr dat;
     let off : ℕ := 256;
     let len : ℕ := 1;
     let l : List (ℕ × ℕ) := linePieces (len + 1) (s.bar2Dpa off) len;
     let shut : Prop := ∃ e ∈ l, s.dpaProtected e.1 = true;
     0 < len ∧ len ≤ 4096 ∧ off + len ≤ 2 ^ 36 ∧ s.ready = true ∧ shut) ∧
    (let s : State := pr dat;
     let off : ℕ := 256;
     let len : ℕ := 1;
     let l : List (ℕ × ℕ) := linePieces (len + 1) (s.bar2Dpa off) len;
     let shut : Prop := ∃ e ∈ l, s.dpaProtected e.1 = true;
     let data : Bytes := List.replicate 1 5;
     0 < len ∧ len ≤ 4096 ∧ off + len ≤ 2 ^ 36 ∧ s.ready = true ∧ shut ∧ List.length data = len) ∧
    (let s : State := reb;
     let off : ℕ := 256;
     let len : ℕ := 1;
     let l : List (ℕ × ℕ) := linePieces (len + 1) (s.bar2Dpa off) len;
     let shut : Prop := ∃ e ∈ l, s.dpaProtected e.1 = true;
     let moving : Option ℕ := (List.filterMap (fun (e : ℕ × ℕ) => s.rebalancing e.1) l).head?;
     let p : ℕ := 3;
     0 < len ∧ len ≤ 4096 ∧ off + len ≤ 2 ^ 36 ∧ s.ready = true ∧ ¬shut ∧ moving = some p) ∧
    (let s : State := reb;
     let off : ℕ := 256;
     let len : ℕ := 1;
     let l : List (ℕ × ℕ) := linePieces (len + 1) (s.bar2Dpa off) len;
     let shut : Prop := ∃ e ∈ l, s.dpaProtected e.1 = true;
     let moving : Option ℕ := (List.filterMap (fun (e : ℕ × ℕ) => s.rebalancing e.1) l).head?;
     let p : ℕ := 3;
     let data : Bytes := List.replicate 1 5;
     0 < len ∧ len ≤ 4096 ∧ off + len ≤ 2 ^ 36 ∧ s.ready = true ∧ ¬shut ∧ moving = some p ∧ List.length data = len) ∧
    (let s : State := b0;
     let off : ℕ := 5242880;
     let len : ℕ := 1;
     let l : List (ℕ × ℕ) := linePieces (len + 1) (s.bar2Dpa off) len;
     let shut : Prop := ∃ e ∈ l, s.dpaProtected e.1 = true;
     let moving : Option ℕ := (List.filterMap (fun (e : ℕ × ℕ) => s.rebalancing e.1) l).head?;
     let bad : Prop := ∃ e ∈ l, s.bar2Bad e.1 = true;
     0 < len ∧ len ≤ 4096 ∧ off + len ≤ 2 ^ 36 ∧ s.ready = true ∧ ¬shut ∧ moving = none ∧ bad) ∧
    (let s : State := b0;
     let off : ℕ := 5242880;
     let len : ℕ := 1;
     let l : List (ℕ × ℕ) := linePieces (len + 1) (s.bar2Dpa off) len;
     let shut : Prop := ∃ e ∈ l, s.dpaProtected e.1 = true;
     let moving : Option ℕ := (List.filterMap (fun (e : ℕ × ℕ) => s.rebalancing e.1) l).head?;
     let bad : Prop := ∃ e ∈ l, s.bar2Bad e.1 = true;
     let data : Bytes := List.replicate 1 5;
     0 < len ∧ len ≤ 4096 ∧ off + len ≤ 2 ^ 36 ∧ s.ready = true ∧ ¬shut ∧ moving = none ∧ bad ∧ List.length data = len) ∧
    (let s : State := b0;
     let off : ℕ := 256;
     let len : ℕ := 1;
     let l : List (ℕ × ℕ) := linePieces (len + 1) (s.bar2Dpa off) len;
     let shut : Prop := ∃ e ∈ l, s.dpaProtected e.1 = true;
     let moving : Option ℕ := (List.filterMap (fun (e : ℕ × ℕ) => s.rebalancing e.1) l).head?;
     let bad : Prop := ∃ e ∈ l, s.bar2Bad e.1 = true;
     let u : State := (s.bar2Lines l).1;
     let b : Bytes :=
       match s.bar2Lines l with
       | (fst, some b) => b
       | x => [];
     0 < len ∧ len ≤ 4096 ∧ off + len ≤ 2 ^ 36 ∧ s.ready = true ∧ ¬shut ∧ moving = none ∧ ¬bad ∧ s.bar2Lines l = (u, some b)) ∧
    (let s : State := b0;
     let off : ℕ := 256;
     let len : ℕ := 256;
     let l : List (ℕ × ℕ) := linePieces (len + 1) (s.bar2Dpa off) len;
     let shut : Prop := ∃ e ∈ l, s.dpaProtected e.1 = true;
     let moving : Option ℕ := (List.filterMap (fun (e : ℕ × ℕ) => s.rebalancing e.1) l).head?;
     let bad : Prop := ∃ e ∈ l, s.bar2Bad e.1 = true;
     let data : Bytes := List.replicate 256 6;
     let e : ℕ × ℕ := (256, 256);
     let pl : Place := (s.place e.1).getD { chan := 0, cl := 0, byte := 0 };
     0 < len ∧
       len ≤ 4096 ∧
         off + len ≤ 2 ^ 36 ∧
           s.ready = true ∧ ¬shut ∧ moving = none ∧ ¬bad ∧ List.length data = len ∧ l = [e] ∧ s.place e.1 = some pl ∧ e.2 = 256) ∧
    (let s : State := b0;
     let off : ℕ := 256;
     let len : ℕ := 1;
     let l : List (ℕ × ℕ) := linePieces (len + 1) (s.bar2Dpa off) len;
     let shut : Prop := ∃ e ∈ l, s.dpaProtected e.1 = true;
     let moving : Option ℕ := (List.filterMap (fun (e : ℕ × ℕ) => s.rebalancing e.1) l).head?;
     let bad : Prop := ∃ e ∈ l, s.bar2Bad e.1 = true;
     let data : Bytes := List.replicate 1 5;
     let e : ℕ × ℕ := (256, 1);
     let pl : Place := (s.place e.1).getD { chan := 0, cl := 0, byte := 0 };
     0 < len ∧
       len ≤ 4096 ∧
         off + len ≤ 2 ^ 36 ∧
           s.ready = true ∧ ¬shut ∧ moving = none ∧ ¬bad ∧ List.length data = len ∧ l = [e] ∧ s.place e.1 = some pl ∧ e.2 < 256) ∧
    (let s : State :=
       { dat with pins := { dat.pins with pgood := false } };
     s.pins.pgood = false ∨ s.pins.oscStopped = true ∨ s.pins.resetN = false) ∧
    (let s : State := b0;
     let sp : ℕ := 6;
     s.pins.pgood = true ∧ s.pins.oscStopped = false ∧ s.pins.resetN = true ∧ sp = 6) ∧
    (let s : State := b0;
     let i : ℕ := 2;
     let u : ℕ := 0;
     let sp : ℕ := 0;
     let n : ℕ := 268435455;
     s.pins.pgood = true ∧ s.pins.oscStopped = false ∧ s.pins.resetN = true ∧ sp ≠ 6 ∧ dbgRange i u sp n = false) ∧
    (let s : State := pr dat;
     let i : ℕ := 2;
     let u : ℕ := 0;
     let sp : ℕ := 0;
     let n : ℕ := 4;
     s.pins.pgood = true ∧
       s.pins.oscStopped = false ∧
         s.pins.resetN = true ∧ sp ≠ 6 ∧ dbgRange i u sp n = true ∧ s.dbgClosed i u sp n = true) ∧
    (let s : State := b0;
     let write : Bool := false;
     let i : ℕ := 2;
     let u : ℕ := 0;
     let sp : ℕ := 0;
     let n : ℕ := 4;
     s.pins.pgood = true ∧
       s.pins.oscStopped = false ∧
         s.pins.resetN = true ∧ sp ≠ 6 ∧ dbgRange i u sp n = true ∧ s.dbgClosed i u sp n = false ∧ write = false) ∧
    (let s : State := hl;
     let write : Bool := true;
     let i : ℕ := 2;
     let u : ℕ := 0;
     let sp : ℕ := 0;
     let n : ℕ := 4;
     s.pins.pgood = true ∧
       s.pins.oscStopped = false ∧
         s.pins.resetN = true ∧
           sp ≠ 6 ∧ dbgRange i u sp n = true ∧ s.dbgClosed i u sp n = false ∧ write = true ∧ i ∈ s.halted) ∧
    (let s : State := b0;
     let write : Bool := true;
     let i : ℕ := 2;
     let u : ℕ := 0;
     let sp : ℕ := 0;
     let n : ℕ := 4;
     s.pins.pgood = true ∧
       s.pins.oscStopped = false ∧
         s.pins.resetN = true ∧
           sp ≠ 6 ∧ dbgRange i u sp n = true ∧ s.dbgClosed i u sp n = false ∧ write = true ∧ i ∉ s.halted) := by
  refine ⟨?_, ?_, ?_, ?_, ?_, ?_, ?_, ?_, ?_, ?_, ?_, ?_, ?_, ?_, ?_, ?_, ?_, ?_⟩
  · first | decide +kernel | (simp only [State.holds, State.sameBytes]; decide +kernel)
  · first | decide +kernel | (simp only [State.holds, State.sameBytes]; decide +kernel)
  · first | decide +kernel | (simp only [State.holds, State.sameBytes]; decide +kernel)
  · first | decide +kernel | (simp only [State.holds, State.sameBytes]; decide +kernel)
  · first | decide +kernel | (simp only [State.holds, State.sameBytes]; decide +kernel)
  · first | decide +kernel | (simp only [State.holds, State.sameBytes]; decide +kernel)
  · first | decide +kernel | (simp only [State.holds, State.sameBytes]; decide +kernel)
  · first | decide +kernel | (simp only [State.holds, State.sameBytes]; decide +kernel)
  · first | decide +kernel | (simp only [State.holds, State.sameBytes]; decide +kernel)
  · first | decide +kernel | (simp only [State.holds, State.sameBytes]; decide +kernel)
  · first | decide +kernel | (simp only [State.holds, State.sameBytes]; decide +kernel)
  · first | decide +kernel | (simp only [State.holds, State.sameBytes]; decide +kernel)
  · first | decide +kernel | (simp only [State.holds, State.sameBytes]; decide +kernel)
  · first | decide +kernel | (simp only [State.holds, State.sameBytes]; decide +kernel)
  · first | decide +kernel | (simp only [State.holds, State.sameBytes]; decide +kernel)
  · first | decide +kernel | (simp only [State.holds, State.sameBytes]; decide +kernel)
  · first | decide +kernel | (simp only [State.holds, State.sameBytes]; decide +kernel)
  · first | decide +kernel | (simp only [State.holds, State.sameBytes]; decide +kernel)

end Sys2Proof.Tests.C70b

namespace Sys2Proof.Tests.C70e

open Sys2Proof.Machine

def bad : State := { tWork with badLines := [((match tWork.place 0x100 with | some p => lineNo p.chan p.cl | none => 0), 1)] }

/-- Concrete inputs that meet the hypotheses of `Obligations.WindowsIntoTheModule`, clause by clause. -/
theorem witness_WindowsIntoTheModule_2 :
    (let s : State := bad;
     let off : ℕ := 256;
     let len : ℕ := 1;
     let l : List (ℕ × ℕ) := linePieces (len + 1) (s.bar2Dpa off) len;
     let shut : Prop := ∃ e ∈ l, s.dpaProtected e.1 = true;
     let moving : Option ℕ := (List.filterMap (fun (e : ℕ × ℕ) => s.rebalancing e.1) l).head?;
     let bad : Prop := ∃ e ∈ l, s.bar2Bad e.1 = true;
     let u : State := (s.bar2Lines l).1;
     0 < len ∧ len ≤ 4096 ∧ off + len ≤ 2 ^ 36 ∧ s.ready = true ∧ ¬shut ∧ moving = none ∧ ¬bad ∧ s.bar2Lines l = (u, none)) := by
  first | decide +kernel | (simp only [State.holds, State.sameBytes]; decide +kernel)

end Sys2Proof.Tests.C70e

namespace Sys2Proof.Tests.C75

open Sys2Proof.Machine

def ff (n : Nat) : List (BitVec 272) := (List.range n).map (fun i => BitVec.ofNat 272 i)
def a0 : State := tUp
def a1 : State := { tUp with hsSeq := [(256 + 2, 5)], hsFifo := [(256 + 2, ff 16)] }
def cm : Cmd := { q := 16, seq := 0, desc := tBytes 128 [(0,1,1),(2,2,0x80),(0x20,1,2),(0x22,1,0xFF)], ctx := 8, part := 3, started := true, issued := true }
def pw (cls op a b d imm : Nat) : BitVec 64 := BitVec.ofNat 64 (cls + op * 2^4 + a * 2^12 + b * 2^22 + d * 2^32 + imm * 2^52)
def V (r : Nat) : Nat := 0x100 + r
def L (r : Nat) : Nat := 0x100 + 40 + r
def run (c : CellSt) (s : State := tWork) : State := let c := { c with chan := [(0,1),(8,1),(9,1)] }
  { s with cells := [(0, { c with ended := false })] }
def rd1 : State := run { prog := [(0, pw 3 1 0 0 0 0)] }
def jp : State := run { prog := [(0, pw 3 2 0 0 0 7)] }
def br0 : State := run { prog := [(0, pw 3 3 0 0 0 (7 + 256 * 2))] }
def br1 : State := run { prog := [(0, pw 3 3 0 0 0 (7 + 256 * 2))], preg := [(2, 1)] }
def rp (n k : Nat) : State := run { prog := [(3, pw 3 4 (V 4) 0 0 1)], vreg := [(4, BitVec.ofNat 512 k)], reps := (if n = 0 then [] else [(3, n)]), pc := 3 }
def onSl (s : State) : State := { s with cmds := [(16, [cm])], slices := [(0, { ctx := some 8, cmd := some (16, 0), cfg := some (3, 2, 1), tile := some 4 })], moulds := [(3 * 64 + 2, { state := 2, serial := 1, image := tBytes 1024 [(0x0E,1,1),(0x0C,2,1),(0x100,2,6),(0x104,4,0x200),(0x200+0x1C,4,100)] })] }
def mv : State := onSl (run { prog := [(0, pw 2 1 (V 1) (V 2) (V 3) 0)] })
def tn (f : CellSt → CellSt := id) (op : Nat := 0) : State := onSl (run (f { prog := [(0, pw 0 op 0x200 0x202 (L 3) 0)], lacc := [(3, { a := 17 }), (4, { a := 2 })] }) { tWork with spad := Memory.write [] (spadAt 0 0) ((List.range 256).map (fun i => BitVec.ofNat 8 (i * 37))) })
def vo (op : Nat) : State := onSl (run { prog := [(0, pw 1 op (V 1) (V 2) (V 3) 0)], vreg := [(1, 0x3F8000003F800000), (2, 0x4000000040000000)] })
def tk (ctrl : Bool) (route : Nat) : BitVec 272 := token [1,2,3] route false ctrl 0
def re (o : Nat) : BitVec 64 := BitVec.ofNat 64 (o + 5 * 2^13)
def rt (l : Tab (List (BitVec 272))) (o : Tab (List (BitVec 272)) := []) (h : List Nat := []) : State := { run { routes := [(2, re 16), (3, re 17)], link := l, outCh := o } with halted := h }
def mvo : State := onSl (run { prog := [(0, pw 2 1 (V 1) (V 2) 0 0)] })
def rtl : State := { rt [(2, [tk false 2])] with cells := (rt [(2, [tk false 2])]).cells.map (fun e => (e.1, { e.2 with chan := [(0,1),(5,1),(8,1),(9,1)] })) }
def seamOf (line : Nat) : Nat := Config.seamChannel 192 line % 192
theorem a0_seamChan (line : Nat) : a0.seamChan line = some (seamOf line) := by
  have e : a0.seamChans = List.range 192 := by decide +kernel
  show a0.seamChans[_]? = _
  rw [e]
  have h : seamOf line < 192 := Nat.mod_lt _ (by decide)
  show (List.range 192)[Config.seamChannel (List.range 192).length line % (List.range 192).length]? = _
  rw [List.length_range]
  exact List.getElem?_range h
def noSeam : State := { tUp with capt := (List.range 192).map (fun c => (4 * 1024 + c, 2)) }
theorem noSeam_seamChan (line : Nat) : noSeam.seamChan line = none := by
  have e : noSeam.seamChans = [] := by decide +kernel
  show noSeam.seamChans[_]? = _
  rw [e]
  rfl

/-- Concrete inputs that meet the hypotheses of `Obligations.WordsOnTheFabric`, clause by clause. -/
theorem witness_WordsOnTheFabric :
    (let s : State := a0;
     let src : ℕ := 100;
     let dst : ℕ := 2;
     let k : ℕ := src * 256 + dst;
     let fifo : List (BitVec 272) := Tab.get [] s.hsFifo k;
     let open_ : Prop := islandHalf src = islandHalf dst ∧ ¬(dst ∈ s.halted ∧ 16 ≤ fifo.length);
     src < 193 ∧ dst < 193 ∧ ¬open_) ∧
    (let s : State := a0;
     let src : ℕ := 1;
     let dst : ℕ := 2;
     let seq : BitVec 16 := 0;
     let k : ℕ := src * 256 + dst;
     let fifo : List (BitVec 272) := Tab.get [] s.hsFifo k;
     let ahead : ℕ := seqAhead seq (Tab.get 0 s.hsSeq k);
     let open_ : Prop := islandHalf src = islandHalf dst ∧ ¬(dst ∈ s.halted ∧ 16 ≤ fifo.length);
     src < 193 ∧ dst < 193 ∧ open_ ∧ ahead = 0 ∧ fifo.length < 16) ∧
    (let s : State := a1;
     let src : ℕ := 1;
     let dst : ℕ := 2;
     let seq : BitVec 16 := 5;
     let k : ℕ := src * 256 + dst;
     let fifo : List (BitVec 272) := Tab.get [] s.hsFifo k;
     let ahead : ℕ := seqAhead seq (Tab.get 0 s.hsSeq k);
     let open_ : Prop := islandHalf src = islandHalf dst ∧ ¬(dst ∈ s.halted ∧ 16 ≤ fifo.length);
     src < 193 ∧ dst < 193 ∧ open_ ∧ ahead = 0 ∧ 16 ≤ fifo.length) ∧
    (let s : State := a0;
     let src : ℕ := 1;
     let dst : ℕ := 2;
     let seq : BitVec 16 := 5;
     let k : ℕ := src * 256 + dst;
     let fifo : List (BitVec 272) := Tab.get [] s.hsFifo k;
     let ahead : ℕ := seqAhead seq (Tab.get 0 s.hsSeq k);
     let open_ : Prop := islandHalf src = islandHalf dst ∧ ¬(dst ∈ s.halted ∧ 16 ≤ fifo.length);
     src < 193 ∧ dst < 193 ∧ open_ ∧ ahead ≠ 0 ∧ ahead < 2 ^ 15) ∧
    (let s : State := a0;
     let src : ℕ := 1;
     let dst : ℕ := 2;
     let seq : BitVec 16 := 36864;
     let k : ℕ := src * 256 + dst;
     let fifo : List (BitVec 272) := Tab.get [] s.hsFifo k;
     let ahead : ℕ := seqAhead seq (Tab.get 0 s.hsSeq k);
     let open_ : Prop := islandHalf src = islandHalf dst ∧ ¬(dst ∈ s.halted ∧ 16 ≤ fifo.length);
     src < 193 ∧ dst < 193 ∧ open_ ∧ 2 ^ 15 ≤ ahead) ∧
    (let src : ℕ := 1;
     let dst : ℕ := 2;
     src < 193 ∧ dst < 193) ∧
    (let s : State := a0;
     let line : ℕ := 0;
     let chan : ℕ := seamOf line;
     s.seamChan line = some chan) ∧
    (let dir : ℕ := 0;
     dir < 2) ∧
    (let s : State := noSeam;
     let dir : ℕ := 0;
     let line : ℕ := 0;
     dir < 2 ∧ s.seamChan line = none) ∧
    (let s : State := a0;
     let dir : ℕ := 0;
     let line : ℕ := 0;
     let seq : BitVec 16 := 5;
     let bad : ℕ := 2;
     let chan : ℕ := seamOf line;
     let k : ℕ := dir * 192 + chan;
     let ahead : ℕ := seqAhead seq (Tab.get 0 s.seamSeq k);
     dir < 2 ∧ s.seamChan line = some chan ∧ 2 ≤ bad ∧ ahead < 2 ^ 15) ∧
    (let s : State := a0;
     let dir : ℕ := 0;
     let line : ℕ := 0;
     let seq : BitVec 16 := 36864;
     let bad : ℕ := 2;
     let chan : ℕ := seamOf line;
     let k : ℕ := dir * 192 + chan;
     let ahead : ℕ := seqAhead seq (Tab.get 0 s.seamSeq k);
     dir < 2 ∧ s.seamChan line = some chan ∧ 2 ≤ bad ∧ 2 ^ 15 ≤ ahead) ∧
    (let s : State := a0;
     let dir : ℕ := 0;
     let line : ℕ := 0;
     let seq : BitVec 16 := 0;
     let bad : ℕ := 0;
     let chan : ℕ := seamOf line;
     let k : ℕ := dir * 192 + chan;
     let fifo : List (BitVec 256) := Tab.get [] s.seamFifo k;
     let ahead : ℕ := seqAhead seq (Tab.get 0 s.seamSeq k);
     dir < 2 ∧ s.seamChan line = some chan ∧ bad = 0 ∧ ahead = 0 ∧ fifo.length < 48) ∧
    (let s : State := a0;
     let dir : ℕ := 0;
     let line : ℕ := 0;
     let seq : BitVec 16 := 0;
     let bad : ℕ := 1;
     let chan : ℕ := seamOf line;
     let k : ℕ := dir * 192 + chan;
     let ahead : ℕ := seqAhead seq (Tab.get 0 s.seamSeq k);
     dir < 2 ∧ s.seamChan line = some chan ∧ bad = 1 ∧ ahead = 0) ∧
    (let s : State := a0;
     let dir : ℕ := 0;
     let line : ℕ := 0;
     let seq : BitVec 16 := 5;
     let bad : ℕ := 0;
     let chan : ℕ := seamOf line;
     let k : ℕ := dir * 192 + chan;
     let ahead : ℕ := seqAhead seq (Tab.get 0 s.seamSeq k);
     dir < 2 ∧ s.seamChan line = some chan ∧ bad = 0 ∧ ahead ≠ 0 ∧ ahead < 2 ^ 15) ∧
    (let s : State := a0;
     let dir : ℕ := 0;
     let line : ℕ := 0;
     let seq : BitVec 16 := 36864;
     let bad : ℕ := 0;
     let chan : ℕ := seamOf line;
     let k : ℕ := dir * 192 + chan;
     let ahead : ℕ := seqAhead seq (Tab.get 0 s.seamSeq k);
     dir < 2 ∧ s.seamChan line = some chan ∧ bad = 0 ∧ 2 ^ 15 ≤ ahead) := by
  refine ⟨?_, ?_, ?_, ?_, ?_, ?_, ?_, ?_, ?_, ?_, ?_, ?_, ?_, ?_, ?_⟩
  · first | decide +kernel | (simp only [State.holds, State.sameBytes]; decide +kernel)
  · first | decide +kernel | (simp only [State.holds, State.sameBytes]; decide +kernel)
  · first | decide +kernel | (simp only [State.holds, State.sameBytes]; decide +kernel)
  · first | decide +kernel | (simp only [State.holds, State.sameBytes]; decide +kernel)
  · first | decide +kernel | (simp only [State.holds, State.sameBytes]; decide +kernel)
  · first | decide +kernel | (simp only [State.holds, State.sameBytes]; decide +kernel)
  · exact a0_seamChan 0
  · first | decide +kernel | (simp only [State.holds, State.sameBytes]; decide +kernel)
  · exact ⟨by decide, noSeam_seamChan 0⟩
  · exact ⟨by decide, a0_seamChan 0, by decide +kernel⟩
  · exact ⟨by decide, a0_seamChan 0, by decide +kernel⟩
  · exact ⟨by decide, a0_seamChan 0, by decide +kernel⟩
  · exact ⟨by decide, a0_seamChan 0, by decide +kernel⟩
  · exact ⟨by decide, a0_seamChan 0, by decide +kernel⟩
  · exact ⟨by decide, a0_seamChan 0, by decide +kernel⟩

/-- Concrete inputs that meet the hypotheses of `Obligations.ControlInstructionsOfACell`, clause by clause. -/
theorem witness_ControlInstructionsOfACell :
    (let s : State := tWork;
     let core : ℕ := 0;
     let cell : ℕ := 0;
     let k : ℕ := cellKey core cell;
     let c : CellSt := s.atCell k;
     core < 8 ∧ cell < 4096 ∧ (s.cellRuns core cell = false ∨ c.control = none)) ∧
    (let s : State := jp;
     let core : ℕ := 0;
     let cell : ℕ := 0;
     let k : ℕ := cellKey core cell;
     let c : CellSt := s.atCell k;
     let i : ℕ := 0;
     core < 8 ∧ cell < 4096 ∧ c.control = some i ∧ (c.word i).op ≠ 1) ∧
    (let s : State := rd1;
     let core : ℕ := 0;
     let cell : ℕ := 0;
     let k : ℕ := cellKey core cell;
     let c : CellSt := s.atCell k;
     let i : ℕ := 0;
     core < 8 ∧ cell < 4096 ∧ c.control = some i ∧ (c.word i).op ≠ 2) ∧
    (let s : State := rd1;
     let core : ℕ := 0;
     let cell : ℕ := 0;
     let k : ℕ := cellKey core cell;
     let c : CellSt := s.atCell k;
     let i : ℕ := 0;
     core < 8 ∧ cell < 4096 ∧ c.control = some i ∧ (c.word i).op ≠ 3) ∧
    (let s : State := rd1;
     let core : ℕ := 0;
     let cell : ℕ := 0;
     let k : ℕ := cellKey core cell;
     let c : CellSt := s.atCell k;
     let i : ℕ := 0;
     core < 8 ∧ cell < 4096 ∧ c.control = some i ∧ (c.word i).op ≠ 4) ∧
    (let s : State := onSl rd1;
     let core : ℕ := 0;
     let cell : ℕ := 0;
     let k : ℕ := cellKey core cell;
     let c : CellSt := s.atCell k;
     let i : ℕ := 0;
     core < 8 ∧ cell < 4096 ∧ s.cellRuns core cell = true ∧ c.control = some i ∧ (c.word i).op = 1) ∧
    (let s : State := onSl jp;
     let core : ℕ := 0;
     let cell : ℕ := 0;
     let k : ℕ := cellKey core cell;
     let c : CellSt := s.atCell k;
     let i : ℕ := 0;
     core < 8 ∧ cell < 4096 ∧ s.cellRuns core cell = true ∧ c.control = some i ∧ (c.word i).op = 2) ∧
    (let s : State := onSl br1;
     let core : ℕ := 0;
     let cell : ℕ := 0;
     let k : ℕ := cellKey core cell;
     let c : CellSt := s.atCell k;
     let i : ℕ := 0;
     let taken : Prop := (Tab.get 0 c.preg ((c.word i).imm / 256 % 8)).toNat % 2 = 1;
     core < 8 ∧ cell < 4096 ∧ s.cellRuns core cell = true ∧ c.control = some i ∧ (c.word i).op = 3 ∧ taken) ∧
    (let s : State := onSl br0;
     let core : ℕ := 0;
     let cell : ℕ := 0;
     let k : ℕ := cellKey core cell;
     let c : CellSt := s.atCell k;
     let i : ℕ := 0;
     let taken : Prop := (Tab.get 0 c.preg ((c.word i).imm / 256 % 8)).toNat % 2 = 1;
     core < 8 ∧ cell < 4096 ∧ s.cellRuns core cell = true ∧ c.control = some i ∧ (c.word i).op = 3 ∧ ¬taken) ∧
    (let s : State := onSl (rp 0 0);
     let core : ℕ := 0;
     let cell : ℕ := 0;
     let k : ℕ := cellKey core cell;
     let c : CellSt := s.atCell k;
     let i : ℕ := 3;
     let left : ℕ := if Tab.get 0 c.reps i = 0 then c.count (c.word i).srcA else Tab.get 0 c.reps i - 1;
     core < 8 ∧ cell < 4096 ∧ s.cellRuns core cell = true ∧ c.control = some i ∧ (c.word i).op = 4 ∧ left = 0) ∧
    (let s : State := onSl (rp 0 3);
     let core : ℕ := 0;
     let cell : ℕ := 0;
     let k : ℕ := cellKey core cell;
     let c : CellSt := s.atCell k;
     let i : ℕ := 3;
     let left : ℕ := if Tab.get 0 c.reps i = 0 then c.count (c.word i).srcA else Tab.get 0 c.reps i - 1;
     core < 8 ∧ cell < 4096 ∧ s.cellRuns core cell = true ∧ c.control = some i ∧ (c.word i).op = 4 ∧ left ≠ 0) ∧
    (let s : State := mv;
     let core : ℕ := 0;
     let cell : ℕ := 0;
     let k : ℕ := cellKey core cell;
     let c : CellSt := s.atCell k;
     let slice : ℕ := cellSlice core cell;
     let slot : ℕ := 0;
     let cmd : Cmd := cm;
     core < 8 ∧
       cell < 4096 ∧
         s.sliceCmd slice = some cmd ∧
           s.cellRuns core cell = true ∧
             c.ready slot 2 = true ∧
               c.srcReady (c.word slot).srcA 1 = true ∧
                 c.srcReady (c.word slot).srcB 1 = true ∧
                   isChan (c.word slot).dst = false ∧ ∀ m < 4, (s.moverQueue core (slice % 4 * 4 + m)).length < 32) ∧
    (let s : State := mvo;
     let core : ℕ := 0;
     let cell : ℕ := 0;
     let k : ℕ := cellKey core cell;
     let c : CellSt := s.atCell k;
     let slice : ℕ := cellSlice core cell;
     let slot : ℕ := 0;
     let cmd : Cmd := cm;
     let i : ℕ := 0;
     core < 8 ∧ cell < 4096 ∧ s.sliceCmd slice = some cmd ∧ s.cellRuns core cell = true ∧ c.ready slot 2 = true ∧ c.srcReady (c.word slot).srcA 1 = true ∧
       c.srcReady (c.word slot).srcB 1 = true ∧ operandOf (c.word slot).dst = .chan i ∧ (c.outQ i).length < 4 ∧ ∀ j < 4, c.wired (8 + j) 1 = false) := by
  refine ⟨?_, ?_, ?_, ?_, ?_, ?_, ?_, ?_, ?_, ?_, ?_, ?_, ?_⟩
  · first | decide +kernel | (simp only [State.holds, State.sameBytes]; decide +kernel)
  · first | decide +kernel | (simp only [State.holds, State.sameBytes]; decide +kernel)
  · first | decide +kernel | (simp only [State.holds, State.sameBytes]; decide +kernel)
  · first | decide +kernel | (simp only [State.holds, State.sameBytes]; decide +kernel)
  · first | decide +kernel | (simp only [State.holds, State.sameBytes]; decide +kernel)
  · first | decide +kernel | (simp only [State.holds, State.sameBytes]; decide +kernel)
  · first | decide +kernel | (simp only [State.holds, State.sameBytes]; decide +kernel)
  · first | decide +kernel | (simp only [State.holds, State.sameBytes]; decide +kernel)
  · first | decide +kernel | (simp only [State.holds, State.sameBytes]; decide +kernel)
  · first | decide +kernel | (simp only [State.holds, State.sameBytes]; decide +kernel)
  · first | decide +kernel | (simp only [State.holds, State.sameBytes]; decide +kernel)
  · first | decide +kernel | (simp only [State.holds, State.sameBytes]; decide +kernel)
  · first | decide +kernel | (simp only [State.holds, State.sameBytes]; decide +kernel)

/-- Concrete inputs that meet the hypotheses of `Obligations.UnitsOfACellFire`, clause by clause. -/
theorem witness_UnitsOfACellFire :
    (let s : State := tn;
     let core : ℕ := 0;
     let cell : ℕ := 0;
     let k : ℕ := cellKey core cell;
     let c : CellSt := s.atCell k;
     let slice : ℕ := cellSlice core cell;
     let slot : ℕ := 1;
     let x : PWord := c.word slot;
     core < 8 ∧
       cell < 4096 ∧
         (s.cellRuns core cell = false ∨
           c.ready slot 0 = false ∨
             c.srcReady x.srcA 1 = false ∨
               c.srcReady x.srcB 1 = false ∨ c.dstReady x.dst (outToks (s.siteOut slice x.imm)) = false)) ∧
    (let s : State := tn;
     let core : ℕ := 0;
     let cell : ℕ := 0;
     let k : ℕ := cellKey core cell;
     let c : CellSt := s.atCell k;
     let slice : ℕ := cellSlice core cell;
     let slot : ℕ := 0;
     let x : PWord := c.word slot;
     core < 8 ∧
       cell < 4096 ∧
         s.cellRuns core cell = true ∧
           c.ready slot 0 = true ∧
             c.srcReady x.srcA 1 = true ∧
               c.srcReady x.srcB 1 = true ∧
                 c.dstReady x.dst (outToks (s.siteOut slice x.imm)) = true ∧
                   (pairOf (x.op % 16)).isSome = true) ∧
    (let s : State := tn;
     let core : ℕ := 0;
     let cell : ℕ := 0;
     let k : ℕ := cellKey core cell;
     let c : CellSt := s.atCell k;
     let slice : ℕ := cellSlice core cell;
     let slot : ℕ := 0;
     let x : PWord := c.word slot;
     let r : ℕ := 3;
     let pr : Fmt × Fmt := (Fmt.b4, Fmt.b4);
     core < 8 ∧
       cell < 4096 ∧
         s.cellRuns core cell = true ∧
           c.ready slot 0 = true ∧
             c.srcReady x.srcA 1 = true ∧
               c.srcReady x.srcB 1 = true ∧
                 c.dstReady x.dst (outToks (s.siteOut slice x.imm)) = true ∧
                   operandOf x.dst = OperandRef.lacc r ∧
                     pairOf (x.op % 16) = some pr ∧ x.op % 16 < 9) ∧
    (let s : State := tn;
     let core : ℕ := 0;
     let cell : ℕ := 0;
     let k : ℕ := cellKey core cell;
     let c : CellSt := s.atCell k;
     let slice : ℕ := cellSlice core cell;
     let slot : ℕ := 0;
     let x : PWord := c.word slot;
     core < 8 ∧
       cell < 4096 ∧
         (s.cellRuns core cell = false ∨
           c.ready slot 1 = false ∨
             c.srcReady x.srcA (vectorToks x.op) = false ∨
               c.srcReady x.srcB (vectorToks x.op) = false ∨ c.dstReady x.dst (s.vectorRoom slice x) = false)) ∧
    (let s : State := onSl (vo 0);
     let core : ℕ := 0;
     let cell : ℕ := 0;
     let k : ℕ := cellKey core cell;
     let c : CellSt := s.atCell k;
     let slice : ℕ := cellSlice core cell;
     let slot : ℕ := 0;
     let x : PWord := c.word slot;
     core < 8 ∧
       cell < 4096 ∧
         s.cellRuns core cell = true ∧
           c.ready slot 1 = true ∧
             c.srcReady x.srcA (vectorToks x.op) = true ∧
               c.srcReady x.srcB (vectorToks x.op) = true ∧ c.dstReady x.dst (s.vectorRoom slice x) = true) ∧
    (let s : State := tn;
     let core : ℕ := 0;
     let cell : ℕ := 0;
     let k : ℕ := cellKey core cell;
     let c : CellSt := s.atCell k;
     let port : ℕ := 0;
     let vc : ℕ := 0;
     core < 8 ∧ cell < 4096 ∧ port < 5 ∧ vc < 2 ∧ c.portHead port vc = none) ∧
    (let s : State := rt [(2, [tk false 2]), (3, [tk true 3])];
     let core : ℕ := 0;
     let cell : ℕ := 0;
     let k : ℕ := cellKey core cell;
     let c : CellSt := s.atCell k;
     let port : ℕ := 1;
     let vc : ℕ := 0;
     let t : BitVec 272 := tk false 2;
     let i : ℕ := 0;
     core < 8 ∧ cell < 4096 ∧ port < 5 ∧ vc < 2 ∧ c.portHead port vc = some (t, i) ∧ vc = 0 ∧ (c.portHead port 1).isSome = true) ∧
    (let s : State := rt [(2, [tk false 2])];
     let core : ℕ := 0;
     let cell : ℕ := 0;
     let k : ℕ := cellKey core cell;
     let c : CellSt := s.atCell k;
     let port : ℕ := 1;
     let vc : ℕ := 0;
     let t : BitVec 272 := tk false 2;
     let i : ℕ := 0;
     let e : ℕ := (Tab.get 0 c.routes (tokRoute t)).toNat;
     core < 8 ∧
       cell < 4096 ∧
         port < 5 ∧
           vc < 2 ∧
             c.portHead port vc = some (t, i) ∧
               cellIsland core cell ∉ s.halted ∧
                 (vc = 1 ∨ c.portHead port 1 = none) ∧
                   onesBelow 5 (rOut e) = [4] ∧
                     (c.wired (localChan e t) 0 = false ∨ 4 ≤ (c.inQ (localChan e t)).length)) ∧
    (let s : State := rtl;
     let core : ℕ := 0;
     let cell : ℕ := 0;
     let c : CellSt := s.atCell (cellKey core cell);
     let port : ℕ := 1;
     let vc : ℕ := 0;
     let t : BitVec 272 := tk false 2;
     let i : ℕ := 0;
     let e : ℕ := (Tab.get 0 c.routes (tokRoute t)).toNat;
     core < 8 ∧ cell < 4096 ∧ port < 5 ∧ vc < 2 ∧ c.portHead port vc = some (t, i) ∧ cellIsland core cell ∉ s.halted ∧ (vc = 1 ∨ c.portHead port 1 = none) ∧
       onesBelow 5 (rOut e) = [4] ∧ c.wired (localChan e t) 0 = true ∧ (c.inQ (localChan e t)).length < 4) := by
  refine ⟨?_, ?_, ?_, ?_, ?_, ?_, ?_, ?_, ?_⟩
  · first | decide +kernel | (simp only [State.holds, State.sameBytes]; decide +kernel)
  · first | decide +kernel | (simp only [State.holds, State.sameBytes]; decide +kernel)
  · first | decide +kernel | (simp only [State.holds, State.sameBytes]; decide +kernel)
  · first | decide +kernel | (simp only [State.holds, State.sameBytes]; decide +kernel)
  · first | decide +kernel | (simp only [State.holds, State.sameBytes]; decide +kernel)
  · first | decide +kernel | (simp only [State.holds, State.sameBytes]; decide +kernel)
  · first | decide +kernel | (simp only [State.holds, State.sameBytes]; decide +kernel)
  · first | decide +kernel | (simp only [State.holds, State.sameBytes]; decide +kernel)
  · first | decide +kernel | (simp only [State.holds, State.sameBytes]; decide +kernel)

end Sys2Proof.Tests.C75

namespace Sys2Proof.Tests.C75b

open Sys2Proof.Machine

def cm : Cmd := { q := 16, seq := 0, desc := tBytes 128 [(0,1,1),(2,2,0x80),(0x20,1,2),(0x22,1,0xFF)], ctx := 8, part := 3, started := true, issued := true, ranges := [{}, { addr := 0x1000, len := 0x4000, need := 3 }, { addr := 0x1000, len := 0x4000, need := 3, loc := 1 }, { addr := 0x1000, len := 0x4000, need := 3, loc := 2 }] }
def wk : State := { tWork with cmds := [(16, [cm])], slices := [(0, { cmd := some (16, 0), ctx := some 8 })] }
def r0 : LineRead := ⟨16, 0, 3, 0, 7, 8, 0⟩
def r1 : LineRead := ⟨16, 0, 3, 2, 7, 8, 0⟩
def r3 : LineRead := ⟨16, 0, 9, 1, 7, 8, 0⟩
def r4 : LineRead := ⟨16, 0, 3, 0, 7, 8, 1⟩
def e1 (loc n : Nat) : Merge := { loc := loc, line := 16, key := 0, part := 3, dests := (List.range n).map (fun i => .cell (i + 1)) }
def mg (e : Merge) : State := { wk with cores := [(0, { merge := [e] })] }
def full : State := { wk with cores := [(0, { merge := (List.range 512).map (fun i => { e1 0 1 with line := 600 + i }) })] }
def rq (op : Nat) (core : Nat := 1) : MoverReq := { op := op, q := 16, seq := 0, ctx := 8, range := 1, share := 0, lines := 2, cell := 3, sline := 4, group := 1, core := core, route := 100, islands := 0xFFFF, dev := 2 }
def mv (r : MoverReq) : State := { wk with cores := [(0, { movers := [(0, [r])] })], share := Memory.write [] (shareAt 0 4) ([1, 2]), slices := [(0, { cmd := some (16, 0), ctx := some 8, groups := [(0, (List.replicate 256 0).set 4 3 |>.set 6 5)] })] }
def dn (r : MoverReq) : State := { mv r with cores := [(0, { movers := [(0, [{ r with done := true }, rq 2])] })] }
def rd (s : State) (a : Nat) (n : Nat) : State × Bytes := match s.devRead 0 a n with
  | (u, .inr b) => (u, b)
  | (u, _) => (u, [])
def g1 : Range := { addr := 0x1000, len := 0x4000, need := 3 }

/-- Concrete inputs that meet the hypotheses of `Obligations.SharedStoreAndMovers`, clause by clause. -/
theorem witness_SharedStoreAndMovers :
    (let s : State := mg (e1 0 1);
     let core : ℕ := 0;
     let m : ℕ := 0;
     let r : LineRead := r0;
     let l : List Merge := (s.atCore core).merge;
     let hit : Option Merge :=
       List.find? (fun (e : Merge) => e.isOpen && e.loc == r.loc && e.line == r.line && e.key == r.key && e.part == r.part) l;
     let e : Merge := e1 0 1;
     core < 8 ∧
       m < 16 ∧
         r.loc < 2 ∧
           (r.loc = 1 → s.sliceOwner (r.line / 32768) = some r.part) ∧
             (r.loc = 0 →
                 s.cellStrays (cellSlice core r.dest) r = none ∧
                   (s.place (256 * r.line)).isSome = true ∧ Tab.get 0 s.gens r.ctx = r.gen) ∧
               hit = some e) ∧
    (let s : State := wk;
     let core : ℕ := 0;
     let m : ℕ := 0;
     let r : LineRead := r0;
     let l : List Merge := (s.atCore core).merge;
     let hit : Option Merge :=
       List.find? (fun (e : Merge) => e.isOpen && e.loc == r.loc && e.line == r.line && e.key == r.key && e.part == r.part) l;
     core < 8 ∧
       m < 16 ∧
         r.loc < 2 ∧
           (r.loc = 1 → s.sliceOwner (r.line / 32768) = some r.part) ∧
             (r.loc = 0 →
                 s.cellStrays (cellSlice core r.dest) r = none ∧
                   (s.place (256 * r.line)).isSome = true ∧ Tab.get 0 s.gens r.ctx = r.gen) ∧
               hit = none ∧ l.length < 512) ∧
    (let s : State := full;
     let core : ℕ := 0;
     let m : ℕ := 0;
     let r : LineRead := r0;
     let l : List Merge := (s.atCore core).merge;
     let hit : Option Merge :=
       List.find? (fun (e : Merge) => e.isOpen && e.loc == r.loc && e.line == r.line && e.key == r.key && e.part == r.part) l;
     core < 8 ∧
       m < 16 ∧
         r.loc < 2 ∧
           (r.loc = 1 → s.sliceOwner (r.line / 32768) = some r.part) ∧
             (r.loc = 0 →
                 s.cellStrays (cellSlice core r.dest) r = none ∧
                   (s.place (256 * r.line)).isSome = true ∧ Tab.get 0 s.gens r.ctx = r.gen) ∧
               hit = none ∧ 512 ≤ l.length) ∧
    (let core : ℕ := 0;
     let m : ℕ := 0;
     let r : LineRead := r1;
     core < 8 ∧ m < 16 ∧ 2 ≤ r.loc) ∧
    (let s : State := wk;
     let core : ℕ := 0;
     let m : ℕ := 0;
     let r : LineRead := r3;
     let q : ℕ := 16;
     let n : ℕ := 0;
     core < 8 ∧
       m < 16 ∧
         r.loc = 1 ∧ s.sliceOwner (r.line / 32768) ≠ some r.part ∧ (s.atSlice (cellSlice core r.dest)).cmd = some (q, n)) ∧
    (let s : State := wk;
     let core : ℕ := 0;
     let m : ℕ := 0;
     let r : LineRead := r4;
     let p : Place := (wk.place 4096).getD { chan := 0, cl := 0, byte := 0 };
     core < 8 ∧
       m < 16 ∧
         r.loc = 0 ∧
           s.cellStrays (cellSlice core r.dest) r = none ∧
             s.place (256 * r.line) = some p ∧ Tab.get 0 s.gens r.ctx ≠ r.gen) ∧
    (let s : State := wk;
     let core : ℕ := 0;
     let m : ℕ := 0;
     let loc : ℕ := 0;
     let line : ℕ := 16;
     let key : ℕ := 0;
     let part : ℕ := 3;
     let hit : Option Merge :=
       List.find? (fun (e : Merge) => e.loc == loc && e.line == line && e.key == key && e.part == part) (s.atCore core).merge;
     let spare : Option Merge :=
       List.find? (fun (e : Merge) => e.loc == loc && e.line == line && e.key == key && e.part == part) (s.atCore core).loose;
     core < 8 ∧ m < 16 ∧ hit = none ∧ spare = none) ∧
    (let s : State := mg (e1 1 1);
     let core : ℕ := 0;
     let m : ℕ := 0;
     let loc : ℕ := 1;
     let line : ℕ := 16;
     let key : ℕ := 0;
     let part : ℕ := 3;
     let hit : Option Merge :=
       List.find? (fun (e : Merge) => e.loc == loc && e.line == line && e.key == key && e.part == part) (s.atCore core).merge;
     let spare : Option Merge :=
       List.find? (fun (e : Merge) => e.loc == loc && e.line == line && e.key == key && e.part == part) (s.atCore core).loose;
     let e : Merge := e1 1 1;
     core < 8 ∧ m < 16 ∧ (hit = some e ∨ hit = none ∧ spare = some e) ∧ loc = 1) ∧
    (let s : State := mg (e1 0 1);
     let core : ℕ := 0;
     let m : ℕ := 0;
     let loc : ℕ := 0;
     let line : ℕ := 16;
     let key : ℕ := 0;
     let part : ℕ := 3;
     let hit : Option Merge :=
       List.find? (fun (e : Merge) => e.loc == loc && e.line == line && e.key == key && e.part == part) (s.atCore core).merge;
     let spare : Option Merge :=
       List.find? (fun (e : Merge) => e.loc == loc && e.line == line && e.key == key && e.part == part) (s.atCore core).loose;
     let e : Merge := e1 0 1;
     let t : State :=
       if hit = none then
         ((s.beat 1 core).setMerge core ((s.atCore core).merge.erase e)).updCore core fun (c : CoreSt) =>
           { merge := c.merge, loose := c.loose.erase e, movers := c.movers, dropped := c.dropped }
       else (s.beat 1 core).setMerge core ((s.atCore core).merge.erase e);
     let u : State := (rd (((mg (e1 0 1)).beat 1 0).setMerge 0 []) (16 * 256) 256).1;
     let b : Bytes := List.replicate 256 0;
     core < 8 ∧ m < 16 ∧ (hit = some e ∨ hit = none ∧ spare = some e) ∧ loc ≠ 1 ∧ t.devRead key (line * 256) 256 = (u, Sum.inr b)) ∧
    (let s : State := mv (rq 0);
     let core : ℕ := 0;
     let m : ℕ := 0;
     let r : MoverReq := rq 0;
     let c : Cmd := cm;
     let g : Range := g1;
     core < 8 ∧ m < 16 ∧ s.moverHead core m 0 = some r ∧ s.moverAdmit core m r true = (s, some (c, g)) ∧ g.loc = 0) ∧
    (let s : State :=
       mv
         { rq 0 with range := 2, sent := 2 };
     let core : ℕ := 0;
     let m : ℕ := 0;
     let r : MoverReq :=
       { rq 0 with range := 2, sent := 2 };
     let c : Cmd := cm;
     let g : Range :=
       { g1 with loc := 1 };
     core < 8 ∧
       m < 16 ∧
         s.moverHead core m 0 = some r ∧
           s.moverAdmit core m r true = (s, some (c, g)) ∧ g.loc ≠ 0 ∧ (r.sent ≠ 0 ∨ c.retrans = true)) ∧
    (let s : State :=
       mv
         { rq 0 with range := 2 };
     let core : ℕ := 0;
     let m : ℕ := 0;
     let r : MoverReq :=
       { rq 0 with range := 2 };
     let c : Cmd := cm;
     let g : Range :=
       { g1 with loc := 1 };
     core < 8 ∧
       m < 16 ∧
         s.moverHead core m 0 = some r ∧ s.moverAdmit core m r true = (s, some (c, g)) ∧ g.loc = 1 ∧ r.sent = 0 ∧ c.retrans = false) ∧
    (let s : State :=
       mv
         { rq 0 with range := 3 };
     let core : ℕ := 0;
     let m : ℕ := 0;
     let r : MoverReq :=
       { rq 0 with range := 3 };
     let c : Cmd := cm;
     let g : Range :=
       { g1 with loc := 2 };
     core < 8 ∧
       m < 16 ∧
         s.moverHead core m 0 = some r ∧ s.moverAdmit core m r true = (s, some (c, g)) ∧ 2 ≤ g.loc ∧ r.sent = 0 ∧ c.retrans = false) ∧
    (let s : State := mv (rq 1);
     let core : ℕ := 0;
     let m : ℕ := 0;
     let r : MoverReq := rq 1;
     let c : Cmd := cm;
     let g : Range := g1;
     core < 8 ∧
       m < 16 ∧ s.moverHead core m 1 = some r ∧ s.moverAdmit core m r true = (s, some (c, g)) ∧ (g.loc = 1 → c.retrans = false)) ∧
    (let s : State := mv (rq 2);
     let core : ℕ := 0;
     let m : ℕ := 0;
     let r : MoverReq := rq 2;
     let cg : Cmd × Range := (cm, g1);
     core < 8 ∧ m < 16 ∧ s.moverHead core m 2 = some r ∧ s.moverAdmit core m r false = (s, some cg)) ∧
    (let s : State := mv (rq 3);
     let core : ℕ := 0;
     let m : ℕ := 0;
     let r : MoverReq := rq 3;
     let c : Cmd := cm;
     let g : Range := g1;
     core < 8 ∧ m < 16 ∧ s.moverHead core m 3 = some r ∧ s.moverAdmit core m r false = (s, some (c, g))) ∧
    (let s : State := mv (rq 4);
     let core : ℕ := 0;
     let m : ℕ := 0;
     let r : MoverReq := rq 4;
     let cg : Cmd × Range := (cm, g1);
     core < 8 ∧ m < 16 ∧ s.moverHead core m 4 = some r ∧ s.moverAdmit core m r false = (s, some cg)) ∧
    (let s : State := mv (rq 5);
     let core : ℕ := 0;
     let m : ℕ := 0;
     let r : MoverReq := rq 5;
     let c : Cmd := cm;
     let g : Range := g1;
     core < 8 ∧
       m < 16 ∧
         s.moverHead core m 5 = some r ∧ s.moverAdmit core m r false = (s, some (c, g)) ∧ s.sliceOwner r.core = some c.part) ∧
    (let s : State := mv (rq 5 9);
     let core : ℕ := 0;
     let m : ℕ := 0;
     let r : MoverReq := rq 5 9;
     let c : Cmd := cm;
     let g : Range := g1;
     core < 8 ∧
       m < 16 ∧
         s.moverHead core m 5 = some r ∧ s.moverAdmit core m r false = (s, some (c, g)) ∧ s.sliceOwner r.core ≠ some c.part) ∧
    (let s : State := mv (rq 6);
     let core : ℕ := 0;
     let m : ℕ := 0;
     let r : MoverReq := rq 6;
     s.moverHead core m 6 = some r) ∧
    (let s : State := mv (rq 7);
     let core : ℕ := 0;
     let m : ℕ := 0;
     let r : MoverReq := rq 7;
     s.moverHead core m 7 = some r) ∧
    (let s : State := mv (rq 0);
     let core : ℕ := 0;
     let m : ℕ := 0;
     let r : MoverReq := rq 0;
     let rest : List MoverReq := [];
     core < 8 ∧ m < 16 ∧ s.moverQueue core m = r :: rest ∧ r.done = false) ∧
    (let s : State := dn (rq 2);
     let core : ℕ := 0;
     let m : ℕ := 0;
     let r : MoverReq :=
       { rq 2 with done := true };
     let rest : List MoverReq := [rq 2];
     core < 8 ∧ m < 16 ∧ s.moverQueue core m = r :: rest ∧ r.done = true ∧ r.op ≠ 6 ∧ r.op ≠ 7) ∧
    (let s : State := mv (rq 0);
     let core : ℕ := 0;
     let m : ℕ := 0;
     let r : MoverReq := rq 0;
     let rest : List MoverReq := [];
     core < 8 ∧ m < 16 ∧ s.moverQueue core m = r :: rest ∧ 64 ≤ r.route) ∧
    (let s : State := dn (rq 7);
     let core : ℕ := 0;
     let m : ℕ := 0;
     let r : MoverReq :=
       { rq 7 with done := true };
     let rest : List MoverReq := [rq 2];
     core < 8 ∧ m < 16 ∧ s.moverQueue core m = r :: rest ∧ r.done = true ∧ r.op = 7) ∧
    (let s : State := dn (rq 6);
     let core : ℕ := 0;
     let m : ℕ := 0;
     let r : MoverReq :=
       { rq 6 with done := true };
     let rest : List MoverReq := [rq 2];
     core < 8 ∧ m < 16 ∧ s.moverQueue core m = r :: rest ∧ r.done = true ∧ r.op = 6) ∧
    (let s : State := mv (rq 0);
     let core : ℕ := 0;
     let m : ℕ := 0;
     let n : ℕ := 0;
     core < 8 ∧ m < 16 ∧ n < 32 ∧ s.isQuiescent n = false) ∧
    (let s : State := wk;
     let core : ℕ := 0;
     let m : ℕ := 0;
     let n : ℕ := 0;
     core < 8 ∧ m < 16 ∧ n < 32 ∧ s.isQuiescent n = true) ∧
    (let s : State := wk;
     let core : ℕ := 0;
     let m : ℕ := 0;
     let mm : Bool := true;
     let r : MoverReq := rq 0;
     let c : Cmd := cm;
     core < 8 ∧
       m < 16 ∧
         s.cmd? r.q r.seq = some c ∧
           s.sliceOwner r.share = some c.part ∧
             (mm = true →
               ((c.ranges.getD r.range { }).loc = 0 → Tab.get 0 s.gens r.ctx = r.gen) ∧
                 r.addr + 256 * r.lines ≤ (c.ranges.getD r.range { }).len)) := by
  refine ⟨?_, ?_, ?_, ?_, ?_, ?_, ?_, ?_, ?_, ?_, ?_, ?_, ?_, ?_, ?_, ?_, ?_, ?_, ?_, ?_, ?_, ?_, ?_, ?_, ?_, ?_, ?_, ?_, ?_⟩
  · first | decide +kernel | (simp only [State.holds, State.sameBytes]; decide +kernel)
  · first | decide +kernel | (simp only [State.holds, State.sameBytes]; decide +kernel)
  · first | decide +kernel | (simp only [State.holds, State.sameBytes]; decide +kernel)
  · first | decide +kernel | (simp only [State.holds, State.sameBytes]; decide +kernel)
  · first | decide +kernel | (simp only [State.holds, State.sameBytes]; decide +kernel)
  · first | decide +kernel | (simp only [State.holds, State.sameBytes]; decide +kernel)
  · first | decide +kernel | (simp only [State.holds, State.sameBytes]; decide +kernel)
  · first | decide +kernel | (simp only [State.holds, State.sameBytes]; decide +kernel)
  · first | decide +kernel | (simp only [State.holds, State.sameBytes]; decide +kernel)
  · first | decide +kernel | (simp only [State.holds, State.sameBytes]; decide +kernel)
  · first | decide +kernel | (simp only [State.holds, State.sameBytes]; decide +kernel)
  · first | decide +kernel | (simp only [State.holds, State.sameBytes]; decide +kernel)
  · first | decide +kernel | (simp only [State.holds, State.sameBytes]; decide +kernel)
  · first | decide +kernel | (simp only [State.holds, State.sameBytes]; decide +kernel)
  · first | decide +kernel | (simp only [State.holds, State.sameBytes]; decide +kernel)
  · first | decide +kernel | (simp only [State.holds, State.sameBytes]; decide +kernel)
  · first | decide +kernel | (simp only [State.holds, State.sameBytes]; decide +kernel)
  · first | decide +kernel | (simp only [State.holds, State.sameBytes]; decide +kernel)
  · first | decide +kernel | (simp only [State.holds, State.sameBytes]; decide +kernel)
  · first | decide +kernel | (simp only [State.holds, State.sameBytes]; decide +kernel)
  · first | decide +kernel | (simp only [State.holds, State.sameBytes]; decide +kernel)
  · first | decide +kernel | (simp only [State.holds, State.sameBytes]; decide +kernel)
  · first | decide +kernel | (simp only [State.holds, State.sameBytes]; decide +kernel)
  · first | decide +kernel | (simp only [State.holds, State.sameBytes]; decide +kernel)
  · first | decide +kernel | (simp only [State.holds, State.sameBytes]; decide +kernel)
  · first | decide +kernel | (simp only [State.holds, State.sameBytes]; decide +kernel)
  · first | decide +kernel | (simp only [State.holds, State.sameBytes]; decide +kernel)
  · first | decide +kernel | (simp only [State.holds, State.sameBytes]; decide +kernel)
  · first | decide +kernel | (simp only [State.holds, State.sameBytes]; decide +kernel)

end Sys2Proof.Tests.C75b

namespace Sys2Proof.Tests.C80b

open Sys2Proof.Machine

def up1 : State := tUp
def notReady : State := { tUp with ready := false }
def sess : State := { tUp with mgmt := { tUp.mgmt with session := some (0, 1, 16), sessionData := [1,2,3] } }

/-- Concrete inputs that meet the hypotheses of `Obligations.MailboxRequests`, clause by clause. -/
theorem witness_MailboxRequests :
    (let s : State := notReady;
     let src : ℕ := 1;
     let tag : Word := 0;
     let c : Instr := Instr.getStatus src tag;
     src ≤ 1 ∧
       c ∈
           [Instr.getStatus src tag, Instr.setCap src tag 0 0, Instr.readTelemetry src tag,
             Instr.fwBegin src tag 0 0, Instr.fwData src tag 0 [], Instr.fwEnd src tag,
             Instr.retireClear src tag 0 0, Instr.deviceReset src tag] ∧
         (s.mbxReached src = false ∨ s.mbxBusy src = true)) ∧
    (let s : State := up1;
     let src : ℕ := 0;
     src ≤ 1 ∧ s.mbxReached src = true ∧ s.mbxBusy src = false ∧ s.ready = true) ∧
    (let s : State := up1;
     let src : ℕ := 0;
     let watts : ℕ := 0;
     let window : ℕ := 0;
     src ≤ 1 ∧ s.mbxReached src = true ∧ s.mbxBusy src = false ∧ s.ready = true ∧ watts < 2 ^ 16 ∧ window < 2 ^ 8 ∧ src = 0) ∧
    (let s : State := up1;
     let src : ℕ := 1;
     let watts : ℕ := 0;
     let window : ℕ := 0;
     src ≤ 1 ∧ s.mbxReached src = true ∧ s.mbxBusy src = false ∧ s.ready = true ∧ watts < 2 ^ 16 ∧ window < 2 ^ 8 ∧ src = 1) ∧
    (let s : State := up1;
     let src : ℕ := 0;
     src ≤ 1 ∧ s.mbxReached src = true ∧ s.mbxBusy src = false ∧ s.ready = true ∧ src = 0) ∧
    (let s : State := up1;
     let src : ℕ := 1;
     src ≤ 1 ∧ s.mbxReached src = true ∧ s.mbxBusy src = false ∧ s.ready = true ∧ src = 1) ∧
    (let s : State := up1;
     let src : ℕ := 0;
     let stage : ℕ := 0;
     let size : ℕ := 0;
     src ≤ 1 ∧ s.mbxReached src = true ∧ s.mbxBusy src = false ∧ s.ready = true ∧ stage < 2 ^ 8 ∧ size < 2 ^ 32) ∧
    (let s : State := up1;
     let src : ℕ := 0;
     let type : ℕ := 1;
     let idx : ℕ := 0;
     src ≤ 1 ∧ s.mbxReached src = true ∧ s.mbxBusy src = false ∧ s.ready = true ∧ type < 2 ^ 8 ∧ idx < 2 ^ 16) ∧
    (let s : State := up1;
     let src : ℕ := 0;
     let off : ℕ := 0;
     let data : Bytes := [];
     src ≤ 1 ∧ s.mbxReached src = true ∧ s.mbxBusy src = false ∧ s.ready = true ∧ off < 2 ^ 32 ∧ List.length data ≤ 1008) ∧
    (let s : State := up1;
     let src : ℕ := 0;
     let off : ℕ := 0;
     let data : Bytes := List.replicate 1009 1;
     src ≤ 1 ∧
       s.mbxReached src = true ∧ s.mbxBusy src = false ∧ s.ready = true ∧ off < 2 ^ 32 ∧ 1008 < List.length data ∧ List.length data ≤ 1012) ∧
    (let s : State := notReady;
     let src : ℕ := 0;
     src ≤ 1 ∧ src = 0 ∧ s.mbxReached 0 = true ∧ s.mbxBusy 0 = false ∧ s.ready = false) ∧
    (let s : State := up1;
     s.mgmt.session = none) ∧
    (let s : State := sess;
     let src : ℕ := 0;
     let stage : ℕ := 1;
     let size : ℕ := 16;
     s.mgmt.session = some (src, stage, size)) ∧
    (let s : State := State.reset;
     s.mbxReached 0 = false) ∧
    (let s : State := up1;
     s.mbxReached 0 = true ∧ s.mgmt.alarm < 2 ^ 32) := by
  refine ⟨?_, ?_, ?_, ?_, ?_, ?_, ?_, ?_, ?_, ?_, ?_, ?_, ?_, ?_, ?_⟩
  · first | decide +kernel | (simp only [State.holds, State.sameBytes]; decide +kernel)
  · first | decide +kernel | (simp only [State.holds, State.sameBytes]; decide +kernel)
  · first | decide +kernel | (simp only [State.holds, State.sameBytes]; decide +kernel)
  · first | decide +kernel | (simp only [State.holds, State.sameBytes]; decide +kernel)
  · first | decide +kernel | (simp only [State.holds, State.sameBytes]; decide +kernel)
  · first | decide +kernel | (simp only [State.holds, State.sameBytes]; decide +kernel)
  · first | decide +kernel | (simp only [State.holds, State.sameBytes]; decide +kernel)
  · first | decide +kernel | (simp only [State.holds, State.sameBytes]; decide +kernel)
  · first | decide +kernel | (simp only [State.holds, State.sameBytes]; decide +kernel)
  · first | decide +kernel | (simp only [State.holds, State.sameBytes]; decide +kernel)
  · first | decide +kernel | (simp only [State.holds, State.sameBytes]; decide +kernel)
  · first | decide +kernel | (simp only [State.holds, State.sameBytes]; decide +kernel)
  · first | decide +kernel | (simp only [State.holds, State.sameBytes]; decide +kernel)
  · first | decide +kernel | (simp only [State.holds, State.sameBytes]; decide +kernel)
  · first | decide +kernel | (simp only [State.holds, State.sameBytes]; decide +kernel)

end Sys2Proof.Tests.C80b
end

section
/-! SUPPORT. The state that reset leaves, and what the byte memories hold. -/

namespace Sys2Proof.Machine

open Sys2Proof

/-- The reset word of the register at offset `o` of a page of kind `p`; zero where the page names none. -/
def resetAt (p : Pg) (o : Nat) : Word := ((regAt p o).map (fun r => BitVec.ofNat 32 r.reset)).getD 0

/-- Right after reset a register of a page, its header apart, reads the reset word of the register map. -/
theorem State.rd_reset {p : Pg} {i o : Nat} (hi : i < p.count) (ho : o < 0x1000) (hh : o ≠ 0 ∧ o ≠ 4 ∧ o ≠ 0x20) :
    State.reset.rd (p.base i + o) = (resetAt p o).toNat := by
  show (resetWord (p.base i + o)).toNat = _
  rw [resetWord_base p i o hi ho hh]
  rfl

theorem State.get_reset {p : Pg} {i : Nat} {f : F} (hi : i < p.count) (ho : f.off < 0x1000) (hh : f.off ≠ 0 ∧ f.off ≠ 4 ∧ f.off ≠ 0x20) :
    State.reset.get (p.base i) f = bitsOf (resetAt p f.off).toNat f.hi f.lo := by
  unfold State.get
  rw [State.rd_reset hi ho hh]

/-- The 32 fences of a page have reset value 0: value and status. -/
theorem resetAt_fen : ∀ j < 32, resetAt .fen (64 * j + FEN_STAT) = 0 ∧ resetAt .fen (64 * j + FEN_VALUE) = 0 ∧
    resetAt .fen (64 * j + (FEN_VALUE + 4)) = 0 := by
  decide

/-- Right after reset the fence `f` is SIGNALLED at value 0 (R210). -/
theorem State.fence_reset {f : Nat} (hf : f < 65536) : State.reset.fenState f = 0 ∧ State.reset.rd64 (fenValue f) = 0 := by
  have hi : f / 32 < Pg.fen.count := by show f / 32 < 2048; omega
  obtain ⟨hs, hl, hh⟩ := resetAt_fen (f % 32) (by omega)
  have rd {o : Nat} (ho : 0x100 ≤ o ∧ o < 0x800) : State.reset.rd (fenAt f + o) = (resetAt .fen (64 * (f % 32) + o)).toNat := by
    rw [← State.rd_reset hi (by omega) (by omega)]
    exact congrArg _ (Nat.add_assoc ..)
  constructor
  · show bitsOf (State.reset.rd (fenAt f + FEN_STAT)) 1 0 = 0
    rw [rd (by decide), hs]
    rfl
  · show State.reset.rd (fenAt f + FEN_VALUE) + State.reset.rd (fenAt f + (FEN_VALUE + 4)) * 2 ^ 32 = 0
    rw [rd (by decide), rd (by decide), hl, hh]
    rfl

/-- Settles O3: each clause is the reset value of its register, or the reset state's own field. -/
theorem resetState : Obligations.ResetState := by
  refine ⟨rfl, rfl, rfl, fun _ => rfl, rfl, fun _ => ⟨rfl, rfl, rfl⟩, fun _ => ⟨rfl, rfl, rfl⟩, ?_, ?_, ?_, ?_, rfl, rfl⟩
  · intro x hx
    exact (State.get_reset (p := .ctx) hx (by decide) (by decide)).trans (by decide)
  · intro p hp
    exact (State.get_reset (p := .part) hp (by decide) (by decide)).trans (by decide)
  · intro q hq
    have h : State.reset.get (quePg q) QUE_STAT_ENABLED = 0 := (State.get_reset (p := .que) hq (by decide) (by decide)).trans (by decide)
    simp [State.on, h]
  · intro f hf
    exact State.fence_reset hf

/-- Settles O5, by the laws of the byte memories. -/
theorem memoryCanonicalAtReset : Obligations.MemoryCanonicalAtReset := by
  refine ⟨rfl, fun m a bs hw => ⟨Memory.wf_write hw a bs, fun i hi => ?_, fun x hx => Memory.get_write_out m a bs x hx⟩⟩
  rw [Memory.get_write_in m a bs i hi, List.getD_eq_getElem bs 0 hi]

end Sys2Proof.Machine
end

section
/-! SUPPORT. A command that names a unit beyond the last one, and is carried out all the same. -/

namespace Sys2Proof.Machine

open Sys2Proof

/-- A word of the seam that names the queue 4,096, one beyond the last (R14). -/
def seamWordOfNoQueue : Instr := .seamWordReceive 0 0 0 0 0 4096 0

/-- The queue of a seam word is not asked for: the word is taken whatever queue it names. -/
theorem exec_seamWord_next (s : State) : ∃ t : State, exec seamWordOfNoQueue s = .next t := ⟨_, rfl⟩

/-- Refutes O2: the word of the seam above is not well-formed, for its queue does not exist, and is answered in the state after reset. -/
theorem not_wellFormedCommandsAnswer : ¬ Obligations.WellFormedCommandsAnswer := by
  intro h
  have refused : exec seamWordOfNoQueue State.reset = .refused .noSuchUnit := (h seamWordOfNoQueue State.reset).2 (by decide)
  obtain ⟨t, answered⟩ := exec_seamWord_next State.reset
  rw [answered] at refused
  cases refused

end Sys2Proof.Machine
end

section
/-! SUPPORT. A plain write of four bytes by the physical function, and the registers that have no rule of their own. -/

namespace Sys2Proof.Machine

open Sys2Proof

/-! ### Words -/

/-- A field below bit 32 reads the same in the word that a register keeps. -/
theorem bitsOf_mod_word (n hi lo : Nat) (h : hi < 32) : bitsOf (n % 2 ^ 32) hi lo = bitsOf n hi lo := by
  apply Nat.eq_of_testBit_eq
  intro i
  rw [testBit_bitsOf, testBit_bitsOf, Nat.testBit_mod_two_pow]
  by_cases a : i < hi + 1 - lo
  · have b : lo + i < 32 := by omega
    simp [b]
  · simp [a]

theorem testBit_maskOf (hi lo i : Nat) (h : lo ≤ i ∧ i ≤ hi) : (maskOf hi lo).testBit i = true := by
  have a : i - lo < hi + 1 - lo := by omega
  simp [maskOf, Nat.testBit_shiftLeft, Nat.testBit_two_pow_sub_one, h.1, a]

/-- A register's mask has every bit of every field. -/
theorem Reg.testBit_mask {r : Reg} {f : Fld} (hf : f ∈ r.flds) {i : Nat} (hi : f.lo ≤ i ∧ i ≤ f.hi) : r.mask.testBit i = true := by
  have gen (l : List Fld) (m : Nat) (h : m.testBit i = true ∨ f ∈ l) :
      (l.foldl (fun m f => m ||| maskOf f.hi f.lo) m).testBit i = true := by
    induction l generalizing m with
    | nil => simpa using h
    | cons g l ih =>
      refine ih _ ?_
      rw [Nat.testBit_or]
      rcases h with h | h
      · simp [h]
      · rcases List.mem_cons.mp h with rfl | h
        · simp [testBit_maskOf _ _ _ hi]
        · exact .inr h
  exact gen r.flds 0 (.inr hf)

/-- The bits that a register has of a written word are, in each of its fields, those of the word. -/
theorem bitsOf_and_mask {r : Reg} {f : Fld} (hf : f ∈ r.flds) (v : Nat) : bitsOf (v &&& r.mask) f.hi f.lo = bitsOf v f.hi f.lo := by
  apply Nat.eq_of_testBit_eq
  intro i
  rw [testBit_bitsOf, testBit_bitsOf, Nat.testBit_and]
  by_cases a : i < f.hi + 1 - f.lo
  · simp [Reg.testBit_mask hf (i := f.lo + i) (by omega)]
  · simp [a]

/-! ### Where registers lie -/

theorem regAt_mem {p : Pg} {o : Nat} {r : Reg} (h : regAt p o = some r) (ho : 0x40 ≤ o) : r ∈ p.regs ∧ r.covers o = true := by
  unfold regAt at h
  rw [if_neg (by omega)] at h
  exact ⟨List.mem_of_find?_eq_some h, List.find?_some (p := fun r => Reg.covers r o) h⟩

theorem regs_aligned (p : Pg) : ∀ r ∈ p.regs, 4 ∣ r.off ∧ 4 ∣ r.stride := by
  cases p <;> decide

/-- A register stands at a multiple of 4. -/
theorem regAt_aligned {p : Pg} {o : Nat} {r : Reg} (h : regAt p o = some r) (ho : 0x40 ≤ o) : o % 4 = 0 := by
  obtain ⟨hm, hc⟩ := regAt_mem h ho
  obtain ⟨a, b⟩ := regs_aligned p r hm
  simp only [Reg.covers, Bool.and_eq_true, decide_eq_true_eq, beq_iff_eq] at hc
  have c : 4 ∣ o - r.off := b.trans (Nat.dvd_of_mod_eq_zero hc.1.2)
  have d : 4 ∣ o - r.off + r.off := Nat.dvd_add c a
  have := hc.1.1
  omega

/-- The pages lie in BAR0 (R511, R526). -/
theorem base_le (p : Pg) (i : Nat) (hi : i < p.count) : p.base i + 0x1000 ≤ 0x4000000 := by
  cases p <;> simp only [Pg.count] at hi <;> simp only [Pg.base] <;> omega

theorem base_aligned (p : Pg) (i : Nat) : p.base i % 0x1000 = 0 := base_mod p i 0 (by decide)

/-! ### Plain writes -/

/-- A 4 B write of the physical function at a register's place. -/
theorem exec_registerWrite_pf {off : Nat} (ho : off + 4 ≤ 0x4000000) (ha : off % 4 = 0) (v : Word) (s : State) :
    exec (.registerWrite 0 off 4 (v.setWidth 64)) s = .next (s.write4 0 off v.toNat) := by
  have e : exec (.registerWrite 0 off 4 (v.setWidth 64)) s = execRegisterWrite 0 off 4 (v.setWidth 64) s := rfl
  have n : (v.setWidth 64).toNat = v.toNat := by
    rw [BitVec.toNat_setWidth]
    exact Nat.mod_eq_of_lt (by omega)
  rw [e]
  simp [execRegisterWrite, onUnit, barSize, ho, State.hostWrite, ha, State.route, n]

/-! ### Pages whose registers have no rule of their own -/

/-- The kinds of page whose registers have no rule of their own. -/
def plainPages : List Pg := [.core, .shst, .memt, .nap, .rgl0, .rglp, .thm]

theorem plain_base {p : Pg} (hp : p ∈ plainPages) (i : Nat) : 0x100000 ≤ p.base i := by
  have h : p = .core ∨ p = .shst ∨ p = .memt ∨ p = .nap ∨ p = .rgl0 ∨ p = .rglp ∨ p = .thm := by simpa [plainPages] using hp
  rcases h with rfl | rfl | rfl | rfl | rfl | rfl | rfl <;> simp only [Pg.base] <;> omega

/-- Their fields are read-only, the owner's, or cleared by 1. -/
theorem plain_acc : ∀ p ∈ plainPages, ∀ r ∈ p.regs, ∀ f ∈ r.flds, f.acc = .ro ∨ f.acc = .w1c ∨ (f.acc = .rwl ∧ p ≠ .shst) := by
  decide

/-- Fields that none writes once are stored in the register, where it has no other home. -/
theorem storeFields_wr {s : State} {own : Bool} {r : Reg} {off v : Nat} (hpci : off < 0x14000 ∨ 0x15000 ≤ off)
    (hr : ∀ f ∈ r.flds, f.acc ≠ .rwo) :
    s.storeFields own r off v = s.wr off (r.flds.foldl (fun w f => f.put own (!Tab.get false s.rwo off) v w) (s.rd off)) := by
  have home : s.home off = off := by
    have h : pciPg = 0x14000 := rfl
    exact if_neg (by omega)
  have never : r.flds.any (fun f => f.acc == .rwo) = false := by
    rw [List.any_eq_false]
    intro f hf
    simpa using hr f hf
  simp [State.storeFields, home, never]

/-- The owner's write of such a register stores its fields. -/
theorem ownWrite_plain {s : State} {p : Pg} (hp : p ∈ plainPages) {i o : Nat} {r : Reg} (ho : 0x40 ≤ o) (hr : r ∈ p.regs) (v : Nat) :
    s.ownWrite p i o (p.base i + o) r v =
      (s.wr (p.base i + o) (r.flds.foldl (fun w f => f.put true (!Tab.get false s.rwo (p.base i + o)) (wholeClear p o v) w) (s.rd (p.base i + o))),
        true) := by
  have stored : s.ownWrite p i o (p.base i + o) r v = (s.storeFields true r (p.base i + o) (wholeClear p o v), true) := by
    have h : p = .core ∨ p = .shst ∨ p = .memt ∨ p = .nap ∨ p = .rgl0 ∨ p = .rglp ∨ p = .thm := by simpa [plainPages] using hp
    rcases h with rfl | rfl | rfl | rfl | rfl | rfl | rfl <;> simp [State.ownWrite, State.writable, Nat.not_lt.mpr ho]
  have never : ∀ f ∈ r.flds, f.acc ≠ .rwo := by
    intro f hf
    rcases plain_acc p hp r hr f hf with h | h | ⟨h, -⟩ <;> simp [h]
  have hb := plain_base hp i
  rw [stored, storeFields_wr (by omega) never]

/-- What each field of such a register takes of the owner's write. -/
theorem put_plain {p : Pg} (hp : p ∈ plainPages) {r : Reg} (hr : r ∈ p.regs) {f : Fld} (hf : f ∈ r.flds) (hlo : f.lo ≤ f.hi)
    (o : Nat) (v : Word) (hw : written p o v = v.toNat &&& r.mask) (once : Bool) (old : Nat) :
    bitsOf (f.put true once (wholeClear p o (written p o v)) old) f.hi f.lo = match f.acc with
      | .rw | .rwl => bitsOf v.toNat f.hi f.lo
      | .w1c => (2 ^ (f.hi + 1 - f.lo) - 1 - bitsOf (wholeClear p o (written p o v)) f.hi f.lo) &&& bitsOf old f.hi f.lo
      | _ => bitsOf old f.hi f.lo := by
  rcases plain_acc p hp r hr f hf with h | h | ⟨h, hne⟩
  · simp only [Fld.put, h]
  · simp only [Fld.put, h]
    rw [bitsOf_putBits_self _ _ _ _ hlo, Nat.mod_eq_of_lt (Nat.and_lt_two_pow _ (bitsOf_lt ..))]
  · have e : wholeClear p o (written p o v) = v.toNat &&& r.mask := by simp [wholeClear, hne, hw]
    simp only [Fld.put, h, e, if_true]
    rw [bitsOf_putBits_self _ _ _ _ hlo, Nat.mod_eq_of_lt (bitsOf_lt ..), bitsOf_and_mask hf]

/-- Settles O6: the write stores the register's fields and counts in BLK_SEQ, and nothing else. -/
theorem ownerWritesFields : Obligations.OwnerWritesFields := by
  intro s p i o r f v hp hi ho ho' hr hh hf hs
  obtain ⟨hm, -⟩ := regAt_mem hr ho
  have hal := regAt_aligned hr ho
  have hbase := base_aligned p i
  have hle := base_le p i hi
  have hw : written p o v = v.toNat &&& r.mask := by simp [written, hr]
  have hsound := regAt_sound hr
  simp only [Reg.sound, Bool.and_eq_true, List.all_eq_true, decide_eq_true_eq] at hsound
  obtain ⟨hfit, hapart⟩ := hsound
  obtain ⟨hlo, hhi⟩ := hfit f hf
  have hseq : p.base i + 0x024 ≠ p.base i + o := by omega
  refine ⟨_, exec_registerWrite_pf (by omega) (by omega) v s, ?_⟩
  rw [State.write4_own v hs (pageAt_base p i o hi ho') ho' hr hh, ownWrite_plain hp ho hm]
  simp only [if_true, State.bumpSeq]
  refine ⟨rfl, fun a ha => ?_, ?_, ?_⟩
  · simp only [List.mem_cons, List.not_mem_nil, or_false, not_or] at ha
    rw [State.rd_wr_ne _ _ _ ha.2, State.rd_wr_ne _ _ _ ha.1]
  · rw [State.rd_wr_self, State.rd_wr_ne _ _ _ hseq]
  · rw [State.rd_wr_ne _ _ _ hseq.symm, State.rd_wr_self, bitsOf_mod_word _ _ _ hhi, fields_put _ _ _ _ (fun g hg => (hfit g hg).1) hapart f hf]
    exact (put_plain hp hm hf hlo o v hw _ _).trans (by cases f.acc <;> rfl)

end Sys2Proof.Machine
end

section
/-! SUPPORT. The two words of a pair, read and written by the physical function. -/

namespace Sys2Proof.Machine

open Sys2Proof

/-! ### Reads of pairs (R5, R517) -/

theorem exec_pairLowRead_pf {o : Nat} (ho : o + 4 ≤ 0x4000000) (ha : o % 4 = 0) (s : State) :
    exec (.pairLowRead 0 o) s = .next (s.readCmd 0 o) := by
  show onUnit _ _ = _
  simp [onUnit, barSize, ho, ha]

theorem exec_pairHighRead_pf {o : Nat} (ho : o + 4 ≤ 0x4000000) (ha : o % 4 = 0) (s : State) :
    exec (.pairHighRead 0 o) s = .next (s.readCmd 0 o) := by
  show onUnit _ _ = _
  simp [onUnit, barSize, ho, ha]

/-- A read of a low word latches the high word. -/
theorem readCmd_low {o : Nat} (h : halfAt o = .low) (s : State) : s.readCmd 0 o =
    { s with pairLatch := Tab.put none (pairKey 0 o) (some (BitVec.ofNat 32 (s.readWord (o + 4)))) s.pairLatch,
             out := .readData 0 (leBytes 4 (s.readWord o)) :: s.out } := by
  simp [State.readCmd, State.readOf, State.barDead, State.route, h, State.emit]

/-- A read of a high word takes the latched word. -/
theorem readCmd_high_latched {o : Nat} {w : Word} (h : halfAt (o + 4) = .high) {s : State} (hl : Tab.get none s.pairLatch (pairKey 0 o) = some w) :
    s.readCmd 0 (o + 4) =
      { s with pairLatch := Tab.put none (pairKey 0 o) none s.pairLatch, out := .readData 0 (leBytes 4 w.toNat) :: s.out } := by
  simp [State.readCmd, State.readOf, State.barDead, State.route, h, hl, State.emit]

/-- With no word latched a read of a high word is a plain one. -/
theorem readCmd_high_live {o : Nat} (h : halfAt (o + 4) = .high) {s : State} (hl : Tab.get none s.pairLatch (pairKey 0 o) = none) :
    s.readCmd 0 (o + 4) = { s with out := .readData 0 (leBytes 4 (s.readWord (o + 4))) :: s.out } := by
  simp [State.readCmd, State.readOf, State.barDead, State.route, h, hl, State.emit]

/-! ### Writes of QUE_RING -/

theorem exec_pairLowWrite_pf {o : Nat} (ho : o + 4 ≤ 0x4000000) (ha : o % 4 = 0) (v : Word) (s : State) :
    exec (.pairLowWrite 0 o v) s = .next (s.write4 0 o v.toNat) := by
  show onUnit _ _ = _
  simp [onUnit, barSize, ho, ha, State.hostWrite, State.route]

theorem exec_pairHighWrite_pf {o : Nat} (ho : o + 4 ≤ 0x4000000) (ha : o % 4 = 0) (v : Word) (s : State) :
    exec (.pairHighWrite 0 o v) s = .next (s.write4 0 o v.toNat) := by
  show onUnit _ _ = _
  simp [onUnit, barSize, ho, ha, State.hostWrite, State.route]

/-- The two registers of QUE_RING. -/
def ringLow : Reg := ⟨0x048, 1, 4, .low, [⟨31, 12, .rwl, 0⟩]⟩
def ringHigh : Reg := ⟨0x04C, 1, 4, .high, [⟨31, 0, .rwl, 0⟩]⟩

theorem regAt_ring : regAt .que QUE_RING = some ringLow ∧ regAt .que (QUE_RING + 4) = some ringHigh := ⟨rfl, rfl⟩

/-- The page of a queue lies in BAR0, and its ring's registers in the page. -/
theorem quePg_bounds {q : Nat} (hq : q < 4096) : 0x2000000 ≤ quePg q ∧ quePg q + 0x1000 ≤ 0x4000000 ∧ quePg q % 0x1000 = 0 := by
  have h : quePg q = 0x2000000 + 0x1000 * q := rfl
  omega

theorem pageTakes_of_holds {s : State} {fn : Nat} {p : Pg} {i : Nat} (h : s.holds fn p i) : s.pageTakes p i = (s, true) := by
  obtain ⟨hr, hp, -⟩ := h
  simp [State.pageTakes, hr, hp]

/-- A write of the low word is held. -/
theorem write4_ringLow {s : State} {q : Nat} (hq : q < 4096) (h : s.holds 0 .que q) (v : Word) :
    s.write4 0 (quePg q + QUE_RING) v.toNat =
      { s with pairHeld := Tab.put none (pairKey 0 (quePg q + QUE_RING)) (some v) s.pairHeld } := by
  have hp : pageAt (quePg q + QUE_RING) = some (.que, q) := pageAt_que q _ hq (by decide)
  have hm : (quePg q + QUE_RING) % 0x1000 = QUE_RING := base_mod .que q _ (by decide)
  simp [State.write4, hp, hm, regAt_ring, pageTakes_of_holds h, ringLow]

/-- What the low and the high register of QUE_RING keep of a word. -/
theorem storeHalf_ringLow {s : State} {q : Nat} (hq : q < 4096) (v : Nat) :
    s.storeHalf true .que QUE_RING ringLow (quePg q + QUE_RING) v =
      s.wr (quePg q + QUE_RING) (putBits (s.rd (quePg q + QUE_RING)) 31 12 (bitsOf v 31 12)) := by
  obtain ⟨hb, -, -⟩ := quePg_bounds hq
  have e : s.storeHalf true .que QUE_RING ringLow (quePg q + QUE_RING) v = s.storeFields true ringLow (quePg q + QUE_RING) v := rfl
  rw [e, storeFields_wr (by omega) (by decide)]
  rfl

theorem storeHalf_ringHigh {s : State} {q : Nat} (hq : q < 4096) (v : Nat) :
    s.storeHalf true .que (QUE_RING + 4) ringHigh (quePg q + QUE_RING + 4) v =
      s.wr (quePg q + QUE_RING + 4) (putBits (s.rd (quePg q + QUE_RING + 4)) 31 0 (bitsOf v 31 0)) := by
  obtain ⟨hb, -, -⟩ := quePg_bounds hq
  have e : s.storeHalf true .que (QUE_RING + 4) ringHigh (quePg q + QUE_RING + 4) v =
    s.storeFields true ringHigh (quePg q + QUE_RING + 4) v := rfl
  rw [e, storeFields_wr (by omega) (by decide)]
  rfl

/-- The owner's write of the high word, with the word held for the low one. -/
theorem write4_ringHigh {s : State} {q : Nat} (hq : q < 4096) (h : s.holds 0 .que q) (v : Word) {held : Option Word}
    (hl : Tab.get none s.pairHeld (pairKey 0 (quePg q + QUE_RING)) = held) :
    s.write4 0 (quePg q + QUE_RING + 4) v.toNat =
      ({ s with pairHeld := Tab.put none (pairKey 0 (quePg q + QUE_RING)) none s.pairHeld }).pairWrite 0 .que q (quePg q + QUE_RING)
        ringLow ringHigh (held.map BitVec.toNat) v.toNat := by
  have hp : pageAt (quePg q + QUE_RING + 4) = some (.que, q) := pageAt_que q (QUE_RING + 4) hq (by decide)
  have hm : (quePg q + QUE_RING) % 0x1000 = QUE_RING := base_mod .que q _ (by decide)
  have hm' : (quePg q + QUE_RING + 4) % 0x1000 = QUE_RING + 4 := base_mod .que q (QUE_RING + 4) (by decide)
  obtain ⟨rl, rh⟩ := regAt_ring
  have hh : ringHigh.half = .high := rfl
  simp [State.write4, hp, hm, hm', rl, rh, pageTakes_of_holds h, hh, hl]

/-- The high word is kept whole. -/
theorem putBits_word (n v : Nat) : putBits n 31 0 (bitsOf v 31 0) % 2 ^ 32 = v % 2 ^ 32 := by
  have e (m : Nat) : m % 2 ^ 32 = bitsOf m 31 0 := rfl
  rw [e (putBits ..), bitsOf_putBits_self _ _ _ _ (by decide), e v]
  exact Nat.mod_eq_of_lt (bitsOf_lt v 31 0)

/-- The owner's write of the pair, while the queue is not enabled: both words or the high one, and one count of BLK_SEQ. -/
theorem pairWrite_ring {s : State} {q : Nat} (h : s.holds 0 .que q) (hen : s.on (quePg q) QUE_CTL_ENABLE = false)
    (lo : Option Nat) (v : Nat) : s.pairWrite 0 .que q (quePg q + QUE_RING) ringLow ringHigh lo v =
      ((lo.elim s (fun l => s.storeHalf true .que QUE_RING ringLow (quePg q + QUE_RING) (l &&& ringLow.mask))).storeHalf true .que
        (QUE_RING + 4) ringHigh (quePg q + QUE_RING + 4) (v &&& ringHigh.mask)).bumpSeq (quePg q) := by
  obtain ⟨-, -, ho⟩ := h
  have ho : s.owns 0 (Pg.base .que q) = true := ho
  have hm : (quePg q + QUE_RING) % 0x1000 = QUE_RING := base_mod .que q _ (by decide)
  have hm' : (quePg q + QUE_RING + 4) % 0x1000 = QUE_RING + 4 := base_mod .que q (QUE_RING + 4) (by decide)
  have hw : s.writable .que q QUE_RING = true := by
    show (!s.on (quePg q) QUE_CTL_ENABLE) = true
    rw [hen]
    rfl
  unfold State.pairWrite
  rw [hm, hm', hw, if_pos ho, if_pos rfl]
  cases lo <;> rfl

theorem bitsOf_and_ringLow (v : Nat) : bitsOf (v &&& ringLow.mask) 31 12 = bitsOf v 31 12 :=
  bitsOf_and_mask (r := ringLow) (f := ⟨31, 12, .rwl, 0⟩) (List.mem_singleton.mpr rfl) v

theorem bitsOf_and_ringHigh (v : Nat) : bitsOf (v &&& ringHigh.mask) 31 0 = bitsOf v 31 0 :=
  bitsOf_and_mask (r := ringHigh) (f := ⟨31, 0, .rwl, 0⟩) (List.mem_singleton.mpr rfl) v

/-- After the high word is stored and counted, it reads as written, BLK_SEQ reads one more, and every other register as before. -/
theorem ringHigh_stored {s : State} {q : Nat} (hq : q < 4096) (v : Word) (t : State)
    (ht : t = (s.storeHalf true .que (QUE_RING + 4) ringHigh (quePg q + QUE_RING + 4) (v.toNat &&& ringHigh.mask)).bumpSeq (quePg q)) :
    t = { s with regs := t.regs } ∧ t.rd (quePg q + QUE_RING + 4) = v.toNat ∧
      t.rd (quePg q + 0x024) = (s.rd (quePg q + 0x024) + 1) % 2 ^ 32 ∧
      s.sameRegs t [quePg q + QUE_RING + 4, quePg q + 0x024] := by
  have hr : QUE_RING = 0x048 := rfl
  have hne : quePg q + 0x024 ≠ quePg q + QUE_RING + 4 := by omega
  rw [storeHalf_ringHigh hq, bitsOf_and_ringHigh, State.bumpSeq] at ht
  subst ht
  refine ⟨rfl, ?_, ?_, fun a ha => ?_⟩
  · rw [State.rd_wr_ne _ _ _ hne.symm, State.rd_wr_self, putBits_word]
    exact Nat.mod_eq_of_lt v.isLt
  · rw [State.rd_wr_self, State.rd_wr_ne _ _ _ hne]
  · simp only [List.mem_cons, List.not_mem_nil, or_false, not_or] at ha
    rw [State.rd_wr_ne _ _ _ ha.2, State.rd_wr_ne _ _ _ ha.1]

/-- With a low word held as well, its field reads as held, and the rest is as with the high word alone. -/
theorem ringBoth_stored {s : State} {q : Nat} (hq : q < 4096) (lo v : Word) (t : State)
    (ht : t = ((s.storeHalf true .que QUE_RING ringLow (quePg q + QUE_RING) (lo.toNat &&& ringLow.mask)).storeHalf true .que (QUE_RING + 4)
      ringHigh (quePg q + QUE_RING + 4) (v.toNat &&& ringHigh.mask)).bumpSeq (quePg q)) :
    t = { s with regs := t.regs } ∧ bitsOf (t.rd (quePg q + QUE_RING)) 31 12 = bitsOf lo.toNat 31 12 ∧
      t.rd (quePg q + QUE_RING + 4) = v.toNat ∧ t.rd (quePg q + 0x024) = (s.rd (quePg q + 0x024) + 1) % 2 ^ 32 ∧
      s.sameRegs t [quePg q + QUE_RING, quePg q + QUE_RING + 4, quePg q + 0x024] := by
  have hr : QUE_RING = 0x048 := rfl
  obtain ⟨hregs, hhigh, hseq, hsame⟩ := ringHigh_stored hq v t ht
  rw [storeHalf_ringLow hq, bitsOf_and_ringLow] at hregs hseq hsame
  refine ⟨hregs, ?_, hhigh, ?_, fun a ha => ?_⟩
  · have hlo : quePg q + QUE_RING ∉ [quePg q + QUE_RING + 4, quePg q + 0x024] := by simp [hr]
    rw [hsame _ hlo, State.rd_wr_self, bitsOf_mod_word _ _ _ (by decide), bitsOf_putBits_self _ _ _ _ (by decide)]
    exact Nat.mod_eq_of_lt (bitsOf_lt lo.toNat 31 12)
  · rw [hseq, State.rd_wr_ne _ _ _ (by omega)]
  · obtain ⟨hne, hrest⟩ := List.ne_and_not_mem_of_not_mem_cons ha
    rw [hsame a hrest, State.rd_wr_ne _ _ _ hne]

/-- Settles O8, by the laws of the reads of a pair and of the writes of QUE_RING. -/
theorem pairsReadAndWriteTogether : Obligations.PairsReadAndWriteTogether := by
  refine ⟨fun s o ho ha hl => ?_, fun s o w ho ha hh => ⟨fun hw => ?_, fun hn => ?_⟩, fun s q lo hi hq h => ?_⟩
  · rw [exec_pairLowRead_pf (by omega) ha, readCmd_low hl]
  · rw [exec_pairHighRead_pf (by omega) (by omega), readCmd_high_latched hh hw]
  · rw [exec_pairHighRead_pf (by omega) (by omega), readCmd_high_live hh hn]
  · have hr : QUE_RING = 0x048 := rfl
    obtain ⟨-, hle, hal⟩ := quePg_bounds hq
    intro a
    refine ⟨?_, ?_⟩
    · rw [exec_pairLowWrite_pf (by omega) (by omega), write4_ringLow hq h]
    · intro hen u
      have hu : u.holds 0 .que q := h
      have henu : u.on (quePg q) QUE_CTL_ENABLE = false := hen
      rw [exec_pairHighWrite_pf (by omega) (by omega)]
      refine ⟨fun hl => ⟨_, rfl, ?_⟩, fun hl => ⟨_, rfl, ?_⟩⟩
      · exact ringBoth_stored hq lo hi _ ((write4_ringHigh hq h hi hl).trans (pairWrite_ring hu henu _ _))
      · exact ringHigh_stored hq hi _ ((write4_ringHigh hq h hi hl).trans (pairWrite_ring hu henu _ _))

end Sys2Proof.Machine
end

section
/-! SUPPORT. What every operation does to the byte memories (R4, R89, R141). Most leave all four as they are: `f_mems` says so of
the operation `f`. The others store bytes, or clear them, by the laws of `Memory`: `f_memOk` says that they keep the canonical form. -/

namespace Sys2Proof.Machine

open Sys2Proof

/-- The byte memories: device memory, scratchpads, shares, staged firmware. -/
@[irreducible] def State.mems (s : State) : List (List Host.Cell) := [s.mem, s.spad, s.share, s.mgmt.sessionData]

/-- Every byte memory is in its canonical form. -/
@[irreducible] def State.MemOk (s : State) : Prop := ∀ x ∈ s.mems, Memory.wf x = true

/-- What a command answers is in canonical form. -/
def Answer.MemOk : Answer → Prop
  | .next t => t.MemOk
  | _ => True

end Sys2Proof.Machine

namespace Sys2Proof.Machine.State

open Sys2Proof

variable {s t : State} {M : List (List Host.Cell)} {α β : Type}

/-! ### Branches, iterations and pairs -/

theorem mems_ite {c : Prop} {_ : Decidable c} {a b : State} (ha : a.mems = M) (hb : b.mems = M) : (if c then a else b).mems = M := by
  split
  · exact ha
  · exact hb

theorem mems_ite_fst {c : Prop} {_ : Decidable c} {a b : State × α} (ha : a.1.mems = M) (hb : b.1.mems = M) :
    (if c then a else b).1.mems = M := by
  split
  · exact ha
  · exact hb

theorem mems_ite_snd {c : Prop} {_ : Decidable c} {a b : α × State} (ha : a.2.mems = M) (hb : b.2.mems = M) :
    (if c then a else b).2.mems = M := by
  split
  · exact ha
  · exact hb

theorem mems_fst {a : α} (h : s.mems = M) : (s, a).1.mems = M := h

theorem mems_foldl {f : State → α → State} {l : List α} (hf : ∀ s a, s.mems = M → (f s a).mems = M) (h : s.mems = M) :
    (l.foldl f s).mems = M := by
  induction l generalizing s with
  | nil => exact h
  | cons a l ih => exact ih (hf s a h)

theorem mems_foldl_fst {f : State × β → α → State × β} {l : List α} {p : State × β}
    (hf : ∀ p a, p.1.mems = M → (f p a).1.mems = M) (h : p.1.mems = M) : (l.foldl f p).1.mems = M := by
  induction l generalizing p with
  | nil => exact h
  | cons a l ih => exact ih (hf p a h)

theorem mems_of_eq {p : State × α} {a : α} (e : p = (t, a)) (h : p.1.mems = M) : t.mems = M := by
  rw [e] at h
  exact h

theorem mems_of_eq_snd {p : α × State} {a : α} (e : p = (a, t)) (h : p.2.mems = M) : t.mems = M := by
  rw [e] at h
  exact h

/-! ### Rules that may answer nothing -/

theorem forall_mem_ite {P : α → Prop} {c : Prop} {_ : Decidable c} {a b : Option α} (ha : ∀ r ∈ a, P r) (hb : ∀ r ∈ b, P r) :
    ∀ r ∈ (if c then a else b), P r := by
  split
  · exact ha
  · exact hb

theorem forall_mem_some {P : α → Prop} {a : α} (h : P a) : ∀ r ∈ some a, P r := by
  rintro r ⟨⟩
  exact h

theorem forall_mem_none {P : α → Prop} : ∀ r ∈ (none : Option α), P r := by
  rintro r ⟨⟩

theorem getD_of_forall_mem {P : α → Prop} {x : Option α} {d : α} (h : ∀ r ∈ x, P r) (hd : P d) : P (x.getD d) := by
  cases x with
  | none => exact hd
  | some a => exact h a rfl

/-! ### The canonical form -/

theorem memOk_iff : s.memOk = true ↔ s.MemOk := by
  unfold memOk MemOk mems
  simp [and_assoc]

/-- An operation that changes no byte keeps the canonical form. -/
theorem of_mems (e : t.mems = s.mems) (h : s.MemOk) : t.MemOk := by
  unfold MemOk at h ⊢
  rwa [e]

theorem memOk_ite {c : Prop} {_ : Decidable c} {a b : State} (ha : a.MemOk) (hb : b.MemOk) : (if c then a else b).MemOk := by
  split
  · exact ha
  · exact hb

theorem memOk_ite_fst {c : Prop} {_ : Decidable c} {a b : State × α} (ha : a.1.MemOk) (hb : b.1.MemOk) : (if c then a else b).1.MemOk := by
  split
  · exact ha
  · exact hb

theorem memOk_fst {a : α} (h : s.MemOk) : (s, a).1.MemOk := h

theorem memOk_foldl {f : State → α → State} {l : List α} (hf : ∀ s a, s.MemOk → (f s a).MemOk) (h : s.MemOk) : (l.foldl f s).MemOk := by
  induction l generalizing s with
  | nil => exact h
  | cons a l ih => exact ih (hf s a h)

theorem memOk_foldl_fst {f : State × β → α → State × β} {l : List α} {p : State × β}
    (hf : ∀ p a, p.1.MemOk → (f p a).1.MemOk) (h : p.1.MemOk) : (l.foldl f p).1.MemOk := by
  induction l generalizing p with
  | nil => exact h
  | cons a l ih => exact ih (hf p a h)

theorem memOk_of_eq {p : State × α} {a : α} (e : p = (t, a)) (h : p.1.MemOk) : t.MemOk := by
  rw [e] at h
  exact h

theorem memOk_of_eq_snd {p : α × State} {a : α} (e : p = (a, t)) (h : p.2.MemOk) : t.MemOk := by
  rw [e] at h
  exact h

theorem wf_mem (h : s.MemOk) : Memory.wf s.mem = true := by unfold MemOk mems at h; exact h _ (by simp)
theorem wf_spad (h : s.MemOk) : Memory.wf s.spad = true := by unfold MemOk mems at h; exact h _ (by simp)
theorem wf_share (h : s.MemOk) : Memory.wf s.share = true := by unfold MemOk mems at h; exact h _ (by simp)
theorem wf_sessionData (h : s.MemOk) : Memory.wf s.mgmt.sessionData = true := by unfold MemOk mems at h; exact h _ (by simp)

/-- A state is in canonical form when each of its memories is. -/
theorem memOk_mk (hm : Memory.wf s.mem = true) (hp : Memory.wf s.spad = true) (hs : Memory.wf s.share = true)
    (hd : Memory.wf s.mgmt.sessionData = true) : s.MemOk := by
  unfold MemOk mems
  simp [hm, hp, hs, hd]

theorem memOk_with_spad {spad' : List Host.Cell} (h : s.MemOk) (hw : Memory.wf spad' = true) : { s with spad := spad' }.MemOk := by
  have hm := wf_mem h
  have hs := wf_share h
  have hd := wf_sessionData h
  exact memOk_mk hm hw hs hd

theorem memOk_with_share {share' : List Host.Cell} (h : s.MemOk) (hw : Memory.wf share' = true) : { s with share := share' }.MemOk := by
  have hm := wf_mem h
  have hp := wf_spad h
  have hd := wf_sessionData h
  exact memOk_mk hm hp hw hd

theorem memOk_with_spad_share {spad' share' : List Host.Cell} (h : s.MemOk) (hp : Memory.wf spad' = true) (hw : Memory.wf share' = true) :
    { s with spad := spad', share := share' }.MemOk := by
  have hm := wf_mem h
  have hd := wf_sessionData h
  exact memOk_mk hm hp hw hd

theorem memOk_with_mgmt {mgmt' : MgmtSt} (h : s.MemOk) (hw : Memory.wf mgmt'.sessionData = true) : { s with mgmt := mgmt' }.MemOk := by
  have hm := wf_mem h
  have hp := wf_spad h
  have hs := wf_share h
  exact memOk_mk hm hp hs hw

/-! ### One record at a time -/

theorem mems_with_atsOn {atsOn' : Tab Bool} (h : s.mems = M) :
    { s with atsOn := atsOn' }.mems = M := by unfold mems at h ⊢; exact h
theorem mems_with_attach {attach' : Tab (Option Nat)} (h : s.mems = M) :
    { s with attach := attach' }.mems = M := by unfold mems at h ⊢; exact h
theorem mems_with_badLines {badLines' : Tab Nat} (h : s.mems = M) :
    { s with badLines := badLines' }.mems = M := by unfold mems at h ⊢; exact h
theorem mems_with_beacons {beacons' : Tab Beacon} (h : s.mems = M) :
    { s with beacons := beacons' }.mems = M := by unfold mems at h ⊢; exact h
theorem mems_with_captGen {captGen' : Nat} (h : s.mems = M) :
    { s with captGen := captGen' }.mems = M := by unfold mems at h ⊢; exact h
theorem mems_with_captGen_rcv {captGen' : Nat} {rcv' : RcvSt} (h : s.mems = M) :
    { s with captGen := captGen', rcv := rcv' }.mems = M := by unfold mems at h ⊢; exact h
theorem mems_with_capt_captReason {capt' : Tab Nat} {captReason' : Tab Nat} (h : s.mems = M) :
    { s with capt := capt', captReason := captReason' }.mems = M := by unfold mems at h ⊢; exact h
theorem mems_with_cells {cells' : Tab CellSt} (h : s.mems = M) :
    { s with cells := cells' }.mems = M := by unfold mems at h ⊢; exact h
theorem mems_with_chans {chans' : Tab ChanSt} (h : s.mems = M) :
    { s with chans := chans' }.mems = M := by unfold mems at h ⊢; exact h
theorem mems_with_cmds {cmds' : Tab (List Cmd)} (h : s.mems = M) :
    { s with cmds := cmds' }.mems = M := by unfold mems at h ⊢; exact h
theorem mems_with_cores {cores' : Tab CoreSt} (h : s.mems = M) :
    { s with cores := cores' }.mems = M := by unfold mems at h ⊢; exact h
theorem mems_with_ctxs {ctxs' : Tab CtxSt} (h : s.mems = M) :
    { s with ctxs := ctxs' }.mems = M := by unfold mems at h ⊢; exact h
theorem mems_with_ctxs_sec {ctxs' : Tab CtxSt} {sec' : SecSt} (h : s.mems = M) :
    { s with ctxs := ctxs', sec := sec' }.mems = M := by unfold mems at h ⊢; exact h
theorem mems_with_dlogWords {dlogWords' : Tab (Option Nat)} (h : s.mems = M) :
    { s with dlogWords := dlogWords' }.mems = M := by unfold mems at h ⊢; exact h
theorem mems_with_draws {draws' : Nat} (h : s.mems = M) :
    { s with draws := draws' }.mems = M := by unfold mems at h ⊢; exact h
theorem mems_with_droop {droop' : Tab Nat} (h : s.mems = M) :
    { s with droop := droop' }.mems = M := by unfold mems at h ⊢; exact h
theorem mems_with_earlyJoins {earlyJoins' : List (Nat × Nat × Nat × Bytes)} (h : s.mems = M) :
    { s with earlyJoins := earlyJoins' }.mems = M := by unfold mems at h ⊢; exact h
theorem mems_with_evqFn {evqFn' : Tab Nat} (h : s.mems = M) :
    { s with evqFn := evqFn' }.mems = M := by unfold mems at h ⊢; exact h
theorem mems_with_evqFn_evqLost {evqFn' : Tab Nat} {evqLost' : Tab Nat} (h : s.mems = M) :
    { s with evqFn := evqFn', evqLost := evqLost' }.mems = M := by unfold mems at h ⊢; exact h
theorem mems_with_evqLost {evqLost' : Tab Nat} (h : s.mems = M) :
    { s with evqLost := evqLost' }.mems = M := by unfold mems at h ⊢; exact h
theorem mems_with_flash {flash' : Flash} (h : s.mems = M) :
    { s with flash := flash' }.mems = M := by unfold mems at h ⊢; exact h
theorem mems_with_gates {gates' : List Nat} (h : s.mems = M) :
    { s with gates := gates' }.mems = M := by unfold mems at h ⊢; exact h
theorem mems_with_gens {gens' : Tab Nat} (h : s.mems = M) :
    { s with gens := gens' }.mems = M := by unfold mems at h ⊢; exact h
theorem mems_with_gens_segStage_segPend_objs_ctxs {gens' : Tab Nat} {segStage' : Tab Word} {segPend' : Tab SegPend} {objs' : Tab Obj}
    {ctxs' : Tab CtxSt} (h : s.mems = M) :
    { s with gens := gens', segStage := segStage', segPend := segPend', objs := objs', ctxs := ctxs' }.mems = M := by unfold mems at h ⊢; exact h
theorem mems_with_halted {halted' : List Nat} (h : s.mems = M) :
    { s with halted := halted' }.mems = M := by unfold mems at h ⊢; exact h
theorem mems_with_heads {heads' : Tab (Option Bytes)} (h : s.mems = M) :
    { s with heads := heads' }.mems = M := by unfold mems at h ⊢; exact h
theorem mems_with_heads_cmds {heads' : Tab (Option Bytes)} {cmds' : Tab (List Cmd)} (h : s.mems = M) :
    { s with heads := heads', cmds := cmds' }.mems = M := by unfold mems at h ⊢; exact h
theorem mems_with_hsErr {hsErr' : Tab Nat} (h : s.mems = M) :
    { s with hsErr := hsErr' }.mems = M := by unfold mems at h ⊢; exact h
theorem mems_with_hsFifo {hsFifo' : Tab (List (BitVec 272))} (h : s.mems = M) :
    { s with hsFifo := hsFifo' }.mems = M := by unfold mems at h ⊢; exact h
theorem mems_with_hsSeq {hsSeq' : Tab Nat} (h : s.mems = M) :
    { s with hsSeq := hsSeq' }.mems = M := by unfold mems at h ⊢; exact h
theorem mems_with_incarn {incarn' : Nat} (h : s.mems = M) :
    { s with incarn := incarn' }.mems = M := by unfold mems at h ⊢; exact h
theorem mems_with_joins {joins' : Tab JoinSt} (h : s.mems = M) :
    { s with joins := joins' }.mems = M := by unfold mems at h ⊢; exact h
theorem mems_with_joins_spanNo {joins' : Tab JoinSt} {spanNo' : Tab Nat} (h : s.mems = M) :
    { s with joins := joins', spanNo := spanNo' }.mems = M := by unfold mems at h ⊢; exact h
theorem mems_with_joins_toks {joins' : Tab JoinSt} {toks' : List Tok} (h : s.mems = M) :
    { s with joins := joins', toks := toks' }.mems = M := by unfold mems at h ⊢; exact h
theorem mems_with_latched {latched' : Tab (List (Nat × Nat))} (h : s.mems = M) :
    { s with latched := latched' }.mems = M := by unfold mems at h ⊢; exact h
theorem mems_with_links {links' : Tab LinkSt} (h : s.mems = M) :
    { s with links := links' }.mems = M := by unfold mems at h ⊢; exact h
theorem mems_with_maps {maps' : Tab (Option Nat)} (h : s.mems = M) :
    { s with maps := maps' }.mems = M := by unfold mems at h ⊢; exact h
theorem mems_with_mclk {mclk' : Nat} (h : s.mems = M) :
    { s with mclk := mclk' }.mems = M := by unfold mems at h ⊢; exact h
theorem mems_with_mclk_mgmt {mclk' : Nat} {mgmt' : MgmtSt} (h : s.mems = M)
    (hg : mgmt'.sessionData = s.mgmt.sessionData := by rfl) :
    { s with mclk := mclk', mgmt := mgmt' }.mems = M := by
  unfold mems at h ⊢
  rw [← h, ← hg]
theorem mems_with_mclk_ready_rcv_pins {mclk' : Nat} {ready' : Bool} {rcv' : RcvSt} {pins' : Pins} (h : s.mems = M) :
    { s with mclk := mclk', ready := ready', rcv := rcv', pins := pins' }.mems = M := by unfold mems at h ⊢; exact h
theorem mems_with_mgmt {mgmt' : MgmtSt} (h : s.mems = M)
    (hg : mgmt'.sessionData = s.mgmt.sessionData := by rfl) :
    { s with mgmt := mgmt' }.mems = M := by
  unfold mems at h ⊢
  rw [← h, ← hg]
theorem mems_with_mouldSerial {mouldSerial' : Nat} (h : s.mems = M) :
    { s with mouldSerial := mouldSerial' }.mems = M := by unfold mems at h ⊢; exact h
theorem mems_with_mouldWait {mouldWait' : List (Nat × Nat)} (h : s.mems = M) :
    { s with mouldWait := mouldWait' }.mems = M := by unfold mems at h ⊢; exact h
theorem mems_with_moulds {moulds' : Tab Mould} (h : s.mems = M) :
    { s with moulds := moulds' }.mems = M := by unfold mems at h ⊢; exact h
theorem mems_with_nap {nap' : Tab (List NapBuf)} (h : s.mems = M) :
    { s with nap := nap' }.mems = M := by unfold mems at h ⊢; exact h
theorem mems_with_objs {objs' : Tab Obj} (h : s.mems = M) :
    { s with objs := objs' }.mems = M := by unfold mems at h ⊢; exact h
theorem mems_with_objs_ctxs_sec {objs' : Tab Obj} {ctxs' : Tab CtxSt} {sec' : SecSt} (h : s.mems = M) :
    { s with objs := objs', ctxs := ctxs', sec := sec' }.mems = M := by unfold mems at h ⊢; exact h
theorem mems_with_out {out' : List Out} (h : s.mems = M) :
    { s with out := out' }.mems = M := by unfold mems at h ⊢; exact h
theorem mems_with_out_vecs {out' : List Out} {vecs' : Tab Vec} (h : s.mems = M) :
    { s with out := out', vecs := vecs' }.mems = M := by unfold mems at h ⊢; exact h
theorem mems_with_pairHeld {pairHeld' : Tab (Option Word)} (h : s.mems = M) :
    { s with pairHeld := pairHeld' }.mems = M := by unfold mems at h ⊢; exact h
theorem mems_with_pairLatch {pairLatch' : Tab (Option Word)} (h : s.mems = M) :
    { s with pairLatch := pairLatch' }.mems = M := by unfold mems at h ⊢; exact h
theorem mems_with_parts {parts' : Tab PartSt} (h : s.mems = M) :
    { s with parts := parts' }.mems = M := by unfold mems at h ⊢; exact h
theorem mems_with_pending {pending' : List Instr} (h : s.mems = M) :
    { s with pending := pending' }.mems = M := by unfold mems at h ⊢; exact h
theorem mems_with_pins {pins' : Pins} (h : s.mems = M) :
    { s with pins := pins' }.mems = M := by unfold mems at h ⊢; exact h
theorem mems_with_power {power' : PowerSt} (h : s.mems = M) :
    { s with power := power' }.mems = M := by unfold mems at h ⊢; exact h
theorem mems_with_rcv {rcv' : RcvSt} (h : s.mems = M) :
    { s with rcv := rcv' }.mems = M := by unfold mems at h ⊢; exact h
theorem mems_with_ready {ready' : Bool} (h : s.mems = M) :
    { s with ready := ready' }.mems = M := by unfold mems at h ⊢; exact h
theorem mems_with_rebind {rebind' : Tab Rebind} (h : s.mems = M) :
    { s with rebind := rebind' }.mems = M := by unfold mems at h ⊢; exact h
theorem mems_with_rebind_parts {rebind' : Tab Rebind} {parts' : Tab PartSt} (h : s.mems = M) :
    { s with rebind := rebind', parts := parts' }.mems = M := by unfold mems at h ⊢; exact h
theorem mems_with_regls {regls' : Tab Regl} (h : s.mems = M) :
    { s with regls := regls' }.mems = M := by unfold mems at h ⊢; exact h
theorem mems_with_regs {regs' : Tab Word} (h : s.mems = M) :
    { s with regs := regs' }.mems = M := by unfold mems at h ⊢; exact h
theorem mems_with_regs_moulds_spanTbl_joins_spanNo_toks {regs' : Tab Word} {moulds' : Tab Mould} {spanTbl' : Tab Nat}
    {joins' : Tab JoinSt} {spanNo' : Tab Nat} {toks' : List Tok} (h : s.mems = M) :
    { s with regs := regs', moulds := moulds', spanTbl := spanTbl', joins := joins', spanNo := spanNo', toks := toks' }.mems = M := by unfold mems at h ⊢; exact h
theorem mems_with_regs_xreq_atsOn_inval_vecs_sec_pins {regs' : Tab Word} {xreq' : List (Nat × Nat)} {atsOn' : Tab Bool}
    {inval' : List Nat} {vecs' : Tab Vec} {sec' : SecSt} {pins' : Pins} (h : s.mems = M) :
    { s with regs := regs', xreq := xreq', atsOn := atsOn', inval := inval', vecs := vecs', sec := sec', pins := pins' }.mems = M := by unfold mems at h ⊢; exact h
theorem mems_with_reqs {reqs' : Tab (Option LinkReq)} (h : s.mems = M) :
    { s with reqs := reqs' }.mems = M := by unfold mems at h ⊢; exact h
theorem mems_with_reqs_nextTag {reqs' : Tab (Option LinkReq)} {nextTag' : Nat} (h : s.mems = M) :
    { s with reqs := reqs', nextTag := nextTag' }.mems = M := by unfold mems at h ⊢; exact h
theorem mems_with_routes {routes' : Tab Route} (h : s.mems = M) :
    { s with routes := routes' }.mems = M := by unfold mems at h ⊢; exact h
theorem mems_with_rwo {rwo' : Tab Bool} (h : s.mems = M) :
    { s with rwo := rwo' }.mems = M := by unfold mems at h ⊢; exact h
theorem mems_with_seamErr {seamErr' : Tab (Nat × Nat)} (h : s.mems = M) :
    { s with seamErr := seamErr' }.mems = M := by unfold mems at h ⊢; exact h
theorem mems_with_seamFifo {seamFifo' : Tab (List (BitVec 256))} (h : s.mems = M) :
    { s with seamFifo := seamFifo' }.mems = M := by unfold mems at h ⊢; exact h
theorem mems_with_seamSeq {seamSeq' : Tab Nat} (h : s.mems = M) :
    { s with seamSeq := seamSeq' }.mems = M := by unfold mems at h ⊢; exact h
theorem mems_with_sec {sec' : SecSt} (h : s.mems = M) :
    { s with sec := sec' }.mems = M := by unfold mems at h ⊢; exact h
theorem mems_with_segPend {segPend' : Tab SegPend} (h : s.mems = M) :
    { s with segPend := segPend' }.mems = M := by unfold mems at h ⊢; exact h
theorem mems_with_segStage {segStage' : Tab Word} (h : s.mems = M) :
    { s with segStage := segStage' }.mems = M := by unfold mems at h ⊢; exact h
theorem mems_with_slices {slices' : Tab SliceSt} (h : s.mems = M) :
    { s with slices := slices' }.mems = M := by unfold mems at h ⊢; exact h
theorem mems_with_spanNo {spanNo' : Tab Nat} (h : s.mems = M) :
    { s with spanNo := spanNo' }.mems = M := by unfold mems at h ⊢; exact h
theorem mems_with_spanTbl {spanTbl' : Tab Nat} (h : s.mems = M) :
    { s with spanTbl := spanTbl' }.mems = M := by unfold mems at h ⊢; exact h
theorem mems_with_tails {tails' : Tab Word} (h : s.mems = M) :
    { s with tails := tails' }.mems = M := by unfold mems at h ⊢; exact h
theorem mems_with_tails_heads_cmds_latched {tails' : Tab Word} {heads' : Tab (Option Bytes)} {cmds' : Tab (List Cmd)}
    {latched' : Tab (List (Nat × Nat))} (h : s.mems = M) :
    { s with tails := tails', heads := heads', cmds := cmds', latched := latched' }.mems = M := by unfold mems at h ⊢; exact h
theorem mems_with_therm {therm' : ThermSt} (h : s.mems = M) :
    { s with therm := therm' }.mems = M := by unfold mems at h ⊢; exact h
theorem mems_with_therm_pins {therm' : ThermSt} {pins' : Pins} (h : s.mems = M) :
    { s with therm := therm', pins := pins' }.mems = M := by unfold mems at h ⊢; exact h
theorem mems_with_toks {toks' : List Tok} (h : s.mems = M) :
    { s with toks := toks' }.mems = M := by unfold mems at h ⊢; exact h
theorem mems_with_towers {towers' : Tab TowerSt} (h : s.mems = M) :
    { s with towers := towers' }.mems = M := by unfold mems at h ⊢; exact h
theorem mems_with_trans {trans' : List Trans} (h : s.mems = M) :
    { s with trans := trans' }.mems = M := by unfold mems at h ⊢; exact h
theorem mems_with_trans_inval {trans' : List Trans} {inval' : List Nat} (h : s.mems = M) :
    { s with trans := trans', inval := inval' }.mems = M := by unfold mems at h ⊢; exact h
theorem mems_with_trunks {trunks' : Tab TrunkSt} (h : s.mems = M) :
    { s with trunks := trunks' }.mems = M := by unfold mems at h ⊢; exact h
theorem mems_with_vecs {vecs' : Tab Vec} (h : s.mems = M) :
    { s with vecs := vecs' }.mems = M := by unfold mems at h ⊢; exact h
theorem mems_with_xreq {xreq' : List (Nat × Nat)} (h : s.mems = M) :
    { s with xreq := xreq' }.mems = M := by unfold mems at h ⊢; exact h

/-! ### The operations, in the order of the model -/

theorem memOk_onUnit {ok : Bool} (h : t.MemOk) : (onUnit ok t).MemOk := by
  cases ok
  · trivial
  · exact h

theorem wr_mems (h : s.mems = M) {off v : ℕ} : (s.wr off v).mems = M := by
  unfold wr
  exact mems_with_regs h

theorem set_mems (h : s.mems = M) {pg : ℕ} {f : F} {v : ℕ} : (s.set pg f v).mems = M := by
  unfold set
  exact wr_mems h

theorem mark_mems (h : s.mems = M) {pg : ℕ} {f : F} {b : Bool} : (s.mark pg f b).mems = M := by
  unfold mark
  exact set_mems h

theorem wr64_mems (h : s.mems = M) {off v : ℕ} : (s.wr64 off v).mems = M := by
  unfold wr64
  exact wr_mems (wr_mems h)

theorem bump_mems (h : s.mems = M) {off n : ℕ} : (s.bump off n).mems = M := by
  unfold bump
  exact wr_mems h

theorem bumpF_mems (h : s.mems = M) {pg : ℕ} {f : F} {n : ℕ} : (s.bumpF pg f n).mems = M := by
  unfold bumpF
  exact set_mems h

theorem bump64_mems (h : s.mems = M) {off n : ℕ} : (s.bump64 off n).mems = M := by
  unfold bump64
  exact wr64_mems h

theorem updCell_mems (h : s.mems = M) {k : ℕ} {f : CellSt → CellSt} : (s.updCell k f).mems = M := by
  unfold updCell
  exact mems_with_cells h

theorem updCore_mems (h : s.mems = M) {k : ℕ} {f : CoreSt → CoreSt} : (s.updCore k f).mems = M := by
  unfold updCore
  exact mems_with_cores h

theorem updSlice_mems (h : s.mems = M) {k : ℕ} {f : SliceSt → SliceSt} : (s.updSlice k f).mems = M := by
  unfold updSlice
  exact mems_with_slices h

theorem updChan_mems (h : s.mems = M) {k : ℕ} {f : ChanSt → ChanSt} : (s.updChan k f).mems = M := by
  unfold updChan
  exact mems_with_chans h

theorem updTower_mems (h : s.mems = M) {k : ℕ} {f : TowerSt → TowerSt} : (s.updTower k f).mems = M := by
  unfold updTower
  exact mems_with_towers h

theorem updMould_mems (h : s.mems = M) {k : ℕ} {f : Mould → Mould} : (s.updMould k f).mems = M := by
  unfold updMould
  exact mems_with_moulds h

theorem updSegPend_mems (h : s.mems = M) {k : ℕ} {f : SegPend → SegPend} : (s.updSegPend k f).mems = M := by
  unfold updSegPend
  exact mems_with_segPend h

theorem updObj_mems (h : s.mems = M) {k : ℕ} {f : Obj → Obj} : (s.updObj k f).mems = M := by
  unfold updObj
  exact mems_with_objs h

theorem updVec_mems (h : s.mems = M) {k : ℕ} {f : Vec → Vec} : (s.updVec k f).mems = M := by
  unfold updVec
  exact mems_with_vecs h

theorem updRebind_mems (h : s.mems = M) {k : ℕ} {f : Rebind → Rebind} : (s.updRebind k f).mems = M := by
  unfold updRebind
  exact mems_with_rebind h

theorem updJoin_mems (h : s.mems = M) {k : ℕ} {f : JoinSt → JoinSt} : (s.updJoin k f).mems = M := by
  unfold updJoin
  exact mems_with_joins h

theorem updCtx_mems (h : s.mems = M) {k : ℕ} {f : CtxSt → CtxSt} : (s.updCtx k f).mems = M := by
  unfold updCtx
  exact mems_with_ctxs h

theorem updPart_mems (h : s.mems = M) {k : ℕ} {f : PartSt → PartSt} : (s.updPart k f).mems = M := by
  unfold updPart
  exact mems_with_parts h

theorem updLink_mems (h : s.mems = M) {k : ℕ} {f : LinkSt → LinkSt} : (s.updLink k f).mems = M := by
  unfold updLink
  exact mems_with_links h

theorem updTrunk_mems (h : s.mems = M) {k : ℕ} {f : TrunkSt → TrunkSt} : (s.updTrunk k f).mems = M := by
  unfold updTrunk
  exact mems_with_trunks h

theorem updRoute_mems (h : s.mems = M) {k : ℕ} {f : Route → Route} : (s.updRoute k f).mems = M := by
  unfold updRoute
  exact mems_with_routes h

theorem updRegl_mems (h : s.mems = M) {k : ℕ} {f : Regl → Regl} : (s.updRegl k f).mems = M := by
  unfold updRegl
  exact mems_with_regls h

theorem emit_mems (h : s.mems = M) {o : Out} : (s.emit o).mems = M := by
  unfold emit
  exact mems_with_out h

theorem draw_mems (h : s.mems = M) : s.draw.2.mems = M := by
  unfold draw
  exact mems_with_draws h

theorem markHostPage_mems (h : s.mems = M) {fn page : ℕ} : (s.markHostPage fn page).mems = M := by
  unfold markHostPage
  refine mems_ite (set_mems h) ?_
  extract_lets
  split
  next _ t e =>
    have ht : t.mems = M := by
      refine mems_of_eq_snd e ?_
      split
      · exact h
      · exact draw_mems h
    exact emit_mems (mems_with_dlogWords ht)

theorem dlogFlush_mems (h : s.mems = M) {fn bm : ℕ} : (s.dlogFlush fn bm).mems = M := by
  unfold dlogFlush
  refine mems_foldl (fun _ _ h => ?_) (mems_with_dlogWords h)
  split
  · exact emit_mems h
  · exact h

theorem hostStore_mems (h : s.mems = M) {fn addr : ℕ} {data : Bytes} : (s.hostStore fn addr data).mems = M := by
  unfold hostStore
  exact mems_ite h (emit_mems (mems_ite (mems_foldl (fun _ _ h => markHostPage_mems h) h) h))

theorem message_mems (h : s.mems = M) {fn v holdoff : ℕ} : (s.message fn v holdoff).mems = M := by
  unfold message
  exact mems_ite h (mems_ite (mems_with_vecs h) (mems_ite (mems_with_vecs h) (mems_with_out_vecs h)))

theorem evqWrite_mems (h : s.mems = M) {e typ fn : ℕ} {payload : Bytes} : (s.evqWrite e typ fn payload).mems = M := by
  unfold evqWrite
  exact message_mems (wr_mems (hostStore_mems h))

theorem evqCatchUp_mems (h : s.mems = M) {e : ℕ} : (s.evqCatchUp e).mems = M := by
  unfold evqCatchUp
  exact mems_ite h (evqWrite_mems (mems_with_evqLost h))

theorem event_mems (h : s.mems = M) {e typ fn : ℕ} {payload : Bytes} : (s.event e typ fn payload).mems = M := by
  unfold event
  refine mems_ite h ?_
  exact
    have h1 := evqCatchUp_mems h
    mems_ite (mems_with_evqLost (bump_mems h1)) (evqWrite_mems h1)

theorem eventAll_mems (h : s.mems = M) {es : List ℕ} {typ fn : ℕ} {payload : Bytes} : (s.eventAll es typ fn payload).mems = M := by
  unfold eventAll
  exact mems_foldl (fun _ _ h => event_mems h) h

theorem event0_mems (h : s.mems = M) {typ : ℕ} {payload : Bytes} : (s.event0 typ payload).mems = M := by
  unfold event0
  exact event_mems h

theorem pageError_mems (h : s.mems = M) {pg before : ℕ} : (s.pageError pg before).mems = M := by
  unfold pageError
  exact mems_ite (event0_mems h) h

theorem raise_mems (h : s.mems = M) {pg b : ℕ} : (s.raise pg b).mems = M := by
  unfold raise
  exact pageError_mems (set_mems h)

theorem badAccess_mems (h : s.mems = M) {pg : ℕ} : (s.badAccess pg).mems = M := by
  unfold badAccess
  exact raise_mems (bumpF_mems h)

theorem errCount_mems (h : s.mems = M) {pg off n : ℕ} : (s.errCount pg off n).mems = M := by
  unfold errCount
  exact raise_mems (bump_mems h)

theorem errCountF_mems (h : s.mems = M) {pg : ℕ} {f : F} {n : ℕ} : (s.errCountF pg f n).mems = M := by
  unfold errCountF
  exact raise_mems (bumpF_mems h)

theorem alertPin_mems (h : s.mems = M) : s.alertPin.mems = M := by
  unfold alertPin
  exact mems_with_pins h

theorem alarm_mems (h : s.mems = M) {b : ℕ} : (s.alarm b).mems = M := by
  unfold alarm
  exact alertPin_mems (wr_mems (mems_with_mgmt h))

theorem updCmd_mems (h : s.mems = M) {q seq : ℕ} {f : Cmd → Cmd} : (s.updCmd q seq f).mems = M := by
  unfold updCmd
  exact mems_with_cmds h

theorem mapCmds_mems (h : s.mems = M) {p : Cmd → Bool} {f : Cmd → Cmd} : (s.mapCmds p f).mems = M := by
  unfold mapCmds
  exact mems_with_cmds h

theorem breakCmd_mems (h : s.mems = M) {q seq code srcKind srcId detail remote : ℕ} :
    (s.breakCmd q seq code srcKind srcId detail remote).mems = M := by
  unfold breakCmd
  exact updCmd_mems h

theorem setRetired_mems (h : s.mems = M) {typ idx reason : ℕ} : (s.setRetired typ idx reason).mems = M := by
  unfold setRetired
  exact mems_with_capt_captReason h

theorem capTouch_mems (h : s.mems = M) : s.capTouch.mems = M := by
  unfold capTouch
  exact mems_with_captGen h

theorem capOpen_mems (h : s.mems = M) {slice : ℕ} : (s.capOpen slice).mems = M := by
  unfold capOpen
  exact mems_ite h (mems_with_captGen_rcv h)

theorem capClose_mems (h : s.mems = M) {slice : ℕ} : (s.capClose slice).mems = M := by
  unfold capClose
  exact mems_with_captGen_rcv h

theorem unitRetired_mems (h : s.mems = M) {typ idx reason : ℕ} {holders : List ℕ} : (s.unitRetired typ idx reason holders).mems = M := by
  unfold unitRetired
  exact
    have h1 := setRetired_mems h
    eventAll_mems (alarm_mems (mems_ite (capClose_mems h1) (capTouch_mems h1)))

theorem beat_mems (h : s.mems = M) {kind idx : ℕ} : (s.beat kind idx).mems = M := by
  unfold beat
  exact mems_with_beacons h

theorem fault_mems (h : s.mems = M) {row idx what : ℕ} : (s.fault row idx what).mems = M := by
  unfold fault
  exact mems_with_rcv h

theorem countWarnings_mems (h : s.mems = M) {c : Cmd} : (s.countWarnings c).mems = M := by
  unfold countWarnings
  refine mems_ite h ?_
  exact
    have h1 := mems_ite (bump_mems h) h
    have h2 := mems_ite (bump_mems h1) h1
    mems_ite (event_mems h2) h2

theorem forgetReqs_mems (h : s.mems = M) {q seq : ℕ} : (s.forgetReqs q seq).mems = M := by
  unfold forgetReqs
  exact mems_with_reqs h

theorem breakAwaiting_mems (h : s.mems = M) {code detail : ℕ} {c : Cmd} : (s.breakAwaiting code detail c).mems = M := by
  unfold breakAwaiting
  exact forgetReqs_mems (updCmd_mems h)

theorem setLatch_mems (h : s.mems = M) {c : Cmd} : (s.setLatch c).mems = M := by
  unfold setLatch
  exact mems_ite h (mems_foldl (fun _ _ h => breakAwaiting_mems h) (mapCmds_mems (set_mems (mems_with_latched h))))

theorem clearLatch_mems (h : s.mems = M) {q : ℕ} : (s.clearLatch q).mems = M := by
  unfold clearLatch
  exact set_mems (mems_with_latched h)

theorem fenSettle_mems (h : s.mems = M) {f : ℕ} : (s.fenSettle f).mems = M := by
  unfold fenSettle
  exact mems_ite h (set_mems h)

theorem raiseTarget_mems (h : s.mems = M) {f v : ℕ} : (s.raiseTarget f v).mems = M := by
  unfold raiseTarget
  exact mems_ite (fenSettle_mems (wr64_mems h)) h

theorem fenErr_mems (h : s.mems = M) {f : ℕ} : (s.fenErr f).mems = M := by
  unfold fenErr
  exact raise_mems (bump_mems h)

theorem signalFence_mems (h : s.mems = M) {f v : ℕ} : (s.signalFence f v).mems = M := by
  unfold signalFence
  exact mems_ite (fenErr_mems h) (fenSettle_mems (mems_ite (wr64_mems h) h))

theorem breakFence_mems (h : s.mems = M) {f : ℕ} {record : Bytes} : (s.breakFence f record).mems = M := by
  unfold breakFence
  exact
    have h1 := fenErr_mems h
    mems_ite h1 (set_mems (mems_foldl (fun _ _ h => wr_mems h) h1))

theorem brokenEvent_mems (h : s.mems = M) {f code q seq : ℕ} : (s.brokenEvent f code q seq).mems = M := by
  unfold brokenEvent
  exact event_mems h

theorem breakFenceOf_mems (h : s.mems = M) {c : Cmd} : (s.breakFenceOf c).mems = M := by
  unfold breakFenceOf
  exact mems_ite h (brokenEvent_mems (breakFence_mems h))

theorem fenceRearm_mems (h : s.mems = M) {f : ℕ} : (s.fenceRearm f).mems = M := by
  unfold fenceRearm
  exact mems_ite (fenSettle_mems (set_mems h)) h

theorem mouldSettle_mems (h : s.mems = M) {p i : ℕ} : (s.mouldSettle p i).mems = M := by
  unfold mouldSettle
  exact mems_ite (updMould_mems h) h

theorem outOfTurn_mems (h : s.mems = M) {c : Cmd} : (s.outOfTurn c).mems = M := by
  unfold outOfTurn
  exact
    have h1 := setLatch_mems (breakFenceOf_mems (updCmd_mems h))
    mems_ite (mouldSettle_mems h1) h1

theorem forceBreak_mems (h : s.mems = M) {c : Cmd} {code : ℕ} : (s.forceBreak c code).mems = M := by
  unfold forceBreak
  exact mems_ite (breakAwaiting_mems h) (mems_ite h (mems_ite (updCmd_mems h) (outOfTurn_mems h)))

theorem keyStartRetire_mems (h : s.mems = M) {k : ℕ} {force : Bool} : (s.keyStartRetire k force).mems = M := by
  unfold keyStartRetire
  exact
    have h1 := mems_ite (set_mems (set_mems (set_mems h))) h
    mems_ite (mems_foldl (fun _ _ h => forceBreak_mems h) h1) h1

theorem securityAlarm_mems (h : s.mems = M) {cause : ℕ} {slot : Option ℕ} {srcId : ℕ} : (s.securityAlarm cause slot srcId).mems = M := by
  unfold securityAlarm
  exact
    have h5 := alarm_mems (eventAll_mems (set_mems (set_mems (set_mems (errCount_mems (wr_mems h))))))
    mems_ite (keyStartRetire_mems h5) h5

theorem mapError_mems (h : s.mems = M) {idx : ℕ} {isSet : Bool} {rule : ℕ} : (s.mapError idx isSet rule).mems = M := by
  unfold mapError
  exact set_mems (mark_mems (set_mems h))

theorem storeLine_memOk (h : s.MemOk) {chan cl : ℕ} {g : Seal} {data : Bytes} : (s.storeLine chan cl g data).MemOk := by
  have hp := wf_spad h
  have hs := wf_share h
  have hd := wf_sessionData h
  unfold storeLine
  exact memOk_mk (Memory.wf_write (wf_mem h) _ _) hp hs hd

theorem uncorrected_mems (h : s.mems = M) {chan cl cw : ℕ} : (s.uncorrected chan cl cw).mems = M := by
  unfold uncorrected
  exact fault_mems (set_mems (set_mems (set_mems (errCount_mems h))))

theorem tagFailed_mems (h : s.mems = M) {chan cl : ℕ} {g : Seal} {cause : ℕ} : (s.tagFailed chan cl g cause).mems = M := by
  unfold tagFailed
  exact securityAlarm_mems (set_mems (set_mems (set_mems (errCount_mems h))))

theorem countEras_mems (h : s.mems = M) {chan cl : ℕ} : (s.countEras chan cl).mems = M := by
  unfold countEras
  exact mems_ite (bump_mems h) h

theorem fetchLine_mems (h : s.mems = M) {chan cl : ℕ} {want : Seal} {cause : ℕ} : (s.fetchLine chan cl want cause).1.mems = M := by
  unfold fetchLine
  refine mems_ite_fst (uncorrected_mems h) ?_
  exact
    have h1 := countEras_mems h
    mems_ite_fst h1 (mems_ite_fst h1 (tagFailed_mems h1))

theorem setBufs_mems (h : s.mems = M) {chan : ℕ} {l : List NapBuf} : (s.setBufs chan l).mems = M := by
  unfold setBufs
  exact mems_with_nap h

theorem writeBack_memOk (h : s.MemOk) {chan : ℕ} {b : NapBuf} : (s.writeBack chan b).MemOk := by
  unfold writeBack
  exact memOk_ite (of_mems (bump64_mems rfl) (storeLine_memOk h)) h

theorem dropOther_memOk (h : s.MemOk) {chan cl key : ℕ} {wb : Bool} : (s.dropOther chan cl key wb).MemOk := by
  unfold dropOther
  split
  · exact h
  · exact of_mems (setBufs_mems rfl) (memOk_ite (writeBack_memOk h) h)

theorem makeRoom_memOk (h : s.MemOk) {chan : ℕ} : (s.makeRoom chan).MemOk := by
  unfold makeRoom
  refine memOk_ite h ?_
  dsimp only
  split
  · exact h
  · exact of_mems (setBufs_mems rfl) (writeBack_memOk h)

theorem useBuf_mems (h : s.mems = M) {chan : ℕ} {b : NapBuf} : (s.useBuf chan b).mems = M := by
  unfold useBuf
  exact setBufs_mems h

theorem markBlock_mems (h : s.mems = M) {dpa : ℕ} : (s.markBlock dpa).mems = M := by
  unfold markBlock
  split
  · exact h
  · exact
      have h1 := mems_ite (updPart_mems h) h
      mems_ite (set_mems (updRebind_mems h1)) h1

theorem openBuf_memOk (h : s.MemOk) {chan cl key part dpa cause : ℕ} : (s.openBuf chan cl key part dpa cause).1.MemOk := by
  unfold openBuf
  split
  · exact of_mems (bump64_mems (useBuf_mems rfl)) h
  · exact
      have h1 := makeRoom_memOk (dropOther_memOk h)
      by
        extract_lets
        split
        next t _ e =>
          split
          · exact of_mems (bump64_mems (useBuf_mems rfl)) (memOk_of_eq e (of_mems (fetchLine_mems rfl) h1))
          · exact memOk_of_eq e (of_mems (fetchLine_mems rfl) h1)

theorem lineRead_memOk (h : s.MemOk) {p : Place} {key dpa : ℕ} : (s.lineRead p key dpa).1.MemOk := by
  unfold lineRead
  split
  · exact
      have h1 := of_mems (bump64_mems rfl) h
      memOk_ite_fst (of_mems (useBuf_mems rfl) (writeBack_memOk h1)) (of_mems (useBuf_mems rfl) h1)
  · exact of_mems (fetchLine_mems rfl) (dropOther_memOk h)

theorem lineWrite_memOk (h : s.MemOk) {p : Place} {key dpa : ℕ} {data : Bytes} : (s.lineWrite p key dpa data).MemOk := by
  unfold lineWrite
  exact of_mems (markBlock_mems rfl) (storeLine_memOk (of_mems (setBufs_mems rfl) h))

theorem lineModify_memOk (h : s.MemOk) {p : Place} {key part dpa : ℕ} {f : Bytes → Bytes × Bytes} : (s.lineModify p key part dpa f).1.MemOk := by
  unfold lineModify
  split
  next t _ e =>
    exact memOk_of_eq e (openBuf_memOk h)
  next t _ e =>
    exact of_mems (markBlock_mems (useBuf_mems rfl)) (memOk_of_eq e (openBuf_memOk h))

theorem lineShort_memOk (h : s.MemOk) {p : Place} {key part dpa n : ℕ} : (s.lineShort p key part dpa n).1.MemOk := by
  unfold lineShort
  split
  next t _ e =>
    exact memOk_of_eq e (openBuf_memOk h)
  next t _ e =>
    exact memOk_of_eq e (openBuf_memOk h)

theorem admitReq_mems (h : s.mems = M) {r : Req} : (s.admitReq r).1.mems = M := by
  unfold admitReq
  split
  · exact h
  · exact mems_ite_fst (errCount_mems h) (mems_ite_fst h (mems_ite_fst h h))

theorem deliver_mems (h : s.mems = M) {r : Req} {x : NapRes} : (s.deliver r x).mems = M := by
  unfold deliver
  split
  · exact mems_ite h (emit_mems h)
  · exact h
  · exact h
  · exact emit_mems (breakCmd_mems h)

theorem xlatRej_mems (h : s.mems = M) {x reason seg range : ℕ} {run : Bool} : (s.xlatRej x reason seg range run).mems = M := by
  unfold xlatRej
  exact errCount_mems (wr_mems h)

theorem serve_memOk (h : s.MemOk) {r : Req} {n : ℕ} {f : State → Place → State × NapRes} (hf : ∀ s p, s.MemOk → (f s p).1.MemOk) :
    (s.serve r n f).MemOk := by
  unfold serve
  split
  · exact of_mems (breakCmd_mems (xlatRej_mems rfl)) h
  · split
    next t p _ e => exact of_mems (deliver_mems rfl) (hf _ p (of_mems (beat_mems (mems_of_eq e (admitReq_mems rfl))) h))
    next t _ e => exact of_mems (deliver_mems (mems_of_eq e (admitReq_mems rfl))) h

theorem serveAligned_memOk (h : s.MemOk) {r : Req} {n : ℕ} {f : State → Place → State × NapRes} (hf : ∀ s p, s.MemOk → (f s p).1.MemOk) :
    (s.serveAligned r n f).MemOk := by
  unfold serveAligned
  exact memOk_ite (of_mems (breakCmd_mems rfl) h) (serve_memOk h hf)

theorem atomic_memOk (h : s.MemOk) {r : Req} {wide ret : Bool} {f : ℕ → ℕ} : (s.atomic r wide ret f).MemOk := by
  unfold atomic
  exact serveAligned_memOk h (fun _ _ h => lineModify_memOk h)

theorem readDev_memOk {n key dpa k : ℕ} (h : s.MemOk) : (readDev n s key dpa k).1.MemOk := by
  induction n generalizing s dpa k with
  | zero => exact h
  | succ n ih =>
    unfold readDev
    refine memOk_ite_fst h ?_
    split
    · exact h
    · refine memOk_ite_fst h ?_
      dsimp only
      split
      next t _ e =>
        have ht : t.MemOk := memOk_of_eq e (lineRead_memOk h)
        split
        next e => exact memOk_of_eq e (ih ht)
        next => exact ih ht
      next e => exact memOk_of_eq e (lineRead_memOk h)

theorem writeDev_memOk {n key part dpa : ℕ} {data : Bytes} (h : s.MemOk) : (writeDev n s key part dpa data).1.MemOk := by
  induction n generalizing s dpa data with
  | zero => exact h
  | succ n ih =>
    unfold writeDev
    refine memOk_ite_fst h ?_
    split
    · exact h
    · refine memOk_ite_fst h (memOk_ite_fst (ih (lineWrite_memOk h)) ?_)
      split
      next e => exact ih (memOk_of_eq e (lineModify_memOk h))
      next => exact lineModify_memOk h

theorem devRead_memOk (h : s.MemOk) {key dpa n : ℕ} : (s.devRead key dpa n).1.MemOk := by
  unfold devRead
  exact readDev_memOk h

theorem devWrite_memOk (h : s.MemOk) {key part dpa : ℕ} {data : Bytes} : (s.devWrite key part dpa data).1.MemOk := by
  unfold devWrite
  exact writeDev_memOk h

theorem flushChan_memOk (h : s.MemOk) {chan : ℕ} {p : NapBuf → Bool} : (s.flushChan chan p).1.MemOk := by
  unfold flushChan
  exact of_mems (setBufs_mems rfl) (memOk_foldl (fun _ _ h => writeBack_memOk h) h)

theorem flushTower_memOk (h : s.MemOk) {key part : ℕ} {byPart : Bool} {p : NapBuf → Bool} {t : ℕ} : (s.flushTower key part byPart p t).MemOk := by
  unfold flushTower
  split
  next t n e =>
    have ht : t.MemOk := memOk_of_eq e (memOk_foldl_fst (fun _ _ h => flushChan_memOk h) h)
    exact of_mems (set_mems (mark_mems (mems_ite (set_mems rfl) (set_mems rfl)))) ht

theorem flushKey_memOk (h : s.MemOk) {k : ℕ} : (s.flushKey k).MemOk := by
  unfold flushKey
  exact memOk_foldl (fun _ _ h => flushTower_memOk h) h

theorem flushPart_memOk (h : s.MemOk) {n : ℕ} : (s.flushPart n).MemOk := by
  unfold flushPart
  exact memOk_foldl (fun _ _ h => flushTower_memOk h) h

theorem countLanes_mems (h : s.mems = M) {chan : ℕ} {bad : List ℕ} : (s.countLanes chan bad).mems = M := by
  unfold countLanes
  exact mems_foldl (fun _ _ h => fault_mems h) h

theorem countCorr_mems (h : s.mems = M) {chan cl : ℕ} {bad : List ℕ} : (s.countCorr chan cl bad).mems = M := by
  unfold countCorr
  exact countEras_mems (mems_ite h (countLanes_mems (errCount_mems h)))

theorem setBad_mems (h : s.mems = M) {chan cl w : ℕ} : (s.setBad chan cl w).mems = M := by
  unfold setBad
  exact mems_with_badLines h

theorem refreshMode_mems (h : s.mems = M) {tower : ℕ} {doubled : Bool} : (s.refreshMode tower doubled).mems = M := by
  unfold refreshMode
  exact mems_ite h (capTouch_mems (mark_mems h))

theorem towerSample_mems (h : s.mems = M) {tower : ℕ} {temps : List ℤ} : (s.towerSample tower temps).1.mems = M := by
  unfold towerSample
  exact
    have h4 := set_mems (wr_mems (wr_mems (updTower_mems h)))
    have h5 := by
      split
      · exact h4
      · exact event0_mems (bumpF_mems (alarm_mems h4))
    mems_ite (refreshMode_mems h5) h5

theorem laneStat_mems (h : s.mems = M) {chan : ℕ} : (s.laneStat chan).mems = M := by
  unfold laneStat
  exact capTouch_mems (set_mems (set_mems (set_mems h)))

theorem sweepStart_mems (h : s.mems = M) {chan lane : ℕ} : (s.sweepStart chan lane).mems = M := by
  unfold sweepStart
  exact mems_ite h (laneStat_mems (set_mems (updChan_mems h)))

theorem trainChan_mems (h : s.mems = M) {chan : ℕ} {failed : List ℕ} : (s.trainChan chan failed).mems = M := by
  unfold trainChan
  exact laneStat_mems (mark_mems (mems_with_chans h))

theorem regionWrite_mems (h : s.mems = M) {r w v : ℕ} : (s.regionWrite r w v).1.mems = M := by
  unfold regionWrite
  refine mems_ite_fst ?_ (mems_ite_fst (mems_ite_fst h (mapError_mems h)) (wr_mems h))
  refine mems_ite_fst (mems_ite_fst (mems_ite_fst h (mapError_mems h)) (mems_ite_fst (mapError_mems h) (wr_mems h))) ?_
  refine mems_ite_fst ?_ (wr_mems h)
  exact
    have h1 := wr_mems h
    mems_ite_fst h1 (mapError_mems (wr_mems h1))

theorem setWrite_mems (h : s.mems = M) {n off v : ℕ} : (s.setWrite n off v).1.mems = M := by
  unfold setWrite
  exact mems_ite_fst (mapError_mems h) (wr_mems h)

theorem segApply_mems (h : s.mems = M) {x g : ℕ} {ws : List ℕ} : (s.segApply x g ws).mems = M := by
  unfold segApply
  exact mems_foldl (fun _ _ h => wr_mems h) h

theorem segNarrow_mems (h : s.mems = M) {x g : ℕ} {ws : List ℕ} {rebal : Bool} : (s.segNarrow x g ws rebal).mems = M := by
  unfold segNarrow
  exact
    have h1 := set_mems h
    updSegPend_mems (mems_ite (segApply_mems h1) h1)

theorem segDone_mems (h : s.mems = M) {x g : ℕ} : (s.segDone x g).mems = M := by
  unfold segDone
  exact event_mems (set_mems (updSegPend_mems h))

theorem segCommit_mems (h : s.mems = M) {x g : ℕ} : (s.segCommit x g).mems = M := by
  unfold segCommit
  exact mems_ite (set_mems h) (mems_ite (set_mems h) (mems_ite (set_mems (segApply_mems h)) (mems_ite (set_mems h) (set_mems
    (segNarrow_mems (mems_ite (segDone_mems h) h))))))

theorem segCancel_mems (h : s.mems = M) {x g : ℕ} : (s.segCancel x g).mems = M := by
  unfold segCancel
  exact mems_ite (set_mems (updSegPend_mems h)) h

theorem segSettle_mems (h : s.mems = M) {x : ℕ} : (s.segSettle x).mems = M := by
  unfold segSettle
  exact mems_foldl (fun _ _ h => mems_ite (updSegPend_mems (segApply_mems h)) h) h

theorem askTrans_mems (h : s.mems = M) {fn : ℕ} {pages : List ℕ} : (s.askTrans fn pages).mems = M := by
  unfold askTrans
  exact mems_foldl (fun _ _ h => mems_ite h (bump_mems (emit_mems (mems_with_xreq h)))) h

theorem xlatBreak_mems (h : s.mems = M) {c : Cmd} {reason code i : ℕ} : (s.xlatBreak c reason code i).mems = M := by
  unfold xlatBreak
  exact breakCmd_mems (xlatRej_mems h)

theorem retransFailed_mems (h : s.mems = M) {fn page : ℕ} : (s.retransFailed fn page).mems = M := by
  unfold retransFailed
  refine mems_foldl (fun _ _ h => ?_) h
  split
  · exact xlatBreak_mems h
  · exact h

theorem retransLacks_mems (h : s.mems = M) {fn : ℕ} {t : Machine.Trans} : (s.retransLacks fn t).mems = M := by
  unfold retransLacks
  refine mems_foldl (fun _ _ h => ?_) h
  split
  · exact xlatBreak_mems h
  · exact h

theorem askMarked_mems (h : s.mems = M) {fn : ℕ} : (s.askMarked fn).mems = M := by
  unfold askMarked
  exact askTrans_mems h

theorem retransDone_mems (h : s.mems = M) {fn : ℕ} : (s.retransDone fn).mems = M := by
  unfold retransDone
  exact mapCmds_mems h

theorem hostDlogFlip_mems (h : s.mems = M) {fn : ℕ} : (s.hostDlogFlip fn).mems = M := by
  unfold hostDlogFlip
  exact set_mems h

theorem deviceDlogFlip_mems (h : s.mems = M) {p : ℕ} : (s.deviceDlogFlip p).mems = M := by
  unfold deviceDlogFlip
  exact updPart_mems (set_mems h)

theorem transDrop_mems (h : s.mems = M) : s.transDrop.mems = M := by
  unfold transDrop
  exact mems_with_trans h

theorem objReleased_mems (h : s.mems = M) {x h' : ℕ} : (s.objReleased x h').mems = M := by
  unfold objReleased
  exact event_mems h

theorem objSettle_mems (h : s.mems = M) {x h' : ℕ} : (s.objSettle x h').mems = M := by
  unfold objSettle
  exact mems_ite (objReleased_mems (updObj_mems h)) h

theorem unlockSettle_mems (h : s.mems = M) : s.unlockSettle.mems = M := by
  unfold unlockSettle
  exact mems_ite (set_mems (wr_mems h)) h

theorem keyFinish_memOk (h : s.MemOk) {k : ℕ} : (s.keyFinish k).MemOk := by
  unfold keyFinish
  exact of_mems (unlockSettle_mems (eventAll_mems rfl)) (of_mems (set_mems (set_mems rfl)) (flushKey_memOk h))

theorem keySettle_memOk (h : s.MemOk) {k : ℕ} : (s.keySettle k).MemOk := by
  unfold keySettle
  exact memOk_ite (keyFinish_memOk h) h

theorem keysSettle_memOk (h : s.MemOk) : s.keysSettle.MemOk := by
  unfold keysSettle
  exact memOk_foldl (fun _ _ h => keySettle_memOk h) h

theorem holdsFree_memOk (h : s.MemOk) {c : Cmd} : (s.holdsFree c).MemOk := by
  unfold holdsFree
  exact memOk_foldl (fun _ _ h => keySettle_memOk h) (memOk_foldl (fun _ _ h => of_mems (objSettle_mems rfl) h) (of_mems
    (segSettle_mems (transDrop_mems rfl)) h))

theorem keyRetire_memOk (h : s.MemOk) {k : ℕ} {force : Bool} : (s.keyRetire k force).MemOk := by
  unfold keyRetire
  exact keySettle_memOk (memOk_foldl (fun _ _ h => holdsFree_memOk h) (of_mems (keyStartRetire_mems rfl) h))

theorem keyResult_mems (h : s.mems = M) {k n : ℕ} : (s.keyResult k n).mems = M := by
  unfold keyResult
  exact set_mems h

theorem keyArm_mems (h : s.mems = M) {k : ℕ} : (s.keyArm k).mems = M := by
  unfold keyArm
  refine mems_ite (keyResult_mems h) ?_
  split
  · exact keyResult_mems h
  · exact mems_ite (keyResult_mems h) (mems_ite (keyResult_mems h) (mems_ite (keyResult_mems h) (keyResult_mems (set_mems (set_mems
      (wr_mems h))))))

theorem keyRetireReq_memOk (h : s.MemOk) {k : ℕ} {retire force : Bool} : (s.keyRetireReq k retire force).MemOk := by
  unfold keyRetireReq
  exact memOk_ite (memOk_ite (of_mems (keyResult_mems rfl) h) (memOk_ite (of_mems (keyResult_mems rfl) h) (keyRetire_memOk h)))
    (memOk_ite (keyRetire_memOk h) h)

theorem lockViol_mems (h : s.mems = M) : s.lockViol.mems = M := by
  unfold lockViol
  exact bump_mems h

theorem keyCtlWrite_memOk (h : s.MemOk) {k v : ℕ} : (s.keyCtlWrite k v).MemOk := by
  unfold keyCtlWrite
  exact
    have h1 := memOk_ite (of_mems (lockViol_mems rfl) h) (memOk_ite (of_mems (wr_mems rfl) h) h)
    keyRetireReq_memOk (memOk_ite (of_mems (keyArm_mems rfl) h1) h1)

theorem ownerHashWrite_mems (h : s.mems = M) {k off v : ℕ} : (s.ownerHashWrite k off v).1.mems = M := by
  unfold ownerHashWrite
  exact mems_ite_fst h (mems_ite_fst (lockViol_mems h) (mems_ite_fst h (wr_mems h)))

theorem secProtectSet_mems (h : s.mems = M) {v : ℕ} : (s.secProtectSet v).mems = M := by
  unfold secProtectSet
  exact mems_ite h (wr_mems h)

theorem keyLockSet_mems (h : s.mems = M) {v : ℕ} : (s.keyLockSet v).mems = M := by
  unfold keyLockSet
  exact wr_mems h

theorem kftWriteWord_mems (h : s.mems = M) {i v : ℕ} : (s.kftWriteWord i v).1.mems = M := by
  unfold kftWriteWord
  exact mems_ite_fst h (mems_ite_fst (lockViol_mems h) (mems_with_sec h))

theorem routesHold_mems (h : s.mems = M) {nb : ℕ} : (s.routesHold nb).mems = M := by
  unfold routesHold
  exact mems_ite h (mems_foldl (fun _ _ h => mems_ite (updRoute_mems h) h) h)

theorem toStream_mems (h : s.mems = M) {p : ℕ} {t : Txn} : (s.toStream p t).mems = M := by
  unfold toStream
  exact mems_ite (updLink_mems h) (updTrunk_mems h)

theorem transmit_mems (h : s.mems = M) {p : ℕ} {t : Txn} : (s.transmit p t).mems = M := by
  unfold transmit
  exact mems_ite (emit_mems (toStream_mems (updLink_mems h))) (updLink_mems h)

theorem depart_mems (h : s.mems = M) {p : ℕ} {t : Txn} : (s.depart p t).mems = M := by
  unfold depart
  exact transmit_mems h

theorem pump_mems (h : s.mems = M) {p : ℕ} : (s.pump p).mems = M := by
  unfold pump
  exact mems_foldl (fun _ _ h => transmit_mems h) (updLink_mems h)

theorem creditReturn_mems (h : s.mems = M) {p buf n : ℕ} : (s.creditReturn p buf n).mems = M := by
  unfold creditReturn
  exact pump_mems (updLink_mems h)

theorem issueReq_mems (h : s.mems = M) {r : LinkReq} {t : Txn} {l : List ℕ} : (s.issueReq r t l).mems = M := by
  unfold issueReq
  split
  · exact h
  · exact depart_mems (mems_with_reqs_nextTag h)

theorem sendReq_mems (h : s.mems = M) {c : Cmd} {slot dst : ℕ} {t : Txn} {r0 : LinkReq} : (s.sendReq c slot dst t r0).mems = M := by
  unfold sendReq
  refine mems_ite (updRoute_mems h) ?_
  split
  · exact breakCmd_mems h
  · exact mems_ite (breakCmd_mems h) (issueReq_mems h)

theorem sendColl_mems (h : s.mems = M) {part slot dst : ℕ} {t : Txn} : (s.sendColl part slot dst t).mems = M := by
  unfold sendColl
  extract_lets
  split
  · exact h
  · split
    · exact h
    · exact depart_mems h

theorem castColl_mems (h : s.mems = M) {part slot : ℕ} {t : Txn} : (s.castColl part slot t).mems = M := by
  unfold castColl
  exact mems_foldl (fun _ _ h => sendColl_mems h) h

theorem sendMgmt_mems (h : s.mems = M) {p : ℕ} {t : Txn} : (s.sendMgmt p t).mems = M := by
  unfold sendMgmt
  exact transmit_mems h

theorem remoteRead_mems (h : s.mems = M) {c : Cmd} {r : Range} {off n base : ℕ} : (s.remoteRead c r off n base).mems = M := by
  unfold remoteRead
  split
  · exact breakCmd_mems h
  · exact mems_foldl (fun _ _ h => sendReq_mems h) h

theorem remoteWrite_mems (h : s.mems = M) {c : Cmd} {r : Range} {off : ℕ} {data : Bytes} : (s.remoteWrite c r off data).mems = M := by
  unfold remoteWrite
  split
  · exact breakCmd_mems h
  · exact mems_foldl (fun _ _ h => sendReq_mems h) h

theorem remoteReduce_mems (h : s.mems = M) {c : Cmd} {slot dev key addr : ℕ} {xs : List LongAcc} :
    (s.remoteReduce c slot dev key addr xs).mems = M := by
  unfold remoteReduce
  exact mems_foldl (fun _ _ h => mems_foldl (fun _ _ h => sendReq_mems h) h) h

theorem hostRangeWrite_mems (h : s.mems = M) {fn : ℕ} {r : Range} {off : ℕ} {data : Bytes} : (s.hostRangeWrite fn r off data).mems = M := by
  unfold hostRangeWrite
  exact mems_ite h (mems_foldl (fun _ _ h => emit_mems h) (mems_ite (mems_foldl (fun _ _ h => markHostPage_mems h) h) h))

theorem hostRangeRead_mems (h : s.mems = M) {fn : ℕ} {r : Range} {off n : ℕ} : (s.hostRangeRead fn r off n).mems = M := by
  unfold hostRangeRead
  exact mems_ite h (mems_foldl (fun _ _ h => emit_mems h) h)

theorem rangeWrite_memOk (h : s.MemOk) {c : Cmd} {r : Range} {off : ℕ} {data : Bytes} : (s.rangeWrite c r off data).MemOk := by
  unfold rangeWrite
  refine memOk_ite h ?_
  refine memOk_ite ?_ (memOk_ite (of_mems (hostRangeWrite_mems rfl) h) (of_mems (remoteWrite_mems rfl) h))
  split
  next t _ _ _ e =>
    exact of_mems (breakCmd_mems rfl) (memOk_of_eq e (devWrite_memOk h))
  next t _ e =>
    exact memOk_of_eq e (devWrite_memOk h)

theorem rampFrom_mems (h : s.mems = M) {i milli : ℕ} : (s.rampFrom i milli).mems = M := by
  unfold rampFrom
  exact mems_with_power h

theorem fillCount_mems (h : s.mems = M) {i : ℕ} : (s.fillCount i).mems = M := by
  unfold fillCount
  split
  · exact h
  · exact mems_with_power (bump_mems h)

theorem fillStart_mems (h : s.mems = M) {i : ℕ} : (s.fillStart i).mems = M := by
  unfold fillStart
  exact mems_ite h (mems_with_power (draw_mems h))

theorem fillStop_mems (h : s.mems = M) {i : ℕ} : (s.fillStop i).mems = M := by
  unfold fillStop
  exact mems_ite h (mems_with_power (rampFrom_mems (fillCount_mems h)))

theorem fillIsland_mems (h : s.mems = M) {slice isl : ℕ} : (s.fillIsland slice isl).mems = M := by
  unfold fillIsland
  exact mems_ite (fillStart_mems h) h

theorem fillSlice_mems (h : s.mems = M) {slice : ℕ} : (s.fillSlice slice).mems = M := by
  unfold fillSlice
  exact mems_foldl (fun _ _ h => fillIsland_mems h) h

theorem unfillSlice_mems (h : s.mems = M) {slice : ℕ} : (s.unfillSlice slice).mems = M := by
  unfold unfillSlice
  exact mems_foldl (fun _ _ h => fillStop_mems h) h

theorem mouldRej_mems (h : s.mems = M) {x reason id : ℕ} {atEnq : Bool} {detail : ℕ} : (s.mouldRej x reason id atEnq detail).mems = M := by
  unfold mouldRej
  exact errCount_mems (set_mems (mark_mems (set_mems (set_mems h))))

theorem mouldRefuse_mems (h : s.mems = M) {c : Cmd} {reason id detail : ℕ} : (s.mouldRefuse c reason id detail).mems = M := by
  unfold mouldRefuse
  exact breakCmd_mems (mouldRej_mems h)

theorem cfgWrite_memOk (h : s.MemOk) {p off : ℕ} {b : Bytes} : (s.cfgWrite p off b).MemOk := by
  unfold cfgWrite
  refine memOk_foldl (fun _ _ h => ?_) h
  extract_lets
  split
  · exact of_mems (markBlock_mems rfl) (storeLine_memOk h)
  · exact h

theorem cfgRead_mems (h : s.mems = M) {p off n : ℕ} : (s.cfgRead p off n).1.mems = M := by
  unfold cfgRead
  refine mems_foldl_fst (fun x _ h => ?_) h
  obtain ⟨t, _ | b⟩ := x
  · exact h
  · dsimp only
    split
    · exact h
    · split
      next e => exact mems_of_eq e (fetchLine_mems h)
      next e => exact mems_of_eq e (fetchLine_mems h)

theorem cmdDone_mems (h : s.mems = M) {q seq result : ℕ} : (s.cmdDone q seq result).mems = M := by
  unfold cmdDone
  exact updCmd_mems h

theorem mouldEnter_memOk (h : s.MemOk) {c : Cmd} {m : Bytes} : (s.mouldEnter c m).MemOk := by
  unfold mouldEnter
  extract_lets p d ok a
  split
  · exact of_mems (cmdDone_mems (updMould_mems rfl)) h
  · exact of_mems (cmdDone_mems (updMould_mems rfl)) h
  · exact of_mems (mems_with_mouldWait rfl) h
  · cases s.mouldFree p with
    | some i =>
      dsimp only
      clear_value a
      cases a with
      | some a => exact cfgWrite_memOk (of_mems (mems_with_mouldSerial (updMould_mems rfl)) h)
      | none => exact of_mems (mems_with_mouldSerial (updMould_mems rfl)) h
    | none =>
      dsimp only
      split
      · exact of_mems (mouldRefuse_mems rfl) h
      · exact h

theorem mouldResume_memOk (h : s.MemOk) {w : ℕ × ℕ} : (s.mouldResume w).MemOk := by
  unfold mouldResume
  split
  · exact h
  · exact memOk_ite h (mouldEnter_memOk h)

theorem mapSlice_mems (h : s.mems = M) {slice : ℕ} {f : CellSt → CellSt} : (s.mapSlice slice f).mems = M := by
  unfold mapSlice
  exact mems_with_cells h

theorem cfgValid_mems (h : s.mems = M) {slice : ℕ} {b : Bool} : (s.cfgValid slice b).mems = M := by
  unfold cfgValid
  exact mems_foldl (fun _ _ h => mark_mems h) h

theorem setQuiet_mems (h : s.mems = M) {slice : ℕ} {b : Bool} : (s.setQuiet slice b).mems = M := by
  unfold setQuiet
  exact mems_foldl (fun _ _ h => mark_mems h) (set_mems h)

theorem setGates_mems (h : s.mems = M) {core : ℕ} : (s.setGates core).mems = M := by
  unfold setGates
  exact mems_foldl (fun _ _ h => mems_ite (mems_with_gates h) h) h

theorem setAllGates_mems (h : s.mems = M) : s.setAllGates.mems = M := by
  unfold setAllGates
  exact mems_foldl (fun _ _ h => setGates_mems h) h

theorem loadCells_mems (h : s.mems = M) {slice : ℕ} {m : Bytes} : (s.loadCells slice m).mems = M := by
  unfold loadCells
  exact updSlice_mems (mems_foldl (fun _ _ h => updCell_mems h) (mems_foldl (fun _ _ h => updCell_mems h) (mems_foldl (fun _ _ h =>
    updCell_mems h) (mapSlice_mems h))))

theorem rangeRead_memOk (h : s.MemOk) {r : Range} {off n : ℕ} : (s.rangeRead r off n).1.MemOk := by
  unfold rangeRead
  refine memOk_ite_fst ?_ (of_mems (draw_mems rfl) h)
  split
  next t _ e =>
    exact memOk_of_eq e (devRead_memOk h)
  next t _ e =>
    exact memOk_of_eq e (devRead_memOk h)

theorem fillLines_memOk (h : s.MemOk) {l : List (ℕ × ℕ)} {b : Bytes} : (s.fillLines l b).MemOk := by
  induction l generalizing s b with
  | nil => exact h
  | cons e l ih => exact memOk_ite h (ih (memOk_with_spad h (Memory.wf_write (wf_spad h) _ _)))

theorem resFill_memOk (h : s.MemOk) {c : Cmd} {slice : ℕ} : (s.resFill c slice).MemOk := by
  unfold resFill
  refine of_mems (updSlice_mems rfl) ?_
  refine memOk_foldl (fun _ _ h => ?_) h
  extract_lets
  split
  next t _ e =>
    refine fillLines_memOk ?_
    refine memOk_of_eq e ?_
    refine memOk_foldl_fst (fun _ _ h => ?_) h
    split
    next t _ e =>
      exact memOk_of_eq e (rangeRead_memOk h)
    next t _ e =>
      exact of_mems (breakCmd_mems rfl) (memOk_of_eq e (rangeRead_memOk h))

theorem updMovers_mems (h : s.mems = M) {core : ℕ} {f : Tab (List MoverReq) → Tab (List MoverReq)} : (s.updMovers core f).mems = M := by
  unfold updMovers
  exact set_mems (updCore_mems h)

theorem setMover_mems (h : s.mems = M) {core m : ℕ} {l : List MoverReq} : (s.setMover core m l).mems = M := by
  unfold setMover
  exact updMovers_mems h

theorem setMerge_mems (h : s.mems = M) {core : ℕ} {l : List Merge} : (s.setMerge core l).mems = M := by
  unfold setMerge
  exact
    have h1 := set_mems (updCore_mems h)
    mems_ite (set_mems h1) h1

theorem closeMerge_mems (h : s.mems = M) {core loc line n : ℕ} : (s.closeMerge core loc line n).mems = M := by
  unfold closeMerge
  exact setMerge_mems h

theorem shareWrite_memOk (h : s.MemOk) {slice line : ℕ} {b : Bytes} : (s.shareWrite slice line b).MemOk := by
  unfold shareWrite
  exact memOk_with_share (of_mems (closeMerge_mems rfl) h) (Memory.wf_write (wf_share h) _ _)

theorem moverBack_mems (h : s.mems = M) {core m : ℕ} {r : MoverReq} {n : ℕ} : (s.moverBack core m r n).mems = M := by
  unfold moverBack
  exact setMover_mems (mems_ite (beat_mems (beat_mems h)) h)

theorem arriveBytes_memOk (h : s.MemOk) {q seq at_ : ℕ} {b : Bytes} : (s.arriveBytes q seq at_ b).MemOk := by
  unfold arriveBytes
  split
  · extract_lets o line s1
    have hs : s1.MemOk := of_mems (closeMerge_mems rfl) h
    exact of_mems (moverBack_mems rfl) (memOk_with_share hs (Memory.wf_write (wf_share hs) _ _))
  · exact of_mems (updCmd_mems rfl) h

theorem scrubSlice_memOk (h : s.MemOk) {slice : ℕ} : (s.scrubSlice slice).MemOk := by
  unfold scrubSlice
  extract_lets core keys s1 s2 s3 s4 s5 s6
  have h1 : s1.MemOk := of_mems (unfillSlice_mems rfl) h
  have hm := wf_mem h1
  have hd := wf_sessionData h1
  have h2 : s2.MemOk := memOk_mk hm (Memory.wf_filter (wf_spad h1) _) (Memory.wf_clear (wf_share h1) _ _) hd
  have h5 : s5.MemOk := of_mems (updCore_mems (updMovers_mems (updSlice_mems rfl))) h2
  have h6 : s6.MemOk := by
    unfold s6
    split
    · exact flushPart_memOk h5
    · exact h5
  exact of_mems (cfgValid_mems (bumpF_mems rfl)) h6

theorem clearSlice_mems (h : s.mems = M) {slice : ℕ} : (s.clearSlice slice).mems = M := by
  unfold clearSlice
  exact mapSlice_mems h

theorem flushSlice_mems (h : s.mems = M) {slice q seq : ℕ} : (s.flushSlice slice q seq).mems = M := by
  unfold flushSlice
  exact updSlice_mems (updMovers_mems (mapSlice_mems (unfillSlice_mems h)))

theorem flushCmd_mems (h : s.mems = M) {q seq : ℕ} : (s.flushCmd q seq).mems = M := by
  unfold flushCmd
  exact mems_foldl (fun _ _ h => mems_ite (flushSlice_mems h) h) h

theorem dataLoss_mems (h : s.mems = M) {slice isl : ℕ} : (s.dataLoss slice isl).mems = M := by
  unfold dataLoss
  split
  · exact h
  · exact flushCmd_mems (breakCmd_mems h)

theorem cfgBad_mems (h : s.mems = M) {slice isl : ℕ} : (s.cfgBad slice isl).mems = M := by
  unfold cfgBad
  exact
    have h1 := errCountF_mems h
    cfgValid_mems (updSlice_mems (mems_ite (fault_mems h1) h1))

theorem issueQueued_mems (h : s.mems = M) {slice : ℕ} : (s.issueQueued slice).mems = M := by
  unfold issueQueued
  extract_lets core
  split
  next t _ e =>
    have ht : t.mems = M := mems_of_eq e (mems_foldl_fst (p := (s, [])) (fun _ _ h => mems_ite_fst (setMover_mems h) h) h)
    exact updSlice_mems ht

theorem resWriteBack_memOk (h : s.MemOk) {c : Cmd} {slice k B : ℕ} : (s.resWriteBack c slice k B).1.MemOk := by
  unfold resWriteBack
  refine memOk_foldl_fst (fun _ _ h => ?_) h
  refine memOk_foldl_fst (fun _ _ h => ?_) h
  refine memOk_ite_fst (rangeWrite_memOk h) ?_
  split
  next t e =>
    exact memOk_of_eq e (devWrite_memOk h)
  next t _ e =>
    exact memOk_of_eq e (devWrite_memOk h)
  next t _ e =>
    exact memOk_of_eq e (devWrite_memOk h)

theorem preamble_mems (h : s.mems = M) {c : Cmd} {slice l : ℕ} : (s.preamble c slice l).mems = M := by
  unfold preamble
  exact issueQueued_mems (updSlice_mems h)

theorem startCells_mems (h : s.mems = M) {slice phase iter : ℕ} : (s.startCells slice phase iter).mems = M := by
  unfold startCells
  exact mapSlice_mems h

theorem giveTile_mems (h : s.mems = M) {slice : ℕ} {c : Cmd} : (s.giveTile slice c).mems = M := by
  unfold giveTile
  split
  · exact h
  · exact preamble_mems (startCells_mems (setQuiet_mems (updSlice_mems (updCmd_mems h))))

theorem feed_mems (h : s.mems = M) {slice : ℕ} : (s.feed slice).mems = M := by
  unfold feed
  extract_lets x
  split
  · exact h
  · refine mems_ite h ?_
    dsimp only
    split
    · exact h
    · exact mems_ite (giveTile_mems h) (updSlice_mems h)

theorem feedCtx_mems (h : s.mems = M) {x : ℕ} : (s.feedCtx x).mems = M := by
  unfold feedCtx
  exact mems_foldl (fun _ _ h => feed_mems h) h

theorem reduceRuns_mems (h : s.mems = M) {c : Cmd} {slot dev key addr : ℕ} {xs : List (ℕ × LongAcc)} :
    (s.reduceRuns c slot dev key addr xs).mems = M := by
  unfold reduceRuns
  exact mems_foldl (fun _ _ h => remoteReduce_mems h) h

theorem addAccs_memOk (h : s.MemOk) {c : Cmd} {r : Range} {off : ℕ} {xs : List (ℕ × LongAcc)} : (s.addAccs c r off xs).MemOk := by
  unfold addAccs
  refine memOk_ite ?_ ?_
  · refine memOk_foldl (fun _ _ h => ?_) h
    extract_lets
    split
    · exact h
    · refine memOk_ite (of_mems (breakCmd_mems rfl) h) ?_
      split
      next t _ _ _ e =>
        exact of_mems (breakCmd_mems rfl) (memOk_of_eq e (lineModify_memOk h))
      next t _ e =>
        exact memOk_of_eq e (lineModify_memOk h)
  · refine memOk_ite ?_ h
    split
    · exact of_mems (reduceRuns_mems rfl) h
    · exact of_mems (breakCmd_mems rfl) h

theorem tileCombine_memOk (h : s.MemOk) {c : Cmd} {slice l : ℕ} : (s.tileCombine c slice l).MemOk := by
  unfold tileCombine
  exact memOk_ite (memOk_foldl (fun _ _ h => of_mems (reduceRuns_mems rfl) h) (addAccs_memOk h)) (memOk_ite (addAccs_memOk h)
    (memOk_ite (memOk_foldl (fun _ _ h => memOk_foldl (fun _ _ h => of_mems (remoteWrite_mems rfl) h) (rangeWrite_memOk h)) h) h))

theorem tileEnd_memOk (h : s.MemOk) {slice : ℕ} : (s.tileEnd slice).MemOk := by
  unfold tileEnd
  extract_lets
  split
  · refine memOk_ite h ?_
    refine of_mems (feed_mems (fillSlice_mems rfl)) ?_
    refine of_mems (mapSlice_mems rfl) ?_
    refine of_mems (updSlice_mems (beat_mems rfl)) ?_
    split
    · exact of_mems (updCmd_mems rfl) (tileCombine_memOk h)
    · exact h
  · exact h

theorem zeroArea_memOk (h : s.MemOk) {c : Cmd} {t : Tiling} : (s.zeroArea c t).MemOk := by
  unfold zeroArea
  exact memOk_ite (rangeWrite_memOk h) h

theorem openPhase_memOk (h : s.MemOk) {c : Cmd} : (s.openPhase c).MemOk := by
  unfold openPhase
  exact of_mems (feedCtx_mems rfl) (of_mems (updCmd_mems rfl) (zeroArea_memOk h))

theorem sendBarrier_mems (h : s.mems = M) {c : Cmd} {slot : ℕ} : (s.sendBarrier c slot).mems = M := by
  unfold sendBarrier
  exact updCmd_mems (castColl_mems h)

theorem barrierDone_mems (h : s.mems = M) {q seq : ℕ} : (s.barrierDone q seq).mems = M := by
  unfold barrierDone
  split
  · exact h
  · split
    · exact h
    · refine mems_ite h ?_
      exact
        have h1 := mems_ite h (by
          split
          · exact h
          · extract_lets
            split
            · exact h
            · exact set_mems (bump_mems h))
        updCmd_mems (mems_with_toks (mems_ite (bump_mems h1) h1))

theorem roundSite_memOk (h : s.MemOk) {c : Cmd} {tile elem0 n : ℕ} {conv : Fmt → List Rounding → Bytes × Bytes × ℕ} {i : ℕ} :
    (s.roundSite c tile elem0 n conv i).MemOk := by
  unfold roundSite
  extract_lets
  split
  · exact h
  · exact
      have h1 := rangeWrite_memOk h
      of_mems (updCmd_mems rfl) (memOk_ite (rangeWrite_memOk h1) h1)

theorem roundOut_memOk (h : s.MemOk) {c : Cmd} {tile elem0 n : ℕ} {conv : Fmt → List Rounding → Bytes × Bytes × ℕ} :
    (s.roundOut c tile elem0 n conv).MemOk := by
  unfold roundOut
  exact memOk_foldl (fun _ _ h => roundSite_memOk h) h

theorem combine_memOk (h : s.MemOk) {c : Cmd} : (s.combine c).MemOk := by
  unfold combine
  refine memOk_ite ?_ h
  refine memOk_foldl (fun _ _ h => ?_) h
  refine memOk_ite ?_ ?_
  · split
    next t _ e =>
      exact of_mems (breakCmd_mems rfl) (memOk_of_eq e (rangeRead_memOk h))
    next t _ e =>
      exact roundOut_memOk (memOk_of_eq e (rangeRead_memOk h))
  · split
    next t _ e =>
      refine memOk_ite ?_ ?_
      · refine memOk_of_eq e ?_
        refine memOk_foldl_fst (fun _ _ h => ?_) h
        split
        next t _ e =>
          exact memOk_of_eq e (rangeRead_memOk h)
        next t _ e =>
          exact of_mems (breakCmd_mems rfl) (memOk_of_eq e (rangeRead_memOk h))
      · refine roundOut_memOk ?_
        refine memOk_of_eq e ?_
        refine memOk_foldl_fst (fun _ _ h => ?_) h
        split
        next t _ e =>
          exact memOk_of_eq e (rangeRead_memOk h)
        next t _ e =>
          exact of_mems (breakCmd_mems rfl) (memOk_of_eq e (rangeRead_memOk h))

theorem askBoundary_mems (h : s.mems = M) {q seq : ℕ} : (s.askBoundary q seq).mems = M := by
  unfold askBoundary
  exact updCmd_mems h

theorem holdCmd_mems (h : s.mems = M) {q seq : ℕ} : (s.holdCmd q seq).mems = M := by
  unfold holdCmd
  exact updCmd_mems (flushCmd_mems h)

theorem saveWrite_memOk (h : s.MemOk) {ctx dpa : ℕ} {b : Bytes} : (s.saveWrite ctx dpa b).MemOk := by
  unfold saveWrite
  refine memOk_foldl (fun _ _ h => ?_) h
  extract_lets
  split
  · exact of_mems (markBlock_mems rfl) (storeLine_memOk (of_mems (setBufs_mems rfl) h))
  · exact h

theorem saveRead_memOk (h : s.MemOk) {ctx dpa n : ℕ} : (s.saveRead ctx dpa n).1.MemOk := by
  induction n generalizing s dpa with
  | zero => exact h
  | succ n ih =>
    unfold saveRead
    split
    · exact h
    · split
      next e => exact ih (memOk_of_eq e (of_mems (fetchLine_mems rfl) (flushChan_memOk h)))
      next e => exact memOk_of_eq e (of_mems (fetchLine_mems rfl) (flushChan_memOk h))

theorem schedStat_mems (h : s.mems = M) {x : ℕ} : (s.schedStat x).mems = M := by
  unfold schedStat
  exact set_mems (set_mems h)

theorem account_mems (h : s.mems = M) {x : ℕ} : (s.account x).mems = M := by
  unfold account
  exact updCtx_mems (bump64_mems h)

theorem residentsHome_memOk (h : s.MemOk) {x : ℕ} {which : ℕ → Bool} : (s.residentsHome x which).MemOk := by
  unfold residentsHome
  refine memOk_foldl (fun _ _ h => ?_) h
  refine memOk_foldl (fun _ _ h => ?_) h
  refine memOk_ite ?_ h
  split
  next t e =>
    exact memOk_of_eq e (resWriteBack_memOk h)
  next t e =>
    exact of_mems (breakCmd_mems rfl) (memOk_of_eq e (resWriteBack_memOk h))

theorem residentsFill_memOk (h : s.MemOk) {x : ℕ} : (s.residentsFill x).MemOk := by
  unfold residentsFill
  exact memOk_foldl (fun _ _ h => memOk_foldl (fun _ _ h => memOk_ite (resFill_memOk h) h) h) h

theorem rebind__memOk (h : s.MemOk) {x : ℕ} {f : State → State} (hf : ∀ s, s.MemOk → (f s).MemOk) : (s.rebind_ x f).MemOk := by
  unfold rebind_
  exact memOk_ite (hf _ h) (residentsFill_memOk (hf _ (residentsHome_memOk h)))

theorem freshSlice_memOk (h : s.MemOk) {n : ℕ} : (s.freshSlice n).MemOk := by
  unfold freshSlice
  exact memOk_ite (of_mems (clearSlice_mems rfl) (memOk_with_spad_share h (Memory.wf_filter (wf_spad h) _) (Memory.wf_clear (wf_share h) _ _)))
    (scrubSlice_memOk h)

theorem startQuantum_mems (h : s.mems = M) {x : ℕ} : (s.startQuantum x).mems = M := by
  unfold startQuantum
  exact updCtx_mems (set_mems h)

theorem countSwitch_mems (h : s.mems = M) {p : ℕ} : (s.countSwitch p).mems = M := by
  unfold countSwitch
  exact mems_ite (updPart_mems (bump_mems h)) h

theorem give_memOk (h : s.MemOk) {x : ℕ} {l : List ℕ} : (s.give x l).MemOk := by
  unfold give
  refine memOk_ite h ?_
  exact
    have h1 := of_mems (account_mems rfl) h
    of_mems (schedStat_mems (feedCtx_mems (countSwitch_mems rfl))) (rebind__memOk (memOk_ite (of_mems (startQuantum_mems rfl) h1) h1)
      (fun _ h => memOk_foldl (fun _ _ h => of_mems (updSlice_mems rfl) (freshSlice_memOk h)) h))

theorem resume_memOk (h : s.MemOk) {x : ℕ} {cfgs : List (Option (ℕ × ℕ × ℕ))} {l : List ℕ} : (s.resume x cfgs l).MemOk := by
  unfold resume
  refine of_mems (schedStat_mems (countSwitch_mems (updCtx_mems rfl))) ?_
  refine memOk_foldl (fun _ _ h => ?_) (of_mems (startQuantum_mems (account_mems rfl)) h)
  exact
    have h2 := scrubSlice_memOk h
    of_mems (setMover_mems rfl) (of_mems (updSlice_mems rfl) (by
      split
      · exact of_mems (cfgValid_mems (updSlice_mems (loadCells_mems rfl))) h2
      · exact h2))

theorem recordLines_memOk (h : s.MemOk) {x r : ℕ} {lines : List (ℕ × ℕ)} : (s.recordLines x r lines).1.MemOk := by
  unfold recordLines
  refine memOk_foldl_fst (fun a _ h => ?_) h
  obtain ⟨t, _ | b⟩ := a
  · exact h
  · dsimp only
    split
    next e => exact memOk_of_eq e (saveRead_memOk h)
    next e => exact memOk_of_eq e (saveRead_memOk h)

theorem resumeFewer_memOk (h : s.MemOk) {x : ℕ} {cfgs : List (Option (ℕ × ℕ × ℕ))} {l : List ℕ} : (s.resumeFewer x cfgs l).MemOk := by
  unfold resumeFewer
  refine give_memOk ?_
  refine of_mems (updCtx_mems rfl) ?_
  refine memOk_foldl (fun _ _ h => ?_) h
  refine memOk_foldl (fun _ _ h => ?_) h
  refine memOk_ite h ?_
  refine memOk_foldl (fun _ _ h => ?_) h
  extract_lets
  split
  next t e =>
    exact of_mems (breakCmd_mems rfl) (memOk_of_eq e (recordLines_memOk h))
  next t _ e =>
    exact memOk_foldl (fun _ _ h => rangeWrite_memOk h) (memOk_of_eq e (recordLines_memOk h))

theorem release_mems (h : s.mems = M) {n : ℕ} : (s.release n).mems = M := by
  unfold release
  split
  · exact h
  · exact
      have h2 := updSlice_mems (clearSlice_mems (unfillSlice_mems (account_mems h)))
      schedStat_mems (mems_ite (updCtx_mems h2) h2)

theorem vacate_memOk (h : s.MemOk) {x : ℕ} {rt : Bool} : (s.vacate x rt).MemOk := by
  unfold vacate
  exact
    have h2 := memOk_foldl (fun _ _ h => of_mems (updSlice_mems (unfillSlice_mems rfl)) h) (of_mems (updPart_mems rfl) h)
    memOk_ite h2 (memOk_ite (memOk_foldl (fun _ _ h => of_mems (setMover_mems rfl) (saveWrite_memOk h)) (of_mems (updCtx_mems rfl) h2))
      (memOk_foldl (fun _ _ h => of_mems (release_mems rfl) h) h2))

theorem preempt_mems (h : s.mems = M) {x : ℕ} : (s.preempt x).mems = M := by
  unfold preempt
  exact mems_foldl (fun _ _ h => mems_ite h (askBoundary_mems h)) (updCtx_mems h)

theorem serveWaiting_memOk (h : s.MemOk) {p : ℕ} {l : List ℕ} : (s.serveWaiting p l).MemOk := by
  induction l generalizing s with
  | nil => exact h
  | cons x l ih =>
    unfold serveWaiting
    refine memOk_ite h (memOk_ite (ih (of_mems (set_mems rfl) h)) ?_)
    extract_lets mark cap
    have hk {t : State} (ht : t.MemOk) : (mark t).MemOk := of_mems (updPart_mems rfl) ht
    split
    · exact memOk_ite (ih (hk (resume_memOk h))) (memOk_ite (ih (hk (resumeFewer_memOk h))) h)
    · exact memOk_ite (ih (memOk_foldl (fun _ _ h => of_mems (askBoundary_mems rfl) h) h)) (ih (hk (give_memOk h)))

theorem serveRt_memOk (h : s.MemOk) {p : ℕ} : (s.serveRt p).MemOk := by
  unfold serveRt
  refine memOk_foldl (fun _ _ h => ?_) h
  refine memOk_ite h ?_
  extract_lets
  split
  · exact memOk_ite (resume_memOk h) h
  · exact give_memOk h

theorem yieldIdle_memOk (h : s.MemOk) {p : ℕ} {rt : Bool} : (s.yieldIdle p rt).MemOk := by
  unfold yieldIdle
  exact memOk_foldl (fun _ _ h => memOk_ite h (vacate_memOk h)) h

theorem preemptLower_mems (h : s.mems = M) {p : ℕ} : (s.preemptLower p).mems = M := by
  unfold preemptLower
  dsimp only
  split
  · exact h
  · refine mems_ite h ?_
    split
    · exact h
    · exact preempt_mems h

theorem startEntry_memOk (h : s.MemOk) {p j : ℕ} : (s.startEntry p j).MemOk := by
  unfold startEntry
  refine memOk_ite (of_mems (updPart_mems rfl) h) ?_
  refine memOk_ite (of_mems (updPart_mems (set_mems rfl)) h) ?_
  refine of_mems (updCtx_mems (set_mems rfl)) ?_
  split
  · exact memOk_ite (resume_memOk h) (memOk_ite (resumeFewer_memOk h) h)
  · exact give_memOk h

theorem nextGroup_memOk (h : s.MemOk) {n p : ℕ} : (nextGroup n s p).MemOk := by
  induction n generalizing s with
  | zero => exact h
  | succ n ih =>
    unfold nextGroup
    exact memOk_ite h (memOk_ite h (ih (memOk_foldl (fun _ _ h => startEntry_memOk h) (of_mems (set_mems (updPart_mems rfl)) h))))

theorem endEntry_memOk (h : s.MemOk) {p j : ℕ} : (s.endEntry p j).MemOk := by
  unfold endEntry
  refine memOk_ite h ?_
  exact
    have h1 := of_mems (updPart_mems rfl) h
    memOk_ite h1 (memOk_ite (of_mems (preempt_mems rfl) h1) (vacate_memOk h1))

theorem endIdle_memOk (h : s.MemOk) {p : ℕ} : (s.endIdle p).MemOk := by
  unfold endIdle
  exact memOk_foldl (fun _ _ h => memOk_ite (endEntry_memOk h) h) h

theorem schedule_memOk (h : s.MemOk) {p : ℕ} : (s.schedule p).MemOk := by
  unfold schedule
  have h1 : ((s.yieldIdle p true).serveRt p).MemOk := serveRt_memOk (yieldIdle_memOk h)
  refine memOk_ite (nextGroup_memOk (endIdle_memOk h1)) ?_
  refine memOk_foldl (fun _ _ h => memOk_ite h (of_mems (schedStat_mems rfl) h)) (of_mems (preemptLower_mems rfl) ?_)
  exact memOk_ite (serveWaiting_memOk h1) (serveWaiting_memOk (yieldIdle_memOk (serveWaiting_memOk h1)))

theorem scheduleFor_memOk (h : s.MemOk) {x : ℕ} : (s.scheduleFor x).MemOk := by
  unfold scheduleFor
  exact schedule_memOk h

theorem chargeOverrun_mems (h : s.mems = M) {x : ℕ} : (s.chargeOverrun x).mems = M := by
  unfold chargeOverrun
  split
  · exact h
  · exact updCtx_mems (mems_ite h (bump_mems (set_mems h)))

theorem preempted_memOk (h : s.MemOk) {x : ℕ} : (s.preempted x).MemOk := by
  unfold preempted
  exact memOk_ite h (scheduleFor_memOk (vacate_memOk (memOk_foldl (fun _ _ h => of_mems (updCmd_mems rfl) h) (of_mems
    (chargeOverrun_mems rfl) h))))

theorem rebindHears_mems (h : s.mems = M) {c : Cmd} : (s.rebindHears c).1.mems = M := by
  unfold rebindHears
  exact mems_ite_fst h (mems_ite_fst (updRebind_mems (setAllGates_mems h)) h)

theorem stopNow_memOk (h : s.MemOk) {c : Cmd} : (s.stopNow c).MemOk := by
  unfold stopNow
  exact
    have h1 := of_mems (updCmd_mems (forgetReqs_mems (flushCmd_mems rfl))) h
    by
      extract_lets
      split
      · exact memOk_ite (holdsFree_memOk (of_mems (outOfTurn_mems rfl) h1)) h1
      · exact h1

theorem rtMaskWrite_memOk (h : s.MemOk) {p v : ℕ} : (s.rtMaskWrite p v).1.MemOk := by
  unfold rtMaskWrite
  exact memOk_ite_fst (of_mems (set_mems rfl) h) (memOk_ite_fst (of_mems (set_mems rfl) h) (schedule_memOk (of_mems (wr_mems rfl)
    (memOk_foldl (fun _ _ h => of_mems (updSlice_mems rfl) h) h))))

theorem runListSwap_mems (h : s.mems = M) {p : ℕ} : (s.runListSwap p).mems = M := by
  unfold runListSwap
  exact mems_ite h (emit_mems (set_mems h))

theorem schedModeChange_memOk (h : s.MemOk) : s.schedModeChange.MemOk := by
  unfold schedModeChange
  refine memOk_foldl (fun _ _ h => ?_) h
  exact
    have h2 := memOk_foldl (fun _ _ h => memOk_ite h (memOk_ite (preempted_memOk (of_mems (preempt_mems rfl) h)) (vacate_memOk h))) (of_mems
      (updPart_mems rfl) h)
    memOk_ite h2 (schedule_memOk h2)

theorem contextActivate_mems (h : s.mems = M) {x : ℕ} : (s.contextActivate x).mems = M := by
  unfold contextActivate
  split
  · exact h
  · exact mems_ite h (mems_ite (set_mems h) (set_mems (set_mems (set_mems (mems_with_objs_ctxs_sec h)))))

theorem queErr_mems (h : s.mems = M) {q reason : ℕ} : (s.queErr q reason).mems = M := by
  unfold queErr
  exact set_mems h

theorem queueEnable_mems (h : s.mems = M) {q : ℕ} : (s.queueEnable q).mems = M := by
  unfold queueEnable
  exact mems_ite h (mems_ite (queErr_mems h) (mems_ite (queErr_mems h) (mems_ite (queErr_mems h) (set_mems (set_mems h)))))

theorem queueDisable_mems (h : s.mems = M) {q : ℕ} : (s.queueDisable q).mems = M := by
  unfold queueDisable
  exact wr_mems (wr_mems (wr_mems (set_mems (wr_mems (mems_with_tails_heads_cmds_latched h)))))

theorem queueHalt_mems (h : s.mems = M) {q reason seq : ℕ} : (s.queueHalt q reason seq).mems = M := by
  unfold queueHalt
  exact event_mems (wr_mems (queErr_mems (set_mems h)))

theorem queueRestart_mems (h : s.mems = M) {q : ℕ} : (s.queueRestart q).mems = M := by
  unfold queueRestart
  exact mems_ite h (mems_ite (queErr_mems h) (mems_with_heads (set_mems h)))

theorem doorbell_mems (h : s.mems = M) {q tail : ℕ} : (s.doorbell q tail).mems = M := by
  unfold doorbell
  exact mems_ite (errCount_mems h) (mems_with_tails h)

theorem readRing_memOk (h : s.MemOk) {q : ℕ} {ok : Bool} {desc : Bytes} : (s.readRing q ok desc).1.MemOk := by
  unfold readRing
  refine memOk_ite_fst ?_ h
  extract_lets
  split
  next t _ e =>
    exact memOk_of_eq e (devRead_memOk h)
  next t _ e =>
    exact memOk_of_eq e (devRead_memOk h)

theorem objResult_mems (h : s.mems = M) {x r : ℕ} : (s.objResult x r).mems = M := by
  unfold objResult
  exact set_mems h

theorem objectCreate_mems (h : s.mems = M) {x h' : ℕ} : (s.objectCreate x h').mems = M := by
  unfold objectCreate
  exact mems_ite (objResult_mems h) (mems_ite (objResult_mems h) (objResult_mems (updObj_mems h)))

theorem objectFree_mems (h : s.mems = M) {x h' : ℕ} : (s.objectFree x h').mems = M := by
  unfold objectFree
  exact mems_ite (objResult_mems h) (objResult_mems (objSettle_mems (updObj_mems h)))

theorem objectForceFree_memOk (h : s.MemOk) {x h' : ℕ} : (s.objectForceFree x h').MemOk := by
  unfold objectForceFree
  exact memOk_ite (of_mems (objResult_mems rfl) h) (of_mems (objResult_mems rfl) (memOk_foldl (fun _ _ h => holdsFree_memOk h) (of_mems
    (objSettle_mems rfl) (memOk_foldl (fun _ _ h => of_mems (forceBreak_mems rfl) h) (of_mems (updObj_mems rfl) h)))))

theorem evqHead_mems (h : s.mems = M) {e v : ℕ} : (s.evqHead e v).mems = M := by
  unfold evqHead
  exact evqCatchUp_mems (wr_mems h)

theorem cplWrite_memOk (h : s.MemOk) {c : Cmd} {data : Bytes} : (s.cplWrite c data).MemOk := by
  unfold cplWrite
  refine memOk_ite h ?_
  refine memOk_ite (of_mems (queueHalt_mems rfl) h) ?_
  refine memOk_ite ?_ ?_
  · split
    next t _ _ _ e =>
      exact of_mems (queueHalt_mems rfl) (memOk_of_eq e (devWrite_memOk h))
    next t _ e =>
      exact memOk_of_eq e (devWrite_memOk h)
  · refine memOk_ite (of_mems (emit_mems rfl) (memOk_ite (memOk_foldl (fun _ _ h => of_mems (markHostPage_mems rfl) h) h) h)) ?_
    split
    · exact of_mems (queueHalt_mems rfl) h
    · exact memOk_ite (of_mems (queueHalt_mems rfl) h) (of_mems (sendReq_mems rfl) h)

theorem writeRecord_memOk (h : s.MemOk) {c : Cmd} : (s.writeRecord c).MemOk := by
  unfold writeRecord
  exact of_mems (updCmd_mems rfl) (cplWrite_memOk h)

theorem slicesDrop_mems (h : s.mems = M) {c : Cmd} : (s.slicesDrop c).mems = M := by
  unfold slicesDrop
  exact mems_foldl (fun _ _ h => mems_ite (updSlice_mems (mems_ite (flushSlice_mems h) h)) h) h

theorem setFree_memOk (h : s.MemOk) {c : Cmd} : (s.setFree c).MemOk := by
  unfold setFree
  exact
    have h1 := holdsFree_memOk (of_mems (slicesDrop_mems rfl) h)
    of_mems (feedCtx_mems rfl) (scheduleFor_memOk (memOk_ite (of_mems (mouldSettle_mems rfl) h1) h1))

theorem dropEgress_mems (h : s.mems = M) {x : ℕ} : (s.dropEgress x).mems = M := by
  unfold dropEgress
  exact mems_with_routes (mems_foldl (fun _ _ h => mems_with_reqs h) (mems_foldl (fun _ _ h => updLink_mems h) h))

theorem tearAdvance_mems (h : s.mems = M) {x : ℕ} : (s.tearAdvance x).mems = M := by
  unfold tearAdvance
  exact mems_ite (updCtx_mems (dropEgress_mems (mems_with_gens h))) h

theorem spanRefuse_mems (h : s.mems = M) {c : Cmd} : (s.spanRefuse c).mems = M := by
  unfold spanRefuse
  split
  · exact mems_ite (castColl_mems h) h
  · exact h

theorem remoteBreak_mems (h : s.mems = M) {c : Cmd} : (s.remoteBreak c).mems = M := by
  unfold remoteBreak
  split
  · exact mems_ite (sendReq_mems h) h
  · exact h

theorem fenceEnd_mems (h : s.mems = M) {c : Cmd} : (s.fenceEnd c).mems = M := by
  unfold fenceEnd
  refine mems_ite h ?_
  refine mems_ite (breakFenceOf_mems h) ?_
  exact
    have h1 := signalFence_mems h
    mems_ite (event_mems h1) h1

theorem latchEnd_mems (h : s.mems = M) {c : Cmd} : (s.latchEnd c).mems = M := by
  unfold latchEnd
  exact mems_ite (mems_ite h (setLatch_mems h)) (mems_ite (clearLatch_mems h) h)

theorem finish_memOk (h : s.MemOk) {c0 : Cmd} : (s.finish c0).MemOk := by
  unfold finish
  exact of_mems (tearAdvance_mems rfl) (setFree_memOk (of_mems (beat_mems rfl) (of_mems (wr_mems rfl) (of_mems (mems_with_cmds rfl)
    (of_mems (latchEnd_mems (fenceEnd_mems (remoteBreak_mems (spanRefuse_mems rfl)))) (memOk_ite (of_mems (countWarnings_mems
    rfl) h) h))))))

theorem drain_memOk (h : s.MemOk) {n q : ℕ} : (drain n s q).MemOk := by
  induction n generalizing s with
  | zero => exact h
  | succ n ih =>
    unfold drain
    split
    · exact h
    · exact memOk_ite (ih (finish_memOk (writeRecord_memOk h))) h

theorem drainQue_memOk (h : s.MemOk) {q : ℕ} : (s.drainQue q).MemOk := by
  unfold drainQue
  exact drain_memOk h

theorem tearFence_mems (h : s.mems = M) {x code f : ℕ} : (s.tearFence x code f).mems = M := by
  unfold tearFence
  exact mems_ite h (brokenEvent_mems (breakFence_mems h))

theorem tearCmd_memOk (h : s.MemOk) {code : ℕ} {c : Cmd} : (s.tearCmd code c).MemOk := by
  unfold tearCmd
  exact memOk_ite h (memOk_ite (holdsFree_memOk (of_mems (outOfTurn_mems rfl) h)) (memOk_ite (of_mems (breakCmd_mems rfl) h) (of_mems
    (updCmd_mems rfl) h)))

theorem tearDown_memOk (h : s.MemOk) {x code : ℕ} : (s.tearDown x code).MemOk := by
  unfold tearDown
  exact memOk_ite h (of_mems (tearAdvance_mems rfl) (memOk_foldl (fun _ _ h => drainQue_memOk h) (memOk_foldl (fun _ _ h => of_mems
    (tearFence_mems rfl) h) (memOk_foldl (fun _ _ h => memOk_foldl (fun _ _ h => tearCmd_memOk h) h) (memOk_foldl (fun _ _ h => of_mems
    (mems_with_heads rfl) h) (of_mems (updCtx_mems (set_mems rfl)) h))))))

theorem contextTeardown_memOk (h : s.MemOk) {x : ℕ} : (s.contextTeardown x).MemOk := by
  unfold contextTeardown
  exact tearDown_memOk h

theorem segsClear_mems (h : s.mems = M) {x : ℕ} : (s.segsClear x).mems = M := by
  unfold segsClear
  exact mems_foldl (fun _ _ h => updSegPend_mems (set_mems (wr_mems h))) h

theorem tdiError_memOk (h : s.MemOk) {fn reason : ℕ} : (s.tdiError fn reason).MemOk := by
  unfold tdiError
  exact memOk_ite (of_mems (event0_mems rfl) (memOk_foldl (fun _ _ h => tearDown_memOk h) (of_mems (mems_with_sec rfl) h))) h

theorem passHead_mems (h : s.mems = M) {c : Cmd} : (s.passHead c).mems = M := by
  unfold passHead
  exact
    have h2 := wr_mems (wr_mems (set_mems (mems_with_heads_cmds h)))
    mems_ite h2 (raiseTarget_mems h2)

theorem refuseCmd_memOk (h : s.MemOk) {c : Cmd} {code detail kind id : ℕ} : (s.refuseCmd c code detail kind id).MemOk := by
  unfold refuseCmd
  exact of_mems (transDrop_mems rfl) (drainQue_memOk (of_mems (setLatch_mems (breakFenceOf_mems (passHead_mems (beat_mems rfl)))) h))

theorem takeCmd_mems (h : s.mems = M) {c : Cmd} {m : Option Bytes} {ranges : List Range} : (s.takeCmd c m ranges).mems = M := by
  unfold takeCmd
  refine passHead_mems ?_
  refine beat_mems ?_
  split
  · exact mems_with_spanNo h
  · exact h

theorem readArgs_memOk (h : s.MemOk) {r : Range} {args : Bytes} : (s.readArgs r args).1.MemOk := by
  unfold readArgs
  exact memOk_ite_fst h (memOk_ite_fst (rangeRead_memOk h) h)

theorem waitTrans_mems (h : s.mems = M) {q fn : ℕ} {pages : List ℕ} : (s.waitTrans q fn pages).mems = M := by
  unfold waitTrans
  exact askTrans_mems (mark_mems h)

theorem forgetBad_mems (h : s.mems = M) {fn : ℕ} : (s.forgetBad fn).mems = M := by
  unfold forgetBad
  exact mems_with_trans h

theorem rangeFails_memOk (h : s.MemOk) {c : Cmd} {i : ℕ} {r : RangeReq} {x : RangeRes} : (s.rangeFails c i r x).MemOk := by
  unfold rangeFails
  split
  · exact h
  · exact of_mems (waitTrans_mems rfl) h
  · exact
      have h1 := of_mems (forgetBad_mems rfl) h
      refuseCmd_memOk (memOk_ite h1 (of_mems (xlatRej_mems rfl) h1))

theorem countHs_mems (h : s.mems = M) {dst : ℕ} : (s.countHs dst).mems = M := by
  unfold countHs
  exact mems_ite (errCount_mems h) (mems_with_hsErr h)

theorem handshakeError_mems (h : s.mems = M) {src dst : ℕ} : (s.handshakeError src dst).mems = M := by
  unfold handshakeError
  split
  · exact dataLoss_mems (countHs_mems h)
  · exact countHs_mems h

theorem seamLoss_mems (h : s.mems = M) {isl q seq : ℕ} : (s.seamLoss isl q seq).mems = M := by
  unfold seamLoss
  exact flushCmd_mems (breakCmd_mems h)

theorem writeDst_memOk (h : s.MemOk) {k w toks : ℕ} {b : Bytes} : (s.writeDst k w toks b).MemOk := by
  unfold writeDst
  dsimp only
  split
  · exact memOk_with_spad h (Memory.wf_write (wf_spad h) _ _)
  · exact of_mems (updCell_mems rfl) h
  · exact of_mems (updCell_mems rfl) h
  · exact of_mems (updCell_mems rfl) h
  · exact of_mems (updCell_mems rfl) h
  · exact h

theorem wordCheck_mems (h : s.mems = M) {core cell badWord : ℕ} : (s.wordCheck core cell badWord).1.mems = M := by
  unfold wordCheck
  extract_lets isl slice s1
  have h1 : s1.mems = M := cfgBad_mems h
  clear_value s1
  refine mems_ite_fst (errCountF_mems h) (mems_ite_fst (dataLoss_mems (fault_mems (errCountF_mems h))) (mems_ite_fst ?_ h))
  split
  · exact h1
  · split
    · exact h1
    · dsimp only
      exact flushCmd_mems (breakCmd_mems (mouldRej_mems h1))

theorem warn_mems (h : s.mems = M) {slice w : ℕ} : (s.warn slice w).mems = M := by
  unfold warn
  split
  · exact mems_ite h (updCmd_mems h)
  · exact h

theorem fireCount_mems (h : s.mems = M) {isl : ℕ} : (s.fireCount isl).mems = M := by
  unfold fireCount
  exact mems_ite (wr_mems h) (wr_mems (wr_mems h))

theorem fires_mems (h : s.mems = M) {slice key : ℕ} : (s.fires slice key).mems = M := by
  unfold fires
  exact updSlice_mems (beat_mems (fillStop_mems h))

theorem outputTile_memOk (h : s.MemOk) {k slice w : ℕ} {js : List ℕ} : (s.outputTile k slice w js).MemOk := by
  unfold outputTile
  exact of_mems (warn_mems rfl) (writeDst_memOk (of_mems (updCell_mems rfl) h))

theorem tensorFire_memOk (h : s.MemOk) {k slice slot : ℕ} {c : CellSt} : (s.tensorFire k slice slot c).MemOk := by
  unfold tensorFire
  extract_lets
  split
  · exact h
  · split
    · extract_lets
      split
      · exact
          have h1 := of_mems (warn_mems (updCell_mems (fires_mems rfl))) h
          by
            extract_lets
            split
            · exact h1
            · exact outputTile_memOk h1

theorem wordsCheck_mems (h : s.mems = M) {core cell : ℕ} {bad : List ℕ} : (s.wordsCheck core cell bad).1.mems = M := by
  unfold wordsCheck
  exact mems_foldl_fst (fun _ _ h => mems_ite_fst (wordCheck_mems h) h) h

theorem vectorFire_memOk (h : s.MemOk) {k slice slot : ℕ} {c : CellSt} : (s.vectorFire k slice slot c).MemOk := by
  unfold vectorFire
  exact
    have h1 := of_mems (fires_mems (updCell_mems rfl)) h
    memOk_ite (outputTile_memOk h1) (memOk_ite (by
      split
      · exact of_mems (updCell_mems rfl) h1
      · exact h1) (of_mems (warn_mems rfl) (writeDst_memOk h1)))

theorem portDrain_mems (h : s.mems = M) {core cell : ℕ} : (s.portDrain core cell).mems = M := by
  unfold portDrain
  refine mems_foldl (fun _ _ h => ?_) h
  extract_lets
  split
  · exact mems_ite (mems_ite (setMover_mems (updCell_mems h)) h) h
  · exact h

theorem controlOp_mems (h : s.mems = M) {core cell op : ℕ} {f : CellSt → ℕ → PWord → CellSt} : (s.controlOp core cell op f).mems = M := by
  unfold controlOp
  extract_lets
  split
  · exact h
  · exact mems_ite (updCell_mems h) h

theorem islandEnd_mems (h : s.mems = M) {slice isl : ℕ} : (s.islandEnd slice isl).mems = M := by
  unfold islandEnd
  exact mems_ite (fillIsland_mems h) h

theorem portSend_mems (h : s.mems = M) {core cell e : ℕ} {t : BitVec 272} {p : ℕ} : (s.portSend core cell e t p).mems = M := by
  unfold portSend
  refine mems_ite (updCell_mems h) ?_
  split
  · exact h
  · refine mems_ite (updCell_mems h) ?_
    exact
      have h1 := errCount_mems h
      by
        extract_lets
        split
        · exact flushCmd_mems (breakCmd_mems h1)
        · exact h1

theorem bankWord_mems (h : s.mems = M) {core line badWord : ℕ} : (s.bankWord core line badWord).1.mems = M := by
  unfold bankWord
  exact mems_ite_fst (errCountF_mems h) (mems_ite_fst (set_mems (errCountF_mems h)) h)

theorem padWord_mems (h : s.mems = M) {core cell badWord : ℕ} : (s.padWord core cell badWord).1.mems = M := by
  unfold padWord
  exact mems_ite_fst (errCountF_mems h) (mems_ite_fst (fault_mems (errCountF_mems h)) h)

theorem storeRead_mems (h : s.mems = M) {core loc line key part : ℕ} {d : LineDest} : (s.storeRead core loc line key part d).mems = M := by
  unfold storeRead
  extract_lets
  split
  · exact bump64_mems (setMerge_mems h)
  · exact
      have h1 := bump64_mems h
      mems_ite (setMerge_mems h1) (set_mems (updCore_mems h1))

theorem shareDrop_mems (h : s.mems = M) {core : ℕ} : (s.shareDrop core).mems = M := by
  unfold shareDrop
  exact updCore_mems h

theorem deliverCell_memOk (h : s.MemOk) {k src at_ : ℕ} {line : Bytes} : (s.deliverCell k src at_ line).MemOk := by
  unfold deliverCell
  split
  · exact of_mems (updCell_mems rfl) h
  · exact memOk_ite (memOk_with_spad h (Memory.wf_write (wf_spad h) _ _)) h

theorem deliverLine_memOk (h : s.MemOk) {core src : ℕ} {line : Bytes} {x : LineDest} : (s.deliverLine core src line x).MemOk := by
  unfold deliverLine
  split
  · exact deliverCell_memOk h
  · exact
      have h1 := shareWrite_memOk h
      by
        extract_lets
        split
        · exact of_mems (moverBack_mems rfl) h1
        · exact h1

theorem moverDone_mems (h : s.mems = M) {core m : ℕ} {r : MoverReq} : (s.moverDone core m r).mems = M := by
  unfold moverDone
  exact setMover_mems (beat_mems (beat_mems h))

theorem moverSent_mems (h : s.mems = M) {core m : ℕ} {r : MoverReq} {n base : ℕ} : (s.moverSent core m r n base).mems = M := by
  unfold moverSent
  exact setMover_mems h

theorem moverStop_mems (h : s.mems = M) {r : MoverReq} {code kind id detail : ℕ} : (s.moverStop r code kind id detail).mems = M := by
  unfold moverStop
  exact flushCmd_mems (breakCmd_mems h)

theorem moverDrop_mems (h : s.mems = M) {core m : ℕ} {r : MoverReq} : (s.moverDrop core m r).mems = M := by
  unfold moverDrop
  exact setMover_mems h

theorem staleLines_mems (h : s.mems = M) {dpa n : ℕ} : (s.staleLines dpa n).mems = M := by
  unfold staleLines
  refine mems_foldl (fun _ _ h => ?_) h
  split
  · exact errCount_mems h
  · exact h

theorem moverAdmit_mems (h : s.mems = M) {core m : ℕ} {r : MoverReq} {memory : Bool} : (s.moverAdmit core m r memory).1.mems = M := by
  unfold moverAdmit
  split
  · exact moverDrop_mems h
  · dsimp only
    split
    · exact mems_fst (moverStop_mems (shareDrop_mems h))
    · split
      · exact mems_fst (moverDrop_mems (staleLines_mems h))
      · split
        · exact mems_fst (moverStop_mems (xlatRej_mems h))
        · exact h

theorem fromShare_memOk (h : s.MemOk) {core : ℕ} {r : MoverReq} {run : MoverRun} {f : State → Bytes → State} (hf : ∀ s b, s.MemOk → (f s b).MemOk) :
    (s.fromShare core r run f).MemOk := by
  unfold fromShare
  split
  next e => exact hf _ _ (memOk_of_eq e (of_mems (bankWord_mems rfl) h))
  next e => exact of_mems (moverStop_mems (mems_of_eq e (bankWord_mems rfl))) h

theorem deliverLines_memOk (h : s.MemOk) {k src at_ : ℕ} {b : Bytes} : (s.deliverLines k src at_ b).MemOk := by
  unfold deliverLines
  exact memOk_foldl (fun _ _ h => deliverCell_memOk h) h

theorem saveLost_memOk (h : s.MemOk) {r : MoverReq} {isl : ℕ} : (s.saveLost r isl).MemOk := by
  unfold saveLost
  exact memOk_foldl (fun _ _ h => of_mems (flushCmd_mems (breakCmd_mems rfl)) h) (saveWrite_memOk h)

theorem restoreFail_mems (h : s.mems = M) {ctx : ℕ} {e : LineRes} {isl : ℕ} : (s.restoreFail ctx e isl).mems = M := by
  unfold restoreFail
  exact mems_foldl (fun _ _ h => mems_ite (updCmd_mems h) (breakCmd_mems h)) h

theorem moverTell_mems (h : s.mems = M) {core : ℕ} {r : MoverReq} : (s.moverTell core r).mems = M := by
  unfold moverTell
  exact mems_ite h (mems_foldl (fun _ _ h => portSend_mems h) h)

theorem moverRefill_mems (h : s.mems = M) {slice : ℕ} : (s.moverRefill slice).mems = M := by
  unfold moverRefill
  exact issueQueued_mems (mems_foldl (fun _ _ h => portDrain_mems h) h)

theorem startCmd_memOk (h : s.MemOk) {c : Cmd} : (s.startCmd c).MemOk := by
  unfold startCmd
  dsimp only
  split
  · exact of_mems (breakCmd_mems rfl) h
  · exact memOk_ite (of_mems (updCmd_mems rfl) h) (scheduleFor_memOk (of_mems (updCmd_mems rfl) h))

theorem atWork_memOk (h : s.MemOk) {q seq op : ℕ} {f : Cmd → State} (hf : ∀ c, (f c).MemOk) : (s.atWork q seq op f).MemOk := by
  unfold atWork
  split
  · exact h
  · exact memOk_ite h (memOk_ite (stopNow_memOk h) (hf _))

theorem checkOne_mems (h : s.mems = M) {c : Cmd} {slot src : ℕ} {data : Bytes} : (s.checkOne c slot src data).mems = M := by
  unfold checkOne
  exact mems_ite h (flushCmd_mems (breakCmd_mems h))

theorem checksHeld_mems (h : s.mems = M) {c : Cmd} {slot : ℕ} : (s.checksHeld c slot).mems = M := by
  unfold checksHeld
  exact mems_foldl (fun _ _ h => checkOne_mems h) (updJoin_mems h)

theorem rangeAsk_mems (h : s.mems = M) {c : Cmd} {r : Range} {off n base : ℕ} : (s.rangeAsk c r off n base).mems = M := by
  unfold rangeAsk
  exact mems_ite h (mems_ite (hostRangeRead_mems h) (remoteRead_mems h))

theorem source_memOk (h : s.MemOk) {c : Cmd} {r : Range} {n base : ℕ} : (s.source c r n base).1.MemOk := by
  unfold source
  refine memOk_ite_fst h ?_
  refine memOk_ite_fst ?_ h
  split
  next t _ e =>
    exact memOk_of_eq e (devRead_memOk h)
  next t _ _ _ e =>
    exact of_mems (breakCmd_mems rfl) (memOk_of_eq e (devRead_memOk h))
  next t _ e =>
    exact of_mems (breakCmd_mems rfl) (memOk_of_eq e (devRead_memOk h))

theorem mover_memOk (h : s.MemOk) {c : Cmd} {srcs : List (Range × ℕ)} {f : State → State} (hf : ∀ s, s.MemOk → (f s).MemOk) :
    (s.mover c srcs f).MemOk := by
  unfold mover
  refine memOk_ite h (memOk_ite (memOk_ite (of_mems (cmdDone_mems rfl) h) h) (memOk_ite ?_ (memOk_ite h ?_)))
  · exact memOk_foldl_fst (fun _ _ h => of_mems (rangeAsk_mems rfl) h) (of_mems (updCmd_mems rfl) h)
  · exact
      have h1 := of_mems (updCmd_mems rfl) (hf _ h)
      memOk_ite (of_mems (cmdDone_mems rfl) h1) h1

theorem headHostFault_memOk (h : s.MemOk) {q : ℕ} : (s.headHostFault q).MemOk := by
  unfold headHostFault
  split
  · exact h
  · exact memOk_ite (refuseCmd_memOk (of_mems (xlatRej_mems (forgetBad_mems rfl)) h)) h

theorem partResult_mems (h : s.mems = M) {p n : ℕ} : (s.partResult p n).mems = M := by
  unfold partResult
  exact set_mems h

theorem stampRanges_mems (h : s.mems = M) {p : ℕ} : (s.stampRanges p).mems = M := by
  unfold stampRanges
  exact mems_foldl (fun _ _ h => set_mems h) (mems_foldl (fun _ _ h => set_mems h) h)

theorem rangeRegWrite_mems (h : s.mems = M) {p off v : ℕ} : (s.rangeRegWrite p off v).1.mems = M := by
  unfold rangeRegWrite
  refine mems_ite_fst (mems_ite_fst h (lockViol_mems h)) ?_
  refine mems_ite_fst (partResult_mems (wr_mems h)) ?_
  refine mems_ite_fst (partResult_mems h) ?_
  refine mems_ite_fst (mems_ite_fst (partResult_mems h) (mems_ite_fst (partResult_mems h) (partResult_mems (stampRanges_mems (mems_foldl
    (fun _ _ h => set_mems h) (wr_mems h)))))) ?_
  split
  · exact h
  · exact mems_ite_fst (partResult_mems h) (mems_ite_fst (partResult_mems h) (partResult_mems (stampRanges_mems (wr_mems h))))

theorem clearPage_mems (h : s.mems = M) {pg : ℕ} : (s.clearPage pg).mems = M := by
  unfold clearPage
  exact wr_mems (mems_with_regs h)

theorem ownPage_mems (h : s.mems = M) {pg fn : ℕ} : (s.ownPage pg fn).mems = M := by
  unfold ownPage
  exact set_mems h

theorem unmap_mems (h : s.mems = M) {fn kind h' : ℕ} : (s.unmap fn kind h').mems = M := by
  unfold unmap
  split
  · exact h
  · exact
      have h1 := mems_with_maps h
      mems_ite h1 (
        have h2 := ownPage_mems h1
        mems_ite (set_mems h2) h2)

theorem unmapAll_mems (h : s.mems = M) {fn : ℕ} : (s.unmapAll fn).mems = M := by
  unfold unmapAll
  exact mems_foldl (fun _ _ h => unmap_mems h) h

theorem wipeCtx_mems (h : s.mems = M) {x : ℕ} : (s.wipeCtx x).mems = M := by
  unfold wipeCtx
  exact mems_with_sec (mems_with_gens_segStage_segPend_objs_ctxs h)

theorem wipeQue_mems (h : s.mems = M) {q : ℕ} : (s.wipeQue q).mems = M := by
  unfold wipeQue
  exact mems_with_tails_heads_cmds_latched h

theorem configScrub_mems (h : s.mems = M) {p : ℕ} : (s.configScrub p).mems = M := by
  unfold configScrub
  exact clearPage_mems (mems_foldl (fun _ _ h => unmapAll_mems h) (mems_with_sec (mems_with_regs_moulds_spanTbl_joins_spanNo_toks h)))

theorem firmwareScrub_mems (h : s.mems = M) {p : ℕ} : (s.firmwareScrub p).mems = M := by
  unfold firmwareScrub
  exact bumpF_mems (mems_foldl (fun _ _ h => mems_with_evqFn_evqLost (clearPage_mems h)) (mems_foldl (fun _ _ h => clearPage_mems h)
    (mems_foldl (fun _ _ h => wipeQue_mems (clearPage_mems h)) (mems_foldl (fun _ _ h => wipeCtx_mems (clearPage_mems h))
    (configScrub_mems h)))))

theorem partitionForm_mems (h : s.mems = M) {p : ℕ} : (s.partitionForm p).mems = M := by
  unfold partitionForm
  exact mems_ite (partResult_mems (set_mems h)) (partResult_mems h)

theorem mouldsFree_mems (h : s.mems = M) {p : ℕ} : (s.mouldsFree p).mems = M := by
  unfold mouldsFree
  exact mems_with_moulds h

theorem tableLine_memOk (h : s.MemOk) {p n : ℕ} : (s.tableLine p n).MemOk := by
  unfold tableLine
  exact cfgWrite_memOk h

theorem tableStore_memOk (h : s.MemOk) {p : ℕ} : (s.tableStore p).MemOk := by
  unfold tableStore
  exact memOk_foldl (fun _ _ h => tableLine_memOk h) h

theorem partitionActivate_memOk (h : s.MemOk) {p : ℕ} : (s.partitionActivate p).MemOk := by
  unfold partitionActivate
  exact memOk_ite (of_mems (partResult_mems rfl) h) (memOk_ite (of_mems (partResult_mems rfl) h) (memOk_ite (of_mems (partResult_mems
    (draw_mems rfl)) h) (of_mems (partResult_mems (capTouch_mems rfl)) (tableStore_memOk (of_mems (stampRanges_mems (mouldsFree_mems
    (clearPage_mems (setAllGates_mems rfl)))) (of_mems (set_mems (wr_mems rfl)) (of_mems (mems_with_sec rfl) h)))))))

theorem unbindPort_mems (h : s.mems = M) {n : ℕ} : (s.unbindPort n).mems = M := by
  unfold unbindPort
  exact mems_ite h (routesHold_mems (capTouch_mems (updLink_mems (mark_mems (set_mems (set_mems (set_mems (wr64_mems h))))))))

theorem regionClear_mems (h : s.mems = M) {r : ℕ} : (s.regionClear r).mems = M := by
  unfold regionClear
  exact set_mems h

theorem partScrub_memOk (h : s.MemOk) {p : ℕ} : (s.partScrub p).MemOk := by
  unfold partScrub
  exact memOk_foldl (fun _ _ h => of_mems (set_mems rfl) h) (memOk_foldl (fun _ _ h => keyFinish_memOk (of_mems (keyStartRetire_mems
    rfl) h)) (of_mems (mems_with_sec rfl) (flushPart_memOk (memOk_foldl (fun _ _ h => of_mems (updSlice_mems rfl) (scrubSlice_memOk h))
    (memOk_foldl (fun _ _ h => of_mems (regionClear_mems rfl) h) (memOk_foldl (fun _ _ h => of_mems (segsClear_mems rfl) h) h))))))

theorem partRelease_mems (h : s.mems = M) {p : ℕ} : (s.partRelease p).mems = M := by
  unfold partRelease
  exact setAllGates_mems (wr_mems (wr_mems (wr_mems (mems_with_regs (set_mems (set_mems (mems_with_rebind_parts (mems_foldl
    (fun _ _ h => updLink_mems h) (mems_foldl (fun _ _ h => unbindPort_mems (sendMgmt_mems h)) h)))))))))

theorem partitionDissolve_memOk (h : s.MemOk) {p : ℕ} : (s.partitionDissolve p).MemOk := by
  unfold partitionDissolve
  refine memOk_ite (of_mems (partResult_mems rfl) h) ?_
  refine memOk_ite (of_mems (partResult_mems rfl) h) ?_
  exact
    have h2 := partScrub_memOk (memOk_ite (of_mems (set_mems rfl) h) h)
    of_mems (partResult_mems (capTouch_mems (wr_mems rfl))) (of_mems (wr_mems (wr_mems rfl)) (of_mems (partRelease_mems rfl) (memOk_ite
      (of_mems (firmwareScrub_mems rfl) h2) (of_mems (configScrub_mems rfl) h2))))

theorem fnResult_mems (h : s.mems = M) {p n : ℕ} : (s.fnResult p n).mems = M := by
  unfold fnResult
  exact set_mems h

theorem functionAttach_mems (h : s.mems = M) {p f : ℕ} : (s.functionAttach p f).mems = M := by
  unfold functionAttach
  exact mems_ite (fnResult_mems h) (mems_ite (fnResult_mems h) (fnResult_mems (mems_with_attach h)))

theorem functionDetach_memOk (h : s.MemOk) {p f : ℕ} : (s.functionDetach p f).MemOk := by
  unfold functionDetach
  exact memOk_ite (of_mems (fnResult_mems rfl) h) (memOk_ite (of_mems (fnResult_mems rfl) h) (memOk_ite (of_mems (fnResult_mems rfl) h)
    (of_mems (fnResult_mems (mems_with_attach rfl)) (memOk_foldl (fun _ _ h => of_mems (set_mems (mems_with_evqFn rfl)) h) (of_mems
    (unmapAll_mems rfl) (tdiError_memOk h))))))

theorem fnCtlWrite_memOk (h : s.MemOk) {p v : ℕ} : (s.fnCtlWrite p v).MemOk := by
  unfold fnCtlWrite
  exact
    have h1 := of_mems (set_mems rfl) h
    memOk_ite h1 (memOk_ite (of_mems (fnResult_mems rfl) h1) (memOk_ite (of_mems (functionAttach_mems rfl) h1) (functionDetach_memOk h1)))

theorem handleMapWrite_memOk (h : s.MemOk) {p v : ℕ} : (s.handleMapWrite p v).MemOk := by
  unfold handleMapWrite
  refine memOk_ite (of_mems (fnResult_mems rfl) h) ?_
  refine memOk_ite (of_mems (fnResult_mems rfl) h) ?_
  refine memOk_ite (of_mems (fnResult_mems rfl) h) ?_
  refine memOk_ite (of_mems (fnResult_mems rfl) h) ?_
  refine memOk_ite (of_mems (fnResult_mems rfl) h) ?_
  refine memOk_ite (of_mems (fnResult_mems rfl) h) ?_
  refine memOk_ite (of_mems (fnResult_mems rfl) h) ?_
  exact
    have h1 := of_mems (unmap_mems rfl) (tdiError_memOk h)
    memOk_ite (of_mems (fnResult_mems rfl) h1) (
      have h2 := of_mems (ownPage_mems (mems_with_maps rfl)) h1
      of_mems (fnResult_mems rfl) (memOk_ite (of_mems (set_mems rfl) h2) h2))

theorem rebindStep_mems (h : s.mems = M) {p n : ℕ} : (s.rebindStep p n).mems = M := by
  unfold rebindStep
  exact set_mems (updRebind_mems h)

theorem rebindEnd_memOk (h : s.MemOk) {p result : ℕ} : (s.rebindEnd p result).MemOk := by
  unfold rebindEnd
  exact
    have h1 := of_mems (set_mems (set_mems (set_mems rfl))) h
    keysSettle_memOk (of_mems (updRebind_mems (set_mems rfl)) (memOk_ite (of_mems (set_mems rfl) h1) h1))

theorem rebindStart_memOk (h : s.MemOk) {p op : ℕ} : (s.rebindStart p op).MemOk := by
  unfold rebindStart
  refine memOk_ite (of_mems (bump_mems rfl) h) ?_
  refine memOk_ite h ?_
  exact
    have h3 := of_mems (set_mems (set_mems rfl)) (of_mems (set_mems (set_mems (set_mems rfl))) (of_mems (updRebind_mems rfl) h))
    memOk_ite h3 (rebindEnd_memOk h3)

theorem awaitAll_mems (h : s.mems = M) {p : ℕ} {cs : List Cmd} : (s.awaitAll p cs).mems = M := by
  unfold awaitAll
  exact updRebind_mems (mems_foldl (fun _ _ h => askBoundary_mems h) h)

theorem growDone_memOk (h : s.MemOk) {p : ℕ} : (s.growDone p).MemOk := by
  unfold growDone
  exact memOk_ite (schedule_memOk (rebindEnd_memOk (of_mems (setAllGates_mems rfl) h))) h

theorem heldMark_mems (h : s.mems = M) {n : ℕ} {b : Bool} : (s.heldMark n b).mems = M := by
  unfold heldMark
  exact set_mems h

theorem markLeaving_mems (h : s.mems = M) {n : ℕ} : (s.markLeaving n).mems = M := by
  unfold markLeaving
  exact heldMark_mems (updSlice_mems (mems_ite (cfgValid_mems (updSlice_mems h)) h))

theorem goOn_memOk (h : s.MemOk) {c : Cmd} : (s.goOn c).MemOk := by
  unfold goOn
  exact memOk_ite (preempted_memOk h) (of_mems (feedCtx_mems rfl) (scheduleFor_memOk (of_mems (updCmd_mems rfl) h)))

theorem slicesLeave_memOk (h : s.MemOk) {p : ℕ} {l : List ℕ} : (s.slicesLeave p l).MemOk := by
  unfold slicesLeave
  exact of_mems (setAllGates_mems (capTouch_mems (wr_mems rfl))) (memOk_foldl (fun _ _ h => of_mems (heldMark_mems (updSlice_mems rfl))
    (scrubSlice_memOk h)) (memOk_foldl (fun _ _ h => residentsFill_memOk h) (memOk_foldl (fun _ _ h => of_mems (release_mems rfl) h)
    (memOk_foldl (fun _ _ h => residentsHome_memOk h) h))))

theorem shrinkDone_memOk (h : s.MemOk) {p : ℕ} {l : List ℕ} : (s.shrinkDone p l).MemOk := by
  unfold shrinkDone
  exact schedule_memOk (memOk_foldl (fun _ _ h => goOn_memOk h) (rebindEnd_memOk (slicesLeave_memOk h)))

theorem chansSet_mems (h : s.mems = M) {p m : ℕ} : (s.chansSet p m).mems = M := by
  unfold chansSet
  exact capTouch_mems (mems_foldl (fun _ _ h => wr_mems h) h)

theorem copyLine_memOk (h : s.MemOk) {p src dst : ℕ} {segs : List (ℕ × ℕ)} {dpa : ℕ} : (s.copyLine p src dst segs dpa).1.MemOk := by
  unfold copyLine
  split
  · exact h
  · extract_lets
    split
    next t _ e =>
      split
      next t1 _ _ _ e1 =>
        exact memOk_of_eq e1 (devWrite_memOk (memOk_of_eq e (devRead_memOk h)))
      next t1 _ e1 =>
        exact memOk_of_eq e1 (devWrite_memOk (memOk_of_eq e (devRead_memOk h)))
    next t _ e =>
      exact memOk_of_eq e (devRead_memOk h)

/-- The copy of blocks of any number of lines. -/
theorem copyLines_memOk (h : s.MemOk) {p src dst : ℕ} {segs : List (ℕ × ℕ)} {blocks lines : List ℕ} :
    (blocks.foldl (fun (a : State × Bool) b => lines.foldl (fun (a : State × Bool) i =>
      if a.2 then a.1.copyLine p src dst segs (b * 2 ^ 21 + 256 * i) else a) a) (s, true)).1.MemOk :=
  memOk_foldl_fst (fun _ _ h => memOk_foldl_fst (fun _ _ h => memOk_ite_fst (copyLine_memOk h) h) h) h

theorem copyBlocks_memOk (h : s.MemOk) {p src dst : ℕ} {blocks : List ℕ} : (s.copyBlocks p src dst blocks).1.MemOk := by
  unfold copyBlocks
  exact copyLines_memOk h

theorem rebalSub_mems (h : s.mems = M) {p n : ℕ} : (s.rebalSub p n).mems = M := by
  unfold rebalSub
  exact
    have h1 := updRebind_mems h
    mems_ite (rebindStep_mems h1) (rebindStep_mems h1)

theorem rebalPass_memOk (h : s.MemOk) {p n : ℕ} {blocks : List ℕ} : (s.rebalPass p n blocks).MemOk := by
  unfold rebalPass
  exact
    have h2 := of_mems (set_mems (set_mems rfl)) (of_mems (rebalSub_mems (updRebind_mems rfl)) h)
    by
      extract_lets
      split
      next t e => exact memOk_of_eq e (copyBlocks_memOk h2)
      next t e => exact rebindEnd_memOk (memOk_of_eq e (copyBlocks_memOk h2))

theorem rebalCancel_mems (h : s.mems = M) {p : ℕ} : (s.rebalCancel p).mems = M := by
  unfold rebalCancel
  exact mems_foldl (fun _ _ h => mems_ite (set_mems (updSegPend_mems h)) h) h

theorem rebalSwitch_mems (h : s.mems = M) {p : ℕ} : (s.rebalSwitch p).mems = M := by
  unfold rebalSwitch
  exact mems_ite h (rebalSub_mems (mems_foldl (fun _ _ h => segNarrow_mems h) h))

theorem rebalLast_memOk (h : s.MemOk) {p : ℕ} : (s.rebalLast p).1.MemOk := by
  have h1 {src dst : ℕ} {l : List ℕ} : ((s.rebalSub p 6).copyBlocks p src dst l).1.MemOk := copyBlocks_memOk (of_mems (rebalSub_mems rfl) h)
  unfold rebalLast
  extract_lets rb segs
  refine memOk_ite_fst h ?_
  split
  next t e => exact memOk_fst (rebindEnd_memOk (of_mems (rebalCancel_mems rfl) (memOk_of_eq e h1)))
  next t e => exact memOk_fst (memOk_foldl (fun _ _ h => of_mems (segDone_mems (segApply_mems rfl)) h) (memOk_of_eq e h1))

theorem rebalNext_memOk (h : s.MemOk) {p gone : ℕ} : (s.rebalNext p gone).1.MemOk := by
  unfold rebalNext
  exact memOk_ite_fst (memOk_ite_fst (memOk_fst (rebindEnd_memOk h)) (memOk_fst (rebalPass_memOk h)))
    (memOk_ite_fst (memOk_ite_fst (memOk_fst (of_mems (rebalSwitch_mems rfl) h)) (memOk_fst (rebalPass_memOk h))) (rebalLast_memOk h))

theorem chansLeave_memOk (h : s.MemOk) {p m : ℕ} : (s.chansLeave p m).MemOk := by
  unfold chansLeave
  exact rebindEnd_memOk (of_mems (chansSet_mems rfl) (flushPart_memOk h))

theorem answerBind_mems (h : s.mems = M) {n : ℕ} : (s.answerBind n).mems = M := by
  unfold answerBind
  refine mems_ite h ?_
  exact
    have h1 := updLink_mems h
    mems_ite (sendMgmt_mems h1) (sendMgmt_mems h1)

theorem bindPort_mems (h : s.mems = M) {n p slot span : ℕ} : (s.bindPort n p slot span).mems = M := by
  unfold bindPort
  exact answerBind_mems (capTouch_mems (updLink_mems (set_mems (set_mems (set_mems (set_mems (wr64_mems h)))))))

theorem bindFails_memOk (h : s.MemOk) {p result : ℕ} : (s.bindFails p result).MemOk := by
  unfold bindFails
  split
  · exact rebindEnd_memOk (of_mems (updLink_mems rfl) h)
  · exact rebindEnd_memOk h

theorem unmark_mems (h : s.mems = M) {p : ℕ} : (s.unmark p).mems = M := by
  unfold unmark
  exact mems_foldl (fun _ _ h => heldMark_mems (updSlice_mems h)) h

theorem shrinkBreak_memOk (h : s.MemOk) {p result : ℕ} : (s.shrinkBreak p result).MemOk := by
  unfold shrinkBreak
  exact memOk_foldl (fun _ _ h => memOk_ite (of_mems (updCmd_mems (flushCmd_mems (breakCmd_mems rfl))) h) (goOn_memOk h))
    (rebindEnd_memOk (of_mems (unmark_mems rfl) h))

theorem rebindAbort_memOk (h : s.MemOk) {p result : ℕ} : (s.rebindAbort p result).MemOk := by
  unfold rebindAbort
  refine memOk_ite (memOk_ite (rebindEnd_memOk h) (memOk_ite (memOk_foldl (fun _ _ h => goOn_memOk h) (rebindEnd_memOk (of_mems
    (unmark_mems rfl) h))) (memOk_ite (memOk_ite (shrinkBreak_memOk h) h) (rebindEnd_memOk (of_mems (setAllGates_mems (capTouch_mems (wr_mems
    (wr_mems rfl)))) (memOk_foldl (fun _ _ h => scrubSlice_memOk h) h)))))) ?_
  refine memOk_ite (memOk_ite (rebindEnd_memOk h) (memOk_ite (rebindEnd_memOk (of_mems (rebalCancel_mems rfl) h)) h)) ?_
  refine memOk_ite ?_ h
  split
  · exact bindFails_memOk (memOk_ite h (of_mems (sendMgmt_mems rfl) h))
  · exact bindFails_memOk h

theorem rebindAbortReq_memOk (h : s.MemOk) {p : ℕ} : (s.rebindAbortReq p).MemOk := by
  unfold rebindAbortReq
  exact memOk_ite (rebindAbort_memOk h) h

theorem rebindCtlWrite_memOk (h : s.MemOk) {p v : ℕ} : (s.rebindCtlWrite p v).MemOk := by
  unfold rebindCtlWrite
  exact
    have h1 := of_mems (mark_mems (set_mems rfl)) h
    have h2 := memOk_ite (of_mems (set_mems rfl) h1) h1
    have h3 := memOk_ite (rebindAbortReq_memOk h2) h2
    memOk_ite (of_mems (mems_with_mgmt rfl) h3) h3

theorem linkEvent_mems (h : s.mems = M) {typ p reason : ℕ} : (s.linkEvent typ p reason).mems = M := by
  unfold linkEvent
  exact event0_mems h

theorem reachEvent_mems (h : s.mems = M) {d : ℕ} {up : Bool} : (s.reachEvent d up).mems = M := by
  unfold reachEvent
  exact event0_mems h

theorem sendState_mems (h : s.mems = M) {p code : ℕ} : (s.sendState p code).mems = M := by
  unfold sendState
  exact sendMgmt_mems h

theorem goingDown_mems (h : s.mems = M) : s.goingDown.mems = M := by
  unfold goingDown
  exact mems_foldl (fun _ _ h => sendState_mems h) h

theorem advertise_mems (h : s.mems = M) {ds : List ℕ} : (s.advertise ds).mems = M := by
  unfold advertise
  exact mems_ite h (mems_foldl (fun _ _ h => mems_foldl (fun _ _ h => sendMgmt_mems h) h) h)

theorem setRoute_mems (h : s.mems = M) {d : ℕ} {r : Route} : (s.setRoute d r).mems = M := by
  unfold setRoute
  exact
    have h1 := updRoute_mems h
    have h2 := mems_ite h1 (reachEvent_mems h1)
    mems_ite h2 (advertise_mems h2)

theorem learn_mems (h : s.mems = M) {d : ℕ} : (s.learn d).mems = M := by
  unfold learn
  refine mems_ite h ?_
  extract_lets
  split
  · exact h
  · exact setRoute_mems h

theorem neighbourUp_mems (h : s.mems = M) {nb : ℕ} : (s.neighbourUp nb).mems = M := by
  unfold neighbourUp
  exact mems_foldl (fun _ _ h => mems_ite (setRoute_mems h) (mems_ite (setRoute_mems h) (learn_mems h))) h

theorem answer_mems (h : s.mems = M) {t : Txn} {status : ℕ} {data : Bytes} : (s.answer t status data).mems = M := by
  unfold answer
  exact
    have h1 := mems_ite (errCount_mems h) (mems_ite (errCount_mems h) h)
    by
      extract_lets
      split
      · exact h1
      · split
        · exact h1
        · exact depart_mems h1

theorem reqFails_mems (h : s.mems = M) {r : LinkReq} {code kind id remote : ℕ} : (s.reqFails r code kind id remote).mems = M := by
  unfold reqFails
  exact mems_ite (queueHalt_mems h) (flushCmd_mems (breakCmd_mems h))

theorem remoteFenceBreak_mems (h : s.mems = M) {f code detail dev : ℕ} {value : Option ℕ} :
    (s.remoteFenceBreak f code detail dev value).mems = M := by
  unfold remoteFenceBreak
  exact event_mems (breakFence_mems (draw_mems (draw_mems h)))

theorem absent_mems (h : s.mems = M) {dev : ℕ} {only : Option (ℕ × ℕ)} : (s.absent dev only).mems = M := by
  unfold absent
  exact mems_foldl (fun _ _ h => flushCmd_mems (breakCmd_mems h)) (mems_foldl (fun _ _ h => remoteFenceBreak_mems h) h)

theorem trunkReqs_mems (h : s.mems = M) {k p : ℕ} : (s.trunkReqs k p).mems = M := by
  unfold trunkReqs
  exact mems_foldl (fun _ _ h => reqFails_mems (mems_with_reqs h)) h

theorem trunkEnds_mems (h : s.mems = M) {k p : ℕ} {q : List Txn} : (s.trunkEnds k p q).mems = M := by
  unfold trunkEnds
  exact trunkReqs_mems (mems_foldl (fun _ _ h => answer_mems h) (mems_with_trunks h))

theorem trunkReform_mems (h : s.mems = M) {k : ℕ} {ms : List ℕ} {q : List Txn} : (s.trunkReform k ms q).mems = M := by
  unfold trunkReform
  refine mems_foldl (fun _ _ h => ?_) (mems_foldl (fun _ _ h => sendMgmt_mems (updLink_mems h)) (updTrunk_mems h))
  split
  · exact transmit_mems h
  · exact h

theorem portClose_mems (h : s.mems = M) {p : ℕ} : (s.portClose p).mems = M := by
  unfold portClose
  exact set_mems (set_mems (updLink_mems h))

theorem portLost_mems (h : s.mems = M) {p reason : ℕ} : (s.portLost p reason).mems = M := by
  unfold portLost
  refine mems_ite (portClose_mems h) ?_
  exact
    have h2 := errCount_mems (updLink_mems (portClose_mems h))
    linkEvent_mems (routesHold_mems (mems_ite h2 (mems_ite (trunkEnds_mems h2) (trunkReform_mems h2))))

theorem portRetrain_mems (h : s.mems = M) {p reason : ℕ} : (s.portRetrain p reason).mems = M := by
  unfold portRetrain
  exact mems_ite (portLost_mems (sendState_mems h)) (portClose_mems h)

theorem issueHeld_mems (h : s.mems = M) {d : ℕ} {e : LinkReq × Txn} : (s.issueHeld d e).mems = M := by
  unfold issueHeld
  split
  · exact reqFails_mems h
  · exact mems_ite (reqFails_mems h) (issueReq_mems h)

theorem trainFails_mems (h : s.mems = M) {p : ℕ} : (s.trainFails p).mems = M := by
  unfold trainFails
  refine mems_ite h ?_
  exact
    have h2 := portClose_mems (errCount_mems h)
    mems_ite (fault_mems (alarm_mems (linkEvent_mems (set_mems (updLink_mems h2))))) (updLink_mems h2)

theorem linkRetrain_mems (h : s.mems = M) {p : ℕ} : (s.linkRetrain p).mems = M := by
  unfold linkRetrain
  exact mems_ite h (portRetrain_mems h)

theorem enableClear_mems (h : s.mems = M) {p : ℕ} : (s.enableClear p).mems = M := by
  unfold enableClear
  exact mems_ite (portLost_mems h) (updLink_mems (portClose_mems h))

theorem portIsUp_mems (h : s.mems = M) {p : ℕ} : (s.portIsUp p).mems = M := by
  unfold portIsUp
  exact
    have h3 := linkEvent_mems (updLink_mems (mark_mems (set_mems h)))
    mems_ite (neighbourUp_mems h3) h3

theorem firstData_mems (h : s.mems = M) {p : ℕ} : (s.firstData p).mems = M := by
  unfold firstData
  exact mems_ite (portIsUp_mems h) h

theorem newIncarn_mems (h : s.mems = M) {nb : ℕ} : (s.newIncarn nb).mems = M := by
  unfold newIncarn
  exact mems_foldl (fun _ _ h => mems_ite (learn_mems (setRoute_mems h)) (updRoute_mems h)) (mems_with_trunks h)

theorem partnerIs_mems (h : s.mems = M) {p dev port incarn : ℕ} : (s.partnerIs p dev port incarn).mems = M := by
  unfold partnerIs
  exact
    have h1 := wr_mems (set_mems (set_mems h))
    mems_ite (newIncarn_mems h1) h1

theorem drawBytes_mems (h : s.mems = M) {n : ℕ} : (s.drawBytes n).2.mems = M := by
  unfold drawBytes
  exact draw_mems h

theorem sendOffer_mems (h : s.mems = M) {p : ℕ} : (s.sendOffer p).mems = M := by
  unfold sendOffer
  split
  next _ t e =>
    have ht : t.mems = M := mems_of_eq_snd e (drawBytes_mems h)
    split
    next _ u e1 => exact sendMgmt_mems (updLink_mems (mems_of_eq_snd e1 (drawBytes_mems ht)))

theorem proofOut_mems (h : s.mems = M) {p : ℕ} : (s.proofOut p).mems = M := by
  unfold proofOut
  refine mems_ite h ?_
  split
  next _ t e => exact sendMgmt_mems (mems_of_eq_snd e (drawBytes_mems h))

theorem rekeyDrained_mems (h : s.mems = M) {p : ℕ} : (s.rekeyDrained p).mems = M := by
  unfold rekeyDrained
  exact mems_ite (proofOut_mems (sendOffer_mems (updLink_mems h))) h

theorem rekeyStart_mems (h : s.mems = M) {p : ℕ} : (s.rekeyStart p).mems = M := by
  unfold rekeyStart
  exact mems_ite h (rekeyDrained_mems (updLink_mems h))

theorem certIn_mems (h : s.mems = M) {p : ℕ} {t : Txn} : (s.certIn p t).mems = M := by
  unfold certIn
  exact mems_ite h (mems_ite (trainFails_mems h) (proofOut_mems (updLink_mems h)))

theorem offerIn_mems (h : s.mems = M) {p : ℕ} {t : Txn} : (s.offerIn p t).mems = M := by
  unfold offerIn
  refine mems_ite (proofOut_mems (updLink_mems h)) ?_
  refine mems_ite ?_ h
  exact
    have h2 := updLink_mems (rekeyStart_mems h)
    mems_ite (proofOut_mems h2) h2

theorem proofIn_mems (h : s.mems = M) {p : ℕ} {t : Txn} : (s.proofIn p t).mems = M := by
  unfold proofIn
  exact mems_ite (mems_ite (updLink_mems h) (trainFails_mems h)) (mems_ite (mems_ite (pump_mems (updLink_mems (sendMgmt_mems h)))
    (portRetrain_mems h)) h)

theorem switchIn_mems (h : s.mems = M) {p : ℕ} : (s.switchIn p).mems = M := by
  unfold switchIn
  exact mems_ite (updLink_mems h) h

theorem stateIn_mems (h : s.mems = M) {p : ℕ} {t : Txn} : (s.stateIn p t).mems = M := by
  unfold stateIn
  refine mems_ite (mems_ite (portLost_mems h) (trainFails_mems h)) ?_
  refine mems_ite h ?_
  exact
    have h1 := partnerIs_mems h
    mems_ite (trainFails_mems h1) (sendOffer_mems (sendMgmt_mems (set_mems h1)))

theorem heartIn_mems (h : s.mems = M) {p : ℕ} {t : Txn} : (s.heartIn p t).mems = M := by
  unfold heartIn
  exact
    have h1 := partnerIs_mems h
    updLink_mems (mems_ite (updTrunk_mems h1) h1)

theorem syncIn_mems (h : s.mems = M) {p : ℕ} {t : Txn} : (s.syncIn p t).mems = M := by
  unfold syncIn
  refine mems_ite h ?_
  exact
    have h1 := updLink_mems h
    mems_ite h1 (updTrunk_mems (mems_foldl (fun _ _ h => updLink_mems h) h1))

theorem advIn_mems (h : s.mems = M) {p : ℕ} {t : Txn} : (s.advIn p t).mems = M := by
  unfold advIn
  exact mems_ite h (mems_foldl (fun _ _ h => learn_mems (updRoute_mems h)) h)

theorem bindReqIn_memOk (h : s.MemOk) {p : ℕ} {t : Txn} : (s.bindReqIn p t).MemOk := by
  unfold bindReqIn
  exact memOk_ite (of_mems (sendMgmt_mems rfl) h) (memOk_ite (of_mems (sendMgmt_mems rfl) h) (memOk_ite (of_mems (sendMgmt_mems rfl) h)
    (memOk_ite (of_mems (sendMgmt_mems rfl) h) (of_mems (updLink_mems rfl) (memOk_foldl (fun _ _ h => bindFails_memOk h) h)))))

theorem bindAckIn_memOk (h : s.MemOk) {p : ℕ} : (s.bindAckIn p).MemOk := by
  unfold bindAckIn
  split
  · exact h
  · exact memOk_ite (bindFails_memOk h) (of_mems (neighbourUp_mems rfl) (rebindEnd_memOk (of_mems (bindPort_mems (updLink_mems rfl)) h)))

theorem bindRefuseIn_memOk (h : s.MemOk) {p : ℕ} {t : Txn} : (s.bindRefuseIn p t).MemOk := by
  unfold bindRefuseIn
  split
  · exact h
  · exact bindFails_memOk h

theorem unbindIn_mems (h : s.mems = M) {p : ℕ} : (s.unbindIn p).mems = M := by
  unfold unbindIn
  exact
    have h1 := updLink_mems h
    mems_ite (updLink_mems h1) h1

theorem selfSet_mems (h : s.mems = M) {d : ℕ} : (s.selfSet d).mems = M := by
  unfold selfSet
  exact mems_ite h (updRoute_mems (set_mems (set_mems h)))

theorem rteWrite_mems (h : s.mems = M) {v : ℕ} : (s.rteWrite v).mems = M := by
  unfold rteWrite
  exact mems_ite h (mems_ite (setRoute_mems h) (mems_ite h (learn_mems (setRoute_mems h))))

theorem slotResult_mems (h : s.mems = M) {p l result peer : ℕ} : (s.slotResult p l result peer).mems = M := by
  unfold slotResult
  exact set_mems (set_mems h)

theorem slotIdle_mems (h : s.mems = M) {p l result peer : ℕ} : (s.slotIdle p l result peer).mems = M := by
  unfold slotIdle
  exact mems_with_joins_toks (slotResult_mems (set_mems h))

theorem joinDone_mems (h : s.mems = M) {p l : ℕ} : (s.joinDone p l).mems = M := by
  unfold joinDone
  exact mems_ite (slotResult_mems (set_mems h)) h

theorem joinTake_mems (h : s.mems = M) {p l rank src : ℕ} {data : Bytes} : (s.joinTake p l rank src data).mems = M := by
  unfold joinTake
  exact
    have h1 := sendColl_mems h
    mems_ite h1 (joinDone_mems (updJoin_mems h1))

theorem spanSlotJoin_mems (h : s.mems = M) {p l : ℕ} : (s.spanSlotJoin p l).mems = M := by
  unfold spanSlotJoin
  exact mems_ite h (mems_ite (slotResult_mems h) (mems_ite (slotResult_mems h) (mems_ite (slotResult_mems h) (mems_ite
    (slotResult_mems h) (joinDone_mems (mems_foldl (fun _ _ h => joinTake_mems h) (mems_with_earlyJoins (castColl_mems
    (mems_with_joins_spanNo (slotResult_mems (set_mems h)))))))))))

theorem spanSlotLeave_mems (h : s.mems = M) {p l : ℕ} : (s.spanSlotLeave p l).mems = M := by
  unfold spanSlotLeave
  exact mems_ite (set_mems h) (mems_ite (slotIdle_mems h) h)

theorem joinIn_mems (h : s.mems = M) {t : Txn} : (s.joinIn t).mems = M := by
  unfold joinIn
  split
  · exact joinTake_mems h
  · exact mems_with_earlyJoins h

theorem ansIn_mems (h : s.mems = M) {t : Txn} : (s.ansIn t).mems = M := by
  unfold ansIn
  split
  · exact h
  · exact mems_ite (slotIdle_mems h) (mems_ite h (joinDone_mems (updJoin_mems h)))

theorem leaveIn_mems (h : s.mems = M) {t : Txn} : (s.leaveIn t).mems = M := by
  unfold leaveIn
  split
  · exact h
  · exact mems_ite h (absent_mems (updJoin_mems h))

theorem holdCheck_mems (h : s.mems = M) {p l no src : ℕ} {data : Bytes} : (s.holdCheck p l no src data).mems = M := by
  unfold holdCheck
  exact updJoin_mems h

theorem checkIn_mems (h : s.mems = M) {t : Txn} : (s.checkIn t).mems = M := by
  unfold checkIn
  split
  · exact h
  · extract_lets
    split
    · exact mems_ite h (mems_ite (checkOne_mems h) (holdCheck_mems h))
    · exact mems_ite h (holdCheck_mems h)

theorem refuseIn_mems (h : s.mems = M) {t : Txn} : (s.refuseIn t).mems = M := by
  unfold refuseIn
  split
  · exact h
  · extract_lets
    split
    · exact mems_ite h (checkOne_mems h)
    · exact mems_ite h (holdCheck_mems h)

theorem barrierIn_mems (h : s.mems = M) {t : Txn} : (s.barrierIn t).mems = M := by
  unfold barrierIn
  split
  · exact h
  · refine mems_ite h ?_
    exact
      have h1 := mems_with_toks h
      by
        extract_lets
        split
        · exact barrierDone_mems h1
        · exact h1

theorem arrive_memOk (h : s.MemOk) {p op cls : ℕ} {t : Txn} {f : State → Txn → State} (hf : ∀ s t, s.MemOk → (f s t).MemOk) :
    (s.arrive p t op cls f).MemOk := by
  unfold arrive
  refine memOk_onUnit (memOk_ite h ?_)
  have h1 : (s.firstData p).MemOk := of_mems (firstData_mems rfl) h
  exact memOk_ite (of_mems (errCount_mems rfl) h1) (memOk_ite (of_mems (errCount_mems (updLink_mems rfl)) h1) (hf _ _ (of_mems
    (updLink_mems rfl) h1)))

theorem arriveClear_memOk (h : s.MemOk) {p op : ℕ} {t : Txn} {f : State → Txn → State} (hf : ∀ s t, s.MemOk → (f s t).MemOk) :
    (s.arriveClear p t op f).MemOk := by
  unfold arriveClear
  exact memOk_onUnit (memOk_ite h (memOk_ite (of_mems (errCount_mems rfl) h) (hf _ _ (of_mems (updLink_mems rfl) h))))

theorem forward_mems (h : s.mems = M) {t : Txn} : (s.forward t).mems = M := by
  unfold forward
  refine mems_ite (mems_ite (answer_mems h) h) ?_
  split
  · exact mems_ite (answer_mems h) h
  · split
    · exact mems_ite (answer_mems h) h
    · exact depart_mems (draw_mems h)

theorem routed_memOk (h : s.MemOk) {t : Txn} {f : State → State} (hf : ∀ s, s.MemOk → (f s).MemOk) : (s.routed t f).MemOk := by
  unfold routed
  refine memOk_ite ?_ (memOk_ite (of_mems (forward_mems rfl) h) (hf _ h))
  exact memOk_ite (of_mems (answer_mems (errCount_mems rfl)) h) (of_mems (errCount_mems rfl) h)

theorem served_memOk (h : s.MemOk) {t : Txn} {x : NapRes} : (s.served t x).MemOk := by
  unfold served
  split
  · exact of_mems (answer_mems rfl) h
  · exact of_mems (answer_mems rfl) h
  · exact of_mems (answer_mems rfl) h
  · exact keySettle_memOk (of_mems (answer_mems rfl) h)

theorem rdServe_memOk (h : s.MemOk) {t : Txn} : (s.rdServe t).MemOk := by
  unfold rdServe
  extract_lets
  split
  · refine memOk_ite (memOk_ite (of_mems (answer_mems rfl) h) (served_memOk (lineShort_memOk h))) ?_
    split
    next t _ e =>
      exact of_mems (answer_mems rfl) (memOk_of_eq e (devRead_memOk h))
    next t _ e =>
      exact served_memOk (memOk_of_eq e (devRead_memOk h))
  · exact of_mems (answer_mems rfl) h

theorem wrServe_memOk (h : s.MemOk) {t : Txn} : (s.wrServe t).MemOk := by
  unfold wrServe
  extract_lets
  split
  · exact of_mems (answer_mems rfl) h
  · exact served_memOk (devWrite_memOk h)

theorem atomServe_memOk (h : s.MemOk) {t : Txn} : (s.atomServe t).MemOk := by
  unfold atomServe
  extract_lets
  split
  · refine memOk_ite (of_mems (answer_mems rfl) h) ?_
    split
    next e => exact served_memOk (memOk_of_eq e (lineModify_memOk h))
  · exact of_mems (answer_mems rfl) h

theorem addAll_memOk (h : s.MemOk) {key part dpa : ℕ} {l : List (ℕ × LongAcc)} : (s.addAll key part dpa l).1.MemOk := by
  induction l generalizing s with
  | nil => exact h
  | cons x l ih =>
    unfold addAll
    extract_lets a
    split
    · exact h
    · refine memOk_ite_fst h ?_
      split
      next e => exact ih (memOk_of_eq e (lineModify_memOk h))
      next => exact lineModify_memOk h

theorem reduceServe_memOk (h : s.MemOk) {t : Txn} : (s.reduceServe t).MemOk := by
  unfold reduceServe
  extract_lets
  split
  · exact of_mems (answer_mems rfl) h
  · exact served_memOk (addAll_memOk h)

theorem reduceSpcServe_memOk (h : s.MemOk) {t : Txn} : (s.reduceSpcServe t).MemOk := by
  unfold reduceSpcServe
  extract_lets
  split
  · exact of_mems (answer_mems rfl) h
  · exact served_memOk (addAll_memOk h)

theorem fenceServe_mems (h : s.mems = M) {t : Txn} : (s.fenceServe t).mems = M := by
  unfold fenceServe
  refine mems_ite (answer_mems h) ?_
  exact
    have h1 := raiseTarget_mems h
    mems_ite (answer_mems (remoteFenceBreak_mems h1)) (answer_mems (signalFence_mems h1))

theorem rspServe_memOk (h : s.MemOk) {t : Txn} : (s.rspServe t).MemOk := by
  unfold rspServe
  split
  · exact h
  · exact
      have h1 := of_mems (mems_with_reqs rfl) h
      memOk_ite h1 (memOk_ite (of_mems (reqFails_mems rfl) h1) (memOk_ite (arriveBytes_memOk h1) h1))

theorem putBlock_mems (h : s.mems = M) {p type lseq : ℕ} {gend : Bool} : (s.putBlock p type lseq gend).mems = M := by
  unfold putBlock
  exact emit_mems (updLink_mems (mems_ite (errCount_mems h) h))

theorem sendIdle_mems (h : s.mems = M) {p : ℕ} : (s.sendIdle p).mems = M := by
  unfold sendIdle
  exact updLink_mems (putBlock_mems (emit_mems h))

theorem sendData_mems (h : s.mems = M) {p type : ℕ} {gend : Bool} {ord : Option ℕ} : (s.sendData p type gend ord).mems = M := by
  unfold sendData
  exact updLink_mems (putBlock_mems h)

theorem sendKeyed_mems (h : s.mems = M) {p : ℕ} : (s.sendKeyed p).mems = M := by
  unfold sendKeyed
  exact mems_ite (sendData_mems (updLink_mems h)) (mems_ite (sendData_mems (updTrunk_mems h)) (mems_ite (sendData_mems
    (updTrunk_mems h)) (mems_ite (sendData_mems h) h)))

theorem nakStart_mems (h : s.mems = M) {p : ℕ} : (s.nakStart p).mems = M := by
  unfold nakStart
  exact updLink_mems h

theorem acks_mems (h : s.mems = M) {p lack : ℕ} : (s.acks p lack).mems = M := by
  unfold acks
  exact updLink_mems h

theorem nakIn_mems (h : s.mems = M) {p lack : ℕ} : (s.nakIn p lack).mems = M := by
  unfold nakIn
  exact mems_ite (portRetrain_mems h) (mems_foldl (fun _ _ h => putBlock_mems h) (updLink_mems h))

theorem trunkTake_mems (h : s.mems = M) {n k : ℕ} : (trunkTake n s k).mems = M := by
  induction n generalizing s with
  | zero => exact h
  | succ n ih =>
    unfold trunkTake
    extract_lets l
    split
    · exact h
    · exact mems_ite h (ih (updTrunk_mems (updLink_mems h)))

theorem groupGood_mems (h : s.mems = M) {p : ℕ} : (s.groupGood p).mems = M := by
  unfold groupGood
  exact
    have h1 := updLink_mems h
    mems_ite (trunkTake_mems h1) h1

theorem groupBad_mems (h : s.mems = M) {p first : ℕ} : (s.groupBad p first).mems = M := by
  unfold groupBad
  exact
    have h1 := errCount_mems h
    mems_ite (portRetrain_mems (securityAlarm_mems h1)) (nakStart_mems (updLink_mems h1))

theorem dataIn_mems (h : s.mems = M) {p : ℕ} {b : Block} : (s.dataIn p b).mems = M := by
  unfold dataIn
  refine mems_ite (nakStart_mems (errCount_mems h)) ?_
  refine mems_ite (nakStart_mems h) ?_
  exact
    have h1 := updLink_mems h
    mems_ite h1 (
      have h3 := updLink_mems (firstData_mems h1)
      mems_ite h3 (mems_ite (groupGood_mems h3) (groupBad_mems h3)))

theorem reglEarn_mems (h : s.mems = M) {r : ℕ} : (s.reglEarn r).mems = M := by
  unfold reglEarn
  exact updRegl_mems h

theorem reglCharge_mems (h : s.mems = M) {r : ℕ} {e : Elig} {rule : ℕ} : (s.reglCharge r e rule).mems = M := by
  unfold reglCharge
  exact updRegl_mems h

theorem reglCount_mems (h : s.mems = M) {r : ℕ} {e : Elig} {l : List Elig} : (s.reglCount r e l).mems = M := by
  unfold reglCount
  exact updRegl_mems h

theorem reglHold_mems (h : s.mems = M) {r : ℕ} {l : List Elig} : (s.reglHold r l).mems = M := by
  unfold reglHold
  exact updRegl_mems h

theorem reglMode_mems (h : s.mems = M) : s.reglMode.mems = M := by
  unfold reglMode
  exact
    have h1 := set_mems (set_mems h)
    mems_ite (mems_with_regls h1) h1

theorem counterSnapshot_mems (h : s.mems = M) {v : ℕ} : (s.counterSnapshot v).mems = M := by
  unfold counterSnapshot
  exact mems_foldl (fun _ _ h => wr64_mems (wr64_mems h)) (wr_mems h)

theorem setBulk_mems (h : s.mems = M) : s.setBulk.mems = M := by
  unfold setBulk
  exact mark_mems (wr_mems h)

theorem clock_mems (h : s.mems = M) {i : ℕ} : (s.clock i).mems = M := by
  unfold clock
  exact rampFrom_mems (set_mems (set_mems h))

theorem powerStat_mems (h : s.mems = M) : s.powerStat.mems = M := by
  unfold powerStat
  exact set_mems (set_mems (mark_mems (mark_mems (mark_mems h))))

theorem clocks_mems (h : s.mems = M) : s.clocks.mems = M := by
  unfold clocks
  exact mems_foldl (fun _ _ h => clock_mems h) (powerStat_mems h)

theorem addEnergy_mems (h : s.mems = M) {e : ℕ} : (s.addEnergy e).mems = M := by
  unfold addEnergy
  exact mems_with_power (bump64_mems h)

theorem sensorInput_mems (h : s.mems = M) {w : ℕ} : (s.sensorInput w).mems = M := by
  unfold sensorInput
  exact event0_mems (bumpF_mems (alarm_mems (set_mems h)))

theorem tempByte_mems (h : s.mems = M) {x : Option ℤ} : (s.tempByte x).2.mems = M := by
  unfold tempByte
  split
  · exact h
  · exact mems_ite_snd h (draw_mems h)

theorem putTemp_mems (h : s.mems = M) {off i : ℕ} {x : Option ℤ} : (s.putTemp off i x).mems = M := by
  unfold putTemp
  exact wr_mems (tempByte_mems h)

theorem hotRegs_mems (h : s.mems = M) {kind : ℕ} : (s.hotRegs kind).mems = M := by
  unfold hotRegs
  extract_lets _ i
  split
  next _ t e =>
    have ht : t.mems = M := mems_of_eq_snd e (tempByte_mems h)
    split
    · exact set_mems (set_mems ht)
    · exact set_mems (set_mems ht)
    · exact set_mems ht
    · exact ht

theorem judgeTemp_mems (h : s.mems = M) {kind i : ℕ} : (s.judgeTemp kind i).mems = M := by
  unfold judgeTemp
  split
  · exact mems_with_therm h
  · exact
      have h1 := mems_with_therm h
      mems_ite h1 (clocks_mems (event0_mems (alarm_mems (bump_mems (set_mems h1)))))

theorem junctionFault_mems (h : s.mems = M) {i : ℕ} {t : ℤ} : (s.junctionFault i t).mems = M := by
  unfold junctionFault
  exact mems_ite (mems_with_therm h) (mems_ite h (event0_mems (bumpF_mems (alarm_mems (mems_with_therm h)))))

theorem takeTemp_mems (h : s.mems = M) {kind i : ℕ} {t : Option ℤ} : (s.takeTemp kind i t).mems = M := by
  unfold takeTemp
  exact mems_with_therm h

theorem epochMeasure_mems (h : s.mems = M) : s.epochMeasure.mems = M := by
  unfold epochMeasure
  exact
    have h1 := set_mems (set_mems (draw_mems (draw_mems h)))
    have h2 := mems_ite (set_mems h1) h1
    mems_with_power (set_mems (set_mems (mems_ite (set_mems h2) h2)))

theorem epochProfile_mems (h : s.mems = M) : s.epochProfile.mems = M := by
  unfold epochProfile
  exact clocks_mems (mems_with_power (mems_with_power h))

theorem epochAllow_mems (h : s.mems = M) : s.epochAllow.mems = M := by
  unfold epochAllow
  exact clocks_mems (setBulk_mems (mark_mems (set_mems (mems_with_power (draw_mems (set_mems h))))))

theorem epochSteady_mems (h : s.mems = M) : s.epochSteady.mems = M := by
  unfold epochSteady
  refine mems_ite (mems_with_power h) ?_
  exact
    have h2 := mems_with_power (bumpF_mems h)
    mems_ite h2 (event0_mems (draw_mems h2))

theorem controlRecords_mems (h : s.mems = M) {hot : List (ℕ × ℕ × ℤ)} : (s.controlRecords hot).mems = M := by
  unfold controlRecords
  exact mems_with_power (mems_foldl (fun _ _ h => event0_mems h) h)

theorem epochThermal_mems (h : s.mems = M) : s.epochThermal.mems = M := by
  unfold epochThermal
  exact mems_with_power (mark_mems (controlRecords_mems h))

theorem guardband_mems (h : s.mems = M) {i : ℕ} : (s.guardband i).mems = M := by
  unfold guardband
  exact mems_ite h (mems_with_power h)

theorem epochGuard_mems (h : s.mems = M) : s.epochGuard.mems = M := by
  unfold epochGuard
  exact mems_with_power (mems_foldl (fun _ _ h => guardband_mems h) h)

theorem epochStragglers_mems (h : s.mems = M) : s.epochStragglers.mems = M := by
  unfold epochStragglers
  exact mems_with_power h

theorem epochFilling_mems (h : s.mems = M) : s.epochFilling.mems = M := by
  unfold epochFilling
  exact mems_foldl (fun _ _ h => fillCount_mems h) h

theorem epochTower_mems (h : s.mems = M) {t : ℕ} : (s.epochTower t).mems = M := by
  unfold epochTower
  exact
    have h2 := updTower_mems (mems_ite (bumpF_mems h) h)
    mems_ite (set_mems h2) h2

theorem stragglerState_mems (h : s.mems = M) {on : Bool} : (s.stragglerState on).mems = M := by
  unfold stragglerState
  exact
    have h1 := mark_mems h
    setBulk_mems (event0_mems (mems_ite (bumpF_mems h1) h1))

theorem partTdiError_memOk (h : s.MemOk) {p reason : ℕ} : (s.partTdiError p reason).MemOk := by
  unfold partTdiError
  exact memOk_foldl (fun _ _ h => tdiError_memOk h) h

theorem keyUnlock_memOk (h : s.MemOk) {v : ℕ} : (s.keyUnlock v).MemOk := by
  unfold keyUnlock
  exact
    have h1 := of_mems (set_mems rfl) h
    memOk_ite h1 (of_mems (unlockSettle_mems rfl) (memOk_foldl (fun _ _ h => keyRetire_memOk h) (partTdiError_memOk (of_mems
      (mems_with_sec rfl) (of_mems (set_mems rfl) h1)))))

theorem setIde_mems (h : s.mems = M) {i : ℕ} {b : Bool} : (s.setIde i b).mems = M := by
  unfold setIde
  exact set_mems (mems_with_sec h)

theorem setTdi_mems (h : s.mems = M) {fn t : ℕ} : (s.setTdi fn t).mems = M := by
  unfold setTdi
  exact mems_with_sec h

theorem zeroiseAll_mems (h : s.mems = M) : s.zeroiseAll.mems = M := by
  unfold zeroiseAll
  exact mems_with_sec (mems_foldl (fun _ _ h => set_mems (set_mems h)) h)

theorem commitSvn_mems (h : s.mems = M) : s.commitSvn.mems = M := by
  unfold commitSvn
  exact set_mems (mems_with_sec h)

theorem keptRegs_mems (h : t.mems = M) : (s.keptRegs t).mems = M := by
  unfold keptRegs
  exact set_mems (set_mems (set_mems (mark_mems (wr_mems h))))

theorem unitsReset_memOk (h : s.MemOk) : s.unitsReset.MemOk := by
  have hm := wf_mem h
  unfold unitsReset
  exact of_mems (wr_mems (keptRegs_mems rfl)) (memOk_mk hm rfl rfl rfl)

theorem dieReset_memOk (h : s.MemOk) : s.dieReset.MemOk := by
  unfold dieReset
  extract_lets t
  have ht : t.MemOk := unitsReset_memOk h
  have hm := wf_mem ht
  have hp := wf_spad ht
  have hs := wf_share ht
  clear_value t
  exact of_mems (keptRegs_mems rfl) (memOk_mk hm hp hs rfl)

/-- What lost power leaves holds no byte. -/
theorem powerLost_memOk (_ : s.MemOk) : s.powerLost.MemOk :=
  memOk_mk rfl rfl rfl rfl

theorem takeStaged_mems (h : s.mems = M) : s.takeStaged.mems = M := by
  unfold takeStaged
  exact mems_ite h (mems_with_flash h)

theorem boot_mems (h : s.mems = M) : s.boot.1.mems = M := by
  unfold boot
  exact
    have h1 := takeStaged_mems h
    mems_ite_fst h1 (
      have h4 := set_mems (set_mems (set_mems (mark_mems (mems_with_sec h1))))
      mems_ite (alarm_mems h4) h4)

theorem recordRetired_mems (h : s.mems = M) {typ idx reason : ℕ} : (s.recordRetired typ idx reason).mems = M := by
  unfold recordRetired
  exact mems_ite h (mems_with_flash h)

theorem trainAll_mems (h : s.mems = M) {train : TrainIn} : (s.trainAll train).mems = M := by
  unfold trainAll
  exact
    have h2 := mems_foldl (fun _ _ h => recordRetired_mems (recordRetired_mems h)) (mems_foldl (fun _ _ h => trainChan_mems h) h)
    mems_ite h2 (alarm_mems h2)

theorem buildTable_mems (h : s.mems = M) : s.buildTable.mems = M := by
  unfold buildTable
  refine mems_foldl (fun _ _ h => ?_) (capTouch_mems h)
  exact
    have h1 := setRetired_mems h
    mems_ite (set_mems h1) h1

theorem bringUp_mems (h : s.mems = M) {train : TrainIn} : (s.bringUp train).mems = M := by
  unfold bringUp
  split
  next t e =>
    exact alarm_mems (set_mems (mems_of_eq e (boot_mems h)))
  next t e =>
    exact clocks_mems (reglMode_mems (set_mems (set_mems (mems_with_ready (bumpF_mems (buildTable_mems (trainAll_mems (mems_with_incarn
      (draw_mems (mems_of_eq e (boot_mems h)))))))))))

theorem setLevel_mems (h : s.mems = M) {level kind idx part : ℕ} : (s.setLevel level kind idx part).mems = M := by
  unfold setLevel
  exact capTouch_mems (wr_mems h)

theorem stopSlices_mems (h : s.mems = M) {l : List ℕ} {b : Bool} : (s.stopSlices l b).mems = M := by
  unfold stopSlices
  exact mems_foldl (fun _ _ h => updSlice_mems h) h

theorem crumbParts_mems (h : s.mems = M) {head : Bytes} {slice : Option ℕ} {full : Bool} : (s.crumbParts head slice full).1.mems = M := by
  unfold crumbParts
  exact draw_mems (draw_mems (draw_mems h))

theorem crumbToHost_mems (h : s.mems = M) {parts : List (ℕ × Bytes)} : (s.crumbToHost parts).mems = M := by
  unfold crumbToHost
  exact mems_ite h (mems_ite (set_mems h) (set_mems (mems_foldl (fun _ _ h => hostStore_mems h) h)))

theorem crumbToArea_memOk (h : s.MemOk) {x addr key : ℕ} {parts : List (ℕ × Bytes)} : (s.crumbToArea x addr key parts).MemOk := by
  unfold crumbToArea
  exact memOk_foldl (fun _ _ h => devWrite_memOk h) h

theorem crumb_memOk (h : s.MemOk) {level cause kind idx : ℕ} {slice : Option ℕ} : (s.crumb level cause kind idx slice).MemOk := by
  have hc (head : Bytes) (sl : Option ℕ) (full : Bool) : (s.crumbParts head sl full).1.MemOk := of_mems (crumbParts_mems rfl) h
  unfold crumb
  dsimp only
  split
  · exact of_mems (crumbToHost_mems rfl) (hc _ none true)
  next n =>
    split
    · exact of_mems (crumbToHost_mems rfl) (hc _ (some n) true)
    · split
      · exact of_mems (crumbToHost_mems rfl) (hc _ (some n) false)
      · exact of_mems (crumbToHost_mems rfl) (crumbToArea_memOk (hc _ (some n) true))

theorem takeCrumbs_memOk (h : s.MemOk) {level cause kind idx : ℕ} {slices : List ℕ} : (s.takeCrumbs level cause kind idx slices).MemOk := by
  unfold takeCrumbs
  exact memOk_ite (crumb_memOk h) (memOk_foldl (fun _ _ h => crumb_memOk h) h)

theorem crumbClear_mems (h : s.mems = M) : s.crumbClear.mems = M := by
  unfold crumbClear
  exact set_mems (set_mems h)

theorem preemptRebinds_memOk (h : s.MemOk) {slices chans ports : List ℕ} : (s.preemptRebinds slices chans ports).MemOk := by
  unfold preemptRebinds
  exact memOk_foldl (fun _ _ h => rebindAbort_memOk h) h

theorem preemptOwn_memOk (h : s.MemOk) {p : ℕ} : (s.preemptOwn p).MemOk := by
  unfold preemptOwn
  exact memOk_ite (rebindAbort_memOk h) h

theorem preemptLevel_memOk (h : s.MemOk) {level kind idx part : ℕ} : (s.preemptLevel level kind idx part).MemOk := by
  unfold preemptLevel
  exact memOk_ite (preemptRebinds_memOk h) (memOk_ite (preemptRebinds_memOk (preemptOwn_memOk h)) (preemptRebinds_memOk h))

theorem startLevel_memOk (h : s.MemOk) {level kind idx part code : ℕ} {waits : Bool} : (s.startLevel level kind idx part code waits).MemOk := by
  unfold startLevel
  exact
    have h3 := of_mems (event0_mems rfl) (of_mems (reglMode_mems (stopSlices_mems (setLevel_mems rfl))) (preemptLevel_memOk (of_mems
      (mems_with_rcv rfl) h)))
    memOk_ite (of_mems (set_mems rfl) (takeCrumbs_memOk h3)) h3

theorem levelEnd_memOk (h : s.MemOk) : s.levelEnd.MemOk := by
  unfold levelEnd
  exact memOk_foldl (fun _ _ h => schedule_memOk h) (of_mems (reglMode_mems (stopSlices_mems (capTouch_mems (wr_mems rfl)))) (of_mems
    (mapCmds_mems rfl) (of_mems (mems_with_rcv rfl) h)))

theorem stopCmd_memOk (h : s.MemOk) {code kind id : ℕ} {c : Cmd} : (s.stopCmd code kind id c).MemOk := by
  unfold stopCmd
  exact memOk_ite (of_mems (breakCmd_mems (flushCmd_mems rfl)) h) (memOk_ite (stopNow_memOk h) (memOk_ite (of_mems (forgetReqs_mems
    (holdCmd_mems rfl)) h) (of_mems (breakCmd_mems (flushCmd_mems rfl)) h)))

theorem stopCmds_memOk (h : s.MemOk) {code kind id : ℕ} {cs : List Cmd} : (s.stopCmds code kind id cs).MemOk := by
  unfold stopCmds
  exact memOk_foldl (fun _ _ h => of_mems (tearAdvance_mems rfl) h) (memOk_foldl (fun _ _ h => stopCmd_memOk h) h)

theorem islandsReset_mems (h : s.mems = M) {n : ℕ} : (s.islandsReset n).mems = M := by
  unfold islandsReset
  exact setQuiet_mems (mems_with_halted (mems_foldl (fun _ _ h => clearPage_mems h) h))

theorem slicesReset_memOk (h : s.MemOk) {l : List ℕ} : (s.slicesReset l).MemOk := by
  unfold slicesReset
  exact of_mems (clocks_mems rfl) (memOk_foldl (fun _ _ h => of_mems (islandsReset_mems rfl) (scrubSlice_memOk (of_mems (release_mems
    rfl) h))) (memOk_foldl (fun _ _ h => memOk_ite (of_mems (updCtx_mems rfl) h) h) h))

theorem resetScope_memOk (h : s.MemOk) {kind idx : ℕ} : (s.resetScope kind idx).MemOk := by
  unfold resetScope
  exact
    have h3 := of_mems (mems_with_halted rfl) (slicesReset_memOk (preemptRebinds_memOk h))
    memOk_ite (of_mems (updCore_mems (clearPage_mems rfl)) h3) h3

theorem scopeFault_mems (h : s.mems = M) {kind idx : ℕ} : (s.scopeFault kind idx).mems = M := by
  unfold scopeFault
  exact mems_ite (fault_mems h) (mems_ite (fault_mems h) h)

theorem unhold_mems (h : s.mems = M) {xs : List ℕ} : (s.unhold xs).mems = M := by
  unfold unhold
  exact mapCmds_mems h

theorem clearSuspect_mems (h : s.mems = M) {x : ℕ} : (s.clearSuspect x).mems = M := by
  unfold clearSuspect
  exact set_mems (set_mems h)

theorem tasteEnd_memOk (h : s.MemOk) {result guilty : ℕ} {go : Bool} : (s.tasteEnd result guilty go).MemOk := by
  unfold tasteEnd
  exact
    have h2 := of_mems (eventAll_mems rfl) (of_mems (wr_mems rfl) (memOk_foldl (fun _ _ h => of_mems (clearSuspect_mems rfl) h) h))
    have h4 := of_mems (mems_with_rcv rfl) (memOk_ite (of_mems (unhold_mems rfl) h2) h2)
    levelEnd_memOk (memOk_ite (of_mems (scopeFault_mems rfl) h4) h4)

theorem turnStart_memOk (h : s.MemOk) : s.turnStart.MemOk := by
  unfold turnStart
  extract_lets xs rcv s1
  have h1 : s1.MemOk := of_mems (mems_with_rcv rfl) h
  clear_value s1
  split
  · split
    · exact tasteEnd_memOk h1
    · extract_lets s2 t rcv s3 s4 l
      have h3 : s3.MemOk := of_mems (mems_with_rcv (set_mems (set_mems (set_mems rfl)))) h1
      have h4 : s4.MemOk := of_mems (updCmd_mems rfl) h3
      exact memOk_ite (of_mems (feedCtx_mems rfl) h4) (give_memOk (of_mems (stopSlices_mems rfl) h4))
  · exact tasteEnd_memOk h1

theorem turnOver_memOk (h : s.MemOk) : s.turnOver.MemOk := by
  unfold turnOver
  split
  · exact
      have h1 := of_mems (clearSuspect_mems rfl) h
      turnStart_memOk (of_mems (mems_with_rcv rfl) (memOk_ite h1 (of_mems (stopSlices_mems rfl) (memOk_foldl (fun _ _ h => of_mems
        (release_mems rfl) h) h1))))
  · exact h

theorem tasteStart_memOk (h : s.MemOk) {kind idx : ℕ} {xs : List ℕ} : (s.tasteStart kind idx xs).MemOk := by
  unfold tasteStart
  exact turnStart_memOk (of_mems (reglMode_mems rfl) (of_mems (stopSlices_mems (setLevel_mems rfl)) (of_mems (mems_with_rcv rfl)
    (memOk_foldl (fun _ _ h => of_mems (set_mems rfl) h) h))))

theorem engineRest_memOk (h : s.MemOk) {kind idx : ℕ} {ids : List (ℕ × ℕ)} : (s.engineRest kind idx ids).MemOk := by
  unfold engineRest
  refine memOk_ite h ?_
  exact
    have h2 := of_mems (bumpF_mems rfl) (resetScope_memOk (of_mems (mems_with_rcv rfl) h))
    have h3 := memOk_ite (of_mems (fault_mems rfl) h2) h2
    memOk_ite (levelEnd_memOk (of_mems (scopeFault_mems rfl) h3)) (tasteStart_memOk h3)

theorem engineRun_memOk (h : s.MemOk) {kind idx : ℕ} {more : List (ℕ × ℕ)} : (s.engineRun kind idx more).MemOk := by
  unfold engineRun
  exact engineRest_memOk (of_mems (mems_with_rcv rfl) (stopCmds_memOk h))

theorem tasteStop_memOk (h : s.MemOk) {rerun : Bool} : (s.tasteStop rerun).MemOk := by
  unfold tasteStop
  exact memOk_ite h (tasteEnd_memOk (memOk_ite h (memOk_foldl (fun _ _ h => of_mems (breakCmd_mems (flushCmd_mems rfl)) h) h)))

theorem guilty_memOk (h : s.MemOk) {x q seq kind idx : ℕ} : (s.guilty x q seq kind idx).MemOk := by
  unfold guilty
  exact
    have h2 := of_mems (flushCmd_mems rfl) (takeCrumbs_memOk h)
    have h4 := of_mems (bumpF_mems rfl) (resetScope_memOk (by
      split
      · exact h2
      · exact of_mems (setLatch_mems (breakFenceOf_mems (updCmd_mems rfl))) h2))
    tasteEnd_memOk (tearDown_memOk (of_mems (set_mems rfl) (memOk_ite (of_mems (fault_mems rfl) h4) h4)))

theorem contextLevel_memOk (h : s.MemOk) {n : ℕ} : (s.contextLevel n).MemOk := by
  unfold contextLevel
  split
  · exact h
  next q seq _ =>
    have h1 : (((s.flushCmd q seq).breakCmd q seq codeHang 3 n).bumpF rcvPg GLB_RCV_CNT_CONTEXT 1).MemOk :=
      of_mems (bumpF_mems (breakCmd_mems (flushCmd_mems rfl))) h
    dsimp only
    split
    · exact of_mems (feedCtx_mems rfl) (scheduleFor_memOk (of_mems (tearAdvance_mems rfl) h1))
    · exact h1

theorem unionLevel_memOk (h : s.MemOk) {idx : ℕ} : (s.unionLevel idx).MemOk := by
  unfold unionLevel
  exact
    have h1 := of_mems (stopSlices_mems (set_mems (setLevel_mems rfl))) h
    by
      extract_lets
      split
      · exact engineRun_memOk (takeCrumbs_memOk h1)
      · exact h1

theorem hung_memOk (h : s.MemOk) {kind idx : ℕ} : (s.hung kind idx).MemOk := by
  unfold hung
  refine memOk_ite (unionLevel_memOk h) ?_
  refine memOk_ite h ?_
  exact
    have h1 := of_mems (mems_with_beacons rfl) h
    memOk_ite (contextLevel_memOk h1) (startLevel_memOk h1)

theorem overrun_memOk (h : s.MemOk) {c : Cmd} {l : List ℕ} : (s.overrun c l).MemOk := by
  unfold overrun
  exact scheduleFor_memOk (preempted_memOk (of_mems (tearAdvance_mems (mems_with_rcv rfl)) (of_mems (bumpF_mems rfl) (slicesReset_memOk
    (preemptRebinds_memOk (of_mems (breakCmd_mems (flushCmd_mems rfl)) h))))))

theorem engineGoOn_memOk (h : s.MemOk) {kind idx part : ℕ} : (s.engineGoOn kind idx part).MemOk := by
  unfold engineGoOn
  split
  · exact h
  · exact memOk_ite (startLevel_memOk h) (engineRest_memOk h)

theorem partCmdsOut_memOk (h : s.MemOk) {cs : List Cmd} : (s.partCmdsOut cs).MemOk := by
  unfold partCmdsOut
  refine memOk_foldl (fun _ _ h => ?_) h
  exact
    have h1 := of_mems (flushCmd_mems rfl) h
    of_mems (forgetReqs_mems (remoteBreak_mems (spanRefuse_mems rfl))) (memOk_ite h1 (cplWrite_memOk h1))

theorem partitionRest_memOk (h : s.MemOk) {p : ℕ} : (s.partitionRest p).MemOk := by
  unfold partitionRest
  exact
    have h2 := memOk_foldl (fun _ _ h => of_mems (castColl_mems rfl) h) (partCmdsOut_memOk h)
    levelEnd_memOk (of_mems (bumpF_mems rfl) (of_mems (mems_with_parts rfl) (of_mems (transDrop_mems rfl) (memOk_foldl (fun _ _ h => of_mems
      (breakFenceOf_mems rfl) h) (memOk_foldl (fun _ _ h => of_mems (mems_with_gens rfl) (of_mems (set_mems rfl) h)) (of_mems
      (firmwareScrub_mems rfl) (slicesReset_memOk (memOk_ite (memOk_foldl (fun _ _ h => keyFinish_memOk (of_mems
      (keyStartRetire_mems rfl) h)) h2) h2))))))))

theorem partitionGoOn_memOk (h : s.MemOk) {p : ℕ} : (s.partitionGoOn p).MemOk := by
  unfold partitionGoOn
  split
  · exact h
  · exact memOk_ite (partitionRest_memOk h) (memOk_ite (startLevel_memOk h) h)

theorem partitionRun_memOk (h : s.MemOk) {p kind idx : ℕ} : (s.partitionRun p kind idx).MemOk := by
  unfold partitionRun
  exact partitionGoOn_memOk (of_mems (mems_with_rcv rfl) (memOk_foldl (fun _ _ h => of_mems (forgetReqs_mems (holdCmd_mems rfl)) h)
    (of_mems (stopSlices_mems rfl) (preemptLevel_memOk (memOk_ite (of_mems (setLevel_mems rfl) (tasteStop_memOk h)) h)))))

theorem powerCycle_memOk (h : s.MemOk) {cause : ℕ} : (s.powerCycle cause).MemOk := by
  unfold powerCycle
  exact
    have h2 := of_mems (setLevel_mems (mems_with_mclk_ready_rcv_pins rfl)) (unitsReset_memOk h)
    memOk_ite (of_mems (set_mems rfl) h2) (of_mems (alarm_mems (set_mems (mems_with_flash rfl))) h2)

theorem deviceDown_memOk (h : s.MemOk) {cause : ℕ} {crumbs : Bool} : (s.deviceDown cause crumbs).MemOk := by
  unfold deviceDown
  exact
    have h4 := of_mems (goingDown_mems (alarm_mems rfl)) (of_mems (eventAll_mems rfl) (of_mems (stopSlices_mems (setLevel_mems rfl)) (of_mems
      (set_mems rfl) h)))
    unitsReset_memOk (of_mems (mems_with_rcv rfl) (memOk_foldl (fun _ _ h => tdiError_memOk h) (memOk_foldl (fun _ _ h => flushPart_memOk h)
      (memOk_ite (takeCrumbs_memOk h4) h4))))

theorem runLevel_memOk (h : s.MemOk) {level part : ℕ} : (s.runLevel level part).MemOk := by
  unfold runLevel
  extract_lets kind idx s1 rcv s2
  have h2 : s2.MemOk := of_mems (mems_with_rcv (capTouch_mems (set_mems (set_mems rfl)))) h
  clear_value s2
  refine memOk_ite ?_ (memOk_ite ?_ (memOk_ite ?_ (powerCycle_memOk h2)))
  · split
    · split
      · exact levelEnd_memOk (overrun_memOk h2)
      · exact levelEnd_memOk h2
    · exact engineRun_memOk h2
  · exact partitionRun_memOk (memOk_ite h2 (of_mems (setLevel_mems rfl) h2))
  · exact of_mems (stopSlices_mems (setLevel_mems rfl)) h2

theorem recoveryApprove_memOk (h : s.MemOk) : s.recoveryApprove.MemOk := by
  unfold recoveryApprove
  exact memOk_ite h (runLevel_memOk h)

theorem recoveryHold_mems (h : s.mems = M) : s.recoveryHold.mems = M := by
  unfold recoveryHold
  exact mems_ite (set_mems h) h

theorem collect_mems (h : s.mems = M) {src kind a b : ℕ} : (s.collect src kind a b).mems = M := by
  unfold collect
  exact mems_with_mgmt h

theorem recoveryRequest_mems (h : s.mems = M) : s.recoveryRequest.mems = M := by
  unfold recoveryRequest
  exact mems_ite (collect_mems h) h

theorem serveReset_memOk (h : s.MemOk) {level part : ℕ} : (s.serveReset level part).MemOk := by
  unfold serveReset
  exact memOk_ite h (memOk_ite (memOk_ite h (partitionRun_memOk (takeCrumbs_memOk (startLevel_memOk (tasteStop_memOk h))))) (memOk_ite
    (startLevel_memOk h) (powerCycle_memOk h)))

theorem retireDone_mems (h : s.mems = M) {typ idx : ℕ} : (s.retireDone typ idx).mems = M := by
  unfold retireDone
  exact mems_ite (set_mems (set_mems h)) h

theorem sliceGone_memOk (h : s.MemOk) {n reason : ℕ} : (s.sliceGone n reason).MemOk := by
  unfold sliceGone
  extract_lets p lost asked s1 s2 s3 s4 s5
  have h2 : s2.MemOk := memOk_foldl (fun _ _ h => of_mems (updCmd_mems rfl) h) (stopCmds_memOk h)
  have h3 : s3.MemOk := by
    unfold s3
    clear_value p
    cases p with
    | some p => exact slicesLeave_memOk (of_mems (wr_mems rfl) h2)
    | none => exact of_mems (updSlice_mems rfl) (scrubSlice_memOk h2)
  have h5 : s5.MemOk := memOk_foldl (fun _ _ h => goOn_memOk h) (of_mems (retireDone_mems (recordRetired_mems (unitRetired_mems rfl))) h3)
  clear_value s5 p
  cases p with
  | some p => exact schedule_memOk h5
  | none => exact h5

theorem retireSlice_memOk (h : s.MemOk) {n reason : ℕ} : (s.retireSlice n reason).MemOk := by
  unfold retireSlice
  exact
    have h3 := of_mems (markLeaving_mems rfl) (preemptRebinds_memOk (of_mems (capOpen_mems rfl) (memOk_ite (tasteStop_memOk h) h)))
    have h4 := memOk_ite (memOk_foldl (fun _ _ h => of_mems (askBoundary_mems rfl) h) h3) h3
    memOk_ite (sliceGone_memOk h4) h4

theorem retireGroup_memOk (h : s.MemOk) {g reason : ℕ} : (s.retireGroup g reason).MemOk := by
  unfold retireGroup
  exact memOk_foldl (fun _ _ h => of_mems (retireDone_mems (recordRetired_mems (unitRetired_mems rfl))) (of_mems (set_mems
    (setBufs_mems rfl)) h)) (preemptRebinds_memOk h)

theorem retirePort_memOk (h : s.MemOk) {p reason : ℕ} : (s.retirePort p reason).MemOk := by
  unfold retirePort
  exact of_mems (retireDone_mems (recordRetired_mems (unitRetired_mems rfl))) (of_mems (portRetrain_mems rfl) (preemptRebinds_memOk h))

theorem retireRequest_mems (h : s.mems = M) : s.retireRequest.mems = M := by
  unfold retireRequest
  exact mems_ite h (collect_mems (set_mems h))

theorem serveRetire_memOk (h : s.MemOk) {typ idx : ℕ} : (s.serveRetire typ idx).MemOk := by
  unfold serveRetire
  exact memOk_ite (of_mems (set_mems (set_mems rfl)) h) (memOk_ite (of_mems (set_mems (set_mems rfl)) h) (memOk_ite (of_mems (set_mems
    (set_mems rfl)) h) (memOk_ite (retireSlice_memOk h) (memOk_ite (retireGroup_memOk h) (retirePort_memOk h)))))

theorem laneStarted_mems (h : s.mems = M) {chan lane : ℕ} : (s.laneStarted chan lane).mems = M := by
  unfold laneStarted
  exact mems_ite (mems_with_rcv h) h

theorem cycleCause_mems (h : s.mems = M) : s.cycleCause.2.mems = M := by
  unfold cycleCause
  exact mems_ite_snd h (draw_mems h)

theorem putBytes_mems (h : s.mems = M) {lo : ℕ} {b : Bytes} : (s.putBytes lo b).mems = M := by
  unfold putBytes
  exact mems_foldl (fun _ _ h => wr_mems h) h

theorem mbxPut_mems (h : s.mems = M) {src : ℕ} {b : Bytes} : (s.mbxPut src b).mems = M := by
  unfold mbxPut
  exact mems_ite (mems_with_mgmt h) (putBytes_mems h)

theorem mbxFlags_mems (h : s.mems = M) {src : ℕ} {busy done : Bool} : (s.mbxFlags src busy done).mems = M := by
  unfold mbxFlags
  exact mems_ite (mems_with_mgmt h) (mark_mems (mark_mems h))

theorem respond_mems (h : s.mems = M) {src status tag : ℕ} {payload : Bytes} : (s.respond src status tag payload).mems = M := by
  unfold respond
  exact mbxFlags_mems (mems_ite (mems_with_mgmt h) (putBytes_mems h))

theorem eraseStaged_mems (h : s.mems = M) {stage : ℕ} : (s.eraseStaged stage).mems = M := by
  unfold eraseStaged
  exact set_mems (mems_with_flash h)

theorem sessionEnd_memOk (h : s.MemOk) : s.sessionEnd.MemOk := by
  unfold sessionEnd
  exact memOk_with_mgmt (of_mems (set_mems rfl) h) rfl

theorem fwBegin_memOk (h : s.MemOk) {src tag stage size : ℕ} : (s.fwBegin src tag stage size).MemOk := by
  have hr {n : ℕ} : (s.respond src n tag []).MemOk := of_mems (respond_mems rfl) h
  unfold fwBegin
  extract_lets s1 s2
  have h1 : s1.MemOk := by
    unfold s1
    split
    · exact of_mems (eraseStaged_mems rfl) h
    · exact h
  exact memOk_ite hr (memOk_ite hr (of_mems (respond_mems (set_mems (eraseStaged_mems rfl))) (memOk_with_mgmt h1 rfl)))

theorem fwData_memOk (h : s.MemOk) {src tag off : ℕ} {data : Bytes} : (s.fwData src tag off data).MemOk := by
  have hr {n : ℕ} {b : Bytes} : (s.respond src n tag b).MemOk := of_mems (respond_mems rfl) h
  unfold fwData
  split
  · exact hr
  · exact memOk_ite hr (memOk_ite hr (of_mems (respond_mems rfl) (memOk_with_mgmt h (Memory.wf_write (wf_sessionData h) _ _))))

theorem fwEnd_memOk (h : s.MemOk) {src tag : ℕ} : (s.fwEnd src tag).MemOk := by
  unfold fwEnd
  split
  · exact of_mems (respond_mems rfl) h
  · refine memOk_ite (of_mems (respond_mems rfl) h) ?_
    exact
      have h1 := sessionEnd_memOk h
      memOk_ite (of_mems (respond_mems (eraseStaged_mems rfl)) h1) (of_mems (respond_mems rfl) (of_mems (event0_mems rfl) (of_mems
        (set_mems rfl) (of_mems (mems_with_flash rfl) h1))))

theorem retireClear_mems (h : s.mems = M) {typ idx : ℕ} : (s.retireClear typ idx).mems = M := by
  unfold retireClear
  exact mems_with_flash h

theorem getStatus_mems (h : s.mems = M) {src tag : ℕ} : (s.getStatus src tag).mems = M := by
  unfold getStatus
  exact respond_mems (cycleCause_mems h)

theorem readTelemetry_mems (h : s.mems = M) {src tag : ℕ} : (s.readTelemetry src tag).mems = M := by
  unfold readTelemetry
  exact respond_mems h

theorem setTrayCap_mems (h : s.mems = M) {src tag watts window : ℕ} : (s.setTrayCap src tag watts window).mems = M := by
  unfold setTrayCap
  exact respond_mems (mems_with_power h)

theorem mbxCollect_mems (h : s.mems = M) {src kind a b tag : ℕ} : (s.mbxCollect src kind a b tag).mems = M := by
  unfold mbxCollect
  exact mems_with_mgmt h

theorem mbxRun_memOk (h : s.MemOk) {src : ℕ} : (s.mbxRun src).MemOk := by
  unfold mbxRun
  exact memOk_ite (of_mems (respond_mems rfl) h) (memOk_ite (of_mems (respond_mems rfl) h) (memOk_ite (of_mems (respond_mems rfl) h)
    (memOk_ite (of_mems (getStatus_mems rfl) h) (memOk_ite (of_mems (setTrayCap_mems rfl) h) (memOk_ite (of_mems (readTelemetry_mems
    rfl) h) (memOk_ite (of_mems (mbxCollect_mems rfl) h) (memOk_ite (fwData_memOk h) (memOk_ite (fwEnd_memOk h) (memOk_ite (of_mems
    (mbxCollect_mems rfl) h) (of_mems (mbxCollect_mems rfl) h))))))))))

theorem mbxGo_memOk (h : s.MemOk) {src : ℕ} : (s.mbxGo src).MemOk := by
  unfold mbxGo
  refine memOk_ite h ?_
  exact
    have h1 := of_mems (mbxFlags_mems rfl) h
    memOk_ite (mbxRun_memOk h1) (of_mems (respond_mems rfl) h1)

theorem mbxRow_memOk (h : s.MemOk) {src op : ℕ} {tag : Word} {payload : Bytes} : (s.mbxRow src op tag payload).MemOk := by
  unfold mbxRow
  exact memOk_ite h (mbxGo_memOk (of_mems (mbxPut_mems rfl) h))

theorem putAlarm_mems (h : s.mems = M) {v : ℕ} : (s.putAlarm v).mems = M := by
  unfold putAlarm
  exact alertPin_mems (wr_mems (mems_with_mgmt h))

theorem modePending_mems (h : s.mems = M) : s.modePending.mems = M := by
  unfold modePending
  exact set_mems h

theorem modeEffects_memOk (h : s.MemOk) {c : ℕ} : (s.modeEffects c).MemOk := by
  unfold modeEffects
  exact
    have h1 := memOk_ite (of_mems (transDrop_mems rfl) h) h
    have h2 := memOk_ite (schedModeChange_memOk h1) h1
    have h3 := memOk_ite (runLevel_memOk h2) h2
    have h4 := memOk_ite (of_mems (stragglerState_mems rfl) h3) h3
    memOk_ite (
      have h5 := of_mems (mems_with_routes rfl) h4
      memOk_ite h5 (of_mems (advertise_mems rfl) (memOk_foldl (fun _ _ h => of_mems (learn_mems rfl) h) h5))) h4

theorem epochModes_memOk (h : s.MemOk) : s.epochModes.MemOk := by
  unfold epochModes
  exact memOk_ite h (of_mems (bump_mems rfl) (of_mems (event0_mems rfl) (modeEffects_memOk (of_mems (modePending_mems (set_mems
    rfl)) h))))

theorem hasWork_mems (h : s.mems = M) {kind idx : ℕ} : (s.hasWork kind idx).2.mems = M := by
  unfold hasWork
  exact mems_ite_snd h (mems_ite_snd h (mems_ite_snd (draw_mems h) h))

theorem beaconEpoch_mems (h : s.mems = M) {kind idx : ℕ} : (s.beaconEpoch kind idx).mems = M := by
  unfold beaconEpoch
  exact mems_with_beacons (hasWork_mems h)

theorem epochBeacons_mems (h : s.mems = M) : s.epochBeacons.mems = M := by
  unfold epochBeacons
  exact mems_foldl (fun _ _ h => mems_foldl (fun _ _ h => beaconEpoch_mems h) h) h

theorem serveOne_memOk (h : s.MemOk) {r : Collected} : (s.serveOne r).MemOk := by
  unfold serveOne
  exact memOk_ite (rebindStart_memOk (of_mems (mems_with_mgmt rfl) h)) (memOk_ite (serveRetire_memOk h) (memOk_ite (memOk_ite (of_mems
    (respond_mems (retireClear_mems rfl)) h) (of_mems (respond_mems rfl) h)) (memOk_ite (serveReset_memOk (memOk_ite (of_mems
    (respond_mems rfl) h) h)) (fwBegin_memOk h))))

theorem serveCollected_memOk (h : s.MemOk) : s.serveCollected.MemOk := by
  unfold serveCollected
  exact memOk_foldl (fun _ _ h => memOk_ite (serveOne_memOk h) h) (of_mems (mems_with_mgmt rfl) h)

theorem rebalOffer_memOk (h : s.MemOk) {p : ℕ} : (s.rebalOffer p).MemOk := by
  unfold rebalOffer
  refine memOk_ite h ?_
  split
  · exact h
  · exact memOk_ite (rebindStart_memOk (of_mems (set_mems (set_mems (set_mems rfl))) h)) h

theorem epochOffers_memOk (h : s.MemOk) : s.epochOffers.MemOk := by
  unfold epochOffers
  exact
    have h1 := of_mems (mems_with_mgmt rfl) h
    memOk_ite h1 (memOk_foldl (fun _ _ h => rebalOffer_memOk h) h1)

theorem epochStep_memOk (h : s.MemOk) {n : ℕ} : (s.epochStep n).MemOk := by
  unfold epochStep
  exact memOk_ite (memOk_foldl (fun _ _ h => of_mems (epochTower_mems rfl) h) (of_mems (epochMeasure_mems (epochBeacons_mems rfl)) h))
    (memOk_ite (serveCollected_memOk h) (memOk_ite (of_mems (epochProfile_mems rfl) (epochModes_memOk h)) (memOk_ite (of_mems
    (epochSteady_mems (epochAllow_mems rfl)) h) (memOk_ite (of_mems (epochAllow_mems (epochFilling_mems (epochStragglers_mems
    (epochGuard_mems (epochThermal_mems rfl))))) h) (memOk_ite (epochOffers_memOk h) (memOk_ite (of_mems (mems_with_mgmt rfl) h) h))))))

theorem stagesOn_mems (h : s.mems = M) {mv : ℕ} {train : TrainIn} : (s.stagesOn mv train).mems = M := by
  unfold stagesOn
  exact
    have h1 := mems_with_pins h
    mems_ite h1 (
      have h2 := mems_with_pins h1
      mems_ite (bringUp_mems h2) h2)

theorem pciReset_mems (h : s.mems = M) : s.pciReset.mems = M := by
  unfold pciReset
  exact mems_with_regs_xreq_atsOn_inval_vecs_sec_pins (capTouch_mems h)

theorem clocksOn_mems (h : s.mems = M) : s.clocksOn.mems = M := by
  unfold clocksOn
  exact mems_ite (clocks_mems h) h

theorem bar2Check_mems (h : s.mems = M) {l : List (ℕ × ℕ)} {read : Bool} : (s.bar2Check l read).2.mems = M := by
  unfold bar2Check
  refine mems_ite_snd (bump_mems h) ?_
  refine mems_ite_snd (mems_ite (bump_mems (bump_mems h)) (bump_mems h)) ?_
  split
  · exact bump_mems (bump_mems h)
  · exact mems_ite_snd (bump_mems h) h

theorem bar2Lines_memOk (h : s.MemOk) {l : List (ℕ × ℕ)} : (s.bar2Lines l).1.MemOk := by
  induction l generalizing s with
  | nil => exact h
  | cons x l ih =>
    unfold bar2Lines
    split
    · exact h
    · split
      next t _ e =>
        have ht : t.MemOk := memOk_of_eq e (memOk_ite_fst (lineRead_memOk h) (lineShort_memOk h))
        split
        next e1 =>
          have h1 := memOk_of_eq e1 (ih (of_mems (beat_mems rfl) ht))
          split
          · exact h1
          · exact h1

theorem dbgBlock_mems (h : s.mems = M) : s.dbgBlock.mems = M := by
  unfold dbgBlock
  exact bump_mems h

theorem haltResult_mems (h : s.mems = M) {i n : ℕ} : (s.haltResult i n).mems = M := by
  unfold haltResult
  exact mark_mems (set_mems h)

theorem islandHalt_mems (h : s.mems = M) {i : ℕ} : (s.islandHalt i).mems = M := by
  unfold islandHalt
  exact mems_ite (haltResult_mems h) (mems_ite (haltResult_mems h) (mems_ite (dbgBlock_mems (haltResult_mems h)) (haltResult_mems
    (mems_ite h (mems_with_halted h)))))

theorem restart_mems (h : s.mems = M) {i : ℕ} : (s.restart i).mems = M := by
  unfold restart
  refine mems_ite h ?_
  exact
    have h1 := mems_with_halted h
    mems_ite (clock_mems (mems_with_power h1)) h1

theorem islandResume_mems (h : s.mems = M) {i : ℕ} : (s.islandResume i).mems = M := by
  unfold islandResume
  exact haltResult_mems (restart_mems h)

theorem testMode_mems (h : s.mems = M) {on : Bool} : (s.testMode on).mems = M := by
  unfold testMode
  exact reglMode_mems (mark_mems (mark_mems (mems_ite h (mems_foldl (fun _ _ h => restart_mems h) h))))

theorem dbgPut_memOk (h : s.MemOk) {i unit space word v : ℕ} : (s.dbgPut i unit space word v).MemOk := by
  have hu {k : ℕ} {f : CellSt → CellSt} : (s.updCell k f).MemOk := of_mems (updCell_mems rfl) h
  unfold dbgPut
  exact memOk_ite (memOk_with_spad h (Memory.wf_write (wf_spad h) _ _)) (memOk_ite hu (memOk_ite hu (memOk_ite hu
    (memOk_ite (memOk_with_share h (Memory.wf_write (wf_share h) _ _)) (of_mems (setBufs_mems rfl) h)))))

theorem dbgReadReq_mems (h : s.mems = M) : s.dbgReadReq.mems = M := by
  unfold dbgReadReq
  extract_lets i r s1
  have h1 : s1.mems = M := set_mems (set_mems (set_mems h))
  clear_value s1 r
  cases r with
  | range => exact set_mems h1
  | blocked => exact dbgBlock_mems (wr_mems (set_mems h1))
  | word v => exact wr_mems h1

theorem dbgWriteReq_memOk (h : s.MemOk) : s.dbgWriteReq.MemOk := by
  unfold dbgWriteReq
  extract_lets i u sp w r s1
  have h1 : s1.MemOk := of_mems (set_mems (set_mems (set_mems rfl))) h
  clear_value s1 r
  cases r with
  | range => exact of_mems (set_mems rfl) h1
  | blocked => exact of_mems (dbgBlock_mems (set_mems rfl)) h1
  | word v => exact memOk_ite (of_mems (set_mems rfl) h1) (dbgPut_memOk h1)

theorem portMem_memOk (h : s.MemOk) {write : Bool} {word v : ℕ} : (s.portMem write word v).MemOk := by
  unfold portMem
  refine memOk_ite (of_mems (emit_mems rfl) h) ?_
  refine memOk_ite (of_mems (emit_mems (dbgBlock_mems rfl)) h) ?_
  split
  · exact of_mems (emit_mems rfl) h
  · refine memOk_ite (of_mems (emit_mems rfl) (lineModify_memOk h)) ?_
    split
    next t _ e =>
      exact of_mems (emit_mems rfl) (memOk_of_eq e (lineShort_memOk h))
    next t _ e =>
      exact of_mems (emit_mems rfl) (memOk_of_eq e (lineShort_memOk h))

theorem readOf_mems (h : s.mems = M) {fn off : ℕ} : (s.readOf fn off).1.mems = M := by
  unfold readOf
  refine mems_ite_fst h ?_
  split
  · exact h
  · split
    · exact h
    · exact mems_with_pairLatch h
    · split
      · exact mems_with_pairLatch h
      · exact h

theorem readCmd_mems (h : s.mems = M) {fn off : ℕ} : (s.readCmd fn off).mems = M := by
  unfold readCmd
  exact emit_mems (readOf_mems h)

theorem storeFields_mems (h : s.mems = M) {own : Bool} {r : Reg} {off v : ℕ} : (s.storeFields own r off v).mems = M := by
  unfold storeFields
  exact
    have h1 := wr_mems h
    mems_ite (mems_with_rwo h1) h1

theorem storeHalf_mems (h : s.mems = M) {own : Bool} {p : Pg} {o : ℕ} {r : Reg} {off v : ℕ} : (s.storeHalf own p o r off v).mems = M := by
  unfold storeHalf
  exact mems_ite (mems_ite (mems_with_segStage h) h) (storeFields_mems h)

theorem violate_mems (h : s.mems = M) {pg fn : ℕ} : (s.violate pg fn).mems = M := by
  unfold violate
  exact raise_mems (wr_mems (bump_mems (set_mems (bumpF_mems h))))

theorem bumpSeq_mems (h : s.mems = M) {pg : ℕ} : (s.bumpSeq pg).mems = M := by
  unfold bumpSeq
  exact wr_mems h

theorem evqFnSet_mems (h : s.mems = M) {v : ℕ} : (s.evqFnSet v).1.mems = M := by
  unfold evqFnSet
  exact mems_ite_fst (badAccess_mems h) (mems_with_evqFn h)

theorem evqCtlSet_mems (h : s.mems = M) {e v : ℕ} : (s.evqCtlSet e v).1.mems = M := by
  unfold evqCtlSet
  exact mems_ite_fst (badAccess_mems h) (wr_mems h)

theorem evqMirrorSet_mems (h : s.mems = M) {x v : ℕ} : (s.evqMirrorSet x v).1.mems = M := by
  unfold evqMirrorSet
  exact mems_ite_fst (badAccess_mems h) (evqHead_mems h)

theorem queCtlSet_mems (h : s.mems = M) {q v : ℕ} : (s.queCtlSet q v).1.mems = M := by
  unfold queCtlSet
  refine mems_ite_fst (badAccess_mems h) ?_
  exact
    have h1 := wr_mems h
    have h2 := mems_ite (mems_ite h1 (queueEnable_mems h1)) (mems_ite (queueDisable_mems h1) h1)
    have h3 := mems_ite (queueRestart_mems h2) h2
    mems_ite (clearLatch_mems h3) h3

theorem fenCtlSet_mems (h : s.mems = M) {f v : ℕ} : (s.fenCtlSet f v).mems = M := by
  unfold fenCtlSet
  exact
    have h2 := fenSettle_mems (mark_mems (mems_ite h (set_mems h)))
    mems_ite (fenceRearm_mems h2) h2

theorem ctxCtlSet_memOk (h : s.MemOk) {x v : ℕ} : (s.ctxCtlSet x v).MemOk := by
  unfold ctxCtlSet
  exact
    have h1 := of_mems (wr_mems rfl) h
    have h2 := memOk_ite (of_mems (contextActivate_mems rfl) h1) h1
    memOk_ite (contextTeardown_memOk h2) h2

theorem objCtlSet_memOk (h : s.MemOk) {x v : ℕ} : (s.objCtlSet x v).MemOk := by
  unfold objCtlSet
  exact
    have h1 := of_mems (set_mems rfl) h
    memOk_ite h1 (memOk_ite (of_mems (objectCreate_mems rfl) h1) (memOk_ite (of_mems (objectFree_mems rfl) h1) (memOk_ite
      (objectForceFree_memOk h1) h1)))

theorem segSet_mems (h : s.mems = M) {x o off v : ℕ} : (s.segSet x o off v).mems = M := by
  unfold segSet
  refine mems_ite ?_ (mems_with_segStage h)
  exact
    have h1 := mems_ite (segCancel_mems h) h
    mems_ite (segCommit_mems h1) h1

theorem spanCtlSet_mems (h : s.mems = M) {p l v : ℕ} : (s.spanCtlSet p l v).mems = M := by
  unfold spanCtlSet
  exact
    have h1 := mems_ite (set_mems h) h
    have h2 := mems_ite (spanSlotJoin_mems h1) h1
    mems_ite (spanSlotLeave_mems h2) h2

theorem spanTblSet_memOk (h : s.MemOk) {p v : ℕ} : (s.spanTblSet p v).MemOk := by
  unfold spanTblSet
  exact
    have h1 := of_mems (mems_with_spanTbl rfl) (of_mems (wr_mems rfl) h)
    memOk_ite (tableLine_memOk h1) h1

theorem partCtlSet_memOk (h : s.MemOk) {p v : ℕ} : (s.partCtlSet p v).MemOk := by
  unfold partCtlSet
  exact
    have h1 := memOk_ite (of_mems (partitionForm_mems rfl) h) h
    have h2 := memOk_ite (partitionActivate_memOk h1) h1
    memOk_ite (partitionDissolve_memOk h2) h2

theorem lnkCtlSet_mems (h : s.mems = M) {p v : ℕ} : (s.lnkCtlSet p v).mems = M := by
  unfold lnkCtlSet
  exact
    have h1 := wr_mems h
    have h2 := mems_ite (enableClear_mems h1) h1
    have h3 := mems_ite (linkRetrain_mems h2) h2
    mems_ite (rekeyStart_mems h3) h3

theorem approveSet_memOk (h : s.MemOk) {v : ℕ} : (s.approveSet v).MemOk := by
  unfold approveSet
  exact
    have h1 := of_mems (wr_mems rfl) h
    have h2 := memOk_ite (recoveryApprove_memOk h1) h1
    have h3 := memOk_ite (of_mems (recoveryHold_mems rfl) h2) h2
    memOk_ite (of_mems (recoveryRequest_mems rfl) h3) h3

theorem rcvSet_memOk (h : s.MemOk) {o v : ℕ} : ∀ t ∈ s.rcvSet o v, t.MemOk := by
  unfold rcvSet
  refine forall_mem_ite (forall_mem_some (approveSet_memOk h)) (forall_mem_ite (forall_mem_some ?_) (forall_mem_ite
    (forall_mem_some ?_) forall_mem_none))
  · exact of_mems (mems_ite (crumbClear_mems (set_mems rfl)) (set_mems rfl)) h
  · exact of_mems (mems_ite (retireRequest_mems (set_mems (set_mems rfl))) (set_mems (set_mems rfl))) h

theorem dbgSet_memOk (h : s.MemOk) {o v : ℕ} : ∀ t ∈ s.dbgSet o v, t.MemOk := by
  unfold dbgSet
  refine forall_mem_ite (forall_mem_some (of_mems (testMode_mems rfl) h)) (forall_mem_ite (forall_mem_some ?_) (forall_mem_ite
    (forall_mem_some ?_) forall_mem_none))
  · exact
      have h1 := mems_ite (islandHalt_mems (set_mems rfl)) (set_mems rfl)
      of_mems (mems_ite (islandResume_mems h1) h1) h
  · exact
      have h1 := of_mems (mems_ite (dbgReadReq_mems rfl) rfl) h
      memOk_ite (dbgWriteReq_memOk h1) h1

theorem dlogSet_mems (h : s.mems = M) {v : ℕ} : (s.dlogSet v).mems = M := by
  unfold dlogSet
  exact
    have h1 := mark_mems h
    have h2 := mems_ite h1 (mems_with_dlogWords h1)
    have h3 := mems_ite (set_mems h2) h2
    mems_ite (hostDlogFlip_mems h3) h3

theorem partSet_memOk (h : s.MemOk) {p o v : ℕ} : ∀ r ∈ s.partSet p o v, r.1.MemOk := by
  unfold partSet
  refine forall_mem_ite (forall_mem_some (partCtlSet_memOk h)) (forall_mem_ite (forall_mem_some (rebindCtlWrite_memOk h))
    (forall_mem_ite (forall_mem_some (of_mems (rangeRegWrite_mems rfl) h)) (forall_mem_ite (forall_mem_some (fnCtlWrite_memOk h))
      (forall_mem_ite (forall_mem_some (handleMapWrite_memOk h)) (forall_mem_ite (forall_mem_some (of_mems (spanCtlSet_mems rfl) h))
        (forall_mem_ite (forall_mem_some (spanTblSet_memOk h)) (forall_mem_ite (forall_mem_some (rtMaskWrite_memOk h))
          (forall_mem_ite (forall_mem_some (of_mems ?_ h)) (forall_mem_ite (forall_mem_some (of_mems ?_ h)) forall_mem_none)))))))))
  · exact mems_ite (runListSwap_mems (mems_ite (set_mems rfl) rfl)) (mems_ite (set_mems rfl) rfl)
  · exact mems_ite (deviceDlogFlip_mems (mark_mems rfl)) (mark_mems rfl)

theorem secSet_memOk (h : s.MemOk) {o v : ℕ} : ∀ r ∈ s.secSet o v, r.1.MemOk := by
  unfold secSet
  exact forall_mem_ite (forall_mem_some (of_mems (secProtectSet_mems rfl) h)) (forall_mem_ite (forall_mem_some (of_mems (keyLockSet_mems rfl) h))
    (forall_mem_ite (forall_mem_some (keyUnlock_memOk h)) (forall_mem_ite (forall_mem_some (of_mems (kftWriteWord_mems rfl) h))
      (forall_mem_ite (forall_mem_some (of_mems (mems_ite (commitSvn_mems rfl) rfl) h)) forall_mem_none))))

theorem mapSet_mems (h : s.mems = M) {o off v : ℕ} : ∀ r ∈ s.mapSet o off v, r.1.mems = M := by
  unfold mapSet
  exact forall_mem_ite (forall_mem_some (setWrite_mems h)) (forall_mem_ite (forall_mem_some (regionWrite_mems h)) forall_mem_none)

theorem ownWrite_memOk (h : s.MemOk) {p : Pg} {i o off : ℕ} {r : Reg} {v : ℕ} : (s.ownWrite p i o off r v).1.MemOk := by
  unfold ownWrite
  extract_lets plain own act
  have hp : plain.MemOk := of_mems (storeFields_mems rfl) h
  have ho {x : Option (State × Bool)} (hx : ∀ r ∈ x, r.1.MemOk) : (own x).1.MemOk := getD_of_forall_mem hx hp
  have ha {x : Option State} (hx : ∀ t ∈ x, t.MemOk) : (act x).1.MemOk := getD_of_forall_mem hx hp
  clear_value own act
  refine memOk_ite_fst h (memOk_ite_fst (of_mems (pageError_mems rfl) hp) ?_)
  cases p with
  | glb => exact ho (forall_mem_ite (forall_mem_some (of_mems (evqFnSet_mems rfl) h)) forall_mem_none)
  | map => exact ho (fun r hr => of_mems (mapSet_mems rfl r hr) h)
  | rcv => exact ha (rcvSet_memOk h)
  | dbg => exact ha (dbgSet_memOk h)
  | pci => exact ha (forall_mem_ite (forall_mem_some (of_mems (dlogSet_mems rfl) h)) forall_mem_none)
  | isl => exact ha (forall_mem_ite (forall_mem_some (of_mems (clock_mems rfl) hp)) forall_mem_none)
  | memc => exact ha (forall_mem_ite (forall_mem_some (of_mems (mems_ite (sweepStart_mems rfl) rfl) hp)) forall_mem_none)
  | lnk => exact ha (forall_mem_ite (forall_mem_some (of_mems (lnkCtlSet_mems rfl) h)) forall_mem_none)
  | rte => exact ha (forall_mem_ite (forall_mem_some (of_mems (selfSet_mems rfl) h)) (forall_mem_ite (forall_mem_some (of_mems
    (rteWrite_mems rfl) h)) forall_mem_none))
  | part => exact ho (forall_mem_ite (forall_mem_some (schedule_memOk hp)) (partSet_memOk h))
  | rgl1 => exact ha (forall_mem_ite (forall_mem_some (of_mems (counterSnapshot_mems rfl) h)) forall_mem_none)
  | pwr => exact ha (forall_mem_ite (forall_mem_some (of_mems (clocks_mems rfl) hp)) forall_mem_none)
  | sec => exact ho (secSet_memOk h)
  | key =>
    exact ho (forall_mem_ite (forall_mem_some (keyCtlWrite_memOk h))
      (forall_mem_ite (forall_mem_some (of_mems (ownerHashWrite_mems rfl) h)) forall_mem_none))
  | mgmt => exact ha (forall_mem_ite (forall_mem_some (memOk_ite (mbxGo_memOk hp) hp)) forall_mem_none)
  | splt => exact ha (forall_mem_ite (forall_mem_some (of_mems (modePending_mems rfl) hp)) forall_mem_none)
  | ctx =>
    exact memOk_ite_fst (of_mems (evqMirrorSet_mems rfl) h) (ha (forall_mem_ite (forall_mem_some (ctxCtlSet_memOk h))
      (forall_mem_ite (forall_mem_some (objCtlSet_memOk h)) (forall_mem_ite (forall_mem_some (of_mems (segSet_mems rfl) h))
        (forall_mem_ite (forall_mem_some (scheduleFor_memOk hp)) forall_mem_none)))))
  | que => exact memOk_ite_fst (of_mems (queCtlSet_mems rfl) h) (ha (forall_mem_ite (forall_mem_some (of_mems
    (doorbell_mems rfl) h)) forall_mem_none))
  | fen => exact ha (forall_mem_ite (forall_mem_some (of_mems (fenCtlSet_mems rfl) h)) forall_mem_none)
  | evq => exact memOk_ite_fst (of_mems (evqCtlSet_mems rfl) h) (ha (forall_mem_ite (forall_mem_some (of_mems (evqHead_mems rfl) h)) forall_mem_none))
  | core => exact hp
  | shst => exact hp
  | memt => exact hp
  | nap => exact hp
  | att => exact hp
  | rgl0 => exact hp
  | rglp => exact hp
  | thm => exact hp

theorem otherWrite_mems (h : s.mems = M) {fn : ℕ} {p : Pg} {i o off : ℕ} {r : Reg} {v : ℕ} : (s.otherWrite fn p i o off r v).mems = M := by
  unfold otherWrite
  exact
    have h1 := storeFields_mems h
    have h2 := mems_ite (pageError_mems h1) h1
    mems_ite (violate_mems h2) (bumpSeq_mems h2)

theorem oneWrite_memOk (h : s.MemOk) {fn : ℕ} {p : Pg} {i o off : ℕ} {r : Reg} {v : ℕ} : (s.oneWrite fn p i o off r v).MemOk := by
  unfold oneWrite
  exact memOk_ite (memOk_ite (of_mems (bumpSeq_mems rfl) (ownWrite_memOk h)) (ownWrite_memOk h)) (of_mems (otherWrite_mems rfl) h)

theorem pairWrite_mems (h : s.mems = M) {fn : ℕ} {p : Pg} {i off : ℕ} {rl rh : Reg} {lo : Option ℕ} {hi : ℕ} :
    (s.pairWrite fn p i off rl rh lo hi).mems = M := by
  unfold pairWrite
  refine mems_ite ?_ ?_
  · refine mems_ite ?_ h
    refine bumpSeq_mems ?_
    refine storeHalf_mems ?_
    split
    · exact storeHalf_mems h
    · exact h
  · refine mems_ite (violate_mems h) ?_
    refine bumpSeq_mems ?_
    refine storeHalf_mems ?_
    split
    · exact storeHalf_mems h
    · exact h

theorem pageTakes_mems (h : s.mems = M) {p : Pg} {i : ℕ} : (s.pageTakes p i).1.mems = M := by
  unfold pageTakes
  exact mems_ite_fst h (mems_ite_fst (badAccess_mems h) h)

theorem write4_memOk (h : s.MemOk) {fn off v : ℕ} : (s.write4 fn off v).MemOk := by
  unfold write4
  split
  · exact h
  · split
    · exact h
    · split
      next t _ e =>
        refine memOk_ite (memOk_of_eq e (of_mems (pageTakes_mems rfl) h)) ?_
        split
        · exact oneWrite_memOk (memOk_of_eq e (of_mems (pageTakes_mems rfl) h))
        · exact of_mems (mems_with_pairHeld rfl) (memOk_of_eq e (of_mems (pageTakes_mems rfl) h))
        · extract_lets
          split
          · exact memOk_of_eq e (of_mems (pageTakes_mems rfl) h)
          · exact of_mems (pairWrite_mems (mems_with_pairHeld rfl)) (memOk_of_eq e (of_mems (pageTakes_mems rfl) h))

theorem write8_memOk (h : s.MemOk) {fn off v : ℕ} : (s.write8 fn off v).MemOk := by
  unfold write8
  exact write4_memOk (write4_memOk h)

theorem badWrite_mems (h : s.mems = M) {fn : ℕ} {off : Option ℕ} : (s.badWrite fn off).mems = M := by
  unfold badWrite
  exact
    have h1 := bump_mems (emit_mems h)
    by
      extract_lets
      split
      · exact mems_ite (badAccess_mems h1) h1
      · exact h1

theorem hostWrite_memOk (h : s.MemOk) {fn off size v : ℕ} : (s.hostWrite fn off size v).MemOk := by
  unfold hostWrite
  refine memOk_ite ?_ ?_
  · split
    · exact write4_memOk h
    · exact h
  · refine memOk_ite ?_ (of_mems (badWrite_mems rfl) h)
    split
    · exact memOk_ite (write8_memOk h) (write4_memOk (write4_memOk h))
    · exact write4_memOk h
    · exact write4_memOk h
    · exact h

theorem rowWrite_memOk (h : s.MemOk) {fn : ℕ} {ok : Bool} {off : ℕ} {value : Word} : (s.rowWrite fn ok off value).MemOk := by
  unfold rowWrite
  refine memOk_onUnit ?_
  refine memOk_ite (write4_memOk h) ?_
  refine memOk_ite ?_ h
  split
  · exact memOk_ite (write4_memOk h) h
  · exact h

theorem handleWrite_memOk (h : s.MemOk) {fn kind t : ℕ} {ok : Bool} {off : ℕ} {value : Word} : (s.handleWrite fn kind t ok off value).MemOk := by
  unfold handleWrite
  exact memOk_onUnit (memOk_ite (write4_memOk h) h)

/-! ### The commands -/

theorem execNapLineRead_memOk (h : s.MemOk) {r : Req} : (execNapLineRead r s).MemOk := by
  unfold execNapLineRead
  exact memOk_onUnit (serve_memOk h (fun _ _ h => lineRead_memOk h))

theorem execNapLineWrite_memOk (h : s.MemOk) {r : Req} {data : Bytes} : (execNapLineWrite r data s).MemOk := by
  unfold execNapLineWrite
  exact memOk_onUnit (serve_memOk h (fun _ _ h => lineWrite_memOk h))

theorem execNapShortRead_memOk (h : s.MemOk) {r : Req} {size : ℕ} : (execNapShortRead r size s).MemOk := by
  unfold execNapShortRead
  exact memOk_onUnit (serveAligned_memOk h (fun _ _ h => lineShort_memOk h))

theorem execNapPartialWrite_memOk (h : s.MemOk) {r : Req} {data : Bytes} : (execNapPartialWrite r data s).MemOk := by
  unfold execNapPartialWrite
  exact memOk_onUnit (serve_memOk h (fun _ _ h => lineModify_memOk h))

theorem execAtomicAdd_memOk (h : s.MemOk) {r : Req} {wide ret : Bool} {operand : BitVec 64} : (execAtomicAdd r wide ret operand s).MemOk := by
  unfold execAtomicAdd
  exact memOk_onUnit (atomic_memOk h)

theorem execAtomicSmin_memOk (h : s.MemOk) {r : Req} {wide ret : Bool} {operand : BitVec 64} : (execAtomicSmin r wide ret operand s).MemOk := by
  unfold execAtomicSmin
  exact memOk_onUnit (atomic_memOk h)

theorem execAtomicSmax_memOk (h : s.MemOk) {r : Req} {wide ret : Bool} {operand : BitVec 64} : (execAtomicSmax r wide ret operand s).MemOk := by
  unfold execAtomicSmax
  exact memOk_onUnit (atomic_memOk h)

theorem execAtomicUmin_memOk (h : s.MemOk) {r : Req} {wide ret : Bool} {operand : BitVec 64} : (execAtomicUmin r wide ret operand s).MemOk := by
  unfold execAtomicUmin
  exact memOk_onUnit (atomic_memOk h)

theorem execAtomicUmax_memOk (h : s.MemOk) {r : Req} {wide ret : Bool} {operand : BitVec 64} : (execAtomicUmax r wide ret operand s).MemOk := by
  unfold execAtomicUmax
  exact memOk_onUnit (atomic_memOk h)

theorem execAtomicSwap_memOk (h : s.MemOk) {r : Req} {wide : Bool} {operand : BitVec 64} : (execAtomicSwap r wide operand s).MemOk := by
  unfold execAtomicSwap
  exact memOk_onUnit (atomic_memOk h)

theorem execAtomicCas_memOk (h : s.MemOk) {r : Req} {wide : Bool} {operand comparand : BitVec 64} :
    (execAtomicCas r wide operand comparand s).MemOk := by
  unfold execAtomicCas
  exact memOk_onUnit (atomic_memOk h)

theorem execXadd_memOk (h : s.MemOk) {r : Req} {acc : BitVec 320} {spec : BitVec 2} : (execXadd r acc spec s).MemOk := by
  unfold execXadd
  exact memOk_onUnit (serveAligned_memOk h (fun _ _ h => lineModify_memOk h))

theorem execDramBurstReceived_memOk (h : s.MemOk) {chan cl : ℕ} {errs : BurstErrors} {r : Req} : (execDramBurstReceived chan cl errs r s).MemOk := by
  unfold execDramBurstReceived
  refine memOk_onUnit ?_
  refine memOk_ite h ?_
  refine memOk_ite (of_mems (deliver_mems (uncorrected_mems rfl)) h) ?_
  split
  · exact of_mems (deliver_mems (uncorrected_mems (setBad_mems rfl))) h
  · exact
      have h1 := of_mems (countCorr_mems rfl) h
      memOk_ite (of_mems (deliver_mems rfl) h1) (memOk_ite (of_mems (deliver_mems (tagFailed_mems rfl)) h1) (memOk_ite (of_mems
        (deliver_mems rfl) h1) (by
        split
        · exact of_mems (deliver_mems (uncorrected_mems (setBad_mems rfl))) h1
        · exact
            have h2 := of_mems (countCorr_mems rfl) h1
            memOk_ite (of_mems (deliver_mems (tagFailed_mems (setBad_mems rfl))) h2) (of_mems (deliver_mems (errCount_mems rfl)) h2))))

theorem execRefreshRow_memOk (h : s.MemOk) {tower : ℕ} : (execRefreshRow tower s).MemOk := by
  unfold execRefreshRow
  exact memOk_onUnit (of_mems (updTower_mems rfl) h)

theorem execPatrolScrubLine_memOk (h : s.MemOk) {chan : ℕ} {badLanes : List ℕ} : (execPatrolScrubLine chan badLanes s).MemOk := by
  unfold execPatrolScrubLine
  refine memOk_onUnit ?_
  refine memOk_ite h ?_
  exact
    have h1 := of_mems (updChan_mems rfl) h
    memOk_ite (of_mems (uncorrected_mems rfl) h1) (by
      split
      · exact of_mems (uncorrected_mems (setBad_mems rfl)) h1
      · exact
          have h2 := of_mems (countCorr_mems rfl) h1
          memOk_ite h2 (of_mems (bump_mems rfl) h2))

theorem execRepairSweepLine_memOk (h : s.MemOk) {chan : ℕ} : (execRepairSweepLine chan s).MemOk := by
  unfold execRepairSweepLine
  refine memOk_onUnit ?_
  extract_lets
  split
  · exact h
  · exact
      have h1 := memOk_ite (of_mems (uncorrected_mems rfl) h) (by
        split
        · exact of_mems (uncorrected_mems (setBad_mems rfl)) h
        · exact of_mems (countEras_mems rfl) h)
      memOk_ite (of_mems (updChan_mems rfl) h1) (of_mems (laneStat_mems (set_mems (set_mems rfl))) (of_mems (updChan_mems rfl) h1))

theorem execSegmentApplied_memOk (h : s.MemOk) {ctx seg : ℕ} : (execSegmentApplied ctx seg s).MemOk := by
  unfold execSegmentApplied
  refine memOk_onUnit ?_
  exact
    have h1 := of_mems (segSettle_mems rfl) h
    memOk_ite (of_mems (segDone_mems rfl) h1) h1

theorem execAtsTranslationCompletion_memOk (h : s.MemOk) {fn page pages bus : ℕ} {rd wr err : Bool} :
    (execAtsTranslationCompletion fn page pages bus rd wr err s).MemOk := by
  unfold execAtsTranslationCompletion
  refine memOk_onUnit ?_
  extract_lets
  split
  · exact h
  · exact
      have h1 := of_mems (mems_with_xreq rfl) h
      memOk_ite (of_mems (askMarked_mems (retransFailed_mems rfl)) h1) (of_mems (askMarked_mems (retransDone_mems rfl)) (of_mems
        (mapCmds_mems rfl) (of_mems (mems_with_trans rfl) (of_mems (retransLacks_mems rfl) h1))))

theorem execAtsTimeout_memOk (h : s.MemOk) {fn page : ℕ} : (execAtsTimeout fn page s).MemOk := by
  unfold execAtsTimeout
  refine memOk_onUnit ?_
  refine memOk_ite h ?_
  exact
    have h1 := of_mems (mems_with_xreq rfl) h
    memOk_ite (of_mems (askMarked_mems (retransFailed_mems rfl)) h1) (of_mems (mems_with_trans rfl) h1)

theorem execInvalidationRequest_memOk (h : s.MemOk) {fn page pages : ℕ} : (execInvalidationRequest fn page pages s).MemOk := by
  unfold execInvalidationRequest
  refine memOk_onUnit ?_
  exact
    have h1 := of_mems (mems_with_trans_inval rfl) h
    of_mems (askMarked_mems (mapCmds_mems rfl)) (memOk_ite (of_mems (bump_mems rfl) h1) h1)

theorem execInvalidationCompletion_memOk (h : s.MemOk) {fn : ℕ} : (execInvalidationCompletion fn s).MemOk := by
  unfold execInvalidationCompletion
  exact memOk_onUnit (memOk_ite h (of_mems (emit_mems rfl) (of_mems (mems_with_trans_inval rfl) h)))

theorem execAtsEnable_memOk (h : s.MemOk) {fn : ℕ} {on : Bool} : (execAtsEnable fn on s).MemOk := by
  unfold execAtsEnable
  exact memOk_onUnit (of_mems (mems_with_atsOn rfl) h)

theorem execHostDlogFlipDone_memOk (h : s.MemOk) {func : ℕ} : (execHostDlogFlipDone func s).MemOk := by
  unfold execHostDlogFlipDone
  exact memOk_onUnit (memOk_ite (of_mems (set_mems (set_mems (dlogFlush_mems rfl))) h) h)

theorem execDeviceDlogFlipDone_memOk (h : s.MemOk) {part : ℕ} : (execDeviceDlogFlipDone part s).MemOk := by
  unfold execDeviceDlogFlipDone
  exact memOk_onUnit (memOk_ite (of_mems (updPart_mems (set_mems rfl)) (of_mems (hostStore_mems rfl) h)) h)

theorem execMouldRelease_memOk (h : s.MemOk) {q seq : ℕ} : (execMouldRelease q seq s).MemOk := by
  unfold execMouldRelease
  refine memOk_onUnit ?_
  split
  · exact h
  · refine memOk_ite h ?_
    refine memOk_ite (of_mems (mouldRefuse_mems rfl) h) ?_
    exact
      have h1 := of_mems (updMould_mems rfl) h
      of_mems (cmdDone_mems rfl) (memOk_ite (of_mems (mouldSettle_mems (updMould_mems rfl)) h1) h1)

theorem execMouldRegistrationDone_memOk (h : s.MemOk) {part id : ℕ} : (execMouldRegistrationDone part id s).MemOk := by
  unfold execMouldRegistrationDone
  refine memOk_onUnit ?_
  refine memOk_ite h ?_
  refine memOk_foldl (fun _ _ h => mouldResume_memOk h) ?_
  refine of_mems (mems_with_mouldWait rfl) ?_
  split
  · exact
      have h1 := of_mems (updMould_mems rfl) h
      by
        extract_lets
        split
        · exact of_mems (mouldRefuse_mems rfl) h1
        · exact h1
  · exact of_mems (cmdDone_mems (updMould_mems rfl)) h

theorem execConfigLoad_memOk (h : s.MemOk) {slice q seq : ℕ} : (execConfigLoad slice q seq s).MemOk := by
  unfold execConfigLoad
  refine memOk_onUnit ?_
  split
  · exact h
  · exact memOk_ite h (of_mems (cfgValid_mems (updSlice_mems (unfillSlice_mems rfl))) h)

theorem execPhaseCombine_memOk (h : s.MemOk) {q seq : ℕ} : (execPhaseCombine q seq s).MemOk := by
  unfold execPhaseCombine
  refine memOk_onUnit ?_
  split
  · exact h
  · refine memOk_ite h ?_
    split
    · exact memOk_ite (of_mems (barrierDone_mems (sendBarrier_mems rfl)) h) (memOk_ite (of_mems (updCmd_mems rfl) (combine_memOk h))
        (memOk_ite h (of_mems (updCmd_mems rfl) (combine_memOk h))))
    · exact of_mems (updCmd_mems rfl) (combine_memOk h)

theorem execPhaseStart_memOk (h : s.MemOk) {q seq : ℕ} : (execPhaseStart q seq s).MemOk := by
  unfold execPhaseStart
  refine memOk_onUnit ?_
  split
  · exact h
  · refine memOk_ite h ?_
    refine memOk_ite (openPhase_memOk h) ?_
    split
    · exact of_mems (cmdDone_mems rfl) (memOk_foldl (fun _ _ h => of_mems (unfillSlice_mems rfl) h) h)
    · exact
        have h1 := of_mems (updCmd_mems rfl) h
        by
          extract_lets
          split
          · exact openPhase_memOk h1
          · exact h1

theorem execConfigLoadDone_memOk (h : s.MemOk) {slice : ℕ} {badWord : Bool} : (execConfigLoadDone slice badWord s).MemOk := by
  unfold execConfigLoadDone
  refine memOk_onUnit ?_
  extract_lets
  split
  · split
    · exact of_mems (updSlice_mems rfl) h
    · extract_lets
      split
      next t e =>
        refine of_mems (mouldRej_mems (cfgBad_mems rfl)) ?_
        refine memOk_of_eq e ?_
        refine memOk_ite_fst h ?_
        split
        · exact of_mems (cfgRead_mems rfl) h
        · exact h
      next t _ e =>
        refine of_mems (feed_mems rfl) ?_
        refine resFill_memOk ?_
        refine of_mems (cfgValid_mems (updSlice_mems rfl)) ?_
        refine of_mems (loadCells_mems rfl) ?_
        refine memOk_of_eq e ?_
        refine memOk_ite_fst h ?_
        split
        · exact of_mems (cfgRead_mems rfl) h
        · exact h
  · exact of_mems (updSlice_mems rfl) h
  · exact h

theorem execBoundaryReached_memOk (h : s.MemOk) {q seq : ℕ} : (execBoundaryReached q seq s).MemOk := by
  unfold execBoundaryReached
  refine memOk_onUnit ?_
  split
  · exact h
  · refine memOk_ite h ?_
    refine memOk_ite (scheduleFor_memOk (stopNow_memOk h)) ?_
    split
    next t e =>
      exact memOk_of_eq e (of_mems (rebindHears_mems rfl) h)
    next t e =>
      exact memOk_ite (preempted_memOk (memOk_of_eq e (of_mems (rebindHears_mems rfl) h))) (of_mems (feedCtx_mems rfl)
        (scheduleFor_memOk (of_mems (updCmd_mems rfl) (memOk_of_eq e (of_mems (rebindHears_mems rfl) h)))))

theorem execQuantumExpire_memOk (h : s.MemOk) {ctx : ℕ} : (execQuantumExpire ctx s).MemOk := by
  unfold execQuantumExpire
  exact memOk_onUnit (memOk_ite h (memOk_ite (preempted_memOk (of_mems (preempt_mems rfl) h)) (of_mems (updCtx_mems rfl) h)))

theorem execRunListReadDone_memOk (h : s.MemOk) {part : ℕ} {ok : Bool} {list : Bytes} : (execRunListReadDone part ok list s).MemOk := by
  unfold execRunListReadDone
  refine memOk_onUnit ?_
  refine memOk_ite h ?_
  exact
    have h1 := of_mems (set_mems rfl) h
    memOk_ite (of_mems (set_mems rfl) h1) (schedule_memOk (of_mems (set_mems rfl) (of_mems (updPart_mems rfl) h1)))

theorem execRunListEntryEnd_memOk (h : s.MemOk) {part entry : ℕ} : (execRunListEntryEnd part entry s).MemOk := by
  unfold execRunListEntryEnd
  exact memOk_onUnit (memOk_ite (schedule_memOk (preempted_memOk (endEntry_memOk h))) h)

theorem execDescriptorArrive_memOk (h : s.MemOk) {q : ℕ} {ok : Bool} {desc : Bytes} : (execDescriptorArrive q ok desc s).MemOk := by
  unfold execDescriptorArrive
  refine memOk_onUnit ?_
  refine memOk_ite h ?_
  refine memOk_ite (of_mems (queueHalt_mems rfl) h) ?_
  split
  next t e =>
    exact of_mems (queueHalt_mems rfl) (memOk_of_eq e (readRing_memOk h))
  next t _ e =>
    exact memOk_ite (of_mems (queueHalt_mems rfl) (memOk_of_eq e (readRing_memOk h))) (of_mems (mems_with_heads rfl) (memOk_of_eq e
      (readRing_memOk h)))

theorem execMsixHoldoffExpire_memOk (h : s.MemOk) {fn vector : ℕ} : (execMsixHoldoffExpire fn vector s).MemOk := by
  unfold execMsixHoldoffExpire
  refine memOk_onUnit ?_
  refine memOk_ite h ?_
  exact
    have h1 := of_mems (updVec_mems rfl) h
    memOk_ite (of_mems (message_mems rfl) h1) h1

theorem execMsixVectorUnmask_memOk (h : s.MemOk) {fn vector : ℕ} : (execMsixVectorUnmask fn vector s).MemOk := by
  unfold execMsixVectorUnmask
  refine memOk_onUnit ?_
  exact
    have h1 := of_mems (updVec_mems rfl) h
    memOk_ite (of_mems (message_mems rfl) h1) h1

theorem execCommandResolve_memOk (h : s.MemOk) {q seq : ℕ} : (execCommandResolve q seq s).MemOk := by
  unfold execCommandResolve
  refine memOk_onUnit ?_
  split
  · exact h
  · refine memOk_ite h ?_
    exact
      have h1 := memOk_ite h (writeRecord_memOk h)
      memOk_ite h1 (drainQue_memOk (finish_memOk h1))

theorem execContextQuiesced_memOk (h : s.MemOk) {ctx : ℕ} : (execContextQuiesced ctx s).MemOk := by
  unfold execContextQuiesced
  refine memOk_onUnit ?_
  exact
    have h1 := of_mems (tearAdvance_mems rfl) h
    memOk_ite h1 (schedule_memOk (of_mems (eventAll_mems rfl) (of_mems (schedStat_mems (set_mems (set_mems rfl))) (of_mems
      (mems_with_ctxs_sec rfl) (of_mems (transDrop_mems rfl) (memOk_foldl (fun _ _ h => of_mems (release_mems rfl) h) (of_mems
      (segsClear_mems rfl) h1)))))))

theorem execCommandAccept_memOk (h : s.MemOk) {q : ℕ} {args runs : Bytes} : (execCommandAccept q args runs s).MemOk := by
  unfold execCommandAccept
  refine memOk_onUnit ?_
  extract_lets
  split
  · exact h
  · refine memOk_ite h ?_
    refine memOk_ite (of_mems (set_mems rfl) h) ?_
    split
    · exact rangeFails_memOk h
    · split
      next t _ e =>
        exact refuseCmd_memOk (memOk_of_eq e (memOk_ite_fst (readArgs_memOk h) h))
      next t _ e =>
        refine memOk_ite (of_mems (set_mems rfl) (memOk_of_eq e (memOk_ite_fst (readArgs_memOk h) h))) ?_
        split
        · exact rangeFails_memOk (memOk_of_eq e (memOk_ite_fst (readArgs_memOk h) h))
        · extract_lets
          split
          · exact refuseCmd_memOk (memOk_ite (of_mems (mouldRej_mems rfl) (memOk_of_eq e (memOk_ite_fst (readArgs_memOk h) h)))
              (memOk_of_eq e (memOk_ite_fst (readArgs_memOk h) h)))
          · exact of_mems (takeCmd_mems rfl) (memOk_of_eq e (memOk_ite_fst (readArgs_memOk h) h))

theorem execHandshakeWordReceive_memOk (h : s.MemOk) {src dst : ℕ} {seq : BitVec 16} {word : BitVec 272} :
    (execHandshakeWordReceive src dst seq word s).MemOk := by
  unfold execHandshakeWordReceive
  exact memOk_onUnit (memOk_ite h (memOk_ite (of_mems (mems_with_hsFifo rfl) (of_mems (mems_with_hsSeq rfl) h)) (memOk_ite (of_mems
    (handshakeError_mems (mems_with_hsSeq rfl)) h) (of_mems (handshakeError_mems rfl) h))))

theorem execSeamWordReceive_memOk (h : s.MemOk) {dir line : ℕ} {seq : BitVec 16} {word : BitVec 256} {badWires q seqNo : ℕ} :
    (execSeamWordReceive dir line seq word badWires q seqNo s).MemOk := by
  unfold execSeamWordReceive
  refine memOk_onUnit ?_
  split
  · exact h
  · exact
      have h1 := memOk_ite (of_mems (mems_with_seamSeq rfl) h) h
      memOk_ite (of_mems (seamLoss_mems (mems_with_seamErr rfl)) h1) (
        have h2 := memOk_ite (of_mems (fault_mems (mems_with_seamErr rfl)) h1) h1
        memOk_ite (of_mems (mems_with_seamFifo rfl) h2) (of_mems (seamLoss_mems (countHs_mems rfl)) h2))

theorem execSupplyDroop_memOk (h : s.MemOk) {isl band cycles : ℕ} : (execSupplyDroop isl band cycles s).MemOk := by
  unfold execSupplyDroop
  refine memOk_onUnit ?_
  exact
    have h1 := memOk_ite (
      have h1 := of_mems (bump64_mems rfl) h
      have h2 := memOk_ite h1 (of_mems (bump64_mems rfl) h1)
      memOk_ite (of_mems (set_mems rfl) h2) h2) h
    of_mems (mems_with_droop rfl) (memOk_ite (of_mems (mems_with_power rfl) h1) h1)

theorem execTensorOp_memOk (h : s.MemOk) {core cell slot badProg badA badB badSide : ℕ} :
    (execTensorOp core cell slot badProg badA badB badSide s).MemOk := by
  unfold execTensorOp
  refine memOk_onUnit ?_
  refine memOk_ite ?_ h
  split
  next t e =>
    exact memOk_of_eq e (of_mems (wordsCheck_mems rfl) h)
  next t e =>
    exact tensorFire_memOk (of_mems (fireCount_mems rfl) (memOk_of_eq e (of_mems (wordsCheck_mems rfl) h)))

theorem execVectorOp_memOk (h : s.MemOk) {core cell slot badWord : ℕ} : (execVectorOp core cell slot badWord s).MemOk := by
  unfold execVectorOp
  refine memOk_onUnit ?_
  refine memOk_ite ?_ h
  split
  next t e =>
    exact memOk_of_eq e (of_mems (wordCheck_mems rfl) h)
  next t e =>
    exact vectorFire_memOk (memOk_of_eq e (of_mems (wordCheck_mems rfl) h))

theorem execMoverRequest_memOk (h : s.MemOk) {core cell slot : ℕ} : (execMoverRequest core cell slot s).MemOk := by
  unfold execMoverRequest
  refine memOk_onUnit (of_mems ?_ h)
  dsimp only
  split
  · rfl
  · refine mems_ite ?_ rfl
    split
    · exact portDrain_mems (updCell_mems (fires_mems (updCell_mems rfl)))
    · exact setMover_mems (fires_mems (updCell_mems rfl))

theorem execRoundEnd_memOk (h : s.MemOk) {core cell : ℕ} : (execRoundEnd core cell s).MemOk := by
  unfold execRoundEnd
  refine memOk_onUnit ?_
  exact
    have h1 := of_mems (controlOp_mems rfl) h
    memOk_ite (tileEnd_memOk (of_mems (islandEnd_mems rfl) h1)) h1

theorem execJump_memOk (h : s.MemOk) {core cell : ℕ} : (execJump core cell s).MemOk := by
  unfold execJump
  exact memOk_onUnit (of_mems (controlOp_mems rfl) h)

theorem execBranch_memOk (h : s.MemOk) {core cell : ℕ} : (execBranch core cell s).MemOk := by
  unfold execBranch
  exact memOk_onUnit (of_mems (controlOp_mems rfl) h)

theorem execRepeat_memOk (h : s.MemOk) {core cell : ℕ} : (execRepeat core cell s).MemOk := by
  unfold execRepeat
  exact memOk_onUnit (of_mems (controlOp_mems rfl) h)

theorem execRouterTokenForward_memOk (h : s.MemOk) {core cell port vc : ℕ} : (execRouterTokenForward core cell port vc s).MemOk := by
  unfold execRouterTokenForward
  refine memOk_onUnit ?_
  extract_lets
  split
  · exact h
  · exact memOk_ite h (memOk_ite (memOk_foldl (fun _ _ h => of_mems (portSend_mems rfl) h) (of_mems (updCell_mems rfl) h)) h)

theorem execSliceQuiescent_memOk (h : s.MemOk) {slice : ℕ} : (execSliceQuiescent slice s).MemOk := by
  unfold execSliceQuiescent
  exact memOk_onUnit (memOk_ite h (of_mems (setGates_mems (set_mems rfl)) (of_mems (setQuiet_mems rfl) h)))

theorem execShstReadRequest_memOk (h : s.MemOk) {core : ℕ} {r : LineRead} : (execShstReadRequest core r s).MemOk := by
  unfold execShstReadRequest
  refine memOk_onUnit (of_mems ?_ h)
  extract_lets slice stop
  have hs {t : State} {code id detail : ℕ} (ht : t.mems = s.mems) : (stop t code id detail).mems = s.mems := by
    unfold stop
    split
    · exact flushCmd_mems (breakCmd_mems ht)
    · exact ht
  clear_value stop
  refine mems_ite (mems_ite (storeRead_mems rfl) (hs (shareDrop_mems rfl))) (mems_ite (bump64_mems rfl) ?_)
  split
  · exact hs (xlatRej_mems rfl)
  · rfl
  · exact mems_ite (errCount_mems rfl) (storeRead_mems rfl)

theorem execShstLineArrive_memOk (h : s.MemOk) {core : ℕ} {line : LineAt} {key part : ℕ} : (execShstLineArrive core line key part s).MemOk := by
  unfold execShstLineArrive
  refine memOk_onUnit ?_
  extract_lets
  split
  · exact h
  · exact
      have h1 := of_mems (setMerge_mems (beat_mems rfl)) h
      have h2 := memOk_ite h1 (of_mems (updCore_mems rfl) h1)
      memOk_ite (by
        split
        next t e => exact memOk_foldl (fun _ _ h => deliverLine_memOk h) (memOk_of_eq e (of_mems (bankWord_mems rfl) h2))
        next t e =>
          exact memOk_foldl (fun _ _ h => of_mems (flushCmd_mems (breakCmd_mems rfl)) h) (memOk_of_eq e (of_mems (bankWord_mems rfl) h2))) (by
        split
        next t _ e => exact memOk_foldl (fun _ _ h => deliverLine_memOk h) (memOk_of_eq e (devRead_memOk h2))
        next t _ e =>
          exact memOk_foldl (fun _ _ h => of_mems (flushCmd_mems (breakCmd_mems rfl)) h) (memOk_of_eq e (devRead_memOk h2)))

theorem execLineIn_memOk (h : s.MemOk) {core mover : ℕ} : (execLineIn core mover s).MemOk := by
  unfold execLineIn
  refine memOk_onUnit ?_
  split
  · exact h
  · split
    next t e =>
      exact memOk_of_eq e (of_mems (moverAdmit_mems rfl) h)
    next t _ _ e =>
      refine memOk_ite (memOk_foldl (fun _ _ h => of_mems (storeRead_mems rfl) h) (of_mems (moverSent_mems rfl) (memOk_of_eq e (of_mems
        (moverAdmit_mems rfl) h)))) ?_
      refine memOk_ite (memOk_of_eq e (of_mems (moverAdmit_mems rfl) h)) ?_
      exact
        have h1 := of_mems (updCmd_mems (moverSent_mems (bump64_mems rfl))) (memOk_of_eq e (of_mems (moverAdmit_mems rfl) h))
        memOk_ite (of_mems (hostRangeRead_mems rfl) h1) (of_mems (remoteRead_mems rfl) h1)

theorem execLineOut_memOk (h : s.MemOk) {core : ℕ} {run : MoverRun} : (execLineOut core run s).MemOk := by
  unfold execLineOut
  refine memOk_onUnit ?_
  split
  · exact h
  · split
    next t e =>
      exact memOk_of_eq e (of_mems (moverAdmit_mems rfl) h)
    next t _ _ e =>
      exact memOk_ite (memOk_of_eq e (of_mems (moverAdmit_mems rfl) h)) (fromShare_memOk (memOk_of_eq e (of_mems (moverAdmit_mems
        rfl) h)) (fun _ _ h => of_mems (moverDone_mems rfl) (rangeWrite_memOk (memOk_ite (of_mems (closeMerge_mems rfl) h) h))))

theorem execSpread_memOk (h : s.MemOk) {core : ℕ} {run : MoverRun} : (execSpread core run s).MemOk := by
  unfold execSpread
  refine memOk_onUnit ?_
  split
  · exact h
  · split
    next t e =>
      exact memOk_of_eq e (of_mems (moverAdmit_mems rfl) h)
    next t _ e =>
      exact fromShare_memOk (memOk_of_eq e (of_mems (moverAdmit_mems rfl) h)) (fun _ _ h => of_mems (moverDone_mems rfl)
        (deliverLines_memOk h))

theorem execBcast_memOk (h : s.MemOk) {core : ℕ} {run : MoverRun} : (execBcast core run s).MemOk := by
  unfold execBcast
  refine memOk_onUnit ?_
  split
  · exact h
  · split
    next t e =>
      exact memOk_of_eq e (of_mems (moverAdmit_mems rfl) h)
    next t _ _ e =>
      exact fromShare_memOk (memOk_of_eq e (of_mems (moverAdmit_mems rfl) h)) (fun _ _ h => of_mems (moverDone_mems rfl) (memOk_foldl
        (fun _ _ h => memOk_foldl (fun _ _ h => deliverLines_memOk h) h) h))

theorem execGather_memOk (h : s.MemOk) {core : ℕ} {run : MoverRun} : (execGather core run s).MemOk := by
  unfold execGather
  refine memOk_onUnit ?_
  split
  · exact h
  · split
    next t e =>
      exact memOk_of_eq e (of_mems (moverAdmit_mems rfl) h)
    next t _ e =>
      split
      next t1 e1 =>
        exact of_mems (moverStop_mems rfl) (memOk_of_eq e1 (of_mems (padWord_mems rfl) (memOk_of_eq e (of_mems (moverAdmit_mems rfl) h))))
      next t1 e1 =>
        exact of_mems (moverDone_mems rfl) (shareWrite_memOk (of_mems (updCell_mems rfl) (memOk_of_eq e1 (of_mems (padWord_mems rfl)
          (memOk_of_eq e (of_mems (moverAdmit_mems rfl) h))))))

theorem execXcore_memOk (h : s.MemOk) {core : ℕ} {run : MoverRun} : (execXcore core run s).MemOk := by
  unfold execXcore
  refine memOk_onUnit ?_
  split
  · exact h
  · split
    next t e =>
      exact memOk_of_eq e (of_mems (moverAdmit_mems rfl) h)
    next t _ _ e =>
      exact memOk_ite (of_mems (moverStop_mems (shareDrop_mems rfl)) (memOk_of_eq e (of_mems (moverAdmit_mems rfl) h)))
        (fromShare_memOk (memOk_of_eq e (of_mems (moverAdmit_mems rfl) h)) (fun _ _ h => of_mems (moverDone_mems rfl)
        (shareWrite_memOk h)))

theorem execSave_memOk (h : s.MemOk) {core : ℕ} {run : MoverRun} : (execSave core run s).MemOk := by
  unfold execSave
  refine memOk_onUnit ?_
  split
  · exact h
  · exact of_mems (moverDone_mems rfl) (saveWrite_memOk (saveWrite_memOk (memOk_ite (memOk_ite_fst (of_mems (bankWord_mems rfl) h)
      (of_mems (padWord_mems rfl) h)) (saveLost_memOk (memOk_ite_fst (of_mems (bankWord_mems rfl) h) (of_mems (padWord_mems rfl) h))))))

theorem execRestore_memOk (h : s.MemOk) {core mover : ℕ} : (execRestore core mover s).MemOk := by
  unfold execRestore
  refine memOk_onUnit ?_
  split
  · exact h
  · dsimp only
    split
    next e => exact of_mems (moverDone_mems (restoreFail_mems rfl)) (memOk_of_eq e (saveRead_memOk h))
    next e =>
      exact of_mems (moverDone_mems rfl) (shareWrite_memOk (memOk_foldl
        (fun _ _ h => memOk_with_spad h (Memory.wf_write (wf_spad h) _ _)) (memOk_of_eq e (saveRead_memOk h))))

theorem execMoverCompletion_memOk (h : s.MemOk) {core mover : ℕ} : (execMoverCompletion core mover s).MemOk := by
  unfold execMoverCompletion
  refine memOk_onUnit ?_
  split
  · exact h
  · refine memOk_ite h ?_
    exact
      have h1 := of_mems (setMover_mems rfl) h
      memOk_ite (scheduleFor_memOk (of_mems (release_mems rfl) h1)) (memOk_ite (of_mems (feed_mems rfl) h1) (of_mems (moverRefill_mems
        (moverTell_mems rfl)) h1))

theorem execCommandStart_memOk (h : s.MemOk) {q seq : ℕ} : (execCommandStart q seq s).MemOk := by
  unfold execCommandStart
  refine memOk_onUnit ?_
  split
  · exact h
  · exact memOk_ite h (startCmd_memOk h)

theorem execNop_memOk (h : s.MemOk) {q seq : ℕ} : (execNop q seq s).MemOk := by
  unfold execNop
  exact memOk_onUnit (atWork_memOk h (fun _ => of_mems (cmdDone_mems rfl) h))

theorem execCompute_memOk (h : s.MemOk) {q seq : ℕ} : (execCompute q seq s).MemOk := by
  unfold execCompute
  refine memOk_onUnit ?_
  refine atWork_memOk h (fun _ => ?_)
  refine memOk_ite h ?_
  exact
    have h1 := of_mems (updCmd_mems rfl) h
    by
      extract_lets
      split
      · exact
          have h2 := memOk_ite (of_mems (checksHeld_mems (castColl_mems rfl)) h1) h1
          by
            extract_lets
            split
            · exact memOk_ite h2 (openPhase_memOk h2)
            · exact h2
      · exact openPhase_memOk h1

theorem execCopy_memOk (h : s.MemOk) {q seq : ℕ} : (execCopy q seq s).MemOk := by
  unfold execCopy
  refine memOk_onUnit ?_
  refine atWork_memOk h (fun _ => ?_)
  refine mover_memOk h (fun _ h => ?_)
  split
  next t e =>
    exact memOk_of_eq e (source_memOk h)
  next t _ e =>
    exact rangeWrite_memOk (memOk_of_eq e (source_memOk h))

theorem execHostReadCompletion_memOk (h : s.MemOk) {q seq status dst : ℕ} {data : Bytes} :
    (execHostReadCompletion q seq status dst data s).MemOk := by
  unfold execHostReadCompletion
  refine memOk_onUnit ?_
  split
  · exact memOk_ite (headHostFault_memOk h) h
  · exact memOk_ite h (memOk_ite (of_mems (flushCmd_mems (xlatBreak_mems rfl)) h) (arriveBytes_memOk h))

theorem execFill_memOk (h : s.MemOk) {q seq : ℕ} : (execFill q seq s).MemOk := by
  unfold execFill
  exact memOk_onUnit (atWork_memOk h (fun _ => mover_memOk h (fun _ h => rangeWrite_memOk h)))

theorem execConvert_memOk (h : s.MemOk) {q seq : ℕ} : (execConvert q seq s).MemOk := by
  unfold execConvert
  refine memOk_onUnit ?_
  refine atWork_memOk h (fun _ => ?_)
  split
  · refine mover_memOk h (fun _ h => ?_)
    split
    next t e =>
      exact memOk_of_eq e (source_memOk h)
    next t _ e =>
      split
      next t1 e1 =>
        exact memOk_of_eq e1 (memOk_ite_fst (source_memOk (memOk_of_eq e (source_memOk h))) (memOk_of_eq e (source_memOk h)))
      next t1 _ e1 =>
        exact
          have h1 := rangeWrite_memOk (memOk_of_eq e1 (memOk_ite_fst (source_memOk (memOk_of_eq e (source_memOk h))) (memOk_of_eq e
            (source_memOk h))))
          of_mems (updCmd_mems rfl) (memOk_ite (rangeWrite_memOk h1) h1)
  · exact h

theorem execWait_memOk (h : s.MemOk) {q seq : ℕ} : (execWait q seq s).MemOk := by
  unfold execWait
  refine memOk_onUnit ?_
  refine atWork_memOk h (fun _ => ?_)
  extract_lets
  split
  · exact of_mems (breakCmd_mems rfl) h
  · exact memOk_ite h (of_mems (cmdDone_mems rfl) h)

theorem execSignal_memOk (h : s.MemOk) {q seq : ℕ} : (execSignal q seq s).MemOk := by
  unfold execSignal
  refine memOk_onUnit ?_
  refine atWork_memOk h (fun _ => ?_)
  split
  · exact of_mems (cmdDone_mems rfl) h
  · exact memOk_ite (memOk_ite (of_mems (cmdDone_mems rfl) h) h) (of_mems (sendReq_mems (updCmd_mems rfl)) h)

theorem execMouldRegister_memOk (h : s.MemOk) {q seq : ℕ} : (execMouldRegister q seq s).MemOk := by
  unfold execMouldRegister
  refine memOk_onUnit ?_
  refine atWork_memOk h (fun _ => ?_)
  refine memOk_ite h ?_
  refine memOk_ite (of_mems (rangeAsk_mems (updCmd_mems rfl)) h) ?_
  refine memOk_ite h ?_
  split
  next t e =>
    exact memOk_of_eq e (source_memOk h)
  next t _ e =>
    exact mouldEnter_memOk (of_mems (updCmd_mems rfl) (memOk_of_eq e (source_memOk h)))

theorem execEvent_memOk (h : s.MemOk) {q seq : ℕ} : (execEvent q seq s).MemOk := by
  unfold execEvent
  exact memOk_onUnit (atWork_memOk h (fun _ => of_mems (cmdDone_mems (event_mems rfl)) h))

theorem execSliceGrow_memOk (h : s.MemOk) {part : ℕ} : (execSliceGrow part s).MemOk := by
  unfold execSliceGrow
  exact memOk_onUnit (memOk_ite h (memOk_ite (growDone_memOk h) (memOk_ite h (memOk_ite (memOk_ite h (rebindEnd_memOk h)) (memOk_ite
    (rebindEnd_memOk h) (schedule_memOk (growDone_memOk (of_mems (awaitAll_mems (rebindStep_mems rfl)) (of_mems (updRebind_mems rfl)
    (of_mems (setAllGates_mems (capTouch_mems (wr_mems rfl))) h))))))))))

theorem execSliceShrink_memOk (h : s.MemOk) {part : ℕ} : (execSliceShrink part s).MemOk := by
  unfold execSliceShrink
  exact memOk_onUnit (memOk_ite h (memOk_ite (memOk_ite (rebindEnd_memOk h) (of_mems (awaitAll_mems (rebindStep_mems rfl)) (memOk_foldl
    (fun _ _ h => of_mems (markLeaving_mems rfl) h) h))) (memOk_ite h (memOk_ite (of_mems (rebindStep_mems rfl) h) (memOk_ite
    (shrinkDone_memOk h) h)))))

theorem execChannelBind_memOk (h : s.MemOk) {part : ℕ} : (execChannelBind part s).MemOk := by
  unfold execChannelBind
  exact memOk_onUnit (memOk_ite h (memOk_ite (rebindEnd_memOk h) (rebindEnd_memOk (of_mems (chansSet_mems rfl) h))))

theorem execRebalance_memOk (h : s.MemOk) {part : ℕ} : (execRebalance part s).MemOk := by
  unfold execRebalance
  refine memOk_onUnit ?_
  refine memOk_ite h ?_
  split
  next t e =>
    exact rebindEnd_memOk (memOk_of_eq e (rebalNext_memOk h))
  next t e =>
    exact memOk_of_eq e (rebalNext_memOk h)

theorem execChannelRelease_memOk (h : s.MemOk) {part : ℕ} : (execChannelRelease part s).MemOk := by
  unfold execChannelRelease
  refine memOk_onUnit ?_
  refine memOk_ite h ?_
  refine memOk_ite ?_ ?_
  · split
    next t e =>
      exact chansLeave_memOk (of_mems (updRebind_mems (regionClear_mems rfl)) (memOk_of_eq e (rebalNext_memOk h)))
    next t e =>
      exact memOk_of_eq e (rebalNext_memOk h)
  · extract_lets
    split
    · exact chansLeave_memOk h
    · exact rebalNext_memOk (of_mems (updRebind_mems rfl) h)
    · exact rebindEnd_memOk h

theorem execPortBind_memOk (h : s.MemOk) {part : ℕ} : (execPortBind part s).MemOk := by
  unfold execPortBind
  refine memOk_onUnit ?_
  refine memOk_ite h ?_
  refine memOk_ite (rebindEnd_memOk h) ?_
  split
  · exact rebindEnd_memOk h
  · exact memOk_ite (rebindEnd_memOk h) (of_mems (rebindStep_mems (sendMgmt_mems (updLink_mems rfl))) h)

theorem execPortBindTimeout_memOk (h : s.MemOk) {part : ℕ} : (execPortBindTimeout part s).MemOk := by
  unfold execPortBindTimeout
  exact memOk_onUnit (memOk_ite (bindFails_memOk h) h)

theorem execPortUnbind_memOk (h : s.MemOk) {part : ℕ} : (execPortUnbind part s).MemOk := by
  unfold execPortUnbind
  exact memOk_onUnit (memOk_ite h (memOk_ite (rebindEnd_memOk h) (memOk_ite (rebindEnd_memOk h) (of_mems (rebindStep_mems rfl)
    (memOk_foldl (fun _ _ h => of_mems (updLink_mems (sendMgmt_mems rfl)) h) h)))))

theorem execPortUnbindDrainDone_memOk (h : s.MemOk) {port : ℕ} : (execPortUnbindDrainDone port s).MemOk := by
  unfold execPortUnbindDrainDone
  refine memOk_onUnit ?_
  refine memOk_ite h ?_
  exact
    have h1 := of_mems (unbindPort_mems rfl) h
    memOk_ite (rebindEnd_memOk h1) h1

theorem execPartnerLossTimeout_memOk (h : s.MemOk) {port : ℕ} : (execPartnerLossTimeout port s).MemOk := by
  unfold execPartnerLossTimeout
  exact memOk_onUnit (memOk_ite (of_mems (portLost_mems rfl) h) h)

theorem execRouteSwitch_memOk (h : s.MemOk) {dest : ℕ} : (execRouteSwitch dest s).MemOk := by
  unfold execRouteSwitch
  refine memOk_onUnit ?_
  refine memOk_ite h ?_
  exact
    have h1 := of_mems (setRoute_mems rfl) h
    have h3 := memOk_foldl (fun _ _ h => of_mems (issueHeld_mems rfl) h) (memOk_ite (of_mems (absent_mems rfl) h1) h1)
    memOk_ite (of_mems (learn_mems rfl) h3) h3

theorem execPortTrain_memOk (h : s.MemOk) {port : ℕ} {strong half : Bool} : (execPortTrain port strong half s).MemOk := by
  unfold execPortTrain
  exact memOk_onUnit (memOk_ite h (of_mems (sendState_mems (capTouch_mems rfl)) (of_mems (mark_mems rfl) (of_mems (mark_mems rfl)
    (of_mems (set_mems (updLink_mems rfl)) h)))))

theorem execTrainingFailure_memOk (h : s.MemOk) {port : ℕ} : (execTrainingFailure port s).MemOk := by
  unfold execTrainingFailure
  exact memOk_onUnit (of_mems (trainFails_mems rfl) h)

theorem execHoldDownExpire_memOk (h : s.MemOk) {port : ℕ} : (execHoldDownExpire port s).MemOk := by
  unfold execHoldDownExpire
  exact memOk_onUnit (memOk_ite (of_mems (set_mems (updLink_mems rfl)) h) h)

theorem execRouteAdvTimer_memOk (h : s.MemOk) : (execRouteAdvTimer s).MemOk := by
  unfold execRouteAdvTimer
  exact of_mems (advertise_mems rfl) h

theorem execRequestExpire_memOk (h : s.MemOk) {tag : ℕ} : (execRequestExpire tag s).MemOk := by
  unfold execRequestExpire
  refine memOk_onUnit ?_
  split
  · exact h
  · exact
      have h1 := of_mems (mems_with_reqs rfl) h
      memOk_ite h1 (of_mems (reqFails_mems rfl) h1)

theorem execSpanJoinTimeout_memOk (h : s.MemOk) {part slot : ℕ} : (execSpanJoinTimeout part slot s).MemOk := by
  unfold execSpanJoinTimeout
  exact memOk_onUnit (memOk_ite h (of_mems (slotIdle_mems rfl) h))

theorem execSpanLeaveComplete_memOk (h : s.MemOk) {part slot : ℕ} : (execSpanLeaveComplete part slot s).MemOk := by
  unfold execSpanLeaveComplete
  exact memOk_onUnit (memOk_ite h (of_mems (slotIdle_mems rfl) (memOk_foldl (fun _ _ h => of_mems (unbindPort_mems (sendMgmt_mems
    rfl)) h) (of_mems (castColl_mems rfl) h))))

theorem execRd_memOk (h : s.MemOk) {port : ℕ} {t : Txn} : (execRd port t s).MemOk := by
  unfold execRd
  exact arrive_memOk h (fun _ _ h => routed_memOk h (fun _ h => rdServe_memOk h))

theorem execWr_memOk (h : s.MemOk) {port : ℕ} {t : Txn} : (execWr port t s).MemOk := by
  unfold execWr
  exact arrive_memOk h (fun _ _ h => routed_memOk h (fun _ h => wrServe_memOk h))

theorem execAtom_memOk (h : s.MemOk) {port : ℕ} {t : Txn} : (execAtom port t s).MemOk := by
  unfold execAtom
  exact arrive_memOk h (fun _ _ h => routed_memOk h (fun _ h => atomServe_memOk h))

theorem execReduce_memOk (h : s.MemOk) {port : ℕ} {t : Txn} : (execReduce port t s).MemOk := by
  unfold execReduce
  exact arrive_memOk h (fun _ _ h => routed_memOk h (fun _ h => reduceServe_memOk h))

theorem execReduceSpc_memOk (h : s.MemOk) {port : ℕ} {t : Txn} : (execReduceSpc port t s).MemOk := by
  unfold execReduceSpc
  exact arrive_memOk h (fun _ _ h => routed_memOk h (fun _ h => reduceSpcServe_memOk h))

theorem execFenceSig_memOk (h : s.MemOk) {port : ℕ} {t : Txn} : (execFenceSig port t s).MemOk := by
  unfold execFenceSig
  exact arrive_memOk h (fun _ _ h => routed_memOk h (fun _ h => of_mems (fenceServe_mems rfl) h))

theorem execRsp_memOk (h : s.MemOk) {port : ℕ} {t : Txn} : (execRsp port t s).MemOk := by
  unfold execRsp
  exact arrive_memOk h (fun _ _ h => routed_memOk h (fun _ h => rspServe_memOk h))

theorem execBarrier_memOk (h : s.MemOk) {port : ℕ} {t : Txn} : (execBarrier port t s).MemOk := by
  unfold execBarrier
  exact arrive_memOk h (fun _ _ h => routed_memOk h (fun _ h => of_mems (barrierIn_mems rfl) h))

theorem execSpanJoin_memOk (h : s.MemOk) {port : ℕ} {t : Txn} : (execSpanJoin port t s).MemOk := by
  unfold execSpanJoin
  exact arrive_memOk h (fun _ _ h => routed_memOk h (fun _ h => of_mems (joinIn_mems rfl) h))

theorem execSpanAns_memOk (h : s.MemOk) {port : ℕ} {t : Txn} : (execSpanAns port t s).MemOk := by
  unfold execSpanAns
  exact arrive_memOk h (fun _ _ h => routed_memOk h (fun _ h => of_mems (ansIn_mems rfl) h))

theorem execSpanLeave_memOk (h : s.MemOk) {port : ℕ} {t : Txn} : (execSpanLeave port t s).MemOk := by
  unfold execSpanLeave
  exact arrive_memOk h (fun _ _ h => routed_memOk h (fun _ h => of_mems (leaveIn_mems rfl) h))

theorem execCmdCheck_memOk (h : s.MemOk) {port : ℕ} {t : Txn} : (execCmdCheck port t s).MemOk := by
  unfold execCmdCheck
  exact arrive_memOk h (fun _ _ h => routed_memOk h (fun _ h => of_mems (checkIn_mems rfl) h))

theorem execCmdRefuse_memOk (h : s.MemOk) {port : ℕ} {t : Txn} : (execCmdRefuse port t s).MemOk := by
  unfold execCmdRefuse
  exact arrive_memOk h (fun _ _ h => routed_memOk h (fun _ h => of_mems (refuseIn_mems rfl) h))

theorem execHeartbeat_memOk (h : s.MemOk) {port : ℕ} {t : Txn} : (execHeartbeat port t s).MemOk := by
  unfold execHeartbeat
  exact arrive_memOk h (fun _ _ h => of_mems (heartIn_mems rfl) h)

theorem execPartnerState_memOk (h : s.MemOk) {port : ℕ} {t : Txn} : (execPartnerState port t s).MemOk := by
  unfold execPartnerState
  exact arriveClear_memOk h (fun _ _ h => of_mems (stateIn_mems rfl) h)

theorem execBindReq_memOk (h : s.MemOk) {port : ℕ} {t : Txn} : (execBindReq port t s).MemOk := by
  unfold execBindReq
  exact arrive_memOk h (fun _ _ h => bindReqIn_memOk h)

theorem execBindAck_memOk (h : s.MemOk) {port : ℕ} {t : Txn} : (execBindAck port t s).MemOk := by
  unfold execBindAck
  exact arrive_memOk h (fun _ _ h => bindAckIn_memOk h)

theorem execBindRefuse_memOk (h : s.MemOk) {port : ℕ} {t : Txn} : (execBindRefuse port t s).MemOk := by
  unfold execBindRefuse
  exact arrive_memOk h (fun _ _ h => bindRefuseIn_memOk h)

theorem execUnbind_memOk (h : s.MemOk) {port : ℕ} {t : Txn} : (execUnbind port t s).MemOk := by
  unfold execUnbind
  exact arrive_memOk h (fun _ _ h => of_mems (unbindIn_mems rfl) h)

theorem execCert_memOk (h : s.MemOk) {port : ℕ} {t : Txn} : (execCert port t s).MemOk := by
  unfold execCert
  exact arriveClear_memOk h (fun _ _ h => of_mems (certIn_mems rfl) h)

theorem execKeyOffer_memOk (h : s.MemOk) {port : ℕ} {t : Txn} : (execKeyOffer port t s).MemOk := by
  unfold execKeyOffer
  exact arriveClear_memOk h (fun _ _ h => of_mems (offerIn_mems rfl) h)

theorem execKeyProof_memOk (h : s.MemOk) {port : ℕ} {t : Txn} : (execKeyProof port t s).MemOk := by
  unfold execKeyProof
  exact arriveClear_memOk h (fun _ _ h => of_mems (proofIn_mems rfl) h)

theorem execKeySwitch_memOk (h : s.MemOk) {port : ℕ} {t : Txn} : (execKeySwitch port t s).MemOk := by
  unfold execKeySwitch
  exact arrive_memOk h (fun _ _ h => of_mems (switchIn_mems rfl) h)

theorem execTrunkSync_memOk (h : s.MemOk) {port : ℕ} {t : Txn} : (execTrunkSync port t s).MemOk := by
  unfold execTrunkSync
  exact arrive_memOk h (fun _ _ h => of_mems (syncIn_mems rfl) h)

theorem execRouteAdv_memOk (h : s.MemOk) {port : ℕ} {t : Txn} : (execRouteAdv port t s).MemOk := by
  unfold execRouteAdv
  exact arrive_memOk h (fun _ _ h => of_mems (advIn_mems rfl) h)

theorem execLinkBlockSend_memOk (h : s.MemOk) {port : ℕ} {data : Bool} : (execLinkBlockSend port data s).MemOk := by
  unfold execLinkBlockSend
  refine memOk_onUnit ?_
  refine memOk_ite h ?_
  refine memOk_ite (of_mems (sendIdle_mems rfl) h) ?_
  refine memOk_ite h ?_
  refine memOk_ite (memOk_ite h (of_mems (sendData_mems (updLink_mems rfl)) h)) ?_
  refine memOk_ite h ?_
  exact
    have h1 := of_mems (sendKeyed_mems rfl) h
    memOk_ite (of_mems (rekeyStart_mems rfl) h1) h1

theorem execHeartbeatSend_memOk (h : s.MemOk) {port : ℕ} : (execHeartbeatSend port s).MemOk := by
  unfold execHeartbeatSend
  exact memOk_onUnit (memOk_ite h (memOk_ite (of_mems (sendIdle_mems rfl) h) (of_mems (updLink_mems (sendMgmt_mems rfl)) h)))

theorem execNakRepeat_memOk (h : s.MemOk) {port : ℕ} : (execNakRepeat port s).MemOk := by
  unfold execNakRepeat
  exact memOk_onUnit (memOk_ite (of_mems (sendIdle_mems (updLink_mems rfl)) h) h)

theorem execLinkBlockReceive_memOk (h : s.MemOk) {port : ℕ} {b : Block} : (execLinkBlockReceive port b s).MemOk := by
  unfold execLinkBlockReceive
  refine memOk_onUnit ?_
  refine memOk_ite h ?_
  refine memOk_ite (of_mems (nakStart_mems (errCount_mems rfl)) h) ?_
  exact
    have h1 := memOk_ite (of_mems (errCount_mems rfl) h) h
    memOk_ite (of_mems (nakStart_mems (errCount_mems rfl)) h1) (
      have h2 := of_mems (creditReturn_mems (acks_mems rfl)) h1
      have h4 := of_mems (rekeyDrained_mems rfl) (memOk_ite (of_mems (nakIn_mems rfl) h2) h2)
      memOk_ite h4 (memOk_ite (by
        split
        · exact memOk_ite (of_mems (heartIn_mems rfl) h4) h4
        · exact h4) (of_mems (dataIn_mems rfl) h4)))

theorem execRegulatorIssue_memOk (h : s.MemOk) {reg : ℕ} {waiting : List Waiting} : (execRegulatorIssue reg waiting s).MemOk := by
  unfold execRegulatorIssue
  refine memOk_onUnit ?_
  exact
    have h1 := of_mems (reglHold_mems rfl) h
    memOk_ite (by
      split
      · exact h1
      · exact of_mems (emit_mems (reglCount_mems rfl)) h1) (
      have h2 := of_mems (reglEarn_mems rfl) h1
      by
        extract_lets
        split
        · exact h2
        · exact of_mems (emit_mems (reglCount_mems (reglCharge_mems rfl))) h2)

theorem execPowerSample_memOk (h : s.MemOk) {mv deciA : ℕ} : (execPowerSample mv deciA s).MemOk := by
  unfold execPowerSample
  refine memOk_onUnit ?_
  refine memOk_ite h ?_
  exact
    have h2 := of_mems (mems_with_power rfl) (of_mems (set_mems (set_mems rfl)) h)
    of_mems (addEnergy_mems rfl) (of_mems (mems_with_power rfl) (memOk_ite (of_mems (sensorInput_mems rfl) h2) h2))

theorem execElecLimitActivate_memOk (h : s.MemOk) : (execElecLimitActivate s).MemOk := by
  unfold execElecLimitActivate
  exact memOk_ite h (of_mems (clocks_mems (set_mems rfl)) (of_mems (mems_with_power rfl) (memOk_ite h (of_mems (bump_mems rfl) h))))

theorem execElecLimitLift_memOk (h : s.MemOk) : (execElecLimitLift s).MemOk := by
  unfold execElecLimitLift
  exact memOk_ite h (of_mems (clocks_mems (set_mems (mems_with_power rfl))) h)

theorem execInputLow_memOk (h : s.MemOk) : (execInputLow s).MemOk := by
  unfold execInputLow
  exact memOk_ite h (of_mems (clocks_mems rfl) (of_mems (event0_mems (alarm_mems (set_mems rfl))) h))

theorem execInputLowClear_memOk (h : s.MemOk) : (execInputLowClear s).MemOk := by
  unfold execInputLowClear
  exact memOk_ite (of_mems (clocks_mems (set_mems rfl)) h) h

theorem execThermalSample_memOk (h : s.MemOk) {kind idx : ℕ} {temp : ℤ} : (execThermalSample kind idx temp s).MemOk := by
  unfold execThermalSample
  refine memOk_onUnit ?_
  refine memOk_ite h ?_
  exact
    have h1 := of_mems (takeTemp_mems rfl) h
    of_mems (judgeTemp_mems (hotRegs_mems rfl)) (of_mems (putTemp_mems rfl) (memOk_ite (of_mems (junctionFault_mems rfl) h1) h1))

theorem execTowerTempSample_memOk (h : s.MemOk) {tower : ℕ} {temps : List ℤ} : (execTowerTempSample tower temps s).MemOk := by
  unfold execTowerTempSample
  exact memOk_onUnit (memOk_ite h (of_mems (judgeTemp_mems rfl) (of_mems (mark_mems rfl) (of_mems (hotRegs_mems (takeTemp_mems
    (towerSample_mems rfl))) h))))

theorem execThermalTrip_memOk (h : s.MemOk) {kind idx : ℕ} : (execThermalTrip kind idx s).MemOk := by
  unfold execThermalTrip
  exact memOk_onUnit (memOk_ite h (of_mems (clocks_mems (goingDown_mems (set_mems (alarm_mems rfl)))) (of_mems (set_mems (set_mems
    (set_mems rfl))) (of_mems (mems_with_therm_pins rfl) h))))

theorem execHardThrottleLift_memOk (h : s.MemOk) {kind : ℕ} : (execHardThrottleLift kind s).MemOk := by
  unfold execHardThrottleLift
  exact memOk_onUnit (memOk_ite h (of_mems (clocks_mems (set_mems rfl)) h))

theorem execRefreshNormalReturn_memOk (h : s.MemOk) {tower : ℕ} : (execRefreshNormalReturn tower s).MemOk := by
  unfold execRefreshNormalReturn
  exact memOk_onUnit (memOk_ite h (of_mems (refreshMode_mems rfl) h))

theorem execPowerModelDivergence_memOk (h : s.MemOk) : (execPowerModelDivergence s).MemOk := by
  unfold execPowerModelDivergence
  exact memOk_ite h (of_mems (event0_mems rfl) (of_mems (bumpF_mems (alarm_mems (set_mems rfl))) h))

theorem execStragglerShift_memOk (h : s.MemOk) : (execStragglerShift s).MemOk := by
  unfold execStragglerShift
  exact memOk_ite (memOk_ite (of_mems (stragglerState_mems rfl) h) h) (memOk_ite (of_mems (stragglerState_mems rfl) h) h)

theorem execSpdmMessage_memOk (h : s.MemOk) {code stream : ℕ} : (execSpdmMessage code stream s).MemOk := by
  unfold execSpdmMessage
  refine memOk_onUnit ?_
  split
  · exact of_mems (emit_mems rfl) h
  · exact of_mems (emit_mems rfl) h
  · exact of_mems (emit_mems rfl) h
  · exact of_mems (emit_mems (setIde_mems rfl)) h
  · exact of_mems (emit_mems (setIde_mems rfl)) h

theorem execIdeIntegrityFail_memOk (h : s.MemOk) {stream : ℕ} : (execIdeIntegrityFail stream s).MemOk := by
  unfold execIdeIntegrityFail
  exact memOk_onUnit (memOk_ite h (memOk_foldl (fun _ _ h => tdiError_memOk h) (of_mems (securityAlarm_mems (setIde_mems rfl)) h)))

theorem execLockInterface_memOk (h : s.MemOk) {func : ℕ} : (execLockInterface func s).MemOk := by
  unfold execLockInterface
  exact memOk_onUnit (memOk_ite (of_mems (setTdi_mems rfl) h) h)

theorem execStartInterface_memOk (h : s.MemOk) {func : ℕ} : (execStartInterface func s).MemOk := by
  unfold execStartInterface
  exact memOk_onUnit (memOk_ite (of_mems (setTdi_mems rfl) h) h)

theorem execStopInterface_memOk (h : s.MemOk) {func : ℕ} : (execStopInterface func s).MemOk := by
  unfold execStopInterface
  exact memOk_onUnit (of_mems (setTdi_mems rfl) h)

theorem execFunctionLevelReset_memOk (h : s.MemOk) {func : ℕ} : (execFunctionLevelReset func s).MemOk := by
  unfold execFunctionLevelReset
  exact memOk_onUnit (memOk_ite (memOk_foldl (fun _ _ h => tdiError_memOk h) h) h)

theorem execAttestReport_memOk (h : s.MemOk) {version part : ℕ} {nonce : Bytes} : (execAttestReport version part nonce s).MemOk := by
  unfold execAttestReport
  exact memOk_ite (of_mems (emit_mems rfl) h) (memOk_ite (of_mems (emit_mems rfl) h) (of_mems (emit_mems (draw_mems rfl)) (of_mems
    (bump64_mems rfl) h)))

theorem execCertChainGet_memOk (h : s.MemOk) {sel : ℕ} : (execCertChainGet sel s).MemOk := by
  unfold execCertChainGet
  exact memOk_ite (of_mems (emit_mems rfl) h) (memOk_ite (of_mems (emit_mems rfl) h) (memOk_ite (of_mems (emit_mems rfl) h) (of_mems
    (emit_mems rfl) h)))

theorem execOwnerRetire_memOk (h : s.MemOk) {slot epoch : ℕ} {key sig : Bytes} : (execOwnerRetire slot epoch key sig s).MemOk := by
  unfold execOwnerRetire
  exact memOk_ite (of_mems (emit_mems rfl) h) (memOk_ite (of_mems (emit_mems rfl) h) (memOk_ite (of_mems (emit_mems (securityAlarm_mems
    rfl)) (keyRetire_memOk h)) (of_mems (emit_mems rfl) h)))

theorem execVendorDebugEnter_memOk (h : s.MemOk) {token : Bytes} : (execVendorDebugEnter token s).MemOk := by
  unfold execVendorDebugEnter
  refine memOk_ite h ?_
  exact
    have h1 := of_mems (mems_with_sec rfl) h
    memOk_ite h1 (of_mems (set_mems (wr_mems (wr_mems rfl))) (of_mems (mems_with_sec rfl) (of_mems (zeroiseAll_mems rfl) h1)))

theorem execTastingTurn_memOk (h : s.MemOk) {outcome : ℕ} : (execTastingTurn outcome s).MemOk := by
  unfold execTastingTurn
  refine memOk_onUnit ?_
  split
  · exact memOk_ite h (memOk_ite h (memOk_ite (memOk_ite h (memOk_ite (turnOver_memOk h) (turnOver_memOk (of_mems (forgetReqs_mems
      (holdCmd_mems rfl)) h)))) (memOk_ite (memOk_ite (guilty_memOk h) h) (memOk_ite h (turnOver_memOk h)))))
  · exact h

theorem execHangDetect_memOk (h : s.MemOk) {kind idx : ℕ} : (execHangDetect kind idx s).MemOk := by
  unfold execHangDetect
  exact memOk_onUnit (memOk_ite h (hung_memOk h))

theorem execRoundOverrun_memOk (h : s.MemOk) {slice : ℕ} : (execRoundOverrun slice s).MemOk := by
  unfold execRoundOverrun
  refine memOk_onUnit ?_
  split
  · exact h
  · exact memOk_ite h (hung_memOk h)

theorem execSpanWaitExpire_memOk (h : s.MemOk) {q seq : ℕ} : (execSpanWaitExpire q seq s).MemOk := by
  unfold execSpanWaitExpire
  refine memOk_onUnit ?_
  split
  · exact h
  · split
    · exact h
    · exact memOk_ite h (of_mems (tearAdvance_mems (breakCmd_mems (flushCmd_mems rfl))) h)

theorem execNpDeadlineExpire_memOk (h : s.MemOk) {q seq : ℕ} : (execNpDeadlineExpire q seq s).MemOk := by
  unfold execNpDeadlineExpire
  refine memOk_onUnit ?_
  split
  · exact h
  · refine memOk_ite h ?_
    exact
      have h1 := of_mems (bump_mems rfl) h
      memOk_ite (startLevel_memOk (of_mems (mems_with_rcv rfl) h1)) (overrun_memOk (takeCrumbs_memOk h1))

theorem execWatchdogExpire_memOk (h : s.MemOk) {proc : ℕ} : (execWatchdogExpire proc s).MemOk := by
  unfold execWatchdogExpire
  exact memOk_onUnit (memOk_ite h (startLevel_memOk (of_mems (alarm_mems rfl) h)))

theorem execEngineReset_memOk (h : s.MemOk) {kind idx : ℕ} : (execEngineReset kind idx s).MemOk := by
  unfold execEngineReset
  exact memOk_onUnit (memOk_ite h (memOk_ite (engineGoOn_memOk h) (memOk_ite (memOk_ite h (startLevel_memOk h)) (engineRun_memOk
    (takeCrumbs_memOk (memOk_ite h (startLevel_memOk h)))))))

theorem execPartitionReset_memOk (h : s.MemOk) {part : ℕ} : (execPartitionReset part s).MemOk := by
  unfold execPartitionReset
  refine memOk_onUnit ?_
  refine memOk_ite h ?_
  refine memOk_ite (memOk_ite (partitionGoOn_memOk h) h) ?_
  refine memOk_ite (memOk_ite h (startLevel_memOk h)) ?_
  exact
    have h1 := tasteStop_memOk h
    partitionRun_memOk (takeCrumbs_memOk (memOk_ite h1 (startLevel_memOk h1)))

theorem execPowerCycleRequest_memOk (h : s.MemOk) {cause : ℕ} : (execPowerCycleRequest cause s).MemOk := by
  unfold execPowerCycleRequest
  exact memOk_onUnit (powerCycle_memOk h)

theorem execDeviceLevelReset_memOk (h : s.MemOk) {cause : ℕ} {train : TrainIn} : (execDeviceLevelReset cause train s).MemOk := by
  unfold execDeviceLevelReset
  exact memOk_onUnit (memOk_ite h (memOk_ite (memOk_ite h (startLevel_memOk h)) (memOk_ite (powerCycle_memOk h) (of_mems (bringUp_mems
    rfl) (deviceDown_memOk h)))))

theorem execSliceRetire_memOk (h : s.MemOk) {slice reason : ℕ} : (execSliceRetire slice reason s).MemOk := by
  unfold execSliceRetire
  exact memOk_onUnit (memOk_ite h (retireSlice_memOk h))

theorem execChannelGroupRetire_memOk (h : s.MemOk) {group reason : ℕ} : (execChannelGroupRetire group reason s).MemOk := by
  unfold execChannelGroupRetire
  exact memOk_onUnit (memOk_ite h (retireGroup_memOk h))

theorem execPortRetire_memOk (h : s.MemOk) {port reason : ℕ} : (execPortRetire port reason s).MemOk := by
  unfold execPortRetire
  exact memOk_onUnit (memOk_ite h (retirePort_memOk h))

theorem execRetireThreshold_memOk (h : s.MemOk) {unit idx : ℕ} : (execRetireThreshold unit idx s).MemOk := by
  have hs {s : State} {k r : ℕ} (h : s.MemOk) : (if s.capState 1 k = 2 then s else s.retireSlice k r).MemOk := memOk_ite h (retireSlice_memOk h)
  have hg {s : State} {g r : ℕ} (h : s.MemOk) : (if s.capState 2 (2 * g) = 2 then s else s.retireGroup g r).MemOk := memOk_ite h (retireGroup_memOk h)
  unfold execRetireThreshold
  refine memOk_onUnit ?_
  extract_lets n kinds slice group
  replace hs {s : State} {k r : ℕ} (h : s.MemOk) : (slice s k r).MemOk := hs h
  replace hg {s : State} {g r : ℕ} (h : s.MemOk) : (group s g r).MemOk := hg h
  clear_value slice group
  refine memOk_ite (memOk_ite (hs h) h) (memOk_ite (memOk_ite (hs h) h) (memOk_ite (memOk_ite (hs h) h) (memOk_ite ?_ (memOk_ite ?_ (memOk_ite ?_
    (memOk_ite (memOk_ite (hg h) h) (memOk_ite (hg h) (memOk_ite (memOk_ite (hg h) h) (memOk_ite (memOk_ite (hg h) h)
      (memOk_ite ?_ ?_))))))))))
  · exact memOk_ite (memOk_foldl (fun _ _ h => hs h) h) h
  · exact memOk_ite (memOk_foldl (fun _ _ h => hg h) h) (memOk_ite (startLevel_memOk h) h)
  · split
    · exact of_mems (laneStarted_mems (sweepStart_mems rfl)) h
    · exact h
  · exact memOk_ite (of_mems (recordRetired_mems rfl) h) h
  · exact memOk_ite (retirePort_memOk h) h

theorem execFwSessionTimeout_memOk (h : s.MemOk) : (execFwSessionTimeout s).MemOk := by
  unfold execFwSessionTimeout
  split
  · exact h
  · exact of_mems (eraseStaged_mems rfl) (sessionEnd_memOk h)

theorem execGetStatus_memOk (h : s.MemOk) {src : ℕ} {tag : Word} : (execGetStatus src tag s).MemOk := by
  unfold execGetStatus
  exact memOk_onUnit (mbxRow_memOk h)

theorem execSetCap_memOk (h : s.MemOk) {src : ℕ} {tag : Word} {watts window : ℕ} : (execSetCap src tag watts window s).MemOk := by
  unfold execSetCap
  exact memOk_onUnit (mbxRow_memOk h)

theorem execReadTelemetry_memOk (h : s.MemOk) {src : ℕ} {tag : Word} : (execReadTelemetry src tag s).MemOk := by
  unfold execReadTelemetry
  exact memOk_onUnit (mbxRow_memOk h)

theorem execFwBegin_memOk (h : s.MemOk) {src : ℕ} {tag : Word} {stage size : ℕ} : (execFwBegin src tag stage size s).MemOk := by
  unfold execFwBegin
  exact memOk_onUnit (mbxRow_memOk h)

theorem execFwData_memOk (h : s.MemOk) {src : ℕ} {tag : Word} {off : ℕ} {data : Bytes} : (execFwData src tag off data s).MemOk := by
  unfold execFwData
  exact memOk_onUnit (mbxRow_memOk h)

theorem execFwEnd_memOk (h : s.MemOk) {src : ℕ} {tag : Word} : (execFwEnd src tag s).MemOk := by
  unfold execFwEnd
  exact memOk_onUnit (mbxRow_memOk h)

theorem execRetireClear_memOk (h : s.MemOk) {src : ℕ} {tag : Word} {type idx : ℕ} : (execRetireClear src tag type idx s).MemOk := by
  unfold execRetireClear
  exact memOk_onUnit (mbxRow_memOk h)

theorem execDeviceReset_memOk (h : s.MemOk) {src : ℕ} {tag : Word} : (execDeviceReset src tag s).MemOk := by
  unfold execDeviceReset
  exact memOk_onUnit (mbxRow_memOk h)

theorem execSbAlarmClear_memOk (h : s.MemOk) {value : Word} : (execSbAlarmClear value s).MemOk := by
  unfold execSbAlarmClear
  exact memOk_ite h (of_mems (putAlarm_mems rfl) h)

theorem execSbAlarmMaskWrite_memOk (h : s.MemOk) {value : Word} : (execSbAlarmMaskWrite value s).MemOk := by
  unfold execSbAlarmMaskWrite
  exact memOk_ite h (of_mems (alertPin_mems (mems_with_mgmt rfl)) h)

theorem execEpochBoundary_memOk (h : s.MemOk) {steps : ℕ} : (execEpochBoundary steps s).MemOk := by
  unfold execEpochBoundary
  refine memOk_onUnit ?_
  refine memOk_ite h ?_
  exact
    have h2 := of_mems (bump64_mems rfl) (of_mems (mems_with_mclk_mgmt rfl) h)
    memOk_foldl (fun _ _ h => memOk_ite (epochStep_memOk h) h) (memOk_ite (of_mems (bump_mems rfl) h2) h2)

theorem execModPwrEnAssert_memOk (h : s.MemOk) {mv : ℕ} {train : TrainIn} : (execModPwrEnAssert mv train s).MemOk := by
  unfold execModPwrEnAssert
  exact memOk_ite h (memOk_ite (of_mems (mems_with_pins rfl) h) (of_mems (stagesOn_mems rfl) h))

theorem execModPwrEnRemove_memOk (h : s.MemOk) : (execModPwrEnRemove s).MemOk := by
  unfold execModPwrEnRemove
  exact memOk_ite h (of_mems (mems_with_pins rfl) (powerLost_memOk h))

theorem execPwrOffTimeExpire_memOk (h : s.MemOk) {mv : ℕ} {train : TrainIn} : (execPwrOffTimeExpire mv train s).MemOk := by
  unfold execPwrOffTimeExpire
  exact
    have h1 := of_mems (mems_with_pins rfl) h
    memOk_ite (of_mems (stagesOn_mems rfl) h1) h1

theorem execStageStop_memOk (h : s.MemOk) {mv : ℕ} : (execStageStop mv s).MemOk := by
  unfold execStageStop
  exact memOk_ite h (of_mems (mems_with_pins rfl) (powerLost_memOk h))

theorem execRailFault_memOk (h : s.MemOk) : (execRailFault s).MemOk := by
  unfold execRailFault
  exact of_mems (mems_with_pins rfl) h

theorem execOscillatorStop_memOk (h : s.MemOk) : (execOscillatorStop s).MemOk := by
  unfold execOscillatorStop
  exact memOk_ite h (of_mems (mems_with_pins rfl) (dieReset_memOk h))

theorem execDevResetNAssert_memOk (h : s.MemOk) : (execDevResetNAssert s).MemOk := by
  unfold execDevResetNAssert
  exact
    have h1 := of_mems (mems_with_pins rfl) h
    memOk_ite (dieReset_memOk h1) h1

theorem execDevResetNRelease_memOk (h : s.MemOk) {train : TrainIn} : (execDevResetNRelease train s).MemOk := by
  unfold execDevResetNRelease
  refine memOk_ite h ?_
  exact
    have h1 := of_mems (mems_with_pins rfl) h
    memOk_ite (of_mems (bringUp_mems rfl) h1) h1

theorem execPerstNAssert_memOk (h : s.MemOk) : (execPerstNAssert s).MemOk := by
  unfold execPerstNAssert
  exact
    have h1 := of_mems (mems_with_pins rfl) h
    memOk_ite h1 (of_mems (pciReset_mems rfl) (memOk_ite (startLevel_memOk h1) h1))

theorem execPerstNRelease_memOk (h : s.MemOk) : (execPerstNRelease s).MemOk := by
  unfold execPerstNRelease
  exact of_mems (mems_with_pins rfl) h

theorem execPcieLinkUp_memOk (h : s.MemOk) {gen width : ℕ} : (execPcieLinkUp gen width s).MemOk := by
  unfold execPcieLinkUp
  exact memOk_onUnit (memOk_ite h (of_mems (capTouch_mems (mems_with_pins rfl)) (of_mems (set_mems (set_mems (set_mems rfl))) h)))

theorem execDevThrottleNAssert_memOk (h : s.MemOk) {usTenths : ℕ} {toggling : Bool} : (execDevThrottleNAssert usTenths toggling s).MemOk := by
  unfold execDevThrottleNAssert
  exact memOk_ite h (of_mems (clocksOn_mems (mems_with_pins rfl)) h)

theorem execDevThrottleNRelease_memOk (h : s.MemOk) : (execDevThrottleNRelease s).MemOk := by
  unfold execDevThrottleNRelease
  exact
    have h1 := of_mems (mems_with_pins rfl) h
    of_mems (clocksOn_mems rfl) (memOk_ite (of_mems (event0_mems (putAlarm_mems rfl)) h1) h1)

theorem execInputStuck_memOk (h : s.MemOk) : (execInputStuck s).MemOk := by
  unfold execInputStuck
  exact memOk_ite h (of_mems (event0_mems (alarm_mems (mems_with_pins rfl))) h)

theorem execBar2Read_memOk (h : s.MemOk) {off len : ℕ} : (execBar2Read off len s).MemOk := by
  unfold execBar2Read
  refine memOk_onUnit ?_
  extract_lets
  split
  next t e =>
    exact of_mems (emit_mems rfl) (memOk_of_eq_snd e (of_mems (bar2Check_mems rfl) h))
  next t e =>
    split
    next t1 _ e1 =>
      exact of_mems (emit_mems rfl) (memOk_of_eq e1 (bar2Lines_memOk (memOk_of_eq_snd e (of_mems (bar2Check_mems rfl) h))))
    next t1 e1 =>
      exact of_mems (emit_mems rfl) (memOk_of_eq e1 (bar2Lines_memOk (memOk_of_eq_snd e (of_mems (bar2Check_mems rfl) h))))

theorem execBar2Write_memOk (h : s.MemOk) {off : ℕ} {data : Bytes} : (execBar2Write off data s).MemOk := by
  unfold execBar2Write
  refine memOk_onUnit ?_
  extract_lets
  split
  next t e =>
    exact memOk_of_eq_snd e (of_mems (bar2Check_mems rfl) h)
  next t e =>
    refine memOk_foldl (fun _ _ h => ?_) (memOk_of_eq_snd e (of_mems (bar2Check_mems rfl) h))
    split
    · exact h
    · exact
        have h1 := of_mems (beat_mems rfl) h
        memOk_ite (lineWrite_memOk h1) (lineModify_memOk h1)

theorem execDebugAccessPort_memOk (h : s.MemOk) {write : Bool} {isl unit space word : ℕ} {value : Word} {close : Bool} :
    (execDebugAccessPort write isl unit space word value close s).MemOk := by
  unfold execDebugAccessPort
  refine memOk_ite h ?_
  exact
    have h1 := of_mems (mems_with_sec rfl) (of_mems (set_mems rfl) h)
    have h2 := memOk_ite (portMem_memOk h1) (by
      split
      · exact of_mems (emit_mems rfl) h1
      · exact of_mems (emit_mems (dbgBlock_mems rfl)) h1
      · exact memOk_ite (memOk_ite (of_mems (emit_mems rfl) (dbgPut_memOk h1)) (of_mems (emit_mems rfl) h1)) (of_mems (emit_mems rfl) h1))
    memOk_ite (of_mems (mems_with_sec rfl) (of_mems (set_mems rfl) h2)) h2

theorem execRegisterWrite_memOk (h : s.MemOk) {fn off size : ℕ} {value : BitVec 64} : (execRegisterWrite fn off size value s).MemOk := by
  unfold execRegisterWrite
  exact memOk_onUnit (hostWrite_memOk h)

theorem execPairLowRead_memOk (h : s.MemOk) {fn off : ℕ} : (execPairLowRead fn off s).MemOk := by
  unfold execPairLowRead
  exact memOk_onUnit (of_mems (readCmd_mems rfl) h)

theorem execPairHighRead_memOk (h : s.MemOk) {fn off : ℕ} : (execPairHighRead fn off s).MemOk := by
  unfold execPairHighRead
  exact memOk_onUnit (of_mems (readCmd_mems rfl) h)

theorem execPairLowWrite_memOk (h : s.MemOk) {fn off : ℕ} {value : Word} : (execPairLowWrite fn off value s).MemOk := by
  unfold execPairLowWrite
  exact memOk_onUnit (hostWrite_memOk h)

theorem execPairHighWrite_memOk (h : s.MemOk) {fn off : ℕ} {value : Word} : (execPairHighWrite fn off value s).MemOk := by
  unfold execPairHighWrite
  exact memOk_onUnit (hostWrite_memOk h)

theorem execRepairSweepStart_memOk (h : s.MemOk) {fn chan : ℕ} {value : Word} : (execRepairSweepStart fn chan value s).MemOk := by
  unfold execRepairSweepStart
  exact rowWrite_memOk h

theorem execRegionValidSet_memOk (h : s.MemOk) {fn region : ℕ} {value : Word} : (execRegionValidSet fn region value s).MemOk := by
  unfold execRegionValidSet
  exact rowWrite_memOk h

theorem execRegionValidClear_memOk (h : s.MemOk) {fn region : ℕ} {value : Word} : (execRegionValidClear fn region value s).MemOk := by
  unfold execRegionValidClear
  exact rowWrite_memOk h

theorem execSegmentCommit_memOk (h : s.MemOk) {fn ctx seg : ℕ} {value : Word} : (execSegmentCommit fn ctx seg value s).MemOk := by
  unfold execSegmentCommit
  exact handleWrite_memOk h

theorem execSegmentCancel_memOk (h : s.MemOk) {fn ctx seg : ℕ} {value : Word} : (execSegmentCancel fn ctx seg value s).MemOk := by
  unfold execSegmentCancel
  exact handleWrite_memOk h

theorem execHostDlogFlip_memOk (h : s.MemOk) {fn : ℕ} {value : Word} : (execHostDlogFlip fn value s).MemOk := by
  unfold execHostDlogFlip
  exact rowWrite_memOk h

theorem execDeviceDlogFlip_memOk (h : s.MemOk) {fn part : ℕ} {value : Word} : (execDeviceDlogFlip fn part value s).MemOk := by
  unfold execDeviceDlogFlip
  exact rowWrite_memOk h

theorem execContextActivate_memOk (h : s.MemOk) {fn ctx : ℕ} {value : Word} : (execContextActivate fn ctx value s).MemOk := by
  unfold execContextActivate
  exact handleWrite_memOk h

theorem execContextTeardown_memOk (h : s.MemOk) {fn ctx : ℕ} {value : Word} : (execContextTeardown fn ctx value s).MemOk := by
  unfold execContextTeardown
  exact handleWrite_memOk h

theorem execQueueEnable_memOk (h : s.MemOk) {fn q : ℕ} {value : Word} : (execQueueEnable fn q value s).MemOk := by
  unfold execQueueEnable
  exact rowWrite_memOk h

theorem execQueueDisable_memOk (h : s.MemOk) {fn q : ℕ} {value : Word} : (execQueueDisable fn q value s).MemOk := by
  unfold execQueueDisable
  exact rowWrite_memOk h

theorem execQueueRestart_memOk (h : s.MemOk) {fn q : ℕ} {value : Word} : (execQueueRestart fn q value s).MemOk := by
  unfold execQueueRestart
  exact rowWrite_memOk h

theorem execQueueClearLatch_memOk (h : s.MemOk) {fn q : ℕ} {value : Word} : (execQueueClearLatch fn q value s).MemOk := by
  unfold execQueueClearLatch
  exact rowWrite_memOk h

theorem execDoorbell_memOk (h : s.MemOk) {fn q : ℕ} {tail : Word} : (execDoorbell fn q tail s).MemOk := by
  unfold execDoorbell
  exact handleWrite_memOk h

theorem execFenceRearm_memOk (h : s.MemOk) {fn fence : ℕ} {value : Word} : (execFenceRearm fn fence value s).MemOk := by
  unfold execFenceRearm
  exact handleWrite_memOk h

theorem execObjectCreate_memOk (h : s.MemOk) {fn ctx : ℕ} {value : Word} : (execObjectCreate fn ctx value s).MemOk := by
  unfold execObjectCreate
  exact handleWrite_memOk h

theorem execObjectFree_memOk (h : s.MemOk) {fn ctx : ℕ} {value : Word} : (execObjectFree fn ctx value s).MemOk := by
  unfold execObjectFree
  exact handleWrite_memOk h

theorem execObjectForceFree_memOk (h : s.MemOk) {fn ctx : ℕ} {value : Word} : (execObjectForceFree fn ctx value s).MemOk := by
  unfold execObjectForceFree
  exact handleWrite_memOk h

theorem execEvqHeadWrite_memOk (h : s.MemOk) {fn evq : ℕ} {value : Word} : (execEvqHeadWrite fn evq value s).MemOk := by
  unfold execEvqHeadWrite
  exact rowWrite_memOk h

theorem execEvqFnWrite_memOk (h : s.MemOk) {fn : ℕ} {value : Word} : (execEvqFnWrite fn value s).MemOk := by
  unfold execEvqFnWrite
  exact rowWrite_memOk h

theorem execEvqCtlWrite_memOk (h : s.MemOk) {fn evq : ℕ} {value : Word} : (execEvqCtlWrite fn evq value s).MemOk := by
  unfold execEvqCtlWrite
  exact rowWrite_memOk h

theorem execCtxEvqHeadWrite_memOk (h : s.MemOk) {fn ctx : ℕ} {value : Word} : (execCtxEvqHeadWrite fn ctx value s).MemOk := by
  unfold execCtxEvqHeadWrite
  exact handleWrite_memOk h

theorem execPartitionForm_memOk (h : s.MemOk) {fn part : ℕ} {value : Word} : (execPartitionForm fn part value s).MemOk := by
  unfold execPartitionForm
  exact rowWrite_memOk h

theorem execPartitionActivate_memOk (h : s.MemOk) {fn part : ℕ} {value : Word} : (execPartitionActivate fn part value s).MemOk := by
  unfold execPartitionActivate
  exact rowWrite_memOk h

theorem execPartitionDissolve_memOk (h : s.MemOk) {fn part : ℕ} {value : Word} : (execPartitionDissolve fn part value s).MemOk := by
  unfold execPartitionDissolve
  exact rowWrite_memOk h

theorem execPartRangeWrite_memOk (h : s.MemOk) {fn part off : ℕ} {value : Word} : (execPartRangeWrite fn part off value s).MemOk := by
  unfold execPartRangeWrite
  exact rowWrite_memOk h

theorem execFunctionAttach_memOk (h : s.MemOk) {fn part : ℕ} {value : Word} : (execFunctionAttach fn part value s).MemOk := by
  unfold execFunctionAttach
  exact rowWrite_memOk h

theorem execFunctionDetach_memOk (h : s.MemOk) {fn part : ℕ} {value : Word} : (execFunctionDetach fn part value s).MemOk := by
  unfold execFunctionDetach
  exact rowWrite_memOk h

theorem execHandleMap_memOk (h : s.MemOk) {fn part : ℕ} {value : Word} : (execHandleMap fn part value s).MemOk := by
  unfold execHandleMap
  exact rowWrite_memOk h

theorem execRebindAbort_memOk (h : s.MemOk) {fn part : ℕ} {value : Word} : (execRebindAbort fn part value s).MemOk := by
  unfold execRebindAbort
  exact rowWrite_memOk h

theorem execSpanSlotJoin_memOk (h : s.MemOk) {fn part slot : ℕ} {value : Word} : (execSpanSlotJoin fn part slot value s).MemOk := by
  unfold execSpanSlotJoin
  exact rowWrite_memOk h

theorem execSpanSlotLeave_memOk (h : s.MemOk) {fn part slot : ℕ} {value : Word} : (execSpanSlotLeave fn part slot value s).MemOk := by
  unfold execSpanSlotLeave
  exact rowWrite_memOk h

theorem execRtMaskWrite_memOk (h : s.MemOk) {fn part : ℕ} {value : Word} : (execRtMaskWrite fn part value s).MemOk := by
  unfold execRtMaskWrite
  exact rowWrite_memOk h

theorem execRunListSwap_memOk (h : s.MemOk) {fn part : ℕ} {value : Word} : (execRunListSwap fn part value s).MemOk := by
  unfold execRunListSwap
  exact rowWrite_memOk h

theorem execLinkRekey_memOk (h : s.MemOk) {fn port : ℕ} {value : Word} : (execLinkRekey fn port value s).MemOk := by
  unfold execLinkRekey
  exact rowWrite_memOk h

theorem execLinkRetrain_memOk (h : s.MemOk) {fn port : ℕ} {value : Word} : (execLinkRetrain fn port value s).MemOk := by
  unfold execLinkRetrain
  exact rowWrite_memOk h

theorem execPortEnableClear_memOk (h : s.MemOk) {fn port : ℕ} {value : Word} : (execPortEnableClear fn port value s).MemOk := by
  unfold execPortEnableClear
  exact rowWrite_memOk h

theorem execRteSelfWrite_memOk (h : s.MemOk) {fn : ℕ} {value : Word} : (execRteSelfWrite fn value s).MemOk := by
  unfold execRteSelfWrite
  exact rowWrite_memOk h

theorem execRouteEntryWrite_memOk (h : s.MemOk) {fn : ℕ} {value : Word} : (execRouteEntryWrite fn value s).MemOk := by
  unfold execRouteEntryWrite
  exact rowWrite_memOk h

theorem execCounterSnapshot_memOk (h : s.MemOk) {fn : ℕ} {value : Word} : (execCounterSnapshot fn value s).MemOk := by
  unfold execCounterSnapshot
  exact rowWrite_memOk h

theorem execKeyArm_memOk (h : s.MemOk) {fn slot : ℕ} {value : Word} : (execKeyArm fn slot value s).MemOk := by
  unfold execKeyArm
  exact rowWrite_memOk h

theorem execKeyRetire_memOk (h : s.MemOk) {fn slot : ℕ} {value : Word} : (execKeyRetire fn slot value s).MemOk := by
  unfold execKeyRetire
  exact rowWrite_memOk h

theorem execKeyForce_memOk (h : s.MemOk) {fn slot : ℕ} {value : Word} : (execKeyForce fn slot value s).MemOk := by
  unfold execKeyForce
  exact rowWrite_memOk h

theorem execSecProtectSet_memOk (h : s.MemOk) {fn : ℕ} {value : Word} : (execSecProtectSet fn value s).MemOk := by
  unfold execSecProtectSet
  exact rowWrite_memOk h

theorem execKeyLockSet_memOk (h : s.MemOk) {fn : ℕ} {value : Word} : (execKeyLockSet fn value s).MemOk := by
  unfold execKeyLockSet
  exact rowWrite_memOk h

theorem execKeyUnlock_memOk (h : s.MemOk) {fn : ℕ} {value : Word} : (execKeyUnlock fn value s).MemOk := by
  unfold execKeyUnlock
  exact rowWrite_memOk h

theorem execKftWrite_memOk (h : s.MemOk) {fn word : ℕ} {value : Word} : (execKftWrite fn word value s).MemOk := by
  unfold execKftWrite
  exact rowWrite_memOk h

theorem execCommitSvn_memOk (h : s.MemOk) {fn : ℕ} {value : Word} : (execCommitSvn fn value s).MemOk := by
  unfold execCommitSvn
  exact rowWrite_memOk h

theorem execRecoveryApprove_memOk (h : s.MemOk) {fn : ℕ} {value : Word} : (execRecoveryApprove fn value s).MemOk := by
  unfold execRecoveryApprove
  exact rowWrite_memOk h

theorem execRecoveryHold_memOk (h : s.MemOk) {fn : ℕ} {value : Word} : (execRecoveryHold fn value s).MemOk := by
  unfold execRecoveryHold
  exact rowWrite_memOk h

theorem execRecoveryRequest_memOk (h : s.MemOk) {fn : ℕ} {value : Word} : (execRecoveryRequest fn value s).MemOk := by
  unfold execRecoveryRequest
  exact rowWrite_memOk h

theorem execRetireRequest_memOk (h : s.MemOk) {fn : ℕ} {value : Word} : (execRetireRequest fn value s).MemOk := by
  unfold execRetireRequest
  exact rowWrite_memOk h

theorem execCrumbClear_memOk (h : s.MemOk) {fn : ℕ} {value : Word} : (execCrumbClear fn value s).MemOk := by
  unfold execCrumbClear
  exact rowWrite_memOk h

theorem execTestModeWrite_memOk (h : s.MemOk) {fn : ℕ} {value : Word} : (execTestModeWrite fn value s).MemOk := by
  unfold execTestModeWrite
  exact rowWrite_memOk h

theorem execIslandHalt_memOk (h : s.MemOk) {fn : ℕ} {value : Word} : (execIslandHalt fn value s).MemOk := by
  unfold execIslandHalt
  exact rowWrite_memOk h

theorem execIslandResume_memOk (h : s.MemOk) {fn : ℕ} {value : Word} : (execIslandResume fn value s).MemOk := by
  unfold execIslandResume
  exact rowWrite_memOk h

theorem execDebugRead_memOk (h : s.MemOk) {fn : ℕ} {value : Word} : (execDebugRead fn value s).MemOk := by
  unfold execDebugRead
  exact rowWrite_memOk h

theorem execDebugWrite_memOk (h : s.MemOk) {fn : ℕ} {value : Word} : (execDebugWrite fn value s).MemOk := by
  unfold execDebugWrite
  exact rowWrite_memOk h

theorem exec_memOk (h : s.MemOk) {c : Instr} : Answer.MemOk (exec c s) := by
  cases c with
  | registerWrite => exact execRegisterWrite_memOk h
  | pairLowRead => exact execPairLowRead_memOk h
  | pairHighRead => exact execPairHighRead_memOk h
  | pairLowWrite => exact execPairLowWrite_memOk h
  | pairHighWrite => exact execPairHighWrite_memOk h
  | epochBoundary => exact execEpochBoundary_memOk h
  | powerModelDivergence => exact execPowerModelDivergence_memOk h
  | stragglerShift => exact execStragglerShift_memOk h
  | refreshNormalReturn => exact execRefreshNormalReturn_memOk h
  | hangDetect => exact execHangDetect_memOk h
  | roundOverrun => exact execRoundOverrun_memOk h
  | spanWaitExpire => exact execSpanWaitExpire_memOk h
  | watchdogExpire => exact execWatchdogExpire_memOk h
  | retireThreshold => exact execRetireThreshold_memOk h
  | handshakeWordReceive => exact execHandshakeWordReceive_memOk h
  | seamWordReceive => exact execSeamWordReceive_memOk h
  | supplyDroop => exact execSupplyDroop_memOk h
  | tensorOp => exact execTensorOp_memOk h
  | vectorOp => exact execVectorOp_memOk h
  | moverRequest => exact execMoverRequest_memOk h
  | roundEnd => exact execRoundEnd_memOk h
  | jump => exact execJump_memOk h
  | branch => exact execBranch_memOk h
  | repeat_ => exact execRepeat_memOk h
  | routerTokenForward => exact execRouterTokenForward_memOk h
  | shstReadRequest => exact execShstReadRequest_memOk h
  | shstLineArrive => exact execShstLineArrive_memOk h
  | lineIn => exact execLineIn_memOk h
  | lineOut => exact execLineOut_memOk h
  | spread => exact execSpread_memOk h
  | bcast => exact execBcast_memOk h
  | gather => exact execGather_memOk h
  | xcore => exact execXcore_memOk h
  | save => exact execSave_memOk h
  | restore => exact execRestore_memOk h
  | moverCompletion => exact execMoverCompletion_memOk h
  | sliceQuiescent => exact execSliceQuiescent_memOk h
  | mouldRegister => exact execMouldRegister_memOk h
  | mouldRegistrationDone => exact execMouldRegistrationDone_memOk h
  | mouldRelease => exact execMouldRelease_memOk h
  | configLoad => exact execConfigLoad_memOk h
  | configLoadDone => exact execConfigLoadDone_memOk h
  | phaseCombine => exact execPhaseCombine_memOk h
  | phaseStart => exact execPhaseStart_memOk h
  | boundaryReached => exact execBoundaryReached_memOk h
  | napLineRead => exact execNapLineRead_memOk h
  | napLineWrite => exact execNapLineWrite_memOk h
  | napShortRead => exact execNapShortRead_memOk h
  | napPartialWrite => exact execNapPartialWrite_memOk h
  | atomicAdd => exact execAtomicAdd_memOk h
  | atomicSmin => exact execAtomicSmin_memOk h
  | atomicSmax => exact execAtomicSmax_memOk h
  | atomicUmin => exact execAtomicUmin_memOk h
  | atomicUmax => exact execAtomicUmax_memOk h
  | atomicSwap => exact execAtomicSwap_memOk h
  | atomicCas => exact execAtomicCas_memOk h
  | xadd => exact execXadd_memOk h
  | dramBurstReceived => exact execDramBurstReceived_memOk h
  | refreshRow => exact execRefreshRow_memOk h
  | towerTempSample => exact execTowerTempSample_memOk h
  | patrolScrubLine => exact execPatrolScrubLine_memOk h
  | repairSweepStart => exact execRepairSweepStart_memOk h
  | repairSweepLine => exact execRepairSweepLine_memOk h
  | regionValidSet => exact execRegionValidSet_memOk h
  | regionValidClear => exact execRegionValidClear_memOk h
  | segmentCommit => exact execSegmentCommit_memOk h
  | segmentCancel => exact execSegmentCancel_memOk h
  | segmentApplied => exact execSegmentApplied_memOk h
  | atsTranslationCompletion => exact execAtsTranslationCompletion_memOk h
  | atsTimeout => exact execAtsTimeout_memOk h
  | invalidationRequest => exact execInvalidationRequest_memOk h
  | invalidationCompletion => exact execInvalidationCompletion_memOk h
  | hostReadCompletion => exact execHostReadCompletion_memOk h
  | hostDlogFlip => exact execHostDlogFlip_memOk h
  | hostDlogFlipDone => exact execHostDlogFlipDone_memOk h
  | deviceDlogFlip => exact execDeviceDlogFlip_memOk h
  | deviceDlogFlipDone => exact execDeviceDlogFlipDone_memOk h
  | contextActivate => exact execContextActivate_memOk h
  | contextTeardown => exact execContextTeardown_memOk h
  | contextQuiesced => exact execContextQuiesced_memOk h
  | queueEnable => exact execQueueEnable_memOk h
  | queueDisable => exact execQueueDisable_memOk h
  | queueRestart => exact execQueueRestart_memOk h
  | queueClearLatch => exact execQueueClearLatch_memOk h
  | doorbell => exact execDoorbell_memOk h
  | descriptorArrive => exact execDescriptorArrive_memOk h
  | commandAccept => exact execCommandAccept_memOk h
  | commandStart => exact execCommandStart_memOk h
  | commandResolve => exact execCommandResolve_memOk h
  | nop => exact execNop_memOk h
  | compute => exact execCompute_memOk h
  | copy => exact execCopy_memOk h
  | fill => exact execFill_memOk h
  | convert => exact execConvert_memOk h
  | wait => exact execWait_memOk h
  | signal => exact execSignal_memOk h
  | event => exact execEvent_memOk h
  | fenceRearm => exact execFenceRearm_memOk h
  | objectCreate => exact execObjectCreate_memOk h
  | objectFree => exact execObjectFree_memOk h
  | objectForceFree => exact execObjectForceFree_memOk h
  | evqHeadWrite => exact execEvqHeadWrite_memOk h
  | msixHoldoffExpire => exact execMsixHoldoffExpire_memOk h
  | partitionForm => exact execPartitionForm_memOk h
  | partitionActivate => exact execPartitionActivate_memOk h
  | partitionDissolve => exact execPartitionDissolve_memOk h
  | partRangeWrite => exact execPartRangeWrite_memOk h
  | functionAttach => exact execFunctionAttach_memOk h
  | functionDetach => exact execFunctionDetach_memOk h
  | handleMap => exact execHandleMap_memOk h
  | sliceGrow => exact execSliceGrow_memOk h
  | sliceShrink => exact execSliceShrink_memOk h
  | channelBind => exact execChannelBind_memOk h
  | channelRelease => exact execChannelRelease_memOk h
  | rebalance => exact execRebalance_memOk h
  | portBind => exact execPortBind_memOk h
  | portBindTimeout => exact execPortBindTimeout_memOk h
  | portUnbind => exact execPortUnbind_memOk h
  | portUnbindDrainDone => exact execPortUnbindDrainDone_memOk h
  | rebindAbort => exact execRebindAbort_memOk h
  | spanSlotJoin => exact execSpanSlotJoin_memOk h
  | spanJoinTimeout => exact execSpanJoinTimeout_memOk h
  | spanSlotLeave => exact execSpanSlotLeave_memOk h
  | spanLeaveComplete => exact execSpanLeaveComplete_memOk h
  | rtMaskWrite => exact execRtMaskWrite_memOk h
  | quantumExpire => exact execQuantumExpire_memOk h
  | npDeadlineExpire => exact execNpDeadlineExpire_memOk h
  | runListSwap => exact execRunListSwap_memOk h
  | runListReadDone => exact execRunListReadDone_memOk h
  | runListEntryEnd => exact execRunListEntryEnd_memOk h
  | linkBlockSend => exact execLinkBlockSend_memOk h
  | linkBlockReceive => exact execLinkBlockReceive_memOk h
  | nakRepeat => exact execNakRepeat_memOk h
  | linkRekey => exact execLinkRekey_memOk h
  | rd => exact execRd_memOk h
  | wr => exact execWr_memOk h
  | atom => exact execAtom_memOk h
  | reduce => exact execReduce_memOk h
  | reduceSpc => exact execReduceSpc_memOk h
  | fenceSig => exact execFenceSig_memOk h
  | rsp => exact execRsp_memOk h
  | barrier => exact execBarrier_memOk h
  | spanJoin => exact execSpanJoin_memOk h
  | spanAns => exact execSpanAns_memOk h
  | spanLeave => exact execSpanLeave_memOk h
  | cmdCheck => exact execCmdCheck_memOk h
  | cmdRefuse => exact execCmdRefuse_memOk h
  | heartbeat => exact execHeartbeat_memOk h
  | heartbeatSend => exact execHeartbeatSend_memOk h
  | partnerState => exact execPartnerState_memOk h
  | bindReq => exact execBindReq_memOk h
  | bindAck => exact execBindAck_memOk h
  | bindRefuse => exact execBindRefuse_memOk h
  | unbind => exact execUnbind_memOk h
  | cert => exact execCert_memOk h
  | keyOffer => exact execKeyOffer_memOk h
  | keyProof => exact execKeyProof_memOk h
  | keySwitch => exact execKeySwitch_memOk h
  | trunkSync => exact execTrunkSync_memOk h
  | routeAdv => exact execRouteAdv_memOk h
  | routeAdvTimer => exact execRouteAdvTimer_memOk h
  | requestExpire => exact execRequestExpire_memOk h
  | portTrain => exact execPortTrain_memOk h
  | trainingFailure => exact execTrainingFailure_memOk h
  | holdDownExpire => exact execHoldDownExpire_memOk h
  | linkRetrain => exact execLinkRetrain_memOk h
  | rteSelfWrite => exact execRteSelfWrite_memOk h
  | routeEntryWrite => exact execRouteEntryWrite_memOk h
  | partnerLossTimeout => exact execPartnerLossTimeout_memOk h
  | routeSwitch => exact execRouteSwitch_memOk h
  | regulatorIssue => exact execRegulatorIssue_memOk h
  | counterSnapshot => exact execCounterSnapshot_memOk h
  | powerSample => exact execPowerSample_memOk h
  | elecLimitActivate => exact execElecLimitActivate_memOk h
  | elecLimitLift => exact execElecLimitLift_memOk h
  | inputLow => exact execInputLow_memOk h
  | inputLowClear => exact execInputLowClear_memOk h
  | thermalSample => exact execThermalSample_memOk h
  | thermalTrip => exact execThermalTrip_memOk h
  | hardThrottleLift => exact execHardThrottleLift_memOk h
  | keyArm => exact execKeyArm_memOk h
  | keyRetire => exact execKeyRetire_memOk h
  | keyForce => exact execKeyForce_memOk h
  | secProtectSet => exact execSecProtectSet_memOk h
  | keyLockSet => exact execKeyLockSet_memOk h
  | keyUnlock => exact execKeyUnlock_memOk h
  | kftWrite => exact execKftWrite_memOk h
  | spdmMessage => exact execSpdmMessage_memOk h
  | ideIntegrityFail => exact execIdeIntegrityFail_memOk h
  | lockInterface => exact execLockInterface_memOk h
  | stopInterface => exact execStopInterface_memOk h
  | functionLevelReset => exact execFunctionLevelReset_memOk h
  | attestReport => exact execAttestReport_memOk h
  | certChainGet => exact execCertChainGet_memOk h
  | ownerRetire => exact execOwnerRetire_memOk h
  | vendorDebugEnter => exact execVendorDebugEnter_memOk h
  | commitSvn => exact execCommitSvn_memOk h
  | engineReset => exact execEngineReset_memOk h
  | tastingTurn => exact execTastingTurn_memOk h
  | partitionReset => exact execPartitionReset_memOk h
  | deviceLevelReset => exact execDeviceLevelReset_memOk h
  | powerCycleRequest => exact execPowerCycleRequest_memOk h
  | recoveryApprove => exact execRecoveryApprove_memOk h
  | recoveryHold => exact execRecoveryHold_memOk h
  | recoveryRequest => exact execRecoveryRequest_memOk h
  | sliceRetire => exact execSliceRetire_memOk h
  | channelGroupRetire => exact execChannelGroupRetire_memOk h
  | portRetire => exact execPortRetire_memOk h
  | retireRequest => exact execRetireRequest_memOk h
  | crumbClear => exact execCrumbClear_memOk h
  | getStatus => exact execGetStatus_memOk h
  | setCap => exact execSetCap_memOk h
  | readTelemetry => exact execReadTelemetry_memOk h
  | fwBegin => exact execFwBegin_memOk h
  | fwData => exact execFwData_memOk h
  | fwEnd => exact execFwEnd_memOk h
  | fwSessionTimeout => exact execFwSessionTimeout_memOk h
  | retireClear => exact execRetireClear_memOk h
  | deviceReset => exact execDeviceReset_memOk h
  | sbAlarmClear => exact execSbAlarmClear_memOk h
  | modPwrEnAssert => exact execModPwrEnAssert_memOk h
  | pwrOffTimeExpire => exact execPwrOffTimeExpire_memOk h
  | devResetNRelease => exact execDevResetNRelease_memOk h
  | devThrottleNAssert => exact execDevThrottleNAssert_memOk h
  | stageStop => exact execStageStop_memOk h
  | bar2Read => exact execBar2Read_memOk h
  | bar2Write => exact execBar2Write_memOk h
  | evqFnWrite => exact execEvqFnWrite_memOk h
  | evqCtlWrite => exact execEvqCtlWrite_memOk h
  | ctxEvqHeadWrite => exact execCtxEvqHeadWrite_memOk h
  | testModeWrite => exact execTestModeWrite_memOk h
  | islandHalt => exact execIslandHalt_memOk h
  | islandResume => exact execIslandResume_memOk h
  | debugRead => exact execDebugRead_memOk h
  | debugWrite => exact execDebugWrite_memOk h
  | startInterface => exact execStartInterface_memOk h
  | pcieLinkUp => exact execPcieLinkUp_memOk h
  | portEnableClear => exact execPortEnableClear_memOk h
  | sbAlarmMaskWrite => exact execSbAlarmMaskWrite_memOk h
  | msixVectorUnmask => exact execMsixVectorUnmask_memOk h
  | atsEnable => exact execAtsEnable_memOk h
  | debugAccessPort => exact execDebugAccessPort_memOk h
  | modPwrEnRemove => exact execModPwrEnRemove_memOk h
  | devResetNAssert => exact execDevResetNAssert_memOk h
  | perstNAssert => exact execPerstNAssert_memOk h
  | perstNRelease => exact execPerstNRelease_memOk h
  | devThrottleNRelease => exact execDevThrottleNRelease_memOk h
  | inputStuck => exact execInputStuck_memOk h
  | oscillatorStop => exact execOscillatorStop_memOk h
  | railFault => exact execRailFault_memOk h
theorem idle_mems (h : s.mems = M) : s.idle.mems = M := by
  unfold idle
  exact mems_ite (mems_with_mclk h) h

theorem step_memOk (h : s.MemOk) : Answer.MemOk (step s) := by
  unfold step
  split
  · exact of_mems (idle_mems rfl) h
  · exact exec_memOk (of_mems (mems_with_pending rfl) h)

/-- Settles O4: each command keeps the canonical form, by the laws above. -/
theorem memoryStaysCanonical : Obligations.MemoryStaysCanonical := by
  intro s t hs e
  have h := step_memOk (memOk_iff.mp hs)
  rw [e] at h
  exact memOk_iff.mpr h

end Sys2Proof.Machine.State
end

section
/-! SUPPORT. Words between islands and across the seam: which channel carries a word, and what becomes of it. -/

namespace Sys2Proof.Machine

open Sys2Proof

/-- A word is in order exactly when it has the number expected (R25). -/
theorem seqAhead_eq_zero_iff (seq : BitVec 16) (want : Nat) : seqAhead seq want = 0 ↔ seq.toNat = want % 2 ^ 16 := by
  have h := seq.isLt
  unfold seqAhead
  omega

/-! ### What a counted fault leaves (R451) -/

section
variable {s : State} {row idx what : Nat}

@[simp] theorem State.fault_regs : (s.fault row idx what).regs = s.regs := rfl
@[simp] theorem State.fault_mem : (s.fault row idx what).mem = s.mem := rfl
@[simp] theorem State.fault_spad : (s.fault row idx what).spad = s.spad := rfl
@[simp] theorem State.fault_share : (s.fault row idx what).share = s.share := rfl
@[simp] theorem State.fault_seamSeq : (s.fault row idx what).seamSeq = s.seamSeq := rfl
@[simp] theorem State.fault_seamFifo : (s.fault row idx what).seamFifo = s.seamFifo := rfl
@[simp] theorem State.fault_seamErr : (s.fault row idx what).seamErr = s.seamErr := rfl

end

/-! ### Handshake words (R18, R25, R26) -/

/-- The key of the handshake channel from island `src` to island `dst`. -/
abbrev hsKey (src dst : Nat) : Nat := src * 256 + dst

/-- A word can arrive from `src` at `dst`: they stand in one half, and `dst` runs or its FIFO has a place. -/
def State.hsOpen (s : State) (src dst : Nat) : Prop :=
  islandHalf src = islandHalf dst ∧ ¬ (dst ∈ s.halted ∧ 16 ≤ (Tab.get [] s.hsFifo (hsKey src dst)).length)

/-- The distance of a word's number ahead of the one that handshake channel `k` expects. -/
abbrev State.hsAhead (s : State) (k : Nat) (seq : BitVec 16) : Nat := seqAhead seq (Tab.get 0 s.hsSeq k)

/-- Handshake channel `k` expects the number after `seq` next. -/
def State.hsExpect (s : State) (k : Nat) (seq : BitVec 16) : State :=
  { s with hsSeq := Tab.put 0 k ((seq.toNat + 1) % 2 ^ 16) s.hsSeq }

/-- A word joins the end of the FIFO, whose oldest word has gone when 16 stood in it. -/
def State.hsDeliver (s : State) (k : Nat) (word : BitVec 272) : State :=
  let fifo := Tab.get [] s.hsFifo k
  { s with hsFifo := Tab.put [] k ((if fifo.length < 16 then fifo else fifo.drop 1) ++ [word]) s.hsFifo }

section
variable {s : State} {k src dst : Nat} {seq : BitVec 16} {word : BitVec 272}

theorem State.hsDeliver_of_lt (h : (Tab.get [] s.hsFifo k).length < 16) :
    s.hsDeliver k word = { s with hsFifo := Tab.put [] k (Tab.get [] s.hsFifo k ++ [word]) s.hsFifo } := by
  simp only [State.hsDeliver, if_pos h]

theorem State.hsDeliver_of_le (h : 16 ≤ (Tab.get [] s.hsFifo k).length) :
    s.hsDeliver k word = { s with hsFifo := Tab.put [] k ((Tab.get [] s.hsFifo k).drop 1 ++ [word]) s.hsFifo } := by
  simp only [State.hsDeliver, if_neg (Nat.not_lt.mpr h)]

/-- What keeps every word out: the halves differ, or `dst` is stopped with a full FIFO. -/
theorem State.not_hsOpen_iff : ¬ s.hsOpen src dst ↔
    islandHalf src ≠ islandHalf dst ∨ (s.halted.contains dst ∧ 16 ≤ (Tab.get [] s.hsFifo (hsKey src dst)).length) := by
  rw [List.contains_iff_mem, State.hsOpen]
  tauto

variable (hs : src < 193) (hd : dst < 193)
include hs hd

theorem exec_handshakeWord_closed (h : ¬ s.hsOpen src dst) : exec (.handshakeWordReceive src dst seq word) s = .next s := by
  show execHandshakeWordReceive src dst seq word s = _
  simp only [execHandshakeWordReceive, onUnit, hs, hd, if_pos (State.not_hsOpen_iff.mp h), decide_true, Bool.and_self, if_true]

/-- On an open channel the word's number decides: in order it is delivered, else it is a handshake error. -/
theorem exec_handshakeWord_open (h : s.hsOpen src dst) : exec (.handshakeWordReceive src dst seq word) s = .next (
    if s.hsAhead (hsKey src dst) seq = 0 then (s.hsExpect (hsKey src dst) seq).hsDeliver (hsKey src dst) word
    else if s.hsAhead (hsKey src dst) seq < 2 ^ 15 then (s.hsExpect (hsKey src dst) seq).handshakeError src dst
    else s.handshakeError src dst) := by
  show execHandshakeWordReceive src dst seq word s = _
  simp only [execHandshakeWordReceive, onUnit, hs, hd, if_neg (mt State.not_hsOpen_iff.mpr (not_not_intro h)), decide_true, Bool.and_self,
    if_true]
  rfl

variable (h : s.hsOpen src dst)
include h

theorem exec_handshakeWord_inOrder (ha : s.hsAhead (hsKey src dst) seq = 0) : exec (.handshakeWordReceive src dst seq word) s =
    .next ((s.hsExpect (hsKey src dst) seq).hsDeliver (hsKey src dst) word) := by
  rw [exec_handshakeWord_open hs hd h, if_pos ha]

/-- A word ahead of the sequence is dropped, and the channel resynchronises past it. -/
theorem exec_handshakeWord_gap (ha : s.hsAhead (hsKey src dst) seq ≠ 0) (hl : s.hsAhead (hsKey src dst) seq < 2 ^ 15) :
    exec (.handshakeWordReceive src dst seq word) s = .next ((s.hsExpect (hsKey src dst) seq).handshakeError src dst) := by
  rw [exec_handshakeWord_open hs hd h, if_neg ha, if_pos hl]

/-- A repeat is dropped, and leaves the number expected. -/
theorem exec_handshakeWord_repeat (hl : 2 ^ 15 ≤ s.hsAhead (hsKey src dst) seq) :
    exec (.handshakeWordReceive src dst seq word) s = .next (s.handshakeError src dst) := by
  rw [exec_handshakeWord_open hs hd h, if_neg (by omega), if_neg (by omega)]

end

/-! ### The channel of a request's line (R20, R21) -/

theorem State.mem_seamChans {s : State} {chan : Nat} : chan ∈ s.seamChans ↔ chan < 192 ∧ s.capState 4 chan ≠ 2 := by
  simp [State.seamChans]

/-- The word of a line comes by a channel in service. -/
theorem State.seamChan_mem {s : State} {line chan : Nat} (h : s.seamChan line = some chan) : chan ∈ s.seamChans :=
  List.mem_of_getElem? h

theorem State.seamChan_eq_none_iff {s : State} {line : Nat} : s.seamChan line = none ↔ s.seamChans = [] := by
  rw [State.seamChan, List.getElem?_eq_none_iff, ← List.length_eq_zero_iff]
  constructor
  · intro h
    by_contra hne
    exact absurd (Nat.mod_lt (Config.seamChannel s.seamChans.length line) (Nat.pos_of_ne_zero hne)) (Nat.not_lt.mpr h)
  · intro h
    omega

/-- Only with every channel retired has a line no channel. -/
theorem State.seamChan_eq_none_iff_retired {s : State} {line : Nat} :
    s.seamChan line = none ↔ ∀ chan, chan < 192 → s.capState 4 chan = 2 := by
  simp [State.seamChan_eq_none_iff, List.eq_nil_iff_forall_not_mem, State.mem_seamChans]

/-! ### Words across the seam (R19, R20, R22, R25) -/

/-- The key of a seam channel in one direction. -/
abbrev seamKey (dir chan : Nat) : Nat := dir * 192 + chan

/-- The seam island that receives in a direction (R23). -/
abbrev seamIsland (dir : Nat) : Nat := if dir = 0 then 189 else 188

/-- The distance of a word's number ahead of the one that seam channel `k` expects. -/
abbrev State.seamAhead (s : State) (k : Nat) (seq : BitVec 16) : Nat := seqAhead seq (Tab.get 0 s.seamSeq k)

/-- Seam channel `k` expects the number after `seq` next. -/
def State.seamExpect (s : State) (k : Nat) (seq : BitVec 16) : State :=
  { s with seamSeq := Tab.put 0 k ((seq.toNat + 1) % 2 ^ 16) s.seamSeq }

/-- The number expected moves past a word in order or after a gap; a repeat leaves it. -/
def State.seamPass (s : State) (k : Nat) (seq : BitVec 16) : State := if s.seamAhead k seq < 2 ^ 15 then s.seamExpect k seq else s

/-- The counts of a seam channel's corrected and dropped words. -/
def State.seamCount (s : State) (k corrected dropped : Nat) : State :=
  { s with seamErr := Tab.put (0, 0) k (corrected, dropped) s.seamErr }

/-- A word joins the end of the channel's FIFO, whose oldest word has gone when 48 stood in it. -/
def State.seamDeliver (s : State) (k : Nat) (word : BitVec 256) : State :=
  let fifo := Tab.get [] s.seamFifo k
  { s with seamFifo := Tab.put [] k ((if fifo.length < 48 then fifo else fifo.drop 1) ++ [word]) s.seamFifo }

section
variable {s : State} {k : Nat} {seq : BitVec 16} {word : BitVec 256}

theorem State.seamPass_of_lt (h : s.seamAhead k seq < 2 ^ 15) : s.seamPass k seq = s.seamExpect k seq := if_pos h

theorem State.seamPass_of_le (h : 2 ^ 15 ≤ s.seamAhead k seq) : s.seamPass k seq = s := if_neg (Nat.not_lt.mpr h)

theorem State.seamPass_seamErr : (s.seamPass k seq).seamErr = s.seamErr := by
  unfold State.seamPass
  split <;> rfl

theorem State.seamDeliver_of_lt (h : (Tab.get [] s.seamFifo k).length < 48) :
    s.seamDeliver k word = { s with seamFifo := Tab.put [] k (Tab.get [] s.seamFifo k ++ [word]) s.seamFifo } := by
  simp only [State.seamDeliver, if_pos h]

/-- A word delivered is the last of its channel's FIFO. -/
theorem State.seamDeliver_getLast? : (Tab.get [] (s.seamDeliver k word).seamFifo k).getLast? = some word := by
  simp [State.seamDeliver]

end

section
variable {s u : State} {dir line chan bad q n : Nat} {seq : BitVec 16} {word : BitVec 256} (hdir : dir < 2)
include hdir

theorem exec_seamWord_noChannel (h : s.seamChan line = none) : exec (.seamWordReceive dir line seq word bad q n) s = .next s := by
  show execSeamWordReceive dir line seq word bad q n s = _
  simp only [execSeamWordReceive, onUnit, hdir, h, decide_true, if_true]

variable (h : s.seamChan line = some chan)
include h

/-- With two bad wires or more the word is dropped, counted and lost. -/
theorem exec_seamWord_dropped (hp : s.seamPass (seamKey dir chan) seq = u) (hb : 2 ≤ bad) :
    exec (.seamWordReceive dir line seq word bad q n) s =
      .next ((u.seamCount (seamKey dir chan) (Tab.get (0, 0) s.seamErr (seamKey dir chan)).1
        ((Tab.get (0, 0) s.seamErr (seamKey dir chan)).2 + 1)).seamLoss (seamIsland dir) q n) := by
  subst hp
  show execSeamWordReceive dir line seq word bad q n s = _
  simp only [execSeamWordReceive, onUnit, hdir, h, hb, decide_true, if_true, State.seamCount, State.seamPass_seamErr]
  rfl

/-- A word in order with no bad wire enters the FIFO. -/
theorem exec_seamWord_inOrder (ha : s.seamAhead (seamKey dir chan) seq = 0) : exec (.seamWordReceive dir line seq word 0 q n) s =
    .next ((s.seamExpect (seamKey dir chan) seq).seamDeliver (seamKey dir chan) word) := by
  show execSeamWordReceive dir line seq word 0 q n s = _
  simp [execSeamWordReceive, onUnit, hdir, h, ha, State.seamExpect, State.seamDeliver]

/-- One in order with one bad wire is corrected and counted, and enters the FIFO. -/
theorem exec_seamWord_corrected (ha : s.seamAhead (seamKey dir chan) seq = 0) : exec (.seamWordReceive dir line seq word 1 q n) s =
    .next ((((s.seamExpect (seamKey dir chan) seq).seamCount (seamKey dir chan) ((Tab.get (0, 0) s.seamErr (seamKey dir chan)).1 + 1)
      (Tab.get (0, 0) s.seamErr (seamKey dir chan)).2).fault 10 chan s.mclk).seamDeliver (seamKey dir chan) word) := by
  show execSeamWordReceive dir line seq word 1 q n s = _
  simp [execSeamWordReceive, onUnit, hdir, h, ha, State.seamExpect, State.seamCount, State.seamDeliver]

/-- A word out of order with no bad wire is a handshake error, and lost. -/
theorem exec_seamWord_misordered (hp : s.seamPass (seamKey dir chan) seq = u) (ha : s.seamAhead (seamKey dir chan) seq ≠ 0) :
    exec (.seamWordReceive dir line seq word 0 q n) s = .next ((u.countHs (seamIsland dir)).seamLoss (seamIsland dir) q n) := by
  subst hp
  show execSeamWordReceive dir line seq word 0 q n s = _
  simp only [execSeamWordReceive, onUnit, hdir, h, ha, decide_true, if_true, Nat.reduceLeDiff, zero_ne_one, if_false]
  rfl

end

/-! ### The obligation -/

/-- Settles O54: a handshake word goes by its channel and its number, a seam word by its bad wires and its number. -/
theorem wordsOnTheFabric : Obligations.WordsOnTheFabric := by
  intro s
  refine ⟨fun src dst seq word hs hd => ?_, fun dir line seq word bad q n hdir => ⟨fun chan h => State.mem_seamChans.mp (State.seamChan_mem h),
    State.seamChan_eq_none_iff_retired, exec_seamWord_noChannel hdir, fun chan h => ?_⟩⟩
  · refine ⟨exec_handshakeWord_closed hs hd, fun h ha hf => ?inOrder, fun h ha hf => ?full, exec_handshakeWord_gap hs hd,
      exec_handshakeWord_repeat hs hd, seqAhead_eq_zero_iff _ _⟩
    case inOrder => exact (exec_handshakeWord_inOrder hs hd h ha).trans (congrArg _ (State.hsDeliver_of_lt hf))
    case full => exact (exec_handshakeWord_inOrder hs hd h ha).trans (congrArg _ (State.hsDeliver_of_le hf))
  · refine ⟨fun hb hl => exec_seamWord_dropped hdir h (State.seamPass_of_lt hl) hb,
      fun hb hl => exec_seamWord_dropped hdir h (State.seamPass_of_le hl) hb, ?inOrder, ?corrected, ?gap, ?repeated⟩
    case inOrder =>
      rintro rfl ha hf
      exact (exec_seamWord_inOrder hdir h ha).trans (congrArg _ (State.seamDeliver_of_lt hf))
    case corrected =>
      rintro rfl ha
      refine ⟨_, exec_seamWord_corrected hdir h ha, ?counted, ?expects, State.seamDeliver_getLast?, ?regs, ?bytes⟩
      case counted => simp [State.seamDeliver, State.seamCount]
      case expects => simp [State.seamDeliver, State.seamCount, State.seamExpect]
      case regs => simp [State.seamDeliver, State.seamCount, State.seamExpect]
      case bytes => simp [State.sameBytes, State.seamDeliver, State.seamCount, State.seamExpect]
    case gap =>
      rintro rfl ha hl
      exact exec_seamWord_misordered hdir h (State.seamPass_of_lt hl) ha
    case repeated =>
      rintro rfl hl
      exact exec_seamWord_misordered hdir h (State.seamPass_of_le hl) (ne_of_gt (Nat.lt_of_lt_of_le (by decide) hl))

end Sys2Proof.Machine
end

section
/-! SUPPORT. The work of a queue's command: when its row does anything, and what each opcode's work is. -/

namespace Sys2Proof.Machine

open Sys2Proof

/-! ### When the row of a command does its work (R202, R221) -/

/-- A command whose row does its work: started, its work not ended, not held. -/
def Cmd.running (c : Cmd) : Prop := c.started = true ∧ c.work = false ∧ c.held = false

/-- The rows that do a command's work, each with the opcode of its commands. -/
def workRows (q seq : Nat) : List (Instr × Nat) :=
  [(.nop q seq, 0), (.compute q seq, 1), (.copy q seq, 2), (.fill q seq, 3), (.convert q seq, 4), (.wait q seq, 5), (.signal q seq, 6),
    (.event q seq, 9)]

section
variable {s u : State} {q seq op slot : Nat} {c d : Cmd} {f : Cmd → State}

/-- Each of these rows is work on the command it names. -/
theorem exec_workRow {e : Instr × Nat} (he : e ∈ workRows q seq) (s : State) :
    ∃ f, exec e.1 s = onUnit (decide (q < 4096)) (s.atWork q seq e.2 f) := by
  simp only [workRows, List.mem_cons, List.not_mem_nil, or_false] at he
  obtain rfl | rfl | rfl | rfl | rfl | rfl | rfl | rfl := he <;> exact ⟨_, rfl⟩

variable (hq : q < 4096) (h : s.cmd? q seq = some c)
include hq h

theorem work_stays (hn : ¬ c.running ∨ dOp c.desc ≠ op) : onUnit (decide (q < 4096)) (s.atWork q seq op f) = .next s := by
  have hw : c.started = false ∨ c.work ∨ c.held ∨ dOp c.desc ≠ op := by
    unfold Cmd.running at hn
    grind
  simp only [State.atWork, onUnit, hq, h, decide_true, if_true, if_pos hw]

variable (hr : c.running) (ho : dOp c.desc = op)
include hr ho

/-- A command that is to break does so in place of its work; a COMPUTE breaks at its own points. -/
theorem work_stops (hop : op ≠ 1) (hs : c.stop ≠ 0) : onUnit (decide (q < 4096)) (s.atWork q seq op f) = .next (s.stopNow c) := by
  obtain ⟨hstarted, hwork, hheld⟩ := hr
  simp [State.atWork, onUnit, hq, h, hstarted, hwork, hheld, ho, hs, hop]

theorem work_runs (hs : c.stop = 0) : onUnit (decide (q < 4096)) (s.atWork q seq op f) = .next (f c) := by
  obtain ⟨hstarted, hwork, hheld⟩ := hr
  simp [State.atWork, onUnit, hq, h, hstarted, hwork, hheld, ho, hs]

end

/-! ### A command after a change of it -/

theorem State.cmdsOf_updCmd (s : State) (q seq : Nat) (f : Cmd → Cmd) :
    (s.updCmd q seq f).cmdsOf q = (s.cmdsOf q).map (fun c => if c.seq = seq then f c else c) := by
  simp [State.cmdsOf, State.updCmd, Tab.upd]

/-- The command changed is found again under its number, which the change leaves. -/
theorem State.cmd?_updCmd (s : State) (q seq : Nat) {f : Cmd → Cmd} (hf : ∀ c, (f c).seq = c.seq) :
    (s.updCmd q seq f).cmd? q seq = (s.cmd? q seq).map f := by
  have hseq : ∀ c, ((if c.seq = seq then f c else c).seq = seq) = (c.seq = seq) := by
    intro c
    split <;> simp [hf]
  rw [State.cmd?, State.cmdsOf_updCmd, List.find?_map, State.cmd?]
  simp only [Function.comp_def, hseq]
  cases e : (s.cmdsOf q).find? (fun c => decide (c.seq = seq)) with
  | none => rfl
  | some c =>
    have hc : c.seq = seq := by simpa using List.find?_some e
    simp [hc]

/-- Marking a command as issued. -/
abbrev State.issue (s : State) (q seq : Nat) : State := s.updCmd q seq (fun c => { c with issued := true })

theorem State.cmd?_issue {s : State} {q seq : Nat} {c : Cmd} (h : s.cmd? q seq = some c) :
    (s.issue q seq).cmd? q seq = some { c with issued := true } := by
  refine (State.cmd?_updCmd s q seq (f := fun c => { c with issued := true }) (fun _ => rfl)).trans ?_
  rw [h]
  rfl

/-! ### Movers of data (R204) -/

/-- What follows a mover's writes: the command is marked written, and ends once no request of it is open. -/
def State.sent (s : State) (c : Cmd) : State :=
  let v := s.updCmd c.q c.seq (fun c => { c with written := true })
  if (v.reqsOf c.q c.seq).isEmpty then v.cmdDone c.q c.seq 0 else v

/-- With its sources in device memory a mover not yet written writes at once. -/
theorem State.mover_device {s : State} {c : Cmd} {srcs : List (Range × Nat)} {f : State → State} (hr : c.retrans = false)
    (hw : c.written = false) (hs : awaited srcs = 0) : s.mover c srcs f = (f s).sent c := by
  simp only [State.mover, State.sent, hr, hw, hs]
  simp

theorem awaited_device {r : Range} (h : r.loc = 0) (n : Nat) : awaited [(r, n)] = 0 := by
  simp [awaited, h]

theorem State.source_device {s u : State} {c : Cmd} {r : Range} {n base : Nat} {b : Bytes} (hl : r.loc = 0) (hn : 0 < n)
    (hd : s.devRead r.key r.addr n = (u, .inr b)) : s.source c r n base = (u, some b) := by
  simp only [State.source, if_neg (Nat.ne_of_gt hn), if_pos hl, hd]

theorem getD_leBytes {k i : Nat} (hi : i < k) (n : Nat) : (leBytes k n).getD i 0 = BitVec.ofNat 8 (n / 256 ^ i) := by
  induction k generalizing i n with
  | zero => omega
  | succ k ih =>
    cases i with
    | zero => simp [leBytes]
    | succ i =>
      rw [leBytes, List.getD_cons_succ, ih (by omega), Nat.div_div_eq_div_mul, Nat.pow_succ']

@[simp] theorem length_patternBytes (p n : Nat) : (patternBytes p n).length = n := by
  simp [patternBytes]

/-- The pattern is repeated byte by byte. -/
theorem getD_patternBytes {i n : Nat} (hi : i < n) (p : Nat) : (patternBytes p n).getD i 0 = BitVec.ofNat 8 (p / 256 ^ (i % 8)) := by
  rw [← getD_leBytes (Nat.mod_lt i (by decide))]
  simp [patternBytes, hi]

/-! ### Waits on fences (R206, R211) -/

section
variable {s : State} {f w : Nat}

theorem State.fenceWait_eq_some_false_iff : s.fenceWait f w = some false ↔ ¬ w ≤ s.rd64 (fenValue f) ∧ s.fenBroken f = true := by
  unfold State.fenceWait
  split
  next hv => simp [hv]
  next hv => simp [hv]

theorem State.fenceWait_eq_none_iff : s.fenceWait f w = none ↔
    ¬ w ≤ s.rd64 (fenValue f) ∧ ¬ (¬ w ≤ s.rd64 (fenValue f) ∧ s.fenBroken f = true) := by
  unfold State.fenceWait
  split
  next hv => simp [hv]
  next hv => simp [hv]

end

/-- A bit of a mask stands for its position in the list. -/
theorem bitOf_maskOfList (l : List Nat) (i : Nat) : bitOf (maskOfList l) i = true ↔ i ∈ l := by
  have fold (m : Nat) : (l.foldl (fun m i => m ||| 2 ^ i) m).testBit i = true ↔ m.testBit i = true ∨ i ∈ l := by
    induction l generalizing m with
    | nil => simp
    | cons a l ih =>
      rw [List.foldl_cons, ih, Nat.testBit_or, Nat.testBit_two_pow, List.mem_cons]
      simp only [Bool.or_eq_true, decide_eq_true_eq, or_assoc, eq_comm (a := a)]
  rw [bitOf, maskOfList, fold]
  simp

/-- The positions of the entries of a WAIT whose fence has failed, as a mask. -/
def State.failedMask (s : State) (es : List (Nat × Nat)) : Nat :=
  maskOfList ((List.range es.length).filter (fun i => (es.map (fun e => s.fenceWait e.1 e.2)).getD i none == some false))

theorem State.bitOf_failedMask {s : State} {es : List (Nat × Nat)} {i : Nat} (hi : i < es.length) :
    bitOf (s.failedMask es) i = true ↔ s.fenceWait (es.getD i (0, 0)).1 (es.getD i (0, 0)).2 = some false := by
  rw [State.failedMask, bitOf_maskOfList]
  simp [hi]

theorem State.failedMask_eq_zero {s : State} {es : List (Nat × Nat)} (h : ∀ e ∈ es, s.fenceWait e.1 e.2 ≠ some false) :
    s.failedMask es = 0 := by
  have hnil : (List.range es.length).filter (fun i => (es.map (fun e => s.fenceWait e.1 e.2)).getD i none == some false) = [] := by
    refine List.filter_eq_nil_iff.mpr (fun i hi => ?_)
    have hi : i < es.length := List.mem_range.mp hi
    simpa [hi] using h _ (List.getElem_mem hi)
  rw [State.failedMask, hnil]
  rfl

/-- What a running WAIT does: the first failed fence breaks it, unless it runs on; else it ends when no fence is open. -/
def State.waitStep (s : State) (q seq : Nat) (c : Cmd) : State :=
  match (waitEntries c.desc).find? (fun e => s.fenceWait e.1 e.2 == some false), dRunOnBroken c.desc with
  | some e, false => s.breakCmd q seq codePredecessorBroken 4 q (s.fenceRoot e.1)
  | _, _ => if none ∈ (waitEntries c.desc).map (fun e => s.fenceWait e.1 e.2) then s else s.cmdDone q seq (s.failedMask (waitEntries c.desc))

section
variable {s : State} {q seq : Nat} {c : Cmd}

/-- Nothing breaks the WAIT: it runs on, or no fence has failed. -/
theorem State.waitStep_unbroken (h : dRunOnBroken c.desc = true ∨ ∀ e ∈ waitEntries c.desc, s.fenceWait e.1 e.2 ≠ some false) :
    s.waitStep q seq c = if none ∈ (waitEntries c.desc).map (fun e => s.fenceWait e.1 e.2) then s
      else s.cmdDone q seq (s.failedMask (waitEntries c.desc)) := by
  unfold State.waitStep
  split
  next e he hr =>
    obtain hrun | hnone := h
    · rw [hr] at hrun
      cases hrun
    · exact absurd (by simpa using List.find?_some he) (hnone e (List.mem_of_find?_eq_some he))
  next => rfl

theorem State.waitStep_open (h : dRunOnBroken c.desc = true ∨ ∀ e ∈ waitEntries c.desc, s.fenceWait e.1 e.2 ≠ some false)
    {e : Nat × Nat} (he : e ∈ waitEntries c.desc) (hn : s.fenceWait e.1 e.2 = none) : s.waitStep q seq c = s := by
  rw [State.waitStep_unbroken h, if_pos (List.mem_map.mpr ⟨e, he, hn⟩)]

theorem State.waitStep_done (h : dRunOnBroken c.desc = true ∨ ∀ e ∈ waitEntries c.desc, s.fenceWait e.1 e.2 ≠ some false)
    (hn : ∀ e ∈ waitEntries c.desc, s.fenceWait e.1 e.2 ≠ none) :
    s.waitStep q seq c = s.cmdDone q seq (s.failedMask (waitEntries c.desc)) := by
  rw [State.waitStep_unbroken h, if_neg]
  rintro hmem
  obtain ⟨e, he, hnone⟩ := List.mem_map.mp hmem
  exact hn e he hnone

theorem State.waitStep_breaks {a b : List (Nat × Nat)} {e : Nat × Nat} (hes : waitEntries c.desc = a ++ e :: b)
    (ha : ∀ g ∈ a, s.fenceWait g.1 g.2 ≠ some false) (he : s.fenceWait e.1 e.2 = some false) (hr : dRunOnBroken c.desc = false) :
    s.waitStep q seq c = s.breakCmd q seq codePredecessorBroken 4 q (s.fenceRoot e.1) := by
  have hfind : (waitEntries c.desc).find? (fun e => s.fenceWait e.1 e.2 == some false) = some e := by
    rw [hes, List.find?_append, List.find?_eq_none.mpr (by simpa using ha)]
    simp [he]
  simp only [State.waitStep, hfind, hr]

end

/-! ### What each opcode's row does -/

section
variable {s u : State} {q seq slot n : Nat} {c d : Cmd} {b : Bytes} {sf df : Fmt}
variable (hq : q < 4096) (h : s.cmd? q seq = some c) (hr : c.running) (hs : c.stop = 0)
include hq h hr hs

theorem exec_nop_running (ho : dOp c.desc = 0) : exec (.nop q seq) s = .next (s.cmdDone c.q c.seq 0) := work_runs hq h hr ho hs

theorem exec_event_running (ho : dOp c.desc = 9) : exec (.event q seq) s =
    .next ((s.event (s.queEvq q) 0x08 (s.ownerOf (quePg q)) (sliceBytes c.desc 0x20 16)).cmdDone q seq 0) :=
  work_runs hq h hr ho hs

theorem exec_signal_local (ho : dOp c.desc = 6) (hl : dSlot c.desc = none) : exec (.signal q seq) s = .next (s.cmdDone q seq 0) := by
  refine (work_runs hq h hr ho hs).trans ?_
  rw [hl]

theorem exec_signal_remote (ho : dOp c.desc = 6) (hl : dSlot c.desc = some slot) : exec (.signal q seq) s =
    .next (if c.issued then
        (if (s.reqsOf q seq).isEmpty && !(s.atRoute (leAt c.desc 0x22 2 % 4096)).hold then s.cmdDone q seq 0 else s)
      else (s.issue q seq).sendReq c slot (leAt c.desc 0x22 2 % 4096)
        { op := 6, addr := leAt c.desc 0x24 2, payload := leBytes 8 (leAt c.desc 0x28 8) ++ leBytes 8 0 }) := by
  refine (work_runs hq h hr ho hs).trans ?_
  rw [hl]

theorem exec_wait_running (ho : dOp c.desc = 5) : exec (.wait q seq) s = .next (s.waitStep q seq c) := by
  refine (work_runs hq h hr ho hs).trans (congrArg _ ?_)
  have hzip : (waitEntries c.desc).zip ((waitEntries c.desc).map (fun e => s.fenceWait e.1 e.2)) =
      (waitEntries c.desc).map (fun e => (e, s.fenceWait e.1 e.2)) := List.map_prod_left_eq_zip.symm
  simp only [State.waitStep, State.failedMask, hzip, List.find?_map, Function.comp_def, List.length_map, List.contains_iff_mem]
  cases (waitEntries c.desc).find? (fun e => s.fenceWait e.1 e.2 == some false) <;> cases dRunOnBroken c.desc <;> rfl

theorem exec_fill_running (ho : dOp c.desc = 3) (ht : c.retrans = false) (hw : c.written = false) : exec (.fill q seq) s =
    .next ((s.rangeWrite c (c.ranges.getD 0 {}) 0 (patternBytes (leAt c.desc 0x30 8) (leAt c.desc 0x28 8))).sent c) :=
  (work_runs hq h hr ho hs).trans (congrArg _ (State.mover_device ht hw rfl))

theorem exec_copy_device (ho : dOp c.desc = 2) (ht : c.retrans = false) (hw : c.written = false) (hl : (c.ranges.getD 0 {}).loc = 0)
    (hn : 0 < leAt c.desc 0x30 8) (hd : s.devRead (c.ranges.getD 0 {}).key (c.ranges.getD 0 {}).addr (leAt c.desc 0x30 8) = (u, .inr b)) :
    exec (.copy q seq) s = .next ((u.rangeWrite c (c.ranges.getD 1 {}) 0 b).sent c) := by
  refine (work_runs hq h hr ho hs).trans (congrArg _ ((State.mover_device ht hw (awaited_device hl _)).trans ?_))
  rw [State.source_device hl hn hd]

/-- With `out` the converted elements, their scales and the warnings. -/
theorem exec_convert_device {out : Bytes × Bytes × Nat} (ho : dOp c.desc = 4) (ht : c.retrans = false) (hw : c.written = false)
    (hl : (c.ranges.getD 0 {}).loc = 0) (hsf : fmtOf (leAt c.desc 0x38 1) = some sf) (hdf : fmtOf (leAt c.desc 0x39 1) = some df)
    (hb : sf.isBlock = false) (ha : sf ≠ .acc) (hlen : leAt c.desc 0x30 8 = n) (hn : 0 < sf.arrayBytes n)
    (hd : s.devRead (c.ranges.getD 0 {}).key (c.ranges.getD 0 {}).addr (sf.arrayBytes n) = (u, .inr b))
    (hout : out = df.convert ((List.range n).map (fun k => roundingOf c.acw c.seed (dTweak c.desc) 0 (k / 4096) (k % 4096)))
      ((List.range n).map (fun k => (sf.number (sf.element b k) 0).asRead))) :
    exec (.convert q seq) s = .next (((if df.isBlock then
      (u.rangeWrite c (c.ranges.getD 1 {}) 0 out.1).rangeWrite c (c.ranges.getD 2 {}) 0 out.2.1
      else u.rangeWrite c (c.ranges.getD 1 {}) 0 out.1).updCmd q seq (fun c => { c with warn := c.warn ||| out.2.2 })).sent c) := by
  subst hlen hout
  refine (work_runs hq h hr ho hs).trans ?_
  simp only [hsf, hdf, hb, Bool.false_eq_true, if_false, List.append_nil]
  rw [State.mover_device ht hw (awaited_device hl _), State.source_device hl hn hd]
  simp only [ha, if_false]
  rfl

section
variable (ho : dOp c.desc = 1) (hi : c.issued = false) (hb : c.boundary = false)
include ho hi hb

theorem exec_compute_alone (hl : dSlot c.desc = none) : exec (.compute q seq) s = .next ((s.issue q seq).openPhase c) := by
  refine (work_runs hq h hr ho hs).trans ?_
  simp [hi, hb, hs, hl]

/-- One that comes back to its replay point sends no check again. -/
theorem exec_compute_again (hl : dSlot c.desc = some slot) (hp : c.spr ≠ {}) :
    exec (.compute q seq) s = .next ((s.issue q seq).openPhase { c with issued := true }) := by
  have ⟨_, hwork, _⟩ := hr
  refine (work_runs hq h hr ho hs).trans ?_
  simp [hi, hb, hs, hl, hp, hwork, State.cmd?_issue h]

theorem exec_compute_first (hl : dSlot c.desc = some slot) (hp : c.spr = {})
    (hu : u = ((s.issue q seq).castColl c.part slot ((s.issue q seq).checkTxn c slot)).checksHeld c slot) (hd : u.cmd? q seq = some d) :
    exec (.compute q seq) s = .next (if d.work then u else u.openPhase d) := by
  subst hu
  refine (work_runs hq h hr ho hs).trans ?_
  simp [hi, hb, hs, hl, hp, hd]

end
end

/-! ### The obligation -/

/-- Settles O22, by what each opcode's row does. -/
theorem workOfQueueCommands : Obligations.WorkOfQueueCommands := by
  intro s q seq c hq h rows runs fresh ends src dst
  refine ⟨fun e he hn => ?stays, fun e he hop hr ho hs => ?stops, fun hr hs => ?works⟩
  case stays =>
    obtain ⟨f, hf⟩ := exec_workRow he s
    exact hf.trans (work_stays hq h hn)
  case stops =>
    obtain ⟨f, hf⟩ := exec_workRow he s
    exact hf.trans (work_stops hq h hr ho hop hs)
  case works =>
    refine ⟨exec_nop_running hq h hr hs, exec_event_running hq h hr hs, exec_signal_local hq h hr hs, fun slot ho hl hi => ?signal,
      fun slot ho hl hi hreq hhold => ?answered, fun ho => ?wait, fun ho ⟨ht, hw⟩ => ?fill,
      fun u b ho ⟨ht, hw⟩ hl hn hd => exec_copy_device hq h hr hs ho ht hw hl hn hd,
      fun sf df u b ho ⟨ht, hw⟩ hl hsf hdf hb ha hn hd =>
        exec_convert_device hq h hr hs ho ht hw hl hsf hdf hb ha rfl hn hd rfl,
      exec_compute_alone hq h hr hs, fun slot ho hi hb hl hp d hd => ?again, fun slot ho hi hb hl hp d hd => ?first⟩
    case signal => simpa [hi] using exec_signal_remote hq h hr hs ho hl
    case answered => simpa [hi, hreq, hhold] using exec_signal_remote hq h hr hs ho hl
    case fill =>
      exact ⟨_, exec_fill_running hq h hr hs ho ht hw, length_patternBytes _ _, fun i hi => getD_patternBytes hi _⟩
    case again =>
      obtain rfl : { c with issued := true } = d := Option.some.inj ((State.cmd?_issue h).symm.trans hd)
      exact exec_compute_again hq h hr hs ho hi hb hl hp
    case first =>
      have hx := exec_compute_first hq h hr hs ho hi hb hl hp rfl hd
      exact ⟨fun hw => by rw [hx, if_pos hw], fun hw => by rw [hx, if_neg (by simp [hw])]⟩
    case wait =>
      intro es reached failed
      have hx := exec_wait_running hq h hr hs ho
      have hfail (e : Nat × Nat) : s.fenceWait e.1 e.2 = some false ↔ failed e := State.fenceWait_eq_some_false_iff
      have hopen (e : Nat × Nat) : s.fenceWait e.1 e.2 = none ↔ ¬ reached e ∧ ¬ failed e := State.fenceWait_eq_none_iff
      refine ⟨fun hall => ?_, fun ⟨e, he, hn⟩ hnone => ?_, fun a e b hes ha he hrun => ?_, fun hrun hall =>
        ⟨s.failedMask es, ?_, fun i hi => ?_⟩⟩
      · have hnf : ∀ e ∈ es, s.fenceWait e.1 e.2 ≠ some false := fun e he hf => ((hfail e).mp hf).1 (hall e he)
        rw [hx, State.waitStep_done (.inr hnf) (fun e he hn => ((hopen e).mp hn).1 (hall e he)), State.failedMask_eq_zero hnf]
      · rw [hx, State.waitStep_open (.inr (fun g hg hf => hnone g hg ((hfail g).mp hf))) he ((hopen e).mpr hn)]
      · rw [hx, State.waitStep_breaks hes (fun g hg hf => ha g hg ((hfail g).mp hf)) ((hfail e).mpr he) hrun]
      · rw [hx, State.waitStep_done (.inl hrun) (fun e he hn => ?_)]
        obtain ⟨hnr, hnf⟩ := (hopen e).mp hn
        exact (hall e he).elim hnr hnf
      · exact (State.bitOf_failedMask hi).trans (hfail _)

end Sys2Proof.Machine
end

section
/-! SUPPORT. States that differ in registers only, and what a counter pair reads after it advances. -/

namespace Sys2Proof.Machine

open Sys2Proof

variable {s t u : State} {α : Type}

/-! ### Operations that change registers only -/

/-- `t` is `s` but for its registers. -/
def State.OnlyRegs (s t : State) : Prop := t = { s with regs := t.regs }

theorem State.OnlyRegs.refl (s : State) : s.OnlyRegs s := rfl

theorem State.OnlyRegs.wr (s : State) (a v : Nat) : s.OnlyRegs (s.wr a v) := rfl

theorem State.OnlyRegs.set (s : State) (pg : Nat) (f : F) (v : Nat) : s.OnlyRegs (s.set pg f v) := .wr ..

theorem State.OnlyRegs.trans (h : s.OnlyRegs t) (h' : t.OnlyRegs u) : s.OnlyRegs u := by
  unfold State.OnlyRegs at h h' ⊢
  rw [h', h]

theorem State.OnlyRegs.bump64 (s : State) (a n : Nat) : s.OnlyRegs (s.bump64 a n) := .trans (.wr ..) (.wr ..)

theorem State.OnlyRegs.ite {c : Prop} {_ : Decidable c} (ht : s.OnlyRegs t) (hu : s.OnlyRegs u) : s.OnlyRegs (if c then t else u) := by
  split
  · exact ht
  · exact hu

theorem State.OnlyRegs.foldl {f : State → α → State} (hf : ∀ (s : State) a, s.OnlyRegs (f s a)) (l : List α) (s : State) : s.OnlyRegs (l.foldl f s) := by
  induction l generalizing s with
  | nil => exact .refl s
  | cons a l ih => exact (hf s a).trans (ih _)

/-- Whatever does not depend on the registers is the same. -/
theorem State.OnlyRegs.field (h : s.OnlyRegs t) (f : State → α) (hf : f { s with regs := t.regs } = f s := by rfl) : f t = f s :=
  (congrArg f h).trans hf

theorem State.OnlyRegs.sameBytes (h : s.OnlyRegs t) : s.sameBytes t := by
  have hm : t.mem = s.mem := h.field State.mem
  have hp : t.spad = s.spad := h.field State.spad
  have hs : t.share = s.share := h.field State.share
  exact ⟨fun _ => by rw [hm], fun _ => by rw [hp], fun _ => by rw [hs]⟩

/-! ### Counter pairs -/

theorem State.rd_bump64_ne (s : State) {a n b : Nat} (h : b ≠ a) (h' : b ≠ a + 4) : (s.bump64 a n).rd b = s.rd b :=
  (State.rd_wr_ne _ _ _ h').trans (State.rd_wr_ne _ _ _ h)

/-- Two pairs whose words read alike read alike. -/
theorem State.rd64_congr {a : Nat} (hl : t.rd a = s.rd a) (hh : t.rd (a + 4) = s.rd (a + 4)) : t.rd64 a = s.rd64 a := by
  rw [State.rd64, State.rd64, hl, hh]

theorem State.rd64_bump64_ne (s : State) {a n b : Nat} (h : b + 4 < a ∨ a + 4 < b) : (s.bump64 a n).rd64 b = s.rd64 b :=
  State.rd64_congr (State.rd_bump64_ne _ (by omega) (by omega)) (State.rd_bump64_ne _ (by omega) (by omega))

theorem State.rd64_wr_ne (s : State) {a v b : Nat} (h : b ≠ a ∧ b + 4 ≠ a) : (s.wr a v).rd64 b = s.rd64 b :=
  State.rd64_congr (State.rd_wr_ne _ _ _ h.1) (State.rd_wr_ne _ _ _ h.2)

/-- A counter pair advances modulo 2^64. -/
theorem State.rd64_bump64_self (s : State) (a n : Nat) : (s.bump64 a n).rd64 a = (s.rd64 a + n) % 2 ^ 64 := by
  have low : (s.bump64 a n).rd a = (s.rd64 a + n) % 2 ^ 64 % 2 ^ 32 :=
    (State.rd_wr_ne _ _ _ (Nat.ne_of_lt (Nat.lt_add_of_pos_right (by decide)))).trans (State.rd_wr_self ..)
  have high : (s.bump64 a n).rd (a + 4) = (s.rd64 a + n) % 2 ^ 64 / 2 ^ 32 % 2 ^ 32 := State.rd_wr_self ..
  rw [State.rd64, low, high]
  omega

end Sys2Proof.Machine
end

section
/-! SUPPORT. Power, droops and the epoch: what the four commands do. -/

namespace Sys2Proof.Machine

open Sys2Proof

variable {s t u : State}

/-! ### Event records leave the registers below the event queues' pages -/

/-- No register below the event queues' pages differs. -/
structure State.SameBelowEvq (s t : State) : Prop where
  rd_eq : ∀ a < Pg.base .evq 0, t.rd a = s.rd a

theorem State.SameBelowEvq.trans (h : s.SameBelowEvq t) (h' : t.SameBelowEvq u) : s.SameBelowEvq u :=
  ⟨fun a ha => (h'.rd_eq a ha).trans (h.rd_eq a ha)⟩

theorem State.SameBelowEvq.wr (s : State) {b : Nat} (v : Nat) (h : Pg.base .evq 0 ≤ b) : s.SameBelowEvq (s.wr b v) :=
  ⟨fun _ ha => State.rd_wr_ne _ _ _ (by omega)⟩

theorem State.SameBelowEvq.of_regs (h : t.regs = s.regs) : s.SameBelowEvq t := ⟨fun a _ => by rw [State.rd, State.rd, h]⟩

theorem State.SameBelowEvq.of_regs_left (h : t.SameBelowEvq u) (hr : t.regs = s.regs) : s.SameBelowEvq u := (of_regs hr).trans h

theorem State.SameBelowEvq.ite {c : Prop} {_ : Decidable c} (ht : s.SameBelowEvq t) (hu : s.SameBelowEvq u) :
    s.SameBelowEvq (if c then t else u) := by
  split
  · exact ht
  · exact hu

theorem evq_le_evqPg (e o : Nat) : Pg.base .evq 0 ≤ evqPg e + o := by
  show 0x3800000 + 0x1000 * 0 ≤ 0x3800000 + 0x1000 * e + o
  omega

theorem evq_le_dlogPg (fn o : Nat) : Pg.base .evq 0 ≤ dlogPg fn + o := by
  show 0x3800000 + 0x1000 * 0 ≤ 0x4000000 + 0x400 * fn + o
  omega

theorem State.markHostPage_sameBelowEvq (s : State) (fn page : Nat) : s.SameBelowEvq (s.markHostPage fn page) := by
  unfold State.markHostPage
  refine .ite (.wr _ _ (evq_le_dlogPg ..)) ?_
  cases hw : Tab.get none s.dlogWords (dlogKey fn (s.get (dlogPg fn) PCI_DLOG_CTL_ACTIVE)
    ((page - s.rd64 (dlogPg fn + PCI_DLOG_IOVA) / 4096) / 64)) <;> simp only [hw] <;> exact .of_regs rfl

theorem State.hostStore_sameBelowEvq (s : State) (fn addr : Nat) (data : Bytes) : s.SameBelowEvq (s.hostStore fn addr data) := by
  have pages (l : List Nat) (t : State) : t.SameBelowEvq (l.foldl (fun a p => a.markHostPage fn p) t) := by
    induction l generalizing t with
    | nil => exact .of_regs rfl
    | cons p l ih => exact (t.markHostPage_sameBelowEvq fn p).trans (ih _)
  exact .ite (.of_regs rfl) ((State.SameBelowEvq.ite (pages _ s) (.of_regs rfl)).trans (.of_regs rfl))

theorem State.message_sameBelowEvq (s : State) (fn v holdoff : Nat) : s.SameBelowEvq (s.message fn v holdoff) :=
  .ite (.of_regs rfl) (.ite (.of_regs rfl) (.ite (.of_regs rfl) (.of_regs rfl)))

theorem State.evqWrite_sameBelowEvq (s : State) (e typ fn : Nat) (payload : Bytes) : s.SameBelowEvq (s.evqWrite e typ fn payload) :=
  ((s.hostStore_sameBelowEvq ..).trans (.wr _ _ (evq_le_evqPg ..))).trans (State.message_sameBelowEvq ..)

theorem State.event_sameBelowEvq (s : State) (e typ fn : Nat) (payload : Bytes) : s.SameBelowEvq (s.event e typ fn payload) := by
  have caughtUp : s.SameBelowEvq (s.evqCatchUp e) := .ite (.of_regs rfl) ((State.evqWrite_sameBelowEvq ..).of_regs_left rfl)
  exact .ite (.of_regs rfl) (caughtUp.trans
    (.ite (.trans (.wr _ _ (evq_le_evqPg ..)) (.of_regs rfl)) (State.evqWrite_sameBelowEvq ..)))

/-! ### The power model's divergence (R358) -/

theorem exec_powerModelDivergence_stays (h : s.power.divEpochs < 8 ∨ s.power.bad = true ∨ s.on pwrPg PWR_STAT_DIVERGE = true) :
    exec .powerModelDivergence s = .next s := congrArg Host.Outcome.next (if_pos h)

theorem exec_powerModelDivergence_reports (h8 : 8 ≤ s.power.divEpochs) (hb : s.power.bad = false) (hd : s.on pwrPg PWR_STAT_DIVERGE = false) :
    exec .powerModelDivergence s =
      (let u := ((s.set pwrPg PWR_STAT_DIVERGE 1).alarm 5).bumpF pwrPg PWR_EVT_CNT_DIVERGE 1
       .next (u.event0 0x10 (leBytes 2 (u.get pwrPg PWR_NOW_MEAS) ++ leBytes 2 u.estimate ++ leBytes 2 (u.get pwrPg PWR_EST_SCALE_K)))) := by
  have reports : ¬ (s.power.divEpochs < 8 ∨ s.power.bad = true ∨ s.on pwrPg PWR_STAT_DIVERGE = true) := by
    simp only [hb, hd, Bool.false_eq_true, or_false]
    omega
  exact congrArg Host.Outcome.next (if_neg reports)

/-! ### The straggler response (R375) -/

theorem exec_stragglerShift_on (h : s.on pwrPg PWR_STAT_STRAG_SHIFT = true) :
    exec .stragglerShift s = .next (if 24 ≤ s.power.stragQuiet then s.stragglerState false else s) := congrArg Host.Outcome.next (if_pos h)

theorem exec_stragglerShift_off (h : s.on pwrPg PWR_STAT_STRAG_SHIFT = false) :
    exec .stragglerShift s = .next (if s.stragglerStarts = true then s.stragglerState true else s) :=
  congrArg Host.Outcome.next (if_neg (ne_true_of_eq_false h))

/-- STRAG_SHIFT shows whether the response is on when the bulk limits follow it. -/
theorem State.stragglerState_shows (s : State) (b : Bool) : ∃ v : State, s.stragglerState b = v.setBulk ∧ v.on pwrPg PWR_STAT_STRAG_SHIFT = b := by
  refine ⟨_, rfl, ?_⟩
  have event {t : State} {typ : Nat} {p : Bytes} : (t.event0 typ p).on pwrPg PWR_STAT_STRAG_SHIFT = t.on pwrPg PWR_STAT_STRAG_SHIFT := by
    rw [State.on, State.get, State.event0, (t.event_sameBelowEvq ..).rd_eq _ (by decide), State.on, State.get]
  have marked : (s.mark pwrPg PWR_STAT_STRAG_SHIFT b).on pwrPg PWR_STAT_STRAG_SHIFT = b := by
    rw [State.on, State.mark, State.get_set_self _ _ _ _ (by decide) (by decide)]
    cases b <;> rfl
  cases b with
  | false => exact event.trans marked
  | true => exact event.trans ((congrArg (· != 0) (State.get_set_ne _ _ _ _ (by decide))).trans marked)

/-! ### Supply droops (R85, R87) -/

/-- An island's counters after `n` cycles in its present band. -/
def State.droopCycles (s : State) (isl n : Nat) : State :=
  let t := s.bump64 (islPg isl + ISL_CYC_CNT) n
  let t := if Tab.get 0 s.droop isl = 0 then t else t.bump64 (islPg isl + ISL_STRETCH_CNT) n
  if Tab.get 0 s.droop isl = 4 ∧ n ≠ 0 then t.set (islPg isl) ISL_STAT_DEEP_DROOP 1 else t

/-- The island after `n` cycles in its present band: its counters, and the deep cycles that the guardband counts. -/
def State.droopRun (s : State) (isl n : Nat) : State :=
  let t := s.droopCycles isl n
  if Tab.get 0 s.droop isl = 4 then { t with power := { t.power with deep := Tab.upd 0 t.power.deep isl (· + n) } } else t

/-- The registers that a droop of the island changes. -/
def droopRegs (isl : Nat) : List Nat := [islPg isl + ISL_CYC_CNT, islPg isl + ISL_CYC_CNT + 4, islPg isl + ISL_STRETCH_CNT,
  islPg isl + ISL_STRETCH_CNT + 4, islPg isl + ISL_STAT_DEEP_DROOP.off]

variable {isl band n : Nat}

theorem exec_supplyDroop (hi : isl < 128) (hb : band ≤ 4) (hh : isl ∉ s.halted) :
    exec (.supplyDroop isl band n) s = .next { s.droopRun isl n with droop := Tab.put 0 isl band (s.droopRun isl n).droop } := by
  have there : (decide (isl < 192) && decide (band ≤ 4)) = true := by simp [hb]; omega
  have cycles : (if s.halted.contains isl = true then 0 else n) = n := if_neg (by simpa using hh)
  show execSupplyDroop isl band n s = _
  simp only [execSupplyDroop, onUnit, there, cycles, if_pos hi, if_true]
  rfl

theorem State.droopCycles_onlyRegs (s : State) (isl n : Nat) : s.OnlyRegs (s.droopCycles isl n) :=
  .ite (.trans (.ite (.bump64 ..) (.trans (.bump64 ..) (.bump64 ..))) (.set ..)) (.ite (.bump64 ..) (.trans (.bump64 ..) (.bump64 ..)))

/-- Every register that no droop of the island changes is as it was. -/
theorem State.rd_droopCycles {a : Nat} (ha : a ∉ droopRegs isl) : (s.droopCycles isl n).rd a = s.rd a := by
  simp only [droopRegs, List.mem_cons, List.not_mem_nil, or_false, not_or] at ha
  obtain ⟨hc, hc', hs, hs', hd⟩ := ha
  have counted : (s.bump64 (islPg isl + ISL_CYC_CNT) n).rd a = s.rd a := State.rd_bump64_ne _ hc hc'
  unfold State.droopCycles
  split <;> split <;> simp [State.rd_set_ne, State.rd_bump64_ne, *]

theorem State.rd64_droopCycles_cyc : (s.droopCycles isl n).rd64 (islPg isl + ISL_CYC_CNT) = (s.rd64 (islPg isl + ISL_CYC_CNT) + n) % 2 ^ 64 := by
  have apart : islPg isl + ISL_CYC_CNT + 4 < islPg isl + ISL_STRETCH_CNT := by simp only [ISL_CYC_CNT, ISL_STRETCH_CNT]; omega
  have deep (t : State) : (t.set (islPg isl) ISL_STAT_DEEP_DROOP 1).rd64 (islPg isl + ISL_CYC_CNT) = t.rd64 (islPg isl + ISL_CYC_CNT) :=
    State.rd64_wr_ne _ (by simp only [ISL_CYC_CNT, ISL_STAT_DEEP_DROOP]; omega)
  have stretch (t : State) : (t.bump64 (islPg isl + ISL_STRETCH_CNT) n).rd64 (islPg isl + ISL_CYC_CNT) = t.rd64 (islPg isl + ISL_CYC_CNT) :=
    State.rd64_bump64_ne _ (.inl apart)
  unfold State.droopCycles
  split <;> split <;> simp only [deep, stretch, State.rd64_bump64_self]

theorem State.rd64_droopCycles_stretch : (s.droopCycles isl n).rd64 (islPg isl + ISL_STRETCH_CNT) =
    if Tab.get 0 s.droop isl = 0 then s.rd64 (islPg isl + ISL_STRETCH_CNT) else (s.rd64 (islPg isl + ISL_STRETCH_CNT) + n) % 2 ^ 64 := by
  have apart : islPg isl + ISL_CYC_CNT + 4 < islPg isl + ISL_STRETCH_CNT := by simp only [ISL_CYC_CNT, ISL_STRETCH_CNT]; omega
  have deep (t : State) : (t.set (islPg isl) ISL_STAT_DEEP_DROOP 1).rd64 (islPg isl + ISL_STRETCH_CNT) = t.rd64 (islPg isl + ISL_STRETCH_CNT) :=
    State.rd64_wr_ne _ (by simp only [ISL_STRETCH_CNT, ISL_STAT_DEEP_DROOP]; omega)
  have cycles : (s.bump64 (islPg isl + ISL_CYC_CNT) n).rd64 (islPg isl + ISL_STRETCH_CNT) = s.rd64 (islPg isl + ISL_STRETCH_CNT) :=
    State.rd64_bump64_ne _ (.inr apart)
  unfold State.droopCycles
  split <;> split <;> simp only [deep, cycles, State.rd64_bump64_self]

theorem State.on_droopCycles_deep (h : Tab.get 0 s.droop isl = 4) (hn : n ≠ 0) : (s.droopCycles isl n).on (islPg isl) ISL_STAT_DEEP_DROOP = true := by
  unfold State.droopCycles
  rw [if_pos ⟨h, hn⟩, State.on, State.get_set_self _ _ _ _ (by decide) (by decide)]
  rfl

theorem State.droopRun_regs : (s.droopRun isl n).regs = (s.droopCycles isl n).regs := by
  unfold State.droopRun
  split <;> rfl

theorem State.droopRun_sameBytes : s.sameBytes (s.droopRun isl n) := by
  unfold State.droopRun
  split
  · exact (s.droopCycles_onlyRegs isl n).sameBytes
  · exact (s.droopCycles_onlyRegs isl n).sameBytes

theorem State.droopRun_deep : Tab.get 0 (s.droopRun isl n).power.deep isl =
    if Tab.get 0 s.droop isl = 4 then Tab.get 0 s.power.deep isl + n else Tab.get 0 s.power.deep isl := by
  have power : (s.droopCycles isl n).power = s.power := (s.droopCycles_onlyRegs isl n).field State.power
  unfold State.droopRun
  split
  · simp [Tab.upd, power]
  · rw [power]

/-! ### The epoch's boundary (R462, R463) -/

/-- The clock, the counts of epochs and of overruns at the boundary that ends an epoch. -/
def State.epochCounted (s : State) (steps : Nat) : State :=
  let u := ({ s with mclk := (s.mclk / 41667 + 1) * 41667, mgmt := { s.mgmt with wdog := s.mgmt.wdog + 1 } }).bump64 (mgmtPg + MGMT_EPOCH) 1
  if steps < 8 then u.bump (mgmtPg + MGMT_EPOCH_OVR) 1 else u

/-- The steps that complete are the first ones. -/
theorem filter_range_eight : ∀ n ≤ 8, (List.range 8).filter (fun i => decide (i < n)) = List.range n := by
  decide

theorem exec_epochBoundary {steps : Nat} (h8 : steps ≤ 8) (h : s.ready = true) : exec (.epochBoundary steps) s =
    .next ((List.range steps).foldl (fun a i => if a.ready then a.epochStep (i + 1) else a) (s.epochCounted steps)) := by
  have up : ¬ s.ready = false := by simp [h]
  show execEpochBoundary steps s = _
  simp only [execEpochBoundary, onUnit, h8, decide_true, if_true, if_neg up, filter_range_eight steps h8]
  rfl

theorem State.epochCounted_mclk (s : State) (steps : Nat) : (s.epochCounted steps).mclk = (s.mclk / 41667 + 1) * 41667 := by
  unfold State.epochCounted
  split <;> rfl

theorem State.epochCounted_epoch (s : State) (steps : Nat) :
    (s.epochCounted steps).rd64 (mgmtPg + MGMT_EPOCH) = (s.rd64 (mgmtPg + MGMT_EPOCH) + 1) % 2 ^ 64 := by
  have overrun (t : State) : (t.bump (mgmtPg + MGMT_EPOCH_OVR) 1).rd64 (mgmtPg + MGMT_EPOCH) = t.rd64 (mgmtPg + MGMT_EPOCH) :=
    State.rd64_wr_ne _ (by decide)
  unfold State.epochCounted
  split
  · exact (overrun _).trans (State.rd64_bump64_self ..)
  · exact State.rd64_bump64_self ..

/-! ### The obligation -/

/-- Settles O43, by what each of the four commands does. -/
theorem divergenceStragglersDroopsEpochs : Obligations.DivergenceStragglersDroopsEpochs := by
  intro s
  refine ⟨exec_powerModelDivergence_reports, exec_powerModelDivergence_stays, fun hon => ⟨fun hq => ?ends, fun hq => ?lasts⟩,
    fun hoff => ⟨fun hs => ?starts, fun hs => ?waits⟩, s.stragglerState_shows, fun isl band n hi hb hh => ?droop, fun steps h8 h => ?epoch⟩
  case ends => rw [exec_stragglerShift_on hon, if_pos hq]
  case lasts => rw [exec_stragglerShift_on hon, if_neg (Nat.not_le.mpr hq)]
  case starts => rw [exec_stragglerShift_off hoff, if_pos hs]
  case waits => rw [exec_stragglerShift_off hoff, if_neg (ne_true_of_eq_false hs)]
  case droop =>
    have regs {a : Nat} : (s.droopRun isl n).rd a = (s.droopCycles isl n).rd a := by rw [State.rd, State.rd, State.droopRun_regs]
    refine ⟨_, exec_supplyDroop hi hb hh, Tab.get_put_self .., (State.rd64_congr regs regs).trans State.rd64_droopCycles_cyc,
      (State.rd64_congr regs regs).trans State.rd64_droopCycles_stretch, fun hold hn => ?_, State.droopRun_deep,
      fun a ha => regs.trans (State.rd_droopCycles ha), State.droopRun_sameBytes⟩
    exact (congrArg (fun w => bitsOf w 0 0 != 0) regs).trans (State.on_droopCycles_deep hold hn)
  case epoch =>
    have clock := s.epochCounted_mclk steps
    have counted := s.epochCounted_epoch steps
    refine ⟨exec_epochBoundary h8 h, ?_, ?_, ?_, counted⟩
    · exact (congrArg (· % 41667) clock).trans (Nat.mul_mod_left ..)
    · exact Nat.lt_of_lt_of_eq (by omega) clock.symm
    · exact clock.le.trans (by omega)


end Sys2Proof.Machine
end

section
/-! SUPPORT. The shared store and its movers: what each of their commands does when its request is at the head and admitted. -/

namespace Sys2Proof.Machine

open Sys2Proof

variable {s t u : State} {core m : Nat}

/-- A command whose units exist answers its next state. -/
theorem onUnit_next {ok : Bool} (h : ok = true) (e : t = u) : onUnit ok t = .next u := (if_pos h).trans (congrArg Host.Outcome.next e)

/-- The command names a core and a mover that exist. -/
theorem mover_there (hc : core < 8) (hm : m < 16) : (decide (core < 8) && decide (m < 16)) = true := by simp [hc, hm]

/-! ### Reads at the shared store (R89-R92, R163, R179) -/

/-- The merge entry that a read joins: an open one of its line, key index and partition. -/
abbrev State.openEntry (s : State) (core loc line key part : Nat) : Option Merge :=
  (s.atCore core).merge.find? (fun e => e.isOpen && e.loc == loc && e.line == line && e.key == key && e.part == part)

section
variable {loc line key part : Nat} {d : LineDest}

theorem State.storeRead_joins {e : Merge} (h : s.openEntry core loc line key part = some e) : s.storeRead core loc line key part d =
    (s.setMerge core ((s.atCore core).merge.set ((s.atCore core).merge.idxOf e)
      { e with dests := e.dests ++ [d], isOpen := decide (e.dests.length + 1 < 32) })).bump64 (shstPg core + SHST_MERGE_CNT) 1 := by
  simp only [State.storeRead, h]

theorem State.storeRead_issues (h : s.openEntry core loc line key part = none) (hl : (s.atCore core).merge.length < 512) :
    s.storeRead core loc line key part d = (s.bump64 (shstPg core + SHST_READ_CNT) 1).setMerge core
      ((s.atCore core).merge ++ [{ loc := loc, line := line, key := key, part := part, dests := [d] }]) := by
  simp only [State.storeRead, h, if_pos hl]

theorem State.storeRead_full (h : s.openEntry core loc line key part = none) (hl : 512 ≤ (s.atCore core).merge.length) :
    s.storeRead core loc line key part d = ((s.bump64 (shstPg core + SHST_READ_CNT) 1).updCore core (fun c => { c with loose := c.loose ++
      [{ loc := loc, line := line, key := key, part := part, dests := [d], isOpen := false }] })).set (shstPg core) SHST_MERGE_STAT_FULL_SEEN 1 := by
  simp only [State.storeRead, h, if_neg (Nat.not_lt.mpr hl)]

end

section
variable {r : LineRead} (hc : core < 8)
include hc

theorem exec_shstReadRequest_share (h1 : r.loc = 1) (ho : s.sliceOwner (r.line / 32768) = some r.part) :
    exec (.shstReadRequest core r) s = .next (s.storeRead core 1 r.line r.key r.part (.cell r.dest)) := by
  refine onUnit_next (decide_eq_true hc) ?_
  simp only [h1, ho, if_true]

theorem exec_shstReadRequest_foreign {q n : Nat} (h1 : r.loc = 1) (ho : s.sliceOwner (r.line / 32768) ≠ some r.part)
    (hr : (s.atSlice (cellSlice core r.dest)).cmd = some (q, n)) :
    exec (.shstReadRequest core r) s = .next (((s.shareDrop core).breakCmd q n codeRights 0 (128 + core)).flushCmd q n) := by
  have runs : ((s.shareDrop core).atSlice (cellSlice core r.dest)).cmd = some (q, n) := hr
  refine onUnit_next (decide_eq_true hc) ?_
  simp only [h1, if_true, if_neg ho, runs]

theorem exec_shstReadRequest_far (h2 : 2 ≤ r.loc) :
    exec (.shstReadRequest core r) s = .next (s.bump64 (shstPg core + SHST_READ_CNT) 1) := by
  refine onUnit_next (decide_eq_true hc) ?_
  rw [if_neg (by omega), if_pos h2]

/-- A read of device memory inside the command's ranges goes by its generation. -/
theorem exec_shstReadRequest_device {p : Place} (h0 : r.loc = 0) (hs : s.cellStrays (cellSlice core r.dest) r = none)
    (hp : s.place (256 * r.line) = some p) : exec (.shstReadRequest core r) s =
      .next (if Tab.get 0 s.gens r.ctx ≠ r.gen then s.errCount (napPg (p.chan / 16)) NAP_STALE_DROP 1
        else s.storeRead core 0 r.line r.key r.part (.cell r.dest)) := by
  refine onUnit_next (decide_eq_true hc) ?_
  simp only [h0, hs, hp]
  rfl

/-- A read of a share of its partition, or of device memory inside its command's ranges and of the live generation, reaches the store. -/
theorem exec_shstReadRequest_taken (h2 : r.loc < 2) (h1 : r.loc = 1 → s.sliceOwner (r.line / 32768) = some r.part)
    (h0 : r.loc = 0 → s.cellStrays (cellSlice core r.dest) r = none ∧ (s.place (256 * r.line)).isSome = true ∧ Tab.get 0 s.gens r.ctx = r.gen) :
    exec (.shstReadRequest core r) s = .next (s.storeRead core r.loc r.line r.key r.part (.cell r.dest)) := by
  obtain e | e : r.loc = 0 ∨ r.loc = 1 := by omega
  · obtain ⟨hs, hp, hg⟩ := h0 e
    obtain ⟨p, hp⟩ := Option.isSome_iff_exists.mp hp
    rw [exec_shstReadRequest_device hc e hs hp, if_neg (not_not.mpr hg), e]
  · rw [exec_shstReadRequest_share hc e (h1 e), e]

end

/-! ### Lines that arrive (R90, R94) -/

section
variable {loc line key part : Nat} (hc : core < 8)

/-- The outstanding read of an arriving line in a list of entries. -/
abbrev arriving (loc line key part : Nat) (l : List Merge) : Option Merge :=
  l.find? (fun e => e.loc == loc && e.line == line && e.key == key && e.part == part)

/-- The store without an entry of its merge table, whose line has arrived. -/
def State.landMerged (s : State) (core : Nat) (e : Merge) : State := (s.beat 1 core).setMerge core ((s.atCore core).merge.erase e)

/-- The same of a read that stands beside the merge table. -/
def State.landLoose (s : State) (core : Nat) (e : Merge) : State :=
  (s.landMerged core e).updCore core (fun c => { c with loose := c.loose.erase e })

/-- The line goes to every destination of its entry: down the broadcast tree to several, by the island port to one. -/
def State.landTo (s : State) (core : Nat) (e : Merge) (b : Bytes) : State :=
  e.dests.foldl (fun a d => a.deliverLine core (if 1 < e.dests.length then 1 else 2) b d) s

include hc

theorem exec_shstLineArrive_unasked (hm : arriving loc line key part (s.atCore core).merge = none)
    (hl : arriving loc line key part (s.atCore core).loose = none) : exec (.shstLineArrive core ⟨loc, line, 0⟩ key part) s = .next s := by
  refine onUnit_next (decide_eq_true hc) ?_
  simp only [hm, hl]

theorem exec_shstLineArrive_merged {e : Merge} (he : arriving loc line key part (s.atCore core).merge = some e) :
    (loc = 1 → exec (.shstLineArrive core ⟨loc, line, 0⟩ key part) s =
      .next ((s.landMerged core e).landTo core e ((s.landMerged core e).shareRead (line / 32768) (line % 32768) 1))) ∧
    ∀ u b, loc ≠ 1 → (s.landMerged core e).devRead key (line * 256) 256 = (u, .inr b) →
      exec (.shstLineArrive core ⟨loc, line, 0⟩ key part) s = .next (u.landTo core e b) := by
  refine ⟨fun h1 => ?_, fun u b h1 hb => ?_⟩ <;> refine onUnit_next (decide_eq_true hc) ?_
  · subst h1
    simp only [he]
    rfl
  · rw [State.landMerged] at hb
    simp only [he, if_neg h1, Option.isSome_some, if_true, Option.orElse_some, Option.getD_some, hb]
    rfl

theorem exec_shstLineArrive_loose {e : Merge} (hm : arriving loc line key part (s.atCore core).merge = none)
    (he : arriving loc line key part (s.atCore core).loose = some e) :
    (loc = 1 → exec (.shstLineArrive core ⟨loc, line, 0⟩ key part) s =
      .next ((s.landLoose core e).landTo core e ((s.landLoose core e).shareRead (line / 32768) (line % 32768) 1))) ∧
    ∀ u b, loc ≠ 1 → (s.landLoose core e).devRead key (line * 256) 256 = (u, .inr b) →
      exec (.shstLineArrive core ⟨loc, line, 0⟩ key part) s = .next (u.landTo core e b) := by
  refine ⟨fun h1 => ?_, fun u b h1 hb => ?_⟩ <;> refine onUnit_next (decide_eq_true hc) ?_
  · subst h1
    simp only [hm, he]
    rfl
  · rw [State.landLoose, State.landMerged] at hb
    simp only [hm, he, if_neg h1, Option.isSome_none, Bool.false_eq_true, if_false, Option.orElse_none, Option.getD_some, hb]
    rfl

end

/-! ### Admission of a mover's request (R89, R96, R163, R179) -/

theorem State.moverAdmit_passes {r : MoverReq} {memory : Bool} {c : Cmd} (hr : s.cmd? r.q r.seq = some c) (ho : s.sliceOwner r.share = some c.part)
    (hm : memory = true → ((c.ranges.getD r.range {}).loc = 0 → Tab.get 0 s.gens r.ctx = r.gen) ∧
      r.addr + 256 * r.lines ≤ (c.ranges.getD r.range {}).len) :
    s.moverAdmit core m r memory = (s, some (c, c.ranges.getD r.range {})) := by
  have live : ¬ (memory = true ∧ (c.ranges.getD r.range {}).loc = 0 ∧ Tab.get 0 s.gens r.ctx ≠ r.gen) := fun ⟨h, h0, hg⟩ => hg ((hm h).1 h0)
  have inside : ¬ (memory = true ∧ (c.ranges.getD r.range {}).len < r.addr + 256 * r.lines) := fun ⟨h, hl⟩ => absurd (hm h).2 (Nat.not_le.mpr hl)
  simp only [State.moverAdmit, hr]
  rw [if_neg (not_not.mpr ho), if_neg live, if_neg inside]

/-! ### What the movers do (R93-R97) -/

/-- The island of a record's memory, which the commands that lose their state name as the place of the error. -/
def State.recordIsland (s : State) (addr : Nat) : Nat := match s.place addr with
  | some p => 136 + p.chan / 16
  | none => 0

section
variable {r : MoverReq} {c : Cmd} {g : Range} (hc : core < 8) (hm : m < 16)
include hc hm

theorem exec_lineIn_device (hh : s.moverHead core m 0 = some r) (ha : s.moverAdmit core m r true = (s, some (c, g))) (hg : g.loc = 0) :
    exec (.lineIn core m) s = .next ((List.range (min (r.lines - r.sent) (128 - (r.sent - r.back / 256)))).foldl
      (fun a i => a.storeRead core 0 ((g.addr + r.addr) / 256 + r.sent + i) g.key c.part (.share r.share (r.sline + r.sent + i) m))
      (s.moverSent core m r (min (r.lines - r.sent) (128 - (r.sent - r.back / 256))) 0)) := by
  refine onUnit_next (mover_there hc hm) ?_
  simp only [hh, ha, if_pos hg]
  rfl

theorem exec_lineIn_asked (hh : s.moverHead core m 0 = some r) (ha : s.moverAdmit core m r true = (s, some (c, g))) (hg : g.loc ≠ 0)
    (hs : r.sent ≠ 0 ∨ c.retrans = true) : exec (.lineIn core m) s = .next s := by
  refine onUnit_next (mover_there hc hm) ?_
  simp only [hh, ha, if_neg hg, if_pos hs]

/-- Lines of host memory or of a remote segment are asked for once, all together. -/
theorem exec_lineIn_far (hh : s.moverHead core m 0 = some r) (ha : s.moverAdmit core m r true = (s, some (c, g))) (hg : g.loc ≠ 0)
    (hs : r.sent = 0) (hr : c.retrans = false) :
    let t := ((s.bump64 (shstPg core + SHST_READ_CNT) r.lines).moverSent core m r r.lines c.asked).updCmd r.q r.seq
      (fun c => { c with asked := c.asked + 256 * r.lines })
    exec (.lineIn core m) s = .next (if g.loc = 1 then t.hostRangeRead (t.ownerOf (ctxPg c.ctx)) g r.addr (256 * r.lines)
      else t.remoteRead c g r.addr (256 * r.lines) c.asked) := by
  have fresh : ¬ (r.sent ≠ 0 ∨ c.retrans = true) := by simp [hs, hr]
  refine onUnit_next (mover_there hc hm) ?_
  simp only [hh, ha, if_neg hg, if_neg fresh]

theorem exec_lineOut_admitted (hh : s.moverHead core m 1 = some r) (ha : s.moverAdmit core m r true = (s, some (c, g)))
    (hr : g.loc = 1 → c.retrans = false) : exec (.lineOut core ⟨m, 0, 0⟩) s =
      .next (((if g.loc = 0 then s.closeMerge core 0 ((g.addr + r.addr) / 256) r.lines else s).rangeWrite c g r.addr
        (s.shareRead r.share r.sline r.lines)).moverDone core m r) := by
  have fresh : ¬ (g.loc = 1 ∧ c.retrans = true) := fun ⟨h1, ht⟩ => ne_true_of_eq_false (hr h1) ht
  refine onUnit_next (mover_there hc hm) ?_
  simp only [hh, ha, if_neg fresh]
  rfl

theorem exec_spread_admitted {cg : Cmd × Range} (hh : s.moverHead core m 2 = some r) (ha : s.moverAdmit core m r false = (s, some cg)) :
    exec (.spread core ⟨m, 0, 0⟩) s = .next ((s.deliverLines (cellKey core r.cell) 2 (Config.spreadLine r.route % 512)
      (s.shareRead r.share r.sline r.lines)).moverDone core m r) := by
  refine onUnit_next (mover_there hc hm) ?_
  simp only [hh, ha]
  rfl

theorem exec_gather_admitted {cg : Cmd × Range} (hh : s.moverHead core m 4 = some r) (ha : s.moverAdmit core m r false = (s, some cg)) :
    let at_ := Config.spreadLine r.route % 512
    let t := (s.atCell (cellKey core r.cell)).portTake (8 * r.lines)
    exec (.gather core ⟨m, 0, 0⟩) s = .next (((s.updCell (cellKey core r.cell) (fun _ => t.1)).shareWrite r.share r.sline
      (t.2 ++ Memory.read s.spad (spadAt (cellKey core r.cell) at_) (min (256 * r.lines - t.2.length) (64 * (512 - at_))))).moverDone core m r) := by
  refine onUnit_next (mover_there hc hm) ?_
  simp only [hh, ha]
  rfl

theorem exec_xcore_own (hh : s.moverHead core m 5 = some r) (ha : s.moverAdmit core m r false = (s, some (c, g)))
    (ho : s.sliceOwner r.core = some c.part) :
    exec (.xcore core ⟨m, 0, 0⟩) s = .next ((s.shareWrite r.core r.sline (s.shareRead r.share r.sline r.lines)).moverDone core m r) := by
  refine onUnit_next (mover_there hc hm) ?_
  simp only [hh, ha, if_neg (not_not.mpr ho)]
  rfl

theorem exec_xcore_foreign (hh : s.moverHead core m 5 = some r) (ha : s.moverAdmit core m r false = (s, some (c, g)))
    (ho : s.sliceOwner r.core ≠ some c.part) :
    exec (.xcore core ⟨m, 0, 0⟩) s = .next ((s.shareDrop (r.core / 4)).moverStop r codeRights 0 (128 + r.core / 4) 0) := by
  refine onUnit_next (mover_there hc hm) ?_
  simp only [hh, ha, if_pos ho]

theorem exec_save_head (hh : s.moverHead core m 6 = some r) :
    let u := s.saveWrite r.ctx r.addr ((sliceKeys r.share).flatMap (fun k => Memory.read s.spad (spadAt k 0) 32768))
    exec (.save core ⟨m, 0, 0⟩) s = .next ((u.saveWrite r.ctx (r.addr + saveSpad) (u.shareRead r.share 0 32768)).moverDone core m r) := by
  refine onUnit_next (mover_there hc hm) ?_
  simp only [hh]
  rfl

/-- A record comes back whole, or a line that fails costs the commands recorded in it their state. -/
theorem exec_restore_head (hh : s.moverHead core m 7 = some r) :
    let rd := s.saveRead r.ctx r.addr (saveCtl / 256)
    let b := rd.2.1
    ∃ isl : Nat, exec (.restore core m) s = .next (match rd.2.2 with
      | none => (((List.range 1024).foldl (fun (a : State) i =>
        { a with spad := Memory.write a.spad (spadAt ((sliceKeys r.share).getD i 0) 0) (sliceBytes b (32768 * i) 32768) }) rd.1).shareWrite
          r.share 0 (b.drop saveSpad)).moverDone core m r
      | some e => (rd.1.restoreFail r.ctx e isl).moverDone core m r) := by
  rcases h : s.saveRead r.ctx r.addr (saveCtl / 256) with ⟨t, b, e⟩
  refine ⟨s.recordIsland r.addr, onUnit_next (mover_there hc hm) ?_⟩
  simp only [hh, h]
  cases e <;> rfl

end

/-! ### A broadcast down the tree (R93, R94) -/

section
variable {α β : Type}

/-- What every round of an iteration keeps, the iteration keeps. -/
theorem foldl_keeps (p : State → β) {f : State → α → State} (hf : ∀ s a, p (f s a) = p s) (l : List α) (s : State) : p (l.foldl f s) = p s := by
  induction l generalizing s with
  | nil => rfl
  | cons a l ih => exact (ih _).trans (hf s a)

end

theorem State.deliverCell_slices (s : State) (k src at_ : Nat) (line : Bytes) : (s.deliverCell k src at_ line).slices = s.slices := by
  unfold State.deliverCell
  split
  · rfl
  · split <;> rfl

theorem State.deliverLines_slices (s : State) (k src at_ : Nat) (b : Bytes) : (s.deliverLines k src at_ b).slices = s.slices :=
  foldl_keeps State.slices (fun _ _ => State.deliverCell_slices ..) _ s

/-- The cells of a group are those that the slices' configurations name. -/
theorem State.groupCells_congr (h : t.slices = s.slices) (i g phase : Nat) : t.groupCells core i g phase = s.groupCells core i g phase := by
  show { s with slices := t.slices }.groupCells core i g phase = _
  rw [h]

/-- Deliveries island by island reach the cells of every island's group in turn. -/
theorem State.foldl_groupCells {f : State → Nat → State} (hf : ∀ s n, (f s n).slices = s.slices) (g phase : Nat) (l : List Nat)
    (h : t.slices = s.slices) : l.foldl (fun a i => (a.groupCells core i g phase).foldl f a) t =
      (l.flatMap (fun i => s.groupCells core i g phase)).foldl f t := by
  induction l generalizing t with
  | nil => rfl
  | cons i l ih =>
    rw [List.foldl_cons, List.flatMap_cons, List.foldl_append, State.groupCells_congr h]
    exact ih ((foldl_keeps State.slices hf _ t).trans h)

theorem exec_bcast_admitted {r : MoverReq} {c : Cmd} {g : Range} (hc : core < 8) (hm : m < 16) (hh : s.moverHead core m 3 = some r)
    (ha : s.moverAdmit core m r false = (s, some (c, g))) : exec (.bcast core ⟨m, 0, 0⟩) s =
      .next ((((s.castIslands core r).flatMap (fun i => s.groupCells core i r.group c.spr.phase)).foldl (fun a n =>
        a.deliverLines (cellKey core n) 1 (Config.spreadLine r.group % 512) (s.shareRead r.share r.sline r.lines)) s).moverDone core m r) := by
  refine onUnit_next (mover_there hc hm) ?_
  simp only [hh, ha]
  exact congrArg (·.moverDone core m r) (State.foldl_groupCells (fun _ _ => State.deliverLines_slices ..) _ _ _ rfl)

/-! ### Requests that complete (R97) -/

section
variable {r : MoverReq} {rest : List MoverReq} (hc : core < 8) (hm : m < 16) (hq : s.moverQueue core m = r :: rest)

theorem State.moverTell_noRoute (hr : 64 ≤ r.route) : s.moverTell core r = s := if_pos hr

include hc hm hq

theorem exec_moverCompletion_waits (hd : r.done = false) : exec (.moverCompletion core m) s = .next s := by
  refine onUnit_next (mover_there hc hm) ?_
  simp only [hq, if_pos hd]

theorem exec_moverCompletion_done (hd : r.done = true) : exec (.moverCompletion core m) s =
    .next (if r.op = 6 then ((s.setMover core m rest).release r.share).scheduleFor r.ctx
      else if r.op = 7 then (s.setMover core m rest).feed r.share
      else ((s.setMover core m rest).moverTell core r).moverRefill r.share) := by
  refine onUnit_next (mover_there hc hm) ?_
  simp only [hq, if_neg (ne_false_of_eq_true hd)]

end

/-! ### Quiescence (R100, R101) -/

/-- Registers at different offsets of their pages are different. -/
theorem base_ne_of_off {p q : Pg} {i j o o' : Nat} (ho : o < 0x1000) (ho' : o' < 0x1000) (h : o ≠ o') : p.base i + o ≠ q.base j + o' := by
  intro e
  have hm := congrArg (· % 0x1000) e
  simp only [base_mod _ _ _ ho, base_mod _ _ _ ho'] at hm
  exact h hm

/-- A bit reads as it was put. -/
theorem bitOf_putBit_self (n i : Nat) (b : Bool) : bitOf (putBit n i b) i = b := by
  rw [bitOf, putBit, testBit_putBits _ _ _ _ _ (Nat.le_refl i), if_pos ⟨Nat.le_refl i, Nat.le_refl i⟩, Nat.sub_self]
  cases b <;> rfl

/-- A bit of a field reads as it was put when the field is set. -/
theorem State.bitOf_get_set_putBit (s : State) (pg : Nat) (f : F) (n : Nat) {i : Nat} (b : Bool) (h : f.lo ≤ f.hi) (hw : f.hi < 32)
    (hi : i < f.hi + 1 - f.lo) : bitOf ((s.set pg f (putBit n i b)).get pg f) i = b := by
  rw [State.get_set_self _ _ _ _ h hw, bitOf, Nat.testBit_mod_two_pow, decide_eq_true hi, Bool.true_and]
  exact bitOf_putBit_self n i b

theorem State.setQuiet_onlyRegs (s : State) (n : Nat) (b : Bool) : s.OnlyRegs (s.setQuiet n b) :=
  .trans (.set ..) (.foldl (fun _ _ => .set ..) _ _)

/-- Marking a slice's islands leaves QUIET of the core as it is. -/
theorem State.quiet_setQuiet (s : State) (n : Nat) (b : Bool) : (s.setQuiet n b).quiet n = b := by
  have islands (l : List Nat) (t : State) : (l.foldl (fun a k => a.mark (islPg (sliceIsland n k)) ISL_STAT_QUIET b) t).quiet n = t.quiet n :=
    foldl_keeps (·.quiet n) (fun _ _ => congrArg (bitOf · (n % 4)) (State.get_set_ne _ _ _ _ (base_ne_of_off (by decide) (by decide) (by decide)))) l t
  exact (islands _ _).trans (State.bitOf_get_set_putBit _ _ CORE_QUIET_QUIET _ _ (by decide) (by decide)
    (show n % 4 < 4 from Nat.mod_lt _ (by decide)))

/-- A slice shown as quiescent, with no binding change held. -/
def State.quietShown (s : State) (n : Nat) : State :=
  (s.setQuiet n true).set (Pg.base .core (n / 4)) CORE_QUIET_HELD
    (putBit ((s.setQuiet n true).get (Pg.base .core (n / 4)) CORE_QUIET_HELD) (n % 4) false)

theorem State.quietShown_onlyRegs (s : State) (n : Nat) : s.OnlyRegs (s.quietShown n) := (s.setQuiet_onlyRegs n true).trans (.set ..)

theorem State.quiet_quietShown (s : State) (n : Nat) : (s.quietShown n).quiet n = true := by
  have apart : (s.quietShown n).get (Pg.base .core (n / 4)) CORE_QUIET_QUIET = (s.setQuiet n true).get (Pg.base .core (n / 4)) CORE_QUIET_QUIET :=
    State.get_set_disjoint _ _ CORE_QUIET_HELD _ (g := CORE_QUIET_QUIET) (by decide) (by decide) (by decide) (by decide)
  exact (congrArg (bitOf · (n % 4)) apart).trans (s.quiet_setQuiet n true)

theorem State.held_quietShown (s : State) (n : Nat) : bitOf ((s.quietShown n).get (Pg.base .core (n / 4)) CORE_QUIET_HELD) (n % 4) = false :=
  State.bitOf_get_set_putBit _ _ CORE_QUIET_HELD _ _ (by decide) (by decide) (show n % 4 < 4 from Nat.mod_lt _ (by decide))

/-- Only the gates change as they follow the binding. -/
theorem State.setGates_frame (s : State) (core : Nat) : { s.setGates core with gates := [] } = { s with gates := [] } :=
  foldl_keeps (fun a => { a with gates := [] }) (fun _ _ => by dsimp only; split <;> rfl) _ s

/-- Whatever does not depend on the gates stays as they follow the binding. -/
theorem State.setGates_field {α : Type} (s : State) (core : Nat) (f : State → α) (hf : ∀ a : State, f { a with gates := [] } = f a := by exact fun _ => rfl) :
    f (s.setGates core) = f s :=
  (hf _).symm.trans ((congrArg f (s.setGates_frame core)).trans (hf s))

theorem exec_sliceQuiescent_busy {n : Nat} (hn : n < 32) (h : s.isQuiescent n = false) : exec (.sliceQuiescent n) s = .next s :=
  onUnit_next (decide_eq_true hn) (if_pos h)

theorem exec_sliceQuiescent_idle {n : Nat} (hn : n < 32) (h : s.isQuiescent n = true) :
    exec (.sliceQuiescent n) s = .next ((s.quietShown n).setGates (n / 4)) :=
  onUnit_next (decide_eq_true hn) (if_neg (ne_false_of_eq_true h))

theorem exec_sliceQuiescent_shows {n : Nat} (hn : n < 32) (h : s.isQuiescent n = true) : ∃ u : State, exec (.sliceQuiescent n) s = .next u ∧
    u.quiet n = true ∧ bitOf (u.get (Pg.base .core (n / 4)) CORE_QUIET_HELD) (n % 4) = false ∧ s.sameBytes u := by
  refine ⟨_, exec_sliceQuiescent_idle hn h, (State.setGates_field _ _ (·.quiet n)).trans (s.quiet_quietShown n),
    (State.setGates_field _ _ (fun a => bitOf (a.get (Pg.base .core (n / 4)) CORE_QUIET_HELD) (n % 4))).trans (s.held_quietShown n), ?_⟩
  exact (State.setGates_field _ _ s.sameBytes).mpr (s.quietShown_onlyRegs n).sameBytes

/-! ### The obligation -/

/-- Settles O57, by what each command of the shared store and of its movers does. -/
theorem sharedStoreAndMovers : Obligations.SharedStoreAndMovers := by
  intro s core m hc hm
  refine ⟨fun r h2 h1 h0 => ?reads, fun r => ⟨fun h2 => exec_shstReadRequest_far hc h2, fun q n h1 ho hr => exec_shstReadRequest_foreign hc h1 ho hr,
      fun p h0 hs hp hg => ?stale⟩, fun loc line key part => ⟨fun hm hl => exec_shstLineArrive_unasked hc hm hl, fun e he => ?arrives⟩,
    fun r c g hh ha => ⟨fun hg => exec_lineIn_device hc hm hh ha hg, fun hg hs => exec_lineIn_asked hc hm hh ha hg hs,
      fun hg hs hr => ?host, fun hg hs hr => ?remote⟩,
    fun r c g hh ha hr => exec_lineOut_admitted hc hm hh ha hr, fun r cg hh ha => exec_spread_admitted hc hm hh ha,
    fun r c g hh ha => exec_bcast_admitted hc hm hh ha, fun r cg hh ha => exec_gather_admitted hc hm hh ha,
    fun r c g hh ha => ⟨exec_xcore_own hc hm hh ha, exec_xcore_foreign hc hm hh ha⟩, fun r hh => exec_save_head hc hm hh,
    fun r hh => exec_restore_head hc hm hh,
    fun r rest hq => ⟨exec_moverCompletion_waits hc hm hq, fun hd h6 h7 => ?done, State.moverTell_noRoute, fun hd h7 => ?restored, fun hd h6 => ?saved⟩,
    fun n hn => ⟨exec_sliceQuiescent_busy hn, exec_sliceQuiescent_shows hn⟩, fun mm r c hr ho h => State.moverAdmit_passes hr ho h⟩
  case reads =>
    have taken := exec_shstReadRequest_taken hc h2 h1 h0
    refine ⟨fun e he => ?_, fun hn hl => ?_, fun hn hl => ?_⟩
    · rw [taken, State.storeRead_joins he]
    · rw [taken, State.storeRead_issues hn hl]
    · rw [taken, State.storeRead_full hn hl]
  case stale => rw [exec_shstReadRequest_device hc h0 hs hp, if_pos hg]
  case arrives =>
    obtain he | ⟨hn, he⟩ := he
    · simp only [he, reduceCtorEq, if_false]
      exact exec_shstLineArrive_merged hc he
    · simp only [hn, if_true]
      exact exec_shstLineArrive_loose hc hn he
  case host =>
    rw [exec_lineIn_far hc hm hh ha (by omega) hs hr, if_pos hg]
  case remote =>
    rw [exec_lineIn_far hc hm hh ha (by omega) hs hr, if_neg (by omega)]
  case done => rw [exec_moverCompletion_done hc hm hq hd, if_neg h6, if_neg h7]
  case restored => rw [exec_moverCompletion_done hc hm hq hd, if_neg (by omega), if_pos h7]
  case saved => rw [exec_moverCompletion_done hc hm hq hd, if_pos h6]

end Sys2Proof.Machine
end

section
/-! SUPPORT. Messages between the members of a span: which slot of this device a message concerns, and what it does there. -/

namespace Sys2Proof.Machine

open Sys2Proof

/-! ### A message for this device (R304-R306, R316) -/

/-- The state once a message of opcode `n` has left the receive buffer of port `p`: its credits are owed to the partner (R305). -/
abbrev State.received (s : State) (p : Nat) (t : Txn) (n : Nat) : State := s.updLink p (fun x => x.owe { t with op := n, cls := 2 })

section
variable {s : State} {p : Nat} {t : Txn}

/-- A port that is UP has passed its first data block already. -/
theorem State.firstData_of_portUp (h : s.portUp p = true) : s.firstData p = s := by
  have h3 : s.portState p = 3 := beq_iff_eq.mp h
  exact if_neg (by simp [h3])

/-- A message between members, for this device and on a port that is UP, is served. -/
theorem State.arrive_served {n : Nat} {f : State → Txn → State} (hp : p < 36) (ht : txnOk t = true) (hk : knownOp t.op = true)
    (hu : s.portUp p = true) (hd : t.dst = s.self) :
    s.arrive p t n 2 (fun s t => s.routed t (fun s => f s t)) = .next (f (s.received p t n) { t with op := n, cls := 2 }) := by
  have h3 : s.portState p = 3 := beq_iff_eq.mp hu
  have here : ¬ t.dst ≠ (s.received p t n).self := not_not.mpr hd
  refine onUnit_next (by simp [hp, ht]) ?_
  simp only [h3, State.firstData_of_portUp hu, hu, hk, State.routed, if_neg here]
  simp

end

/-! ### The slot of a span (R255) -/

section
variable {s : State} {span : Nat} {l l' : List Nat}

theorem State.slotWith_eq_none_iff : s.slotWith span l = none ↔
    span = 0 ∨ ∀ p < 32, ∀ k < 8, s.slotSpan p k = span → s.slotState p k ∉ l := by
  unfold State.slotWith
  split
  next h => simp [h]
  next h => simp [h]

/-- A device that is in a span in none of some states is in it in no fewer of them. -/
theorem State.slotWith_none_mono (h : s.slotWith span l = none) (hl : l' ⊆ l) : s.slotWith span l' = none := by
  rw [State.slotWith_eq_none_iff] at h ⊢
  exact h.imp_right fun hn p hp k hk hs hmem => hn p hp k hk hs (hl hmem)

end

/-! ### What a message does at its slot (R131, R260-R262, R427) -/

section
variable {s : State} {t : Txn} {e : Nat × Nat} {c : Cmd}

theorem State.joinIn_early (h : s.slotWith t.span [1, 2] = none) : s.joinIn t =
    { s with earlyJoins := s.earlyJoins.filter (fun e => !(e.1 == t.span && e.2.2.1 == t.src)) ++ [(t.span, t.addr % 4096, t.src, t.payload)] } := by
  simp only [State.joinIn, h]

/-- A join message is answered with the mismatch found, 0 when there is none. -/
abbrev State.joinAnswered (s : State) (p l : Nat) (t : Txn) : State :=
  s.sendColl p l t.src { op := 0x12, addr := s.slotRank p l, aux := s.joinCheck p l (t.addr % 4096) t.src t.payload }

theorem State.joinIn_mismatch (h : s.slotWith t.span [1, 2] = some e) (hr : s.joinCheck e.1 e.2 (t.addr % 4096) t.src t.payload ≠ 0) :
    s.joinIn t = s.joinAnswered e.1 e.2 t := by
  simp only [State.joinIn, h]
  exact if_pos hr

theorem State.joinIn_match (h : s.slotWith t.span [1, 2] = some e) (hr : s.joinCheck e.1 e.2 (t.addr % 4096) t.src t.payload = 0) :
    s.joinIn t = ((s.joinAnswered e.1 e.2 t).updJoin (e.1 * 8 + e.2) (fun j => { j with
      joins := if j.joins.contains (t.addr % 4096) then j.joins else t.addr % 4096 :: j.joins, left := j.left.filter (· != t.addr % 4096) })).joinDone e.1 e.2 := by
  simp only [State.joinIn, h]
  exact if_neg (not_not.mpr hr)

theorem State.ansIn_nowhere (h : s.slotWith t.span [1] = none) : s.ansIn t = s := by
  simp only [State.ansIn, h]

theorem State.ansIn_refusal (h : s.slotWith t.span [1] = some e) (ha : t.aux ≠ 0) : s.ansIn t = s.slotIdle e.1 e.2 (t.aux % 256) t.src := by
  simp only [State.ansIn, h, if_pos ha]

/-- A message claims the rank and the device of a member of the slot's table. -/
def State.fromMember (s : State) (e : Nat × Nat) (t : Txn) : Prop :=
  t.addr % 4096 < s.spanM e.1 e.2 ∧ s.spanDev e.1 e.2 (t.addr % 4096) = t.src

theorem State.fromMember.not_stranger (h : s.fromMember e t) :
    ¬ (s.spanM e.1 e.2 ≤ t.addr % 4096 ∨ s.spanDev e.1 e.2 (t.addr % 4096) ≠ t.src) := by
  rintro (hm | hd)
  · exact absurd h.1 (Nat.not_lt.mpr hm)
  · exact hd h.2

theorem State.ansIn_acceptance (h : s.slotWith t.span [1] = some e) (ha : t.aux = 0) (hm : s.fromMember e t) : s.ansIn t =
    (s.updJoin (e.1 * 8 + e.2) (fun j => { j with
      answers := if j.answers.contains (t.addr % 4096) then j.answers else t.addr % 4096 :: j.answers })).joinDone e.1 e.2 := by
  simp only [State.ansIn, h, if_neg (not_not.mpr ha), if_neg hm.not_stranger]

theorem State.leaveIn_nowhere (h : s.slotWith t.span [2, 3] = none) : s.leaveIn t = s := by
  simp only [State.leaveIn, h]

theorem State.leaveIn_member (h : s.slotWith t.span [2, 3] = some e) (hm : s.fromMember e t) : s.leaveIn t =
    (s.updJoin (e.1 * 8 + e.2) (fun j => { j with left := t.addr % 4096 :: j.left })).absent t.src (some e) := by
  simp only [State.leaveIn, h, if_neg hm.not_stranger]

theorem State.checkIn_nowhere (h : s.slotWith t.span [1, 2, 3] = none) : s.checkIn t = s := by
  simp only [State.checkIn, h]

theorem State.refuseIn_nowhere (h : s.slotWith t.span [1, 2, 3] = none) : s.refuseIn t = s := by
  simp only [State.refuseIn, h]

section
variable (h : s.slotWith t.span [1, 2, 3] = some e)
include h

section
variable (hc : s.spanCmd e.1 e.2 (t.addr % 2 ^ 32) = none) (hn : Tab.get 0 s.spanNo (e.1 * 8 + e.2) ≤ t.addr % 2 ^ 32)
include hc hn

theorem State.checkIn_ahead : s.checkIn t = s.holdCheck e.1 e.2 (t.addr % 2 ^ 32) t.src t.payload := by
  simp only [State.checkIn, h, hc, if_neg (Nat.not_lt.mpr hn)]

theorem State.refuseIn_ahead : s.refuseIn t = s.holdCheck e.1 e.2 (t.addr % 2 ^ 32) t.src [] := by
  simp only [State.refuseIn, h, hc, if_neg (Nat.not_lt.mpr hn)]

end

section
variable (hc : s.spanCmd e.1 e.2 (t.addr % 2 ^ 32) = some c)
include hc

theorem State.checkIn_issued (hw : c.work = false) (hi : c.issued = true) : s.checkIn t = s.checkOne c e.2 t.src t.payload := by
  simp only [State.checkIn, h, hc, hw, hi, Bool.false_eq_true, if_false, if_true]

theorem State.refuseIn_unresolved (hw : c.work = false) : s.refuseIn t = s.checkOne c e.2 t.src [] := by
  simp only [State.refuseIn, h, hc, hw, Bool.false_eq_true, if_false]

theorem State.checkIn_done (hw : c.work = true) : s.checkIn t = s := by
  simp only [State.checkIn, h, hc, if_pos hw]

theorem State.refuseIn_done (hw : c.work = true) : s.refuseIn t = s := by
  simp only [State.refuseIn, h, hc, if_pos hw]

end

end

end

/-! ### The five messages (R308) -/

section
variable {s : State} {p : Nat} {t : Txn} (hp : p < 36) (ht : txnOk t = true) (hk : knownOp t.op = true) (hu : s.portUp p = true) (hd : t.dst = s.self)
include hp ht hk hu hd

theorem exec_spanJoin : exec (.spanJoin p t) s = .next ((s.received p t 0x11).joinIn t) := State.arrive_served hp ht hk hu hd

theorem exec_spanAns : exec (.spanAns p t) s = .next ((s.received p t 0x12).ansIn t) := State.arrive_served hp ht hk hu hd

theorem exec_spanLeave : exec (.spanLeave p t) s = .next ((s.received p t 0x13).leaveIn t) := State.arrive_served hp ht hk hu hd

theorem exec_cmdCheck : exec (.cmdCheck p t) s = .next ((s.received p t 0x14).checkIn t) := State.arrive_served hp ht hk hu hd

theorem exec_cmdRefuse : exec (.cmdRefuse p t) s = .next ((s.received p t 0x15).refuseIn t) := State.arrive_served hp ht hk hu hd

end

/-! ### The obligation -/

/-- Settles O36, by what each of the five messages does at the slot of its span. -/
theorem spanMessagesArrive : Obligations.SpanMessagesArrive := by
  intro s p t hp ht hk hu hd
  let u := s.received p t
  have join {v : State} (h : (u 0x11).joinIn t = v) := (exec_spanJoin hp ht hk hu hd).trans (congrArg _ h)
  have ans {v : State} (h : (u 0x12).ansIn t = v) := (exec_spanAns hp ht hk hu hd).trans (congrArg _ h)
  have leave {v : State} (h : (u 0x13).leaveIn t = v) := (exec_spanLeave hp ht hk hu hd).trans (congrArg _ h)
  have check {v w : State} (h : (u 0x14).checkIn t = v) (h' : (u 0x15).refuseIn t = w) :=
    And.intro ((exec_cmdCheck hp ht hk hu hd).trans (congrArg _ h)) ((exec_cmdRefuse hp ht hk hu hd).trans (congrArg _ h'))
  refine ⟨fun h => join (State.joinIn_early h), fun e h => ⟨fun hr => join (State.joinIn_mismatch h hr), fun hr => join (State.joinIn_match h hr)⟩,
    fun e h => ⟨fun ha => ans (State.ansIn_refusal h ha), fun ha hm hd => ans (State.ansIn_acceptance h ha ⟨hm, hd⟩)⟩,
    fun e h hm hd => leave (State.leaveIn_member h ⟨hm, hd⟩), fun e h => ⟨fun hc hn => ?ahead, fun c hc hw hi => ?issued, fun c hc hw => ?done⟩,
    fun h => ⟨ans (State.ansIn_nowhere (State.slotWith_none_mono h (by simp))), leave (State.leaveIn_nowhere (State.slotWith_none_mono h (by simp))),
      check (State.checkIn_nowhere h) (State.refuseIn_nowhere h)⟩⟩
  case ahead => exact check (State.checkIn_ahead h hc hn) (State.refuseIn_ahead h hc hn)
  case issued => exact check (State.checkIn_issued h hc hw hi) (State.refuseIn_unresolved h hc hw)
  case done => exact check (State.checkIn_done h hc hw) (State.refuseIn_done h hc hw)

end Sys2Proof.Machine
end

section
/-! SUPPORT. What event records leave as it is, and flags marked page by page. -/

namespace Sys2Proof.Machine

open Sys2Proof

variable {s t : State} {α β : Type}

/-! ### Bytes -/

theorem State.sameBytes_of_mems (h : t.mems = s.mems) : s.sameBytes t := by
  unfold State.mems at h
  obtain ⟨hm, hp, hs, -⟩ : t.mem = s.mem ∧ t.spad = s.spad ∧ t.share = s.share ∧ t.mgmt.sessionData = s.mgmt.sessionData := by simpa using h
  exact ⟨fun _ => by rw [hm], fun _ => by rw [hp], fun _ => by rw [hs]⟩

/-! ### Event records (R226-R229) -/

/-- A state without what event records change: registers, what leaves the module, free values, dirty-log words, records lost, vectors. -/
def State.sansEvents (s : State) : State := { s with regs := [], out := [], draws := 0, dlogWords := [], evqLost := [], vecs := [] }

/-- Whatever does not depend on what event records change is the same. -/
theorem State.field_of_sansEvents (h : t.sansEvents = s.sansEvents) (f : State → β) (hf : ∀ a : State, f a.sansEvents = f a := by exact fun _ => rfl) :
    f t = f s :=
  (hf t).symm.trans ((congrArg f h).trans (hf s))

@[simp] theorem State.wr_sansEvents (s : State) (a v : Nat) : (s.wr a v).sansEvents = s.sansEvents := rfl
@[simp] theorem State.set_sansEvents (s : State) (pg : Nat) (f : F) (v : Nat) : (s.set pg f v).sansEvents = s.sansEvents := rfl
@[simp] theorem State.emit_sansEvents (s : State) (o : Out) : (s.emit o).sansEvents = s.sansEvents := rfl

@[simp] theorem State.markHostPage_sansEvents (s : State) (fn page : Nat) : (s.markHostPage fn page).sansEvents = s.sansEvents := by
  unfold State.markHostPage
  dsimp only
  split
  · rfl
  · split <;> rfl

@[simp] theorem State.hostStore_sansEvents (s : State) (fn addr : Nat) (data : Bytes) : (s.hostStore fn addr data).sansEvents = s.sansEvents := by
  unfold State.hostStore
  split
  · rfl
  · rw [State.emit_sansEvents]
    split
    · exact foldl_keeps State.sansEvents (fun _ _ => State.markHostPage_sansEvents ..) _ s
    · rfl

@[simp] theorem State.message_sansEvents (s : State) (fn v holdoff : Nat) : (s.message fn v holdoff).sansEvents = s.sansEvents := by
  unfold State.message
  dsimp only
  split
  · rfl
  · split
    · rfl
    · split <;> rfl

@[simp] theorem State.evqWrite_sansEvents (s : State) (e typ fn : Nat) (payload : Bytes) : (s.evqWrite e typ fn payload).sansEvents = s.sansEvents := by
  simp [State.evqWrite]

@[simp] theorem State.evqCatchUp_sansEvents (s : State) (e : Nat) : (s.evqCatchUp e).sansEvents = s.sansEvents := by
  unfold State.evqCatchUp
  dsimp only
  split
  · rfl
  · exact State.evqWrite_sansEvents ..

@[simp] theorem State.event_sansEvents (s : State) (e typ fn : Nat) (payload : Bytes) : (s.event e typ fn payload).sansEvents = s.sansEvents := by
  unfold State.event
  split
  · rfl
  · dsimp only
    split
    · exact State.evqCatchUp_sansEvents s e
    · exact (State.evqWrite_sansEvents ..).trans (State.evqCatchUp_sansEvents s e)

@[simp] theorem State.raise_sansEvents (s : State) (pg b : Nat) : (s.raise pg b).sansEvents = s.sansEvents := by
  unfold State.raise State.pageError
  dsimp only
  split
  · exact State.event_sansEvents ..
  · rfl

theorem State.mouldRej_sansEvents (s : State) (x reason id : Nat) (b : Bool) (detail : Nat) : (s.mouldRej x reason id b detail).sansEvents = s.sansEvents := by
  simp [State.mouldRej, State.errCount]

/-- A refused registration leaves the mould table and the registrations that wait. -/
theorem State.mouldRefuse_moulds (s : State) (c : Cmd) (reason id detail : Nat) :
    (s.mouldRefuse c reason id detail).moulds = s.moulds ∧ (s.mouldRefuse c reason id detail).mouldWait = s.mouldWait :=
  State.field_of_sansEvents (State.mouldRej_sansEvents s c.ctx reason id false detail) (fun a => (a.moulds, a.mouldWait)) |> Prod.mk.inj

/-! ### Flags -/

/-- Marking a flag on the pages of a list sets it there, and keeps it where it is so already. -/
theorem State.on_foldl_mark {f : F} (hf : f.hi = f.lo) (hw : f.hi < 32) (pg : α → Nat) (b : Bool) {x : Nat} {l : List α}
    (h : s.on x f = b ∨ x ∈ l.map pg) : (l.foldl (fun s k => s.mark (pg k) f b) s).on x f = b := by
  induction l generalizing s with
  | nil => exact h.resolve_right (by simp)
  | cons a l ih =>
    rw [List.foldl_cons]
    refine ih ?_
    by_cases hx : x = pg a
    · left
      rw [hx, State.mark_eq, State.on_eq, State.get_set_self _ _ _ _ (le_of_eq hf.symm) hw, hf, Nat.add_sub_cancel_left]
      cases b <;> rfl
    · rw [State.mark_eq, State.on_eq, State.get_set_ne _ _ _ _ (by omega)]
      simpa [hx] using h

end Sys2Proof.Machine
end

section
/-! SUPPORT. Moulds and the phases of a COMPUTE: registration and release, the load of a configuration, the end and the start of a phase,
boundaries. -/

namespace Sys2Proof.Machine

open Sys2Proof

variable {s u : State} {q seq i : Nat} {c : Cmd} {m : Bytes}

/-! ### Registrations (R104, R105) -/

/-- The image of a registration has been read. -/
abbrev State.imageRead (s : State) (q seq : Nat) (m : Bytes) : State := s.updCmd q seq (fun c => { c with buf := m, written := true })

theorem exec_mouldRegister_device (hq : q < 4096) (h : s.cmd? q seq = some c) (hr : c.running) (hs : c.stop = 0) (ho : dOp c.desc = 7)
    (ht : c.retrans = false) (hw : c.written = false) (hl : (c.ranges.getD 0 {}).loc = 0) (hn : 0 < leAt c.desc 0x28 4)
    (hd : s.devRead (c.ranges.getD 0 {}).key (c.ranges.getD 0 {}).addr (leAt c.desc 0x28 4) = (u, .inr m)) :
    exec (.mouldRegister q seq) s = .next ((u.imageRead q seq m).mouldEnter c m) := by
  refine (work_runs hq h hr ho hs).trans (congrArg _ ?_)
  simp only [ht, hw, awaited_device hl, State.source_device hl hn hd]
  simp

/-- An image whose digest a READY entry has shares the entry. -/
theorem State.mouldEnter_shares (hh : imageHash m = iDigest m) (hi : s.mouldWith c.part 2 (imageHash m) = some i) : s.mouldEnter c m =
    (s.updMould (c.part * 64 + i) (fun e => { e with count := e.count + 1 })).cmdDone c.q c.seq i := by
  rw [hh] at hi
  simp [State.mouldEnter, hh, hi]

/-- The entry that a registration takes: CHECKING, with the image, its digest and its place in the mould store. -/
def State.entryTaken (s : State) (c : Cmd) (m : Bytes) : Mould :=
  { state := 1, digest := imageHash m, image := m, start := s.storePlace c.part m.length, serial := s.mouldSerial + 1, regBy := some (c.q, c.seq) }

/-- A registration has taken entry `i`. -/
def State.mouldTaken (s : State) (c : Cmd) (m : Bytes) (i : Nat) : State :=
  { s.updMould (c.part * 64 + i) (fun _ => s.entryTaken c m) with mouldSerial := s.mouldSerial + 1 }

theorem State.atMould_mouldTaken_self : (s.mouldTaken c m i).atMould (c.part * 64 + i) = s.entryTaken c m :=
  (State.atMould_updMould s (c.part * 64 + i) (fun _ => s.entryTaken c m) _).trans (if_pos rfl)

theorem State.atMould_mouldTaken_ne {k : Nat} (hk : k ≠ c.part * 64 + i) : (s.mouldTaken c m i).atMould k = s.atMould k :=
  (State.atMould_updMould s (c.part * 64 + i) (fun _ => s.entryTaken c m) _).trans (if_neg hk)

theorem State.mouldTaken_regs : (s.mouldTaken c m i).regs = s.regs := rfl

theorem State.mouldTaken_mems : (s.mouldTaken c m i).mems = s.mems := State.mems_with_mouldSerial (State.updMould_mems rfl)

section
variable (hn : ∀ st, st ∈ [1, 2, 3] → s.mouldWith c.part st (imageHash m) = none) (hf : s.mouldFree c.part = some i)
include hn hf

theorem State.mouldEnter_homeless (hp : s.storePlace c.part m.length = none) : s.mouldEnter c m = s.mouldTaken c m i := by
  simp only [State.mouldEnter, hn 1 (by simp), hn 2 (by simp), hn 3 (by simp), ite_self, hf, hp, State.mouldTaken, State.entryTaken]

theorem State.mouldEnter_placed {a : Nat} (hp : s.storePlace c.part m.length = some a) :
    s.mouldEnter c m = (s.mouldTaken c m i).cfgWrite c.part a m := by
  simp only [State.mouldEnter, hn 1 (by simp), hn 2 (by simp), hn 3 (by simp), ite_self, hf, hp, State.mouldTaken, State.entryTaken]

end

/-! ### The end of a registration's check (R106, R116) -/

/-- Entry `k` is FREE again. -/
abbrev State.mouldFreed (s : State) (k : Nat) : State := s.updMould k (fun _ => {})

/-- Entry `k` is READY with its first registration. -/
abbrev State.mouldReady (s : State) (k : Nat) : State := s.updMould k (fun e => { e with state := 2, count := 1, regBy := none })

theorem State.mouldFreed_state (s : State) (k : Nat) : ((s.mouldFreed k).atMould k).state = 0 := by
  rw [State.atMould_updMould, if_pos rfl]

section
variable {part id : Nat} {e : Mould} (hp : part < 32) (hi : id < 64) (he : s.atMould (part * 64 + id) = e)
include hp hi he

theorem exec_registrationDone_idle (h : e.state ≠ 1) : exec (.mouldRegistrationDone part id) s = .next s := by
  subst he
  exact onUnit_next (by simp [hp, hi]) (if_pos h)

variable (h : e.state = 1) (hw : s.mouldWait = [])
include h hw

theorem exec_registrationDone_passed {n : Nat} (hr : e.regBy = some (q, n)) (hc : imageCheck e.image e.image.length e.start.isSome true = none) :
    exec (.mouldRegistrationDone part id) s = .next { (s.mouldReady (part * 64 + id)).cmdDone q n id with mouldWait := [] } := by
  subst he
  refine onUnit_next (by simp [hp, hi]) ((if_neg (not_not.mpr h)).trans ?_)
  have waits : ((s.mouldReady (part * 64 + id)).cmdDone q n id).mouldWait = [] := hw
  simp only [hc, hr, Option.getD_some, waits, List.foldl_nil]

section
variable {reason detail : Nat} {by' : Nat × Nat} (hb : e.regBy.getD (0, 0) = by')
  (hc : imageCheck e.image e.image.length e.start.isSome true = some (reason, detail))
include hb hc

theorem exec_registrationDone_orphan (hn : (s.mouldFreed (part * 64 + id)).cmd? by'.1 by'.2 = none) :
    exec (.mouldRegistrationDone part id) s = .next { s.mouldFreed (part * 64 + id) with mouldWait := [] } := by
  subst he hb
  refine onUnit_next (by simp [hp, hi]) ((if_neg (not_not.mpr h)).trans ?_)
  have waits : (s.mouldFreed (part * 64 + id)).mouldWait = [] := hw
  simp only [hc, hn, waits, List.foldl_nil]

theorem exec_registrationDone_refused (hn : (s.mouldFreed (part * 64 + id)).cmd? by'.1 by'.2 = some c) :
    exec (.mouldRegistrationDone part id) s = .next { (s.mouldFreed (part * 64 + id)).mouldRefuse c reason id detail with mouldWait := [] } := by
  subst he hb
  refine onUnit_next (by simp [hp, hi]) ((if_neg (not_not.mpr h)).trans ?_)
  have waits : ((s.mouldFreed (part * 64 + id)).mouldRefuse c reason id detail).mouldWait = [] := (State.mouldRefuse_moulds ..).2.trans hw
  simp only [hc, hn, waits, List.foldl_nil]

end

/-- An image that fails the check leaves its entry FREE, whether its command is still there to be refused or not. -/
theorem exec_registrationDone_failed {reason detail : Nat} (hc : imageCheck e.image e.image.length e.start.isSome true = some (reason, detail)) :
    ∃ t : State, exec (.mouldRegistrationDone part id) s = .next t ∧ (t.atMould (part * 64 + id)).state = 0 ∧ s.sameBytes t := by
  have bytes : (s.mouldFreed (part * 64 + id)).mems = s.mems := State.updMould_mems rfl
  have free := s.mouldFreed_state (part * 64 + id)
  cases hn : (s.mouldFreed (part * 64 + id)).cmd? (e.regBy.getD (0, 0)).1 (e.regBy.getD (0, 0)).2 with
  | none =>
    exact ⟨_, exec_registrationDone_orphan hp hi he h hw rfl hc hn, free, State.sameBytes_of_mems (State.mems_with_mouldWait bytes)⟩
  | some c =>
    have moulds := ((s.mouldFreed (part * 64 + id)).mouldRefuse_moulds c reason id detail).1
    exact ⟨_, exec_registrationDone_refused hp hi he h hw rfl hc hn, (congrArg (fun t => (Tab.get {} t (part * 64 + id)).state) moulds).trans free,
      State.sameBytes_of_mems (State.mems_with_mouldWait (State.mouldRefuse_mems bytes))⟩

end

/-! ### Releases (R119) -/

theorem State.mouldSettle_state {p : Nat} (h : (s.atMould (p * 64 + i)).state = 3) :
    ((s.mouldSettle p i).atMould (p * 64 + i)).state = if s.mouldNamed p i then 3 else 0 := by
  unfold State.mouldSettle
  cases hn : s.mouldNamed p i <;> simp [h, State.atMould_updMould]

theorem State.mouldNamed_updMould (s : State) (k : Nat) (f : Mould → Mould) : (s.updMould k f).mouldNamed = s.mouldNamed := rfl

theorem State.atMould_cmdDone (s : State) (q seq r k : Nat) : (s.cmdDone q seq r).atMould k = s.atMould k := rfl

theorem State.cmdDone_regs (s : State) (q seq r : Nat) : (s.cmdDone q seq r).regs = s.regs := rfl

theorem State.mouldSettle_regs {p : Nat} : (s.mouldSettle p i).regs = s.regs := by
  unfold State.mouldSettle
  dsimp only
  split <;> rfl

/-- One registration of an entry less. -/
abbrev State.mouldLess (s : State) (k : Nat) : State := s.updMould k (fun e => { e with count := e.count - 1 })

section
variable {e : Mould} (hq : q < 4096) (h : s.cmd? q seq = some c) (hst : c.started = true) (hw : c.work = false) (ho : dOp c.desc = 8)
  (hi : dMould c.desc = i) (he : s.atMould (c.part * 64 + i) = e)
include hq h hst hw ho hi he

theorem exec_mouldRelease_unregistered (hn : e.state ≤ 1 ∨ e.count = 0) : exec (.mouldRelease q seq) s = .next (s.mouldRefuse c 0x17 i 0) := by
  subst hi he
  have hn : (s.atMould (c.part * 64 + dMould c.desc)).state = 0 ∨ (s.atMould (c.part * 64 + dMould c.desc)).state = 1 ∨
      (s.atMould (c.part * 64 + dMould c.desc)).count = 0 := by omega
  refine onUnit_next (decide_eq_true hq) ?_
  simp only [h, hst, hw, ho, if_pos hn]
  simp

theorem exec_mouldRelease_registered (h2 : 2 ≤ e.state) (h1 : 1 ≤ e.count) : exec (.mouldRelease q seq) s = .next ((if e.count = 1 then
      ((s.mouldLess (c.part * 64 + i)).updMould (c.part * 64 + i) (fun e => { e with state := 3 })).mouldSettle c.part i
      else s.mouldLess (c.part * 64 + i)).cmdDone q seq 0) := by
  subst hi he
  have hn : ¬ ((s.atMould (c.part * 64 + dMould c.desc)).state = 0 ∨ (s.atMould (c.part * 64 + dMould c.desc)).state = 1 ∨
      (s.atMould (c.part * 64 + dMould c.desc)).count = 0) := by omega
  refine onUnit_next (decide_eq_true hq) ?_
  simp only [h, hst, hw, ho, if_neg hn]
  simp

/-- The last registration of an entry leaves it RELEASING, or FREE when nothing names it. -/
theorem exec_mouldRelease_last (h2 : 2 ≤ e.state) (h1 : e.count = 1) : ∃ t : State, exec (.mouldRelease q seq) s = .next t ∧
    (t.atMould (c.part * 64 + i)).state = (if s.mouldNamed c.part i then 3 else 0) ∧ t.regs = s.regs ∧ s.sameBytes t := by
  have done := exec_mouldRelease_registered hq h hst hw ho hi he h2 (by omega)
  rw [if_pos h1] at done
  refine ⟨_, done, ?_, ?_, State.sameBytes_of_mems (State.cmdDone_mems (State.mouldSettle_mems (State.updMould_mems (State.updMould_mems rfl))))⟩
  · rw [State.atMould_cmdDone, State.mouldSettle_state (by rw [State.atMould_updMould, if_pos rfl]), State.mouldNamed_updMould, State.mouldNamed_updMould]
  · rw [State.cmdDone_regs, State.mouldSettle_regs]
    rfl

end

/-! ### The load of a configuration (R103, R120, R121) -/

theorem State.fillStop_slices (s : State) (k : Nat) : (s.fillStop k).slices = s.slices := by
  have count : (s.fillCount k).slices = s.slices := by
    unfold State.fillCount
    split <;> rfl
  unfold State.fillStop
  split
  · rfl
  · exact count

theorem State.unfillSlice_slices (s : State) (n : Nat) : (s.unfillSlice n).slices = s.slices :=
  foldl_keeps State.slices State.fillStop_slices _ s

theorem State.cfgValid_slices (s : State) (n : Nat) (b : Bool) : (s.cfgValid n b).slices = s.slices :=
  foldl_keeps State.slices (f := fun s k => s.mark (islPg (sliceIsland n k)) ISL_STAT_CFG_VALID b) (fun _ _ => rfl) _ s

theorem State.on_cfgValid (s : State) (n : Nat) (b : Bool) {k : Nat} (hk : k < 4) :
    (s.cfgValid n b).on (islPg (sliceIsland n k)) ISL_STAT_CFG_VALID = b :=
  State.on_foldl_mark rfl (by decide) (fun k => islPg (sliceIsland n k)) b (.inr (List.mem_map_of_mem (List.mem_range.mpr hk)))

/-- A slice that may start to load the configuration of a command. -/
def State.mayLoad (s : State) (c : Cmd) (n : Nat) : Prop :=
  c.started = true ∧ c.work = false ∧ dOp c.desc = 1 ∧ (s.atSlice n).ctx = some c.ctx ∧ s.quiet n = true ∧ (s.atSlice n).loading = false ∧
    (s.atSlice n).tile = none ∧ (s.atSlice n).leaving = false ∧ (s.atSlice n).cfg ≠ some (s.cfgOf c)

theorem State.not_mayLoad_iff {n : Nat} : ¬ s.mayLoad c n ↔ c.started = false ∨ c.work = true ∨ dOp c.desc ≠ 1 ∨ (s.atSlice n).ctx ≠ some c.ctx ∨
    s.quiet n = false ∨ (s.atSlice n).loading = true ∨ (s.atSlice n).tile.isSome = true ∨ (s.atSlice n).leaving = true ∨
    (s.atSlice n).cfg = some (s.cfgOf c) := by
  simp only [State.mayLoad, not_and_or, Bool.not_eq_true, Bool.not_eq_false, Option.isSome_iff_ne_none, not_not]

/-- A slice's storage while it loads the configuration of command (`q`, `seq`). -/
def SliceSt.loads (y : SliceSt) (cfg : Nat × Nat × Nat) (q seq : Nat) : SliceSt := { y with cfg := some cfg, cmd := some (q, seq), loading := true }

/-- A slice that has started to load the configuration of command (`q`, `seq`). -/
def State.loadStarted (s : State) (n q seq : Nat) (c : Cmd) : State :=
  ((s.unfillSlice n).updSlice n (fun y => y.loads (s.cfgOf c) q seq)).cfgValid n false

theorem State.atSlice_loadStarted (s : State) (n q seq : Nat) (c : Cmd) :
    (s.loadStarted n q seq c).atSlice n = (s.atSlice n).loads (s.cfgOf c) q seq := by
  have h := State.atSlice_updSlice (s.unfillSlice n) n (fun y => y.loads (s.cfgOf c) q seq) n
  rw [if_pos rfl, State.atSlice, State.atSlice, State.unfillSlice_slices] at h
  rw [State.atSlice, State.loadStarted, State.cfgValid_slices, h]
  rfl

theorem State.loadStarted_mems (s : State) (n q seq : Nat) (c : Cmd) : (s.loadStarted n q seq c).mems = s.mems :=
  State.cfgValid_mems (State.updSlice_mems (State.unfillSlice_mems rfl))

section
variable {n : Nat} (hn : n < 32) (hq : q < 4096) (h : s.cmd? q seq = some c)
include hn hq h

theorem exec_configLoad_stays (hm : ¬ s.mayLoad c n) : exec (.configLoad n q seq) s = .next s := by
  refine onUnit_next (by simp [hn, hq]) ?_
  simp only [h]
  exact if_pos (State.not_mayLoad_iff.mp hm)

theorem exec_configLoad_starts (hm : s.mayLoad c n) : exec (.configLoad n q seq) s = .next (s.loadStarted n q seq c) := by
  refine onUnit_next (by simp [hn, hq]) ?_
  simp only [h]
  exact if_neg (fun hn => State.not_mayLoad_iff.mpr hn hm)

end

/-- A load that fails on a slice: its configuration is not valid, and the context learns of the mould that is not. -/
def State.loadLost (s : State) (c : Cmd) (n : Nat) : State := (s.cfgBad n (sliceIsland n 0)).mouldRej c.ctx 0x15 (dMould c.desc) true n

/-- A slice whose cells hold the configuration `b`, valid, with its resident allocations filled, takes its first tile. -/
def State.loaded (s : State) (c : Cmd) (n : Nat) (b : Bytes) : State :=
  ((((s.loadCells n b).updSlice n (fun x => { x with loading := false })).cfgValid n true).resFill c n).feed n

section
variable {n a : Nat} {b : Bytes} (hn : n < 32) (hl : (s.atSlice n).loading = true) (hc : (s.atSlice n).cmd = some (q, seq)) (h : s.cmd? q seq = some c)
include hn hl hc h

theorem exec_configLoadDone_badWord : exec (.configLoadDone n true) s = .next (s.loadLost c n) := by
  refine onUnit_next (decide_eq_true hn) ?_
  simp only [hl, hc, h]
  rfl

theorem exec_configLoadDone_homeless (hp : (s.mouldOf c).start = none) : exec (.configLoadDone n false) s = .next (s.loadLost c n) := by
  refine onUnit_next (decide_eq_true hn) ?_
  simp only [hl, hc, h, hp]
  rfl

variable (hp : (s.mouldOf c).start = some a)
include hp

theorem exec_configLoadDone_unread (hr : s.cfgRead c.part a (s.mouldOf c).image.length = (u, none)) :
    exec (.configLoadDone n false) s = .next (u.loadLost c n) := by
  refine onUnit_next (decide_eq_true hn) ?_
  simp only [hl, hc, h, hp, hr]
  rfl

theorem exec_configLoadDone_read (hr : s.cfgRead c.part a (s.mouldOf c).image.length = (u, some b)) :
    exec (.configLoadDone n false) s = .next (u.loaded c n b) := by
  refine onUnit_next (decide_eq_true hn) ?_
  simp only [hl, hc, h, hp, hr]
  rfl

end

/-! ### The end of a phase (R125, R126, R316) -/

/-- A phase whose tiles have ended and that no barrier holds up. -/
def State.tilesOver (s : State) (c : Cmd) : Prop := c.work = false ∧ dOp c.desc = 1 ∧ s.tilesDone c = true ∧ c.spr.waiting = false

theorem State.tilesOver.not_stays (ho : s.tilesOver c) : ¬ (c.work = true ∨ dOp c.desc ≠ 1 ∨ s.tilesDone c = false ∨ c.spr.waiting = true) := by
  obtain ⟨hw, hop, hd, hb⟩ := ho
  simp [hw, hop, hd, hb]

/-- The combine step of a phase has run. -/
abbrev State.phaseOver (s : State) (q seq : Nat) : State :=
  s.updCmd q seq (fun c => { c with spr := { c.spr with active := false, combined := true } })

section
variable (hq : q < 4096) (h : s.cmd? q seq = some c)
include hq h

theorem exec_phaseCombine_stays (ho : c.work = true ∨ dOp c.desc ≠ 1 ∨ s.tilesDone c = false ∨ c.spr.waiting = true) :
    exec (.phaseCombine q seq) s = .next s := by
  refine onUnit_next (decide_eq_true hq) ?_
  simp only [h]
  exact if_pos ho

variable (ho : s.tilesOver c)
include ho

theorem exec_phaseCombine_alone (hs : dSlot c.desc = none) : exec (.phaseCombine q seq) s = .next ((s.combine c).phaseOver q seq) := by
  refine onUnit_next (decide_eq_true hq) ?_
  simp only [h, hs]
  exact if_neg ho.not_stays

variable {slot : Nat} (hs : dSlot c.desc = some slot)
include hs

section
variable (hk : (s.phaseOf c).kind ≠ 3)
include hk

theorem exec_phaseCombine_span (hc : c.spr.combined = false) : exec (.phaseCombine q seq) s = .next ((s.combine c).phaseOver q seq) := by
  refine onUnit_next (decide_eq_true hq) ?_
  simp only [h, hs, if_neg ho.not_stays, hk, hc, false_and, Bool.false_eq_true, if_false]

theorem exec_phaseCombine_span_again (hc : c.spr.combined = true) : exec (.phaseCombine q seq) s = .next s := by
  refine onUnit_next (decide_eq_true hq) ?_
  simp only [h, hs, if_neg ho.not_stays, hk, hc, false_and, if_false, if_true]

end

section
variable (hk : (s.phaseOf c).kind = 3)
include hk

/-- In a COLLECTIVE phase the exchange's barrier comes first. -/
theorem exec_phaseCombine_barrier (hc : c.spr.combined = false) :
    exec (.phaseCombine q seq) s = .next ((s.sendBarrier c slot).barrierDone q seq) := by
  refine onUnit_next (decide_eq_true hq) ?_
  simp only [h, hs, if_neg ho.not_stays, if_pos (And.intro hk hc)]

theorem exec_phaseCombine_exchanged (hc : c.spr.combined = true) :
    exec (.phaseCombine q seq) s = .next ((s.combine c).updCmd q seq (fun c => { c with spr := { c.spr with active := false } })) := by
  refine onUnit_next (decide_eq_true hq) ?_
  simp only [h, hs, if_neg ho.not_stays, hk, hc, Bool.true_eq_false, and_false, if_false, if_true]

end

end

/-! ### The start of a phase (R128, R129) -/

/-- A command that does not go on to a phase: its work has ended or not begun, it is held or stops, or its phase is not over. -/
def State.phaseHeld (s : State) (q seq : Nat) (c : Cmd) : Prop :=
  c.work = true ∨ c.started = false ∨ c.held = true ∨ c.issued = false ∨ dOp c.desc ≠ 1 ∨ c.boundary = true ∨ c.stop ≠ 0 ∨ c.spr.active = true ∨
    c.spr.waiting = true ∨ s.moving q seq (fun _ => true) = true ∨ s.reqsOf q seq ≠ []

theorem State.phaseHeld_iff : s.phaseHeld q seq c ↔ c.work = true ∨ c.started = false ∨ c.held = true ∨ c.issued = false ∨ dOp c.desc ≠ 1 ∨
    c.boundary = true ∨ c.stop ≠ 0 ∨ c.spr.active = true ∨ c.spr.waiting = true ∨ s.moving q seq (fun _ => true) = true ∨
    (s.reqsOf q seq).isEmpty = false := by
  rw [State.phaseHeld, List.isEmpty_eq_false_iff]

section
variable (hq : q < 4096) (h : s.cmd? q seq = some c)
include hq h

theorem exec_phaseStart_held (hp : s.phaseHeld q seq c) : exec (.phaseStart q seq) s = .next s := by
  refine onUnit_next (decide_eq_true hq) ?_
  simp only [h]
  exact if_pos (State.phaseHeld_iff.mp hp)

variable (hp : ¬ s.phaseHeld q seq c)
include hp

theorem exec_phaseStart_opens (hc : c.spr.combined = false) : exec (.phaseStart q seq) s = .next (s.openPhase c) := by
  rw [State.phaseHeld_iff] at hp
  refine onUnit_next (decide_eq_true hq) ?_
  simp only [h, if_neg hp, if_pos hc]

variable (hc : c.spr.combined = true)
include hc

theorem exec_phaseStart_last (hx : nextPhase (s.mouldOf c).image c.spr = none) :
    exec (.phaseStart q seq) s = .next (((s.cmdSlices q seq).foldl State.unfillSlice s).cmdDone q seq 0) := by
  rw [State.phaseHeld_iff] at hp
  refine onUnit_next (decide_eq_true hq) ?_
  simp only [h, if_neg hp, if_neg (ne_false_of_eq_true hc), hx]

theorem exec_phaseStart_next {spr : Spread} {d : Cmd} (hx : nextPhase (s.mouldOf c).image c.spr = some spr)
    (hd : (s.updCmd q seq (fun c => { c with spr := spr })).cmd? q seq = some d) :
    exec (.phaseStart q seq) s = .next ((s.updCmd q seq (fun c => { c with spr := spr })).openPhase d) := by
  rw [State.phaseHeld_iff] at hp
  refine onUnit_next (decide_eq_true hq) ?_
  simp only [h, if_neg hp, if_neg (ne_false_of_eq_true hc), hx, hd]

end

/-! ### Boundaries (R133-R136) -/

/-- A command that stands at no boundary asked of it. -/
def State.pastBoundary (s : State) (c : Cmd) : Prop :=
  c.work = true ∨ c.started = false ∨ (c.boundary = false ∧ c.stop = 0) ∨ s.noBoundary c = true ∨ s.atBoundary c = false

theorem State.rebindHears_none (h : (s.atRebind c.part).op ≠ 1) : s.rebindHears c = (s, false) := by
  simp [State.rebindHears, h]

section
variable (hq : q < 4096) (h : s.cmd? q seq = some c)
include hq h

theorem exec_boundaryReached_past (hb : s.pastBoundary c) : exec (.boundaryReached q seq) s = .next s := by
  refine onUnit_next (decide_eq_true hq) ?_
  simp only [h]
  exact if_pos hb

variable (hb : ¬ s.pastBoundary c)
include hb

theorem exec_boundaryReached_breaks (hs : c.stop ≠ 0) : exec (.boundaryReached q seq) s = .next ((s.stopNow c).scheduleFor c.ctx) := by
  refine onUnit_next (decide_eq_true hq) ?_
  simp only [h]
  exact (if_neg hb).trans (if_pos hs)

variable (hs : c.stop = 0) (hr : (s.atRebind c.part).op ≠ 1)
include hs hr

theorem exec_boundaryReached_goesOn (ht : (s.atCtx c.ctx).tq = none) : exec (.boundaryReached q seq) s =
    .next (((s.updCmd q seq (fun d => { d with boundary := false })).scheduleFor c.ctx).feedCtx c.ctx) := by
  refine onUnit_next (decide_eq_true hq) ?_
  simp only [h]
  refine (if_neg hb).trans ((if_neg (not_not.mpr hs)).trans ?_)
  simp [State.rebindHears_none hr, ht]

theorem exec_boundaryReached_preempted (ht : (s.atCtx c.ctx).tq ≠ none) : exec (.boundaryReached q seq) s = .next (s.preempted c.ctx) := by
  refine onUnit_next (decide_eq_true hq) ?_
  simp only [h]
  refine (if_neg hb).trans ((if_neg (not_not.mpr hs)).trans ?_)
  simp [State.rebindHears_none hr, Option.isSome_iff_ne_none, ht]

end

/-! ### The obligation -/

/-- Settles O23, by what each of the eight commands does. -/
theorem mouldsAndPhasesOfACommand : Obligations.MouldsAndPhasesOfACommand := by
  refine ⟨fun s q seq c hq h => ⟨fun u m hst hw hh ho hs ht hwr hl hn hd => ?registers, fun hst hw ho => ?releases, fun n hn => ⟨?stays, ?starts, ?loads⟩,
      exec_phaseCombine_stays hq h, fun hw ho hd hb => ?combines,
      ⟨exec_phaseStart_held hq h, exec_phaseStart_opens hq h, exec_phaseStart_last hq h, fun _ _ hp hc => exec_phaseStart_next hq h hp hc⟩,
      ⟨exec_boundaryReached_past hq h, exec_boundaryReached_breaks hq h, exec_boundaryReached_goesOn hq h, exec_boundaryReached_preempted hq h⟩⟩,
    fun s part id hp hi => ⟨exec_registrationDone_idle hp hi rfl, fun q n h hr hw hc => exec_registrationDone_passed hp hi rfl h hw hr hc,
      fun _ _ h hw hc => exec_registrationDone_failed hp hi rfl h hw hc⟩⟩
  case registers =>
    have entered := exec_mouldRegister_device hq h ⟨hst, hw, hh⟩ hs ho ht hwr hl hn hd
    let v := u.imageRead q seq m
    refine ⟨⟨_, entered, fun i he hi => State.mouldEnter_shares he hi⟩, fun i hnone hf => ⟨v.mouldTaken c m i, ?_⟩⟩
    have entry : (v.mouldTaken c m i).atMould (c.part * 64 + i) = v.entryTaken c m := State.atMould_mouldTaken_self
    exact ⟨congrArg Mould.state entry, congrArg Mould.image entry, congrArg Mould.digest entry, congrArg Mould.start entry, congrArg Mould.regBy entry,
      fun k hk => State.atMould_mouldTaken_ne hk, State.mouldTaken_regs, State.sameBytes_of_mems (State.mouldTaken_mems.trans (State.updCmd_mems rfl)),
      fun hp => entered.trans (congrArg _ (State.mouldEnter_homeless (s := v) hnone hf hp)), fun a hp => entered.trans (congrArg _ (State.mouldEnter_placed (s := v) hnone hf hp))⟩
  case releases =>
    refine ⟨exec_mouldRelease_unregistered hq h hst hw ho rfl rfl, fun he hc => ?_, exec_mouldRelease_last hq h hst hw ho rfl rfl⟩
    rw [exec_mouldRelease_registered hq h hst hw ho rfl rfl he (by omega), if_neg (by omega)]
  case stays => exact exec_configLoad_stays hn hq h
  case starts =>
    exact fun hm => ⟨_, exec_configLoad_starts hn hq h hm, State.atSlice_loadStarted .., fun k hk => State.on_cfgValid _ n false hk,
      State.sameBytes_of_mems (State.loadStarted_mems ..)⟩
  case loads =>
    exact fun hl hc => ⟨exec_configLoadDone_badWord hn hl hc h, exec_configLoadDone_homeless hn hl hc h, fun _ _ => exec_configLoadDone_unread hn hl hc h,
      fun _ _ _ => exec_configLoadDone_read hn hl hc h⟩
  case combines =>
    have ended : s.tilesOver c := ⟨hw, ho, hd, hb⟩
    exact ⟨exec_phaseCombine_alone hq h ended, fun _ => exec_phaseCombine_span hq h ended, fun _ => exec_phaseCombine_barrier hq h ended,
      fun _ => exec_phaseCombine_exchanged hq h ended, fun _ => exec_phaseCombine_span_again hq h ended⟩

end Sys2Proof.Machine
end

section
/-! SUPPORT. The exchange of a function's host dirty log: what its completion writes out and forgets. -/

namespace Sys2Proof.Machine

open Sys2Proof

/-! ### What the exchange writes out (R188) -/

/-- A flush forgets the words of its bitmap and keeps every other. -/
theorem State.dlogFlush_dlogWords (s : State) (fn bm : Nat) :
    (s.dlogFlush fn bm).dlogWords = s.dlogWords.filter (fun e => e.1 / 2 ^ 32 != fn * 2 + bm) := by
  unfold State.dlogFlush
  refine foldl_keeps State.dlogWords (fun t e => ?_) _ _
  cases e.2 <;> rfl

/-- The completion of an exchange that runs: the words of the old bitmap go out and are forgotten, ACTIVE toggles, FLIP_BUSY clears. -/
theorem exec_hostDlogFlipDone_busy {s : State} {f : Nat} (hf : f < 256) (hb : s.on (dlogPg f) PCI_DLOG_CTL_FLIP_BUSY = true) :
    exec (.hostDlogFlipDone f) s = .next (((s.dlogFlush f (s.get (dlogPg f) PCI_DLOG_CTL_ACTIVE)).set (dlogPg f) PCI_DLOG_CTL_ACTIVE
      (1 - s.get (dlogPg f) PCI_DLOG_CTL_ACTIVE)).set (dlogPg f) PCI_DLOG_CTL_FLIP_BUSY 0) :=
  onUnit_next (decide_eq_true hf) (if_pos hb)

/-! ### The obligation -/

/-- A device that holds a word of function 0's active bitmap while the exchange of its bitmaps runs. -/
def flipHolding : State := { ({} : State).set (dlogPg 0) PCI_DLOG_CTL_FLIP_BUSY 1 with dlogWords := [(dlogKey 0 0 0, some 1)] }

theorem flipHolding_busy : flipHolding.on (dlogPg 0) PCI_DLOG_CTL_FLIP_BUSY = true := by decide

theorem flipHolding_active : flipHolding.get (dlogPg 0) PCI_DLOG_CTL_ACTIVE = 0 := by decide

/-- Refutes O11: HOST_DLOG_FLIP_DONE changes more than registers. The words of the old bitmap that the device still holds are written to host
memory and forgotten (R188); the state `flipHolding` holds one, and the statement has it kept. -/
theorem not_regionsAndDirtyLogs : ¬ Obligations.RegionsAndDirtyLogs := by
  intro h
  obtain ⟨-, -, exchange, -⟩ := h flipHolding
  obtain ⟨t, ht, registersOnly, -⟩ := (exchange 0 (by decide)).2 flipHolding_busy
  rw [exec_hostDlogFlipDone_busy (by decide) flipHolding_busy, flipHolding_active] at ht
  have kept : t.dlogWords = flipHolding.dlogWords := State.OnlyRegs.field registersOnly State.dlogWords
  have forgotten : t.dlogWords = [] := by
    rw [← Host.Outcome.next.inj ht]
    exact State.dlogFlush_dlogWords flipHolding 0 0
  rw [forgotten] at kept
  exact absurd kept (by decide)

end Sys2Proof.Machine
end

section
/-! SUPPORT. Units that retire: where a slice that leaves stands, and what the record of a retirement leaves as it is. -/

namespace Sys2Proof.Machine

open Sys2Proof

variable {s t u : State} {c : Cmd} {n : Nat}

/-! ### Where commands stand while a slice is marked as leaving (R453) -/

/-- What a slice has of a command: which one, its tile, and whether it has stopped. -/
def SliceSt.standing (y : SliceSt) : Option (Nat × Nat) × Option Nat × Bool := (y.cmd, y.tile, y.stopped)

/-- `s` and `t` agree on what says whether a command stands at a boundary. -/
structure State.SameStanding (s t : State) : Prop where
  slices : ∀ n, (t.atSlice n).standing = (s.atSlice n).standing
  quiet : ∀ n < 32, t.quiet n = s.quiet n
  cores : t.cores = s.cores
  moulds : t.moulds = s.moulds
  spans : ∀ a, Pg.base .part 0 ≤ a → t.rd a = s.rd a

namespace State.SameStanding

theorem refl (s : State) : s.SameStanding s := ⟨fun _ => rfl, fun _ _ => rfl, rfl, rfl, fun _ _ => rfl⟩

theorem trans (h : s.SameStanding t) (h' : t.SameStanding u) : s.SameStanding u :=
  ⟨fun n => (h'.slices n).trans (h.slices n), fun n hn => (h'.quiet n hn).trans (h.quiet n hn), h'.cores.trans h.cores,
    h'.moulds.trans h.moulds, fun a ha => (h'.spans a ha).trans (h.spans a ha)⟩

/-- A change of a slice that keeps what it has of a command. -/
theorem updSlice (s : State) (n : Nat) {f : SliceSt → SliceSt} (hf : ∀ y, (f y).standing = y.standing) : s.SameStanding (s.updSlice n f) :=
  { refl s with
    slices := fun k => by
      rw [State.atSlice_updSlice]
      split
      · next h => rw [hf, h]
      · rfl }

/-- A register below the partitions' pages, and not the one that shows quiescence. -/
theorem set {pg : Nat} {f : F} (v : Nat) (hb : pg + f.off < Pg.base .part 0)
    (hq : ∀ k < 8, (s.set pg f v).get (Pg.base .core k) CORE_QUIET_QUIET = s.get (Pg.base .core k) CORE_QUIET_QUIET) : s.SameStanding (s.set pg f v) :=
  { refl s with
    quiet := fun n hn => by
      rw [State.quiet, State.quiet, hq _ (by omega)]
    spans := fun a ha => State.rd_set_ne _ _ _ _ (by omega) }

theorem sliceIsland_lt {k : Nat} (hn : n < 32) (hk : k < 4) : sliceIsland n k < 128 := by
  simp only [sliceIsland]
  omega

theorem cfgValid (s : State) (hn : n < 32) (b : Bool) : s.SameStanding (s.cfgValid n b) := by
  have island (s : State) {k : Nat} (hk : k < 4) : s.SameStanding (s.mark (islPg (sliceIsland n k)) ISL_STAT_CFG_VALID b) := by
    have hi := sliceIsland_lt hn hk
    refine set _ ?_ fun j hj => State.get_set_ne _ _ _ _ fun h => ?_
    · simp only [islPg, Pg.base, ISL_STAT_CFG_VALID]
      omega
    · exact Pg.noConfusion (base_inj (p := .core) (q := .isl) hj hi (by decide) (by decide) h).1
  have islands (l : List Nat) (hl : ∀ k ∈ l, k < 4) (s : State) :
      s.SameStanding (l.foldl (fun s k => s.mark (islPg (sliceIsland n k)) ISL_STAT_CFG_VALID b) s) := by
    induction l generalizing s with
    | nil => exact refl s
    | cons k l ih => exact (island s (hl k List.mem_cons_self)).trans (ih (fun k hk => hl k (List.mem_cons_of_mem _ hk)) _)
  exact islands _ (fun k hk => List.mem_range.mp hk) s

theorem heldMark (s : State) (hn : n < 32) (b : Bool) : s.SameStanding (s.heldMark n b) := by
  refine set _ ?_ fun j _ => ?_
  · simp only [Pg.base, CORE_QUIET_HELD]
    omega
  · by_cases hj : j = n / 4
    · rw [hj]
      exact State.get_set_disjoint _ _ _ _ rfl (by decide) (by decide) (.inr (by decide))
    · exact State.get_set_ne _ _ _ _ (by simp only [Pg.base, CORE_QUIET_QUIET, CORE_QUIET_HELD]; omega)

theorem markLeaving (s : State) (hn : n < 32) : s.SameStanding (s.markLeaving n) := by
  have leaves (t : State) : t.SameStanding ((t.updSlice n (fun y => { y with leaving := true })).heldMark n (!t.quiet n)) :=
    (updSlice t n (f := fun y => { y with leaving := true }) fun _ => rfl).trans (heldMark _ hn _)
  unfold State.markLeaving
  dsimp only
  split
  · exact ((updSlice s n (f := fun y => { y with loading := false, cfg := none }) fun _ => rfl).trans (cfgValid _ hn false)).trans (leaves _)
  · exact leaves s

theorem capOpen (s : State) (n : Nat) : s.SameStanding (s.capOpen n) := by
  unfold State.capOpen
  split
  · exact refl s
  · exact { refl s with }

theorem stopped (h : s.SameStanding t) (n : Nat) : (t.atSlice n).stopped = (s.atSlice n).stopped :=
  congrArg (fun y => y.2.2) (h.slices n)

theorem askBoundary (s : State) (q seq : Nat) : s.SameStanding (s.askBoundary q seq) := { refl s with }

theorem sliceCmd (h : s.SameStanding t) (hc : t.cmds = s.cmds) (n : Nat) : t.sliceCmd n = s.sliceCmd n := by
  have cmd : (t.atSlice n).cmd = (s.atSlice n).cmd := congrArg (fun y => y.1) (h.slices n)
  unfold State.sliceCmd State.cmd? State.cmdsOf
  rw [cmd, hc]

theorem phaseOf (h : s.SameStanding t) (c : Cmd) : t.phaseOf c = s.phaseOf c := by
  unfold State.phaseOf State.mouldOf State.atMould
  rw [h.moulds]

theorem noBoundary (h : s.SameStanding t) (c : Cmd) : t.noBoundary c = s.noBoundary c := by
  unfold State.noBoundary
  rw [h.phaseOf]

theorem spanOf (h : s.SameStanding t) (c : Cmd) : t.spanOf c = s.spanOf c := by
  have entry (l : Nat) (f : F) : t.get (spanAt c.part l) f = s.get (spanAt c.part l) f := by
    rw [State.get, State.get, h.spans _ (by simp only [spanAt, partPg, Pg.base]; omega)]
  unfold State.spanOf State.spanM
  simp only [entry]

theorem phaseChanging (h : s.SameStanding t) (c : Cmd) : t.phaseChanging c = s.phaseChanging c := by
  unfold State.phaseChanging State.boxOf
  rw [h.phaseOf, h.spanOf]

theorem atBoundary (h : s.SameStanding t) (c : Cmd) : t.atBoundary c = s.atBoundary c := by
  have cmd (n : Nat) : (t.atSlice n).cmd = (s.atSlice n).cmd := congrArg (fun y => y.1) (h.slices n)
  have tile (n : Nat) : (t.atSlice n).tile = (s.atSlice n).tile := congrArg (fun y => y.2.1) (h.slices n)
  have slices : t.cmdSlices c.q c.seq = s.cmdSlices c.q c.seq := by simp only [State.cmdSlices, cmd]
  have still : (s.cmdSlices c.q c.seq).all (fun n => (t.atSlice n).tile.isNone && t.quiet n) =
      (s.cmdSlices c.q c.seq).all (fun n => (s.atSlice n).tile.isNone && s.quiet n) := by
    rw [Bool.eq_iff_iff, List.all_eq_true, List.all_eq_true]
    refine forall₂_congr fun n hn => ?_
    have hn : n < 32 := List.mem_range.mp (List.mem_of_mem_filter hn)
    rw [tile, h.quiet n hn]
  unfold State.atBoundary State.moving
  rw [slices, still, h.cores, h.phaseChanging]

end State.SameStanding

/-! ### A slice that is marked as leaving (R453 step 1) -/

/-- Marking a slice changes registers and slices only. -/
theorem State.markLeaving_field {β : Type} (s : State) (n : Nat) (f : State → β)
    (hf : ∀ (a : State) r y, f { a with regs := r, slices := y } = f a := by exact fun _ _ _ => rfl) : f (s.markLeaving n) = f s := by
  have valid (a : State) (b : Bool) : f (a.cfgValid n b) = f a :=
    foldl_keeps f (fun a k => hf a (a.mark (islPg (sliceIsland n k)) ISL_STAT_CFG_VALID b).regs a.slices) _ a
  have left (a : State) : f ((a.updSlice n (fun y => { y with leaving := true })).heldMark n (!a.quiet n)) = f a := hf a _ _
  unfold State.markLeaving
  dsimp only
  split
  · exact (left _).trans ((valid _ false).trans (hf s _ _))
  · exact left s

/-- While a slice retires CAPT_GEN is odd. -/
theorem State.capOpen_captGen (h : n ∉ s.rcv.retiring) : (s.capOpen n).captGen % 2 = 1 := by
  have first : ¬ s.rcv.retiring.contains n = true := by simpa using h
  rw [State.capOpen, if_neg first]
  show (s.captGen + (s.captGen + 1) % 2) % 2 = 1
  omega

/-- No binding operation ends when none touches the units. -/
theorem State.preemptRebinds_untouched {slices chans ports : List Nat} (h : ∀ p < 32, s.rebindTouches p slices chans ports = false) :
    s.preemptRebinds slices chans ports = s := by
  have none : (List.range 32).filter (fun p => s.rebindTouches p slices chans ports) = [] :=
    List.filter_eq_nil_iff.mpr fun p hp => by simp [h p (List.mem_range.mp hp)]
  rw [State.preemptRebinds, none]
  rfl

theorem State.rebindTouches_capOpen (s : State) (n p : Nat) (slices chans ports : List Nat) :
    (s.capOpen n).rebindTouches p slices chans ports = s.rebindTouches p slices chans ports := by
  unfold State.capOpen
  split <;> rfl

/-- The slice as its retirement finds it: CAPT_GEN odd, the slice marked. -/
abbrev State.retiring (s : State) (n : Nat) : State := (s.capOpen n).markLeaving n

theorem State.SameStanding.retiring (s : State) (hn : n < 32) : s.SameStanding (s.retiring n) := (capOpen s n).trans (markLeaving _ hn)

theorem State.sliceCmd_retiring (s : State) (hn : n < 32) : (s.retiring n).sliceCmd n = s.sliceCmd n := by
  refine (State.SameStanding.retiring s hn).sliceCmd ((State.markLeaving_field _ n State.cmds).trans ?_) n
  unfold State.capOpen
  split <;> rfl

/-- The commands of a retiring slice that are asked for a boundary. -/
def State.askedOn (s : State) (n : Nat) : List Cmd := match s.sliceCmd n with
  | some c => if c.work then [] else [c]
  | none => []

section
variable {r : Nat} (hn : n < 32) (hs : s.rcv.scope = none) (hb : ∀ p < 32, s.rebindTouches p [n] [] [] = false)
include hs hb

/-- Outside tasting and binding operations a retirement marks the slice and asks, then the slice goes or waits. -/
theorem State.retireSlice_eq : s.retireSlice n r =
    (let u := s.retiring n
     let first := !s.rcv.retiring.contains n
     let v := if first then (u.askedOn n).foldl (fun v c => v.askBoundary c.q c.seq) u else u
     if first = false ∨ (v.atSlice n).stopped = true ∨ (u.askedOn n).all (fun c => v.atBoundary c && !v.noBoundary c) = true
       then v.sliceGone n r else v) := by
  have untouched := State.preemptRebinds_untouched fun p hp => (State.rebindTouches_capOpen s n p [n] [] []).trans (hb p hp)
  simp only [State.retireSlice, hs, Option.any_none, Bool.false_eq_true, if_false, untouched]
  rfl

theorem State.retireSlice_again (h : n ∈ s.rcv.retiring) : s.retireSlice n r = (s.retiring n).sliceGone n r := by
  have h : s.rcv.retiring.contains n = true := by simpa using h
  rw [State.retireSlice_eq hs hb]
  simp only [h, Bool.not_true, true_or, if_true, Bool.false_eq_true, if_false]

include hn

/-- A slice that runs no command goes at once. -/
theorem State.retireSlice_idle (hc : s.sliceCmd n = none) : s.retireSlice n r = (s.retiring n).sliceGone n r := by
  have asked : (s.retiring n).askedOn n = [] := by rw [State.askedOn, State.sliceCmd_retiring s hn, hc]
  rw [State.retireSlice_eq hs hb]
  simp only [asked, List.foldl_nil, ite_self, List.all_nil, or_true, if_true]

/-- A command that runs on the slice and stands at no boundary is asked for one. -/
theorem State.retireSlice_asks (hc : s.sliceCmd n = some c) (hw : c.work = false) (h : n ∉ s.rcv.retiring)
    (hst : (s.atSlice n).stopped = false) (hat : s.atBoundary c = false ∨ s.noBoundary c = true) :
    s.retireSlice n r = (s.retiring n).askBoundary c.q c.seq := by
  have standing := (State.SameStanding.retiring s hn).trans (.askBoundary _ c.q c.seq)
  have asked : (s.retiring n).askedOn n = [c] := by simp [State.askedOn, State.sliceCmd_retiring s hn, hc, hw]
  have first : s.rcv.retiring.contains n = false := by simpa using h
  have waits : (s.atBoundary c && !s.noBoundary c) = false := by
    obtain h | h := hat <;> simp [h]
  rw [State.retireSlice_eq hs hb]
  simp only [asked, first, Bool.not_false, Bool.true_eq_false, Bool.false_eq_true, if_true, if_false, List.foldl_cons, List.foldl_nil, List.all_cons, List.all_nil, Bool.and_true, false_or,
    standing.stopped, standing.atBoundary, standing.noBoundary, hst, waits]

end

/-! ### Entries that become RETIRED (R233, R451) -/

theorem State.eventAll_sansEvents (s : State) (es : List Nat) (typ fn : Nat) (p : Bytes) : (s.eventAll es typ fn p).sansEvents = s.sansEvents :=
  foldl_keeps State.sansEvents (fun s e => s.event_sansEvents e typ fn p) _ s

theorem State.eventAll_sameBelowEvq (s : State) (es : List Nat) (typ fn : Nat) (p : Bytes) : s.SameBelowEvq (s.eventAll es typ fn p) := by
  unfold State.eventAll
  generalize es.eraseDups = l
  induction l generalizing s with
  | nil => exact .of_regs rfl
  | cons e l ih => exact (s.event_sameBelowEvq e typ fn p).trans (ih _)

theorem State.unitRetired_capt (s : State) (typ idx reason : Nat) (holders : List Nat) :
    (s.unitRetired typ idx reason holders).capt = Tab.put 1 (typ * 1024 + idx) 2 s.capt := by
  refine (State.field_of_sansEvents (State.eventAll_sansEvents ..) State.capt).trans ?_
  split <;> rfl

/-- The record of a retirement changes, below the event queues' pages, the alarm bits only. -/
theorem State.unitRetired_rd (s : State) (typ idx reason : Nat) (holders : List Nat) {a : Nat} (ha : a < Pg.base .evq 0) (hm : a ≠ mgmtPg + MGMT_ALARM) :
    (s.unitRetired typ idx reason holders).rd a = s.rd a := by
  refine ((State.eventAll_sameBelowEvq ..).rd_eq a ha).trans ((State.rd_wr_ne _ _ _ hm).trans ?_)
  split <;> rfl

theorem State.recordRetired_field {β : Type} (s : State) (typ idx reason : Nat) (f : State → β)
    (hf : ∀ (a : State) x, f { a with flash := x } = f a := by exact fun _ _ => rfl) : f (s.recordRetired typ idx reason) = f s := by
  unfold State.recordRetired
  split
  · rfl
  · exact hf s _

theorem State.retireDone_onlyRegs (s : State) (typ idx : Nat) : s.OnlyRegs (s.retireDone typ idx) :=
  .ite (.trans (.set ..) (.set ..)) (.refl s)

theorem State.retireDone_rd (s : State) (typ idx : Nat) {a : Nat} (ha : a ≠ rcvPg + GLB_RETIRE_REQ_BUSY.off) : (s.retireDone typ idx).rd a = s.rd a := by
  unfold State.retireDone
  dsimp only
  split
  · rw [State.rd_set_ne _ _ _ _ (show a ≠ rcvPg + GLB_RETIRE_REQ_RESULT.off from ha), State.rd_set_ne _ _ _ _ ha]
  · rfl

/-- A unit's entry becomes RETIRED, its retirement is recorded, and a request for it is answered. -/
abbrev State.retired (s : State) (typ idx reason : Nat) (holders : List Nat) : State :=
  ((s.unitRetired typ idx reason holders).recordRetired typ idx reason).retireDone typ idx

theorem State.retired_capState (s : State) (typ idx reason : Nat) (holders : List Nat) (typ' idx' : Nat) :
    (s.retired typ idx reason holders).capState typ' idx' = if typ' * 1024 + idx' = typ * 1024 + idx then 2 else s.capState typ' idx' := by
  have capt : (s.retired typ idx reason holders).capt = Tab.put 1 (typ * 1024 + idx) 2 s.capt :=
    ((State.retireDone_onlyRegs ..).field State.capt).trans ((State.recordRetired_field _ _ _ _ State.capt).trans (State.unitRetired_capt ..))
  rw [State.capState, capt, Tab.get_put, State.capState]

theorem State.retired_capState_self (s : State) (typ idx reason : Nat) (holders : List Nat) : (s.retired typ idx reason holders).capState typ idx = 2 := by
  rw [State.retired_capState, if_pos rfl]

theorem State.retired_rd (s : State) (typ idx reason : Nat) (holders : List Nat) {a : Nat} (ha : a < Pg.base .evq 0) (hm : a ≠ mgmtPg + MGMT_ALARM)
    (hr : a ≠ rcvPg + GLB_RETIRE_REQ_BUSY.off) : (s.retired typ idx reason holders).rd a = s.rd a :=
  (State.retireDone_rd _ _ _ hr).trans ((State.recordRetired_field _ _ _ _ (State.rd · a)).trans (State.unitRetired_rd _ _ _ _ _ ha hm))

/-! ### Channel groups and ports (R454, R455) -/

/-- A channel of a group that retires: its buffers are lost, it leaves service, its entry becomes RETIRED. -/
def State.retireChan (s : State) (c reason : Nat) : State :=
  let t := (s.setBufs c []).set (memcPg c) MEMC_LANE_STAT_IN_SERVICE 0
  t.retired 2 c reason (t.chanParts c)

theorem State.retireGroup_eq (s : State) (g reason : Nat) :
    s.retireGroup g reason = ((s.preemptRebinds [] [2 * g, 2 * g + 1] []).retireChan (2 * g) reason).retireChan (2 * g + 1) reason := rfl

/-- The channel is RETIRED and out of service. -/
def State.ChanOut (s : State) (c : Nat) : Prop := s.capState 2 c = 2 ∧ s.get (memcPg c) MEMC_LANE_STAT_IN_SERVICE = 0

theorem State.rd_retired_memc (s : State) (typ idx reason : Nat) (holders : List Nat) {c : Nat} (hc : c < 256) :
    (s.retired typ idx reason holders).get (memcPg c) MEMC_LANE_STAT_IN_SERVICE = s.get (memcPg c) MEMC_LANE_STAT_IN_SERVICE := by
  rw [State.get, State.get, State.retired_rd]
  all_goals
    simp only [memcPg, rcvPg, mgmtPg, Pg.base, MEMC_LANE_STAT_IN_SERVICE, MGMT_ALARM, GLB_RETIRE_REQ_BUSY]
    omega

theorem State.chanOut_retireChan_self (s : State) {k : Nat} (hk : k < 256) (reason : Nat) : (s.retireChan k reason).ChanOut k :=
  ⟨State.retired_capState_self .., by
    rw [State.retireChan, State.rd_retired_memc _ _ _ _ _ hk, State.get_set_self _ _ _ _ (by decide) (by decide), Nat.zero_mod]⟩

/-- A channel that is out stays so when another retires. -/
theorem State.ChanOut.retireChan {k j : Nat} (h : s.ChanOut j) (hj : j < 256) (hk : k < 256) (hne : j ≠ k) (reason : Nat) : (s.retireChan k reason).ChanOut j := by
  obtain ⟨hcap, hout⟩ := h
  refine ⟨?_, ?_⟩
  · rw [State.retireChan, State.retired_capState, if_neg (by omega)]
    exact hcap
  · rw [State.retireChan, State.rd_retired_memc _ _ _ _ _ hj, State.get_set_ne _ _ _ _ fun h => hne ?_]
    · exact hout
    · exact (base_inj (p := .memc) (q := .memc) hj hk (by decide) (by decide) h).2.1

theorem State.chanOut_retireGroup (s : State) {g : Nat} (hg : g < 128) (reason : Nat) :
    (s.retireGroup g reason).ChanOut (2 * g) ∧ (s.retireGroup g reason).ChanOut (2 * g + 1) := by
  have hl : 2 * g < 256 := by omega
  have hr : 2 * g + 1 < 256 := by omega
  rw [State.retireGroup_eq]
  exact ⟨(State.chanOut_retireChan_self _ hl reason).retireChan hl hr (by omega) reason, State.chanOut_retireChan_self _ hr reason⟩

/-! ### Thresholds (R451) -/

theorem State.weakLane_count {i l : Nat} (h : s.weakLane i = some l) : 256 ≤ ((s.faultsOf 5 i).filter (fun e => e.2 == l)).length := by
  simpa using List.find?_some h

/-! ### The obligation -/

section
variable {i g : Nat}

theorem exec_retireThreshold_slice (hi : i < 32) (hc : s.capState 1 i ≠ 2) :
    exec (.retireThreshold 0 i) s = .next (if 2 ≤ (s.faultsOf 0 i).length then s.retireSlice i 1 else s) ∧
    exec (.retireThreshold 1 i) s = .next (if 4 ≤ (((s.faultsOf 1 i).map (·.2)).eraseDups).length then s.retireSlice i 2 else s) ∧
    exec (.retireThreshold 2 i) s = .next (if 3 ≤ (s.faultsOf 2 i).length then s.retireSlice i 3 else s) := by
  refine ⟨onUnit_next (decide_eq_true hi) ?_, onUnit_next (decide_eq_true hi) ?_, onUnit_next (decide_eq_true hi) ?_⟩ <;> simp [hc]

theorem exec_retireThreshold_lane_none (hi : i < 256) (h : s.weakLane i = none) : exec (.retireThreshold 5 i) s = .next s := by
  refine onUnit_next (decide_eq_true hi) ?_
  simp [h]

theorem exec_retireThreshold_lane_some {l : Nat} (hi : i < 256) (h : s.weakLane i = some l) :
    exec (.retireThreshold 5 i) s = .next ((s.sweepStart i l).laneStarted i l) := by
  refine onUnit_next (decide_eq_true hi) ?_
  simp [h]

theorem exec_retireThreshold_group (hg : g < 128) (hc : s.capState 2 (2 * g) ≠ 2) :
    exec (.retireThreshold 7 g) s = .next (s.retireGroup g 6) ∧
    exec (.retireThreshold 8 g) s = .next (if 16 ≤ (((s.faultsOf 8 g).map (·.2)).eraseDups).length then s.retireGroup g 2 else s) := by
  refine ⟨onUnit_next (decide_eq_true hg) ?_, onUnit_next (decide_eq_true hg) ?_⟩ <;> simp [hc]

theorem exec_retireThreshold_seam (hi : i < 192) :
    exec (.retireThreshold 10 i) s = .next (if 1000 ≤ (s.faultsOf 10 i).length then s.recordRetired 4 i 7 else s) := by
  refine onUnit_next (decide_eq_true hi) ?_
  simp

theorem exec_retireThreshold_port (hi : i < 36) (hc : s.capState 3 i ≠ 2) :
    exec (.retireThreshold 11 i) s = .next (if 3 ≤ (s.faultsOf 11 i).length then s.retirePort i 8 else s) := by
  refine onUnit_next (decide_eq_true hi) ?_
  simp [hc]

end

/-! ### The obligation -/

/-- Settles O51, by what each of the four commands does. -/
theorem unitsRetire : Obligations.UnitsRetire := by
  intro s
  refine ⟨fun n r hn => ⟨?retired, fun hc hs hb => ?slice⟩, fun g r hg => ⟨?gone, fun hc => ?group⟩, fun p r hp => ⟨?down, fun hc => ?port, ?entry⟩,
    fun i hi hc => exec_retireThreshold_slice hi hc,
    fun i hi => ⟨exec_retireThreshold_lane_none hi, fun l h => ⟨exec_retireThreshold_lane_some hi h, State.weakLane_count h⟩⟩,
    fun g hg hc => exec_retireThreshold_group hg hc, fun i hi => exec_retireThreshold_seam hi, fun p hp hc => exec_retireThreshold_port hp hc⟩
  case retired => exact fun h => onUnit_next (decide_eq_true hn) (if_pos h)
  case gone => exact fun h => onUnit_next (decide_eq_true hg) (if_pos h)
  case down => exact fun h => onUnit_next (decide_eq_true hp) (if_pos h)
  case slice =>
    have retires : exec (.sliceRetire n r) s = .next (s.retireSlice n r) := onUnit_next (decide_eq_true hn) (if_neg hc)
    refine ⟨fun h => (State.markLeaving_field _ n (·.captGen % 2)).trans (State.capOpen_captGen h), fun h => retires.trans (congrArg _ ?_),
      fun c hcmd hw h hst hat => retires.trans (congrArg _ (State.retireSlice_asks hn hs hb hcmd hw h hst hat))⟩
    obtain h | h := h
    · exact State.retireSlice_idle hn hs hb h
    · exact State.retireSlice_again hs hb h
  case group =>
    obtain ⟨⟨hl, hl'⟩, hr, hr'⟩ := s.chanOut_retireGroup hg r
    exact ⟨_, onUnit_next (decide_eq_true hg) (if_neg hc), hl, hr, hl', hr'⟩
  case port => exact onUnit_next (decide_eq_true hp) (if_neg hc)
  case entry => exact State.retired_capState_self ..

end Sys2Proof.Machine
end

section
/-! SUPPORT. Temperature samples: what each leaves as it is, and a tower's refresh. -/

namespace Sys2Proof.Machine

open Sys2Proof

variable {s t : State} {kind i n : Nat}

theorem State.sameBytes_of_sansEvents (h : t.sansEvents = s.sansEvents) : s.sameBytes t := by
  have hm : t.mem = s.mem := State.field_of_sansEvents h State.mem
  have hp : t.spad = s.spad := State.field_of_sansEvents h State.spad
  have hs : t.share = s.share := State.field_of_sansEvents h State.share
  exact ⟨fun _ => by rw [hm], fun _ => by rw [hp], fun _ => by rw [hs]⟩

/-! ### The temperature registers (R369) -/

/-- A byte of a reading that it cannot hold draws a free value, and changes nothing else. -/
theorem State.tempByte_frame (s : State) (x : Option Int) : (s.tempByte x).2 = { s with draws := (s.tempByte x).2.draws } := by
  unfold State.tempByte
  split
  · rfl
  · split <;> rfl

theorem State.tempByte_sansEvents (s : State) (x : Option Int) : (s.tempByte x).2.sansEvents = s.sansEvents := by
  rw [State.tempByte_frame]
  rfl

theorem State.tempByte_rd (s : State) (x : Option Int) (a : Nat) : (s.tempByte x).2.rd a = s.rd a := by
  rw [State.tempByte_frame]
  rfl

theorem State.putTemp_sansEvents (s : State) (off i : Nat) (x : Option Int) : (s.putTemp off i x).sansEvents = s.sansEvents :=
  s.tempByte_sansEvents x

theorem State.putTemp_rd (s : State) (off i : Nat) (x : Option Int) {a : Nat} (h : a ≠ thmPg + off + 4 * (i / 4)) : (s.putTemp off i x).rd a = s.rd a :=
  (State.rd_wr_ne _ _ _ h).trans (s.tempByte_rd x a)

/-- The registers of the hottest readings change, and a free value may be drawn. -/
theorem State.hotRegs_sansEvents (s : State) (kind : Nat) : (s.hotRegs kind).sansEvents = s.sansEvents := by
  refine Eq.trans ?_ (s.tempByte_sansEvents ((s.hotRead kind).map (·.2)))
  unfold State.hotRegs
  dsimp only
  split
  · rw [State.set_sansEvents, State.set_sansEvents]
  · rw [State.set_sansEvents, State.set_sansEvents]
  · rw [State.set_sansEvents]
  · rfl

theorem State.hotRegs_rd (s : State) (kind : Nat) {a : Nat} (hj : a ≠ thmPg + THM_JUNC) (ht : a ≠ thmPg + THM_TOWER) : (s.hotRegs kind).rd a = s.rd a := by
  refine Eq.trans ?_ (s.tempByte_rd ((s.hotRead kind).map (·.2)) a)
  have junc (t : State) (f : F) (v : Nat) (hf : f.off = THM_JUNC) : (t.set thmPg f v).rd a = t.rd a := State.rd_set_ne _ _ _ _ (by rw [hf]; exact hj)
  have tower (t : State) (f : F) (v : Nat) (hf : f.off = THM_TOWER) : (t.set thmPg f v).rd a = t.rd a := State.rd_set_ne _ _ _ _ (by rw [hf]; exact ht)
  unfold State.hotRegs
  dsimp only
  split
  · rw [junc _ _ _ rfl, junc _ _ _ rfl]
  · rw [tower _ _ _ rfl, tower _ _ _ rfl]
  · rw [junc _ _ _ rfl]
  · rfl

/-! ### Base-die and stage samples (R369) -/

/-- The registers of a kind's readings start here. -/
def tempRegs (kind : Nat) : Nat := if kind = 1 then THM_ISL else if kind = 3 then THM_BASE else THM_STAGE

/-- A base-die or stage sensor's reading, kept and shown. -/
def State.sampled (s : State) (kind i : Nat) (temp : Int) : State :=
  let t := s.takeTemp kind i (some temp)
  (t.putTemp (tempRegs kind) i (t.reading kind i)).hotRegs kind

theorem exec_thermalSample {temp : Int} (h : (kind = 3 ∧ i < 16) ∨ (kind = 4 ∧ i < 4)) (hr : s.running = true) :
    exec (.thermalSample kind i temp) s = .next ((s.sampled kind i temp).judgeTemp kind i) := by
  have up : ¬ s.running = false := by simp [hr]
  obtain ⟨rfl, hi⟩ | ⟨rfl, hi⟩ := h <;> exact onUnit_next (by simpa [sensorCount] using hi) (if_neg up)

theorem State.sampled_therm (s : State) (kind i : Nat) (temp : Int) : (s.sampled kind i temp).therm = (s.takeTemp kind i (some temp)).therm :=
  (State.field_of_sansEvents (State.hotRegs_sansEvents ..) State.therm).trans (State.field_of_sansEvents (State.putTemp_sansEvents ..) State.therm)

theorem State.sampled_sameBytes (s : State) (kind i : Nat) (temp : Int) : s.sameBytes (s.sampled kind i temp) :=
  State.sameBytes_of_sansEvents (s := s.takeTemp kind i (some temp)) ((State.hotRegs_sansEvents ..).trans (State.putTemp_sansEvents ..))

/-- The reading of a sensor of another kind than the junctions is the one taken. -/
theorem State.reading_of_takeTemp {x : Option Int} (hk : kind ≠ 1) (h : t.therm = (s.takeTemp kind i x).therm) : t.reading kind i = x := by
  rw [State.reading, if_neg (by simp [hk]), h]
  exact Tab.get_put_self ..

theorem State.senses_eq_reading (s : State) (hk : kind ≠ 1) (i : Nat) : s.senses kind i = s.reading kind i := if_neg (by simp [hk])

theorem hardBit_off (kind : Nat) : (hardBit kind).off = THM_STAT := by
  unfold hardBit
  split <;> rfl

/-- A sample sets no HARD bit before it is judged. -/
theorem State.on_hardBit_sampled (s : State) (kind i : Nat) (temp : Int) (f : Nat) :
    (s.sampled kind i temp).on thmPg (hardBit f) = s.on thmPg (hardBit f) := by
  have elsewhere : thmPg + THM_STAT ≠ thmPg + tempRegs kind + 4 * (i / 4) := by
    have h : 0x050 ≤ tempRegs kind := by
      unfold tempRegs
      split
      · decide
      · split <;> decide
    simp only [THM_STAT]
    omega
  rw [State.on, State.on, State.get, State.get, hardBit_off, State.sampled, State.hotRegs_rd _ _ (by decide) (by decide), State.putTemp_rd _ _ _ _ elsewhere]
  rfl

/-! ### The judgement of a reading (R370, R371) -/

/-- The samples in a row at the trip limit, after one. -/
abbrev State.tripCounted (s : State) (kind i : Nat) (temp : Int) : State :=
  { s with therm := { s.therm with trips := Tab.upd 0 s.therm.trips (kind * 256 + i) (fun n => if tripLimit kind ≤ temp then n + 1 else 0) } }

theorem State.judgeTemp_eq {temp : Int} (h : s.senses kind i = some temp) : s.judgeTemp kind i =
    if temp < hardLimit kind ∨ s.on thmPg (hardBit kind) = true then s.tripCounted kind i temp
    else (((((s.tripCounted kind i temp).set thmPg (hardBit kind) 1).bump (thmPg + THM_HARD_CNT) 1).alarm 0).event0 0x12
      (leBytes 1 kind ++ leBytes 1 2 ++ leBytes 2 i ++ leBytes 2 (codeOf 16 temp))).clocks := by
  simp only [State.judgeTemp, h]
  rfl

theorem exec_thermalTrip (hi : i < sensorCount kind) (ht : s.therm.tripped = false) (h2 : 2 ≤ Tab.get 0 s.therm.trips (kind * 256 + i)) :
    exec (.thermalTrip kind i) s =
      (let u := { s with therm := { s.therm with tripped := true }, pins := { s.pins with tripN := false } }
       let v := ((u.set thmPg THM_STAT_TRIP 1).set thmPg THM_STAT_TRIP_KIND kind).set thmPg THM_STAT_TRIP_INDEX i
       .next ((((v.alarm 1).set mgmtPg MGMT_PHASE_PHASE 7).goingDown).clocks)) := by
  have trips : ¬ (s.therm.tripped = true ∨ Tab.get 0 s.therm.trips (kind * 256 + i) < 2) := by
    rintro (h | h)
    · exact Bool.noConfusion (h.symm.trans ht)
    · omega
  exact onUnit_next (decide_eq_true hi) (if_neg trips)

theorem exec_hardThrottleLift_cool (h1 : 1 ≤ kind) (h4 : kind ≤ 4) (hon : s.on thmPg (hardBit kind) = true)
    (hc : ∀ i t, i < sensorCount kind → s.senses kind i = some t → t + 5 ≤ hardLimit kind) :
    exec (.hardThrottleLift kind) s = .next ((s.set thmPg (hardBit kind) 0).clocks) := by
  have cool : (List.range (sensorCount kind)).all (fun i => (s.senses kind i).all (fun t => decide (t + 5 ≤ hardLimit kind))) = true := by
    rw [List.all_eq_true]
    intro i hi
    rw [Option.all_eq_true]
    exact fun t ht => decide_eq_true (hc i t (List.mem_range.mp hi) ht)
  exact onUnit_next (by simp [h1, h4]) (if_neg (not_or.mpr ⟨ne_false_of_eq_true hon, ne_false_of_eq_true cool⟩))

/-! ### A tower's readings and its refresh (R156, R157) -/

theorem State.on_mark_self (s : State) (pg : Nat) (f : F) (b : Bool) (hf : f.hi = f.lo) (hw : f.hi < 32) : (s.mark pg f b).on pg f = b := by
  rw [State.mark, State.on, State.get_set_self _ _ _ _ (le_of_eq hf.symm) hw, hf, Nat.add_sub_cancel_left]
  cases b <;> rfl

theorem State.on_refreshMode (s : State) (tower : Nat) (b : Bool) : (s.refreshMode tower b).on (Pg.base .memt tower) MEMT_REFRESH_DOUBLED = b := by
  unfold State.refreshMode
  dsimp only
  split
  · next h => exact h
  · exact s.on_mark_self _ _ b rfl (by decide)

theorem State.atTower_refreshMode (s : State) (tower : Nat) (b : Bool) (k : Nat) : (s.refreshMode tower b).atTower k = s.atTower k := by
  unfold State.refreshMode
  dsimp only
  split <;> rfl

/-- The alarm and the record of the first sensor of a tower that has become faulty. -/
def State.sensorTold (s : State) (tower : Nat) (temps : List Int) : Option Nat → State
  | none => s
  | some d => ((s.alarm 3).bumpF pwrPg PWR_EVT_CNT_SENSOR 1).event0 0x11
      (leBytes 1 2 ++ leBytes 1 0 ++ leBytes 2 (tower * 8 + d) ++ leBytes 2 (codeOf 16 (temps.getD d 0)))

theorem State.sensorTold_towers (s : State) (tower : Nat) (temps : List Int) (new : Option Nat) : (s.sensorTold tower temps new).towers = s.towers := by
  cases new with
  | none => rfl
  | some d => exact State.field_of_sansEvents (State.event_sansEvents ..) State.towers

/-- A tower's sample: the readings are kept and shown, a faulty sensor told, and a hot tower or a faulty sensor doubles the refresh. -/
theorem State.towerSample_eq (s : State) (tower : Nat) (temps : List Int) :
    ∃ (f : TowerSt → TowerSt) (lo hi mask : Nat) (new : Option Nat) (faulty : Bool), (∀ x, (f x).last = temps) ∧
      (s.towerSample tower temps).1 =
        (let pg := Pg.base .memt tower
         let t := ((((s.updTower tower f).wr (pg + MEMT_TEMP_LO) lo).wr (pg + MEMT_TEMP_HI) hi).set pg MEMT_REFRESH_SENSOR_FAULT mask).sensorTold tower temps new
         if ((s.towerSample tower temps).2.all (fun x => decide (85 < x)) || faulty) = true then t.refreshMode tower true else t) :=
  ⟨_, _, _, _, _, _, fun _ => rfl, rfl⟩

/-- The readings of a tower's sample are kept as its last. -/
theorem State.towerSample_last (s : State) (tower : Nat) (temps : List Int) : ((s.towerSample tower temps).1.atTower tower).last = temps := by
  obtain ⟨f, lo, hi, mask, new, faulty, hf, h⟩ := s.towerSample_eq tower temps
  have kept (t : State) (ht : t.towers = (s.updTower tower f).towers) : (t.atTower tower).last = temps := by
    rw [State.atTower, ht]
    exact (congrArg TowerSt.last ((s.atTower_updTower tower f tower).trans (if_pos rfl))).trans (hf _)
  rw [h]
  dsimp only
  split
  · rw [State.atTower_refreshMode]
    exact kept _ (State.sensorTold_towers ..)
  · exact kept _ (State.sensorTold_towers ..)

theorem State.towerSample_hot (s : State) (tower : Nat) (temps : List Int) {x : Int} (hx : (s.towerSample tower temps).2 = some x) (hot : 85 < x) :
    (s.towerSample tower temps).1.on (Pg.base .memt tower) MEMT_REFRESH_DOUBLED = true := by
  obtain ⟨f, lo, hi, mask, new, faulty, -, h⟩ := s.towerSample_eq tower temps
  rw [h]
  dsimp only
  rw [if_pos (by simp [hx, hot])]
  exact State.on_refreshMode ..

/-- A tower's sample, taken and shown. -/
def State.towerTaken (s : State) (tower : Nat) (temps : List Int) : State :=
  let t := ((s.towerSample tower temps).1.takeTemp 2 tower (s.towerSample tower temps).2).hotRegs 2
  t.mark thmPg THM_STAT_NO_TOWER_SENSOR t.noTower

theorem exec_towerTempSample {temps : List Int} (hn : n < 16) (hl : temps.length = 8) (hr : s.running = true) :
    exec (.towerTempSample n temps) s = .next ((s.towerTaken n temps).judgeTemp 2 n) := by
  have up : ¬ s.running = false := by simp [hr]
  exact onUnit_next (by simp [hn, hl]) (if_neg up)

theorem State.towerTaken_sansEvents (s : State) (tower : Nat) (temps : List Int) :
    (s.towerTaken tower temps).sansEvents = ((s.towerSample tower temps).1.takeTemp 2 tower (s.towerSample tower temps).2).sansEvents :=
  (State.set_sansEvents ..).trans (State.hotRegs_sansEvents ..)

/-- A register of a tower's page is as the sample leaves it. -/
theorem State.get_towerTaken (s : State) (tower : Nat) (temps : List Int) {k : Nat} (hk : k < 16) (f : F) (hf : f.off < 0x1000) :
    (s.towerTaken tower temps).get (Pg.base .memt k) f = (s.towerSample tower temps).1.get (Pg.base .memt k) f := by
  have apart (o : Nat) (ho : o < 0x1000) : Pg.base .memt k + f.off ≠ thmPg + o := fun h =>
    Pg.noConfusion (base_inj (p := .memt) (q := .thm) (j := 0) hk (by decide) hf ho h).1
  rw [State.get, State.towerTaken, State.mark, State.rd_set_ne _ _ _ _ (apart _ (by decide)),
    State.hotRegs_rd _ _ (apart _ (by decide)) (apart _ (by decide))]
  rfl

section
variable (hn : n < 16)
include hn

theorem exec_refreshNormalReturn_returns (hc : 8 ≤ (s.atTower n).cool) (hf : s.get (Pg.base .memt n) MEMT_REFRESH_SENSOR_FAULT = 0) :
    exec (.refreshNormalReturn n) s = .next (s.refreshMode n false) := by
  have cool : ¬ ((s.atTower n).cool < 8 ∨ s.get (Pg.base .memt n) MEMT_REFRESH_SENSOR_FAULT ≠ 0) := by
    rintro (h | h)
    · omega
    · exact h hf
  exact onUnit_next (decide_eq_true hn) (if_neg cool)

theorem exec_refreshNormalReturn_stays (h : (s.atTower n).cool < 8 ∨ s.get (Pg.base .memt n) MEMT_REFRESH_SENSOR_FAULT ≠ 0) :
    exec (.refreshNormalReturn n) s = .next s := onUnit_next (decide_eq_true hn) (if_pos h)

end

theorem State.refreshMode_frame (s : State) (tower : Nat) (b : Bool) :
    s.refreshMode tower b = { s with regs := (s.refreshMode tower b).regs, captGen := (s.refreshMode tower b).captGen } := by
  unfold State.refreshMode
  dsimp only
  split <;> rfl

theorem State.refreshMode_sameRegs (s : State) (tower : Nat) (b : Bool) :
    s.sameRegs (s.refreshMode tower b) [Pg.base .memt tower + MEMT_REFRESH_DOUBLED.off] := by
  intro a ha
  unfold State.refreshMode
  dsimp only
  split
  · rfl
  · show (s.set (Pg.base .memt tower) MEMT_REFRESH_DOUBLED (if b then 1 else 0)).rd a = s.rd a
    exact State.rd_set_ne _ _ _ _ (by simpa using ha)

/-! ### The obligation -/

/-- Settles O42, by what each of the five commands does. -/
theorem temperatureSamples : Obligations.TemperatureSamples := by
  intro s
  refine ⟨fun kind i temp h hr _ _ => ?sample, fun kind i temp h => ⟨fun hq => ?quiet, fun hl ho => ?hot⟩, fun kind i hi ht h2 => exec_thermalTrip hi ht h2,
    fun kind h1 h4 ho hc => exec_hardThrottleLift_cool h1 h4 ho hc, fun n temps hn hl hr => ?tower,
    fun n hn => ⟨fun hc hf => ?returns, exec_refreshNormalReturn_stays hn⟩⟩
  case sample =>
    have hk : kind ≠ 1 := by omega
    have read := State.reading_of_takeTemp hk (s.sampled_therm kind i temp)
    exact ⟨_, exec_thermalSample h hr, read, (State.senses_eq_reading _ hk i).trans read, (congrArg ThermSt.trips (s.sampled_therm kind i temp)).trans rfl,
      s.sampled_sameBytes kind i temp, fun f _ => s.on_hardBit_sampled kind i temp f⟩
  case quiet => exact (State.judgeTemp_eq h).trans (if_pos hq)
  case hot => exact (State.judgeTemp_eq h).trans (if_neg (not_or.mpr ⟨not_lt.mpr hl, ne_true_of_eq_false ho⟩))
  case tower =>
    refine ⟨_, exec_towerTempSample hn hl hr, ?reading, fun ⟨x, hx, hot⟩ => ?doubled, ?last⟩
    case reading =>
      exact State.reading_of_takeTemp (by decide) (State.field_of_sansEvents (s.towerTaken_sansEvents n temps) State.therm)
    case doubled =>
      exact (congrArg (· != 0) (s.get_towerTaken n temps hn _ (by decide))).trans (s.towerSample_hot n temps hx hot)
    case last =>
      exact (congrArg TowerSt.last (State.field_of_sansEvents (s.towerTaken_sansEvents n temps) (fun a => a.atTower n))).trans (s.towerSample_last n temps)
  case returns =>
    have normal := s.on_refreshMode n false
    exact ⟨_, exec_refreshNormalReturn_returns hn hc hf, by simpa using normal, s.refreshMode_frame n false, s.refreshMode_sameRegs n false⟩

end Sys2Proof.Machine
end

section
/-! SUPPORT. The narrow access path: who is served, what a read, a write and an atomic of one line do there. -/

namespace Sys2Proof.Machine

open Sys2Proof

variable {s u : State} {r : Req} {p : Place} {b : NapBuf} {n : Nat}

/-! ### Bytes and numbers of a line -/

theorem leNat_lt (bs : Bytes) : leNat bs < 2 ^ (8 * bs.length) := by
  induction bs with
  | nil => exact Nat.one_pos
  | cons b bs ih =>
    have hb := b.isLt
    have e : 2 ^ (8 * (b :: bs).length) = 256 * 2 ^ (8 * bs.length) := by
      rw [List.length_cons, Nat.mul_add, Nat.add_comm, Nat.pow_add]
    rw [leNat, e]
    omega

theorem length_sliceBytes (bs : Bytes) (o n : Nat) : (sliceBytes bs o n).length = n := by
  simp only [sliceBytes, List.length_append, List.length_replicate, List.length_take, List.length_drop]
  omega

theorem sliceBytes_all {bs : Bytes} (h : bs.length = n) : sliceBytes bs 0 n = bs := by
  subst h
  simp [sliceBytes]

theorem leAt_lt (bs : Bytes) (o n : Nat) : leAt bs o n < 2 ^ (8 * n) := by
  have h := leNat_lt (sliceBytes bs o n)
  rwa [length_sliceBytes] at h

/-- The bytes of a number are those of its low bits. -/
theorem leBytes_mod (n v : Nat) : leBytes n (v % 2 ^ (8 * n)) = leBytes n v := by
  induction n generalizing v with
  | zero => rfl
  | succ n ih =>
    have e : 2 ^ (8 * (n + 1)) = 256 * 2 ^ (8 * n) := by rw [Nat.mul_add, Nat.add_comm, Nat.pow_add]
    have low : BitVec.ofNat 8 (v % 2 ^ (8 * (n + 1))) = BitVec.ofNat 8 v := by
      apply BitVec.eq_of_toNat_eq
      rw [BitVec.toNat_ofNat, BitVec.toNat_ofNat, e]
      exact Nat.mod_mul_right_mod v 256 _
    rw [leBytes, leBytes, low, e, Nat.mod_mul_right_div_self, ih]

theorem Memory.length_read (m : List Host.Cell) (a n : Nat) : (Memory.read m a n).length = n := by
  induction n generalizing a with
  | zero => rfl
  | succ n ih => rw [Memory.read, List.length_cons, ih]

theorem State.length_lineData (s : State) (chan cl : Nat) : (s.lineData chan cl).length = 256 := Memory.length_read ..

theorem State.length_lineStored (s : State) (chan cl : Nat) : (s.lineStored chan cl).length = 256 := by
  unfold State.lineStored
  dsimp only
  split
  · exact s.length_lineData chan cl
  · rw [List.length_map, List.length_range]

/-- The signed value of the low bits, as a bit vector has it. -/
theorem signedOf_eq_toInt {w : Nat} (hw : 0 < w) (n : Nat) : signedOf w n = (BitVec.ofNat w n).toInt := by
  have e : 2 ^ w = 2 * 2 ^ (w - 1) := by rw [← Nat.pow_succ', Nat.succ_eq_add_one, Nat.sub_add_cancel hw]
  have half : n % 2 ^ w < 2 ^ (w - 1) ↔ 2 * (n % 2 ^ w) < 2 ^ w := by omega
  rw [BitVec.toInt_eq_toNat_cond, BitVec.toNat_ofNat]
  simp only [signedOf, half, Nat.cast_pow, Nat.cast_ofNat]

/-- The size of an atomic in bytes. -/
abbrev atomicSize (wide : Bool) : Nat := if wide then 8 else 4

theorem atomicSize_pos (wide : Bool) : 0 < 8 * atomicSize wide := by cases wide <;> decide

theorem sized_eq (wide : Bool) (v : BitVec 64) : sized wide v = v.toNat % 2 ^ (8 * atomicSize wide) := by
  cases wide
  · rfl
  · exact (Nat.mod_eq_of_lt v.isLt).symm

/-- The signed order of an atomic is that of the bit vectors of its size. -/
theorem signedLt_eq_slt (wide : Bool) (x y : Nat) :
    signedLt wide x y = (BitVec.ofNat (8 * atomicSize wide) x).slt (BitVec.ofNat (8 * atomicSize wide) y) := by
  rw [BitVec.slt_eq_decide, ← signedOf_eq_toInt (atomicSize_pos wide), ← signedOf_eq_toInt (atomicSize_pos wide)]
  cases wide <;> rfl

section
variable {wide : Bool} {x y : Nat} (hx : x < 2 ^ (8 * atomicSize wide)) (hy : y < 2 ^ (8 * atomicSize wide))
include hx hy

theorem signed_min_toNat : (if (BitVec.ofNat (8 * atomicSize wide) x).slt (BitVec.ofNat (8 * atomicSize wide) y)
      then BitVec.ofNat (8 * atomicSize wide) x else BitVec.ofNat (8 * atomicSize wide) y).toNat = if signedLt wide y x then y else x := by
  simp only [signedLt_eq_slt, BitVec.slt_eq_decide, decide_eq_true_eq]
  rcases lt_trichotomy (BitVec.ofNat (8 * atomicSize wide) x).toInt (BitVec.ofNat (8 * atomicSize wide) y).toInt with h | h | h
  · rw [if_pos h, if_neg h.not_gt]
    exact Nat.mod_eq_of_lt hx
  · rw [if_neg h.not_lt, if_neg h.not_gt, ← BitVec.eq_of_toInt_eq h]
    exact Nat.mod_eq_of_lt hx
  · rw [if_neg h.not_gt, if_pos h]
    exact Nat.mod_eq_of_lt hy

theorem signed_max_toNat : (if (BitVec.ofNat (8 * atomicSize wide) x).slt (BitVec.ofNat (8 * atomicSize wide) y)
      then BitVec.ofNat (8 * atomicSize wide) y else BitVec.ofNat (8 * atomicSize wide) x).toNat = if signedLt wide x y then y else x := by
  rw [signedLt_eq_slt]
  split <;> exact Nat.mod_eq_of_lt ‹_›

end

/-! ### Who is served (R163, R165, R179, R399) -/

/-- A request of `n` bytes that its command's ranges and the narrow access path admit at a place. -/
structure State.Serves (s : State) (r : Req) (p : Place) (n : Nat) : Prop where
  placed : s.place r.dpa = some p
  inside : s.strays r n = none
  live : Tab.get 0 s.gens r.ctx = r.gen
  inService : s.chanRetired p.chan = false
  keyed : s.keyServed r.key = true

/-- The state that the narrow access path works on: the tower's beacon has advanced. -/
abbrev State.atNap (s : State) (p : Place) : State := s.beat 2 (p.chan / 16)

section
variable {f : State → Place → State × NapRes}

theorem State.serve_served (h : s.Serves r p n) : s.serve r n f = (f (s.atNap p) p).1.deliver r (f (s.atNap p) p).2 := by
  obtain ⟨placed, inside, live, inService, keyed⟩ := h
  simp [State.serve, State.admitReq, inside, placed, live, inService, keyed]

/-- One of an old generation is dropped and counted. -/
theorem State.serve_stale (hp : s.place r.dpa = some p) (hs : s.strays r n = none) (hg : Tab.get 0 s.gens r.ctx ≠ r.gen) :
    s.serve r n f = s.errCount (napPg (p.chan / 16)) NAP_STALE_DROP 1 := by
  simp only [State.serve, State.admitReq, hs, hp, if_pos hg]
  rfl

theorem State.serve_refused {c : Cmd} {i : Nat} (h : s.strays r n = some (c, i)) :
    s.serve r n f = (s.xlatRej c.ctx 0x21 ((c.ranges.getD i {}).seg) i true).breakCmd c.q c.seq codeRights 4 c.q 0x21 := by
  simp only [State.serve, h]

theorem State.serveAligned_aligned (h : r.dpa % n = 0) : s.serveAligned r n f = s.serve r n f := if_neg (not_not.mpr h)

theorem State.serveAligned_misaligned (h : r.dpa % n ≠ 0) : s.serveAligned r n f = s.breakCmd r.q r.seq codeRights 4 r.q := if_pos h

end

theorem State.deliver_data {d : Bytes} (h : d ≠ []) : s.deliver r (.data d) = s.emit (.served r.q r.seq d) := by
  simp [State.deliver, h]

/-! ### Lines that no buffer holds (R150-R153, R161) -/

theorem State.countEras_onlyRegs (s : State) (chan cl : Nat) : s.OnlyRegs (s.countEras chan cl) := .ite (.wr ..) (.refl s)

theorem State.match?_none (h : ∀ b ∈ s.bufs p.chan, b.cl ≠ p.cl) (key : Nat) : s.match? p.chan p.cl key = none := by
  refine List.find?_eq_none.mpr fun b hb => ?_
  simp [h b hb]

theorem State.dropOther_none (h : ∀ b ∈ s.bufs p.chan, b.cl ≠ p.cl) (key : Nat) (wb : Bool) : s.dropOther p.chan p.cl key wb = s := by
  have none : (s.bufs p.chan).find? (fun b => decide (b.cl = p.cl) && decide (b.key ≠ key)) = none :=
    List.find?_eq_none.mpr fun b hb => by simp [h b hb]
  simp only [State.dropOther, none]

theorem State.lineRead_unbuffered (h : ∀ b ∈ s.bufs p.chan, b.cl ≠ p.cl) (key dpa : Nat) :
    s.lineRead p key dpa = ((s.fetchLine p.chan p.cl (s.sealFor key dpa) 1).1, lineFailure p.chan (s.fetchLine p.chan p.cl (s.sealFor key dpa) 1).2) := by
  simp only [State.lineRead, State.match?_none h, State.dropOther_none h]

section
variable {chan cl : Nat}

theorem State.lineBad_eq {w : Nat} (hw : w < 2) (h : Tab.get 0 s.badLines (lineNo chan cl) = w + 1) : s.lineBad chan cl = true ∧ s.badCw chan cl = w := by
  have e : w = 0 ∨ w = 1 := by omega
  unfold State.lineBad State.badCw
  rw [h]
  obtain rfl | rfl := e <;> exact ⟨rfl, rfl⟩

theorem State.lineBad_of_good (h : Tab.get 0 s.badLines (lineNo chan cl) = 0) : s.lineBad chan cl = false ∧ s.tagBad chan cl = false := by
  unfold State.lineBad State.tagBad
  rw [h]
  exact ⟨rfl, rfl⟩

theorem State.fetchLine_bad {w : Nat} (hw : w < 2) (h : Tab.get 0 s.badLines (lineNo chan cl) = w + 1) (want : Seal) (cause : Nat) :
    s.fetchLine chan cl want cause = (s.uncorrected chan cl w, .uncorr) := by
  obtain ⟨bad, word⟩ := State.lineBad_eq hw h
  rw [State.fetchLine, if_pos bad, word]

/-- The line that a key index reads: under key index 0 the stored bytes, else the plaintext. -/
def State.lineUnder (s : State) (key chan cl : Nat) : Bytes := if key = 0 then s.lineStored chan cl else s.lineData chan cl

theorem State.length_lineUnder (s : State) (key chan cl : Nat) : (s.lineUnder key chan cl).length = 256 := by
  unfold State.lineUnder
  split
  · exact s.length_lineStored chan cl
  · exact s.length_lineData chan cl

theorem State.fetchLine_good {key dpa : Nat} (h : Tab.get 0 s.badLines (lineNo chan cl) = 0)
    (hs : key = 0 ∨ Tab.get {} s.seals (lineNo chan cl) = s.sealFor key dpa) (cause : Nat) :
    s.fetchLine chan cl (s.sealFor key dpa) cause = (s.countEras chan cl, .ok (s.lineUnder key chan cl)) := by
  obtain ⟨sound, tag⟩ := State.lineBad_of_good h
  have regs := s.countEras_onlyRegs chan cl
  have stored : (s.countEras chan cl).lineStored chan cl = s.lineStored chan cl := regs.field (fun a => a.lineStored chan cl)
  have plain : (s.countEras chan cl).lineData chan cl = s.lineData chan cl := regs.field (fun a => a.lineData chan cl)
  have seals : (s.countEras chan cl).seals = s.seals := regs.field State.seals
  have tag' : (s.countEras chan cl).tagBad chan cl = false := (regs.field (fun a => a.tagBad chan cl)).trans tag
  rw [State.fetchLine, if_neg (ne_true_of_eq_false sound)]
  dsimp only
  by_cases hk : key = 0
  · rw [if_pos (by simp [State.sealFor, hk]), stored, State.lineUnder, if_pos hk]
  · rw [if_neg (by simp [State.sealFor, hk]), seals, if_pos ⟨hs.resolve_left hk, tag'⟩, plain, State.lineUnder, if_neg hk]

end

/-! ### Lines in a buffer (R161, R168) -/

/-- A hit: the buffer comes first, and is counted. -/
abbrev State.bufHit (s : State) (p : Place) (b : NapBuf) : State := (s.useBuf p.chan b).bump64 (napPg (p.chan / 16) + NAP_HIT_CNT) 1

/-- A buffer whose bytes a request has replaced: it was hit, is dirty from then, and its block is marked. -/
abbrev State.bufPut (s : State) (p : Place) (dpa : Nat) (b : NapBuf) (d : Bytes) : State :=
  ((s.bufHit p b).useBuf p.chan { b with data := d, dirty := true, since := if b.dirty then b.since else s.mclk }).markBlock dpa

theorem State.bump64_mclk (s : State) (a n : Nat) : (s.bump64 a n).mclk = s.mclk := (State.OnlyRegs.bump64 s a n).field State.mclk

theorem State.bufHit_mclk (s : State) (p : Place) (b : NapBuf) : (s.bufHit p b).mclk = s.mclk := State.bump64_mclk ..

section
variable {key : Nat} (h : s.match? p.chan p.cl key = some b)
include h

theorem State.openBuf_hit (part dpa cause : Nat) : s.openBuf p.chan p.cl key part dpa cause = (s.bufHit p b, .inr b) := by
  simp only [State.openBuf, h]

/-- A buffer that is clean, or has been dirty for less than 10 µs, is read without a write-back. -/
theorem State.lineRead_hit (hd : b.dirty = false ∨ s.mclk < b.since + 1000) (dpa : Nat) :
    s.lineRead p key dpa = ((s.bump64 (napPg (p.chan / 16) + NAP_HIT_CNT) 1).useBuf p.chan b, .data b.data) := by
  have fresh : ¬ (b.dirty = true ∧ b.since + 1000 ≤ s.mclk) := by
    rintro ⟨dirty, old⟩
    obtain clean | young := hd
    · exact Bool.noConfusion (clean.symm.trans dirty)
    · omega
  simp only [State.lineRead, h, State.bump64_mclk, if_neg fresh]

theorem State.lineShort_hit (part dpa n : Nat) : s.lineShort p key part dpa n = (s.bufHit p b, .data (sliceBytes b.data p.byte n)) := by
  simp only [State.lineShort, State.openBuf_hit h]

theorem State.lineModify_hit (part dpa : Nat) (f : Bytes → Bytes × Bytes) :
    s.lineModify p key part dpa f = (s.bufPut p dpa b (f b.data).1, .data (f b.data).2) := by
  simp only [State.lineModify, State.openBuf_hit h, State.bufHit_mclk]

end

/-! ### Writes of a line (R161, R168, R189) -/

/-- Marking a block changes registers, partitions' logs and rebalances only. -/
theorem State.markBlock_field {β : Type} (s : State) (dpa : Nat) (f : State → β)
    (hf : ∀ (a : State) r x y, f { a with regs := r, parts := x, rebind := y } = f a := by exact fun _ _ _ _ => rfl) : f (s.markBlock dpa) = f s := by
  have logged (a : State) (k : Nat) (g : PartSt → PartSt) : f (a.updPart k g) = f a := hf a a.regs (a.updPart k g).parts a.rebind
  have copied (a : State) (k : Nat) (g : Rebind → Rebind) (pg : Nat) (x : F) (v : Nat) : f ((a.updRebind k g).set pg x v) = f a :=
    hf a ((a.updRebind k g).set pg x v).regs a.parts (a.updRebind k g).rebind
  unfold State.markBlock
  split
  · rfl
  · dsimp only
    split <;> split
    · rw [copied, logged]
    · rw [logged]
    · rw [copied]
    · rfl

section
variable {data : Bytes} (hl : data.length = 256)

theorem State.lineWrite_field {β : Type} (s : State) (p : Place) (key dpa : Nat) (data : Bytes) (f : State → β)
    (hf : ∀ (a : State) r x y, f { a with regs := r, parts := x, rebind := y } = f a := by exact fun _ _ _ _ => rfl) :
    f (s.lineWrite p key dpa data) =
      f ((s.setBufs p.chan ((s.bufs p.chan).filter (fun b => decide (b.cl ≠ p.cl)))).storeLine p.chan p.cl (s.sealFor key dpa) data) :=
  State.markBlock_field _ dpa f hf

theorem State.lineWrite_bufs (s : State) (p : Place) (key dpa : Nat) (data : Bytes) {b : NapBuf} (hb : b ∈ (s.lineWrite p key dpa data).bufs p.chan) :
    b.cl ≠ p.cl := by
  rw [State.lineWrite_field s p key dpa data (fun a => a.bufs p.chan)] at hb
  have kept : b ∈ (s.bufs p.chan).filter (fun b => decide (b.cl ≠ p.cl)) := by
    simpa only [State.bufs, State.storeLine, State.setBufs, Tab.get_put_self] using hb
  exact of_decide_eq_true (List.mem_filter.mp kept).2

theorem State.lineWrite_seal (s : State) (p : Place) (key dpa : Nat) (data : Bytes) :
    Tab.get {} (s.lineWrite p key dpa data).seals (lineNo p.chan p.cl) = s.sealFor key dpa := by
  rw [State.lineWrite_field s p key dpa data State.seals]
  exact Tab.get_put_self ..

/-- A full write replaces an uncorrectable line. -/
theorem State.lineWrite_good (s : State) (p : Place) (key dpa : Nat) (data : Bytes) :
    Tab.get 0 (s.lineWrite p key dpa data).badLines (lineNo p.chan p.cl) = 0 := by
  rw [State.lineWrite_field s p key dpa data State.badLines]
  exact Tab.get_put_self 0 (lineNo p.chan p.cl) 0 s.badLines

include hl

theorem State.lineWrite_mem (s : State) (p : Place) (key dpa : Nat) :
    (s.lineWrite p key dpa data).mem = Memory.write s.mem (lineKey p.chan p.cl) data :=
  (State.lineWrite_field s p key dpa data State.mem).trans (congrArg (Memory.write s.mem (lineKey p.chan p.cl)) (sliceBytes_all hl))

theorem State.lineWrite_stored (s : State) (p : Place) (key dpa : Nat) {i : Nat} (hi : i < 256) :
    Memory.get (s.lineWrite p key dpa data).mem (lineKey p.chan p.cl + i) = data.getD i 0 := by
  have hi : i < data.length := by omega
  rw [State.lineWrite_mem hl, Memory.get_write_in _ _ _ _ hi, List.getD_eq_getElem _ _ hi]

theorem State.lineWrite_elsewhere (s : State) (p : Place) (key dpa : Nat) {a : Nat} (ha : a < lineKey p.chan p.cl ∨ lineKey p.chan p.cl + 256 ≤ a) :
    Memory.get (s.lineWrite p key dpa data).mem a = Memory.get s.mem a := by
  rw [State.lineWrite_mem hl, Memory.get_write_out _ _ _ _ (by rwa [hl])]

end

/-! ### The requests (R161, R165-R168) -/

section
variable (hr : reqOk r = true)
include hr

/-- The requests for a line, whole. -/
theorem exec_napLineRead : exec (.napLineRead r) s = .next (s.serve r 256 (fun s p => s.lineRead p r.key r.dpa)) := onUnit_next hr rfl

theorem exec_napLineWrite (data : Bytes) :
    exec (.napLineWrite r data) s = .next (s.serve r 256 (fun s p => (s.lineWrite p r.key r.dpa data, .done))) := onUnit_next hr rfl

theorem exec_napShortRead {size : Nat} (hs : size = 8 ∨ size = 32 ∨ size = 64) : exec (.napShortRead r size) s =
    .next (s.serveAligned r size (fun s p => s.lineShort p r.key (s.reqPart r) r.dpa size)) := by
  obtain rfl | rfl | rfl := hs <;> exact onUnit_next (by simp [hr]) rfl

theorem exec_xadd (acc : BitVec 320) (spec : BitVec 2) : exec (.xadd r acc spec) s =
    .next (s.serveAligned r 64 (fun s p => s.lineModify p r.key (s.reqPart r) r.dpa (xaddOn p.byte ⟨acc, spec⟩))) := onUnit_next hr rfl

theorem exec_napLineRead_bad {w : Nat} (h : s.Serves r p 256) (hb : ∀ b ∈ (s.atNap p).bufs p.chan, b.cl ≠ p.cl) (hw : w < 2)
    (hl : Tab.get 0 s.badLines (lineNo p.chan p.cl) = w + 1) : exec (.napLineRead r) s =
      .next (((s.atNap p).uncorrected p.chan p.cl w).deliver r (.failed codeMemUncorrectable 0 (136 + p.chan / 16))) := by
  rw [exec_napLineRead hr, State.serve_served h, State.lineRead_unbuffered hb, State.fetchLine_bad (s := s.atNap p) hw hl]
  rfl

/-- A line that no buffer holds and that reads well is delivered; no byte changes. -/
theorem exec_napLineRead_good (h : s.Serves r p 256) (hb : ∀ b ∈ (s.atNap p).bufs p.chan, b.cl ≠ p.cl)
    (hl : Tab.get 0 s.badLines (lineNo p.chan p.cl) = 0) (hs : r.key = 0 ∨ Tab.get {} s.seals (lineNo p.chan p.cl) = s.sealFor r.key r.dpa) :
    ∃ t : State, exec (.napLineRead r) s = .next t ∧ t.mem = s.mem ∧ s.sameBytes t ∧
      t.out = .served r.q r.seq (s.lineUnder r.key p.chan p.cl) :: s.out := by
  have data : (s.atNap p).lineUnder r.key p.chan p.cl ≠ [] := List.ne_nil_of_length_eq_add_one ((s.atNap p).length_lineUnder r.key p.chan p.cl)
  have read : exec (.napLineRead r) s = .next (((s.atNap p).countEras p.chan p.cl).emit (.served r.q r.seq ((s.atNap p).lineUnder r.key p.chan p.cl))) := by
    rw [exec_napLineRead hr, State.serve_served h, State.lineRead_unbuffered hb, State.fetchLine_good (s := s.atNap p) hl hs, lineFailure,
      State.deliver_data data]
  have regs := (s.atNap p).countEras_onlyRegs p.chan p.cl
  exact ⟨_, read, regs.field State.mem, regs.sameBytes, congrArg _ (regs.field State.out)⟩

theorem exec_napLineRead_hit (h : s.Serves r p 256) (hb : (s.atNap p).match? p.chan p.cl r.key = some b) (hd : b.dirty = false ∨ s.mclk < b.since + 1000) :
    exec (.napLineRead r) s =
      .next ((((s.atNap p).bump64 (napPg (p.chan / 16) + NAP_HIT_CNT) 1).useBuf p.chan b).deliver r (.data b.data)) := by
  rw [exec_napLineRead hr, State.serve_served h, State.lineRead_hit hb hd]

theorem exec_napLineWrite_served (h : s.Serves r p 256) (data : Bytes) :
    exec (.napLineWrite r data) s = .next ((s.atNap p).lineWrite p r.key r.dpa data) := by
  rw [exec_napLineWrite hr, State.serve_served h]
  rfl

section
variable (hb : (s.atNap p).match? p.chan p.cl r.key = some b)
include hb

omit hr in
/-- What a request that changes a buffered line leaves, and what it returns. -/
theorem State.serve_modify_hit (h : s.Serves r p n) (f : Place → Bytes → Bytes × Bytes) :
    s.serve r n (fun s p => s.lineModify p r.key (s.reqPart r) r.dpa (f p)) =
      ((s.atNap p).bufPut p r.dpa b (f p b.data).1).deliver r (.data (f p b.data).2) := by
  rw [State.serve_served h, State.lineModify_hit hb]

theorem exec_napShortRead_hit (hs : n = 8 ∨ n = 32 ∨ n = 64) (h : s.Serves r p n) (ha : r.dpa % n = 0) :
    exec (.napShortRead r n) s = .next (((s.atNap p).bufHit p b).deliver r (.data (sliceBytes b.data p.byte n))) := by
  rw [exec_napShortRead hr hs, State.serveAligned_aligned ha, State.serve_served h, State.lineShort_hit hb]

theorem exec_napPartialWrite_hit {data : Bytes} (h : s.Serves r p data.length) (hl : data.length < 256) (hin : r.dpa % 256 + data.length ≤ 256) :
    exec (.napPartialWrite r data) s =
      .next (((s.atNap p).bufPut p r.dpa b (patchBytes b.data p.byte data)).deliver r (.data [])) := by
  refine onUnit_next (by simp [hr, hl, hin]) ?_
  exact State.serve_modify_hit hb h (fun p d => (patchBytes d p.byte data, []))

theorem exec_xadd_hit (acc : BitVec 320) (spec : BitVec 2) (h : s.Serves r p 64) (ha : r.dpa % 64 = 0) : exec (.xadd r acc spec) s =
    .next (((s.atNap p).bufPut p r.dpa b
      (patchBytes b.data p.byte ((accOf (sliceBytes b.data p.byte 64)).add ⟨acc, spec⟩).bytes)).deliver r (.data [])) := by
  rw [exec_xadd hr, State.serveAligned_aligned ha]
  exact congrArg _ (State.serve_modify_hit hb h (fun p => xaddOn p.byte ⟨acc, spec⟩))

omit hr in
theorem State.atomic_hit {wide : Bool} (h : s.Serves r p (atomicSize wide)) (ha : r.dpa % atomicSize wide = 0) (ret : Bool) (f : Nat → Nat) :
    s.atomic r wide ret f = ((s.atNap p).bufPut p r.dpa b
      (patchBytes b.data p.byte (leBytes (atomicSize wide) (f (leAt b.data p.byte (atomicSize wide)))))).deliver r
        (.data (if ret then leBytes (atomicSize wide) (leAt b.data p.byte (atomicSize wide)) else [])) :=
  (State.serveAligned_aligned ha).trans (State.serve_modify_hit hb h (fun p => atomicOn (atomicSize wide) p.byte ret f))

/-- An atomic whose new value has the bytes of `v`. -/
theorem exec_atomic_hit {i : Instr} {wide ret : Bool} {f : Nat → Nat} {v : Nat} (hi : exec i s = onUnit (reqOk r) (s.atomic r wide ret f))
    (h : s.Serves r p (atomicSize wide)) (ha : r.dpa % atomicSize wide = 0)
    (hv : leBytes (atomicSize wide) (f (leAt b.data p.byte (atomicSize wide))) = leBytes (atomicSize wide) v) :
    exec i s = .next (((s.atNap p).bufPut p r.dpa b (patchBytes b.data p.byte (leBytes (atomicSize wide) v))).deliver r
      (.data (if ret then leBytes (atomicSize wide) (leAt b.data p.byte (atomicSize wide)) else []))) := by
  rw [hi, ← hv]
  exact onUnit_next hr (State.atomic_hit hb h ha ret f)

end

theorem exec_atomic_misaligned {i : Instr} {wide ret : Bool} {f : Nat → Nat} (hi : exec i s = onUnit (reqOk r) (s.atomic r wide ret f))
    (ha : r.dpa % atomicSize wide ≠ 0) : exec i s = .next (s.breakCmd r.q r.seq codeRights 4 r.q) := by
  rw [hi]
  exact onUnit_next hr (State.serveAligned_misaligned ha)

end

/-! ### The obligation -/

/-- Settles O9, by what the narrow access path does with each request. -/
theorem narrowAccessesToALine : Obligations.NarrowAccessesToALine := by
  intro s r p hr hp u inside served small signedMin
  have serves {n : Nat} : served n → s.Serves r p n := fun ⟨hi, hg, hc, hk⟩ => ⟨hp, hi, hg, hc, hk⟩
  have sizes : ∀ e ∈ small, ∃ n, e = (.napShortRead r n, n) ∧ (n = 8 ∨ n = 32 ∨ n = 64) := by
    intro e he
    simp only [small, List.mem_cons, List.not_mem_nil, or_false] at he
    obtain rfl | rfl | rfl := he
    · exact ⟨8, rfl, .inl rfl⟩
    · exact ⟨32, rfl, .inr (.inl rfl)⟩
    · exact ⟨64, rfl, .inr (.inr rfl)⟩
  refine ⟨fun hg hi c hc => ?stale, fun c i h => ?strays, fun hs hb => ⟨fun w hw hl => exec_napLineRead_bad hr (serves hs) hb hw hl,
      fun hl hk => exec_napLineRead_good hr (serves hs) hb hl hk⟩, fun hs b hb hd => exec_napLineRead_hit hr (serves hs) hb hd,
    fun hs data hl _ => ?write, fun b hb => ?buffered, fun e he ha => ?short, fun acc spec ha => ?xadd, fun wide ret operand ha => ?atomic⟩
  case stale =>
    obtain rfl | rfl : c = .napLineRead r ∨ c = .napLineWrite r (List.replicate 256 0) := List.mem_pair.mp hc
    · rw [exec_napLineRead hr, State.serve_stale hp hi hg]
    · rw [exec_napLineWrite hr, State.serve_stale hp hi hg]
  case strays => rw [exec_napLineRead hr, State.serve_refused h]
  case write =>
    refine ⟨_, exec_napLineWrite_served hr (serves hs) data, fun i hi => State.lineWrite_stored hl _ _ _ _ hi,
      fun a ha => State.lineWrite_elsewhere hl _ _ _ _ ha, State.lineWrite_seal .., State.lineWrite_good .., fun b hb => State.lineWrite_bufs _ _ _ _ _ hb,
      State.lineWrite_field _ _ _ _ _ State.spad, State.lineWrite_field _ _ _ _ _ State.share⟩
  case short =>
    obtain ⟨n, rfl, hn⟩ := sizes e he
    rw [exec_napShortRead hr hn, State.serveAligned_misaligned ha]
  case xadd => rw [exec_xadd hr, State.serveAligned_misaligned ha]
  case atomic => exact ⟨exec_atomic_misaligned hr rfl ha, exec_atomic_misaligned hr rfl ha⟩
  case buffered =>
    refine ⟨fun e he hs ha => ?_, fun data hs hl hin => exec_napPartialWrite_hit hr hb (serves hs) hl hin,
      fun acc spec hs ha => exec_xadd_hit hr hb acc spec (serves hs) ha, fun wide ret operand comparand => ?_⟩
    · obtain ⟨n, rfl, hn⟩ := sizes e he
      exact exec_napShortRead_hit hr hb hn (serves hs) ha
    · intro n old x o' x' put hs ha
      have hx : sized wide operand = x := sized_eq wide operand
      have hc : sized wide comparand = comparand.toNat % 2 ^ (8 * n) := sized_eq wide comparand
      have old_lt : old < 2 ^ (8 * atomicSize wide) := leAt_lt ..
      have x_lt : x < 2 ^ (8 * atomicSize wide) := Nat.mod_lt _ (Nat.two_pow_pos _)
      refine ⟨?add, ?smin, ?smax, ?umin, ?umax, ?swap, ?cas⟩
      case add => exact exec_atomic_hit hr hb rfl (serves hs) ha ((congrArg (fun y => leBytes n (old + y)) hx).trans (leBytes_mod n _).symm)
      case smin => exact exec_atomic_hit hr hb rfl (serves hs) ha (congrArg (leBytes n) (hx ▸ (signed_min_toNat old_lt x_lt).symm))
      case smax => exact exec_atomic_hit hr hb rfl (serves hs) ha (congrArg (leBytes n) (hx ▸ (signed_max_toNat old_lt x_lt).symm))
      case umin => exact exec_atomic_hit hr hb rfl (serves hs) ha (congrArg (fun y => leBytes n (min old y)) hx)
      case umax => exact exec_atomic_hit hr hb rfl (serves hs) ha (congrArg (fun y => leBytes n (max old y)) hx)
      case swap => exact exec_atomic_hit hr hb rfl (serves hs) ha (congrArg (leBytes n) hx)
      case cas => exact exec_atomic_hit hr hb rfl (serves hs) ha (congrArg (leBytes n) (by rw [hx, hc]))

end Sys2Proof.Machine
end

section
/-! SUPPORT. Bursts of the stacked memory: what the code corrects, what is counted, the patrol scrub, the refresh and lane repair. -/

namespace Sys2Proof.Machine

open Sys2Proof

variable {s t : State} {c : ChanSt} {chan cl : Nat} {bad again : List Nat} {r : Req}

/-! ### What the code corrects (R151) -/

/-- Both codewords of a burst are corrected. -/
def ChanSt.Fits (c : ChanSt) (bad : List Nat) : Prop := ∀ w, w < 2 → 2 * (cwErrors c bad w).1 + (cwErrors c bad w).2 ≤ 8

theorem cwErrors_nil (c : ChanSt) (bad : List Nat) (w : Nat) : cwErrors c [] w = (0, (cwErrors c bad w).2) := rfl

theorem ChanSt.badWord_of_fits (h : c.Fits bad) : c.badWord bad = none := by
  have h0 := h 0 (by decide)
  have h1 := h 1 (by decide)
  simp [ChanSt.badWord, correctable, h0, h1]

/-- The first codeword that is not corrected. -/
theorem ChanSt.badWord_of_not_fits (h : ¬ c.Fits bad) : c.badWord bad = some (if 2 * (cwErrors c bad 0).1 + (cwErrors c bad 0).2 ≤ 8 then 1 else 0) := by
  unfold ChanSt.badWord correctable
  by_cases h0 : 2 * (cwErrors c bad 0).1 + (cwErrors c bad 0).2 ≤ 8
  · have h1 : ¬ 2 * (cwErrors c bad 1).1 + (cwErrors c bad 1).2 ≤ 8 := fun h1 => h fun w hw => by
      obtain rfl | rfl : w = 0 ∨ w = 1 := by omega
      · exact h0
      · exact h1
    simp [h0, h1]
  · simp [h0]

theorem ChanSt.Fits.nil (h : c.Fits bad) : c.Fits [] := fun w hw => by
  have hw := h w hw
  rw [cwErrors_nil c bad]
  dsimp only
  omega

/-- Without listed erasures in either codeword, none is listed below lane 272. -/
theorem ChanSt.no_eras (h0 : (cwErrors c bad 0).2 = 0) (h1 : (cwErrors c bad 1).2 = 0) : c.eras.any (fun l => decide (l < 272)) = false := by
  rw [List.any_eq_false]
  intro l hl
  have apart (w : Nat) (h : (cwErrors c bad w).2 = 0) : ¬ (l < 272 ∧ l % 2 = w) := by
    have none := List.filter_eq_nil_iff.mp (List.eq_nil_of_length_eq_zero h) l hl
    simpa using none
  have h0 := apart 0 h0
  have h1 := apart 1 h1
  rw [decide_eq_true_iff]
  omega

/-! ### What a read counts (R151, R451) -/

/-- The lanes of a channel as they stand at a line. -/
abbrev State.lanes (s : State) (chan cl : Nat) : ChanSt := (s.atChan chan).lanesAt cl

theorem State.countEras_none (h0 : (cwErrors (s.lanes chan cl) bad 0).2 = 0) (h1 : (cwErrors (s.lanes chan cl) bad 1).2 = 0) :
    s.countEras chan cl = s := if_neg (ne_true_of_eq_false (ChanSt.no_eras h0 h1))

/-- The counts of corrected errors and of their lanes. -/
abbrev State.corrected (s : State) (chan : Nat) (bad : List Nat) : State := (s.errCount (memcPg chan) MEMC_CORR 1).countLanes chan bad

theorem State.errCount_sansEvents (s : State) (pg off n : Nat) : (s.errCount pg off n).sansEvents = s.sansEvents :=
  (State.raise_sansEvents ..).trans (State.wr_sansEvents ..)

section
variable {β : Type} (f : State → β) (hf : ∀ a : State, f a.sansEvents = f a) (hr : ∀ (a : State) x, f { a with rcv := x } = f a)
include hf hr

theorem State.corrected_field (s : State) (chan : Nat) (bad : List Nat) : f (s.corrected chan bad) = f s := by
  have lane (a : State) (l : Nat) : f (a.fault 5 chan l) = f a := hr a _
  exact (foldl_keeps f lane _ _).trans (State.field_of_sansEvents (State.errCount_sansEvents ..) f hf)

/-- Counting corrected errors changes what event records change, and the fault counts. -/
theorem State.countCorr_field (s : State) (chan cl : Nat) (bad : List Nat) : f (s.countCorr chan cl bad) = f s := by
  have eras (a : State) : f (a.countEras chan cl) = f a := (a.countEras_onlyRegs chan cl).field f (by rw [← hf, ← hf a]; rfl)
  unfold State.countCorr
  dsimp only
  rw [eras]
  split
  · rfl
  · exact State.corrected_field f hf hr s chan bad

end

theorem State.corrected_rd (s : State) (chan : Nat) (bad : List Nat) {a : Nat} (ha : a < Pg.base .evq 0) (hm : ∀ o < 0x1000, a ≠ memcPg chan + o) :
    (s.corrected chan bad).rd a = s.rd a := by
  have raised (t : State) (pg b : Nat) (h : a ≠ pg + BLK_ERR_SUM.off) : (t.raise pg b).rd a = t.rd a := by
    refine Eq.trans ?_ (State.rd_set_ne t pg BLK_ERR_SUM (t.get pg BLK_ERR_SUM ||| 2 ^ b) h)
    unfold State.raise State.pageError
    dsimp only
    split
    · exact (State.event_sameBelowEvq ..).rd_eq a ha
    · rfl
  exact (foldl_keeps (State.rd · a) (f := fun s l => s.fault 5 chan l) (fun _ _ => rfl) _ _).trans ((raised _ _ _ (hm BLK_ERR_SUM.off (by decide))).trans
    (State.rd_wr_ne _ _ _ (hm MEMC_CORR (by decide))))

/-- Below the event queues' pages only the registers of the channel's page count. -/
theorem State.countCorr_rd (s : State) (chan cl : Nat) (bad : List Nat) {a : Nat} (ha : a < Pg.base .evq 0) (hm : ∀ o < 0x1000, a ≠ memcPg chan + o) :
    (s.countCorr chan cl bad).rd a = s.rd a := by
  have eras (t : State) : (t.countEras chan cl).rd a = t.rd a := by
    unfold State.countEras
    split
    · exact State.rd_wr_ne _ _ _ (hm MEMC_ERAS (by decide))
    · rfl
  unfold State.countCorr
  dsimp only
  rw [eras]
  split
  · rfl
  · exact State.corrected_rd s chan bad ha hm

/-! ### Bursts (R149-R153) -/

/-- A line sealed under another key than the reader's. -/
def State.Foreign (s : State) (r : Req) (chan cl : Nat) : Prop := ¬ (r.key = 0 ∨ Tab.get {} s.seals (lineNo chan cl) = s.sealFor r.key r.dpa)

/-- The place of a burst's line, which no buffer holds and which is not uncorrectable yet; the island runs. -/
structure State.Bursts (s : State) (r : Req) (chan cl : Nat) : Prop where
  channel : chan < 256
  line : cl < 2 ^ 23
  request : reqOk r = true
  runs : s.halted.contains (136 + chan / 16) = false
  unbuffered : ∀ b ∈ s.bufs chan, b.cl ≠ cl
  good : Tab.get 0 s.badLines (lineNo chan cl) = 0

theorem reqOk_key (h : reqOk r = true) : r.key < 256 := by
  simp only [reqOk, Bool.and_eq_true, decide_eq_true_eq] at h
  exact h.1.1.2

/-- The seal that a key index puts on a line does not depend on what a read counts. -/
theorem State.countCorr_sealFor (s : State) (hc : chan < 256) (cl : Nat) (bad : List Nat) {key : Nat} (hk : key < 256) (dpa : Nat) :
    (s.countCorr chan cl bad).sealFor key dpa = s.sealFor key dpa := by
  have epoch : (s.countCorr chan cl bad).rd (keyAt key + KEY_EPOCH) = s.rd (keyAt key + KEY_EPOCH) := by
    refine State.countCorr_rd s chan cl bad ?_ fun o ho e => ?_
    · simp only [keyAt, Pg.base, KEY_EPOCH]
      omega
    · have e : Pg.base .key (key / 32) + (64 * (key % 32) + KEY_EPOCH) = Pg.base .memc chan + o := by
        rw [← Nat.add_assoc]
        exact e
      exact Pg.noConfusion (base_inj (p := .key) (q := .memc) (show key / 32 < 8 by omega) hc (by simp only [KEY_EPOCH]; omega) ho e).1
  have boots : (s.countCorr chan cl bad).sec.boots = s.sec.boots := State.countCorr_field (fun a => a.sec.boots) (fun _ => rfl) (fun _ _ => rfl) s chan cl bad
  rw [State.sealFor, State.sealFor, epoch, boots]

section
variable (h : s.Bursts r chan cl)
include h

theorem State.Bursts.sealFor (bad : List Nat) : (s.countCorr chan cl bad).sealFor r.key r.dpa = s.sealFor r.key r.dpa :=
  s.countCorr_sealFor h.channel cl bad (reqOk_key h.request) r.dpa

theorem State.Bursts.there : (decide (chan < 256) && decide (cl < 2 ^ 23) && reqOk r) = true := by
  simp only [decide_eq_true h.channel, decide_eq_true h.line, h.request, Bool.and_self]

theorem State.Bursts.served : ¬ ((s.bufs chan).any (fun b => b.cl == cl) = true ∨ s.halted.contains (136 + chan / 16) = true) := by
  have none : (s.bufs chan).any (fun b => b.cl == cl) = false := by
    rw [List.any_eq_false]
    exact fun b hb e => h.unbuffered b hb (eq_of_beq e)
  rw [none, h.runs]
  simp

theorem State.Bursts.sound : ¬ s.lineBad chan cl = true := ne_true_of_eq_false (State.lineBad_of_good h.good).1

/-- What a read counts leaves the line as readable as it was. -/
theorem State.Bursts.readable (hs : Tab.get {} s.seals (lineNo chan cl) = s.sealFor r.key r.dpa) (bad : List Nat) :
    ¬ ((s.countCorr chan cl bad).tagBad chan cl = true ∨
      Tab.get {} (s.countCorr chan cl bad).seals (lineNo chan cl) ≠ (s.countCorr chan cl bad).sealFor r.key r.dpa) := by
  have seals : (s.countCorr chan cl bad).seals = s.seals := State.countCorr_field State.seals (fun _ => rfl) (fun _ _ => rfl) s chan cl bad
  have tag : (s.countCorr chan cl bad).tagBad chan cl = false :=
    (State.countCorr_field (fun a => a.tagBad chan cl) (fun _ => rfl) (fun _ _ => rfl) s chan cl bad).trans (State.lineBad_of_good h.good).2
  rw [tag, h.sealFor, seals, hs]
  simp

theorem exec_burst_uncorrected (hf : ¬ (s.lanes chan cl).Fits bad) : exec (.dramBurstReceived chan cl ⟨bad, again⟩ r) s =
    (let w := if 2 * (cwErrors (s.lanes chan cl) bad 0).1 + (cwErrors (s.lanes chan cl) bad 0).2 ≤ 8 then 1 else 0
     .next (((s.setBad chan cl w).uncorrected chan cl w).deliver r (.failed codeMemUncorrectable 0 (136 + chan / 16)))) := by
  refine onUnit_next h.there ?_
  dsimp only
  rw [if_neg h.served, if_neg h.sound, ChanSt.badWord_of_not_fits hf]
  rfl

variable (hf : (s.lanes chan cl).Fits bad)
include hf

theorem exec_burst_foreign (hs : s.Foreign r chan cl) : exec (.dramBurstReceived chan cl ⟨bad, again⟩ r) s =
    .next (((s.countCorr chan cl bad).tagFailed chan cl (s.sealFor r.key r.dpa) 1).deliver r (.failed codeTagFail 0 (136 + chan / 16))) := by
  obtain ⟨hk, hs⟩ := not_or.mp hs
  have seals : (s.countCorr chan cl bad).seals = s.seals := State.countCorr_field State.seals (fun _ => rfl) (fun _ _ => rfl) s chan cl bad
  refine onUnit_next h.there ?_
  dsimp only
  rw [if_neg h.served, if_neg h.sound, ChanSt.badWord_of_fits hf]
  dsimp only
  rw [if_neg hk, h.sealFor, seals, if_pos (.inr hs)]
  rfl

section
variable (hs : r.key = 0 ∨ Tab.get {} s.seals (lineNo chan cl) = s.sealFor r.key r.dpa)
include hs

/-- A line that its reader may read, with no error in the tag lanes. -/
theorem exec_burst_read (ht : (s.lanes chan cl).tagErrors bad = false) : exec (.dramBurstReceived chan cl ⟨bad, again⟩ r) s =
    .next ((s.countCorr chan cl bad).deliver r (.data ((s.countCorr chan cl bad).lineUnder r.key chan cl))) := by
  refine onUnit_next h.there ?_
  dsimp only
  rw [if_neg h.served, if_neg h.sound, ChanSt.badWord_of_fits hf]
  dsimp only [State.lineUnder]
  by_cases hk : r.key = 0
  · rw [if_pos hk, if_pos hk]
  · rw [if_neg hk, if_neg hk, if_neg (h.readable (hs.resolve_left hk) bad), if_pos ht]

variable (hk : r.key ≠ 0) (ht : (s.lanes chan cl).tagErrors bad = true)
include hk ht

/-- Errors in the tag lanes ask for a second read. -/
theorem exec_burst_reread (ha : (s.lanes chan cl).Fits again) : exec (.dramBurstReceived chan cl ⟨bad, again⟩ r) s =
    (let u := (s.countCorr chan cl bad).countCorr chan cl again
     let v := u.errCount (memcPg chan) MEMC_TAG_RETRY 1
     .next (if (s.lanes chan cl).tagErrors again then
        ((u.setBad chan cl 2).tagFailed chan cl (s.sealFor r.key r.dpa) 1).deliver r (.failed codeTagFail 0 (136 + chan / 16))
      else v.deliver r (.data (v.lineUnder r.key chan cl)))) := by
  let u := (s.countCorr chan cl bad).countCorr chan cl again
  have again_seal : u.sealFor r.key r.dpa = s.sealFor r.key r.dpa :=
    (State.countCorr_sealFor _ h.channel cl again (reqOk_key h.request) r.dpa).trans (h.sealFor bad)
  have data : (u.errCount (memcPg chan) MEMC_TAG_RETRY 1).lineUnder r.key chan cl = u.lineData chan cl := by
    rw [State.lineUnder, if_neg hk]
    exact State.field_of_sansEvents (State.errCount_sansEvents ..) (fun a => a.lineData chan cl)
  refine onUnit_next h.there ?_
  dsimp only
  rw [if_neg h.served, if_neg h.sound, ChanSt.badWord_of_fits hf, data]
  dsimp only
  rw [if_neg hk, if_neg (h.readable (hs.resolve_left hk) bad), if_neg (by simp [ht]), ChanSt.badWord_of_fits ha]
  dsimp only
  rw [again_seal]
  rfl

theorem exec_burst_tagRetried : exec (.dramBurstReceived chan cl ⟨bad, []⟩ r) s =
    (let u := ((s.countCorr chan cl bad).countCorr chan cl []).errCount (memcPg chan) MEMC_TAG_RETRY 1
     .next (u.deliver r (.data (u.lineUnder r.key chan cl)))) := exec_burst_reread h hf hs hk ht hf.nil

theorem exec_burst_tagFailed : exec (.dramBurstReceived chan cl ⟨bad, bad⟩ r) s =
    .next (((((s.countCorr chan cl bad).countCorr chan cl bad).setBad chan cl 2).tagFailed chan cl (s.sealFor r.key r.dpa) 1).deliver r
      (.failed codeTagFail 0 (136 + chan / 16))) := by
  rw [exec_burst_reread h hf hs hk ht hf]
  exact congrArg _ (if_pos ht)

end

end

/-! ### What a read without errors, and one that is corrected, counts -/

section
variable (h0 : (cwErrors (s.lanes chan cl) bad 0).2 = 0) (h1 : (cwErrors (s.lanes chan cl) bad 1).2 = 0)
include h0 h1

theorem State.countCorr_clean (he : (cwErrors (s.lanes chan cl) bad 0).1 + (cwErrors (s.lanes chan cl) bad 1).1 = 0) : s.countCorr chan cl bad = s := by
  rw [State.countCorr, if_pos he, State.countEras_none h0 h1]

/-- Without listed erasures the errors are counted with their lanes, and no more. -/
theorem State.countCorr_errors (he : (cwErrors (s.lanes chan cl) bad 0).1 + (cwErrors (s.lanes chan cl) bad 1).1 ≠ 0) :
    s.countCorr chan cl bad = s.corrected chan bad := by
  have chans : (s.corrected chan bad).lanes chan cl = s.lanes chan cl :=
    State.corrected_field (fun a => a.lanes chan cl) (fun _ => rfl) (fun _ _ => rfl) s chan bad
  rw [State.countCorr, if_neg he, State.countEras_none (by rw [chans]; exact h0) (by rw [chans]; exact h1)]

end

/-! ### Refresh and the patrol scrub (R157, R159) -/

theorem exec_refreshRow {tower : Nat} (ht : tower < 16) :
    exec (.refreshRow tower) s = .next (s.updTower tower (fun t => { t with row := (t.row + 1) % 65536 })) := onUnit_next (decide_eq_true ht) rfl

/-- The patrol scrub goes to the channel's next line. -/
abbrev State.scrubNext (s : State) (chan : Nat) : State := s.updChan chan (fun c => { c with scrub := (c.scrub + 1) % 2 ^ 23 })

theorem State.lanes_scrubNext (s : State) (chan cl : Nat) :
    (s.scrubNext chan).lanes chan cl = { s.lanes chan cl with scrub := ((s.atChan chan).scrub + 1) % 2 ^ 23 } := by
  rw [State.lanes, State.atChan_updChan, if_pos rfl, State.lanes]
  unfold ChanSt.lanesAt
  dsimp only
  split
  · split <;> rfl
  · rfl

section
variable (hc : chan < 256) (hr : s.halted.contains (136 + chan / 16) = false) (hs : (s.atChan chan).scrub = cl)
include hc hr hs

theorem exec_patrolScrub_bad {w : Nat} (hw : w < 2) (h : Tab.get 0 s.badLines (lineNo chan cl) = w + 1) :
    exec (.patrolScrubLine chan bad) s = .next ((s.scrubNext chan).uncorrected chan cl w) := by
  subst hs
  obtain ⟨isBad, word⟩ := State.lineBad_eq (s := s.scrubNext chan) hw h
  refine onUnit_next (decide_eq_true hc) ?_
  dsimp only
  rw [if_neg (ne_true_of_eq_false hr)]
  exact (if_pos isBad).trans (congrArg _ word)

variable (h : Tab.get 0 s.badLines (lineNo chan cl) = 0)
include h

theorem exec_patrolScrub_uncorrected (hf : ¬ (s.lanes chan cl).Fits bad) : exec (.patrolScrubLine chan bad) s =
    (let w := if 2 * (cwErrors (s.lanes chan cl) bad 0).1 + (cwErrors (s.lanes chan cl) bad 0).2 ≤ 8 then 1 else 0
     .next (((s.scrubNext chan).setBad chan cl w).uncorrected chan cl w)) := by
  subst hs
  have sound := (State.lineBad_of_good (s := s.scrubNext chan) h).1
  refine onUnit_next (decide_eq_true hc) ?_
  dsimp only
  rw [if_neg (ne_true_of_eq_false hr), ChanSt.badWord_of_not_fits hf]
  exact if_neg (ne_true_of_eq_false sound)

/-- A corrected line, or one read with erasures, counts as written back. -/
theorem exec_patrolScrub_corrected (hf : (s.lanes chan cl).Fits bad) : exec (.patrolScrubLine chan bad) s =
    (let e := cwErrors (s.lanes chan cl) bad
     let t := (s.scrubNext chan).countCorr chan cl bad
     .next (if (e 0).1 + (e 0).2 + (e 1).1 + (e 1).2 = 0 then t else t.bump (memcPg chan + MEMC_SCRUB_CNT) 1)) := by
  subst hs
  have sound := (State.lineBad_of_good (s := s.scrubNext chan) h).1
  refine onUnit_next (decide_eq_true hc) ?_
  dsimp only
  rw [if_neg (ne_true_of_eq_false hr), ChanSt.badWord_of_fits hf]
  exact if_neg (ne_true_of_eq_false sound)

end

/-! ### Lane repair (R155) -/

/-- The lane counts change registers, and the entry of the capability table. -/
theorem State.laneStat_field {β : Type} (s : State) (chan : Nat) (f : State → β)
    (hf : ∀ (a : State) r n, f { a with regs := r, captGen := n } = f a := by exact fun _ _ _ => rfl) : f (s.laneStat chan) = f s := by
  have set (a : State) (pg : Nat) (x : F) (v : Nat) : f (a.set pg x v) = f a := hf a (a.set pg x v).regs a.captGen
  have touch (a : State) : f a.capTouch = f a := hf a a.regs (a.captGen + 2)
  unfold State.laneStat
  dsimp only
  rw [touch, set, set, set]

theorem State.get_capTouch (s : State) (pg : Nat) (f : F) : s.capTouch.get pg f = s.get pg f := rfl

/-- A field of another register than MEMC_LANE_STAT is as it was. -/
theorem State.get_laneStat_ne (s : State) (chan : Nat) {f : F} (h : f.off ≠ MEMC_LANE_STAT) :
    (s.laneStat chan).get (memcPg chan) f = s.get (memcPg chan) f := by
  have apart (g : F) (hg : g.off = MEMC_LANE_STAT) : memcPg chan + f.off ≠ memcPg chan + g.off := by omega
  unfold State.laneStat
  dsimp only
  rw [State.get_capTouch, State.get_set_ne _ _ _ _ (apart _ rfl), State.get_set_ne _ _ _ _ (apart _ rfl), State.get_set_ne _ _ _ _ (apart _ rfl)]

theorem State.get_laneStat_sparesUsed (s : State) (chan : Nat) : (s.laneStat chan).get (memcPg chan) MEMC_LANE_STAT_SPARES_USED =
    ((s.atChan chan).spared.length + (if (s.atChan chan).sweep.isSome then 1 else 0)) % 16 := by
  unfold State.laneStat
  dsimp only
  rw [State.get_capTouch, State.get_set_disjoint _ _ MEMC_LANE_STAT_ERAS_CW1 _ (g := MEMC_LANE_STAT_SPARES_USED) rfl (by decide) (by decide) (.inr (by decide)),
    State.get_set_disjoint _ _ MEMC_LANE_STAT_ERAS_CW0 _ (g := MEMC_LANE_STAT_SPARES_USED) rfl (by decide) (by decide) (.inr (by decide)), State.get_set_self _ _ _ _ (by decide) (by decide)]
  rfl

/-- A channel takes a lane for repair: no sweep runs, a spare is free, and the lane is one the code sees. -/
def ChanSt.Takes (c : ChanSt) (lane : Nat) : Prop := c.sweep = none ∧ c.spared.length + c.dead.length < 8 ∧ lane ≤ 271

theorem ChanSt.not_takes_iff {lane : Nat} : ¬ c.Takes lane ↔ c.sweep.isSome = true ∨ 8 ≤ c.spared.length + c.dead.length ∨ 271 < lane := by
  simp only [ChanSt.Takes, not_and_or, not_lt, not_le, ← Option.isSome_iff_ne_none]

/-- A channel whose sweep of a lane has begun. -/
def ChanSt.swept (c : ChanSt) (lane : Nat) : ChanSt := { c with sweep := some (lane, 0), eras := if c.eras.contains lane then c.eras else lane :: c.eras }

theorem ChanSt.mem_eras_swept (c : ChanSt) (lane : Nat) : lane ∈ (c.swept lane).eras := by
  unfold ChanSt.swept
  dsimp only
  split
  · next h => simpa using h
  · exact List.mem_cons_self

section
variable {lane : Nat}

theorem State.sweepStart_ignored (h : ¬ (s.atChan chan).Takes lane) : s.sweepStart chan lane = s := if_pos (ChanSt.not_takes_iff.mp h)

/-- A sweep has started. -/
def State.sweeping (s : State) (chan lane : Nat) : State :=
  ((s.updChan chan (fun c => c.swept lane)).set (memcPg chan) MEMC_REPAIR_CTL_BUSY 1).laneStat chan

theorem State.sweepStart_takes (h : (s.atChan chan).Takes lane) : s.sweepStart chan lane = s.sweeping chan lane :=
  if_neg (mt ChanSt.not_takes_iff.mpr (not_not.mpr h))

theorem State.atChan_sweeping (s : State) (chan lane k : Nat) : (s.sweeping chan lane).atChan k = if k = chan then (s.atChan chan).swept lane else s.atChan k :=
  (State.laneStat_field _ chan (fun a => a.atChan k)).trans (s.atChan_updChan chan (fun c => c.swept lane) k)

theorem State.sweeping_mems (s : State) (chan lane : Nat) : (s.sweeping chan lane).mems = s.mems := by
  unfold State.mems
  exact State.laneStat_field _ chan (fun a => [a.mem, a.spad, a.share, a.mgmt.sessionData])

theorem State.sweeping_busy (s : State) (chan lane : Nat) : (s.sweeping chan lane).get (memcPg chan) MEMC_REPAIR_CTL_BUSY = 1 := by
  rw [State.sweeping, State.get_laneStat_ne _ _ (by decide), State.get_set_self _ _ _ _ (by decide) (by decide)]
  rfl

theorem State.sweeping_sparesUsed (s : State) (chan lane : Nat) (h : (s.atChan chan).spared.length < 8) :
    (s.sweeping chan lane).get (memcPg chan) MEMC_LANE_STAT_SPARES_USED = (s.atChan chan).spared.length + 1 := by
  have chans : ((s.updChan chan (fun c => c.swept lane)).set (memcPg chan) MEMC_REPAIR_CTL_BUSY 1).atChan chan = (s.atChan chan).swept lane :=
    (s.atChan_updChan chan (fun c => c.swept lane) chan).trans (if_pos rfl)
  rw [State.sweeping, State.get_laneStat_sparesUsed, chans]
  exact Nat.mod_eq_of_lt (by simp only [ChanSt.swept, Option.isSome_some, if_true]; omega)

/-! ### START of MEMC_REPAIR_CTL (R155, R528) -/

theorem State.atChan_bumpSeq (s : State) (pg k : Nat) : (s.bumpSeq pg).atChan k = s.atChan k :=
  (State.OnlyRegs.wr s (pg + 0x024) (s.rd (pg + 0x024) + 1)).field (fun a => a.atChan k)

theorem State.get_bumpSeq (s : State) (pg : Nat) {f : F} (h : f.off ≠ 0x024) : (s.bumpSeq pg).get pg f = s.get pg f :=
  State.get_wr_ne _ _ _ _ _ fun e => h (Nat.add_left_cancel e)

/-- A write of START has begun a sweep. -/
def State.begun (s : State) (chan lane : Nat) : State := (s.sweeping chan lane).bumpSeq (memcPg chan)

theorem State.begun_busy (s : State) (chan lane : Nat) : (s.begun chan lane).get (memcPg chan) MEMC_REPAIR_CTL_BUSY = 1 := by
  rw [State.begun, State.get_bumpSeq _ _ (by decide), State.sweeping_busy]

section
variable {u : State} (regs : s.OnlyRegs u) (chan lane : Nat)
include regs

theorem State.atChan_begun (k : Nat) : (u.begun chan lane).atChan k = if k = chan then (s.atChan chan).swept lane else s.atChan k := by
  have same (k : Nat) : u.atChan k = s.atChan k := regs.field (fun a => a.atChan k)
  rw [State.begun, State.atChan_bumpSeq, State.atChan_sweeping, same, same]

theorem State.begun_sparesUsed (room : (s.atChan chan).spared.length < 8) :
    (u.begun chan lane).get (memcPg chan) MEMC_LANE_STAT_SPARES_USED = (s.atChan chan).spared.length + 1 := by
  have same : u.atChan chan = s.atChan chan := regs.field (fun a => a.atChan chan)
  rw [State.begun, State.get_bumpSeq _ _ (by decide), State.sweeping_sparesUsed _ _ _ (by rwa [same]), same]

theorem State.begun_sameBytes : s.sameBytes (u.begun chan lane) := by
  have mems : u.mems = s.mems := regs.field State.mems (by unfold State.mems; rfl)
  exact State.sameBytes_of_mems ((State.wr_mems (State.sweeping_mems ..)).trans mems)

end

variable {fn : Nat} {v : Word} (hc : chan < 256)
include hc

theorem exec_repairSweepStart (hfn : fn = 0 ∨ fn = 256) :
    exec (.repairSweepStart fn chan v) s = .next (s.write4 fn (memcPg chan + MEMC_REPAIR_CTL) v.toNat) := by
  have page : pageAt (memcPg chan + MEMC_REPAIR_CTL) = some (.memc, chan) := pageAt_memc chan _ hc (by decide)
  show s.rowWrite _ _ _ _ = _
  obtain rfl | rfl := hfn
  · exact State.rowWrite_pf s _ _ _ (decide_eq_true hc)
  · simp [State.rowWrite, onUnit, hc, skeldor, page, Pg.skeldor]

/-- A write without START changes registers only. -/
theorem State.write_repair_onlyRegs (h : s.holds fn .memc chan) (hs : bitOf (written .memc MEMC_REPAIR_CTL v) 9 = false) :
    s.OnlyRegs (s.write4 fn (memcPg chan + MEMC_REPAIR_CTL) v.toNat) := by
  have apart : Pg.base .memc chan + MEMC_REPAIR_CTL < 0x14000 ∨ 0x15000 ≤ Pg.base .memc chan + MEMC_REPAIR_CTL := .inr (by simp only [Pg.base]; omega)
  have plain (r : Reg) : s.ownWrite .memc chan MEMC_REPAIR_CTL (Pg.base .memc chan + MEMC_REPAIR_CTL) r (written .memc MEMC_REPAIR_CTL v) =
      (s.storeFields true r (Pg.base .memc chan + MEMC_REPAIR_CTL) (wholeClear .memc MEMC_REPAIR_CTL (written .memc MEMC_REPAIR_CTL v)), true) := by
    simp [State.ownWrite, State.writable, hs, show ¬ MEMC_REPAIR_CTL < 0x40 by decide]
  show s.OnlyRegs (s.write4 fn (Pg.base .memc chan + MEMC_REPAIR_CTL) v.toNat)
  rw [State.write4_own v h (pageAt_memc chan _ hc (by decide)) (by decide) (by rfl) (by rfl), plain, storeFields_wr apart (by decide)]
  exact .trans (.wr ..) (.wr ..)

section
variable (h : s.holds fn .memc chan) (hs : bitOf (written .memc MEMC_REPAIR_CTL v) 9 = true)
include h hs

/-- START hands the lane to the repair, the registers being those of the write. -/
theorem State.write_repair_start : ∃ u : State, s.OnlyRegs u ∧ s.write4 fn (memcPg chan + MEMC_REPAIR_CTL) v.toNat =
    (u.sweepStart chan (written .memc MEMC_REPAIR_CTL v % 512)).bumpSeq (memcPg chan) :=
  ⟨_, .wr .., State.write_repair chan hc v h hs⟩

/-- START is ignored, but for the registers written. -/
theorem State.write_repair_ignored (ht : ¬ (s.atChan chan).Takes (written .memc MEMC_REPAIR_CTL v % 512)) :
    s.OnlyRegs (s.write4 fn (memcPg chan + MEMC_REPAIR_CTL) v.toNat) := by
  obtain ⟨u, regs, written⟩ := State.write_repair_start hc h hs
  have same : u.atChan chan = s.atChan chan := regs.field (fun a => a.atChan chan)
  rw [written, State.sweepStart_ignored (by rwa [same])]
  exact regs.trans (.wr ..)

/-- START begins the sweep of the lane. -/
theorem State.write_repair_takes (ht : (s.atChan chan).Takes (written .memc MEMC_REPAIR_CTL v % 512)) :
    ∃ u : State, s.OnlyRegs u ∧ s.write4 fn (memcPg chan + MEMC_REPAIR_CTL) v.toNat =
      u.begun chan (written .memc MEMC_REPAIR_CTL v % 512) := by
  obtain ⟨u, regs, written⟩ := State.write_repair_start hc h hs
  have same : u.atChan chan = s.atChan chan := regs.field (fun a => a.atChan chan)
  exact ⟨u, regs, by rw [written, State.sweepStart_takes (by rwa [same]), State.begun]⟩

end

end

/-! ### A step of the sweep (R155) -/

/-- A channel whose sweep has passed its last line: the spare carries the lane. -/
def ChanSt.repaired (c : ChanSt) (lane : Nat) : ChanSt := { c with sweep := none, eras := c.eras.erase lane, spared := lane :: c.spared }

/-- The sweep of a lane has ended. -/
def State.sweepOver (s : State) (chan lane : Nat) : State :=
  (((s.updChan chan (fun c => c.repaired lane)).set (memcPg chan) MEMC_REPAIR_CTL_BUSY 0).set (memcPg chan) MEMC_REPAIR_CTL_DONE 1).laneStat chan

theorem State.atChan_sweepOver (s : State) (chan lane : Nat) : (s.sweepOver chan lane).atChan chan = (s.atChan chan).repaired lane :=
  (State.laneStat_field _ chan (fun a => a.atChan chan)).trans ((s.atChan_updChan chan (fun c => c.repaired lane) chan).trans (if_pos rfl))

theorem State.sweepOver_mems (s : State) (chan lane : Nat) : (s.sweepOver chan lane).mems = s.mems := by
  unfold State.mems
  exact State.laneStat_field _ chan (fun a => [a.mem, a.spad, a.share, a.mgmt.sessionData])

theorem State.sweepOver_busy (s : State) (chan lane : Nat) : (s.sweepOver chan lane).get (memcPg chan) MEMC_REPAIR_CTL_BUSY = 0 := by
  rw [State.sweepOver, State.get_laneStat_ne _ _ (by decide),
    State.get_set_disjoint _ _ MEMC_REPAIR_CTL_DONE _ (g := MEMC_REPAIR_CTL_BUSY) rfl (by decide) (by decide) (.inr (by decide)),
    State.get_set_self _ _ _ _ (by decide) (by decide)]
  rfl

theorem State.sweepOver_done (s : State) (chan lane : Nat) : (s.sweepOver chan lane).get (memcPg chan) MEMC_REPAIR_CTL_DONE = 1 := by
  rw [State.sweepOver, State.get_laneStat_ne _ _ (by decide), State.get_set_self _ _ _ _ (by decide) (by decide)]
  rfl

section
variable {lane ptr : Nat} (hc : chan < 256)
include hc

theorem exec_repairSweepLine_none (h : (s.atChan chan).sweep = none) : exec (.repairSweepLine chan) s = .next s := by
  refine onUnit_next (decide_eq_true hc) ?_
  simp only [h, ite_self]

/-- A line read well: the pointer moves, or the sweep is over. -/
theorem exec_repairSweepLine (hr : s.halted.contains (136 + chan / 16) = false) (h : (s.atChan chan).sweep = some (lane, ptr))
    (hg : Tab.get 0 s.badLines (lineNo chan ptr) = 0) (hf : (s.atChan chan).Fits []) :
    exec (.repairSweepLine chan) s = .next (if ptr + 1 < 2 ^ 23 then
      (s.countEras chan ptr).updChan chan (fun c => { c with sweep := some (lane, ptr + 1) }) else (s.countEras chan ptr).sweepOver chan lane) := by
  have sound := ne_true_of_eq_false (State.lineBad_of_good hg).1
  refine onUnit_next (decide_eq_true hc) ?_
  dsimp only
  rw [if_neg (ne_true_of_eq_false hr), h]
  dsimp only
  rw [if_neg sound, ChanSt.badWord_of_fits hf]
  rfl

end

/-! ### The obligation -/

/-- Settles O10, by what each of the five commands does. -/
theorem lanesRefreshScrubAndRepair : Obligations.LanesRefreshScrubAndRepair := by
  intro s chan hc c pg runs
  refine ⟨fun cl bad again r hcl hr run hb hg => ?burst, fun tower ht => ⟨_, exec_refreshRow ht, ?row, rfl, rfl, fun _ => rfl, fun _ => rfl, fun _ => rfl⟩,
    fun bad => ?scrub, fun fn v hfn h => ?repair, exec_repairSweepLine_none hc, fun lane ptr run h hg he => ?sweep⟩
  case row => exact congrArg TowerSt.row ((s.atTower_updTower tower _ tower).trans (if_pos rfl))
  case burst =>
    intro e fits tagged line mine lost
    have burst : s.Bursts r chan cl := ⟨hc, hcl, hr, run, hb, hg⟩
    have fit : fits → (s.lanes chan cl).Fits bad := id
    refine ⟨fun h0 h1 ht hm => ?clean, fun hf hm => exec_burst_foreign burst hf hm, fun hf he hn ht hm => ?corrected,
      fun hf => exec_burst_uncorrected burst hf, fun hk hf ht hm ha => ?retried, fun hk hf ht hm ha => ?failed⟩
    case clean =>
      have sound : fits := fun w hw => by
        obtain rfl | rfl : w = 0 ∨ w = 1 := by omega
        · rw [h0]; decide
        · rw [h1]; decide
      have count : s.countCorr chan cl bad = s := State.countCorr_clean (congrArg Prod.snd h0) (congrArg Prod.snd h1)
        (Nat.add_eq_zero_iff.mpr ⟨congrArg Prod.fst h0, congrArg Prod.fst h1⟩)
      rw [exec_burst_read burst sound hm ht, count]
      rfl
    case corrected =>
      obtain ⟨n0, n1⟩ := Nat.add_eq_zero_iff.mp hn
      rw [exec_burst_read burst hf hm ht, State.countCorr_errors n0 n1 he]
      rfl
    case retried =>
      subst ha
      exact exec_burst_tagRetried burst hf hm hk ht
    case failed =>
      subst ha
      exact exec_burst_tagFailed burst hf hm hk ht
  case scrub =>
    intro e fits next known run
    refine ⟨fun w hw h => exec_patrolScrub_bad hc run rfl hw h, fun hg hf h0 h1 => ?clean, fun hg hf he => ?corrected,
      fun hg hf => exec_patrolScrub_uncorrected hc run rfl hg hf⟩
    case clean =>
      have same (w : Nat) : cwErrors ((s.scrubNext chan).lanes chan (s.atChan chan).scrub) bad w = e w := by
        rw [State.lanes_scrubNext]
        rfl
      have none : (e 0).1 + (e 0).2 + (e 1).1 + (e 1).2 = 0 := by simp [h0, h1]
      rw [exec_patrolScrub_corrected hc run rfl hg hf]
      refine congrArg _ ((if_pos none).trans (State.countCorr_clean ?_ ?_ ?_))
      · rw [same, h0]
      · rw [same, h1]
      · simp only [same, h0, h1]
    case corrected =>
      rw [exec_patrolScrub_corrected hc run rfl hg hf]
      exact congrArg _ (if_neg he)
  case repair =>
    intro w lane takes
    refine ⟨fun hs ht => ?taken, fun ho => ⟨_, exec_repairSweepStart hc hfn, ?ignored⟩⟩
    case taken =>
      obtain ⟨u, regs, written⟩ := State.write_repair_takes hc h hs ht
      have own := (State.atChan_begun regs chan lane chan).trans (if_pos rfl)
      refine ⟨_, (exec_repairSweepStart hc hfn).trans (congrArg _ written), ?_, ?_, ?_, fun k hk => (State.atChan_begun regs chan lane k).trans (if_neg hk),
        State.begun_busy u chan lane, State.begun_sparesUsed regs chan lane (Nat.lt_of_le_of_lt (Nat.le_add_right ..) ht.2.1),
        State.begun_sameBytes regs chan lane⟩
      · rw [own]; rfl
      · rw [own]; exact c.mem_eras_swept lane
      · rw [own]; rfl
    case ignored =>
      cases hs : bitOf w 9 with
      | false => exact State.write_repair_onlyRegs hc h hs
      | true => exact State.write_repair_ignored hc h hs (ho.resolve_left (by simp [hs]))
  case sweep =>
    have fits : c.Fits [] := fun w hw => by simpa [cwErrors] using he w hw
    have step := exec_repairSweepLine hc run h hg fits
    refine ⟨fun hp => step.trans (congrArg _ (if_pos hp)), fun hp => ⟨_, step.trans (congrArg _ (if_neg (by omega))), ?_, ?_, ?_, ?_⟩⟩
    · rw [State.atChan_sweepOver]
      exact congrArg (ChanSt.repaired · lane) ((s.countEras_onlyRegs chan ptr).field (fun a => a.atChan chan))
    · exact State.sweepOver_busy ..
    · exact State.sweepOver_done ..
    · exact State.sameBytes_of_mems ((State.sweepOver_mems ..).trans (State.countEras_mems rfl))

end Sys2Proof.Machine
end

section
/-! SUPPORT. Requests for memory that arrive on a link port: their way through the device, and what each opcode does at its destination. -/

namespace Sys2Proof.Machine

open Sys2Proof

/-! ### The way of a request through the device (R304-R306, R310) -/

/-- A transaction taken as a request of opcode `n`. -/
abbrev asRequest (t : Txn) (n : Nat) : Txn := { t with op := n, cls := 0 }

/-- The state once a request of opcode `n` has left the receive buffer of port `p`: its credits are owed to the partner (R305). -/
abbrev State.requested (s : State) (p : Nat) (t : Txn) (n : Nat) : State := s.updLink p (fun x => x.owe (asRequest t n))

section
variable {s : State} {p : Nat} {t : Txn} {f : State → State}

/-- A request on a port that is UP goes on to its destination. -/
theorem State.arrive_request {n : Nat} {f : State → Txn → State} (hp : p < 36) (ht : txnOk t = true) (hk : knownOp t.op = true) (hu : s.portUp p = true) :
    s.arrive p t n 0 (fun s t => s.routed t (fun s => f s t)) = .next ((s.requested p t n).routed (asRequest t n) (fun s => f s (asRequest t n))) := by
  have h3 : s.portState p = 3 := beq_iff_eq.mp hu
  refine onUnit_next (by simp [hp, ht]) ?_
  simp [h3, State.firstData_of_portUp hu, hu, hk]

theorem State.routed_expired (hc : t.cls = 0) (ha : 1000 < t.age) : s.routed t f = (s.errCount rtePg RTE_EXPIRED 1).answer t 5 [] := by
  simp [State.routed, hc, ha]

theorem State.routed_elsewhere (ha : t.age ≤ 1000) (hd : t.dst ≠ s.self) : s.routed t f = s.forward t := by
  simp [State.routed, Nat.not_lt.mpr ha, hd]

theorem State.routed_here (ha : t.age ≤ 1000) (hd : t.dst = s.self) : s.routed t f = f s := by
  simp [State.routed, Nat.not_lt.mpr ha, hd]

end

/-! ### Requests without the right (R185) -/

/-- What each request for memory does at its destination, with its row and its opcode. -/
inductive ServesRequest (p : Nat) (t : Txn) : Instr → Nat → (State → Txn → State) → Prop
  | rd : ServesRequest p t (.rd p t) 1 State.rdServe
  | wr : ServesRequest p t (.wr p t) 2 State.wrServe
  | atom : ServesRequest p t (.atom p t) 3 State.atomServe
  | reduce : ServesRequest p t (.reduce p t) 4 State.reduceServe
  | reduceSpc : ServesRequest p t (.reduceSpc p t) 5 State.reduceSpcServe

section
variable {s : State} {p : Nat} {t : Txn} {i : Instr} {n : Nat} {f : State → Txn → State}

theorem ServesRequest.of_mem {e : Instr × Nat} (he : e ∈ [(Instr.rd p t, 1), (.wr p t, 2), (.atom p t, 3), (.reduce p t, 4), (.reduceSpc p t, 5)]) :
    ∃ f, ServesRequest p t e.1 e.2 f := by
  simp only [List.mem_cons, List.not_mem_nil, or_false] at he
  rcases he with rfl | rfl | rfl | rfl | rfl
  exacts [⟨_, .rd⟩, ⟨_, .wr⟩, ⟨_, .atom⟩, ⟨_, .reduce⟩, ⟨_, .reduceSpc⟩]

section
variable (hi : ServesRequest p t i n f) (hp : p < 36) (ht : txnOk t = true) (hk : knownOp t.op = true) (hu : s.portUp p = true)
include hi hp ht hk hu

theorem ServesRequest.exec_eq : exec i s = .next ((s.requested p t n).routed (asRequest t n) (fun s => f s (asRequest t n))) := by
  cases hi <;> exact State.arrive_request hp ht hk hu

theorem ServesRequest.exec_expired (ha : 1000 < t.age) :
    exec i s = .next (((s.requested p t n).errCount rtePg RTE_EXPIRED 1).answer (asRequest t n) 5 []) :=
  (hi.exec_eq hp ht hk hu).trans (congrArg _ (State.routed_expired (t := asRequest t n) rfl ha))

theorem ServesRequest.exec_elsewhere (ha : t.age ≤ 1000) (hd : t.dst ≠ s.self) : exec i s = .next ((s.requested p t n).forward (asRequest t n)) :=
  (hi.exec_eq hp ht hk hu).trans (congrArg _ (State.routed_elsewhere (t := asRequest t n) ha hd))

theorem ServesRequest.exec_here (ha : t.age ≤ 1000) (hd : t.dst = s.self) : exec i s = .next (f (s.requested p t n) (asRequest t n)) :=
  (hi.exec_eq hp ht hk hu).trans (congrArg _ (State.routed_here (t := asRequest t n) ha hd))

end

/-- The check of a request at its destination does not look at what its port owes. -/
theorem State.ingressCheck_requested (size : Nat) (atomic : Bool) :
    (s.requested p t n).ingressCheck (asRequest t n) size atomic = s.ingressCheck t size atomic := by
  unfold State.ingressCheck
  rfl

/-- A request that no region open to its span serves is REFUSED. -/
theorem ServesRequest.refused (hi : ServesRequest p t i n f) {r : Txn} (h : ∀ n b, s.ingressCheck r n b = none) : f s r = s.answer r 1 [] := by
  cases hi
  case rd => simp only [State.rdServe, h, ite_self]
  case wr => simp only [State.wrServe, h, ite_self]
  case atom => simp only [State.atomServe, h, ite_self]
  case reduce => simp only [State.reduceServe, h, ite_self]
  case reduceSpc => simp only [State.reduceSpcServe, h, ite_self]

end

/-! ### Requests with the right (R308, R311, R313) -/

section
variable {s v : State} {t : Txn} {part : Nat}

theorem State.rdServe_lines {d : Bytes} (hz : rdSized (t.addr % 2 ^ 39) t.aux = true) (hn : 256 ≤ t.aux) (hc : s.ingressCheck t t.aux false = some part)
    (hp : (s.place (t.addr % 2 ^ 39)).isSome = true) (hr : s.devRead t.key (t.addr % 2 ^ 39) t.aux = (v, .inr d)) : s.rdServe t = v.answer t 0 d := by
  obtain ⟨pl, hpl⟩ := Option.isSome_iff_exists.mp hp
  simp only [State.rdServe, if_pos hz, hc, hpl, if_neg (Nat.not_lt.mpr hn), hr]

theorem State.wrServe_done (h1 : 1 ≤ t.aux) (h2 : t.aux ≤ 4096) (h3 : t.aux ≤ t.payload.length) (hc : s.ingressCheck t t.aux false = some part)
    (hw : s.devWrite t.key part (t.addr % 2 ^ 39) (t.payload.take t.aux) = (v, .done)) : s.wrServe t = v.answer t 0 [] := by
  simp only [State.wrServe, if_pos (And.intro h1 (And.intro h2 h3)), hc, hw, State.served]

/-- The bytes of an atomic's operand. -/
abbrev atomSize (t : Txn) : Nat := if bitOf t.attr 6 then 8 else 4

theorem State.atomServe_data {f : Nat → Nat} {pl : Place} {d : Bytes} (ha : t.addr % 2 ^ 39 % atomSize t = 0) (hc : s.ingressCheck t (atomSize t) true = some part)
    (hp : s.place (t.addr % 2 ^ 39) = some pl) (hr : s.chanRetired pl.chan = false)
    (hf : atomFn (bitsOf t.attr 5 3) (bitOf t.attr 6) (leAt t.payload 0 (atomSize t)) (leAt t.payload 8 (atomSize t)) = some f)
    (hm : s.lineModify pl t.key part (t.addr % 2 ^ 39) (atomicOn (atomSize t) pl.byte (bitOf t.attr 7) f) = (v, .data d)) :
    s.atomServe t = v.answer t 0 d := by
  simp only [State.atomServe, if_pos ha, hc, hp, hf, hr, hm, State.served, Bool.false_eq_true, if_false]

theorem State.reduceServe_done {n w : Nat} (hn : bitsOf t.aux 21 12 = n) (hw : wBytes (bitsOf t.aux 11 9) = w) (h5 : bitsOf t.aux 11 9 ≤ 5)
    (hs : n * w ≤ 4096) (hl : n * w ≤ t.payload.length) (ha : t.addr % 2 ^ 39 % 64 = 0) (hc : s.ingressCheck t (64 * n) true = some part)
    (hd : s.addAll t.key part (t.addr % 2 ^ 39) ((List.range n).map (fun i => (i, reduceElem t w i))) = (v, .done)) :
    s.reduceServe t = v.answer t 0 [] := by
  subst hn hw
  simp only [State.reduceServe, if_pos (And.intro h5 (And.intro hs (And.intro hl ha))), hc, hd, State.served]

/-- The entries of a REDUCE_SPC payload. -/
abbrev specialEntries (t : Txn) : List (Nat × LongAcc) :=
  (List.range t.aux).map (fun i => (leAt t.payload (4 * i) 2, (⟨0, BitVec.ofNat 2 (leAt t.payload (4 * i + 2) 1)⟩ : LongAcc)))

theorem State.reduceSpcServe_done (hl : 4 * t.aux ≤ t.payload.length) (ha : t.addr % 2 ^ 39 % 64 = 0)
    (hc : s.ingressCheck t (64 * ((specialEntries t).map (fun e => e.1 + 1)).foldl max 0) true = some part)
    (hd : s.addAll t.key part (t.addr % 2 ^ 39) (specialEntries t) = (v, .done)) : s.reduceSpcServe t = v.answer t 0 [] := by
  simp only [State.reduceSpcServe, if_pos (And.intro hl ha), hc, hd, State.served]

end

/-! ### The obligation -/

/-- Settles O34, by the way of a request through the device and what each opcode does at its destination. -/
theorem memoryTransactionsArrive : Obligations.MemoryTransactionsArrive := by
  intro s p t hp ht hk hu
  refine ⟨fun e he => ?way, fun ha hd => ?served⟩
  case way =>
    obtain ⟨f, hi⟩ := ServesRequest.of_mem he
    exact ⟨hi.exec_expired hp ht hk hu, hi.exec_elsewhere hp ht hk hu,
      fun ha hd h => (hi.exec_here hp ht hk hu ha hd).trans (congrArg _ (hi.refused fun m b => (State.ingressCheck_requested m b).trans (h m b)))⟩
  case served =>
    have here {i n f} (hi : ServesRequest p t i n f) {v : State} (h : f (s.requested p t n) (asRequest t n) = v) : exec i s = .next v :=
      (hi.exec_here hp ht hk hu ha hd).trans (congrArg _ h)
    have right {n size : Nat} {atomic : Bool} {part : Nat} (hc : s.ingressCheck t size atomic = some part) :
        (s.requested p t n).ingressCheck (asRequest t n) size atomic = some part := (State.ingressCheck_requested size atomic).trans hc
    exact ⟨fun part v d hz hn hc hpl hr => here .rd (State.rdServe_lines hz hn (right hc) hpl hr),
      fun part v h1 h2 h3 hc hw => here .wr (State.wrServe_done h1 h2 h3 (right hc) hw),
      fun part f pl v d hal hc hpl hr hf hm => here .atom (State.atomServe_data hal (right hc) hpl hr hf hm),
      fun part v h5 hs hl hal hc hadd => here .reduce (State.reduceServe_done rfl rfl h5 hs hl hal (right hc) hadd),
      fun part v hl hal hc hadd => here .reduceSpc (State.reduceSpcServe_done hl hal (right hc) hadd)⟩

end Sys2Proof.Machine
end

section
/-! SUPPORT. MSI-X messages held back by HOLDOFF or by a mask. -/

namespace Sys2Proof.Machine

open Sys2Proof

/-! ### Messages of a vector (R228) -/

section
variable {s : State} {fn v : Nat}

/-- The state once the message of vector `v` has gone out: it is the vector's last. -/
def State.messageSent (s : State) (fn v : Nat) : State :=
  (s.updVec (fn * 64 + v) (fun x => { x with last := some s.mclk })).emit (.msix fn v)

/-- Without HOLDOFF an unmasked vector's message goes out at once when the last one is not in the future. -/
theorem State.message_sent (hd : s.dmaOff fn = false) (hm : (s.atVec (fn * 64 + v)).masked = false)
    (hl : ∀ t, (s.atVec (fn * 64 + v)).last = some t → t ≤ s.mclk) : s.message fn v 0 = s.messageSent fn v := by
  have past : ¬ (s.atVec (fn * 64 + v)).last.any (fun t => decide (s.mclk < t + 0 * 100)) = true := by
    cases h : (s.atVec (fn * 64 + v)).last with
    | none => simp
    | some t => simpa using hl t h
  exact (if_neg (ne_true_of_eq_false hd)).trans ((if_neg (ne_true_of_eq_false hm)).trans (if_neg past))

theorem State.atVec_messageSent (j : Nat) :
    (s.messageSent fn v).atVec j = if j = fn * 64 + v then { s.atVec (fn * 64 + v) with last := some s.mclk } else s.atVec j :=
  State.atVec_updVec s (fn * 64 + v) (fun x => { x with last := some s.mclk }) j

theorem State.messageSent_frame : s.messageSent fn v = { s with vecs := (s.messageSent fn v).vecs, out := .msix fn v :: s.out } := rfl

theorem State.dmaOff_updVec (k : Nat) (g : Vec → Vec) : (s.updVec k g).dmaOff fn = s.dmaOff fn := by
  unfold State.dmaOff
  rfl

/-- After a change of vectors alone something leaves the device, and vectors change again. -/
theorem State.vecs_out_trans {t u : State} {o : Out} (ht : t = { s with vecs := t.vecs }) (hu : u = { t with vecs := u.vecs, out := o :: t.out }) :
    u = { s with vecs := u.vecs, out := o :: s.out } := by
  rw [hu, ht]

/-- A message after a change of its vector that leaves it unmasked, with the same last message: it goes out, and no other vector changes. -/
theorem State.message_updVec {g : Vec → Vec} (hd : s.dmaOff fn = false) (hm : (g (s.atVec (fn * 64 + v))).masked = false)
    (hg : (g (s.atVec (fn * 64 + v))).last = (s.atVec (fn * 64 + v)).last) (hl : ∀ t, (s.atVec (fn * 64 + v)).last = some t → t ≤ s.mclk) :
    ∃ t : State, (s.updVec (fn * 64 + v) g).message fn v 0 = t ∧ t = { s with vecs := t.vecs, out := .msix fn v :: s.out } ∧
      t.atVec (fn * 64 + v) = { g (s.atVec (fn * 64 + v)) with last := some s.mclk } ∧ ∀ j, j ≠ fn * 64 + v → t.atVec j = s.atVec j := by
  have self : (s.updVec (fn * 64 + v) g).atVec (fn * 64 + v) = g (s.atVec (fn * 64 + v)) := (State.atVec_updVec s _ g _).trans (if_pos rfl)
  refine ⟨_, State.message_sent ((State.dmaOff_updVec ..).trans hd) (by rw [self, hm]) (by rw [self, hg]; exact hl),
    State.vecs_out_trans (State.updVec_frame ..) State.messageSent_frame, ?_, fun j hj => ?_⟩
  · rw [State.atVec_messageSent, if_pos rfl, self]
    rfl
  · rw [State.atVec_messageSent, if_neg hj, State.atVec_updVec, if_neg hj]

end

section
variable {s : State} {fn v : Nat} (hf : fn < 256) (hv : v < vectorsOf fn)
include hf hv

theorem exec_msixHoldoffExpire (h : (s.atVec (fn * 64 + v)).deferred = true) : exec (.msixHoldoffExpire fn v) s =
    .next (if s.unconsumed fn v then (s.updVec (fn * 64 + v) (fun x => { x with deferred := false })).message fn v 0
      else s.updVec (fn * 64 + v) (fun x => { x with deferred := false })) :=
  onUnit_next (by simp [hf, hv]) (if_neg (by simp [h]))

theorem exec_msixVectorUnmask : exec (.msixVectorUnmask fn v) s =
    .next (if (s.atVec (fn * 64 + v)).masked && (s.atVec (fn * 64 + v)).pend
      then (s.updVec (fn * 64 + v) (fun x => { x with masked := false, pend := false })).message fn v 0
      else s.updVec (fn * 64 + v) (fun x => { x with masked := false, pend := false })) :=
  onUnit_next (by simp [hf, hv]) rfl

end

/-! ### The obligation -/

/-- Settles O20, by what becomes of the message that a vector holds back. -/
theorem vectorsAndAts : Obligations.VectorsAndAts := by
  intro s fn v hf hv k x hl hd
  refine ⟨fun hx hm hu => ?expires, fun hx hu => ?consumed, fun hm hp => ?unmasks, fun hp => ?quiet, fun on => onUnit_next (decide_eq_true hf) rfl⟩
  case expires =>
    obtain ⟨t, ht, rest⟩ := State.message_updVec (g := fun x => { x with deferred := false }) hd hm rfl hl
    exact ⟨t, (exec_msixHoldoffExpire hf hv hx).trans (congrArg _ ((if_pos hu).trans ht)), rest⟩
  case consumed => exact (exec_msixHoldoffExpire hf hv hx).trans (congrArg _ (if_neg (ne_true_of_eq_false hu)))
  case unmasks =>
    obtain ⟨t, ht, rest⟩ := State.message_updVec (g := fun x => { x with masked := false, pend := false }) hd rfl rfl hl
    exact ⟨t, (exec_msixVectorUnmask hf hv).trans (congrArg _ ((if_pos (Bool.and_eq_true_iff.mpr ⟨hm, hp⟩)).trans ht)), rest⟩
  case quiet => exact (exec_msixVectorUnmask hf hv).trans (congrArg _ (if_neg fun held => ne_true_of_eq_false hp (Bool.and_eq_true_iff.mp held).2))

end Sys2Proof.Machine
end

section
/-! SUPPORT. The end of a command whose context has moved on to a newer generation. -/

namespace Sys2Proof.Machine

open Sys2Proof

/-! ### The oldest command of a queue resolves (R191, R209, R216) -/

/-- A command whose work has ended and that has no record yet: the record written is that of the command after the check of its generation. -/
theorem exec_commandResolve_ended {s : State} {q seq : Nat} {c : Cmd} (hq : q < 4096) (h : (s.cmdsOf q).head? = some c) (hs : c.seq = seq)
    (hw : c.work = true) (hr : s.reqsOf q seq = []) (hn : (s.genEnd c).recorded = false) (hu : (s.writeRecord (s.genEnd c)).reqsOf q seq = []) :
    exec (.commandResolve q seq) s = .next (((s.writeRecord (s.genEnd c)).finish (s.genEnd c)).drainQue q) := by
  refine onUnit_next (decide_eq_true hq) ?_
  simp [h, hs, hw, hr, hn, hu]

/-! ### The obligation -/

/-- The head of a NOP's descriptor that names no fence. -/
def unfencedNop : Bytes := [0, 0, 0x80, 0]

/-- A command of generation 0 whose work has ended well. -/
def staleCmd : Cmd := { q := 0, seq := 0, desc := unfencedNop, started := true, work := true }

/-- A device whose queue 0 holds only that command, of context 0, which has gone on to generation 1; the completion area lies in a host segment. -/
def staleQueue : State :=
  let s : State := ((({} : State).wr (segAt 0 0 + CTX_SEG_0) 0x1B).wr (segAt 0 0 + CTX_SEG_0 + 16) 0x10000).wr (quePg 0 + QUE_CPL) 0x1000
  { s.set (ctxPg 0) CTX_STAT_GEN 1 with cmds := [(0, [staleCmd])] }

/-- What has left the device once queue 0 is done with `c`, its record written first. -/
def sentFor (c : Cmd) : List Out := (((staleQueue.writeRecord c).finish c).drainQue 0).out

/-- The one thing that leaves the device is the record, whichever of the two it is of. -/
theorem sentFor_eq : ∀ c ∈ [staleCmd, staleQueue.genEnd staleCmd], sentFor c = [.hostWrite 0 0x1000 false (staleQueue.cplBytes c)] := by
  decide +kernel

/-- The record of the command as it stands says that it ended well, that of the command after the check of its generation that it broke. -/
theorem cplBytes_stale_ne : staleQueue.cplBytes (staleQueue.genEnd staleCmd) ≠ staleQueue.cplBytes staleCmd := by decide

/-- Refutes O21: the record written is not that of the command as it stands. A command of an older generation never signals (R191): it is recorded as
broken, with the code of the teardown, where the statement has the record of the work that ended well. The state `staleQueue` holds such a command. -/
theorem not_queueEngineTakesCommands : ¬ Obligations.QueueEngineTakesCommands := by
  intro h
  obtain ⟨-, -, -, -, resolves⟩ := h staleQueue 0 (by decide)
  have stated := ((resolves 0 staleCmd (by decide)).2 rfl rfl (by decide)).2 (by decide)
  have done := exec_commandResolve_ended (s := staleQueue) (q := 0) (c := staleCmd) (by decide) (by decide) rfl rfl (by decide) (by decide) (by decide)
  have same : sentFor (staleQueue.genEnd staleCmd) = sentFor staleCmd := congrArg State.out (Host.Outcome.next.inj (done.symm.trans stated))
  rw [sentFor_eq _ (by simp), sentFor_eq _ (by simp)] at same
  exact cplBytes_stale_ne (by simpa using same)

end Sys2Proof.Machine
end

section
/-! SUPPORT. Changes of a segment: what COMMIT and CANCEL do with the staging copy, and how a pending change applies. -/

namespace Sys2Proof.Machine

open Sys2Proof

/-! ### The words of a segment entry (R171, R173) -/

section
variable {s t : State} {x g : Nat} {ws : List Nat}

/-- A register that is none of the first `n` words from `base` reads as before they were stored. -/
theorem State.rd_storeWords_ne {base a : Nat} (n : Nat) (h : ∀ i < n, a ≠ base + 4 * i) :
    ((List.range n).foldl (fun s i => s.wr (base + 4 * i) (ws.getD i 0)) s).rd a = s.rd a := by
  induction n with
  | zero => rfl
  | succ n ih =>
    rw [List.range_succ, List.foldl_append, List.foldl_cons, List.foldl_nil, State.rd_wr_ne _ _ _ (h n (Nat.lt_succ_self n))]
    exact ih fun i hi => h i (Nat.lt_succ_of_lt hi)

/-- Each of the words stored from `base` reads as stored. -/
theorem State.rd_storeWords {base i : Nat} (n : Nat) (hi : i < n) :
    ((List.range n).foldl (fun s i => s.wr (base + 4 * i) (ws.getD i 0)) s).rd (base + 4 * i) = ws.getD i 0 % 2 ^ 32 := by
  induction n with
  | zero => omega
  | succ n ih =>
    rw [List.range_succ, List.foldl_append, List.foldl_cons, List.foldl_nil]
    rcases Nat.lt_succ_iff_lt_or_eq.mp hi with hlt | rfl
    · rw [State.rd_wr_ne _ _ _ (by omega), ih hlt]
    · exact State.rd_wr_self ..

theorem State.rd_segApply_ne {a : Nat} (h : ∀ i < 6, a ≠ segAt x g + CTX_SEG_0 + 4 * i) : (s.segApply x g ws).rd a = s.rd a :=
  State.rd_storeWords_ne 6 h

theorem State.segApply_onlyRegs : s.OnlyRegs (s.segApply x g ws) := .foldl (fun s _ => .wr s _ _) ..

theorem State.atSegPend_segApply (k : Nat) : (s.segApply x g ws).atSegPend k = s.atSegPend k := by
  have kept : (s.segApply x g ws).segPend = s.segPend := State.segApply_onlyRegs.field State.segPend
  rw [State.atSegPend, State.atSegPend, kept]

/-- Six words of a register's width, put into the committed entry, are the entry's. -/
theorem State.segWords_segApply (hl : ws.length = 6) (hw : ∀ w ∈ ws, w < 2 ^ 32) : (s.segApply x g ws).segWords x g = ws := by
  refine List.ext_getElem (by simp [State.segWords, hl]) fun i hi hi' => ?_
  have stored : (s.segApply x g ws).rd (segAt x g + CTX_SEG_0 + 4 * i) = ws.getD i 0 % 2 ^ 32 := State.rd_storeWords 6 (hl ▸ hi')
  rw [List.getD_eq_getElem ws 0 hi', Nat.mod_eq_of_lt (hw _ (List.getElem_mem hi'))] at stored
  simpa [State.segWords] using stored

theorem State.seg_segApply (hl : ws.length = 6) (hw : ∀ w ∈ ws, w < 2 ^ 32) : (s.segApply x g ws).seg x g = segOfWords ws :=
  congrArg segOfWords (State.segWords_segApply hl hw)

/-- A committed entry is read from its six words alone. -/
theorem State.seg_congr (h : ∀ i < 6, t.rd (segAt x g + CTX_SEG_0 + 4 * i) = s.rd (segAt x g + CTX_SEG_0 + 4 * i)) : t.seg x g = s.seg x g :=
  congrArg segOfWords (List.map_congr_left fun i hi => h i (List.mem_range.mp hi))

/-- The seventh word of a segment, which has its flags, is none of the six. -/
theorem segWord6_ne {f : F} (hf : f.off = CTX_SEG_6) : ∀ i < 6, segAt x g + CTX_SEG_0 + 4 * i ≠ segAt x g + f.off := by
  intro i hi
  rw [hf]
  show segAt x g + 0x200 + 4 * i ≠ segAt x g + 0x218
  omega

/-- The header of the context's page is none of the segment's words. -/
theorem segWord_ne_header {o : Nat} (ho : o < CTX_SEG_0) (i : Nat) : segAt x g + CTX_SEG_0 + 4 * i ≠ ctxPg x + o := by
  unfold segAt
  omega

theorem State.seg_set_flag {f : F} (hf : f.off = CTX_SEG_6) (v : Nat) : (s.set (segAt x g) f v).seg x g = s.seg x g :=
  State.seg_congr fun i hi => State.rd_set_ne _ _ _ _ (segWord6_ne hf i hi)

theorem State.seg_bumpSeq : (s.bumpSeq (ctxPg x)).seg x g = s.seg x g :=
  State.seg_congr fun i _ => State.rd_wr_ne _ _ _ (segWord_ne_header (by decide) i)

theorem State.segFlag_bumpSeq {f : F} (hf : f.off = CTX_SEG_6) : (s.bumpSeq (ctxPg x)).get (segAt x g) f = s.get (segAt x g) f :=
  State.get_wr_ne _ _ _ _ _ (by rw [hf]; exact segWord_ne_header (x := x) (g := g) (by decide) 6)

theorem length_segStaged : (s.segStaged x g).length = 6 := by simp [State.segStaged]

theorem segStaged_lt : ∀ w ∈ s.segStaged x g, w < 2 ^ 32 := by
  intro w hw
  obtain ⟨i, -, rfl⟩ := List.mem_map.mp hw
  exact BitVec.isLt _

end

/-! ### COMMIT and CANCEL (R173-R175) -/

section
variable {s : State} {x g : Nat}

/-- The check of R173 that the staging copy fails; a copy that is not VALID fails none. -/
abbrev State.stagedCheck (s : State) (x g : Nat) : Nat :=
  if (segOfWords (s.segStaged x g)).valid then s.segCheck (s.get (ctxPg x) CTX_STAT_PARTITION) (segOfWords (s.segStaged x g)) else 0

theorem State.segCommit_fails (hc : s.stagedCheck x g ≠ 0) : s.segCommit x g = s.set (segAt x g) CTX_SEG_6_ERR (s.stagedCheck x g) := if_pos hc

/-- No rebalance covers the entry or its staging copy (R251). -/
def State.segAtRest (s : State) (x g : Nat) : Prop :=
  s.rebalCovers (s.get (ctxPg x) CTX_STAT_PARTITION) (s.seg x g) = false ∧
    s.rebalCovers (s.get (ctxPg x) CTX_STAT_PARTITION) (segOfWords (s.segStaged x g)) = false

theorem State.segHold_set (pg : Nat) (f : F) (v : Nat) : (s.set pg f v).segHold x g = s.segHold x g := by
  rw [State.segHold, State.segHold, State.allCmds, State.allCmds, State.set_cmds]

theorem State.segNarrow_held (ws : List Nat) (hh : s.segHold x g ≠ 0) : s.segNarrow x g ws false =
    (s.set (segAt x g) CTX_SEG_6_PENDING 1).updSegPend (x * 8 + g) (fun _ => ⟨ws.map (BitVec.ofNat 32), false, false⟩) := by
  simp [State.segNarrow, State.segHold_set, hh]

section
variable (hc : s.stagedCheck x g = 0) (hr : s.segAtRest x g)
include hc hr

theorem State.segCommit_widens (hw : widening (s.seg x g) (segOfWords (s.segStaged x g)) = true) :
    s.segCommit x g = (s.segApply x g (s.segStaged x g)).set (segAt x g) CTX_SEG_6_ERR 0 :=
  (if_neg (not_not.mpr hc)).trans ((if_neg (by simp [hr.1, hr.2])).trans (if_pos hw))

/-- A narrowing change of a segment that commands name waits for them. -/
theorem State.segCommit_waits (hw : widening (s.seg x g) (segOfWords (s.segStaged x g)) = false) (hh : s.segHold x g ≠ 0)
    (hp : s.atSegPend (x * 8 + g) = {}) : s.segCommit x g = ((s.set (segAt x g) CTX_SEG_6_PENDING 1).updSegPend (x * 8 + g)
      (fun _ => ⟨(s.segStaged x g).map (BitVec.ofNat 32), false, false⟩)).set (segAt x g) CTX_SEG_6_ERR 0 := by
  refine (if_neg (not_not.mpr hc)).trans ((if_neg (by simp [hr.1, hr.2])).trans ((if_neg (ne_true_of_eq_false hw)).trans ?_))
  simp only [hp, ne_eq, not_true, false_and, Bool.false_eq_true, if_false]
  rw [State.segNarrow_held _ hh]

end

theorem State.segCancel_waiting (hw : (s.atSegPend (x * 8 + g)).words ≠ []) (ha : (s.atSegPend (x * 8 + g)).applied = false) :
    s.segCancel x g = (s.updSegPend (x * 8 + g) (fun _ => {})).set (segAt x g) CTX_SEG_6_PENDING 0 := if_pos ⟨hw, ha⟩

end

/-! ### Writes of the seventh word (R513, R522) -/

section
variable {s : State} {fn x g : Nat} {v : Word} (hf : fn < 256) (hx : x < 1024) (hg : g < 8) (hr : s.reachesPage fn 2 x = true) (h : s.holds fn .ctx x)
include hf hx hg hr h

theorem exec_segmentCommit (h17 : bitOf (written .ctx (0x218 + 32 * g) v) 17 = false) (h31 : bitOf (written .ctx (0x218 + 32 * g) v) 31 = true) :
    exec (.segmentCommit fn x g v) s = .next ((s.segCommit x g).bumpSeq (ctxPg x)) := by
  refine (s.handleWrite_reach fn 2 x _ _ v (by simp [hx, hg]) hf hr).trans (congrArg _ ((State.write_seg6 x hx g hg v h).trans ?_))
  simp [h17, h31]

theorem exec_segmentCancel (h17 : bitOf (written .ctx (0x218 + 32 * g) v) 17 = true) (h31 : bitOf (written .ctx (0x218 + 32 * g) v) 31 = false) :
    exec (.segmentCancel fn x g v) s = .next ((s.segCancel x g).bumpSeq (ctxPg x)) := by
  refine (s.handleWrite_reach fn 2 x _ _ v (by simp [hx, hg]) hf hr).trans (congrArg _ ((State.write_seg6 x hx g hg v h).trans ?_))
  simp [h17, h31]

end

/-! ### A pending change applies (R175) -/

/-- What the moment HOLD is 0 does for one segment of a context. -/
def State.settleSeg (s : State) (x g : Nat) : State :=
  if (s.atSegPend (x * 8 + g)).words ≠ [] ∧ (s.atSegPend (x * 8 + g)).applied = false ∧ (s.atSegPend (x * 8 + g)).rebal = false ∧ s.segHold x g = 0 then
    (s.segApply x g ((s.atSegPend (x * 8 + g)).words.map (·.toNat))).updSegPend (x * 8 + g) (fun q => { q with applied := true })
  else s

section
variable {s : State} {x g : Nat}

theorem State.segSettle_eq : s.segSettle x = (List.range 8).foldl (fun s g => s.settleSeg x g) s := rfl

/-- Segments without a pending change are left as they are. -/
theorem State.foldl_settleSeg_idle {l : List Nat} (h : ∀ i ∈ l, (s.atSegPend (x * 8 + i)).words = []) : l.foldl (fun s g => s.settleSeg x g) s = s := by
  induction l with
  | nil => rfl
  | cons i l ih =>
    have idle : s.settleSeg x i = s := if_neg fun c => c.1 (h i List.mem_cons_self)
    rw [List.foldl_cons, idle]
    exact ih fun j hj => h j (List.mem_cons_of_mem _ hj)

/-- The state once the one pending change of a context, that of segment `g`, has applied. -/
abbrev State.segApplied (s : State) (x g : Nat) : State :=
  (s.segApply x g ((s.atSegPend (x * 8 + g)).words.map (·.toNat))).updSegPend (x * 8 + g) (fun q => { q with applied := true })

theorem State.segSettle_single (hg : g < 8) (hw : (s.atSegPend (x * 8 + g)).words ≠ []) (ha : (s.atSegPend (x * 8 + g)).applied = false)
    (hb : (s.atSegPend (x * 8 + g)).rebal = false) (hh : s.segHold x g = 0)
    (others : ∀ i, i < 8 → i ≠ g → (s.atSegPend (x * 8 + i)).words = []) : s.segSettle x = s.segApplied x g := by
  obtain ⟨a, b, split⟩ := List.append_of_mem (List.mem_range.mpr hg)
  have apart : g ∉ a ++ b := (List.nodup_cons.mp (List.nodup_middle.mp (split ▸ List.nodup_range))).1
  have other {i : Nat} (hi : i ∈ a ∨ i ∈ b) : i < 8 ∧ i ≠ g :=
    ⟨List.mem_range.mp (split ▸ List.mem_append.mpr (hi.imp_right (List.mem_cons_of_mem g))), fun e => apart (e ▸ List.mem_append.mpr hi)⟩
  have pending (i : Nat) (hi : i < 8 ∧ i ≠ g) : ((s.segApplied x g).atSegPend (x * 8 + i)).words = [] := by
    rw [State.segApplied, State.atSegPend_updSegPend, if_neg (by omega), State.atSegPend_segApply, others i hi.1 hi.2]
  have applies : s.settleSeg x g = s.segApplied x g := if_pos ⟨hw, ha, hb, hh⟩
  rw [State.segSettle_eq, split, List.foldl_append, List.foldl_cons,
    State.foldl_settleSeg_idle fun i hi => others i (other (.inl hi)).1 (other (.inl hi)).2, applies]
  exact State.foldl_settleSeg_idle fun i hi => pending i (other (.inr hi))

/-- SEGMENT_APPLIED once the one pending change of its context can apply: PENDING clears and the record is written. -/
theorem exec_segmentApplied (hx : x < 1024) (hg : g < 8) (hs : s.segSettle x = s.segApplied x g) (hw : (s.atSegPend (x * 8 + g)).words ≠ []) :
    exec (.segmentApplied x g) s = .next ((s.segApplied x g).segDone x g) := by
  have pend : (s.segApplied x g).atSegPend (x * 8 + g) = { s.atSegPend (x * 8 + g) with applied := true } := by
    rw [State.segApplied, State.atSegPend_updSegPend, if_pos rfl, State.atSegPend_segApply]
  refine onUnit_next (by simp [hx, hg]) ?_
  simp only [hs, pend]
  exact if_pos ⟨hw, trivial⟩

end

/-! ### What is left as it is -/

/-- `t` is `s` but for its registers and the changes of segments that wait. -/
def State.OnlySegs (s t : State) : Prop := t = { s with regs := t.regs, segPend := t.segPend }

section
variable {s t u : State} {x g : Nat}

theorem State.OnlyRegs.onlySegs (h : s.OnlyRegs t) : s.OnlySegs t := by
  have pend : t.segPend = s.segPend := h.field State.segPend
  unfold State.OnlySegs
  rw [pend]
  exact h

theorem State.OnlySegs.updSegPend (s : State) (k : Nat) (f : SegPend → SegPend) : s.OnlySegs (s.updSegPend k f) := rfl

theorem State.OnlySegs.trans (h : s.OnlySegs t) (h' : t.OnlySegs u) : s.OnlySegs u := by
  unfold State.OnlySegs at h h' ⊢
  rw [h', h]

theorem State.OnlySegs.set (h : s.OnlySegs t) (pg : Nat) (f : F) (v : Nat) : s.OnlySegs (t.set pg f v) := h.trans (State.OnlyRegs.set ..).onlySegs

theorem State.seg_updSegPend (k : Nat) (f : SegPend → SegPend) : (s.updSegPend k f).seg x g = s.seg x g := rfl

theorem State.atSegPend_set (k pg : Nat) (f : F) (v : Nat) : (s.set pg f v).atSegPend k = s.atSegPend k := rfl

theorem State.atSegPend_bumpSeq (k pg : Nat) : (s.bumpSeq pg).atSegPend k = s.atSegPend k := rfl

theorem State.segFlag_set {f : F} (hf : f.lo ≤ f.hi ∧ f.hi < 32) (v : Nat) : (s.set (segAt x g) f v).get (segAt x g) f = v % 2 ^ (f.hi + 1 - f.lo) :=
  State.get_set_self _ _ _ _ hf.1 hf.2

end

/-! ### The obligation -/

section
variable {s : State} {x g : Nat}

/-- The state once a widening change has been committed (R174). -/
def State.segWidened (s : State) (x g : Nat) : State := ((s.segApply x g (s.segStaged x g)).set (segAt x g) CTX_SEG_6_ERR 0).bumpSeq (ctxPg x)

theorem State.segWidened_onlyRegs : s.OnlyRegs (s.segWidened x g) := (State.segApply_onlyRegs.trans (.set ..)).trans (.wr ..)

/-- The staging copy is the entry, ERR is 0, and only the segment's words and the header's count differ. -/
theorem State.segWidened_spec : (s.segWidened x g).seg x g = segOfWords (s.segStaged x g) ∧ (s.segWidened x g).get (segAt x g) CTX_SEG_6_ERR = 0 ∧
    s.OnlyRegs (s.segWidened x g) ∧ s.sameRegs (s.segWidened x g) ((ctxPg x + 0x024) :: (List.range 7).map (fun i => segAt x g + CTX_SEG_0 + 4 * i)) := by
  refine ⟨?entry, ?err, State.segWidened_onlyRegs, fun a ha => ?rest⟩
  case entry => rw [State.segWidened, State.seg_bumpSeq, State.seg_set_flag rfl, State.seg_segApply length_segStaged segStaged_lt]
  case err => rw [State.segWidened, State.segFlag_bumpSeq rfl, State.segFlag_set (by decide), Nat.zero_mod]
  case rest =>
    obtain ⟨header, words⟩ := not_or.mp (List.mem_cons.not.mp ha)
    have word (i : Nat) (hi : i < 7) : a ≠ segAt x g + CTX_SEG_0 + 4 * i := fun e => words (List.mem_map.mpr ⟨i, List.mem_range.mpr hi, e.symm⟩)
    rw [State.segWidened, State.bumpSeq, State.rd_wr_ne _ _ _ header, State.rd_set_ne _ _ _ _ (word 6 (by decide)),
      State.rd_segApply_ne fun i hi => word i (Nat.lt_succ_of_lt hi)]

/-- The state once a narrowing change waits for the commands that name the segment (R175). -/
def State.segWaiting (s : State) (x g : Nat) (ws : List Word) : State :=
  (((s.set (segAt x g) CTX_SEG_6_PENDING 1).updSegPend (x * 8 + g) (fun _ => ⟨ws, false, false⟩)).set (segAt x g) CTX_SEG_6_ERR 0).bumpSeq (ctxPg x)

theorem State.segWaiting_onlySegs (ws : List Word) : s.OnlySegs (s.segWaiting x g ws) :=
  (((State.OnlyRegs.set ..).onlySegs.trans (.updSegPend ..)).set ..).trans (State.OnlyRegs.wr ..).onlySegs

/-- The entry stays, PENDING is 1 and ERR 0, and the six words are kept. -/
theorem State.segWaiting_spec (ws : List Word) : (s.segWaiting x g ws).seg x g = s.seg x g ∧ (s.segWaiting x g ws).get (segAt x g) CTX_SEG_6_PENDING = 1 ∧
    (s.segWaiting x g ws).get (segAt x g) CTX_SEG_6_ERR = 0 ∧ (s.segWaiting x g ws).atSegPend (x * 8 + g) = ⟨ws, false, false⟩ ∧
    s.OnlySegs (s.segWaiting x g ws) := by
  refine ⟨?entry, ?pending, ?err, ?kept, State.segWaiting_onlySegs ws⟩
  case entry => rw [State.segWaiting, State.seg_bumpSeq, State.seg_set_flag rfl, State.seg_updSegPend, State.seg_set_flag rfl]
  case pending =>
    rw [State.segWaiting, State.segFlag_bumpSeq rfl, State.get_set_disjoint _ _ CTX_SEG_6_ERR _ (g := CTX_SEG_6_PENDING) rfl (by decide) (by decide) (by decide), State.updSegPend_get,
      State.segFlag_set (by decide)]
    rfl
  case err => rw [State.segWaiting, State.segFlag_bumpSeq rfl, State.segFlag_set (by decide), Nat.zero_mod]
  case kept => rw [State.segWaiting, State.atSegPend_bumpSeq, State.atSegPend_set, State.atSegPend_updSegPend, if_pos rfl]

/-- What is left of a change that has applied, its record apart. -/
def State.segCleared (s : State) (x g : Nat) : State :=
  ((s.segApplied x g).updSegPend (x * 8 + g) (fun _ => {})).set (segAt x g) CTX_SEG_6_PENDING 0

theorem State.segCleared_onlySegs : s.OnlySegs (s.segCleared x g) :=
  ((State.segApply_onlyRegs.onlySegs.trans (.updSegPend ..)).trans (.updSegPend ..)).set ..

theorem State.get_segCleared {f : F} (hf : f.off < CTX_SEG_0) : (s.segCleared x g).get (ctxPg x) f = s.get (ctxPg x) f := by
  have flag : ctxPg x + f.off ≠ segAt x g + CTX_SEG_6_PENDING.off := (segWord_ne_header hf 6).symm
  have words : ∀ i < 6, ctxPg x + f.off ≠ segAt x g + CTX_SEG_0 + 4 * i := fun i _ => (segWord_ne_header hf i).symm
  rw [State.segCleared, State.get_set_ne _ _ _ _ flag, State.updSegPend_get, State.segApplied, State.updSegPend_get, State.get, State.get,
    State.rd_segApply_ne words]

theorem State.segDone_segApplied : (s.segApplied x g).segDone x g =
    (s.segCleared x g).event (s.ctxEvq x) 0x0A (s.ownerOf (ctxPg x)) (leBytes 2 x ++ leBytes 1 g) := by
  have evq : (s.segCleared x g).ctxEvq x = s.ctxEvq x := State.get_segCleared (by decide)
  have owner : (s.segCleared x g).ownerOf (ctxPg x) = s.ownerOf (ctxPg x) := State.get_segCleared (by decide)
  rw [← evq, ← owner, State.segDone, State.segCleared]

/-- The pending words are the entry, PENDING is 0 and nothing waits. -/
theorem State.segCleared_spec (hl : (s.atSegPend (x * 8 + g)).words.length = 6) :
    (s.segCleared x g).seg x g = segOfWords ((s.atSegPend (x * 8 + g)).words.map (·.toNat)) ∧ (s.segCleared x g).get (segAt x g) CTX_SEG_6_PENDING = 0 ∧
      (s.segCleared x g).atSegPend (x * 8 + g) = {} ∧ s.OnlySegs (s.segCleared x g) := by
  refine ⟨?entry, ?pending, ?kept, State.segCleared_onlySegs⟩
  case entry =>
    rw [State.segCleared, State.seg_set_flag rfl, State.seg_updSegPend, State.segApplied, State.seg_updSegPend, State.seg_segApply (by simp [hl])]
    intro w hw
    obtain ⟨v, -, rfl⟩ := List.mem_map.mp hw
    exact v.isLt
  case pending => rw [State.segCleared, State.segFlag_set (by decide), Nat.zero_mod]
  case kept => rw [State.segCleared, State.atSegPend_set, State.atSegPend_updSegPend, if_pos rfl]

end

/-- Settles O15, by what COMMIT and CANCEL do with the staging copy and what a pending change does when it applies. -/
theorem segmentCommitAndApply : Obligations.SegmentCommitAndApply := by
  intro s fn x g v hf hx hg e p c k
  refine ⟨fun hr h => ⟨fun h17 h31 => ?commit, fun h17 h31 hw ha => ?cancel⟩, fun hl ha hb hh others => ?applied⟩
  case commit =>
    have commit := exec_segmentCommit hf hx hg hr h h17 h31
    refine ⟨fun hc => ?fails, fun hc hold hnew => ⟨fun hw => ?widens, fun hw hh hp => ?waits⟩⟩
    case fails => rw [commit, State.segCommit_fails hc]
    case widens =>
      rw [State.segCommit_widens hc ⟨hold, hnew⟩ hw] at commit
      exact ⟨_, commit, State.segWidened_spec⟩
    case waits =>
      rw [State.segCommit_waits hc ⟨hold, hnew⟩ hw hh hp] at commit
      exact ⟨_, commit, State.segWaiting_spec _⟩
  case cancel => rw [exec_segmentCancel hf hx hg hr h h17 h31, State.segCancel_waiting hw ha]
  case applied =>
    have words : (s.atSegPend (x * 8 + g)).words ≠ [] := List.ne_nil_of_length_eq_add_one hl
    refine ⟨s.segCleared x g, ?_, State.segCleared_spec hl⟩
    rw [exec_segmentApplied hx hg (State.segSettle_single hg words ha hb hh others) words, State.segDone_segApplied]

end Sys2Proof.Machine
end

section
/-! SUPPORT. Host translations: what is stored, marked, asked for again and dropped, and the data that the host returns. -/

namespace Sys2Proof.Machine

open Sys2Proof

/-! ### Translations and pages (R178, R182) -/

section
variable {x : Trans} {fn lo hi page : Nat}

theorem Trans.meets_iff : x.meets fn lo hi = true ↔ x.fn = fn ∧ x.page < hi ∧ lo < x.page + x.pages := by
  simp [Trans.meets, and_assoc]

theorem Trans.not_meets (h : x.fn ≠ fn ∨ hi ≤ x.page ∨ x.page + x.pages ≤ lo) : x.meets fn lo hi = false := by
  rw [Bool.eq_false_iff, ne_eq, Trans.meets_iff]
  omega

/-- A translation covers a page when it meets the interval of that page alone. -/
theorem Trans.meets_page_iff : x.meets fn page (page + 1) = true ↔ x.fn = fn ∧ x.page ≤ page ∧ page < x.page + x.pages := by
  rw [Trans.meets_iff, Nat.lt_succ_iff]

end

/-! ### Translations that are asked for (R180, R183) -/

section
variable {s : State} {fn : Nat}

/-- A Translation Request changes the requests outstanding, their counter and what leaves the device. -/
theorem State.askTrans_field {β : Type} (s : State) (fn : Nat) (pages : List Nat) (f : State → β)
    (hf : ∀ (a : State) l p v, f ((({ a with xreq := l }).emit (.atsRequest fn p)).wr (pciPg + PCI_ATS_XREQ_CNT) v) = f a) :
    f (s.askTrans fn pages) = f s := by
  unfold State.askTrans
  refine foldl_keeps f (fun a p => ?_) _ _
  split
  · rfl
  · exact hf ..

theorem State.askMarked_trans (s : State) : (s.askMarked fn).trans = s.trans := State.askTrans_field _ _ _ State.trans fun _ _ _ _ => rfl

theorem State.askMarked_inval (s : State) : (s.askMarked fn).inval = s.inval := State.askTrans_field _ _ _ State.inval fun _ _ _ _ => rfl

theorem State.askMarked_rd (s : State) {a : Nat} (ha : a ≠ pciPg + PCI_ATS_XREQ_CNT) : (s.askMarked fn).rd a = s.rd a :=
  State.askTrans_field _ _ _ (·.rd a) fun _ _ _ _ => State.rd_wr_ne _ _ _ ha

/-- Without a command that waits for translations none is asked for again. -/
theorem State.askMarked_idle (h : ∀ c ∈ s.allCmds, c.retrans = false) : s.askMarked fn = s := by
  have none_waits : s.allCmds.filter (fun c => c.retrans && !c.work && decide (s.ownerOf (ctxPg c.ctx) = fn)) = [] :=
    List.filter_eq_nil_iff.mpr fun c hc => by simp [h c hc]
  unfold State.askMarked
  simp only [none_waits, List.flatMap_nil]
  rw [List.flatMap_eq_nil_iff.mpr fun _ _ => rfl]
  rfl

theorem State.retransLacks_idle (x : Trans) (h : ∀ c ∈ s.allCmds, c.retrans = false) : s.retransLacks fn x = s := by
  have none_waits : s.allCmds.filter (fun c => c.retrans && !c.work && decide (s.ownerOf (ctxPg c.ctx) = fn)) = [] :=
    List.filter_eq_nil_iff.mpr fun c hc => by simp [h c hc]
  simp [State.retransLacks, none_waits]

theorem State.allCmds_mapCmds (p : Cmd → Bool) (f : Cmd → Cmd) : (s.mapCmds p f).allCmds = s.allCmds.map (fun c => if p c then f c else c) := by
  simp [State.allCmds, State.mapCmds, List.flatMap_map, List.map_flatMap]

/-- A change of commands that makes none wait for a translation. -/
theorem State.retrans_mapCmds {p : Cmd → Bool} {f : Cmd → Cmd} (hf : ∀ c, c.retrans = false → (f c).retrans = false)
    (h : ∀ c ∈ s.allCmds, c.retrans = false) : ∀ c ∈ (s.mapCmds p f).allCmds, c.retrans = false := by
  intro c hc
  rw [State.allCmds_mapCmds] at hc
  obtain ⟨d, hd, rfl⟩ := List.mem_map.mp hc
  split
  · exact hf d (h d hd)
  · exact h d hd

end

/-! ### Completions of translation requests (R180, R183) -/

section
variable {s : State} {fn : Nat}

/-- The state once the request `e` is answered by the translation `x`, which takes the place of those it overlaps. -/
abbrev State.transStored (s : State) (e : Nat × Nat) (x : Trans) : State :=
  { s with xreq := s.xreq.erase e,
           trans := x :: s.trans.flatMap (fun t => if t.meets x.fn x.page (x.page + x.pages) then t.cut x.page x.pages else [t]) }

/-- The commands of the translation's function take its bus addresses, and those that refer to no marked translation go on. -/
abbrev State.transTaken (s : State) (x : Trans) : State :=
  (s.mapCmds (fun c => decide (s.ownerOf (ctxPg c.ctx) = x.fn)) (fun c => { c with ranges := c.ranges.map (reRun x.page x.pages x.bus) })).retransDone x.fn

theorem State.mem_transStored {e : Nat × Nat} {x t : Trans} (ht : t ∈ s.trans) (h : t.meets x.fn x.page (x.page + x.pages) = false) :
    t ∈ (s.transStored e x).trans :=
  List.mem_cons_of_mem _ (List.mem_flatMap.mpr ⟨t, ht, by simp [h]⟩)

theorem State.transStored_mems {e : Nat × Nat} {x : Trans} : (s.transStored e x).mems = s.mems := by
  unfold State.mems
  rfl

theorem State.transTaken_mems {x : Trans} : (s.transTaken x).mems = s.mems := retransDone_mems (mapCmds_mems rfl)

section
variable {page pages bus : Nat} {rd wr err : Bool} (hf : fn < 256)
include hf

theorem exec_atsCompletion_unasked (h : ∀ e ∈ s.xreq, ¬ (e.1 = fn ∧ page ≤ e.2 ∧ e.2 < page + max pages 1)) :
    exec (.atsTranslationCompletion fn page pages bus rd wr err) s = .next s := by
  have unasked : s.xreq.find? (fun e => decide (e.1 = fn) && decide (page ≤ e.2) && decide (e.2 < page + max pages 1)) = none :=
    List.find?_eq_none.mpr fun e he => by simpa [and_assoc] using h e he
  refine onUnit_next (decide_eq_true hf) ?_
  simp only [unasked]

/-- With no translation of the function marked and no command waiting, the translation that answers a request is stored. -/
theorem exec_atsCompletion_asked (h : ∃ e, e ∈ s.xreq ∧ e.1 = fn ∧ page ≤ e.2 ∧ e.2 < page + max pages 1)
    (hm : ∀ x ∈ s.trans, x.fn = fn → x.marked = false) (hc : ∀ c ∈ s.allCmds, c.retrans = false) :
    ∃ e ∈ s.xreq, exec (.atsTranslationCompletion fn page pages bus rd wr err) s =
      .next ((s.transStored e ⟨fn, page, max pages 1, bus, rd, wr, false, err⟩).transTaken ⟨fn, page, max pages 1, bus, rd, wr, false, err⟩) := by
  have asked : (s.xreq.find? (fun e => decide (e.1 = fn) && decide (page ≤ e.2) && decide (e.2 < page + max pages 1))).isSome = true :=
    List.find?_isSome.mpr (by simpa [and_assoc] using h)
  obtain ⟨e, he⟩ := Option.isSome_iff_exists.mp asked
  have unmarked : s.trans.any (fun t => t.marked && t.meets fn e.2 (e.2 + 1)) = false := by
    refine List.any_eq_false.mpr fun x hx hb => ?_
    obtain ⟨marked, meets⟩ := Bool.and_eq_true_iff.mp hb
    exact ne_true_of_eq_false (hm x hx (Trans.meets_iff.mp meets).1) marked
  refine ⟨e, List.mem_of_find?_eq_some he, onUnit_next (decide_eq_true hf) ?_⟩
  have taken : ∀ c ∈ ((s.transStored e ⟨fn, page, max pages 1, bus, rd, wr, false, err⟩).transTaken ⟨fn, page, max pages 1, bus, rd, wr, false, err⟩).allCmds,
      c.retrans = false := State.retrans_mapCmds (fun _ _ => rfl) (State.retrans_mapCmds (fun _ h => h) hc)
  simp only [he, unmarked, Bool.false_eq_true, false_and, if_false]
  rw [State.retransLacks_idle (s := { s with xreq := s.xreq.erase e }) _ hc]
  exact State.askMarked_idle taken

end

end

/-! ### Requests that time out (R180, R183) -/

section
variable {s : State} {fn page : Nat} (hf : fn < 256)
include hf

theorem exec_atsTimeout_unasked (h : (fn, page) ∉ s.xreq) : exec (.atsTimeout fn page) s = .next s :=
  onUnit_next (decide_eq_true hf) (if_pos (by simpa using h))

/-- A translation that is marked covers the page. -/
def State.markedAt (s : State) (fn page : Nat) : Prop := ∃ x, x ∈ s.trans ∧ x.marked = true ∧ x.fn = fn ∧ x.page ≤ page ∧ page < x.page + x.pages

omit hf in
theorem State.markedAt_iff : s.trans.any (fun t => t.marked && t.meets fn page (page + 1)) = true ↔ s.markedAt fn page := by
  simp [State.markedAt, List.any_eq_true, Trans.meets_page_iff]

theorem exec_atsTimeout_again (h : (fn, page) ∈ s.xreq) (hm : s.markedAt fn page) : exec (.atsTimeout fn page) s =
    .next ((State.retransFailed { s with xreq := s.xreq.erase (fn, page) } fn page).askMarked fn) :=
  onUnit_next (decide_eq_true hf) ((if_neg (by simpa using h)).trans (if_pos (State.markedAt_iff.mpr hm)))

theorem exec_atsTimeout_first (h : (fn, page) ∈ s.xreq) (hm : ¬ s.markedAt fn page) : exec (.atsTimeout fn page) s =
    .next { s with xreq := s.xreq.erase (fn, page),
                   trans := { fn := fn, page := page, pages := 1, bus := 0, rd := false, wr := false, err := true } :: s.trans } :=
  onUnit_next (decide_eq_true hf) ((if_neg (by simpa using h)).trans (if_neg fun m => hm (State.markedAt_iff.mp m)))

end

/-! ### Invalidations (R182, R183) -/

section
variable {s : State} {fn page pages : Nat}

/-- The translations that an invalidation request meets are marked, and it waits for its completion. -/
abbrev State.transMarked (s : State) (fn page pages : Nat) : State :=
  { s with trans := s.trans.map (fun t => if t.meets fn page (page + pages) then { t with marked := true } else t), inval := s.inval ++ [fn] }

/-- An invalidation request that meets a translation counts. -/
def State.transInvalidated (s : State) (fn page pages : Nat) : State :=
  if s.trans.any (fun t => t.meets fn page (page + pages)) then (s.transMarked fn page pages).bump (pciPg + PCI_ATS_INVAL_CNT) 1
  else s.transMarked fn page pages

/-- The commands that refer to a marked translation wait for new ones. -/
def State.transRecalled (s : State) (fn : Nat) : State :=
  (s.mapCmds (fun c => decide (s.ownerOf (ctxPg c.ctx) = fn) && s.usesMarked fn c && !c.work) (fun c => { c with retrans := true })).askMarked fn

theorem exec_invalidationRequest (hf : fn < 256) :
    exec (.invalidationRequest fn page pages) s = .next ((s.transInvalidated fn page pages).transRecalled fn) :=
  onUnit_next (decide_eq_true hf) rfl

theorem State.transInvalidated_trans : (s.transInvalidated fn page pages).trans =
    s.trans.map (fun t => if t.meets fn page (page + pages) then { t with marked := true } else t) := by
  unfold State.transInvalidated
  split <;> rfl

theorem State.transInvalidated_inval : (s.transInvalidated fn page pages).inval = s.inval ++ [fn] := by
  unfold State.transInvalidated
  split <;> rfl

theorem State.transInvalidated_rd_ne {a : Nat} (ha : a ≠ pciPg + PCI_ATS_INVAL_CNT) : (s.transInvalidated fn page pages).rd a = s.rd a := by
  unfold State.transInvalidated
  split
  · exact State.rd_wr_ne _ _ _ ha
  · rfl

theorem State.transInvalidated_count : (s.transInvalidated fn page pages).rd (pciPg + PCI_ATS_INVAL_CNT) =
    if s.trans.any (fun t => t.meets fn page (page + pages)) then min 0xFFFFFFFF (s.rd (pciPg + PCI_ATS_INVAL_CNT) + 1)
    else s.rd (pciPg + PCI_ATS_INVAL_CNT) := by
  unfold State.transInvalidated
  split
  · rw [State.bump, State.rd_wr_self]
    exact Nat.mod_eq_of_lt (by simp only [satAdd]; omega)
  · rfl

theorem State.transRecalled_trans : (s.transRecalled fn).trans = s.trans := State.askMarked_trans _

theorem State.transRecalled_inval : (s.transRecalled fn).inval = s.inval := State.askMarked_inval _

theorem State.transRecalled_rd {a : Nat} (ha : a ≠ pciPg + PCI_ATS_XREQ_CNT) : (s.transRecalled fn).rd a = s.rd a := State.askMarked_rd _ ha

theorem State.invalidation_mems : ((s.transInvalidated fn page pages).transRecalled fn).mems = s.mems := by
  have invalidated : (s.transInvalidated fn page pages).mems = s.mems := mems_ite (bump_mems (mems_with_trans_inval rfl)) (mems_with_trans_inval rfl)
  exact askMarked_mems (mapCmds_mems invalidated)

theorem exec_invalidationCompletion_waits (hf : fn < 256) (h : fn ∉ s.inval ∨ s.hostOutstanding fn = true) :
    exec (.invalidationCompletion fn) s = .next s :=
  onUnit_next (decide_eq_true hf) (if_pos (h.imp_left (by simp)))

/-- Whether a command refers to a translation of function `fn`. -/
def State.transUsed (s : State) (fn : Nat) (x : Trans) : Bool :=
  s.allCmds.any (fun c => decide (s.ownerOf (ctxPg c.ctx) = fn) && (c.rangeOn x.page (x.page + x.pages)).isSome)

/-- The completion of an invalidation goes out, and the translations that are marked and in no command's use are gone. -/
abbrev State.transForgotten (s : State) (fn : Nat) : State :=
  { s with inval := s.inval.erase fn, trans := s.trans.filter (fun t => !(t.marked && decide (t.fn = fn) && !s.transUsed fn t)),
           out := .invalDone fn :: s.out }

theorem State.transForgotten_mems : (s.transForgotten fn).mems = s.mems := by
  unfold State.mems
  rfl

theorem exec_invalidationCompletion_goes (hf : fn < 256) (h : fn ∈ s.inval) (ho : s.hostOutstanding fn = false) :
    exec (.invalidationCompletion fn) s = .next (s.transForgotten fn) :=
  onUnit_next (decide_eq_true hf) (if_neg (by simp [h, ho]))

end

/-! ### Data from the host (R181) -/

section
variable {s : State} {q seq status dst : Nat} {data : Bytes} {c : Cmd} (hq : q < 4096) (h : s.cmd? q seq = some c)
include hq h

theorem exec_hostRead_idle (hc : c.work = true ∨ c.started = false) : exec (.hostReadCompletion q seq status dst data) s = .next s := by
  refine onUnit_next (decide_eq_true hq) ?_
  simp only [h]
  exact if_pos hc

section
variable (hw : c.work = false) (hs : c.started = true)
include hw hs

theorem exec_hostRead_fails (he : status ≠ 0) : exec (.hostReadCompletion q seq status dst data) s =
    .next ((s.xlatBreak c 0x20 codeTranslationReject (s.readRange c dst)).flushCmd q seq) := by
  refine onUnit_next (decide_eq_true hq) ?_
  simp only [h]
  exact (if_neg (by simp [hw, hs])).trans (if_pos he)

theorem exec_hostRead_arrives (he : status = 0) : exec (.hostReadCompletion q seq status dst data) s = .next (s.arriveBytes q seq dst data) := by
  refine onUnit_next (decide_eq_true hq) ?_
  simp only [h]
  exact (if_neg (by simp [hw, hs])).trans (if_neg (not_not.mpr he))

end

end

/-- Bytes that no LINE_IN asked for are put among the source bytes of their command. -/
theorem State.arriveBytes_cmd {s : State} {q seq dst : Nat} {data : Bytes} (h : s.lineInOf q seq dst = none) : s.arriveBytes q seq dst data =
    s.updCmd q seq (fun c => { c with
      got := c.got + data.length, buf := patchBytes (c.buf ++ List.replicate (dst + data.length - c.buf.length) 0) dst data }) := by
  simp only [State.arriveBytes, h]

/-! ### The obligation -/

/-- Settles O12, by what becomes of the store of translations and of the commands that use it. -/
theorem hostTranslations : Obligations.HostTranslations := by
  intro s fn hf
  refine ⟨fun page pages bus rd wr err => ⟨exec_atsCompletion_unasked hf, fun asked hm hc => ?stored⟩,
    fun page => ⟨exec_atsTimeout_unasked hf, fun h => ⟨exec_atsTimeout_again hf h, exec_atsTimeout_first hf h⟩⟩,
    fun page pages => ?invalidated, exec_invalidationCompletion_waits hf, fun h ho => ?completed,
    fun q seq status dst data c hq h => ⟨exec_hostRead_idle hq h, exec_hostRead_fails hq h, fun hw hs he hl => ?data⟩⟩
  case stored =>
    obtain ⟨e, he, answer⟩ := exec_atsCompletion_asked (pages := pages) (bus := bus) (rd := rd) (wr := wr) (err := err) hf asked hm hc
    have fewer : (s.xreq.erase e).length + 1 = s.xreq.length := by
      rw [List.length_erase_of_mem he, Nat.sub_add_cancel (List.length_pos_of_mem he)]
    exact ⟨_, answer, rfl, fun x hx apart => State.mem_transStored (e := e) hx (Trans.not_meets apart), fewer, rfl,
      State.sameBytes_of_mems (State.transTaken_mems.trans State.transStored_mems)⟩
  case invalidated =>
    have hit (x : Trans) : decide (x.fn = fn ∧ x.page < page + pages ∧ page < x.page + x.pages) = x.meets fn page (page + pages) := by
      simp [Trans.meets, Bool.and_assoc]
    have counts : pciPg + PCI_ATS_INVAL_CNT ≠ pciPg + PCI_ATS_XREQ_CNT := by decide
    simp only [hit]
    refine ⟨_, exec_invalidationRequest hf, State.transRecalled_trans.trans State.transInvalidated_trans,
      State.transRecalled_inval.trans State.transInvalidated_inval, (State.transRecalled_rd counts).trans State.transInvalidated_count, fun a ha => ?_,
      State.sameBytes_of_mems State.invalidation_mems⟩
    simp only [List.mem_cons, List.not_mem_nil, or_false, not_or] at ha
    exact (State.transRecalled_rd ha.2).trans (State.transInvalidated_rd_ne ha.1)
  case completed =>
    refine ⟨_, exec_invalidationCompletion_goes hf h ho, rfl, rfl, fun x hx hk => ?_, rfl, State.sameBytes_of_mems State.transForgotten_mems⟩
    exact List.mem_filter.mpr ⟨hx, by rcases hk with hk | hk <;> simp [hk]⟩
  case data => rw [exec_hostRead_arrives hq h hw hs he, State.arriveBytes_cmd hl]

end Sys2Proof.Machine
end

section
/-! SUPPORT. The control register and the doorbell of a queue. -/

namespace Sys2Proof.Machine

open Sys2Proof

/-! ### Words written (R7) -/

/-- A register whose fields name all 32 bits takes the word as it is written. -/
theorem written_whole {p : Pg} {o : Nat} {r : Reg} (hr : regAt p o = some r) (hm : r.mask = 2 ^ 32 - 1) (v : Word) : written p o v = v.toNat := by
  simp only [written, hr, hm, Nat.and_two_pow_sub_one_eq_mod]
  exact Nat.mod_eq_of_lt v.isLt

/-- A bit put as it stands already changes nothing. -/
theorem putBits_bit_same {n i b : Nat} (h : b.testBit 0 = n.testBit i) : putBits n i i b = n := by
  apply Nat.eq_of_testBit_eq
  intro j
  rw [testBit_putBits _ _ _ _ _ (Nat.le_refl i)]
  split
  next hj => rw [Nat.le_antisymm hj.2 hj.1, Nat.sub_self, h]
  next => rfl

/-- A bit that a mask keeps is the word's own. -/
theorem bitOf_and_maskOf {n hi lo i : Nat} (h : lo ≤ i ∧ i ≤ hi) : bitOf (n &&& maskOf hi lo) i = bitOf n i := by
  rw [bitOf, Nat.testBit_and, testBit_maskOf _ _ _ h, Bool.and_true, bitOf]

/-! ### Enabling a queue (R193, R267) -/

section
variable {s : State} {q : Nat}

/-- A real-time queue of a partition that reserves no slice. -/
def State.lacksSlices (s : State) (q : Nat) : Prop :=
  s.get (quePg q) QUE_CTL_CLASS = 1 ∧ s.rd (partPg (s.partOf (s.queCtx q)) + PART_RT_MASK) = 0

section
variable (hn : s.on (quePg q) QUE_STAT_ENABLED = false)
include hn

theorem State.queueEnable_inactive (hx : s.ctxState (s.queCtx q) ≠ 1) : s.queueEnable q = s.queErr q 0x09 :=
  (if_neg (ne_true_of_eq_false hn)).trans (if_pos hx)

variable (hx : s.ctxState (s.queCtx q) = 1)
include hx

theorem State.queueEnable_outside (ho : ¬ (s.ringOk q = true ∧ s.cplOk q = true)) : s.queueEnable q = s.queErr q 0x07 := by
  have outside : s.ringOk q = false ∨ s.cplOk q = false := by simpa [imp_iff_not_or] using ho
  exact (if_neg (ne_true_of_eq_false hn)).trans ((if_neg (not_not.mpr hx)).trans (if_pos outside))

variable (hr : s.ringOk q = true) (hc : s.cplOk q = true)
include hr hc

theorem State.queueEnable_inside : s.queueEnable q =
    if s.get (quePg q) QUE_CTL_CLASS = 1 ∧ s.rd (partPg (s.partOf (s.queCtx q)) + PART_RT_MASK) = 0 then s.queErr q 0x08
    else (s.set (quePg q) QUE_STAT_ENABLED 1).set (quePg q) QUE_CTL_ENABLE 1 := by
  have inside : ¬ (s.ringOk q = false ∨ s.cplOk q = false) := by simp [hr, hc]
  exact (if_neg (ne_true_of_eq_false hn)).trans ((if_neg (not_not.mpr hx)).trans (if_neg inside))

theorem State.queueEnable_unreserved (hl : s.lacksSlices q) : s.queueEnable q = s.queErr q 0x08 :=
  (State.queueEnable_inside hn hx hr hc).trans (if_pos hl)

theorem State.queueEnable_passes (hl : ¬ s.lacksSlices q) :
    s.queueEnable q = (s.set (quePg q) QUE_STAT_ENABLED 1).set (quePg q) QUE_CTL_ENABLE 1 :=
  (State.queueEnable_inside hn hx hr hc).trans (if_neg hl)

end

/-! ### RESTART (R198, R209) -/

theorem State.queueRestart_outside (hh : s.on (quePg q) QUE_STAT_HALTED = true) (hc : s.cplOk q = false) : s.queueRestart q = s.queErr q 0x0A :=
  (if_neg (ne_false_of_eq_true hh)).trans (if_pos hc)

theorem State.queueRestart_inside (hh : s.on (quePg q) QUE_STAT_HALTED = true) (hc : s.cplOk q = true) :
    s.queueRestart q = { s.set (quePg q) QUE_STAT_HALTED 0 with heads := Tab.put none q none s.heads } :=
  (if_neg (ne_false_of_eq_true hh)).trans (if_neg (ne_false_of_eq_true hc))

end

/-! ### A write of QUE_CTL (R193, R198, R222, R532) -/

section
variable {s : State} {q w : Nat}

/-- The settings of a word written to QUE_CTL are stored, ENABLE apart. -/
abbrev State.queSettings (s : State) (q w enable : Nat) : State := s.wr (quePg q + QUE_CTL) (putBits (w &&& maskOf 24 0) 0 0 enable)

/-- ENABLE cannot be cleared while a command is held. -/
theorem State.queCtlSet_busy (hon : s.on (quePg q) QUE_CTL_ENABLE = true) (h0 : bitOf w 0 = false) (hb : s.queueBusy q = true) :
    s.queCtlSet q w = (s.badAccess (quePg q), false) := if_pos ⟨hon, h0, hb⟩

section
variable (h25 : bitOf w 25 = false) (h26 : bitOf w 26 = false)
include h25 h26

theorem State.queCtlSet_enables (hon : s.on (quePg q) QUE_CTL_ENABLE = false) (h0 : bitOf w 0 = true) :
    s.queCtlSet q w = ((s.queSettings q w 0).queueEnable q, true) := by
  unfold State.queCtlSet
  simp only [hon, h0, h25, h26, Bool.false_eq_true, if_true, if_false, false_and]

theorem State.queCtlSet_disables (hon : s.on (quePg q) QUE_CTL_ENABLE = true) (h0 : bitOf w 0 = false) (hb : s.queueBusy q = false) :
    s.queCtlSet q w = ((s.queSettings q w 1).queueDisable q, true) := by
  unfold State.queCtlSet
  simp only [hon, h0, hb, h25, h26, Bool.false_eq_true, if_true, if_false, and_false]

end

/-- A write that leaves ENABLE as it is stores the settings; then RESTART and CLEAR_LATCH act. -/
theorem State.queCtlSet_kept (h : bitOf w 0 = s.on (quePg q) QUE_CTL_ENABLE) : s.queCtlSet q w =
    (let t := s.wr (quePg q + QUE_CTL) (w &&& maskOf 24 0)
     let t := if bitOf w 25 then t.queueRestart q else t
     (if bitOf w 26 then t.clearLatch q else t, true)) := by
  have bit : (w &&& maskOf 24 0).testBit 0 = bitOf w 0 := bitOf_and_maskOf (by decide)
  have settings : putBits (w &&& maskOf 24 0) 0 0 (if s.on (quePg q) QUE_CTL_ENABLE = true then 1 else 0) = w &&& maskOf 24 0 := by
    refine putBits_bit_same (Eq.trans ?_ bit.symm)
    rw [h]
    cases s.on (quePg q) QUE_CTL_ENABLE <;> rfl
  unfold State.queCtlSet
  simp only [settings, h]
  cases s.on (quePg q) QUE_CTL_ENABLE <;> simp only [Bool.false_eq_true, Bool.true_eq_false, if_true, if_false, false_and, and_false]

section
variable (h : bitOf w 0 = s.on (quePg q) QUE_CTL_ENABLE)
include h

theorem State.queCtlSet_restarts (h25 : bitOf w 25 = true) (h26 : bitOf w 26 = false) :
    s.queCtlSet q w = ((s.wr (quePg q + QUE_CTL) (w &&& maskOf 24 0)).queueRestart q, true) := by
  rw [State.queCtlSet_kept h]
  simp only [h25, h26, if_true, Bool.false_eq_true, if_false]

theorem State.queCtlSet_clearsLatch (h25 : bitOf w 25 = false) (h26 : bitOf w 26 = true) :
    s.queCtlSet q w = ((s.wr (quePg q + QUE_CTL) (w &&& maskOf 24 0)).clearLatch q, true) := by
  rw [State.queCtlSet_kept h]
  simp only [h25, h26, if_true, Bool.false_eq_true, if_false]

end

section
variable {v : Word} (hq : q < 4096) (h : s.holds 0 .que q)
include hq h

/-- The rows of QUE_CTL answer what its own rule makes of the bits that it names. -/
theorem State.rowWrite_queCtl {r : State × Bool} (hr : s.queCtlSet q (written .que QUE_CTL v) = r) :
    s.rowWrite 0 (decide (q < 4096)) (quePg q + QUE_CTL) v = .next (if r.2 = true then r.1.bumpSeq (quePg q) else r.1) := by
  rw [State.rowWrite_pf _ _ _ _ (decide_eq_true hq), State.write_queCtl q hq v h, hr]

theorem State.rowWrite_queCtl_taken {t : State} (hr : s.queCtlSet q (written .que QUE_CTL v) = (t, true)) :
    s.rowWrite 0 (decide (q < 4096)) (quePg q + QUE_CTL) v = .next (t.bumpSeq (quePg q)) := State.rowWrite_queCtl hq h hr

theorem State.rowWrite_queCtl_dropped {t : State} (hr : s.queCtlSet q (written .que QUE_CTL v) = (t, false)) :
    s.rowWrite 0 (decide (q < 4096)) (quePg q + QUE_CTL) v = .next t := State.rowWrite_queCtl hq h hr

end

end

/-! ### Doorbells (R194) -/

section
variable {s : State} {q : Nat} {v : Word}

/-- How far ahead of a queue's head a count of its ring lies. -/
abbrev State.aheadOfHead (s : State) (q n : Nat) : Nat := (n + 2 ^ 32 - s.rd (quePg q + QUE_HEAD)) % 2 ^ 32

/-- A doorbell that moves the tail: not back, and at most the ring's size ahead of the head. -/
def State.movesTail (s : State) (q tail : Nat) : Prop :=
  s.on (quePg q) QUE_STAT_ENABLED = true ∧ s.ctxState (s.queCtx q) = 1 ∧
    s.aheadOfHead q (Tab.get 0 s.tails q).toNat ≤ s.aheadOfHead q tail ∧ s.aheadOfHead q tail ≤ 2 ^ s.queLog q

theorem State.not_movesTail_iff {tail : Nat} : ¬ s.movesTail q tail ↔ s.on (quePg q) QUE_STAT_ENABLED = false ∨ s.ctxState (s.queCtx q) ≠ 1 ∨
    s.aheadOfHead q tail < s.aheadOfHead q (Tab.get 0 s.tails q).toNat ∨ 2 ^ s.queLog q < s.aheadOfHead q tail := by
  simp only [State.movesTail, not_and_or, Bool.not_eq_true, Nat.not_le, ne_eq]

theorem State.doorbell_moves (h : s.movesTail q v.toNat) : s.doorbell q v.toNat = { s with tails := Tab.put 0 q v s.tails } := by
  simp only [State.doorbell, Nat.mod_eq_of_lt (BitVec.isLt _), ← State.not_movesTail_iff, h, not_true, if_false, BitVec.ofNat_toNat, BitVec.setWidth_eq]

theorem State.doorbell_ignored (h : ¬ s.movesTail q v.toNat) : s.doorbell q v.toNat = s.errCount (quePg q) QUE_DB_ERR_CNT 1 := by
  simp only [State.doorbell, Nat.mod_eq_of_lt (BitVec.isLt _), ← State.not_movesTail_iff, h, not_false_eq_true, if_true]

theorem exec_doorbell (hq : q < 4096) (h : s.holds 0 .que q) : exec (.doorbell 0 q v) s = .next ((s.doorbell q v.toNat).bumpSeq (quePg q)) := by
  refine (s.handleWrite_reach 0 0 q _ _ v (decide_eq_true hq) (by decide) rfl).trans (congrArg _ ?_)
  rw [State.write_queDb q hq v h, written_whole (p := .que) (o := QUE_DB) rfl rfl]

end

/-! ### The obligations -/

/-- Settles O13, by the checks in their order and by what a disabled queue keeps. -/
theorem queueEnableAndDisable : Obligations.QueueEnableAndDisable := by
  intro s q v hq h pg w h25 h26
  refine ⟨fun h0 hon => ?enable, fun h0 hon => ⟨fun hb => ?busy, fun hb => ?disable⟩⟩
  case enable =>
    intro t late hn
    have enable {u : State} (hu : t.queueEnable q = u) : exec (.queueEnable 0 q v) s = .next (u.bumpSeq pg) :=
      State.rowWrite_queCtl_taken hq h ((State.queCtlSet_enables h25 h26 hon h0).trans (congrArg (·, true) hu))
    exact ⟨fun hx => enable (State.queueEnable_inactive hn hx), fun hx ho => enable (State.queueEnable_outside hn hx ho),
      fun hx hr hc hl => enable (State.queueEnable_unreserved hn hx hr hc hl), fun hx hr hc hl => enable (State.queueEnable_passes hn hx hr hc hl)⟩
  case busy => exact State.rowWrite_queCtl_dropped hq h (State.queCtlSet_busy hon h0 hb)
  case disable => exact State.rowWrite_queCtl_taken hq h (State.queCtlSet_disables h25 h26 hon h0 hb)

/-- Settles O14, by what RESTART, CLEAR_LATCH and a doorbell do once the settings are stored. -/
theorem queueRestartLatchDoorbell : Obligations.QueueRestartLatchDoorbell := by
  intro s q v hq h pg w t
  refine ⟨fun h0 h26 h25 hh => ?restart, fun h0 hon h25 h26 => ?latch, ?doorbell⟩
  case restart =>
    have restart {u : State} (hu : t.queueRestart q = u) : exec (.queueRestart 0 q v) s = .next (u.bumpSeq pg) :=
      State.rowWrite_queCtl_taken hq h ((State.queCtlSet_restarts h0 h25 h26).trans (congrArg (·, true) hu))
    exact ⟨fun hc => restart (State.queueRestart_inside hh hc), fun hc => restart (State.queueRestart_outside hh hc)⟩
  case latch => exact State.rowWrite_queCtl_taken hq h (State.queCtlSet_clearsLatch (h0.trans hon.symm) h25 h26)
  case doorbell =>
    intro ahead old good
    exact ⟨fun hg => (exec_doorbell hq h).trans (by rw [State.doorbell_moves hg]), fun hg => (exec_doorbell hq h).trans (by rw [State.doorbell_ignored hg])⟩

end Sys2Proof.Machine
end

section
/-! SUPPORT. Memory objects: what CREATE, FREE and FORCE_FREE do. -/

namespace Sys2Proof.Machine

open Sys2Proof

/-! ### Requests on an object (R224, R225) -/

section
variable {s : State} {x h : Nat}

/-- The offset, the length and the segment in the staging registers of a context. -/
abbrev State.stagedOff (s : State) (x : Nat) : Nat := s.rd (ctxPg x + CTX_OBJ_SEG) / 8 * 8 + s.rd (ctxPg x + CTX_OBJ_OFF_HI) % 2 ^ 13 * 2 ^ 32
abbrev State.stagedLen (s : State) (x : Nat) : Nat := s.rd (ctxPg x + CTX_OBJ_LEN_LO) + s.rd (ctxPg x + CTX_OBJ_LEN_HI) % 2 ^ 13 * 2 ^ 32
abbrev State.stagedSeg (s : State) (x : Nat) : Nat := s.rd (ctxPg x + CTX_OBJ_SEG) % 8

/-- The staged range lies in its segment. -/
def State.stagedFits (s : State) (x : Nat) : Prop :=
  (s.seg x (s.stagedSeg x)).valid = true ∧ s.stagedOff x + s.stagedLen x ≤ (s.seg x (s.stagedSeg x)).limit

theorem State.objectCreate_taken (ho : (s.atObj (objKey x h)).state ≠ 0) : s.objectCreate x h = s.objResult x 1 := if_pos ho

section
variable (ho : (s.atObj (objKey x h)).state = 0)
include ho

theorem State.objectCreate_outside (hf : ¬ s.stagedFits x) : s.objectCreate x h = s.objResult x 2 := by
  have outside : (s.seg x (s.stagedSeg x)).valid = false ∨ (s.seg x (s.stagedSeg x)).limit < s.stagedOff x + s.stagedLen x := by
    simpa [State.stagedFits, imp_iff_not_or] using hf
  exact (if_neg (not_not.mpr ho)).trans (if_pos outside)

theorem State.objectCreate_fits (hf : s.stagedFits x) : s.objectCreate x h =
    (s.updObj (objKey x h) (fun _ => { state := 1, seg := s.stagedSeg x, off := s.stagedOff x, len := s.stagedLen x })).objResult x 0 := by
  have inside : ¬ ((s.seg x (s.stagedSeg x)).valid = false ∨ (s.seg x (s.stagedSeg x)).limit < s.stagedOff x + s.stagedLen x) := by
    simpa [State.stagedFits] using hf
  exact (if_neg (not_not.mpr ho)).trans (if_neg inside)

theorem State.objectFree_free : s.objectFree x h = s.objResult x 3 := if_pos ho

theorem State.objectForceFree_free : s.objectForceFree x h = s.objResult x 3 := if_pos ho

end

/-- The state once an object is in FREEING. -/
abbrev State.objFreeing (s : State) (x h : Nat) : State := s.updObj (objKey x h) (fun o => { o with state := 2 })

theorem State.atObj_objFreeing_state : ((s.objFreeing x h).atObj (objKey x h)).state = 2 := by
  rw [State.atObj_updObj, if_pos rfl]

theorem State.objRefs_objFreeing : (s.objFreeing x h).objRefs x h = s.objRefs x h := by
  unfold State.objRefs State.allCmds
  rfl

section
variable (ho : (s.atObj (objKey x h)).state ≠ 0)
include ho

theorem State.objectFree_named (hr : s.objRefs x h ≠ 0) : s.objectFree x h = (s.objFreeing x h).objResult x 0 := by
  have waits : (s.objFreeing x h).objSettle x h = s.objFreeing x h := if_neg fun c => hr (State.objRefs_objFreeing.symm.trans c.2)
  exact (if_neg ho).trans (congrArg (·.objResult x 0) waits)

/-- An object that no accepted command names is released at once. -/
theorem State.objectForceFree_unnamed (hn : s.allCmds.any (fun c => c.ctx == x && c.ranges.any (fun r => r.handle == h)) = false) :
    s.objectForceFree x h = (((s.objFreeing x h).updObj (objKey x h) (fun _ => {})).objReleased x h).objResult x 0 := by
  have naming : (s.objFreeing x h).allCmds.filter (fun c => c.ctx == x && c.ranges.any (fun r => r.handle == h)) = [] :=
    List.filter_eq_nil_iff.mpr (List.any_eq_false.mp hn)
  have unnamed : s.objRefs x h = 0 := by
    refine List.sum_eq_zero fun n hm => ?_
    obtain ⟨c, hc, rfl⟩ := List.mem_map.mp hm
    obtain ⟨accepted, hx⟩ := List.mem_filter.mp hc
    have other : ∀ r ∈ c.ranges, ¬ (r.handle == h) = true := fun r hr e =>
      List.any_eq_false.mp hn c accepted (Bool.and_eq_true_iff.mpr ⟨(Bool.and_eq_true_iff.mp hx).2, List.any_eq_true.mpr ⟨r, hr, e⟩⟩)
    rw [List.filter_eq_nil_iff.mpr other, List.length_nil]
  have settles : (s.objFreeing x h).objSettle x h = ((s.objFreeing x h).updObj (objKey x h) (fun _ => {})).objReleased x h :=
    if_pos ⟨State.atObj_objFreeing_state, State.objRefs_objFreeing.trans unnamed⟩
  refine (if_neg ho).trans ?_
  simp only [naming, List.foldl_nil, settles]

end

end

/-! ### A write of CTX_OBJ_CTL -/

section
variable {s t : State} {fn x : Nat} {v : Word} (hf : fn < 256) (hx : x < 1024) (hr : s.reachesPage fn 2 x = true) (h : s.holds fn .ctx x)
include hf hx hr h

/-- The state in which a request on an object is carried out: handle and operation are stored. -/
abbrev State.objRequested (s : State) (x : Nat) (v : Word) : State := s.set (ctxPg x) ⟨CTX_OBJ_CTL, 13, 0⟩ (written .ctx CTX_OBJ_CTL v)

theorem State.handleWrite_objCtl (ht : s.objCtlSet x (written .ctx CTX_OBJ_CTL v) = t) :
    s.handleWrite fn 2 x (decide (x < 1024)) (ctxPg x + CTX_OBJ_CTL) v = .next (t.bumpSeq (ctxPg x)) := by
  rw [s.handleWrite_reach fn 2 x _ _ v (decide_eq_true hx) hf hr, State.write_objCtl x hx v h, ht]

variable (hh : written .ctx CTX_OBJ_CTL v % 4096 < 4095)
include hh

theorem exec_objectCreate (ho : bitsOf (written .ctx CTX_OBJ_CTL v) 13 12 = 1)
    (ht : (s.objRequested x v).objectCreate x (written .ctx CTX_OBJ_CTL v % 4096) = t) : exec (.objectCreate fn x v) s = .next (t.bumpSeq (ctxPg x)) := by
  refine State.handleWrite_objCtl hf hx hr h (Eq.trans ?_ ht)
  simp only [State.objCtlSet, if_neg (Nat.ne_of_lt hh), ho, if_true]

theorem exec_objectFree (ho : bitsOf (written .ctx CTX_OBJ_CTL v) 13 12 = 2)
    (ht : (s.objRequested x v).objectFree x (written .ctx CTX_OBJ_CTL v % 4096) = t) : exec (.objectFree fn x v) s = .next (t.bumpSeq (ctxPg x)) := by
  refine State.handleWrite_objCtl hf hx hr h (Eq.trans ?_ ht)
  simp only [State.objCtlSet, if_neg (Nat.ne_of_lt hh), ho, if_true, OfNat.ofNat_ne_one, if_false]

theorem exec_objectForceFree (ho : bitsOf (written .ctx CTX_OBJ_CTL v) 13 12 = 3)
    (ht : (s.objRequested x v).objectForceFree x (written .ctx CTX_OBJ_CTL v % 4096) = t) : exec (.objectForceFree fn x v) s = .next (t.bumpSeq (ctxPg x)) := by
  refine State.handleWrite_objCtl hf hx hr h (Eq.trans ?_ ht)
  simp only [State.objCtlSet, if_neg (Nat.ne_of_lt hh), ho, if_true, OfNat.ofNat_ne_one, Nat.reduceEqDiff, if_false]

end

/-! ### The obligation -/

/-- Settles O18, by what each request does to the object that it names. -/
theorem memoryObjects : Obligations.MemoryObjects := by
  intro s fn x v hf hx hr hs pg w h t k off len g fits done hh
  refine ⟨fun hw => ?create, fun hw => ?free, fun hw => ?forceFree⟩
  case create =>
    have create {u : State} := exec_objectCreate (t := u) hf hx hr hs hh hw
    exact ⟨fun ho => create (State.objectCreate_taken ho), fun ho hn => create (State.objectCreate_outside ho hn),
      fun ho hn => create (State.objectCreate_fits ho hn)⟩
  case free =>
    have free {u : State} := exec_objectFree (t := u) hf hx hr hs hh hw
    exact ⟨fun ho => free (State.objectFree_free ho), fun ho hn => free (State.objectFree_named ho hn)⟩
  case forceFree =>
    have force {u : State} := exec_objectForceFree (t := u) hf hx hr hs hh hw
    exact ⟨fun ho => force (State.objectForceFree_free ho), fun ho hn => force (State.objectForceFree_unnamed ho hn)⟩

end Sys2Proof.Machine
end

section
/-! SUPPORT. The registers of an event queue: its function, its settings, its head and the mirror of it in a context's page. -/

namespace Sys2Proof.Machine

open Sys2Proof

/-! ### What each write does (R227, R527, R530) -/

section
variable {s : State} {e f w x : Nat}

/-- The selected event queue may be given a function: it is disabled, and the function is the physical one or one of its partition. -/
def State.mayGiveEvq (s : State) (e f : Nat) : Prop :=
  s.on (evqPg e) EVQ_CTL_ENABLE = false ∧ (f = 0 ∨ ((s.rangeOwner PART_EVQ_RANGE_BASE PART_EVQ_RANGE_COUNT e).isSome = true ∧
    Tab.get none s.attach f = s.rangeOwner PART_EVQ_RANGE_BASE PART_EVQ_RANGE_COUNT e))

theorem State.not_mayGiveEvq_iff : ¬ s.mayGiveEvq e f ↔ s.on (evqPg e) EVQ_CTL_ENABLE = true ∨ (f ≠ 0 ∧
    ((s.rangeOwner PART_EVQ_RANGE_BASE PART_EVQ_RANGE_COUNT e).isNone = true ∨
      Tab.get none s.attach f ≠ s.rangeOwner PART_EVQ_RANGE_BASE PART_EVQ_RANGE_COUNT e)) := by
  simp only [State.mayGiveEvq, not_and_or, not_or, Bool.not_eq_false, Bool.not_eq_true, Option.isSome_eq_false_iff, ne_eq]

theorem State.evqFnSet_gives (h : s.mayGiveEvq (s.get glbPg GLB_EVQ_SEL_EVQ) (w % 256)) :
    s.evqFnSet w = ({ s with evqFn := Tab.put 0 (s.get glbPg GLB_EVQ_SEL_EVQ) (w % 256) s.evqFn }, true) :=
  if_neg fun c => State.not_mayGiveEvq_iff.mpr c h

theorem State.evqFnSet_dropped (h : ¬ s.mayGiveEvq (s.get glbPg GLB_EVQ_SEL_EVQ) (w % 256)) : s.evqFnSet w = (s.badAccess glbPg, false) :=
  if_pos (State.not_mayGiveEvq_iff.mp h)

/-- Settings that enable an event queue with a vector that its function has not. -/
def State.lacksVector (s : State) (e w : Nat) : Prop := bitOf w 0 = true ∧ vectorsOf (Tab.get 0 s.evqFn e) ≤ bitsOf w 11 6

theorem State.evqCtlSet_dropped (h : s.lacksVector e w) : s.evqCtlSet e w = (s.badAccess (evqPg e), false) := if_pos h

theorem State.evqCtlSet_stored (h : ¬ s.lacksVector e w) : s.evqCtlSet e w = (s.wr (evqPg e + EVQ_CTL) (w &&& maskOf 11 0), true) := if_neg h

/-- Without records dropped, the head is only stored. -/
theorem State.evqHead_stored (h : Tab.get 0 s.evqLost e = 0) : s.evqHead e w = s.wr (evqPg e + EVQ_HEAD) w := if_pos (.inl h)

/-- With room after records were dropped, the OVERFLOW record follows. -/
theorem State.evqHead_overflow (h : Tab.get 0 s.evqLost e ≠ 0) (hr : (s.wr (evqPg e + EVQ_HEAD) w).evqRoom e ≠ 0)
    (hn : (s.wr (evqPg e + EVQ_HEAD) w).on (evqPg e) EVQ_CTL_ENABLE = true) : s.evqHead e w =
      ({ s.wr (evqPg e + EVQ_HEAD) w with evqLost := Tab.put 0 e 0 (s.wr (evqPg e + EVQ_HEAD) w).evqLost }).evqWrite e 0x09 0
        (leBytes 4 (Tab.get 0 s.evqLost e)) :=
  if_neg (not_or.mpr ⟨h, not_or.mpr ⟨hr, ne_false_of_eq_true hn⟩⟩)

theorem State.evqMirrorSet_dropped (h : Tab.get 0 s.evqFn (s.ctxEvq x) ≠ s.ownerOf (ctxPg x)) : s.evqMirrorSet x w = (s.badAccess (ctxPg x), false) :=
  if_pos h

theorem State.evqMirrorSet_stored (h : Tab.get 0 s.evqFn (s.ctxEvq x) = s.ownerOf (ctxPg x)) : s.evqMirrorSet x w = (s.evqHead (s.ctxEvq x) w, true) :=
  if_neg (not_not.mpr h)

/-- A page that the physical function holds has it as its owner. -/
theorem State.ownerOf_of_holds {p : Pg} {i : Nat} (h : s.holds 0 p i) : s.ownerOf (p.base i) = 0 := by
  obtain ⟨-, -, own⟩ := h
  unfold State.owns at own
  split at own
  · cases own
  · exact (beq_iff_eq.mp own).symm

end

/-! ### The rows (R226, R227, R527, R530) -/

section
variable {s t : State} {e x : Nat} {v : Word}

section
variable (h : s.holds 0 .glb 0)
include h

theorem exec_evqFnWrite {r : State × Bool} (hr : s.evqFnSet (written .glb GLB_EVQ_FN v) = r) :
    exec (.evqFnWrite 0 v) s = .next (if r.2 = true then r.1.bumpSeq glbPg else r.1) :=
  (State.rowWrite_pf _ _ _ _ rfl).trans (by rw [State.write_evqFn v h, hr])

end

section
variable (he : e < 512) (h : s.holds 0 .evq e)
include he h

theorem exec_evqCtlWrite {r : State × Bool} (hr : s.evqCtlSet e (written .evq EVQ_CTL v) = r) :
    exec (.evqCtlWrite 0 e v) s = .next (if r.2 = true then r.1.bumpSeq (evqPg e) else r.1) :=
  (State.rowWrite_pf _ _ _ _ (decide_eq_true he)).trans (by rw [State.write_evqCtl e he v h, hr])

theorem exec_evqHeadWrite (ht : s.evqHead e v.toNat = t) : exec (.evqHeadWrite 0 e v) s = .next (t.bumpSeq (evqPg e)) :=
  (State.rowWrite_pf _ _ _ _ (decide_eq_true he)).trans
    (by rw [State.write_evqHead e he v h, written_whole (p := .evq) (o := EVQ_HEAD) rfl rfl, ht])

end

section
variable (hx : x < 1024) (h : s.holds 0 .ctx x)
include hx h

theorem exec_ctxEvqHeadWrite {r : State × Bool} (hr : s.evqMirrorSet x v.toNat = r) :
    exec (.ctxEvqHeadWrite 0 x v) s = .next (if r.2 = true then r.1.bumpSeq (ctxPg x) else r.1) :=
  (s.handleWrite_reach 0 2 x _ _ v (decide_eq_true hx) (by decide) rfl).trans
    (by rw [State.write_ctxEvqHead x hx v h, written_whole (p := .ctx) (o := CTX_EVQ_HEAD) rfl rfl, hr])

end

end

/-! ### The obligation -/

/-- Settles O19, by when each write is taken and what a taken one stores. -/
theorem eventQueueRegisters : Obligations.EventQueueRegisters := by
  intro s v
  refine ⟨fun h => ?function, fun e he h => ⟨?settings, ?head⟩⟩
  case function =>
    exact ⟨fun hg => exec_evqFnWrite h (State.evqFnSet_gives hg), fun hg => exec_evqFnWrite h (State.evqFnSet_dropped hg)⟩
  case settings =>
    exact ⟨fun hb => exec_evqCtlWrite he h (State.evqCtlSet_dropped hb), fun hb => exec_evqCtlWrite he h (State.evqCtlSet_stored hb)⟩
  case head =>
    refine ⟨fun hn => exec_evqHeadWrite he h (State.evqHead_stored hn), fun hn hr ho => exec_evqHeadWrite he h (State.evqHead_overflow hn hr ho),
      fun x hx hc he' => ?mirror⟩
    subst he'
    have owner : s.ownerOf (ctxPg x) = 0 := State.ownerOf_of_holds hc
    refine ⟨fun hf => exec_ctxEvqHeadWrite hx hc (State.evqMirrorSet_dropped (by rwa [owner])), fun hf hn => ?_⟩
    exact exec_ctxEvqHeadWrite hx hc ((State.evqMirrorSet_stored (hf.trans owner.symm)).trans (congrArg (·, true) (State.evqHead_stored hn)))

end Sys2Proof.Machine
end

section
/-! SUPPORT. Fence signals, responses and barrier tokens that arrive on a link port. -/

namespace Sys2Proof.Machine

open Sys2Proof

/-! ### Fence signals (R207, R315) -/

section
variable {s : State} {p : Nat} {t : Txn}

/-- The check of a fence signal does not look at what its port owes. -/
theorem State.fenceTakes_requested (f v : Nat) : (s.requested p t 6).fenceTakes (asRequest t 6) f v = s.fenceTakes t f v := by
  unfold State.fenceTakes
  rfl

theorem State.fenceServe_refused (h : s.fenceTakes t (t.addr % 65536) (leAt t.payload 0 8) = false) : s.fenceServe t = s.answer t 1 [] := if_pos h

section
variable (h : s.fenceTakes t (t.addr % 65536) (leAt t.payload 0 8) = true)
include h

theorem State.fenceServe_signals (hb : bitOf (leAt t.payload 8 1) 0 = false) : s.fenceServe t =
    ((s.raiseTarget (t.addr % 65536) (leAt t.payload 0 8)).signalFence (t.addr % 65536) (leAt t.payload 0 8)).answer t 0 [] :=
  (if_neg (ne_false_of_eq_true h)).trans (if_neg (ne_true_of_eq_false hb))

theorem State.fenceServe_breaks (hb : bitOf (leAt t.payload 8 1) 0 = true) : s.fenceServe t =
    ((s.raiseTarget (t.addr % 65536) (leAt t.payload 0 8)).remoteFenceBreak (t.addr % 65536) codePredecessorBroken (leAt t.payload 9 1) t.src
      (some (leAt t.payload 0 8))).answer t 0 [] :=
  (if_neg (ne_false_of_eq_true h)).trans (if_pos hb)

end

/-! ### Responses (R309, R310) -/

theorem State.rspServe_unasked (h : Tab.get none s.reqs t.tag = none) : s.rspServe t = s := by
  simp only [State.rspServe, h]

/-- The state once the tag of a response is free. -/
abbrev State.tagFreed (s : State) (tag : Nat) : State := { s with reqs := Tab.put none tag none s.reqs }

section
variable {r : LinkReq} (h : Tab.get none s.reqs t.tag = some r)
include h

theorem State.rspServe_resolved (hd : r.dead = true) : s.rspServe t = s.tagFreed t.tag := by
  simp only [State.rspServe, h, hd, if_true]

theorem State.rspServe_fails (hd : r.dead = false) (hs : t.status ≠ 0) :
    s.rspServe t = (s.tagFreed t.tag).reqFails r (statusCode t.status) 5 t.src t.src := by
  simp only [State.rspServe, h, hd, Bool.false_eq_true, if_false, if_pos hs]

theorem State.rspServe_data (hd : r.dead = false) (hs : t.status = 0) (ho : r.op = 1) :
    s.rspServe t = (s.tagFreed t.tag).arriveBytes r.q r.seq r.base (sliceBytes t.payload r.skip r.take) := by
  simp only [State.rspServe, h, hd, Bool.false_eq_true, if_false, if_neg (not_not.mpr hs), if_pos ho]

theorem State.rspServe_done (hd : r.dead = false) (hs : t.status = 0) (ho : r.op ≠ 1) : s.rspServe t = s.tagFreed t.tag := by
  simp only [State.rspServe, h, hd, Bool.false_eq_true, if_false, if_neg (not_not.mpr hs), if_neg ho]

end

/-! ### Barrier tokens (R316) -/

theorem State.barrierIn_nowhere (h : s.slotWith t.span [1, 2, 3] = none) : s.barrierIn t = s := by
  simp only [State.barrierIn, h]

/-- The token that a barrier message brings to its slot. -/
abbrev tokenFor (e : Nat × Nat) (t : Txn) : Tok :=
  { slot := e.1 * 8 + e.2, cmd := t.addr % 2 ^ 32, bar := bitsOf t.addr 47 32, rank := bitsOf t.addr 59 48, acc := t.aux }

/-- A token is not taken: its rank and its sender do not match the slot's table, or it is held already. -/
def State.rejectsToken (s : State) (e : Nat × Nat) (src : Nat) (b : Tok) : Prop :=
  s.spanM e.1 e.2 ≤ b.rank ∨ s.spanDev e.1 e.2 b.rank ≠ src ∨ ∃ k, k ∈ s.toks ∧ k.slot = b.slot ∧ k.cmd = b.cmd ∧ k.bar = b.bar ∧ k.rank = b.rank

theorem State.rejectsToken_iff {e : Nat × Nat} {src : Nat} {b : Tok} : s.rejectsToken e src b ↔ s.spanM e.1 e.2 ≤ b.rank ∨
    s.spanDev e.1 e.2 b.rank ≠ src ∨ s.toks.any (fun u => u.slot == b.slot && u.cmd == b.cmd && u.bar == b.bar && u.rank == b.rank) = true := by
  simp only [State.rejectsToken, List.any_eq_true, Bool.and_eq_true, beq_iff_eq, and_assoc]

section
variable {e : Nat × Nat} (h : s.slotWith t.span [1, 2, 3] = some e)
include h

theorem State.barrierIn_rejected (hb : s.rejectsToken e t.src (tokenFor e t)) : s.barrierIn t = s := by
  simp only [State.barrierIn, h]
  exact if_pos (State.rejectsToken_iff.mp hb)

variable (hb : ¬ s.rejectsToken e t.src (tokenFor e t))
include hb

theorem State.barrierIn_held (hc : s.spanCmd e.1 e.2 (t.addr % 2 ^ 32) = none) : s.barrierIn t = { s with toks := s.toks ++ [tokenFor e t] } := by
  have alone : State.spanCmd { s with toks := s.toks ++ [tokenFor e t] } e.1 e.2 (t.addr % 2 ^ 32) = none := hc
  simp only [State.barrierIn, h]
  refine (if_neg fun c => hb (State.rejectsToken_iff.mpr c)).trans ?_
  simp only [alone]

theorem State.barrierIn_completes {c : Cmd} (hc : s.spanCmd e.1 e.2 (t.addr % 2 ^ 32) = some c) :
    s.barrierIn t = State.barrierDone { s with toks := s.toks ++ [tokenFor e t] } c.q c.seq := by
  have waits : State.spanCmd { s with toks := s.toks ++ [tokenFor e t] } e.1 e.2 (t.addr % 2 ^ 32) = some c := hc
  simp only [State.barrierIn, h]
  refine (if_neg fun c => hb (State.rejectsToken_iff.mpr c)).trans ?_
  simp only [waits]

end

end

/-! ### The three transactions (R308) -/

/-- The state once a response has left the receive buffer of port `p`: its credits are owed to the partner (R305). -/
abbrev State.responded (s : State) (p : Nat) (t : Txn) : State := s.updLink p (fun x => x.owe { t with op := 7, cls := 1 })

section
variable {s : State} {p : Nat} {t : Txn} (hp : p < 36) (ht : txnOk t = true) (hk : knownOp t.op = true) (hu : s.portUp p = true)
include hp ht hk hu

theorem State.arrive_response {f : State → Txn → State} (ha : t.age ≤ 1000) (hd : t.dst = s.self) :
    s.arrive p t 7 1 (fun s t => s.routed t (fun s => f s t)) = .next (f (s.responded p t) { t with op := 7, cls := 1 }) := by
  have h3 : s.portState p = 3 := beq_iff_eq.mp hu
  refine onUnit_next (by simp [hp, ht]) ?_
  simp only [h3, State.firstData_of_portUp hu, hu, hk, OfNat.ofNat_ne_zero, Nat.reduceEqDiff, or_self, if_false, Bool.true_eq_false]
  exact State.routed_here (t := { t with op := 7, cls := 1 }) ha hd

variable (hd : t.dst = s.self)
include hd

theorem exec_barrier : exec (.barrier p t) s = .next ((s.received p t 0x10).barrierIn { t with op := 0x10, cls := 2 }) :=
  State.arrive_served hp ht hk hu hd

variable (ha : t.age ≤ 1000)
include ha

theorem exec_fenceSig : exec (.fenceSig p t) s = .next ((s.requested p t 6).fenceServe (asRequest t 6)) :=
  (State.arrive_request hp ht hk hu).trans (congrArg _ (State.routed_here (t := asRequest t 6) ha hd))

theorem exec_rsp : exec (.rsp p t) s = .next ((s.responded p t).rspServe { t with op := 7, cls := 1 }) := State.arrive_response hp ht hk hu ha hd

end

/-! ### The obligation -/

/-- Settles O35, by what each of the three transactions does at its destination. -/
theorem fenceSignalsResponsesBarriers : Obligations.FenceSignalsResponsesBarriers := by
  intro s p t hp ht hk hu ha hd
  refine ⟨?signal, ?response, ?barrier⟩
  case signal =>
    have serve {v : State} (h : (s.requested p t 6).fenceServe (asRequest t 6) = v) := (exec_fenceSig hp ht hk hu hd ha).trans (congrArg _ h)
    exact ⟨fun h => serve (State.fenceServe_refused ((State.fenceTakes_requested ..).trans h)),
      fun h => ⟨fun hb => serve (State.fenceServe_signals ((State.fenceTakes_requested ..).trans h) hb),
        fun hb => serve (State.fenceServe_breaks ((State.fenceTakes_requested ..).trans h) hb)⟩⟩
  case response =>
    have serve {v : State} (h : (s.responded p t).rspServe { t with op := 7, cls := 1 } = v) := (exec_rsp hp ht hk hu hd ha).trans (congrArg _ h)
    exact ⟨fun h => serve (State.rspServe_unasked h), fun r h => ⟨fun hd => serve (State.rspServe_resolved h hd),
      fun hd hs ho => serve (State.rspServe_data h hd hs ho), fun hd hs ho => serve (State.rspServe_done h hd hs ho),
      fun hd hs => serve (State.rspServe_fails h hd hs)⟩⟩
  case barrier =>
    have serve {v : State} (h : (s.received p t 0x10).barrierIn { t with op := 0x10, cls := 2 } = v) := (exec_barrier hp ht hk hu hd).trans (congrArg _ h)
    exact ⟨fun h => serve (State.barrierIn_nowhere h), fun e h => ⟨fun hb => serve (State.barrierIn_rejected h hb),
      fun hb hc => serve (State.barrierIn_held h hb hc), fun c hb hc => serve (State.barrierIn_completes (s := s.received p t 0x10) h hb hc)⟩⟩

end Sys2Proof.Machine
end

section
/-! SUPPORT. The life of a context: activation, teardown, and the end of a teardown. -/

namespace Sys2Proof.Machine

open Sys2Proof

variable {s t u : State} {fn x p code w : Nat} {v : Word}

/-! ### Writes of CTX_CTL (R190) -/

/-- The settings of a word written to CTX_CTL are stored. -/
abbrev State.ctxSettings (s : State) (x w : Nat) : State := s.wr (ctxPg x + CTX_CTL) (w &&& (maskOf 16 8 ||| 4))

theorem State.ctxCtlSet_activates (h0 : bitOf w 0 = true) (h1 : bitOf w 1 = false) : s.ctxCtlSet x w = (s.ctxSettings x w).contextActivate x := by
  simp only [State.ctxCtlSet, h0, h1, if_true, Bool.false_eq_true, if_false]

theorem State.ctxCtlSet_tearsDown (h0 : bitOf w 0 = false) (h1 : bitOf w 1 = true) : s.ctxCtlSet x w = (s.ctxSettings x w).contextTeardown x := by
  simp only [State.ctxCtlSet, h0, h1, if_true, Bool.false_eq_true, if_false]

theorem State.handleWrite_ctxCtl (hf : fn < 256) (hx : x < 1024) (hr : s.reachesPage fn 2 x = true) (h : s.holds fn .ctx x)
    (ht : s.ctxCtlSet x (written .ctx CTX_CTL v) = t) :
    s.handleWrite fn 2 x (decide (x < 1024)) (ctxPg x + CTX_CTL) v = .next (t.bumpSeq (ctxPg x)) := by
  rw [s.handleWrite_reach fn 2 x _ _ v (decide_eq_true hx) hf hr, State.write_ctxCtl x hx v h, ht]

/-- A field of one bit is the bit. -/
theorem bitsOf_bit (n i : Nat) : (bitsOf n i i != 0) = bitOf n i := by
  simp [bitsOf, bitOf, Nat.testBit, Nat.one_and_eq_mod_two]

/-- EXITED is stored as it is written. -/
theorem State.on_exited_ctxSettings : (s.ctxSettings x w).on (ctxPg x) CTX_CTL_EXITED = bitOf w 2 := by
  have stored : (s.ctxSettings x w).get (ctxPg x) CTX_CTL_EXITED = bitsOf (w &&& (maskOf 16 8 ||| 4)) 2 2 :=
    (congrArg (bitsOf · 2 2) (State.rd_wr_self ..)).trans (bitsOf_mod_word _ _ _ (by decide))
  rw [State.on_eq, stored, bitsOf_bit, bitOf, Nat.testBit_and, show (maskOf 16 8 ||| 4).testBit 2 = true by decide, Bool.and_true, bitOf]

/-! ### ACTIVATE (R190, R278, R384) -/

section
variable (hp : s.ctxPart x = some p) (hx : s.ctxState x = 0 ∨ s.ctxState x = 3) (ha : s.get (partPg p) PART_STAT_STATE = 2)
include hp hx ha

theorem State.contextActivate_area : s.contextActivate x =
    if s.saveOk p x = false then s.set (ctxPg x) CTX_SCHED_STAT_SAVE_ERR 1
    else
      ((State.set { s with sec := { s.sec with serial := s.sec.serial + 1, saveKey := Tab.put 0 x (s.sec.serial + 1) s.sec.saveKey },
                           objs := Tab.clear s.objs (x * 4096) (x * 4096 + 4096), ctxs := Tab.put {} x {} s.ctxs }
        (ctxPg x) CTX_STAT_STATE 1).set (ctxPg x) CTX_STAT_PARTITION p).set (ctxPg x) CTX_RCV_STAT_GUILTY 0 := by
  have may : ¬ ((s.ctxState x ≠ 0 ∧ s.ctxState x ≠ 3) ∨ s.get (partPg p) PART_STAT_STATE ≠ 2) := by omega
  simp only [State.contextActivate, hp, if_neg may]

end

/-! ### What the registers of contexts do not reach -/

theorem Tab.filter_del {α : Type} {q : Nat × α → Bool} {k : Nat} (hq : ∀ a, q (k, a) = false) (t : Tab α) : (Tab.del k t).filter q = t.filter q := by
  induction t with
  | nil => rfl
  | cons e t ih =>
    obtain ⟨j, a⟩ := e
    by_cases h : j = k
    · subst h
      simp [Tab.del, ih, hq]
    · simp [Tab.del, h, List.filter_cons, ih]

theorem Tab.filter_ins {α : Type} {q : Nat × α → Bool} {k : Nat} (hq : ∀ a, q (k, a) = false) (a : α) (t : Tab α) :
    (Tab.ins k a t).filter q = t.filter q := by
  induction t with
  | nil => simp [Tab.ins, hq]
  | cons e t ih =>
    simp only [Tab.ins]
    split
    · simp [hq]
    · simp [List.filter_cons, ih]

/-- A change of an entry that a filter drops is not seen behind it. -/
theorem Tab.filter_put {α : Type} [DecidableEq α] {q : Nat × α → Bool} {k : Nat} (hq : ∀ a, q (k, a) = false) (d a : α) (t : Tab α) :
    (Tab.put d k a t).filter q = t.filter q := by
  unfold Tab.put
  split
  · exact Tab.filter_del hq t
  · exact (Tab.filter_ins hq a _).trans (Tab.filter_del hq t)

theorem State.fencesListed_wr {a : Nat} (ha : a < Pg.base .fen 0) (n : Nat) : (s.wr a n).fencesListed = s.fencesListed := by
  refine congrArg (List.map _) (Tab.filter_put (fun b => ?_) ..)
  simp [Nat.not_le.mpr ha]

/-- The pages of contexts lie below those of queues and of fences. -/
theorem ctxPg_lt_quePg (hx : x < 1024) {o : Nat} (ho : o < 0x1000) : ctxPg x + o < Pg.base .que 0 := by
  show 0x1000000 + 0x1000 * x + o < 0x2000000 + 0x1000 * 0
  omega

/-! ### TEARDOWN (R456) -/

/-- The state once the teardown of a context has begun: QUIESCING, with the code. -/
def State.tearBegun (s : State) (x code : Nat) : State :=
  (s.set (ctxPg x) CTX_STAT_STATE 2).updCtx x (fun e => { e with tearCode := code, tearStep := 3, tq := some s.mclk })

/-- The state once every command of a QUIESCING context has stopped: its copies of the generation have moved on. -/
def State.tearStopped (s : State) (x : Nat) : State :=
  (({ s with gens := Tab.put 0 x ((s.ctxGen x + 1) % 256) s.gens }).dropEgress x).updCtx x (fun e => { e with tearStep := 5 })

section
variable (hx : x < 1024)
include hx

theorem State.rd_tearBegun {a : Nat} (ha : Pg.base .que 0 ≤ a) : (s.tearBegun x code).rd a = s.rd a := by
  have below : ctxPg x + CTX_STAT_STATE.off < a := Nat.lt_of_lt_of_le (ctxPg_lt_quePg hx (o := CTX_STAT_STATE.off) (by decide)) ha
  rw [State.tearBegun, State.updCtx_rd, State.rd_set_ne _ _ _ _ (Nat.ne_of_gt below)]

theorem State.get_tearBegun {pg : Nat} {f : F} (h : Pg.base .que 0 ≤ pg) : (s.tearBegun x code).get pg f = s.get pg f :=
  congrArg (bitsOf · f.hi f.lo) (State.rd_tearBegun hx (Nat.le_add_right_of_le h))

theorem State.quesOf_tearBegun : (s.tearBegun x code).quesOf x = s.quesOf x := by
  have page (q : Nat) : Pg.base .que 0 ≤ quePg q := Nat.add_le_add_left (Nat.zero_le _) _
  simp only [State.quesOf, State.queCtx, State.on, State.get_tearBegun hx (page _)]

theorem State.fencesOf_tearBegun : (s.tearBegun x code).fencesOf x = s.fencesOf x := by
  have page (q : Nat) : Pg.base .que 0 ≤ quePg q := Nat.add_le_add_left (Nat.zero_le _) _
  have fence (f : Nat) : Pg.base .que 0 ≤ fenAt f := by
    show 0x2000000 + 0x1000 * 0 ≤ 0x3000000 + 0x1000 * (f / 32) + 64 * (f % 32)
    omega
  have listed : (s.tearBegun x code).fencesListed = s.fencesListed := State.fencesListed_wr (Nat.lt_of_lt_of_le (ctxPg_lt_quePg hx (by decide)) (by decide)) _
  simp only [State.fencesOf, listed, State.queCtx, State.on, State.get_tearBegun hx (page _), State.get_tearBegun hx (fence _)]

omit hx in
theorem State.ctxState_tearBegun : (s.tearBegun x code).ctxState x = 2 := by
  rw [State.ctxState, State.tearBegun, State.updCtx_get, State.get_set_self _ _ _ _ (by decide) (by decide)]
  rfl

omit hx in
theorem State.atCtx_tearBegun : (s.tearBegun x code).atCtx x = { s.atCtx x with tearCode := code, tearStep := 3, tq := some s.mclk } :=
  (State.atCtx_updCtx ..).trans (if_pos rfl)

omit hx in
theorem State.ctxGen_tearBegun : (s.tearBegun x code).ctxGen x = s.ctxGen x := by
  rw [State.ctxGen, State.tearBegun, State.updCtx_get, State.get_set_disjoint _ _ CTX_STAT_STATE _ (g := CTX_STAT_GEN) rfl (by decide) (by decide) (by decide),
    State.ctxGen]

/-- Nothing runs in a context without enabled queues, accepted commands and fences: its teardown stops at once. -/
theorem State.tearDown_quiet (active : s.ctxState x = 1) (queues : s.quesOf x = []) (fences : s.fencesOf x = []) (cmds : s.openCmds x = []) :
    s.tearDown x code = (s.tearBegun x code).tearStopped x := by
  have queues' : (s.tearBegun x code).quesOf x = [] := (State.quesOf_tearBegun hx).trans queues
  have fences' : (s.tearBegun x code).fencesOf x = [] := (State.fencesOf_tearBegun hx).trans fences
  have stopped : (s.tearBegun x code).ctxState x = 2 ∧ ((s.tearBegun x code).atCtx x).tearStep = 3 ∧ ((s.tearBegun x code).openCmds x).isEmpty :=
    ⟨State.ctxState_tearBegun, congrArg CtxSt.tearStep State.atCtx_tearBegun, List.isEmpty_iff.mpr cmds⟩
  have advanced : (s.tearBegun x code).tearAdvance x = (s.tearBegun x code).tearStopped x := if_pos stopped
  have none : ¬ s.ctxState x ≠ 1 := not_not.mpr active
  have begun : (s.set (ctxPg x) CTX_STAT_STATE 2).updCtx x (fun e => { e with tearCode := code, tearStep := 3, tq := some s.mclk }) = s.tearBegun x code :=
    rfl
  simp only [State.tearDown, if_neg none, begun, queues', fences', List.foldl_nil]
  exact advanced

end

section
variable {α : Type} {f : State → α} (hf : ∀ (a : State) links reqs routes, f { a with links := links, reqs := reqs, routes := routes } = f a)
include hf

/-- Dropping a context's requests on their way changes links, requests and routes. -/
theorem State.dropEgress_field (s : State) (x : Nat) : f (s.dropEgress x) = f s := by
  unfold State.dropEgress
  refine (hf _ _ _ _).trans ?_
  exact (foldl_keeps f (fun a _ => hf a a.links _ a.routes) _ _).trans (foldl_keeps f (fun a _ => hf a _ a.reqs a.routes) _ _)

end

theorem State.rd_tearStopped (a : Nat) : (s.tearStopped x).rd a = s.rd a :=
  State.dropEgress_field (f := (State.rd · a)) (fun _ _ _ _ => rfl) { s with gens := Tab.put 0 x ((s.ctxGen x + 1) % 256) s.gens } x

theorem State.atCtx_tearStopped : (s.tearStopped x).atCtx x = { s.atCtx x with tearStep := 5 } :=
  ((State.atCtx_updCtx ..).trans (if_pos rfl)).trans (congrArg (fun e : CtxSt => { e with tearStep := 5 }) (State.dropEgress_field (f := (State.atCtx · x)) (fun _ _ _ _ => rfl) _ _))

theorem State.gens_tearStopped : Tab.get 0 (s.tearStopped x).gens x = (s.ctxGen x + 1) % 256 := by
  have gens : (s.tearStopped x).gens = Tab.put 0 x ((s.ctxGen x + 1) % 256) s.gens := State.dropEgress_field (f := State.gens) (fun _ _ _ _ => rfl) _ _
  rw [gens, Tab.get_put_self]

theorem State.atCtx_bumpSeq (k pg : Nat) : (s.bumpSeq pg).atCtx k = s.atCtx k := rfl

theorem State.gens_bumpSeq (pg : Nat) : (s.bumpSeq pg).gens = s.gens := rfl

theorem State.mems_tearStopped : ((s.tearBegun x code).tearStopped x).mems = s.mems :=
  State.updCtx_mems (State.dropEgress_mems (State.mems_with_gens (State.updCtx_mems (State.set_mems rfl))))

/-! ### CONTEXT_QUIESCED (R456) -/

theorem State.tearAdvance_stays (h : (s.atCtx x).tearStep = 5) : s.tearAdvance x = s := if_neg fun go => by simp [h] at go

/-- The state once a segment of a context is cleared. -/
def State.segEnded (s : State) (x g : Nat) : State :=
  ((s.wr (segAt x g + CTX_SEG_0) (putBit (s.rd (segAt x g + CTX_SEG_0)) 0 false)).set (segAt x g) CTX_SEG_6_PENDING 0).updSegPend (x * 8 + g) (fun _ => {})

section
variable {g : Nat}

theorem State.rd_segEnded_ne {a : Nat} (h0 : a ≠ segAt x g + CTX_SEG_0) (h6 : a ≠ segAt x g + CTX_SEG_6_PENDING.off) :
    (s.segEnded x g).rd a = s.rd a := by
  rw [State.segEnded, State.updSegPend_rd, State.rd_set_ne _ _ _ _ h6, State.rd_wr_ne _ _ _ h0]

/-- A segment is valid when bit 0 of its first word is set. -/
theorem State.seg_valid (s : State) (x g : Nat) : (s.seg x g).valid = bitOf (s.rd (segAt x g + CTX_SEG_0)) 0 := rfl

/-- PENDING of a segment is no first word of a segment. -/
theorem segAt_SEG_0_ne_SEG_6 (x i g : Nat) : segAt x i + CTX_SEG_0 ≠ segAt x g + CTX_SEG_6_PENDING.off := by
  show ctxPg x + 32 * i + 0x200 ≠ ctxPg x + 32 * g + 0x218
  omega

theorem State.valid_segEnded_self : ((s.segEnded x g).seg x g).valid = false := by
  rw [State.seg_valid, State.segEnded, State.updSegPend_rd, State.rd_set_ne _ _ _ _ (segAt_SEG_0_ne_SEG_6 x g g), State.rd_wr_self,
    bitOf, Nat.testBit_mod_two_pow]
  exact bitOf_putBit_self ..

theorem State.valid_segEnded_ne {i : Nat} (h : i ≠ g) : ((s.segEnded x g).seg x i).valid = (s.seg x i).valid := by
  have apart : segAt x i + CTX_SEG_0 ≠ segAt x g + CTX_SEG_0 := by
    unfold segAt
    omega
  rw [State.seg_valid, State.seg_valid, State.rd_segEnded_ne apart (segAt_SEG_0_ne_SEG_6 x i g)]

theorem State.atSegPend_segEnded (i : Nat) : (s.segEnded x g).atSegPend (x * 8 + i) = if i = g then {} else s.atSegPend (x * 8 + i) := by
  have key : x * 8 + i = x * 8 + g ↔ i = g := by omega
  rw [State.segEnded, State.atSegPend_updSegPend, State.atSegPend_set]
  simp only [key]
  rfl

/-- The first segments of a context, each cleared in turn, are not valid and wait for nothing. -/
theorem State.segsEnded_spec {n i : Nat} (hi : i < n) : (((List.range n).foldl (fun s g => s.segEnded x g) s).seg x i).valid = false ∧
    ((List.range n).foldl (fun s g => s.segEnded x g) s).atSegPend (x * 8 + i) = {} := by
  induction n with
  | zero => exact absurd hi (Nat.not_lt_zero _)
  | succ n ih =>
    simp only [List.range_succ, List.foldl_append, List.foldl_cons, List.foldl_nil]
    rw [State.atSegPend_segEnded]
    by_cases last : i = n
    · exact ⟨last ▸ State.valid_segEnded_self, if_pos last⟩
    · rw [State.valid_segEnded_ne last, if_neg last]
      exact ih (by omega)

theorem State.segsClear_spec {i : Nat} (hi : i < 8) : ((s.segsClear x).seg x i).valid = false ∧ (s.segsClear x).atSegPend (x * 8 + i) = {} :=
  State.segsEnded_spec hi

/-- A register of the page below the segments reads as before they were cleared. -/
theorem State.get_segsClear {f : F} (hf : f.off < CTX_SEG_0) : (s.segsClear x).get (ctxPg x) f = s.get (ctxPg x) f := by
  refine foldl_keeps (f := fun s g => s.segEnded x g) (State.get · (ctxPg x) f) (fun a g => ?_) (List.range 8) s
  have below (o : Nat) (ho : CTX_SEG_0 ≤ o) : ctxPg x + f.off ≠ segAt x g + o := by
    unfold segAt
    omega
  exact congrArg (bitsOf · f.hi f.lo) (State.rd_segEnded_ne (below _ (Nat.le_refl _)) (below _ (by decide)))

end

/-- The fields that say what the scheduler does with a context reach nothing else of its page. -/
theorem State.get_schedStat {pg : Nat} {f : F} (hf : pg + f.off ≠ ctxPg x + 0x16C) : (s.schedStat x).get pg f = s.get pg f := by
  simp only [State.schedStat]
  rw [State.get_set_ne _ _ _ _ hf, State.get_set_ne _ _ _ _ hf]

theorem State.schedStat_onlyRegs : s.OnlyRegs (s.schedStat x) := .trans (.set ..) (.set ..)

/-- The state once the translations and the save key of a context are released. -/
def State.ctxFreed (s : State) (x : Nat) : State :=
  { s.transDrop with sec := { s.sec with saveKey := Tab.put 0 x 0 s.sec.saveKey }, ctxs := Tab.put {} x {} s.ctxs }

/-- The state once the freed context is QUIESCED and of generation `g`. -/
def State.ctxRested (s : State) (x g : Nat) : State := (((s.ctxFreed x).set (ctxPg x) CTX_STAT_STATE 3).set (ctxPg x) CTX_STAT_GEN g).schedStat x

/-- The state once the end of a teardown is recorded and the scheduler has decided again. -/
def State.restTold (s : State) (x g : Nat) : State :=
  let w := s.eventAll [s.ctxEvq x, 0] 0x06 (s.ownerOf (ctxPg x)) (leBytes 2 x ++ leBytes 1 g)
  w.schedule (w.partOf x)

/-- The end of a teardown, once the segments of the context are cleared and its slices released. -/
def State.ctxEnds (s : State) (x : Nat) : State :=
  let g := (s.ctxGen x + 1) % 256
  (s.ctxRested x g).restTold x g

/-- The state once the context of a teardown that has ended is QUIESCED and of the next generation. -/
def State.ctxQuiesced (s : State) (x : Nat) : State := (s.segsClear x).ctxRested x ((s.ctxGen x + 1) % 256)

theorem State.slices_segsClear : (s.segsClear x).slices = s.slices := foldl_keeps (f := fun s g => s.segEnded x g) State.slices (fun _ _ => rfl) (List.range 8) s

theorem State.objs_segsClear : (s.segsClear x).objs = s.objs := foldl_keeps (f := fun s g => s.segEnded x g) State.objs (fun _ _ => rfl) (List.range 8) s

theorem State.exec_contextQuiesced (hx : x < 1024) (quiescing : s.ctxState x = 2) (stopped : (s.atCtx x).tearStep = 5)
    (cmds : s.allCmds.any (fun c => c.ctx == x) = false)
    (reqs : s.reqs.any (fun e => match e.2 with | some r => r.ctx == x | none => false) = false) (slices : s.ctxSlices x = []) :
    exec (.contextQuiesced x) s = .next ((s.ctxQuiesced x).restTold x ((s.ctxGen x + 1) % 256)) := by
  have released : (s.segsClear x).ctxSlices x = [] := by
    rw [← slices, State.ctxSlices, State.ctxSlices]
    simp only [State.atSlice, State.slices_segsClear]
  have gen : (s.segsClear x).ctxGen x = s.ctxGen x := State.get_segsClear (by decide)
  refine onUnit_next (decide_eq_true hx) ((if_neg ?waits).trans ?ends)
  case ends =>
    rw [State.tearAdvance_stays stopped]
    show (((s.segsClear x).ctxSlices x).foldl (fun s n => s.release n) (s.segsClear x)).ctxEnds x = _
    rw [released, List.foldl_nil, State.ctxEnds, gen, State.ctxQuiesced]
  case waits =>
    rw [State.tearAdvance_stays stopped]
    rintro (other | other | others | others | moving)
    · exact other quiescing
    · exact other stopped
    · exact Bool.false_ne_true (cmds.symm.trans others)
    · exact Bool.false_ne_true (reqs.symm.trans others)
    · simp [slices] at moving

section
variable {g : Nat}

/-- Only registers differ from the freed context. -/
theorem State.ctxRested_onlyRegs : (s.ctxFreed x).OnlyRegs (s.ctxRested x g) := .trans (.trans (.set ..) (.set ..)) State.schedStat_onlyRegs

theorem State.segPend_ctxRested : (s.ctxRested x g).segPend = s.segPend := State.ctxRested_onlyRegs.field State.segPend

theorem State.objs_ctxRested : (s.ctxRested x g).objs = s.objs := State.ctxRested_onlyRegs.field State.objs

theorem State.saveKey_ctxRested : (s.ctxRested x g).sec.saveKey = Tab.put 0 x 0 s.sec.saveKey := State.ctxRested_onlyRegs.field (·.sec.saveKey)

theorem State.ctxs_ctxRested : (s.ctxRested x g).ctxs = Tab.put {} x {} s.ctxs := State.ctxRested_onlyRegs.field State.ctxs

theorem State.mems_ctxRested : (s.ctxRested x g).mems = s.mems :=
  State.schedStat_mems (State.set_mems (State.set_mems (State.mems_with_ctxs_sec (State.transDrop_mems rfl))))

theorem State.ctxState_ctxRested : (s.ctxRested x g).ctxState x = 3 := by
  have apart : ctxPg x + CTX_STAT_STATE.off ≠ ctxPg x + 0x16C := fun e => absurd (Nat.add_left_cancel e) (by decide)
  rw [State.ctxState, State.ctxRested, State.get_schedStat apart,
    State.get_set_disjoint _ _ CTX_STAT_GEN _ (g := CTX_STAT_STATE) rfl (by decide) (by decide) (by decide), State.get_set_self _ _ _ _ (by decide) (by decide)]
  rfl

theorem State.ctxGen_ctxRested : (s.ctxRested x g).ctxGen x = g % 256 := by
  have apart : ctxPg x + CTX_STAT_GEN.off ≠ ctxPg x + 0x16C := fun e => absurd (Nat.add_left_cancel e) (by decide)
  rw [State.ctxGen, State.ctxRested, State.get_schedStat apart, State.get_set_self _ _ _ _ (by decide) (by decide)]
  rfl

/-- The entries of segments lie behind the registers that the end of a teardown writes. -/
theorem State.valid_ctxRested (i : Nat) : ((s.ctxRested x g).seg x i).valid = (s.seg x i).valid := by
  have apart (f : F) (hf : f.off < CTX_SEG_0) : segAt x i + CTX_SEG_0 ≠ ctxPg x + f.off := by
    unfold segAt
    omega
  have freed : (s.ctxFreed x).rd (segAt x i + CTX_SEG_0) = s.rd (segAt x i + CTX_SEG_0) := rfl
  rw [State.seg_valid, State.seg_valid]
  simp only [State.ctxRested, State.schedStat]
  rw [State.rd_set_ne _ _ _ _ (apart CTX_SCHED_STAT_SLICES (by decide)), State.rd_set_ne _ _ _ _ (apart CTX_SCHED_STAT_RUN (by decide)),
    State.rd_set_ne _ _ _ _ (apart CTX_STAT_GEN (by decide)), State.rd_set_ne _ _ _ _ (apart CTX_STAT_STATE (by decide)), freed]

end

/-- What the end of a teardown leaves of a context. -/
theorem State.ctxQuiesced_spec : (s.ctxQuiesced x).ctxState x = 3 ∧ (s.ctxQuiesced x).ctxGen x = (s.ctxGen x + 1) % 256 ∧
    (∀ i, i < 8 → ((s.ctxQuiesced x).seg x i).valid = false ∧ (s.ctxQuiesced x).atSegPend (x * 8 + i) = {}) ∧
    Tab.get 0 (s.ctxQuiesced x).sec.saveKey x = 0 ∧ (s.ctxQuiesced x).atCtx x = {} ∧ (s.ctxQuiesced x).objs = s.objs ∧ s.sameBytes (s.ctxQuiesced x) := by
  refine ⟨?state, ?gen, fun i hi => ?segments, ?key, ?ctx, ?objects, ?bytes⟩
  case state => rw [State.ctxQuiesced, State.ctxState_ctxRested]
  case gen => rw [State.ctxQuiesced, State.ctxGen_ctxRested, Nat.mod_mod]
  case segments =>
    obtain ⟨invalid, nothing⟩ := State.segsClear_spec (s := s) (x := x) hi
    rw [State.ctxQuiesced, State.atSegPend, State.segPend_ctxRested]
    exact ⟨(State.valid_ctxRested i).trans invalid, nothing⟩
  case key => rw [State.ctxQuiesced, State.saveKey_ctxRested, Tab.get_put_self]
  case ctx => rw [State.ctxQuiesced, State.atCtx, State.ctxs_ctxRested, Tab.get_put_self]
  case objects => exact State.objs_ctxRested.trans State.objs_segsClear
  case bytes => exact State.sameBytes_of_mems (State.mems_ctxRested.trans (State.segsClear_mems rfl))

/-! ### The obligation -/

/-- The state once a write of TEARDOWN has stopped a context in which nothing runs. -/
def State.ctxTornDown (s : State) (x code : Nat) : State := ((s.tearBegun x code).tearStopped x).bumpSeq (ctxPg x)

theorem State.ctxTornDown_spec : (s.ctxTornDown x code).ctxState x = 2 ∧ ((s.ctxTornDown x code).atCtx x).tearCode = code ∧
    ((s.ctxTornDown x code).atCtx x).tearStep = 5 ∧ ((s.ctxTornDown x code).atCtx x).tq = some s.mclk ∧
    Tab.get 0 (s.ctxTornDown x code).gens x = (s.ctxGen x + 1) % 256 ∧ s.sameBytes (s.ctxTornDown x code) := by
  have ctx : (s.ctxTornDown x code).atCtx x = { s.atCtx x with tearCode := code, tearStep := 5, tq := some s.mclk } := by
    rw [State.ctxTornDown, State.atCtx_bumpSeq, State.atCtx_tearStopped, State.atCtx_tearBegun]
  refine ⟨?state, ?cause, ?step, ?since, ?gens, ?bytes⟩
  case state =>
    rw [State.ctxState, State.ctxTornDown, State.get_bumpSeq _ _ (by decide), State.get, State.rd_tearStopped]
    exact State.ctxState_tearBegun
  case cause => rw [ctx]
  case step => rw [ctx]
  case since => rw [ctx]
  case gens => rw [State.ctxTornDown, State.gens_bumpSeq, State.gens_tearStopped, State.ctxGen_tearBegun]
  case bytes => exact State.sameBytes_of_mems (State.wr_mems State.mems_tearStopped)

section
variable (hf : fn < 256) (hx : x < 1024) (hr : s.reachesPage fn 2 x = true) (h : s.holds fn .ctx x)
include hf hx hr h

theorem State.exec_contextActivate (h0 : bitOf (written .ctx CTX_CTL v) 0 = true) (h1 : bitOf (written .ctx CTX_CTL v) 1 = false) :
    exec (.contextActivate fn x v) s = .next (((s.ctxSettings x (written .ctx CTX_CTL v)).contextActivate x).bumpSeq (ctxPg x)) :=
  State.handleWrite_ctxCtl hf hx hr h (State.ctxCtlSet_activates h0 h1)

theorem State.exec_contextTeardown (h0 : bitOf (written .ctx CTX_CTL v) 0 = false) (h1 : bitOf (written .ctx CTX_CTL v) 1 = true)
    (active : (s.ctxSettings x (written .ctx CTX_CTL v)).ctxState x = 1) (queues : (s.ctxSettings x (written .ctx CTX_CTL v)).quesOf x = [])
    (fences : (s.ctxSettings x (written .ctx CTX_CTL v)).fencesOf x = []) (cmds : (s.ctxSettings x (written .ctx CTX_CTL v)).openCmds x = []) :
    exec (.contextTeardown fn x v) s =
      .next ((s.ctxSettings x (written .ctx CTX_CTL v)).ctxTornDown x (if bitOf (written .ctx CTX_CTL v) 2 then codeOwnerExited else codeContextTornDown)) := by
  refine State.handleWrite_ctxCtl hf hx hr h ((State.ctxCtlSet_tearsDown h0 h1).trans ?_)
  rw [State.contextTeardown, State.on_exited_ctxSettings, State.tearDown_quiet hx active queues fences cmds]

end

/-- Settles O16, by the settings stored first, a teardown with nothing to stop, and the segments cleared one by one at its end. -/
theorem contextLifecycle : Obligations.ContextLifecycle := by
  unfold Obligations.ContextLifecycle
  intro s fn x v hf hx
  refine ⟨fun hr h => ⟨fun p h0 h1 hp hs ha => ⟨fun bad => ?saveArea, fun good => ?activated⟩, fun h0 h1 active queues fences cmds => ?tornDown⟩,
    fun quiescing stopped cmds reqs _ slices => ?quiesced⟩
  case saveArea => rw [State.exec_contextActivate hf hx hr h h0 h1, State.contextActivate_area hp hs ha, if_pos bad]
  case activated =>
    rw [State.exec_contextActivate hf hx hr h h0 h1, State.contextActivate_area hp hs ha, if_neg (by rw [good]; decide)]
  case tornDown => exact ⟨_, State.exec_contextTeardown hf hx hr h h0 h1 active queues fences cmds, State.ctxTornDown_spec⟩
  case quiesced => exact ⟨s.ctxQuiesced x, State.exec_contextQuiesced hx quiescing stopped cmds reqs slices, State.ctxQuiesced_spec⟩

end Sys2Proof.Machine
end

section
/-! SUPPORT. The end of an operation of the re-bind engine: what it shows, and what the keys that go on leave as it is. -/

namespace Sys2Proof.Machine

open Sys2Proof

variable {s : State} {p n : Nat}

/-! ### Fields of one page -/

/-- A field of another register of the page reads as before. -/
theorem State.get_set_page (s : State) (pg : Nat) (f : F) (v : Nat) {g : F} (h : g.off ≠ f.off) : (s.set pg f v).get pg g = s.get pg g :=
  State.get_set_ne _ _ _ _ fun e => h (Nat.add_left_cancel e)

/-! ### Keys whose retirement waited (R399) -/

theorem State.writeBack_rebind (s : State) (chan : Nat) (b : NapBuf) : (s.writeBack chan b).rebind = s.rebind := by
  have stored (g : Seal) : (s.storeLine chan b.cl g b.data).rebind = s.rebind := rfl
  unfold State.writeBack
  split
  · rw [State.bump64, State.wr64_eq, State.wr_rebind, State.wr_rebind, stored]
  · rfl

theorem State.setBufs_rebind (s : State) (chan : Nat) (l : List NapBuf) : (s.setBufs chan l).rebind = s.rebind := rfl

theorem State.flushChan_rebind (s : State) (chan : Nat) (q : NapBuf → Bool) : (s.flushChan chan q).1.rebind = s.rebind := by
  unfold State.flushChan
  rw [State.setBufs_rebind]
  exact foldl_keeps State.rebind (fun s b => s.writeBack_rebind chan b) _ s

/-- What every round of an iteration keeps of its state, the iteration keeps. -/
theorem foldl_fst_keeps {α β γ : Type} (r : State → γ) {f : State × β → α → State × β} (hf : ∀ x a, r (f x a).1 = r x.1) (l : List α) (x : State × β) :
    r (l.foldl f x).1 = r x.1 := by
  induction l generalizing x with
  | nil => rfl
  | cons a l ih => exact (ih _).trans (hf x a)

theorem State.flushTower_rebind (s : State) (key part : Nat) (byPart : Bool) (q : NapBuf → Bool) (t : Nat) :
    (s.flushTower key part byPart q t).rebind = s.rebind := by
  have shown (a : State) (n : Nat) : (((if byPart then a.set (napPg t) NAP_FLUSH_STAT_PARTITION part else a.set (napPg t) NAP_FLUSH_STAT_KEY key).mark (napPg t)
      NAP_FLUSH_STAT_BY_PART byPart).set (napPg t) NAP_FLUSH_STAT_WRITTEN n).rebind = a.rebind := by
    rw [State.set_rebind, State.mark_eq, State.set_rebind]
    split <;> rfl
  unfold State.flushTower
  dsimp only
  rw [shown]
  refine foldl_fst_keeps (x := (s, 0)) State.rebind (fun x k => ?_) _
  exact State.flushChan_rebind x.1 (t * 16 + k) q

theorem State.unlockSettle_rebind (s : State) : s.unlockSettle.rebind = s.rebind := by
  unfold State.unlockSettle
  dsimp only
  split <;> rfl

theorem State.keyFinish_rebind (s : State) (k : Nat) : (s.keyFinish k).rebind = s.rebind := by
  unfold State.keyFinish
  rw [State.unlockSettle_rebind, State.field_of_sansEvents (State.eventAll_sansEvents ..) State.rebind, State.set_rebind, State.set_rebind]
  exact foldl_keeps State.rebind (fun s t => State.flushTower_rebind ..) _ s

/-- The keys that go on change no operation of a re-bind engine. -/
theorem State.keysSettle_rebind (s : State) : s.keysSettle.rebind = s.rebind :=
  foldl_keeps State.rebind (fun s k => by
    unfold State.keySettle
    split
    · exact s.keyFinish_rebind k
    · rfl) _ s

/-! ### The end of an operation (R243, R265) -/

/-- The engine once its operation has ended, before any key goes on. -/
def State.rebindClosed (s : State) (p n : Nat) : State :=
  let t := ((s.set (partPg p) PART_REBIND_CTL_BUSY 0).set (partPg p) PART_REBIND_CTL_STEP 0).set (partPg p) PART_REBIND_CTL_RESULT n
  ((if n = 0 then t.set (partPg p) PART_REBIND_CTL_DONE 1 else t).set (partPg p) PART_STAT_REBIND_BUSY 0).updRebind p (fun _ => {})

theorem State.rebindEnd_eq : s.rebindEnd p n = (s.rebindClosed p n).keysSettle := rfl

theorem State.atRebind_rebindClosed : (s.rebindClosed p n).atRebind p = {} := (State.atRebind_updRebind ..).trans (if_pos rfl)

/-- An operation that has ended is no operation any more. -/
theorem State.atRebind_rebindEnd : (s.rebindEnd p n).atRebind p = {} := by
  rw [State.rebindEnd_eq, State.atRebind, State.keysSettle_rebind]
  exact State.atRebind_rebindClosed

/-- BUSY and STEP read 0, RESULT the result, and DONE 1 when it is 0. -/
theorem State.rebindClosed_spec (hn : n < 256) : (s.rebindClosed p n).get (partPg p) PART_REBIND_CTL_BUSY = 0 ∧
    (s.rebindClosed p n).get (partPg p) PART_REBIND_CTL_STEP = 0 ∧ (s.rebindClosed p n).get (partPg p) PART_REBIND_CTL_RESULT = n ∧
    (s.rebindClosed p n).get (partPg p) PART_REBIND_CTL_DONE = (if n = 0 then 1 else s.get (partPg p) PART_REBIND_CTL_DONE) ∧
    (s.rebindClosed p n).get (partPg p) PART_STAT_REBIND_BUSY = 0 := by
  have width : n % 2 ^ (PART_REBIND_CTL_RESULT.hi + 1 - PART_REBIND_CTL_RESULT.lo) = n := Nat.mod_eq_of_lt hn
  unfold State.rebindClosed
  by_cases h0 : n = 0
  · simp (disch := decide) only [h0, if_true, State.updRebind_get, State.get_set_self, State.get_set_page, State.get_set_disjoint]
    decide
  · simp (disch := decide) only [h0, if_false, State.updRebind_get, State.get_set_self, State.get_set_page, State.get_set_disjoint, width]
    decide

end Sys2Proof.Machine
end

section
/-! SUPPORT. Writes of a partition's page: its range registers, and the functions that are attached to it. -/

namespace Sys2Proof.Machine

open Sys2Proof

/-! ### Range registers of a partition that is not ACTIVE (R239) -/

section
variable {s : State} {p off : Nat} {v : Word}

/-- The four range registers stand before PART_KEYS, in the partition's page, and each is one word. -/
theorem rangeReg_place (ho : off ∈ [PART_CTX_RANGE, PART_QUE_RANGE, PART_FEN_RANGE, PART_EVQ_RANGE]) :
    off < PART_KEYS ∧ off < 0x1000 ∧ isRangeReg off = true ∧ off % 4 = 0 ∧ ∃ r, regAt .part off = some r ∧ r.half = .single := by
  simp only [List.mem_cons, List.not_mem_nil, or_false] at ho
  obtain rfl | rfl | rfl | rfl := ho <;> exact ⟨by decide, by decide, rfl, rfl, _, rfl, rfl⟩

/-- The owner's write of a range register does what the rule of the registers says. -/
theorem State.ownWrite_range (ho : off ∈ [PART_CTX_RANGE, PART_QUE_RANGE, PART_FEN_RANGE, PART_EVQ_RANGE]) (a : Nat) (r : Reg) (w : Nat) :
    s.ownWrite .part p off a r w = s.rangeRegWrite p off w := by
  simp only [List.mem_cons, List.not_mem_nil, or_false] at ho
  obtain rfl | rfl | rfl | rfl := ho <;> rfl

theorem State.rangeRegWrite_forming (hk : off < PART_KEYS) (hs : s.partState p = 1) (w : Nat) :
    s.rangeRegWrite p off w = ((s.wr (partPg p + off) w).partResult p 0, true) := by
  have nokey : decide (PART_KEYS ≤ off) = false := decide_eq_false (Nat.not_le.mpr hk)
  simp only [State.rangeRegWrite, nokey, hs, Bool.false_and, Bool.false_eq_true, false_and, if_false, if_true]

theorem State.rangeRegWrite_free (hk : off < PART_KEYS) (hs : s.partState p = 0) (w : Nat) :
    s.rangeRegWrite p off w = (s.partResult p resNotActive, false) := by
  have nokey : decide (PART_KEYS ≤ off) = false := decide_eq_false (Nat.not_le.mpr hk)
  simp only [State.rangeRegWrite, nokey, hs, Bool.false_and, Bool.false_eq_true, false_and, if_false, Nat.zero_ne_one, ne_eq, OfNat.zero_ne_ofNat,
    not_false_eq_true, true_or, if_true]

theorem exec_partRangeWrite (hp : p < 32) (h : s.holds 0 .part p) (ho : off ∈ [PART_CTX_RANGE, PART_QUE_RANGE, PART_FEN_RANGE, PART_EVQ_RANGE])
    {r : State × Bool} (hr : s.rangeRegWrite p off (written .part off v) = r) :
    exec (.partRangeWrite 0 p off v) s = .next (if r.2 = true then r.1.bumpSeq (partPg p) else r.1) := by
  obtain ⟨-, hpage, hrange, hal, reg, hreg, hhalf⟩ := rangeReg_place ho
  have there : (decide (p < 32) && isRangeReg off && decide (off % 4 = 0)) = true := by simp [hp, hrange, hal]
  have wrote : s.write4 0 (partPg p + off) v.toNat = if r.2 = true then r.1.bumpSeq (partPg p) else r.1 := by
    rw [partPg, State.write4_own v h (pageAt_part p off hp hpage) hpage hreg hhalf, State.ownWrite_range ho, hr]
  exact (State.rowWrite_pf s _ _ v there).trans (congrArg _ wrote)

end

/-! ### Functions (R241) -/

section
variable {s : State} {p f w : Nat}

theorem State.functionAttach_inactive (h : s.partState p ≠ 2) : s.functionAttach p f = s.fnResult p 7 := if_pos h

theorem State.functionAttach_attached (h : s.partState p = 2) (ha : (Tab.get none s.attach f).isSome = true) : s.functionAttach p f = s.fnResult p 1 :=
  (if_neg (not_not.mpr h)).trans (if_pos ha)

theorem State.functionAttach_attaches (h : s.partState p = 2) (ha : Tab.get none s.attach f = none) :
    s.functionAttach p f = { s with attach := Tab.put none f (some p) s.attach }.fnResult p 0 :=
  (if_neg (not_not.mpr h)).trans (if_neg (by simp [ha]))

theorem State.functionDetach_elsewhere (h : Tab.get none s.attach f ≠ some p) : s.functionDetach p f = s.fnResult p 7 := if_pos h

/-- An unlocked interface has nothing to move to ERROR. -/
theorem State.tdiError_unlocked {reason : Nat} (h : ¬ (Tab.get 0 s.sec.tdi f = 1 ∨ Tab.get 0 s.sec.tdi f = 2)) : s.tdiError f reason = s := if_neg h

/-- A function with no handle mapped, no event queue and an unlocked interface leaves nothing behind. -/
theorem State.functionDetach_bare (h : Tab.get none s.attach f = some p) (hh : s.handlesOf f = []) (he : ∀ e, e < 512 → Tab.get 0 s.evqFn e ≠ f)
    (ht : Tab.get 0 s.sec.tdi f = 0) : s.functionDetach p f = { s with attach := Tab.put none f none s.attach }.fnResult p 0 := by
  have queues : (List.range 512).filter (fun e => Tab.get 0 s.evqFn e == f) = [] :=
    List.filter_eq_nil_iff.mpr fun e hm => by simpa using he e (List.mem_range.mp hm)
  have unmapped : s.unmapAll f = s := by rw [State.unmapAll, hh, List.foldl_nil]
  simp only [State.functionDetach, h, hh, State.tdiError_unlocked (s := s) (f := f) (by simp [ht]), unmapped, queues, ne_eq, not_true, if_false, List.any_nil,
    Bool.false_eq_true, List.isEmpty_nil, Bool.true_eq_false, and_false, List.foldl_nil]

/-- FUNCTION takes the function that is named, whatever the request. -/
abbrev State.fnNamed (s : State) (p w : Nat) : State := s.set (partPg p) PART_FN_CTL_FUNCTION (w % 256)

theorem State.fnCtlWrite_attach (hf : w % 256 ≠ 0) (h8 : bitOf w 8 = true) (h9 : bitOf w 9 = false) :
    s.fnCtlWrite p w = (s.fnNamed p w).functionAttach p (w % 256) := by
  simp only [State.fnCtlWrite, h8, h9, hf, Bool.true_eq_false, Bool.false_eq_true, false_and, and_false, or_false, if_false, if_true]

theorem State.fnCtlWrite_detach (hf : w % 256 ≠ 0) (h8 : bitOf w 8 = false) (h9 : bitOf w 9 = true) :
    s.fnCtlWrite p w = (s.fnNamed p w).functionDetach p (w % 256) := by
  simp only [State.fnCtlWrite, h8, h9, hf, Bool.true_eq_false, Bool.false_eq_true, false_and, and_false, or_false, if_false]

/-- Naming a function leaves the partition's state. -/
theorem State.partState_fnNamed : (s.fnNamed p w).partState p = s.partState p :=
  State.get_set_ne _ _ _ _ fun e => absurd (Nat.add_left_cancel e) (by decide)

end

/-! ### The obligation -/

section
variable {s t : State} {p : Nat} {v : Word} (hp : p < 32) (h : s.holds 0 .part p) (ht : s.fnCtlWrite p (written .part PART_FN_CTL_FUNCTION.off v) = t)
include hp h ht

/-- The two rows of PART_FN_CTL answer what its rule makes of the bits it names. -/
theorem exec_functionAttach : exec (.functionAttach 0 p v) s = .next (t.bumpSeq (partPg p)) :=
  (State.rowWrite_pf s _ _ v (decide_eq_true hp)).trans (congrArg _ ((State.write_fnCtl p hp v h).trans (congrArg (·.bumpSeq (partPg p)) ht)))

theorem exec_functionDetach : exec (.functionDetach 0 p v) s = .next (t.bumpSeq (partPg p)) :=
  (State.rowWrite_pf s _ _ v (decide_eq_true hp)).trans (congrArg _ ((State.write_fnCtl p hp v h).trans (congrArg (·.bumpSeq (partPg p)) ht)))

end

/-- Settles O25, by the rule of the range registers and by what becomes of a request for a function. -/
theorem partitionRangesAndFunctions : Obligations.PartitionRangesAndFunctions := by
  unfold Obligations.PartitionRangesAndFunctions
  intro s p v hp h
  refine ⟨fun off ho => ?ranges, fun hf => ⟨fun h8 h9 => ⟨fun inactive => ?notActive, fun active attached => ?attachedAlready, fun active alone => ?attaches⟩,
    fun h8 h9 => ⟨fun elsewhere => ?notHere, fun here handles queues unlocked => ?detaches⟩⟩⟩
  case ranges =>
    have hk := (rangeReg_place ho).1
    exact ⟨fun hs => exec_partRangeWrite hp h ho (State.rangeRegWrite_forming hk hs _), fun hs => exec_partRangeWrite hp h ho (State.rangeRegWrite_free hk hs _)⟩
  case notActive =>
    exact exec_functionAttach hp h ((State.fnCtlWrite_attach hf h8 h9).trans (State.functionAttach_inactive (State.partState_fnNamed.trans_ne inactive)))
  case attachedAlready =>
    exact exec_functionAttach hp h ((State.fnCtlWrite_attach hf h8 h9).trans (State.functionAttach_attached (State.partState_fnNamed.trans active) attached))
  case attaches =>
    exact exec_functionAttach hp h ((State.fnCtlWrite_attach hf h8 h9).trans (State.functionAttach_attaches (State.partState_fnNamed.trans active) alone))
  case notHere => exact exec_functionDetach hp h ((State.fnCtlWrite_detach hf h8 h9).trans (State.functionDetach_elsewhere elsewhere))
  case detaches => exact exec_functionDetach hp h ((State.fnCtlWrite_detach hf h8 h9).trans (State.functionDetach_bare here handles queues unlocked))

end Sys2Proof.Machine
end

section
/-! SUPPORT. Handles of a virtual function: the checks of a map, and what a map that passes them does. -/

namespace Sys2Proof.Machine

open Sys2Proof

/-! ### A write of PART_MAP_DATA (R242) -/

section
variable {s : State} {p w : Nat}

/-- The handle that PART_MAP_SEL selects: its function, its kind, its number. -/
abbrev State.selFn (s : State) (p : Nat) : Nat := s.get (partPg p) PART_MAP_SEL_FUNCTION
abbrev State.selKind (s : State) (p : Nat) : Nat := s.get (partPg p) PART_MAP_SEL_KIND
abbrev State.selHandle (s : State) (p : Nat) : Nat := s.get (partPg p) PART_MAP_SEL_HANDLE

/-- The present target of that handle. -/
abbrev State.selTarget (s : State) (p : Nat) : Option Nat := s.mapOf (s.selFn p) (s.selKind p) (s.selHandle p)

theorem State.handleMapWrite_stranger (h : Tab.get none s.attach (s.selFn p) ≠ some p) : s.handleMapWrite p w = s.fnResult p 7 := if_pos (.inr h)

/-- The handle leads to `n`, whose page its function owns. -/
def State.handleLeads (s : State) (f kind h n : Nat) : State :=
  let t := { s with maps := Tab.put none (mapKey f kind h) (some n) s.maps }.set (targetPage kind n) BLK_OWNER_FUNCTION f
  if kind = 2 then t.set (ctxPg n) CTX_STAT_FUNCTION f else t

/-- An interface that is not locked is not moved to ERROR by a map. -/
theorem State.tdiError_of_not_locked {f reason : Nat} (hf : f ≠ 0) (h : s.tdiLocked f = false) : s.tdiError f reason = s := by
  refine if_neg ?_
  simpa [State.tdiLocked, hf] using h

/-- A handle that is not mapped has nothing to remove. -/
theorem State.unmap_free {f kind h : Nat} (hm : s.mapOf f kind h = none) : s.unmap f kind h = s := by
  unfold State.unmap
  rw [hm]

variable (hv : bitOf w 16 = true) (hf : s.selFn p ≠ 0) (ha : Tab.get none s.attach (s.selFn p) = some p) (hk : s.selKind p ≤ 2)
include hv hf ha hk

theorem State.handleMapWrite_repeats (hm : s.selTarget p = some (w % 65536)) : s.handleMapWrite p w = s.fnResult p 0 := by
  simp only [State.handleMapWrite, hv, hf, ha, Nat.not_lt.mpr hk, hm, ne_eq, not_true, or_self, if_false, if_true]

variable (hm : s.selTarget p ≠ some (w % 65536))
include hm

theorem State.handleMapWrite_outside (ho : handleCount (s.selKind p) ≤ s.selHandle p ∨ s.targetIn p (s.selKind p) (w % 65536) = false) :
    s.handleMapWrite p w = s.fnResult p 3 := by
  simp only [State.handleMapWrite, hv, hf, ha, Nat.not_lt.mpr hk, hm.symm, ho, ne_eq, not_true, or_self, true_and, if_false, if_true]

variable (hh : s.selHandle p < handleCount (s.selKind p)) (ht : s.targetIn p (s.selKind p) (w % 65536) = true)
include hh ht

theorem State.handleMapWrite_foreign (h0 : s.ownerOf (targetPage (s.selKind p) (w % 65536)) ≠ 0)
    (ho : s.ownerOf (targetPage (s.selKind p) (w % 65536)) ≠ s.selFn p) : s.handleMapWrite p w = s.fnResult p 4 := by
  simp only [State.handleMapWrite, hv, hf, ha, Nat.not_lt.mpr hk, hm.symm, Nat.not_le.mpr hh, ht, h0, ho, ne_eq, not_true, not_false_eq_true, or_self,
    and_self, Bool.true_eq_false, and_false, if_false, if_true]

omit hm in
theorem State.handleMapWrite_maps (ho : s.ownerOf (targetPage (s.selKind p) (w % 65536)) = 0 ∨ s.ownerOf (targetPage (s.selKind p) (w % 65536)) = s.selFn p)
    (hn : s.selTarget p = none) (hl : s.tdiLocked (s.selFn p) = false) :
    s.handleMapWrite p w = (s.handleLeads (s.selFn p) (s.selKind p) (s.selHandle p) (w % 65536)).fnResult p 0 := by
  have owner : ¬ (s.ownerOf (targetPage (s.selKind p) (w % 65536)) ≠ 0 ∧ s.ownerOf (targetPage (s.selKind p) (w % 65536)) ≠ s.selFn p) := by tauto
  simp only [State.handleMapWrite, hv, hf, ha, Nat.not_lt.mpr hk, Nat.not_le.mpr hh, ht, owner, hn, hl, State.tdiError_of_not_locked hf hl,
    State.unmap_free hn, ne_eq, not_true, or_self, Bool.true_eq_false, Bool.false_eq_true, and_false, false_and, if_false, if_true]
  rfl

end

/-! ### The obligation -/

theorem exec_handleMap {s t : State} {p : Nat} {v : Word} (hp : p < 32) (h : s.holds 0 .part p) (ht : s.handleMapWrite p (written .part PART_MAP_DATA v) = t) :
    exec (.handleMap 0 p v) s = .next (t.bumpSeq (partPg p)) :=
  (State.rowWrite_pf s _ _ v (decide_eq_true hp)).trans (congrArg _ ((State.write_mapData p hp v h).trans (congrArg (·.bumpSeq (partPg p)) ht)))

/-- A handle beyond its function's count. -/
theorem handleCount_le {kind h : Nat} (hb : (768 ≤ h ∧ kind = 0) ∨ (32 ≤ h ∧ kind = 2)) : handleCount kind ≤ h := by
  obtain ⟨hb, rfl⟩ | ⟨hb, rfl⟩ := hb <;> exact hb

/-- Settles O26, by the check that each map fails first and by what a map that passes them all does. -/
theorem handleMapping : Obligations.HandleMapping := by
  unfold Obligations.HandleMapping
  intro s p v hp hs pg w f kind h n tgt done hv
  refine ⟨fun stranger => ?stranger, fun hf ha hl hk => ⟨fun same => ?repeats, fun other beyond => ?outside,
    fun other within inside => ⟨fun owned foreign => ?foreign, fun mine free => ?maps⟩⟩⟩
  case stranger => exact exec_handleMap hp hs (State.handleMapWrite_stranger stranger)
  case repeats => exact exec_handleMap hp hs (State.handleMapWrite_repeats hv hf ha hk same)
  case outside =>
    rw [← or_assoc] at beyond
    exact exec_handleMap hp hs (State.handleMapWrite_outside hv hf ha hk other (beyond.imp_left handleCount_le))
  case foreign => exact exec_handleMap hp hs (State.handleMapWrite_foreign hv hf ha hk other within inside owned foreign)
  case maps => exact exec_handleMap hp hs (State.handleMapWrite_maps hv hf ha hk within inside mine free hl)

end Sys2Proof.Machine
end

section
/-! SUPPORT. The copy of one region into another: its start, its passes, and the switch of the segments. -/

namespace Sys2Proof.Machine

open Sys2Proof

/-! ### One advance of a rebalance (R250, R251) -/

section
variable {s : State} {p gone : Nat}

/-- The change of BASE becomes pending on every segment that covers SRC. -/
abbrev State.switchPending (s : State) (p : Nat) : State :=
  ((s.coverSegs p (s.atRebind p).src).foldl
    (fun t e => t.segNarrow e.1 e.2 (t.movedWords (s.atRebind p).src (s.atRebind p).dst e) true) s).rebalSub p 5

/-- Every segment that covers SRC takes its words with BASE moved to DST. -/
abbrev State.segsSwitched (s : State) (p : Nat) : State :=
  (s.coverSegs p (s.atRebind p).src).foldl
    (fun t e => (t.segApply e.1 e.2 (t.movedWords (s.atRebind p).src (s.atRebind p).dst e)).segDone e.1 e.2) (s.rebalSub p 6)

theorem State.rebalSwitch_free (h : ∀ e, e ∈ s.coverSegs p (s.atRebind p).src → (s.atSegPend (e.1 * 8 + e.2)).words = []) :
    s.rebalSwitch p = s.switchPending p := by
  refine if_neg ?_
  simpa using h

theorem State.rebalLast_held (h : ∃ e, e ∈ s.coverSegs p (s.atRebind p).src ∧ s.segHold e.1 e.2 ≠ 0) : s.rebalLast p = (s, false) := by
  refine if_pos ?_
  simpa using h

theorem State.rebalLast_switches (h : ∀ e, e ∈ s.coverSegs p (s.atRebind p).src → s.segHold e.1 e.2 = 0) (hl : (s.atRebind p).log = []) :
    s.rebalLast p = (s.segsSwitched p, true) := by
  have free : ¬ (s.coverSegs p (s.atRebind p).src).any (fun e => s.segHold e.1 e.2 != 0) = true := by simpa using h
  refine (if_neg free).trans ?_
  rw [hl]
  rfl

/-- A rebalance that has not started yet checks the conditions of R250. -/
theorem State.rebalNext_start (h : (s.atRebind p).sub = 0) : s.rebalNext p gone =
    if s.rebalRule p (s.atRebind p).src (s.atRebind p).dst gone ≠ 0
      then (s.rebindEnd p (s.rebalRule p (s.atRebind p).src (s.atRebind p).dst gone), false)
      else (s.rebalPass p 3 (s.regionBlocks (s.atRebind p).src), false) := if_pos h

/-- One that copies goes on to the switch once few blocks are dirty, or after eight passes. -/
theorem State.rebalNext_copying (h : (s.atRebind p).sub = 3 ∨ (s.atRebind p).sub = 4) : s.rebalNext p gone =
    if (s.atRebind p).log.length ≤ 64 ∨ 8 ≤ (s.atRebind p).pass then (s.rebalSwitch p, false)
      else (s.rebalPass p 4 (s.atRebind p).log, false) :=
  (if_neg (by omega)).trans (if_pos (by omega))

theorem State.rebalNext_switching (h : (s.atRebind p).sub = 5) : s.rebalNext p gone = s.rebalLast p :=
  (if_neg (by omega)).trans (if_neg (by omega))

end

/-! ### The obligation -/

section
variable {s t : State} {p : Nat} (hp : p < 32) (ho : (s.atRebind p).op = 4)
include hp ho

theorem exec_rebalance_goesOn (h : s.rebalNext p 0 = (t, false)) : exec (.rebalance p) s = .next t := by
  refine onUnit_next (decide_eq_true hp) ?_
  simp only [ho, ne_eq, not_true, if_false, h]

theorem exec_rebalance_completes (h : s.rebalNext p 0 = (t, true)) : exec (.rebalance p) s = .next (t.rebindEnd p 0) := by
  refine onUnit_next (decide_eq_true hp) ?_
  simp only [ho, ne_eq, not_true, if_false, h]

end

/-- Settles O28, by the advance that each sub-step of a rebalance makes. -/
theorem rebalanceOfARegion : Obligations.RebalanceOfARegion := by
  unfold Obligations.RebalanceOfARegion
  intro s p hp ho
  refine ⟨fun start => ⟨fun fails => ?refused, fun passes => ?firstPass⟩, fun copying => ⟨fun many few => ?nextPass, fun enough free => ?pending⟩,
    fun switching => ⟨fun held => ?held, fun released copied => ?switched⟩⟩
  case refused => exact exec_rebalance_goesOn hp ho ((State.rebalNext_start start).trans (if_pos fails))
  case firstPass => exact exec_rebalance_goesOn hp ho ((State.rebalNext_start start).trans (if_neg (not_not.mpr passes)))
  case nextPass => exact exec_rebalance_goesOn hp ho ((State.rebalNext_copying copying).trans (if_neg (by omega)))
  case pending =>
    have next := (State.rebalNext_copying (gone := 0) copying).trans (if_pos enough)
    rw [State.rebalSwitch_free free] at next
    exact exec_rebalance_goesOn hp ho next
  case held => exact exec_rebalance_goesOn hp ho ((State.rebalNext_switching switching).trans (State.rebalLast_held held))
  case switched => exact exec_rebalance_completes hp ho ((State.rebalNext_switching switching).trans (State.rebalLast_switches released copied))

end Sys2Proof.Machine
end

section
/-! SUPPORT. Ports of a span slot: a binding that waits for the partner, an unbinding, and a port that leaves its slot once drained. -/

namespace Sys2Proof.Machine

open Sys2Proof

/-! ### Binding (R257) -/

section
variable {s : State} {p : Nat} (hp : p < 32)
include hp

section
variable (ho : (s.atRebind p).op = 5) (hs : (s.atRebind p).step = 1)
include ho hs

theorem exec_portBind_noSpan (h : (s.atRebind p).span = 0) : exec (.portBind p) s = .next (s.rebindEnd p 0x24) := by
  refine onUnit_next (decide_eq_true hp) ?_
  simp only [ho, hs, h, ne_eq, not_true, or_self, if_false, if_true]
  rfl

variable (h : (s.atRebind p).span ≠ 0)
include h

theorem exec_portBind_noPort (hn : onePort (s.atRebind p).ports = none) : exec (.portBind p) s = .next (s.rebindEnd p 0x0A) := by
  refine onUnit_next (decide_eq_true hp) ?_
  simp only [ho, hs, h, hn, ne_eq, not_true, or_self, if_false]
  rfl

variable {n : Nat} (hn : onePort (s.atRebind p).ports = some n)
include hn

theorem exec_portBind_taken (hb : s.capState 3 n ≠ 1 ∨ s.portUp n = false ∨ s.on (lnkPg n) LNK_STAT_BOUND = true) :
    exec (.portBind p) s = .next (s.rebindEnd p 0x0A) := by
  refine onUnit_next (decide_eq_true hp) ?_
  simp only [ho, hs, h, hn, hb, ne_eq, not_true, or_self, if_false, if_true]
  rfl

theorem exec_portBind_asks (hc : s.capState 3 n = 1) (hu : s.portUp n = true) (hb : s.on (lnkPg n) LNK_STAT_BOUND = false) : exec (.portBind p) s =
    .next (((s.updLink n (fun x => { x with bindBy := x.bindBy ++ [p] })).sendMgmt n { op := 0x22, span := (s.atRebind p).span }).rebindStep p 3) := by
  refine onUnit_next (decide_eq_true hp) ?_
  simp only [ho, hs, h, hn, hc, hu, hb, ne_eq, not_true, or_self, Bool.true_eq_false, Bool.false_eq_true, if_false]

end

theorem exec_portBindTimeout {n : Nat} (ho : (s.atRebind p).op = 5) (hs : (s.atRebind p).step = 3) (hn : onePort (s.atRebind p).ports = some n) :
    exec (.portBindTimeout p) s = .next ((s.updLink n (fun x => { x with bindBy := x.bindBy.filter (· != p) })).rebindEnd p 0x0C) := by
  refine onUnit_next (decide_eq_true hp) ?_
  simp only [ho, hs, and_self, if_true, State.bindFails, hn]
  rfl

end

/-! ### Unbinding (R259, R332) -/

section
variable {s : State} {p : Nat}

/-- The ports of the partition that its request names. -/
abbrev State.portsAsked (s : State) (p : Nat) : List Nat := (s.partPorts p).filter (fun n => bitOf (s.atRebind p).ports n)

/-- The span slot that a port is bound to. -/
abbrev State.portSlot (s : State) (n : Nat) : Nat := s.get (lnkPg n) LNK_STAT_SPAN_SLOT

/-- The request would take the last bound port of an ACTIVE slot. -/
def State.takesLastPort (s : State) (p : Nat) : Prop :=
  ∃ n, n ∈ s.portsAsked p ∧ s.get (spanAt p (s.portSlot n)) PART_SPAN_0_STATE = 2 ∧
    ∀ k, k ∈ s.partPorts p → s.portSlot k = s.portSlot n → k ∈ s.portsAsked p

theorem State.takesLastPort_iff : (s.portsAsked p).any (fun n => s.get (spanAt p (s.portSlot n)) PART_SPAN_0_STATE == 2 &&
    (s.partPorts p).all (fun k => s.portSlot k != s.portSlot n || (s.portsAsked p).contains k)) = true ↔ s.takesLastPort p := by
  simp only [State.takesLastPort, List.any_eq_true, Bool.and_eq_true, beq_iff_eq, List.all_eq_true, Bool.or_eq_true, bne_iff_ne, List.contains_iff_mem,
    imp_iff_not_or]

/-- UNBIND goes to the partner of each port, and the ports drain. -/
abbrev State.portsDrain (s : State) (l : List Nat) : State :=
  l.foldl (fun t n => (t.sendMgmt n { op := 0x25 }).updLink n (fun x => { x with draining := true })) s

variable (hp : p < 32) (ho : (s.atRebind p).op = 6) (hs : (s.atRebind p).step = 1)
include hp ho hs

theorem exec_portUnbind_last (h : s.takesLastPort p) : exec (.portUnbind p) s = .next (s.rebindEnd p 0x0A) := by
  refine onUnit_next (decide_eq_true hp) ?_
  simp only [ho, hs, State.takesLastPort_iff.mpr h, ne_eq, not_true, or_self, if_false, if_true]
  rfl

theorem exec_portUnbind_none (hl : s.portsAsked p = []) : exec (.portUnbind p) s = .next (s.rebindEnd p 0) := by
  refine onUnit_next (decide_eq_true hp) ?_
  simp only [ho, hs, hl, List.any_nil, List.isEmpty_nil, Bool.false_eq_true, ne_eq, not_true, or_self, if_false, if_true]

theorem exec_portUnbind_drains (h : ¬ s.takesLastPort p) (hl : s.portsAsked p ≠ []) :
    exec (.portUnbind p) s = .next ((s.portsDrain (s.portsAsked p)).rebindStep p 2) := by
  refine onUnit_next (decide_eq_true hp) ?_
  simp only [ho, hs, mt State.takesLastPort_iff.mp h, List.isEmpty_iff, hl, Bool.false_eq_true, ne_eq, not_true, or_self, if_false]

end

/-! ### Bits of a map -/

theorem testBit_putBit_false (n i j : Nat) : (putBit n i false).testBit j = (j != i && n.testBit j) := by
  rw [putBit, testBit_putBits _ _ _ _ _ (Nat.le_refl i)]
  by_cases h : j = i
  · simp [h]
  · rw [if_neg (by omega)]
    simp [h]

theorem onesBelow_putBit_false (m n i : Nat) : onesBelow m (putBit n i false) = (onesBelow m n).filter (fun k => k != i) := by
  simp only [onesBelow, List.filter_filter, testBit_putBit_false]

/-- A pair reads as it was stored. -/
theorem State.rd64_wr64_self (s : State) (a : Nat) {v : Nat} (hv : v < 2 ^ 64) : (s.wr64 a v).rd64 a = v := by
  rw [State.rd64, State.wr64_eq, State.rd_wr_self, State.rd_wr_ne _ _ _ (by omega), State.rd_wr_self]
  omega

theorem State.rd64_lt (s : State) (a : Nat) : s.rd64 a < 2 ^ 64 := by
  have low := s.rd_lt a
  have high := s.rd_lt (a + 4)
  rw [State.rd64]
  omega

/-! ### A port leaves its slot (R259, R332) -/

section
variable {s : State} {p n : Nat}

/-- Holding routes changes routes only. -/
theorem State.routesHold_field {β : Type} (s : State) (nb : Nat) (f : State → β)
    (hf : ∀ (a : State) r, f { a with routes := r } = f a := by exact fun _ _ => rfl) : f (s.routesHold nb) = f s := by
  unfold State.routesHold
  split
  · rfl
  · refine foldl_keeps f (fun a d => ?_) _ s
    split
    · exact hf a _
    · rfl

/-- The binding fields of the port read 0, and FWD_POOL says whether it forwards. -/
def State.portUnshown (s : State) (n : Nat) : State :=
  let t := ((s.set (lnkPg n) LNK_STAT_BOUND 0).set (lnkPg n) LNK_STAT_PARTITION 0).set (lnkPg n) LNK_STAT_SPAN_SLOT 0
  t.mark (lnkPg n) LNK_STAT_FWD_POOL (t.portUp n && t.on (lnkPg n) LNK_CTL_FWD)

/-- The port is no longer in the partition's map, and its binding fields read 0. -/
def State.portFreed (s : State) (n p : Nat) : State :=
  (s.wr64 (partPg p + PART_PORTS) (putBit (s.rd64 (partPg p + PART_PORTS)) n false)).portUnshown n

/-- The port is bound to no span and drains no more. -/
abbrev State.portLoose (s : State) (n : Nat) : State := s.updLink n (fun x => { x with bindTo := 0, draining := false })

theorem State.unbindPort_bound (hb : s.on (lnkPg n) LNK_STAT_BOUND = true) (hp : s.get (lnkPg n) LNK_STAT_PARTITION = p) :
    s.unbindPort n = (((s.portFreed n p).portLoose n).capTouch).routesHold ((s.portFreed n p).portDev n) := by
  subst hp
  exact if_neg (ne_false_of_eq_true hb)

/-- What does not depend on routes, links or the capability table's generation is as the registers leave it. -/
theorem State.unbindPort_field {β : Type} (hb : s.on (lnkPg n) LNK_STAT_BOUND = true) (hp : s.get (lnkPg n) LNK_STAT_PARTITION = p) (f : State → β)
    (hf : ∀ (a : State) l g r, f { a with links := l, captGen := g, routes := r } = f a := by exact fun _ _ _ _ => rfl) :
    f (s.unbindPort n) = f (s.portFreed n p) := by
  have loose (a : State) : f (a.portLoose n).capTouch = f a := hf a (a.portLoose n).links (a.captGen + 2) a.routes
  rw [State.unbindPort_bound hb hp, State.routesHold_field _ _ f fun a r => hf a a.links a.captGen r, loose]

theorem State.draining_unbindPort (hb : s.on (lnkPg n) LNK_STAT_BOUND = true) : ((s.unbindPort n).atLink n).draining = false := by
  have touched (a : State) : a.capTouch.atLink n = a.atLink n := rfl
  rw [State.unbindPort_bound hb rfl, State.routesHold_field _ _ (·.atLink n), touched, State.atLink_updLink, if_pos rfl]

/-- The registers of a port's page lie below those of the partitions. -/
theorem lnkPg_ne_partPg (hn : n < 36) (o o' : Nat) (ho : o < 0x1000) : lnkPg n + o ≠ partPg p + o' := by
  have lnk : lnkPg n = 0x400000 + 0x1000 * n := rfl
  have part : partPg p = 0x500000 + 0x1000 * p := rfl
  omega

theorem State.rd_portFreed (hn : n < 36) (o : Nat) : (s.portFreed n p).rd (partPg p + o) =
    (s.wr64 (partPg p + PART_PORTS) (putBit (s.rd64 (partPg p + PART_PORTS)) n false)).rd (partPg p + o) := by
  have apart (f : F) (hf : f.off < 0x1000) : partPg p + o ≠ lnkPg n + f.off := (lnkPg_ne_partPg hn f.off o hf).symm
  rw [State.portFreed, State.portUnshown, State.mark_eq, State.rd_set_ne _ _ _ _ (apart _ (by decide)), State.rd_set_ne _ _ _ _ (apart _ (by decide)),
    State.rd_set_ne _ _ _ _ (apart _ (by decide)), State.rd_set_ne _ _ _ _ (apart _ (by decide))]

theorem State.partPorts_portFreed (hn : n < 36) : (s.portFreed n p).partPorts p = (s.partPorts p).filter (fun k => k != n) := by
  have short : putBit (s.rd64 (partPg p + PART_PORTS)) n false < 2 ^ 64 := putBits_lt _ _ _ _ _ (Nat.le_refl n) (by omega) (s.rd64_lt _)
  have map : (s.portFreed n p).rd64 (partPg p + PART_PORTS) = putBit (s.rd64 (partPg p + PART_PORTS)) n false :=
    (State.rd64_congr (State.rd_portFreed hn PART_PORTS) (State.rd_portFreed hn (PART_PORTS + 4))).trans (State.rd64_wr64_self _ _ short)
  rw [State.partPorts, map, onesBelow_putBit_false, State.partPorts]

/-- The three binding fields of the port read 0. -/
theorem State.get_portUnshown : (s.portUnshown n).get (lnkPg n) LNK_STAT_BOUND = 0 ∧ (s.portUnshown n).get (lnkPg n) LNK_STAT_PARTITION = 0 ∧
    (s.portUnshown n).get (lnkPg n) LNK_STAT_SPAN_SLOT = 0 := by
  rw [State.portUnshown]
  generalize ((((s.set (lnkPg n) LNK_STAT_BOUND 0).set (lnkPg n) LNK_STAT_PARTITION 0).set (lnkPg n) LNK_STAT_SPAN_SLOT 0).portUp n && _) = b
  simp (disch := decide) only [State.mark_eq, State.get_set_self, State.get_set_disjoint]
  decide

end

/-! ### The obligation -/

section
variable {s : State} {n p : Nat}

section
variable (hb : s.on (lnkPg n) LNK_STAT_BOUND = true) (hp : s.get (lnkPg n) LNK_STAT_PARTITION = p)
include hb hp

theorem State.atRebind_unbindPort (q : Nat) : (s.unbindPort n).atRebind q = s.atRebind q := by
  have wrote (v : Nat) : (s.wr64 (partPg p + PART_PORTS) v).rebind = s.rebind := by rw [State.wr64_eq, State.wr_rebind, State.wr_rebind]
  have freed : (s.portFreed n p).rebind = s.rebind := by
    rw [State.portFreed, State.portUnshown, State.mark_eq, State.set_rebind, State.set_rebind, State.set_rebind, State.set_rebind, wrote]
  rw [State.atRebind, State.atRebind, State.unbindPort_field hb hp State.rebind, freed]

/-- The port leaves PART_PORTS, and no other does. -/
theorem State.partPorts_unbindPort (hn : n < 36) : (s.unbindPort n).partPorts p = (s.partPorts p).filter (fun k => k != n) :=
  (State.unbindPort_field hb hp (State.partPorts · p)).trans (State.partPorts_portFreed hn)

theorem State.get_unbindPort (f : F) : (s.unbindPort n).get (lnkPg n) f =
    ((s.wr64 (partPg p + PART_PORTS) (putBit (s.rd64 (partPg p + PART_PORTS)) n false)).portUnshown n).get (lnkPg n) f :=
  State.unbindPort_field hb hp (State.get · (lnkPg n) f)

end

/-- A port that has drained leaves its slot; the last one of its request ends the operation. -/
theorem exec_portUnbindDrainDone (hn : n < 36) (hd : (s.atLink n).draining = true) (hb : s.portBusy n = false)
    (hp : s.get (lnkPg n) LNK_STAT_PARTITION = p) (ho : s.on (lnkPg n) LNK_STAT_BOUND = true) : exec (.portUnbindDrainDone n) s =
      .next (if (s.atRebind p).op = 6 ∧ (s.atRebind p).step = 2 ∧ ((s.partPorts p).filter (fun k => k != n)).all (fun k => !bitOf (s.atRebind p).ports k) = true
        then (s.unbindPort n).rebindEnd p 0 else s.unbindPort n) := by
  refine onUnit_next (decide_eq_true hn) ?_
  simp only [hd, hb, hp, State.atRebind_unbindPort ho hp, State.partPorts_unbindPort ho hp hn, Bool.true_eq_false, Bool.false_eq_true, or_self, if_false]

/-- An operation that is under way is not as its end leaves it. -/
theorem State.rebindEnd_ne {r : Nat} (h : (s.atRebind p).op = 6) : s.rebindEnd p r ≠ s := by
  intro e
  rw [← e, State.atRebind_rebindEnd] at h
  cases h

end

/-- Settles O29, by what each row does with the ports of its request. -/
theorem portsOfASpanSlot : Obligations.PortsOfASpanSlot := by
  unfold Obligations.PortsOfASpanSlot
  intro s p hp rb mine l slotOf
  refine ⟨fun ho hs => ⟨exec_portBind_noSpan hp ho hs, exec_portBind_noPort hp ho hs,
      fun n h hn => ⟨exec_portBind_taken hp ho hs h hn, exec_portBind_asks hp ho hs h hn⟩⟩,
    fun n ho hs hn => exec_portBindTimeout hp ho hs hn,
    fun ho hs => ⟨exec_portUnbind_last hp ho hs, fun _ hl => exec_portUnbind_none hp ho hs hl, exec_portUnbind_drains hp ho hs⟩,
    fun n hn hd hb hpart hbound => ?leaves⟩
  case leaves =>
    have done := exec_portUnbindDrainDone hn hd hb hpart hbound
    have field := State.get_unbindPort hbound hpart
    obtain ⟨bound, part, slot⟩ := State.get_portUnshown (s := s.wr64 (partPg p + PART_PORTS) (putBit (s.rd64 (partPg p + PART_PORTS)) n false)) (n := n)
    refine ⟨s.unbindPort n, ?_, State.partPorts_unbindPort hbound hpart hn, (field _).trans bound, (field _).trans part, (field _).trans slot,
      State.draining_unbindPort hbound, State.sameBytes_of_mems (State.unbindPort_mems rfl), ?_⟩
    · rw [done]
      split
      · exact .inr rfl
      · exact .inl rfl
    · rw [done]
      refine ⟨fun last e => ?_, fun changed => ?_⟩
      · rw [if_pos last] at e
        exact State.rebindEnd_ne ((congrArg Rebind.op (State.atRebind_unbindPort hbound hpart p)).trans last.1) (Host.Outcome.next.inj e)
      · by_contra more
        exact changed (congrArg _ (if_neg more))

end Sys2Proof.Machine
end

section
/-! SUPPORT. Slices and channels of a partition that grow, leave, or are given back. -/

namespace Sys2Proof.Machine

open Sys2Proof

/-! ### Growing (R246) -/

section
variable {s : State} {p : Nat}

/-- Only the gates change as all of them follow the binding. -/
theorem State.setAllGates_field {β : Type} (s : State) (f : State → β) (hf : ∀ a : State, f { a with gates := [] } = f a := by exact fun _ => rfl) :
    f s.setAllGates = f s :=
  foldl_keeps f (fun a c => State.setGates_field a c f hf) _ s

/-- An operation that waits for no command. -/
theorem State.awaitedCmds_awaitAll_nil : (s.awaitAll p []).awaitedCmds p = [] := by
  have waits : ((s.awaitAll p []).atRebind p).waitFor = [] := by
    rw [State.awaitAll, State.atRebind_updRebind, if_pos rfl]
    rfl
  rw [State.awaitedCmds, waits]
  rfl

/-- The slices of the request bound, at step 4 with no command awaited. -/
def State.grown (s : State) (p : Nat) : State :=
  (((((s.wr (partPg p + PART_SLICES) (s.atRebind p).slices).capTouch.setAllGates).updRebind p
    (fun r => { r with had := s.rd (partPg p + PART_SLICES) })).rebindStep p 4).awaitAll p []).setAllGates

/-- What the gates and the operation do not show is as the binding leaves it. -/
theorem State.grown_field {β : Type} (f : State → β) (hf : ∀ (a : State) g r, f { a with gates := g, rebind := r } = f a := by exact fun _ _ _ => rfl)
    (hs : ∀ a : State, f (a.set (partPg p) PART_REBIND_CTL_STEP 4) = f a) (hc : ∀ a : State, f a.capTouch = f a := by exact fun _ => rfl) :
    f (s.grown p) = f (s.wr (partPg p + PART_SLICES) (s.atRebind p).slices) := by
  have gates (a : State) : f a.setAllGates = f a := State.setAllGates_field a f fun a => hf a [] a.rebind
  have engine (a : State) (g : Rebind → Rebind) : f (a.updRebind p g) = f a := hf a a.gates (a.updRebind p g).rebind
  have step (a : State) : f (a.rebindStep p 4) = f a := (hs _).trans (engine a _)
  have await (a : State) : f (a.awaitAll p []) = f a := engine a _
  rw [State.grown, gates, await, step, engine, gates, hc]

variable (hp : p < 32) (ho : (s.atRebind p).op = 1) (hs : (s.atRebind p).step = 1)
include hp ho hs

section
variable (hl : bitsMinus (s.rd (partPg p + PART_SLICES)) (s.atRebind p).slices = [])
include hl

theorem exec_sliceGrow_busy
    (h : (bitsMinus (s.atRebind p).slices (s.rd (partPg p + PART_SLICES))).any (fun n => s.capState 1 n != 1 || (s.sliceOwner n).isSome) = true) :
    exec (.sliceGrow p) s = .next (s.rebindEnd p 1) := by
  refine onUnit_next (decide_eq_true hp) ?_
  simp only [ho, hs, hl, h, ne_eq, not_true, if_false, if_true, List.isEmpty_nil, Bool.true_eq_false, show ¬ (1 = 4) by decide]
  rfl

theorem exec_sliceGrow_grows
    (h : (bitsMinus (s.atRebind p).slices (s.rd (partPg p + PART_SLICES))).any (fun n => s.capState 1 n != 1 || (s.sliceOwner n).isSome) = false)
    (hr : s.runningOf p = []) : exec (.sliceGrow p) s = .next ((((s.grown p).rebindEnd p 0).schedule p).schedule p) := by
  have running : (((((s.wr (partPg p + PART_SLICES) (s.atRebind p).slices).capTouch.setAllGates).updRebind p
      (fun r => { r with had := s.rd (partPg p + PART_SLICES) })))).runningOf p = [] := by
    refine Eq.trans ?_ hr
    exact (State.setAllGates_field (s.wr (partPg p + PART_SLICES) (s.atRebind p).slices).capTouch (·.runningOf p))
  refine onUnit_next (decide_eq_true hp) ?_
  simp only [ho, hs, hl, h, running, ne_eq, not_true, if_false, List.isEmpty_nil, Bool.true_eq_false, Bool.false_eq_true, show ¬ (1 = 4) by decide,
    State.growDone, State.awaitedCmds_awaitAll_nil, if_true]
  rfl

end

end

section
variable {s : State} {p : Nat}

/-- Growing changes PART_SLICES and the step that is shown. -/
theorem State.rd_grown {a : Nat} (ha : a ≠ partPg p + PART_REBIND_CTL_STEP.off) :
    (s.grown p).rd a = (s.wr (partPg p + PART_SLICES) (s.atRebind p).slices).rd a :=
  State.grown_field (State.rd · a) (fun _ _ _ => rfl) fun b => State.rd_set_ne b _ _ _ ha

theorem State.rd_grown_slices : (s.grown p).rd (partPg p + PART_SLICES) = (s.atRebind p).slices % 2 ^ 32 :=
  (State.rd_grown fun e => absurd (Nat.add_left_cancel e) (by decide)).trans (State.rd_wr_self ..)

end

/-! ### Marking the slices that leave (R101, R121, R247) -/

section
variable {s : State} {n k : Nat} {l : List Nat}

/-- A slice marked as leaving: a load on it stops with its configuration not valid. -/
def SliceSt.marked (y : SliceSt) : SliceSt := { (if y.loading then { y with loading := false, cfg := none } else y) with leaving := true }

theorem SliceSt.marked_marked (y : SliceSt) : y.marked.marked = y.marked := by
  unfold SliceSt.marked
  split <;> simp [*]

/-- A load on a slice stops. -/
def State.loadStopped (s : State) (n : Nat) : State :=
  if (s.atSlice n).loading then (s.updSlice n (fun y => { y with loading := false, cfg := none })).cfgValid n false else s

theorem State.markLeaving_eq : s.markLeaving n = ((s.loadStopped n).updSlice n (fun y => { y with leaving := true })).heldMark n (!(s.loadStopped n).quiet n) := rfl

theorem State.SameStanding.loadStopped (hn : n < 32) : s.SameStanding (s.loadStopped n) := by
  unfold State.loadStopped
  split
  · exact (updSlice s n (f := fun y => { y with loading := false, cfg := none }) fun _ => rfl).trans (cfgValid _ hn false)
  · exact refl s

theorem State.atSlice_loadStopped : (s.loadStopped n).atSlice k =
    if k = n ∧ (s.atSlice n).loading = true then { s.atSlice n with loading := false, cfg := none } else s.atSlice k := by
  have valid (a : State) : (a.cfgValid n false).atSlice k = a.atSlice k := by
    rw [State.atSlice, State.atSlice, State.cfgValid_slices]
  unfold State.loadStopped
  split
  next h =>
    rw [valid, State.atSlice_updSlice]
    simp only [h, and_true]
  next h => rw [if_neg fun e => h e.2]

theorem State.atSlice_markLeaving : (s.markLeaving n).atSlice k = if k = n then (s.atSlice k).marked else s.atSlice k := by
  have held (a : State) (b : Bool) : (a.heldMark n b).atSlice k = a.atSlice k := rfl
  rw [State.markLeaving_eq, held, State.atSlice_updSlice, State.atSlice_loadStopped, State.atSlice_loadStopped]
  by_cases h : k = n
  · subst h
    simp only [if_true, true_and]
    rfl
  · rw [if_neg h, if_neg h, if_neg fun e => h e.1]

/-- Every slice of the list is marked, and no other changes. -/
theorem State.atSlice_foldl_markLeaving : (l.foldl State.markLeaving s).atSlice k = if k ∈ l then (s.atSlice k).marked else s.atSlice k := by
  induction l generalizing s with
  | nil => rw [if_neg List.not_mem_nil]; rfl
  | cons n l ih =>
    rw [List.foldl_cons, ih, State.atSlice_markLeaving]
    by_cases hk : k = n
    · simp [hk, SliceSt.marked_marked]
    · simp [hk]

/-- Whether a binding change of the slice shows as held. -/
abbrev State.showsHeld (s : State) (k : Nat) : Bool := bitOf (s.get (Pg.base .core (k / 4)) CORE_QUIET_HELD) (k % 4)

theorem State.showsHeld_heldMark (b : Bool) : (s.heldMark n b).showsHeld k = if k = n then b else s.showsHeld k := by
  split
  next h =>
    subst h
    exact State.bitOf_get_set_putBit s _ CORE_QUIET_HELD _ b (by decide) (by decide) (show k % 4 < 4 from Nat.mod_lt _ (by decide))
  next h =>
    by_cases hc : k / 4 = n / 4
    · have width : k % 4 < 4 := Nat.mod_lt _ (by decide)
      have other : ¬ (n % 4 ≤ k % 4 ∧ k % 4 ≤ n % 4) := by omega
      rw [State.showsHeld, State.heldMark, hc, State.get_set_self _ _ _ _ (by decide) (by decide), bitOf, Nat.testBit_mod_two_pow, putBit,
        testBit_putBits _ _ _ _ _ (Nat.le_refl _), if_neg other]
      simp [width, bitOf, CORE_QUIET_HELD, hc]
    · exact congrArg (bitOf · (k % 4)) (State.get_set_ne _ _ _ _ (by simp only [Pg.base, CORE_QUIET_HELD]; omega))

theorem State.showsHeld_loadStopped : (s.loadStopped n).showsHeld k = s.showsHeld k := by
  unfold State.loadStopped
  split
  · exact foldl_keeps (State.showsHeld · k) (fun a j => congrArg (bitOf · (k % 4))
      (State.get_set_ne _ _ _ _ (base_ne_of_off (p := .core) (q := .isl) (by decide) (by decide) (by decide)))) _ _
  · rfl

theorem State.showsHeld_markLeaving (hn : n < 32) : (s.markLeaving n).showsHeld k = if k = n then !s.quiet n else s.showsHeld k := by
  have marked (a : State) (g : SliceSt → SliceSt) : (a.updSlice n g).showsHeld k = a.showsHeld k := rfl
  rw [State.markLeaving_eq, State.showsHeld_heldMark, marked, State.showsHeld_loadStopped, (State.SameStanding.loadStopped hn).quiet n hn]

/-- A slice of the list shows as held unless it is quiescent. -/
theorem State.showsHeld_foldl_markLeaving (hl : ∀ n ∈ l, n < 32) :
    (l.foldl State.markLeaving s).showsHeld k = if k ∈ l then !s.quiet k else s.showsHeld k := by
  induction l generalizing s with
  | nil => rw [if_neg List.not_mem_nil]; rfl
  | cons n l ih =>
    have hn : n < 32 := hl n List.mem_cons_self
    rw [List.foldl_cons, ih fun m hm => hl m (List.mem_cons_of_mem _ hm), State.showsHeld_markLeaving hn]
    by_cases hm : k ∈ l
    · rw [if_pos hm, if_pos (List.mem_cons_of_mem _ hm), (State.SameStanding.markLeaving s hn).quiet k (hl k (List.mem_cons_of_mem _ hm))]
    · rw [if_neg hm, if_congr (List.mem_cons.trans (or_iff_left hm)) rfl rfl]
      by_cases hk : k = n
      · rw [hk]
      · rw [if_neg hk, if_neg hk]

/-- The registers that show which changes are held and which configurations are valid. -/
abbrev leavingRegs : List Nat :=
  (List.range 8).map (fun k => Pg.base .core k + CORE_QUIET_HELD.off) ++ (List.range 128).map (fun i => islPg i + ISL_STAT_CFG_VALID.off)

theorem State.rd_loadStopped (hn : n < 32) {a : Nat} (ha : a ∉ leavingRegs) : (s.loadStopped n).rd a = s.rd a := by
  have apart {k : Nat} (hk : k < 4) : a ≠ islPg (sliceIsland n k) + ISL_STAT_CFG_VALID.off := fun e => ha (List.mem_append_right _
    (List.mem_map.mpr ⟨sliceIsland n k, List.mem_range.mpr (State.SameStanding.sliceIsland_lt hn hk), e.symm⟩))
  unfold State.loadStopped
  split
  · rw [State.cfgValid, show List.range 4 = [0, 1, 2, 3] from rfl]
    simp only [List.foldl_cons, List.foldl_nil, State.mark_eq]
    rw [State.rd_set_ne _ _ _ _ (apart (by decide)), State.rd_set_ne _ _ _ _ (apart (by decide)), State.rd_set_ne _ _ _ _ (apart (by decide)),
      State.rd_set_ne _ _ _ _ (apart (by decide))]
    rfl
  · rfl

theorem State.rd_markLeaving (hn : n < 32) {a : Nat} (ha : a ∉ leavingRegs) : (s.markLeaving n).rd a = s.rd a := by
  have apart : a ≠ Pg.base .core (n / 4) + CORE_QUIET_HELD.off := fun e => ha (List.mem_append_left _
    (List.mem_map.mpr ⟨n / 4, List.mem_range.mpr (by omega), e.symm⟩))
  have marked (t : State) (g : SliceSt → SliceSt) : (t.updSlice n g).rd a = t.rd a := rfl
  rw [State.markLeaving_eq, State.heldMark, State.rd_set_ne _ _ _ _ apart, marked, State.rd_loadStopped hn ha]

theorem State.rd_foldl_markLeaving (hl : ∀ n ∈ l, n < 32) {a : Nat} (ha : a ∉ leavingRegs) : (l.foldl State.markLeaving s).rd a = s.rd a := by
  induction l generalizing s with
  | nil => rfl
  | cons n l ih => exact (ih fun m hm => hl m (List.mem_cons_of_mem _ hm)).trans (State.rd_markLeaving (hl n List.mem_cons_self) ha)

end

/-! ### Shrinking (R247) -/

section
variable {s : State} {p : Nat}

theorem lt_of_mem_bitsMinus {a b n : Nat} (h : n ∈ bitsMinus a b) : n < 32 :=
  List.mem_range.mp (List.mem_of_mem_filter (List.mem_of_mem_filter h))

/-- The slices of the list marked, at step 3 with no command awaited. -/
def State.shrinking (s : State) (p : Nat) (l : List Nat) : State := ((l.foldl State.markLeaving s).rebindStep p 3).awaitAll p []

section
variable (hp : p < 32) (ho : (s.atRebind p).op = 1) (hs : (s.atRebind p).step = 1)
  (hl : bitsMinus (s.rd (partPg p + PART_SLICES)) (s.atRebind p).slices ≠ [])
  (hm : bitsMinus (s.atRebind p).slices (s.rd (partPg p + PART_SLICES)) = [])
include hp ho hs hl hm

theorem exec_sliceShrink_below (h : (s.atRebind p).slices = 0 ∨
      (bitsMinus (s.rd (partPg p + PART_SLICES)) (s.atRebind p).slices).any (fun n => bitOf (s.rd (partPg p + PART_RT_MASK)) n) = true ∨
      bitsMinus (s.atRebind p).slices (s.rd (partPg p + PART_RT_MASK)) = []) : exec (.sliceShrink p) s = .next (s.rebindEnd p 2) := by
  refine onUnit_next (decide_eq_true hp) ?_
  simp only [ho, hs, List.isEmpty_iff, hl, hm, h, ne_eq, not_true, or_self, if_false, if_true, List.isEmpty_nil, Bool.true_eq_false]
  rfl

theorem exec_sliceShrink_marks (hz : (s.atRebind p).slices ≠ 0)
    (hb : (bitsMinus (s.rd (partPg p + PART_SLICES)) (s.atRebind p).slices).any (fun n => bitOf (s.rd (partPg p + PART_RT_MASK)) n) = false)
    (hr : bitsMinus (s.atRebind p).slices (s.rd (partPg p + PART_RT_MASK)) ≠ [])
    (hc : s.leaversOf p (bitsMinus (s.rd (partPg p + PART_SLICES)) (s.atRebind p).slices) = []) :
    exec (.sliceShrink p) s = .next (s.shrinking p (bitsMinus (s.rd (partPg p + PART_SLICES)) (s.atRebind p).slices)) := by
  refine onUnit_next (decide_eq_true hp) ?_
  simp only [ho, hs, List.isEmpty_iff, hl, hm, hz, hb, hr, hc, ne_eq, not_true, or_self, if_false, if_true, List.isEmpty_nil, Bool.true_eq_false,
    Bool.false_eq_true]
  rfl

end

variable {l : List Nat}

theorem State.atSlice_shrinking (n : Nat) : (s.shrinking p l).atSlice n = if n ∈ l then (s.atSlice n).marked else s.atSlice n :=
  (show (s.shrinking p l).atSlice n = (l.foldl State.markLeaving s).atSlice n from rfl).trans State.atSlice_foldl_markLeaving

theorem State.get_shrinking_step : (s.shrinking p l).get (partPg p) PART_REBIND_CTL_STEP = 3 := by
  have await (a : State) : (a.awaitAll p []).get (partPg p) PART_REBIND_CTL_STEP = a.get (partPg p) PART_REBIND_CTL_STEP := rfl
  rw [State.shrinking, await, State.rebindStep, State.get_set_self _ _ _ _ (by decide) (by decide)]
  rfl

/-- Only the step and what marking shows change. -/
theorem State.rd_shrinking (hl : ∀ n ∈ l, n < 32) {a : Nat} (ha : a ≠ partPg p + PART_REBIND_CTL_STEP.off) (hr : a ∉ leavingRegs) :
    (s.shrinking p l).rd a = s.rd a := by
  have await (t : State) : (t.awaitAll p []).rd a = t.rd a := rfl
  have engine (t : State) (g : Rebind → Rebind) : (t.updRebind p g).rd a = t.rd a := rfl
  rw [State.shrinking, await, State.rebindStep, State.rd_set_ne _ _ _ _ ha, engine, State.rd_foldl_markLeaving hl hr]

theorem State.showsHeld_shrinking (hl : ∀ n ∈ l, n < 32) {n : Nat} (hn : n ∈ l) : (s.shrinking p l).showsHeld n = !s.quiet n := by
  have await (t : State) : (t.awaitAll p []).showsHeld n = t.showsHeld n := rfl
  have engine (t : State) (g : Rebind → Rebind) : (t.updRebind p g).showsHeld n = t.showsHeld n := rfl
  have step (t : State) : (t.set (partPg p) PART_REBIND_CTL_STEP 3).showsHeld n = t.showsHeld n :=
    congrArg (bitOf · (n % 4)) (State.get_set_ne _ _ _ _ (base_ne_of_off (p := .core) (q := .part) (by decide) (by decide) (by decide)))
  rw [State.shrinking, await, State.rebindStep, step, engine, State.showsHeld_foldl_markLeaving hl, if_pos hn]

theorem State.sameBytes_shrinking : s.sameBytes (s.shrinking p l) :=
  State.sameBytes_of_mems (State.awaitAll_mems (State.rebindStep_mems (State.mems_foldl (fun _ _ h => State.markLeaving_mems h) rfl)))

end

/-! ### Channels of a partition (R248, R249) -/

/-- The words of a number put together again. -/
theorem foldl_words (m k : Nat) : (List.range k).foldl (fun a i => a + m >>> (32 * i) % 2 ^ 32 * 2 ^ (32 * i)) 0 = m % 2 ^ (32 * k) := by
  induction k with
  | zero => simp [Nat.mod_one]
  | succ k ih =>
    rw [List.range_succ, List.foldl_append, ih, List.foldl_cons, List.foldl_nil, Nat.shiftRight_eq_div_pow, Nat.mul_succ, Nat.pow_add, Nat.mod_mul,
      Nat.mul_comm (2 ^ (32 * k))]

/-- Clearing the bits of a mask. -/
theorem testBit_sub_and (m r i : Nat) : (m - (m &&& r)).testBit i = (m.testBit i && !r.testBit i) := by
  have le : m &&& r ≤ m := Nat.and_le_left
  induction i generalizing m r with
  | zero =>
    have low : (m &&& r) % 2 = 1 ↔ m % 2 = 1 ∧ r % 2 = 1 := Nat.and_mod_two_eq_one
    simp only [Nat.testBit_zero, ← decide_not, ← Bool.decide_and, decide_eq_decide]
    omega
  | succ i ih =>
    have half : (m - (m &&& r)) / 2 = m / 2 - (m / 2 &&& r / 2) := by
      have low : (m &&& r) % 2 = 1 → m % 2 = 1 := fun h => (Nat.and_mod_two_eq_one.mp h).1
      rw [← Nat.and_div_two]
      omega
    simp only [Nat.testBit_succ, half]
    exact ih _ _ Nat.and_le_left

section
variable {s : State} {p : Nat}

/-- Words written to different registers read as they were written. -/
theorem State.rd_foldl_wr {g v : Nat → Nat} (hg : ∀ i j, g i = g j → i = j) {l : List Nat} {i : Nat} (h : i ∈ l ∨ s.rd (g i) = v i % 2 ^ 32) :
    (l.foldl (fun s i => s.wr (g i) (v i)) s).rd (g i) = v i % 2 ^ 32 := by
  induction l generalizing s with
  | nil => exact h.resolve_left List.not_mem_nil
  | cons a l ih =>
    refine ih ?_
    by_cases hi : i = a
    · rw [hi]
      exact .inr (State.rd_wr_self ..)
    · rw [State.rd_wr_ne _ _ _ fun e => hi (hg _ _ e)]
      exact h.imp_left fun h => (List.mem_cons.mp h).resolve_left hi

/-- The map of the channels reads as it was set. -/
theorem State.chanMap_chansSet (s : State) (p m : Nat) : (s.chansSet p m).chanMap p PART_CHAN = m % 2 ^ 256 := by
  refine Eq.trans ?_ (foldl_words m 8)
  refine List.foldl_ext _ _ _ fun a i hi => ?_
  have touched (t : State) (b : Nat) : t.capTouch.rd b = t.rd b := rfl
  rw [State.chansSet, touched, State.rd_foldl_wr (g := fun i => partPg p + PART_CHAN + 4 * i) (v := fun i => m >>> (32 * i) % 2 ^ 32)
    (fun _ _ e => Nat.eq_of_mul_eq_mul_left (by decide) (Nat.add_left_cancel e)) (.inl hi), Nat.mod_mod]

end

section
variable {s : State} {p : Nat} (hp : p < 32)
include hp

theorem exec_channelBind_unavailable (ho : (s.atRebind p).op = 2) (h : (onesBelow 256 (s.atRebind p).chans).any (fun c => s.capState 2 c != 1) = true) :
    exec (.channelBind p) s = .next (s.rebindEnd p 3) := by
  refine onUnit_next (decide_eq_true hp) ?_
  simp only [ho, h, ne_eq, not_true, if_false, if_true]
  rfl

theorem exec_channelBind_binds (ho : (s.atRebind p).op = 2) (h : (onesBelow 256 (s.atRebind p).chans).any (fun c => s.capState 2 c != 1) = false) :
    exec (.channelBind p) s = .next ((s.chansSet p (s.chanMap p PART_CHAN ||| (s.atRebind p).chans)).rebindEnd p 0) := by
  refine onUnit_next (decide_eq_true hp) ?_
  simp only [ho, h, ne_eq, not_true, if_false, Bool.false_eq_true]

/-- The valid regions of the partition that lie on a channel of its request. -/
abbrev State.regionsHit (s : State) (p : Nat) : List Nat :=
  (List.range 64).filter (fun r => s.regValid r && s.regPart r == p && (s.regChans r).any (fun c => bitOf (s.atRebind p).chans c))

variable (ho : (s.atRebind p).op = 3) (hs : (s.atRebind p).sub = 0)
include ho hs

theorem exec_channelRelease_free (h : s.regionsHit p = []) : exec (.channelRelease p) s = .next (s.chansLeave p (s.atRebind p).chans) := by
  refine onUnit_next (decide_eq_true hp) ?_
  simp only [ho, hs, h, ne_eq, not_true, if_false]

theorem exec_channelRelease_inUse (h : 1 < (s.regionsHit p).length ∨ ((s.regionsHit p).length = 1 ∧ (s.atRebind p).move = false)) :
    exec (.channelRelease p) s = .next (s.rebindEnd p 4) := by
  refine onUnit_next (decide_eq_true hp) ?_
  simp only [ho, hs, ne_eq, not_true, if_false]
  split
  next noHit =>
    rw [State.regionsHit, noHit] at h
    simp at h
  next oneHit moves =>
    rw [State.regionsHit, oneHit, moves] at h
    simp at h
  next => rfl

end

/-! ### ABORT of a growth (R253) -/

section
variable {s : State} {p : Nat}

theorem State.rebindCtlWrite_abort {w : Nat} (h4 : bitOf w 4 = true) (h3 : bitOf w 3 = false) (h6 : bitOf w 6 = false) (ho : (s.atRebind p).op = 1)
    (hs : (s.atRebind p).step = 1) (hb : s.on (partPg p) PART_REBIND_CTL_BUSY = true) :
    s.rebindCtlWrite p w = ((s.set (partPg p) PART_REBIND_CTL_OP w).mark (partPg p) PART_REBIND_CTL_MOVE (bitOf w 7)).rebindEnd p 0x0D := by
  have busy (b : Bool) : ((s.set (partPg p) PART_REBIND_CTL_OP w).mark (partPg p) PART_REBIND_CTL_MOVE b).on (partPg p) PART_REBIND_CTL_BUSY = true := by
    rw [State.on_eq] at hb ⊢
    rw [State.mark_eq, State.get_set_disjoint _ _ _ _ (by decide) (by decide) (by decide) (by decide),
      State.get_set_disjoint _ _ _ _ (by decide) (by decide) (by decide) (by decide), hb]
  have latched (b : Bool) : ((s.set (partPg p) PART_REBIND_CTL_OP w).mark (partPg p) PART_REBIND_CTL_MOVE b).atRebind p = s.atRebind p := rfl
  simp only [State.rebindCtlWrite, State.rebindAbortReq, State.rebindAbort, h4, h3, h6, busy, latched, ho, hs, if_true, Bool.false_eq_true, if_false]
  rfl

/-- A bit of the written word that the register's mask holds. -/
theorem bitOf_written {q : Pg} {o i : Nat} {r : Reg} (hr : regAt q o = some r) (v : Word) : bitOf (written q o v) i = (bitOf v.toNat i && bitOf r.mask i) := by
  simp only [written, hr, bitOf, Nat.testBit_and]

theorem exec_rebindAbort_grow (hp : p < 32) {v : Word} (h : s.holds 0 .part p) (h4 : bitOf v.toNat 4 = true) (h3 : bitOf v.toNat 3 = false)
    (h6 : bitOf v.toNat 6 = false) (ho : (s.atRebind p).op = 1) (hs : (s.atRebind p).step = 1) (hb : s.on (partPg p) PART_REBIND_CTL_BUSY = true) :
    exec (.rebindAbort 0 p v) s = .next ((((s.set (partPg p) PART_REBIND_CTL_OP (written .part PART_REBIND_CTL_OP.off v)).mark (partPg p)
      PART_REBIND_CTL_MOVE (bitOf (written .part PART_REBIND_CTL_OP.off v) 7)).rebindEnd p 0x0D).bumpSeq (partPg p)) := by
  have b4 : bitOf (written .part PART_REBIND_CTL_OP.off v) 4 = true := by
    rw [bitOf_written rfl, h4]
    decide
  have b3 : bitOf (written .part PART_REBIND_CTL_OP.off v) 3 = false := by rw [bitOf_written rfl, h3, Bool.false_and]
  have b6 : bitOf (written .part PART_REBIND_CTL_OP.off v) 6 = false := by rw [bitOf_written rfl, h6, Bool.false_and]
  have wrote := State.rebindCtlWrite_abort b4 b3 b6 ho hs hb
  refine (State.rowWrite_pf s _ _ v (decide_eq_true hp)).trans (congrArg _ ?_)
  exact (State.write_rebindCtl p hp v h).trans (congrArg (State.bumpSeq · (partPg p)) wrote)

end

/-! ### The obligation -/

/-- Settles O27, by what each row does with the request it finds. -/
theorem rebindSlicesAndChannels : Obligations.RebindSlicesAndChannels := by
  unfold Obligations.RebindSlicesAndChannels
  intro s p hp pg rb old more less busy rt hit
  refine ⟨fun ho hs hl => ⟨exec_sliceGrow_busy hp ho hs hl, fun hb hr => ⟨s.grown p, exec_sliceGrow_grows hp ho hs hl hb hr, State.rd_grown_slices,
      fun a h h' => (State.rd_grown h').trans (State.rd_wr_ne _ _ _ h), State.grown_field State.mem (hs := fun _ => rfl),
      State.grown_field State.spad (hs := fun _ => rfl), State.grown_field State.share (hs := fun _ => rfl)⟩⟩,
    fun ho hs hl hm => ⟨exec_sliceShrink_below hp ho hs hl hm, fun hz hb hr hc =>
      ⟨s.shrinking p less, exec_sliceShrink_marks hp ho hs hl hm hz hb hr hc, ?marks⟩⟩,
    fun ho => ⟨exec_channelBind_unavailable hp ho, fun h => ⟨_, exec_channelBind_binds hp ho h, State.chanMap_chansSet ..⟩⟩,
    fun ho hs => ⟨fun h => ⟨_, exec_channelRelease_free hp ho hs h, fun c hc hr => ?gone⟩, exec_channelRelease_inUse hp ho hs⟩,
    fun v h h4 h3 h6 ho hs hb => exec_rebindAbort_grow hp h h4 h3 h6 ho hs hb,
    fun n hn => ⟨s.rebindClosed p n, State.rebindEnd_eq, ?closed⟩⟩
  case marks =>
    have bound : ∀ n ∈ less, n < 32 := fun n hn => lt_of_mem_bitsMinus hn
    have marked {n : Nat} (hn : n ∈ less) : (s.shrinking p less).atSlice n = (s.atSlice n).marked := (State.atSlice_shrinking n).trans (if_pos hn)
    refine ⟨fun n hn => ?_, fun n hn => State.showsHeld_shrinking bound hn, fun n hn hload => ?_, fun n hn => (State.atSlice_shrinking n).trans (if_neg hn),
      State.get_shrinking_step, fun a ha => ?_, State.sameBytes_shrinking⟩
    · rw [marked hn]
      rfl
    · rw [marked hn, SliceSt.marked, if_pos hload]
      exact ⟨rfl, rfl⟩
    · rw [List.cons_append, List.mem_cons, not_or] at ha
      exact State.rd_shrinking bound ha.1 ha.2
  case gone =>
    rw [State.chanMap_chansSet, bitOf, Nat.testBit_mod_two_pow, testBit_sub_and, show Nat.testBit _ c = true from hr]
    simp
  case closed =>
    obtain ⟨cBusy, cStep, cResult, cDone, cStat⟩ := State.rebindClosed_spec (s := s) (p := p) hn
    exact ⟨cBusy, cStep, cResult, cDone, cStat, State.atRebind_rebindClosed⟩

end Sys2Proof.Machine
end

section
/-! SUPPORT. Forming, activating and dissolving a partition. -/

namespace Sys2Proof.Machine

open Sys2Proof

/-! ### Tables whose keys are dropped -/

/-- A key in the range that is dropped holds what an unlisted key holds. -/
theorem Tab.get_clear_in {α : Type} (d : α) (t : Tab α) {lo hi k : Nat} (hl : lo ≤ k) (hh : k < hi) : Tab.get d (Tab.clear t lo hi) k = d := by
  refine Tab.get_absent d fun e he ek => ?_
  have kept := (List.mem_filter.mp he).2
  simp only [Bool.or_eq_true, decide_eq_true_eq] at kept
  omega

/-- A key outside of the range reads as before. -/
theorem Tab.get_clear_out {α : Type} (d : α) (t : Tab α) {lo hi k : Nat} (h : k < lo ∨ hi ≤ k) : Tab.get d (Tab.clear t lo hi) k = Tab.get d t k := by
  induction t with
  | nil => rfl
  | cons e t ih =>
    obtain ⟨j, v⟩ := e
    by_cases kept : j < lo ∨ hi ≤ j
    · have stays : Tab.clear ((j, v) :: t) lo hi = (j, v) :: Tab.clear t lo hi := List.filter_cons_of_pos (by simpa using kept)
      rw [stays, Tab.get, Tab.get, ih]
    · have goes : Tab.clear ((j, v) :: t) lo hi = Tab.clear t lo hi := List.filter_cons_of_neg (by simpa using kept)
      rw [goes, ih, Tab.get, if_neg (by omega)]

/-! ### Registers that an activation leaves as they are -/

/-- `t` has the registers of `s` below the regulators' pages, but for the blocks left of a rebalance. -/
def State.Steady (s t : State) : Prop := ∀ a, a < 0x600000 → a % 0x1000 ≠ PART_REBAL_STAT → t.rd a = s.rd a

section
variable {s t u : State}

theorem State.Steady.refl (s : State) : s.Steady s := fun _ _ _ => rfl

theorem State.Steady.trans (h : s.Steady t) (h' : t.Steady u) : s.Steady u := fun a ha ho => (h' a ha ho).trans (h a ha ho)

theorem State.Steady.foldl {α : Type} {f : State → α → State} (hf : ∀ (s : State) x, s.Steady (f s x)) (l : List α) (s : State) : s.Steady (l.foldl f s) := by
  induction l generalizing s with
  | nil => exact refl s
  | cons x l ih => exact (hf s x).trans (ih _)

/-- A register of the regulators' pages or above. -/
theorem State.Steady.wr (s : State) {b : Nat} (v : Nat) (h : 0x600000 ≤ b) : s.Steady (s.wr b v) :=
  fun _ ha _ => State.rd_wr_ne _ _ _ (Nat.ne_of_lt (Nat.lt_of_lt_of_le ha h))

theorem State.Steady.set (s : State) {pg : Nat} (f : F) (v : Nat) (h : 0x600000 ≤ pg) : s.Steady (s.set pg f v) := wr s _ (Nat.le_add_right_of_le h)

theorem State.Steady.clearPage (s : State) {pg : Nat} (h : 0x600000 ≤ pg) : s.Steady (s.clearPage pg) := by
  refine trans (fun _ ha _ => ?_) (wr _ _ (Nat.le_add_right_of_le h))
  exact congrArg BitVec.toNat (Tab.get_clear_out _ _ (.inl (Nat.lt_of_lt_of_le ha h)))

theorem State.Steady.stampRanges (s : State) (p : Nat) : s.Steady (s.stampRanges p) :=
  trans (foldl (fun a _ => set a _ _ (by simp only [ctxPg, Pg.base]; omega)) _ _) (foldl (fun a k => set a _ _ (by simp only [keyAt, Pg.base]; omega)) _ _)

theorem State.Steady.markBlock (s : State) (dpa : Nat) : s.Steady (s.markBlock dpa) := by
  have logged (a : State) (q : Nat) (g : PartSt → PartSt) : a.Steady (a.updPart q g) := refl a
  have copied (a : State) (q v : Nat) (g : Rebind → Rebind) : a.Steady ((a.updRebind q g).set (partPg q) PART_REBAL_STAT_BLOCKS_LEFT v) :=
    fun b _ ho => State.rd_set_ne _ _ _ _ fun e => ho (by rw [e, partPg, base_mod _ _ _ (by decide)]; rfl)
  unfold State.markBlock
  split
  · exact refl s
  · dsimp only
    split <;> split
    · exact (logged _ _ _).trans (copied _ _ _ _)
    · exact logged _ _ _
    · exact copied _ _ _ _
    · exact refl s

end

/-! ### Where a DPA lies (R143-R145) -/

/-- `t` has the memory map of `s`, and the same configuration region of partition `p`. -/
def State.SameMap (p : Nat) (s t : State) : Prop :=
  ∀ a, (mapPg + GLB_REGION_0 ≤ a ∧ a < mapPg + 0x1000) ∨ a = partPg p + PART_CFG_REGION → t.rd a = s.rd a

section
variable {s t u : State} {p : Nat}

theorem State.SameMap.trans (h : s.SameMap p t) (h' : t.SameMap p u) : s.SameMap p u := fun a ha => (h' a ha).trans (h a ha)

theorem State.Steady.sameMap (h : s.Steady t) (hp : p < 32) : State.SameMap p s t := by
  have map : mapPg = 0x11000 := rfl
  have part : partPg p = 0x500000 + 0x1000 * p := rfl
  rintro a (⟨lo, hi⟩ | rfl)
  · exact h a (by omega) (by simp only [GLB_REGION_0, PART_REBAL_STAT] at lo ⊢; omega)
  · exact h _ (by simp only [PART_CFG_REGION]; omega) (by simp only [PART_CFG_REGION, PART_REBAL_STAT]; omega)

theorem State.cfgRegion_lt (s : State) (p : Nat) : s.get (partPg p) PART_CFG_REGION_REGION < 64 := bitsOf_lt _ 5 0

variable (h : State.SameMap p s t)
include h

theorem State.SameMap.region {r : Nat} (hr : r < 64) {f : F} (lo : 0x400 ≤ f.off) (hi : f.off < 0x410) : t.get (regionAt r) f = s.get (regionAt r) f := by
  rw [State.get, State.get, h _ (.inl (by simp only [regionAt, GLB_REGION_0]; omega))]

theorem State.SameMap.setChans {n : Nat} (hn : n < 64) : t.setChans n = s.setChans n := by
  refine congrArg List.flatten (List.map_congr_left fun w hw => ?_)
  have hw : w < 8 := List.mem_range.mp hw
  rw [h _ (.inl (by simp only [GLB_SET, GLB_REGION_0]; omega))]

theorem State.SameMap.regBase {r : Nat} (hr : r < 64) : t.regBase r = s.regBase r :=
  congrArg (· * 2 ^ 21) (h.region hr (f := GLB_REGION_1_BASE) (by decide) (by decide))

theorem State.SameMap.regChans {r : Nat} (hr : r < 64) : t.regChans r = s.regChans r := by
  have set : t.regSet r = s.regSet r := h.region hr (by decide) (by decide)
  rw [State.regChans, set]
  exact h.setChans (bitsOf_lt ..)

theorem State.SameMap.regBytes {r : Nat} (hr : r < 64) : t.regBytes r = s.regBytes r := by
  have perCh : t.regPerCh r = s.regPerCh r := h.region hr (by decide) (by decide)
  rw [State.regBytes, State.regBytes, h.regChans hr, perCh]

theorem State.SameMap.regionOf (dpa : Nat) : t.regionOf dpa = s.regionOf dpa := by
  refine List.find?_congr fun r hr => ?_
  have hr : r < 64 := List.mem_range.mp hr
  have valid : t.regValid r = s.regValid r := congrArg (· != 0) (h.region hr (f := GLB_REGION_0_VALID) (by decide) (by decide))
  rw [valid, h.regBase hr, h.regBytes hr]

theorem State.SameMap.place (dpa : Nat) : t.place dpa = s.place dpa := by
  rw [State.place, State.place, h.regionOf]
  cases hr : s.regionOf dpa with
  | none => rfl
  | some r =>
    have hr : r < 64 := List.mem_range.mp (List.mem_of_find?_eq_some hr)
    have start : t.regStart r = s.regStart r := h.region hr (by decide) (by decide)
    simp only [h.regBase hr, h.regChans hr, start]

theorem State.SameMap.cfgRegion : t.get (partPg p) PART_CFG_REGION_REGION = s.get (partPg p) PART_CFG_REGION_REGION :=
  congrArg (bitsOf · 5 0) (h _ (.inr rfl))

theorem State.SameMap.cfgAt (o : Nat) : t.cfgAt p o = s.cfgAt p o := by
  rw [State.cfgAt, State.cfgAt, h.cfgRegion, h.regBase (s.cfgRegion_lt p)]

theorem State.SameMap.storeSize : t.storeSize p = s.storeSize p := by
  have bytes : t.regBytes (t.get (partPg p) PART_CFG_REGION_REGION) = s.regBytes (s.get (partPg p) PART_CFG_REGION_REGION) := by
    rw [h.cfgRegion, h.regBytes (s.cfgRegion_lt p)]
  exact congrArg (fun n => n - 65536) bytes

end

/-! ### The member tables go into the configuration region (R237) -/

section
variable {s : State} {p n : Nat}

/-- The bytes of line `n` of the member tables. -/
abbrev State.tableBytes (s : State) (p n : Nat) : Bytes := (List.range 128).flatMap (fun i => leBytes 2 (Tab.get 0 s.spanTbl (p * 32768 + 128 * n + i)))

theorem State.length_tableBytes : (s.tableBytes p n).length = 256 := by
  have two (v : Nat) : (leBytes 2 v).length = 2 := rfl
  simp [List.length_flatMap, two]

/-- DPA of line `n` of the member tables. -/
def State.tableAt (s : State) (p n : Nat) : Nat := s.cfgAt p (s.storeSize p + 256 * n)

theorem State.SameMap.tableAt {t : State} (h : State.SameMap p s t) (n : Nat) : t.tableAt p n = s.tableAt p n := by
  rw [State.tableAt, State.tableAt, h.cfgAt, h.storeSize]

/-- One line at a DPA of the configuration region, under the configuration key. -/
def State.cfgLine (s : State) (p a : Nat) (b : Bytes) : State := match s.place a with
  | some pl => (s.storeLine pl.chan pl.cl (s.cfgSeal p a) (sliceBytes b 0 256)).markBlock a
  | none => s

theorem State.cfgWrite_line (o : Nat) {b : Bytes} (hb : b.length = 256) : s.cfgWrite p o b = s.cfgLine p (s.cfgAt p o) b := by
  have lines : (b.length + 255) / 256 = 1 := by rw [hb]
  cases place : s.place (s.cfgAt p o) <;>
    simp only [State.cfgWrite, lines, List.range_one, List.foldl_cons, List.foldl_nil, Nat.mul_zero, Nat.add_zero, State.cfgLine, place]

theorem State.tableLine_eq : s.tableLine p n = s.cfgLine p (s.tableAt p n) (s.tableBytes p n) := State.cfgWrite_line _ State.length_tableBytes

/-- Writing a line changes memory, seals and what marking its block changes. -/
theorem State.tableLine_field {β : Type} (s : State) (p n : Nat) (f : State → β)
    (hf : ∀ (a : State) r x y m g b, f { a with regs := r, parts := x, rebind := y, mem := m, seals := g, badLines := b } = f a := by
      exact fun _ _ _ _ _ _ _ => rfl) : f (s.tableLine p n) = f s := by
  have stored (a : State) (c cl : Nat) (g : Seal) (d : Bytes) : f (a.storeLine c cl g d) = f a :=
    hf a a.regs a.parts a.rebind (a.storeLine c cl g d).mem (a.storeLine c cl g d).seals (a.storeLine c cl g d).badLines
  rw [State.tableLine_eq, State.cfgLine]
  split
  · rw [State.markBlock_field _ _ f fun a r x y => hf a r x y a.mem a.seals a.badLines, stored]
  · rfl

theorem State.Steady.tableLine (s : State) (p n : Nat) : s.Steady (s.tableLine p n) := by
  have stored (c cl : Nat) (g : Seal) (d : Bytes) : s.Steady (s.storeLine c cl g d) := refl s
  rw [State.tableLine_eq, State.cfgLine]
  split
  · exact (stored _ _ _ _).trans (markBlock _ _)
  · exact refl s

/-- No byte outside of the line changes. -/
theorem State.mem_tableLine {a : Nat} (h : ∀ pl, s.place (s.tableAt p n) = some pl → a < lineKey pl.chan pl.cl ∨ lineKey pl.chan pl.cl + 256 ≤ a) :
    Memory.get (s.tableLine p n).mem a = Memory.get s.mem a := by
  rw [State.tableLine_eq, State.cfgLine]
  split
  next pl place =>
    have stored (c cl : Nat) (g : Seal) (d : Bytes) : (s.storeLine c cl g d).mem = Memory.write s.mem (lineKey c cl) (sliceBytes d 0 256) := rfl
    rw [State.markBlock_field _ _ State.mem, stored]
    refine Memory.get_write_out _ _ _ _ ?_
    rw [length_sliceBytes]
    exact h pl place
  next => rfl

/-- No byte outside of the lines of the tables changes. -/
theorem State.mem_foldl_tableLine (hp : p < 32) {l : List Nat} {a : Nat}
    (h : ∀ n ∈ l, ∀ pl, s.place (s.tableAt p n) = some pl → a < lineKey pl.chan pl.cl ∨ lineKey pl.chan pl.cl + 256 ≤ a) :
    Memory.get (l.foldl (fun s n => s.tableLine p n) s).mem a = Memory.get s.mem a := by
  induction l generalizing s with
  | nil => rfl
  | cons n l ih =>
    have map := (State.Steady.tableLine s p n).sameMap hp
    refine (ih fun k hk pl place => h k (List.mem_cons_of_mem _ hk) pl ?_).trans (State.mem_tableLine (h n List.mem_cons_self))
    rw [← place, map.place, map.tableAt]

end

/-! ### A partition becomes ACTIVE (R239, R383) -/

section
variable {s : State} {p : Nat}

/-- A fresh configuration key, and the key-flow table back at its defaults. -/
def State.freshKey (s : State) (p : Nat) : State :=
  { s with sec := { s.sec with serial := s.sec.serial + 1, cfgKey := Tab.put 0 p (s.sec.serial + 1) s.sec.cfgKey,
                               kft := Tab.clear s.sec.kft (p * 256) (p * 256 + 256) } }

/-- The requested slices bound, STATE ACTIVE. -/
def State.slicesTaken (s : State) (p : Nat) : State :=
  (s.wr (partPg p + PART_SLICES) (s.rd (partPg p + PART_SLICE_REQ))).set (partPg p) PART_STAT_STATE 2

/-- Gates, run lists, moulds and stamps follow. -/
def State.partOpened (s : State) (p : Nat) : State := ((s.setAllGates.clearPage (Pg.base .rglp p)).mouldsFree p).stampRanges p

/-- The ACTIVE partition before its result is recorded. -/
def State.activated (s : State) (p : Nat) : State := (((s.freshKey p).slicesTaken p).partOpened p).tableStore p

theorem State.partitionActivate_ok (hs : s.partState p = 1) (hr : s.activateRule p = 0) (he : s.sec.entropyBad = false) :
    s.partitionActivate p = (s.activated p).capTouch.partResult p 0 := by
  simp only [State.partitionActivate, hs, hr, he, ne_eq, not_true, if_false, Bool.false_eq_true, State.activated, State.partOpened, State.slicesTaken,
    State.freshKey]

theorem State.stampRanges_onlyRegs (s : State) (p : Nat) : s.OnlyRegs (s.stampRanges p) :=
  .trans (.foldl (fun _ _ => .set ..) _ _) (.foldl (fun _ _ => .set ..) _ _)

/-- What does not depend on registers, gates and moulds stays as the partition opens. -/
theorem State.partOpened_field {β : Type} (s : State) (p : Nat) (f : State → β)
    (hf : ∀ (a : State) r g, f { a with regs := r, gates := g } = f a := by exact fun _ _ _ => rfl)
    (hm : ∀ a : State, f (a.mouldsFree p) = f a := by exact fun _ => rfl) : f (s.partOpened p) = f s := by
  have gates (a : State) : f a.setAllGates = f a := State.setAllGates_field a f fun a => hf a a.regs []
  have cleared (a : State) (pg : Nat) : f (a.clearPage pg) = f a := hf a (a.clearPage pg).regs a.gates
  have stamped (a : State) : f (a.stampRanges p) = f a := (a.stampRanges_onlyRegs p).field f (hf a _ a.gates)
  rw [State.partOpened, stamped, hm, cleared, gates]

theorem State.moulds_partOpened (s : State) (p : Nat) : (s.partOpened p).moulds = Tab.clear s.moulds (p * 64) (p * 64 + 64) := by
  have stamped (a : State) : (a.stampRanges p).moulds = a.moulds := (a.stampRanges_onlyRegs p).field State.moulds
  have freed (a : State) : (a.mouldsFree p).moulds = Tab.clear a.moulds (p * 64) (p * 64 + 64) := rfl
  have cleared (a : State) (pg : Nat) : (a.clearPage pg).moulds = a.moulds := rfl
  rw [State.partOpened, stamped, freed, cleared, State.setAllGates_field _ State.moulds]

theorem State.Steady.partOpened (s : State) (p : Nat) : s.Steady (s.partOpened p) := by
  have gates : s.Steady s.setAllGates := fun a _ _ => State.setAllGates_field s (State.rd · a)
  have cleared (a : State) : a.Steady (a.clearPage (Pg.base .rglp p)) := clearPage a (by simp only [Pg.base]; omega)
  have freed (a : State) : a.Steady (a.mouldsFree p) := refl a
  exact gates.trans ((cleared _).trans ((freed _).trans (stampRanges _ _)))

/-- What an activation leaves as it is, but for registers. -/
theorem State.activated_field {β : Type} (s : State) (p : Nat) (f : State → β)
    (hf : ∀ (a : State) r x y m g b, f { a with regs := r, parts := x, rebind := y, mem := m, seals := g, badLines := b } = f a := by
      exact fun _ _ _ _ _ _ _ => rfl) : f (s.activated p) = f (((s.freshKey p).slicesTaken p).partOpened p) :=
  foldl_keeps f (fun a n => State.tableLine_field a p n f hf) _ _

/-- The registers of the partition read as the binding of its slices leaves them. -/
theorem State.Steady.activated (s : State) (p : Nat) : ((s.freshKey p).slicesTaken p).Steady (s.activated p) :=
  (partOpened _ _).trans (foldl (fun a n => tableLine a p n) _ _)

theorem State.SameMap.slicesTaken (s : State) (p : Nat) : State.SameMap p s ((s.freshKey p).slicesTaken p) := by
  have map : mapPg = 0x11000 := rfl
  have part : partPg p = 0x500000 + 0x1000 * p := rfl
  intro a ha
  have apart (o : Nat) (ho : o < PART_CFG_REGION) : a ≠ partPg p + o := by omega
  rw [State.slicesTaken, State.rd_set_ne _ _ _ _ (apart _ (by decide)), State.rd_wr_ne _ _ _ (apart _ (by decide))]
  rfl

/-- No byte outside of the lines of the member tables changes. -/
theorem State.mem_activated (hp : p < 32) {a : Nat}
    (h : ∀ n pl, n < 256 → s.place (s.tableAt p n) = some pl → a < lineKey pl.chan pl.cl ∨ lineKey pl.chan pl.cl + 256 ≤ a) :
    Memory.get (s.activated p).mem a = Memory.get s.mem a := by
  have map := (State.SameMap.slicesTaken s p).trans ((State.Steady.partOpened _ p).sameMap hp)
  have before : (((s.freshKey p).slicesTaken p).partOpened p).mem = s.mem := State.partOpened_field _ p State.mem
  rw [← before]
  refine State.mem_foldl_tableLine hp fun n hn pl place => h n pl (List.mem_range.mp hn) ?_
  rw [← place, map.place, map.tableAt]

end

/-! ### A write of PART_CTL (R239, R240) -/

section
variable {s : State} {p w : Nat} {v : Word}

theorem State.partCtl_row (hp : p < 32) (h : s.holds 0 .part p) {u : State} (hu : s.partCtlSet p (written .part PART_CTL v) = u) :
    s.rowWrite 0 (decide (p < 32)) (partPg p + PART_CTL) v = .next (u.bumpSeq (partPg p)) := by
  rw [State.rowWrite_pf s _ _ v (decide_eq_true hp), State.write_partCtl p hp v h, hu]

theorem State.partCtlSet_form (h0 : bitOf w 0 = true) (h1 : bitOf w 1 = false) (h2 : bitOf w 2 = false) : s.partCtlSet p w = s.partitionForm p := by
  simp only [State.partCtlSet, h0, h1, h2, if_true, Bool.false_eq_true, if_false]

theorem State.partCtlSet_activate (h0 : bitOf w 0 = false) (h1 : bitOf w 1 = true) (h2 : bitOf w 2 = false) : s.partCtlSet p w = s.partitionActivate p := by
  simp only [State.partCtlSet, h0, h1, h2, if_true, Bool.false_eq_true, if_false]

theorem State.partCtlSet_dissolve (h0 : bitOf w 0 = false) (h1 : bitOf w 1 = false) (h2 : bitOf w 2 = true) : s.partCtlSet p w = s.partitionDissolve p := by
  simp only [State.partCtlSet, h0, h1, h2, if_true, Bool.false_eq_true, if_false]

/-- The state after a command of PART_CTL that records result 0. -/
def State.partDone (u : State) (p : Nat) : State := (u.capTouch.partResult p 0).bumpSeq (partPg p)

/-- Recording changes registers and the capability table's generation only. -/
theorem State.partDone_field {β : Type} (u : State) (f : State → β)
    (hf : ∀ (a : State) r g, f { a with regs := r, captGen := g } = f a := by exact fun _ _ _ => rfl) : f (u.partDone p) = f u :=
  hf u (u.partDone p).regs (u.partDone p).captGen

theorem State.partDone_result (u : State) : (u.partDone p).get (partPg p) PART_STAT_LAST_RESULT = 0 :=
  (State.get_bumpSeq _ _ (by decide)).trans (State.get_set_self _ _ _ _ (by decide) (by decide))

theorem State.partDone_state (u : State) : (u.partDone p).partState p = u.partState p :=
  (State.get_bumpSeq _ _ (f := PART_STAT_STATE) (by decide)).trans (State.get_set_disjoint _ _ _ _ (by decide) (by decide) (by decide) (by decide))

/-- A register of another page, or of none that recording changes. -/
theorem State.partDone_rd (u : State) {a : Nat} (hs : a ≠ partPg p + 0x024) (hr : a ≠ partPg p + PART_STAT) : (u.partDone p).rd a = u.rd a :=
  (State.rd_wr_ne _ _ _ hs).trans (State.rd_set_ne _ _ _ _ hr)

end

/-! ### What an activation and a dissolution leave -/

section
variable {s : State} {p : Nat} (hp : p < 32)

theorem State.sec_activated : (s.activated p).sec = (s.freshKey p).sec :=
  (State.activated_field s p State.sec).trans (State.partOpened_field _ p State.sec)

theorem State.moulds_activated : (s.activated p).moulds = Tab.clear s.moulds (p * 64) (p * 64 + 64) :=
  (State.activated_field s p State.moulds).trans (State.moulds_partOpened _ p)

theorem State.captGen_activated : (s.activated p).captGen = s.captGen :=
  (State.activated_field s p State.captGen).trans (State.partOpened_field _ p State.captGen)

theorem State.spad_activated : (s.activated p).spad = s.spad :=
  (State.activated_field s p State.spad).trans (State.partOpened_field _ p State.spad)

theorem State.share_activated : (s.activated p).share = s.share :=
  (State.activated_field s p State.share).trans (State.partOpened_field _ p State.share)

section
include hp

theorem State.partState_activated : (s.activated p).partState p = 2 := by
  have part : partPg p = 0x500000 + 0x1000 * p := rfl
  have kept : (s.activated p).rd (partPg p + PART_STAT) = ((s.freshKey p).slicesTaken p).rd (partPg p + PART_STAT) :=
    State.Steady.activated s p _ (by simp only [PART_STAT]; omega) (by simp only [PART_STAT, PART_REBAL_STAT]; omega)
  exact (congrArg (bitsOf · 1 0) kept).trans (State.get_set_self _ _ PART_STAT_STATE _ (by decide) (by decide))

theorem State.rd_activated_slices : (s.activated p).rd (partPg p + PART_SLICES) = s.rd (partPg p + PART_SLICE_REQ) := by
  have part : partPg p = 0x500000 + 0x1000 * p := rfl
  have kept : (s.activated p).rd (partPg p + PART_SLICES) = ((s.freshKey p).slicesTaken p).rd (partPg p + PART_SLICES) :=
    State.Steady.activated s p _ (by simp only [PART_SLICES]; omega) (by simp only [PART_SLICES, PART_REBAL_STAT]; omega)
  have fresh (a : Nat) : (s.freshKey p).rd a = s.rd a := rfl
  rw [kept, State.slicesTaken, State.rd_set_ne _ _ _ _ fun e => absurd (Nat.add_left_cancel e) (by decide), State.rd_wr_self, fresh,
    Nat.mod_eq_of_lt (s.rd_lt _)]

end

/-- What a dissolution ends with: no slice bound, SEC_PROTECT, SEC_KLOCK and PART_STAT cleared. -/
def State.partFreed (s : State) (p : Nat) : State :=
  let s := (((s.wr (partPg p + PART_SLICES) 0).wr (partPg p + PART_RT_MASK) 0).wr (partPg p + PART_SAVE_REGION) 0).setAllGates
  let s := (s.wr (secPg + SEC_PROTECT) (putBit (s.rd (secPg + SEC_PROTECT)) p false)).wr (secPg + SEC_KLOCK) (putBit (s.rd (secPg + SEC_KLOCK)) p false)
  s.wr (partPg p + PART_STAT) 0

theorem State.partitionDissolve_empty (hs : s.partState p = 1 ∨ s.partState p = 2) (he : s.partEmpty p = true) :
    ∃ u : State, s.partitionDissolve p = (u.partFreed p).capTouch.partResult p 0 := by
  have active : ¬ (s.partState p ≠ 1 ∧ s.partState p ≠ 2) := by omega
  have empty : ¬ s.partEmpty p = false := by simp [he]
  exact ⟨_, (if_neg active).trans (if_neg empty)⟩

theorem State.partState_partFreed : (s.partFreed p).partState p = 0 := by
  rw [State.partState, State.get, State.partFreed]
  exact congrArg (bitsOf · 1 0) (State.rd_wr_self _ (partPg p + PART_STAT) 0)

/-- A bit cleared in a register's word reads 0. -/
theorem bitOf_putBit_word (n : Nat) {i : Nat} : bitOf (putBit n i false % 2 ^ 32) i = false := by
  have clear : (putBit n i false).testBit i = false := bitOf_putBit_self n i false
  rw [bitOf, Nat.testBit_mod_two_pow, clear, Bool.and_false]

include hp

/-- The registers of the security page lie above those of the partitions. -/
theorem secPg_ne_partPg (o : Nat) {o' : Nat} (h : o' < 0x1000) : secPg + o ≠ partPg p + o' := by
  have sec : secPg = 0x800000 := rfl
  have part : partPg p = 0x500000 + 0x1000 * p := rfl
  omega

theorem State.protect_partFreed : bitOf ((s.partFreed p).rd (secPg + SEC_PROTECT)) p = false := by
  rw [State.partFreed, State.rd_wr_ne _ _ _ (secPg_ne_partPg hp _ (by decide)), State.rd_wr_ne _ _ _ (by decide), State.rd_wr_self]
  exact bitOf_putBit_word _

theorem State.klock_partFreed : bitOf ((s.partFreed p).rd (secPg + SEC_KLOCK)) p = false := by
  rw [State.partFreed, State.rd_wr_ne _ _ _ (secPg_ne_partPg hp _ (by decide)), State.rd_wr_self]
  exact bitOf_putBit_word _

theorem State.slices_partFreed : (s.partFreed p).rd (partPg p + PART_SLICES) = 0 := by
  have apart {o : Nat} (h : PART_SLICES ≠ o) : partPg p + PART_SLICES ≠ partPg p + o := fun e => h (Nat.add_left_cancel e)
  rw [State.partFreed, State.rd_wr_ne _ _ _ (apart (by decide)), State.rd_wr_ne _ _ _ (secPg_ne_partPg hp _ (by decide)).symm,
    State.rd_wr_ne _ _ _ (secPg_ne_partPg hp _ (by decide)).symm, State.setAllGates_field _ (State.rd · _), State.rd_wr_ne _ _ _ (apart (by decide)),
    State.rd_wr_ne _ _ _ (apart (by decide)), State.rd_wr_self, Nat.zero_mod]

end

/-! ### The obligation -/

section
variable {s : State} {p : Nat} {v : Word} (hp : p < 32) (hh : s.holds 0 .part p)
include hp hh

/-- What an ACTIVATE that passes its checks leaves. -/
theorem exec_partitionActivate_ok (h0 : bitOf (written .part PART_CTL v) 0 = false) (h1 : bitOf (written .part PART_CTL v) 1 = true)
    (h2 : bitOf (written .part PART_CTL v) 2 = false) (hs : s.partState p = 1) (hr : s.activateRule p = 0) (he : s.sec.entropyBad = false) :
    exec (.partitionActivate 0 p v) s = .next ((s.activated p).partDone p) :=
  State.partCtl_row hp hh ((State.partCtlSet_activate h0 h1 h2).trans (State.partitionActivate_ok hs hr he))

theorem exec_partitionDissolve_empty (h0 : bitOf (written .part PART_CTL v) 0 = false) (h1 : bitOf (written .part PART_CTL v) 1 = false)
    (h2 : bitOf (written .part PART_CTL v) 2 = true) (hs : s.partState p = 1 ∨ s.partState p = 2) (he : s.partEmpty p = true) :
    ∃ u : State, exec (.partitionDissolve 0 p v) s = .next ((u.partFreed p).partDone p) := by
  obtain ⟨u, freed⟩ := State.partitionDissolve_empty hs he
  exact ⟨u, State.partCtl_row hp hh ((State.partCtlSet_dissolve h0 h1 h2).trans freed)⟩

end

/-- Settles O24, by what FORM, ACTIVATE and DISSOLVE do in each state of the partition. -/
theorem partitionLifecycle : Obligations.PartitionLifecycle := by
  unfold Obligations.PartitionLifecycle
  intro s p v hp hh pg w res
  refine ⟨fun h0 h1 h2 => ⟨fun hs => ?form, fun hs => ?formed⟩,
    fun h0 h1 h2 => ⟨fun hs => ?notForming, fun hs hr => ?fails,
      fun hs hr he => ⟨(s.activated p).partDone p, exec_partitionActivate_ok hp hh h0 h1 h2 hs hr he, ?active⟩⟩,
    fun h0 h1 h2 => ⟨fun hs he => ?inUse, fun hs he => ?freed⟩⟩
  case form => exact State.partCtl_row hp hh ((State.partCtlSet_form h0 h1 h2).trans (if_pos hs))
  case formed => exact State.partCtl_row hp hh ((State.partCtlSet_form h0 h1 h2).trans (if_neg hs))
  case notForming => exact State.partCtl_row hp hh ((State.partCtlSet_activate h0 h1 h2).trans (if_pos hs))
  case fails => exact State.partCtl_row hp hh ((State.partCtlSet_activate h0 h1 h2).trans ((if_neg (not_not.mpr hs)).trans (if_pos hr)))
  case active =>
    have apart (o : Nat) (h : o ≠ 0x024) (h' : o ≠ PART_STAT) : ((s.activated p).partDone p).rd (pg + o) = (s.activated p).rd (pg + o) :=
      State.partDone_rd _ (fun e => h (Nat.add_left_cancel e)) fun e => h' (Nat.add_left_cancel e)
    have sec : ((s.activated p).partDone p).sec = (s.freshKey p).sec := (State.partDone_field _ State.sec).trans State.sec_activated
    have moulds : ((s.activated p).partDone p).moulds = Tab.clear s.moulds (p * 64) (p * 64 + 64) :=
      (State.partDone_field _ State.moulds).trans State.moulds_activated
    have captGen : ((s.activated p).partDone p).captGen = s.captGen + 2 := congrArg (· + 2) State.captGen_activated
    refine ⟨(State.partDone_state _).trans (State.partState_activated hp), State.partDone_result _,
      (apart PART_SLICES (by decide) (by decide)).trans (State.rd_activated_slices hp), ?_, ?_, fun i hi => ?_, fun r hr => ?_,
      captGen, (State.partDone_field _ State.spad).trans State.spad_activated,
      (State.partDone_field _ State.share).trans State.share_activated, fun _ a h => ?_⟩
    · rw [sec]
      exact Tab.get_put_self 0 p (s.sec.serial + 1) s.sec.cfgKey
    · rw [sec]
      rfl
    · rw [State.atMould, moulds]
      exact Tab.get_clear_in _ _ (by omega) (by omega)
    · rw [sec]
      exact Tab.get_clear_in _ _ (by omega) (by omega)
    · rw [State.partDone_field _ State.mem]
      exact State.mem_activated hp h
  case inUse =>
    have active : ¬ (s.partState p ≠ 1 ∧ s.partState p ≠ 2) := by omega
    exact State.partCtl_row hp hh ((State.partCtlSet_dissolve h0 h1 h2).trans ((if_neg active).trans (if_pos he)))
  case freed =>
    obtain ⟨u, done⟩ := exec_partitionDissolve_empty hp hh h0 h1 h2 hs he
    have secure (o : Nat) : ((u.partFreed p).partDone p).rd (secPg + o) = (u.partFreed p).rd (secPg + o) :=
      State.partDone_rd _ (secPg_ne_partPg hp _ (by decide)) (secPg_ne_partPg hp _ (by decide))
    have slices : ((u.partFreed p).partDone p).rd (pg + PART_SLICES) = (u.partFreed p).rd (pg + PART_SLICES) :=
      State.partDone_rd _ (fun e => absurd (Nat.add_left_cancel e) (by decide)) fun e => absurd (Nat.add_left_cancel e) (by decide)
    refine ⟨(u.partFreed p).partDone p, done, (State.partDone_state _).trans State.partState_partFreed, State.partDone_result _,
      slices.trans (State.slices_partFreed hp), ?_, ?_⟩
    · rw [secure]
      exact State.protect_partFreed hp
    · rw [secure]
      exact State.klock_partFreed hp

end Sys2Proof.Machine
end

section
/-! SUPPORT. The scheduler: real-time slices, the end of a quantum, and the run lists of the host. -/

namespace Sys2Proof.Machine

open Sys2Proof

/-! ### PART_RT_MASK (R267) -/

section
variable {s : State} {p v : Nat}

theorem State.rtMaskWrite_unbound (h : (onesBelow 32 v).any (fun n => !bitOf (s.rd (partPg p + PART_SLICES)) n) = true) :
    s.rtMaskWrite p v = (s.set (partPg p) PART_STAT_LAST_RESULT 0x01, false) := if_pos h

section
variable (h : (onesBelow 32 v).any (fun n => !bitOf (s.rd (partPg p + PART_SLICES)) n) = false)
include h

theorem State.rtMaskWrite_inUse (hv : v = 0) (ho : s.rd (partPg p + PART_RT_MASK) ≠ 0)
    (hr : (s.enabledQues p).any (fun q => s.get (quePg q) QUE_CTL_CLASS == 1) = true) :
    s.rtMaskWrite p v = (s.set (partPg p) PART_STAT_LAST_RESULT 0x14, false) :=
  (if_neg (ne_true_of_eq_false h)).trans (if_pos ⟨hv, ho, hr⟩)

/-- With no slice cleared no slice stays reserved for a command that runs there. -/
theorem State.rtMaskWrite_stores (hr : ¬ (v = 0 ∧ (s.enabledQues p).any (fun q => s.get (quePg q) QUE_CTL_CLASS == 1) = true))
    (hk : ∀ n, bitOf (s.rd (partPg p + PART_RT_MASK)) n = true → bitOf v n = true) :
    s.rtMaskWrite p v = ((s.wr (partPg p + PART_RT_MASK) v).schedule p, true) := by
  have free : ¬ (v = 0 ∧ s.rd (partPg p + PART_RT_MASK) ≠ 0 ∧ (s.enabledQues p).any (fun q => s.get (quePg q) QUE_CTL_CLASS == 1) = true) :=
    fun ⟨hv, _, hq⟩ => hr ⟨hv, hq⟩
  have kept : (onesBelow 32 (s.rd (partPg p + PART_RT_MASK))).filter (fun n => !bitOf v n) = [] :=
    List.filter_eq_nil_iff.mpr fun n hn => by simp [hk n (List.mem_filter.mp hn).2]
  refine (if_neg (ne_true_of_eq_false h)).trans ((if_neg free).trans ?_)
  simp only [kept, List.filter_nil, List.foldl_nil]

end

end

section
variable {s : State} {p : Nat} {v : Word} (hp : p < 32) (hh : s.holds 0 .part p)
include hp hh

theorem exec_rtMaskWrite {r : State × Bool} (hr : s.rtMaskWrite p v.toNat = r) :
    exec (.rtMaskWrite 0 p v) s = .next (if r.2 = true then r.1.bumpSeq (partPg p) else r.1) := by
  have whole : written .part PART_RT_MASK v = v.toNat := written_whole (by rfl) (by decide) v
  rw [← hr, ← whole]
  exact (State.rowWrite_pf s _ _ v (decide_eq_true hp)).trans (congrArg _ (State.write_rtMask p hp v hh))

/-! ### SWAP (R289) -/

theorem exec_runListSwap (h0 : bitOf (written .part PART_RL_CTL v) 0 = true) (h2 : bitOf (written .part PART_RL_CTL v) 2 = false) :
    exec (.runListSwap 0 p v) s = .next ((s.runListSwap p).bumpSeq (partPg p)) := by
  refine (State.rowWrite_pf s _ _ v (decide_eq_true hp)).trans (congrArg _ ?_)
  simp only [State.write_rlCtl p hp v hh, h0, h2, Bool.false_eq_true, if_true, if_false]

end

theorem State.runListSwap_reading {s : State} {p : Nat} (h : s.on (partPg p) PART_RL_CTL_SWAP_BUSY = true) : s.runListSwap p = s := if_pos h

theorem State.runListSwap_reads {s : State} {p : Nat} (h : s.on (partPg p) PART_RL_CTL_SWAP_BUSY = false) : s.runListSwap p =
    (s.set (partPg p) PART_RL_CTL_SWAP_BUSY 1).emit
      (.hostRead 0 (s.rd64 (partPg p + PART_RL_BASE)) (16 * max 1 (min 4096 (s.get (partPg p) PART_RL_COUNT_COUNT))) false) :=
  if_neg (ne_true_of_eq_false h)

/-! ### A list that arrives (R289) -/

/-- The entries of a run list of 16 bytes each: context, flags, slices, duration (R286). -/
def runListOf (n : Nat) (list : Bytes) : List (Nat × Nat × Nat × Nat) :=
  (List.range n).map (fun i => (leAt list (16 * i) 2 % 1024, leAt list (16 * i + 2) 1, leAt list (16 * i + 4) 4, leAt list (16 * i + 8) 4))

/-- A list waits for the end of the group in force. -/
def PartSt.awaiting (y : PartSt) (l : List (Nat × Nat × Nat × Nat)) : PartSt := { y with fresh := some l }

/-- What the completed read of a run list leaves, before the scheduler decides. -/
def State.listArrived (s : State) (p : Nat) (list : Bytes) : State :=
  ((s.set (partPg p) PART_RL_CTL_SWAP_BUSY 0).updPart p
    (·.awaiting (runListOf (max 1 (min 4096 (s.get (partPg p) PART_RL_COUNT_COUNT))) list))).set (partPg p) PART_RL_CTL_LOADED 1

section
variable {s : State} {p : Nat} {list : Bytes}

section
variable (hp : p < 32) (h : s.on (partPg p) PART_RL_CTL_SWAP_BUSY = true)
include hp h

theorem exec_runListReadDone_failed :
    exec (.runListReadDone p false list) s = .next ((s.set (partPg p) PART_RL_CTL_SWAP_BUSY 0).set (partPg p) PART_RL_CTL_RL_ERR 1) :=
  (if_pos (decide_eq_true hp)).trans (congrArg Host.Outcome.next (if_neg (ne_false_of_eq_true h)))

theorem exec_runListReadDone_arrives : exec (.runListReadDone p true list) s = .next ((s.listArrived p list).schedule p) := by
  have count : (s.set (partPg p) PART_RL_CTL_SWAP_BUSY 0).get (partPg p) PART_RL_COUNT_COUNT = s.get (partPg p) PART_RL_COUNT_COUNT :=
    State.get_set_page _ _ _ _ (by decide)
  refine (if_pos (decide_eq_true hp)).trans (congrArg Host.Outcome.next ((if_neg (ne_false_of_eq_true h)).trans ?_))
  simp only [count]
  rfl

end

theorem State.get_swapBusy_listArrived : (s.listArrived p list).get (partPg p) PART_RL_CTL_SWAP_BUSY = 0 := by
  rw [State.listArrived, State.get_set_disjoint (g := PART_RL_CTL_SWAP_BUSY) _ _ PART_RL_CTL_LOADED _ rfl (by decide) (by decide) (by decide), State.updPart_get,
    State.get_set_self _ _ PART_RL_CTL_SWAP_BUSY _ (by decide) (by decide)]
  rfl

theorem State.get_loaded_listArrived : (s.listArrived p list).get (partPg p) PART_RL_CTL_LOADED = 1 :=
  State.get_set_self _ _ _ _ (by decide) (by decide)

theorem State.atPart_listArrived : (s.listArrived p list).atPart p =
    (s.atPart p).awaiting (runListOf (max 1 (min 4096 (s.get (partPg p) PART_RL_COUNT_COUNT))) list) :=
  (State.atPart_updPart (s.set (partPg p) PART_RL_CTL_SWAP_BUSY 0) p (·.awaiting _) p).trans (if_pos rfl)

end

/-! ### The end of an entry (R288) -/

theorem exec_runListEntryEnd {s : State} {p j : Nat} (hp : p < 32) (hj : j < 4096) (hm : s.hostMode 1 = true) :
    exec (.runListEntryEnd p j) s =
      (let u := s.endEntry p j
       .next ((u.preempted (((u.atPart p).list.getD j (0, 0, 0, 0)).1 % 1024)).schedule p)) :=
  (if_pos (by simp [hp, hj])).trans (congrArg Host.Outcome.next (if_pos hm))

/-! ### The end of a quantum (R270) -/

/-- Another context of the partition of `x` wants slices at its priority or a higher one. -/
def State.hasRival (s : State) (x : Nat) : Prop :=
  ∃ y, y ∈ s.partCtxs (s.partOf x) ∧ y ≠ x ∧ s.wants y false = true ∧ s.prioOf x ≤ s.prioOf y

section
variable {s : State} {x : Nat}

theorem State.hasRival_iff : s.hasRival x ↔
    (s.partCtxs (s.partOf x)).any (fun y => y != x && s.wants y false && decide (s.prioOf x ≤ s.prioOf y)) = true := by
  simp only [State.hasRival, List.any_eq_true, Bool.and_eq_true, bne_iff_ne, decide_eq_true_eq, and_assoc]

variable (hx : x < 1024) (hm : s.hostMode 1 = false) (hs : (s.held x false).isEmpty = false) (ht : (s.atCtx x).tq = none)
include hx hm hs ht

theorem exec_quantumExpire : exec (.quantumExpire x) s =
    .next (if (s.partCtxs (s.partOf x)).any (fun y => y != x && s.wants y false && decide (s.prioOf x ≤ s.prioOf y)) = true then (s.preempt x).preempted x
      else s.updCtx x (fun e => { e with quantum := some s.mclk, qlen := s.quantumOf x * 100 })) := by
  have runs : ¬ ((s.held x false).isEmpty = true ∨ (s.atCtx x).tq.isSome = true ∨ s.hostMode 1 = true) := by simp [hm, hs, ht]
  exact (if_pos (decide_eq_true hx)).trans (congrArg Host.Outcome.next (if_neg runs))

theorem exec_quantumExpire_rival (hr : s.hasRival x) : exec (.quantumExpire x) s = .next ((s.preempt x).preempted x) :=
  (exec_quantumExpire hx hm hs ht).trans (congrArg Host.Outcome.next (if_pos (State.hasRival_iff.mp hr)))

theorem exec_quantumExpire_alone (hr : ¬ s.hasRival x) :
    exec (.quantumExpire x) s = .next (s.updCtx x (fun e => { e with quantum := some s.mclk, qlen := s.quantumOf x * 100 })) :=
  (exec_quantumExpire hx hm hs ht).trans (congrArg Host.Outcome.next (if_neg (hr ∘ State.hasRival_iff.mpr)))

end

/-! ### The obligation -/

/-- Settles O31, by what each of the five rows does. -/
theorem schedulerRegistersAndQuanta : Obligations.SchedulerRegistersAndQuanta := by
  unfold Obligations.SchedulerRegistersAndQuanta
  intro s p v hp pg
  refine ⟨fun hh => ⟨fun hu => ?unbound, fun hb hv ho hr => ?inUse, fun hb hr hk => ?stores⟩, fun hh => ?swap, fun list hb => ⟨?failed, ?arrives⟩,
    fun j hj hm => exec_runListEntryEnd hp hj hm, fun x hx hm hs ht => ⟨exec_quantumExpire_rival hx hm hs ht, exec_quantumExpire_alone hx hm hs ht⟩⟩
  case unbound => exact exec_rtMaskWrite hp hh (State.rtMaskWrite_unbound hu)
  case inUse => exact exec_rtMaskWrite hp hh (State.rtMaskWrite_inUse hb (congrArg BitVec.toNat hv) ho hr)
  case stores =>
    have free : ¬ (v.toNat = 0 ∧ (s.enabledQues p).any (fun q => s.get (quePg q) QUE_CTL_CLASS == 1) = true) :=
      fun ⟨hv, hq⟩ => hr ⟨BitVec.eq_of_toNat_eq hv, hq⟩
    exact exec_rtMaskWrite hp hh (State.rtMaskWrite_stores hb free hk)
  case swap =>
    intro w n h0 h2
    have row := exec_runListSwap hp hh h0 h2
    exact ⟨fun hb => row.trans (by rw [State.runListSwap_reads hb]), fun hb => row.trans (by rw [State.runListSwap_reading hb])⟩
  case failed => exact exec_runListReadDone_failed hp hb
  case arrives =>
    refine ⟨s.listArrived p list, exec_runListReadDone_arrives hp hb, State.get_swapBusy_listArrived, State.get_loaded_listArrived,
      by rw [State.atPart_listArrived]; rfl, _, by rw [State.atPart_listArrived]; rfl, ?_, fun i hi => ?_⟩
    · rw [runListOf, List.length_map, List.length_range]
    · rw [runListOf, List.length_map, List.length_range] at hi
      rw [runListOf, List.getElem?_map, List.getElem?_range hi]
      rfl

end Sys2Proof.Machine
end

section
/-! SUPPORT. A watchdog's reset that interrupts a binding change: the commands that go on may raise the security alarm. -/

namespace Sys2Proof.Machine

open Sys2Proof

/-- An entry of the section table, of a section for all phases with one record (R109). -/
def oneRecordSection (type off : Nat) : Bytes := leBytes 2 type ++ leBytes 1 0xFF ++ leBytes 1 0 ++ leBytes 4 off ++ leBytes 4 0 ++ leBytes 4 1

/-- An image of one phase and one cell: the cell keeps one resident tile, the 64 bytes of argument 0, in one line of its scratchpad. -/
def residentImage : Bytes :=
  leBytes 0x0C 0 ++ leBytes 2 4 ++ leBytes 1 1 ++ leBytes 0xF1 0 ++
    oneRecordSection 1 0x140 ++ oneRecordSection 5 0x160 ++ oneRecordSection 6 0x170 ++ oneRecordSection 7 0x1B0 ++
    leBytes 32 0 ++
    (leBytes 4 0 ++ leBytes 2 1 ++ leBytes 1 1 ++ leBytes 9 0) ++
    (leBytes 0x0A 0 ++ leBytes 2 1 ++ leBytes 0x34 0) ++
    (leBytes 16 0 ++ leBytes 8 64 ++ leBytes 8 0)

/-- A COMPUTE of that image that stands at a boundary, its argument 0 at DPA 0 under key slot 1. -/
def residentCmd : Cmd := { q := 0, seq := 0, desc := leBytes 128 1, started := true, boundary := true, ranges := [{}, { key := 1, len := 64 }] }

/-- Partition 0 of slices 0 and 1 shrinks to slice 1: slice 0, on which context 0 runs the COMPUTE, is marked and the boundary awaited.
The line at DPA 0 was never written under slot 1. -/
def shrinkingState : State :=
  ({ slices := [(0, { cfg := some (0, 0, 0), ctx := some 0, cmd := some (0, 0), leaving := true })], cmds := [(0, [residentCmd])],
     moulds := [(0, { state := 2, count := 1, image := residentImage })],
     rebind := [(0, { op := 1, step := 3, slices := 2, waitFor := [(0, 0)] })] } : State)
    |>.wr (mapPg + GLB_SET) 1 |>.wr (mapPg + GLB_REGION_0) 1 |>.wr (mapPg + GLB_REGION_3) 1
    |>.wr (partPg 0 + PART_SLICES) 3 |>.set (partPg 0) PART_CTX_RANGE_COUNT 1 |>.set (partPg 0) PART_REBIND_CTL_BUSY 1
    |>.set (ctxPg 0) CTX_STAT_STATE 1 |>.set (ctxPg 0) CTX_SAVE_CTL_SLOTS 2

/-! ### The watchdog's reset (R432, R439) -/

/-- WATCHDOG_EXPIRE below level 5 raises alarm bit 13 and starts the level without approval. -/
theorem exec_watchdogExpire {s : State} {k : Nat} (hk : k < 4) (h : s.levelNow < 5) :
    exec (.watchdogExpire k) s = .next ((s.alarm 13).startLevel 5 4 0 0 0 false) :=
  (if_pos (decide_eq_true hk)).trans (congrArg Host.Outcome.next (if_neg (Nat.not_le.mpr h)))

/-- The shrink ends with PREEMPTED, so slice 0 stays and the command goes on: its context wants another slice and is given slice 1. With
the new binding the resident tile is read again from its home, the line at DPA 0, whose tag fails under slot 1: security alarm, bit 2. -/
theorem alarm_shrinkingState : ((shrinkingState.alarm 13).startLevel 5 4 0 0 0 false).mgmt.alarm = 2 ^ 13 ||| 2 ^ 2 := by
  decide +kernel

/-! ### The obligation -/

/-- Refutes O48: the reset that WATCHDOG_EXPIRE starts ends the shrink of `shrinkingState`, and what goes on raises alarm bit 2 as well as
bit 13, where the statement has no other alarm bit change. -/
theorem not_hangsAndDeadlines : ¬ Obligations.HangsAndDeadlines := by
  unfold Obligations.HangsAndDeadlines
  intro h
  obtain ⟨-, -, -, -, watchdog⟩ := h shrinkingState
  have low : shrinkingState.levelNow < 5 := by decide +kernel
  obtain ⟨u, answered, -, -, -, -, alarm⟩ := (watchdog 0 (by decide)).2 low
  have reset : (shrinkingState.alarm 13).startLevel 5 4 0 0 0 false = u :=
    Host.Outcome.next.inj ((exec_watchdogExpire (by decide) low).symm.trans answered)
  rw [← reset, alarm_shrinkingState] at alarm
  exact absurd alarm (by decide)

end Sys2Proof.Machine
end

section
/-! SUPPORT. Ports of the links: how a port trains, fails, is held down, retrains, is disabled and is lost. -/

namespace Sys2Proof.Machine

open Sys2Proof

section
variable {s : State} {p : Nat}

/-! ### Counting an error (R519) -/

theorem State.atLink_errCount (s : State) (pg off n p : Nat) : (s.errCount pg off n).atLink p = s.atLink p :=
  State.field_of_sansEvents (State.errCount_sansEvents s pg off n) (·.atLink p) fun _ => rfl

theorem State.mclk_errCount (s : State) (pg off n : Nat) : (s.errCount pg off n).mclk = s.mclk :=
  State.field_of_sansEvents (State.errCount_sansEvents s pg off n) State.mclk fun _ => rfl

/-! ### The status word of a port -/

/-- The settings of a port do not lie in its status word. -/
theorem State.on_lnkCtl_set (s : State) (p v : Nat) {f g : F} (hf : f.off = LNK_STAT) (hg : g.off = LNK_CTL) :
    (s.set (lnkPg p) f v).on (lnkPg p) g = s.on (lnkPg p) g :=
  congrArg (· != 0) (State.get_set_page _ _ _ _ (by rw [hf, hg]; decide))

theorem State.portState_portClose : (s.portClose p).portState p = 0 := by
  simp (disch := decide) only [State.portState, State.portClose, State.get_set_disjoint, State.get_set_self, Nat.zero_mod]

theorem State.fwdPool_portClose : (s.portClose p).get (lnkPg p) LNK_STAT_FWD_POOL = 0 :=
  State.get_set_self _ _ _ _ (by decide) (by decide)

/-! ### Training (R292, R323) -/

/-- Port `p` in TRAINING, in the FEC and at the rate that either end asks for. -/
def State.inTraining (s : State) (p : Nat) (strong half : Bool) : State :=
  ((((s.updLink p LinkSt.closed).set (lnkPg p) LNK_STAT_STATE 1).mark (lnkPg p) LNK_STAT_STRONG (strong || s.on (lnkPg p) LNK_CTL_FEC_STRONG)).mark
    (lnkPg p) LNK_STAT_HALF (half || s.on (lnkPg p) LNK_CTL_HALF_RATE || s.laneHalf)).capTouch

theorem exec_portTrain_stays (hp : p < 36) (strong half : Bool) (h : s.mayTrain p = false) : exec (.portTrain p strong half) s = .next s :=
  onUnit_next (decide_eq_true hp) (if_pos h)

theorem exec_portTrain_trains (hp : p < 36) (strong half : Bool) (h : s.mayTrain p = true) :
    exec (.portTrain p strong half) s = .next ((s.inTraining p strong half).sendState p 0) := by
  refine onUnit_next (decide_eq_true hp) ((if_neg (ne_false_of_eq_true h)).trans ?_)
  have kept (t : State) (f : F) (v : Nat) : (t.set (lnkPg p) f v).laneHalf = t.laneHalf := rfl
  simp only [State.mark, kept, State.on_lnkCtl_set _ p _ (f := LNK_STAT_STATE) (g := LNK_CTL_FEC_STRONG) rfl rfl,
    State.on_lnkCtl_set _ p _ (f := LNK_STAT_STATE) (g := LNK_CTL_HALF_RATE) rfl rfl,
    State.on_lnkCtl_set _ p _ (f := LNK_STAT_STRONG) (g := LNK_CTL_HALF_RATE) rfl rfl]
  rfl

variable {strong half : Bool}

/-- What the status word shows once STATE and the two flags are set. -/
theorem State.stat_trains (u : State) (p : Nat) (a b : Bool) :
    let t := (((u.set (lnkPg p) LNK_STAT_STATE 1).mark (lnkPg p) LNK_STAT_STRONG a).mark (lnkPg p) LNK_STAT_HALF b).capTouch
    t.portState p = 1 ∧ t.on (lnkPg p) LNK_STAT_STRONG = a ∧ t.on (lnkPg p) LNK_STAT_HALF = b := by
  intro t
  simp (disch := decide) only [t, State.portState, State.on_eq, State.mark_eq, State.get_capTouch, State.get_set_self, State.get_set_disjoint]
  cases a <;> cases b <;> decide

theorem State.links_trains (u : State) (p : Nat) (a b : Bool) :
    (((u.set (lnkPg p) LNK_STAT_STATE 1).mark (lnkPg p) LNK_STAT_STRONG a).mark (lnkPg p) LNK_STAT_HALF b).capTouch.links = u.links := by
  rw [State.capTouch, State.mark_eq, State.mark_eq, State.set_links, State.set_links, State.set_links]

theorem State.stat_inTraining : (s.inTraining p strong half).portState p = 1 ∧
    (s.inTraining p strong half).on (lnkPg p) LNK_STAT_STRONG = (strong || s.on (lnkPg p) LNK_CTL_FEC_STRONG) ∧
    (s.inTraining p strong half).on (lnkPg p) LNK_STAT_HALF = (half || s.on (lnkPg p) LNK_CTL_HALF_RATE || s.laneHalf) :=
  State.stat_trains (s.updLink p LinkSt.closed) p _ _

theorem State.atLink_inTraining : (s.inTraining p strong half).atLink p = (s.atLink p).closed := by
  have kept : (s.inTraining p strong half).links = (s.updLink p LinkSt.closed).links := State.links_trains ..
  rw [State.atLink, kept]
  exact (State.atLink_updLink s p LinkSt.closed p).trans (if_pos rfl)

/-! ### Failures of the training and the hold-down (R325) -/

/-- The failures within the last second. -/
abbrev State.recentFails (s : State) (p : Nat) : List Nat := (s.atLink p).fails.filter (fun t => decide (s.mclk < t + 100000000))

/-- A port whose training has failed: the failure is counted, and the port is DOWN. -/
abbrev State.trainingLost (s : State) (p : Nat) : State := (s.errCount (lnkPg p) LNK_TRAIN_FAIL 1).portClose p

theorem State.trainFails_eq (h : s.portState p = 1 ∨ s.portState p = 2) : s.trainFails p =
    if 2 ≤ (s.recentFails p).length then
      ((((((s.trainingLost p).updLink p (fun x => { x with fails := [], heldAt := some s.mclk })).set (lnkPg p) LNK_STAT_STATE 4).linkEvent 0x22 p 7).alarm 12).fault
        11 p s.mclk)
    else (s.trainingLost p).updLink p (fun x => { x with fails := s.mclk :: s.recentFails p }) := by
  have trains : ¬ (s.portState p ≠ 1 ∧ s.portState p ≠ 2) := by omega
  have mclk : (s.trainingLost p).mclk = s.mclk := s.mclk_errCount ..
  have three : 3 ≤ (s.mclk :: s.recentFails p).length ↔ 2 ≤ (s.recentFails p).length := by rw [List.length_cons]; omega
  simp only [State.trainFails, if_neg trains, State.atLink_errCount, State.mclk_errCount, mclk, three]

theorem exec_holdDownExpire (hp : p < 36) (h : s.portState p = 4) :
    exec (.holdDownExpire p) s = .next ((s.updLink p (fun x => { x with heldAt := none })).set (lnkPg p) LNK_STAT_STATE 0) :=
  onUnit_next (decide_eq_true hp) (if_pos h)

/-! ### The control register (R302, R323, R329) -/

/-- The settings of LNK_CTL are stored. -/
abbrev State.lnkStored (s : State) (p w : Nat) : State := s.wr (lnkPg p + LNK_CTL) (w &&& 15)

theorem State.get_lnkStored (s : State) (p w : Nat) {f : F} (h : f.off ≠ LNK_CTL) : (s.lnkStored p w).get (lnkPg p) f = s.get (lnkPg p) f :=
  State.get_wr_ne _ _ _ _ _ (by omega)

theorem State.portState_lnkStored (s : State) (p w : Nat) : (s.lnkStored p w).portState p = s.portState p := s.get_lnkStored p w (by decide)

/-- A write of LNK_CTL by the physical function. -/
theorem State.lnkCtl_row {v : Word} {u : State} (hp : p < 36) (h : s.holds 0 .lnk p) (hu : s.lnkCtlSet p (written .lnk LNK_CTL v) = u) :
    s.rowWrite 0 (decide (p < 36)) (lnkPg p + LNK_CTL) v = .next (u.bumpSeq (lnkPg p)) := by
  rw [State.rowWrite_pf s _ _ v (decide_eq_true hp), State.write_lnkCtl p hp v h, hu]

section
variable {w : Nat}

theorem State.lnkCtlSet_retrains (h0 : bitOf w 0 = true) (h4 : bitOf w 4 = true) (h5 : bitOf w 5 = false) :
    s.lnkCtlSet p w = (s.lnkStored p w).linkRetrain p := by
  simp only [State.lnkCtlSet, h0, h4, h5, Bool.true_eq_false, Bool.false_eq_true, and_false, if_false, if_true]

theorem State.lnkCtlSet_rekeys (h0 : bitOf w 0 = true) (h4 : bitOf w 4 = false) (h5 : bitOf w 5 = true) :
    s.lnkCtlSet p w = (s.lnkStored p w).rekeyStart p := by
  simp only [State.lnkCtlSet, h0, h4, h5, Bool.true_eq_false, Bool.false_eq_true, and_false, if_false, if_true]

theorem State.lnkCtlSet_disables (h0 : bitOf w 0 = false) (h4 : bitOf w 4 = false) (h5 : bitOf w 5 = false)
    (on : s.on (lnkPg p) LNK_CTL_ENABLE = true) : s.lnkCtlSet p w = (s.lnkStored p w).enableClear p := by
  simp only [State.lnkCtlSet, h0, h4, h5, on, Bool.false_eq_true, and_self, if_false, if_true]

end

theorem State.not_portUp (h : s.portState p ≠ 3) : s.portUp p = false := beq_eq_false_iff_ne.mpr h

theorem State.portRetrain_down (h : s.portState p ≠ 3) (reason : Nat) : s.portRetrain p reason = s.portClose p :=
  if_neg (ne_true_of_eq_false (State.not_portUp h))

theorem State.enableClear_down (h : s.portState p ≠ 3) : s.enableClear p = (s.portClose p).updLink p (fun x => { x with heldAt := none }) :=
  if_neg (ne_true_of_eq_false (State.not_portUp h))

/-! ### Loss (R326, R333) -/

theorem exec_partnerLossTimeout (hp : p < 36) (h : s.portUp p = true) : exec (.partnerLossTimeout p) s = .next (s.portLost p 1) :=
  onUnit_next (decide_eq_true hp) (if_pos h)

/-- A port in no trunk is closed, its loss is counted, and routes through it are held. -/
theorem State.portLost_loose (h : s.portUp p = true) (ht : s.inTrunk p = false) (reason : Nat) : s.portLost p reason =
    (let u := ((s.portClose p).updLink p (fun x => { x with lostAt := some s.mclk })).errCount (lnkPg p) LNK_LOSS_CNT 1
     (u.routesHold (u.portDev p)).linkEvent 0x21 p reason) := by
  simp only [State.portLost, h, ht, Bool.true_eq_false, if_false, if_true]

end

/-! ### The obligation -/

/-- Settles O32, by what each row does with the state, the settings and the record of its port. -/
theorem portTrainingAndLoss : Obligations.PortTrainingAndLoss := by
  intro s p hp pg
  refine ⟨fun strong half => ⟨exec_portTrain_stays hp strong half, fun h => ?trains⟩,
    fun h => ?fails, exec_holdDownExpire hp, fun v hh => ?settings, fun h => ⟨exec_partnerLossTimeout hp h, fun ht => State.portLost_loose h ht 1⟩,
    State.portState_portClose, State.fwdPool_portClose⟩
  case trains =>
    obtain ⟨state, strongShown, halfShown⟩ := State.stat_inTraining (s := s) (p := p) (strong := strong) (half := half)
    exact ⟨s.inTraining p strong half, exec_portTrain_trains hp strong half h, state, strongShown, halfShown, State.atLink_inTraining⟩
  case fails =>
    have row {u : State} (hu : s.trainFails p = u) : exec (.trainingFailure p) s = .next u := onUnit_next (decide_eq_true hp) hu
    exact ⟨fun few => row ((State.trainFails_eq h).trans (if_neg (Nat.not_le.mpr few))), fun many => row ((State.trainFails_eq h).trans (if_pos many))⟩
  case settings =>
    intro w t
    have kept : t.portState p = s.portState p := s.portState_lnkStored p w
    have row {u : State} (hu : s.lnkCtlSet p w = u) := State.lnkCtl_row hp hh hu
    refine ⟨fun h0 h4 h5 => ⟨fun held => ?_, fun loose => ?_, fun down => ?_⟩, fun h0 h4 h5 on down => ?_⟩
    · exact row ((State.lnkCtlSet_retrains h0 h4 h5).trans (if_pos (kept.trans held)))
    · exact row ((State.lnkCtlSet_retrains h0 h4 h5).trans (if_neg (kept.symm ▸ loose)))
    · exact State.portRetrain_down (kept.symm ▸ down) 6
    · exact row ((State.lnkCtlSet_disables h0 h4 h5 on).trans (State.enableClear_down (kept.symm ▸ down)))

end Sys2Proof.Machine
end

section
/-! SUPPORT. The device's identity, its route entries and route switches, requests that expire, and the snapshot of a client's counters. -/

namespace Sys2Proof.Machine

open Sys2Proof

section
variable {s : State}

/-! ### The identity of the device (R323) -/

/-- RTE_SELF holds the identity, and the entry of the device itself is LOCAL. -/
abbrev State.selfTaken (s : State) (d : Nat) : State :=
  ((s.set rtePg RTE_SELF_DEVICE d).set rtePg RTE_SELF_SET 1).updRoute (d % 4096) (fun r => { r with valid := true, state := 3 })

theorem State.selfSet_again (h : s.on rtePg RTE_SELF_SET = true) (d : Nat) : s.selfSet d = s := if_pos h

theorem State.selfSet_once (h : s.on rtePg RTE_SELF_SET = false) (d : Nat) : s.selfSet d = s.selfTaken d := if_neg (ne_true_of_eq_false h)

theorem exec_rteSelfWrite {v : Word} (hh : s.holds 0 .rte 0) {u : State} (hu : s.selfSet (written .rte RTE_SELF v) = u) :
    exec (.rteSelfWrite 0 v) s = .next (u.bumpSeq rtePg) := by
  refine (State.rowWrite_pf s _ _ v rfl).trans ?_
  rw [State.write_rteSelf v hh, hu]

/-! ### Route entries (R320, R321) -/

/-- The entry that RTE_SEL names. -/
abbrev State.routeSel (s : State) : Nat := s.get rtePg RTE_SEL_DEST

theorem exec_routeEntryWrite {v : Word} (hh : s.holds 0 .rte 0) {u : State} (hu : s.rteWrite v.toNat = u) :
    exec (.routeEntryWrite 0 v) s = .next (u.bumpSeq rtePg) := by
  refine (State.rowWrite_pf s _ _ v rfl).trans ?_
  rw [State.write_rteData v hh, written_whole (p := .rte) (o := RTE_DATA) rfl (by decide), hu]

variable {w : Nat}

theorem State.rteWrite_local (h : (s.atRoute s.routeSel).state = 3) : s.rteWrite w = s := if_pos h

section
variable (h : (s.atRoute s.routeSel).state ≠ 3)
include h

/-- In host-assisted mode the entry is stored, and its STATE follows from what is reached. -/
theorem State.rteWrite_assisted (hm : s.hostMode 5 = true) : s.rteWrite w = s.setRoute s.routeSel { s.atRoute s.routeSel with
    valid := bitOf w 0, next := bitsOf w 14 3, alt := bitsOf w 26 15, hops := bitsOf w 30 27, learned := false,
    state := if bitOf w 0 = false ∨ bitsOf w 30 27 = 15 then 0 else if s.reaches (bitsOf w 14 3) then 1 else if s.reaches (bitsOf w 26 15) then 2 else 0 } :=
  (if_neg h).trans (if_pos hm)

variable (hm : s.hostMode 5 = false)
include hm

theorem State.rteWrite_ignored (hv : bitOf w 0 = true ∨ (s.atRoute s.routeSel).valid = false) : s.rteWrite w = s :=
  (if_neg h).trans ((if_neg (ne_true_of_eq_false hm)).trans (if_pos hv))

theorem State.rteWrite_relearns (hv : (s.atRoute s.routeSel).valid = true) (hw : bitOf w 0 = false) : s.rteWrite w =
    (s.setRoute s.routeSel { s.atRoute s.routeSel with valid := false, state := 0, learned := false, hold := false }).learn s.routeSel :=
  (if_neg h).trans ((if_neg (ne_true_of_eq_false hm)).trans (if_neg (by simp [hv, hw])))

end

/-! ### Route switches (R322) -/

/-- The neighbour that an entry uses, and the other one. -/
abbrev Route.here (r : Route) : Nat := if r.state = 2 then r.alt else r.next
abbrev Route.other (r : Route) : Nat := if r.state = 2 then r.next else r.alt

/-- The requests that an entry held go on. -/
abbrev State.heldGoOn (s : State) (d : Nat) (r : Route) : State := r.held.foldl (fun t e => t.issueHeld d e) s

/-- The state to which an entry switches. -/
def State.switchTo (s : State) (r : Route) : Nat :=
  if s.reaches r.other = true ∧ r.other ≠ r.here then (if r.state = 2 then 1 else 2) else if s.reaches r.here then r.state else 0

section
variable {r : Route}

theorem State.switchTo_other (ho : s.reaches r.other = true) (hn : r.other ≠ r.here) : s.switchTo r = if r.state = 2 then 1 else 2 := if_pos ⟨ho, hn⟩

variable (ho : s.reaches r.other = false ∨ r.other = r.here)
include ho

theorem State.switchTo_not_other : s.switchTo r = if s.reaches r.here then r.state else 0 :=
  if_neg fun ⟨h, hn⟩ => ho.elim (ne_false_of_eq_true h) hn

theorem State.switchTo_here (hh : s.reaches r.here = true) : s.switchTo r = r.state := (State.switchTo_not_other ho).trans (if_pos hh)

theorem State.switchTo_nowhere (hh : s.reaches r.here = false ∨ r.state = 0) : s.switchTo r = 0 := by
  rw [State.switchTo_not_other ho]
  split
  next h => exact hh.resolve_left (ne_false_of_eq_true h)
  next => rfl

end

section
variable {d : Nat} (hd : d < 4096) (hh : (s.atRoute d).hold = true) (ht : s.toward d = false)
include hd hh ht

theorem exec_routeSwitch_keeps (h : s.switchTo (s.atRoute d) ≠ 0) : exec (.routeSwitch d) s =
    .next ((s.setRoute d { s.atRoute d with hold := false, state := s.switchTo (s.atRoute d), held := [] }).heldGoOn d (s.atRoute d)) := by
  refine onUnit_next (decide_eq_true hd) ((if_neg (by simp [hh, ht])).trans ?_)
  exact (if_neg h).trans (congrArg (fun u : State => u.heldGoOn d (s.atRoute d)) (if_neg h))

theorem exec_routeSwitch_breaks (h : s.switchTo (s.atRoute d) = 0) : exec (.routeSwitch d) s =
    .next ((((s.setRoute d { s.atRoute d with hold := false, state := 0, held := [] }).absent d none).heldGoOn d (s.atRoute d)).learn d) := by
  refine onUnit_next (decide_eq_true hd) ((if_neg (by simp [hh, ht])).trans ((if_pos h).trans ?_))
  refine (congrArg (fun u : State => (u.heldGoOn d (s.atRoute d)).learn d) ((if_pos h).trans ?_))
  exact congrArg (fun n => (s.setRoute d { s.atRoute d with hold := false, state := n, held := [] }).absent d none) h

end

/-! ### Requests that expire (R310) -/

theorem exec_requestExpire {tag : Nat} {r : LinkReq} (ht : tag < 65536) (hr : Tab.get none s.reqs tag = some r) : exec (.requestExpire tag) s =
    .next (if r.dead = true then { s with reqs := Tab.put none tag none s.reqs }
      else { s with reqs := Tab.put none tag none s.reqs }.reqFails r codeLinkLost 2 r.port 0) := by
  refine onUnit_next (decide_eq_true ht) ?_
  simp only [hr]

/-! ### The snapshot of a client's counters (R348) -/

theorem exec_counterSnapshot {v : Word} (hh : s.holds 0 .rgl1 0) :
    exec (.counterSnapshot 0 v) s = .next ((s.counterSnapshot (written .rgl1 RGL_CNT_SEL v)).bumpSeq rglFwd) := by
  refine (State.rowWrite_pf s _ _ v rfl).trans ?_
  rw [State.write_cntSel v hh]

/-- The fields of RGL_CNT_SEL fill its low 15 bits. -/
theorem written_cntSel_lt (v : Word) : written .rgl1 RGL_CNT_SEL v < 2 ^ 15 :=
  Nat.lt_of_le_of_lt (m := 2 ^ 15 - 1) Nat.and_le_right (by decide)

/-- A pair reads the low 64 bits of what was stored. -/
theorem State.rd64_wr64_mod (s : State) (a v : Nat) : (s.wr64 a v).rd64 a = v % 2 ^ 64 := by
  rw [State.rd64, State.wr64_eq, State.rd_wr_self, State.rd_wr_ne _ _ _ (by omega), State.rd_wr_self]
  omega

theorem State.rd_wr64_ne (s : State) {a v b : Nat} (h : b < a ∨ a + 4 < b) : (s.wr64 a v).rd b = s.rd b :=
  (State.rd_wr_ne _ _ _ (by omega)).trans (State.rd_wr_ne _ _ _ (by omega))

theorem State.rd64_wr64_ne (s : State) {a v b : Nat} (h : b + 4 < a ∨ a + 4 < b) : (s.wr64 a v).rd64 b = s.rd64 b :=
  State.rd64_congr (State.rd_wr64_ne _ (by omega)) (State.rd_wr64_ne _ (by omega))

/-- The first `n` pairs of counters stored from `a` on: of class `i` the bytes `b i`, then the stalls `c i`. -/
def State.countersStored (s : State) (a : Nat) (b c : Nat → Nat) (n : Nat) : State :=
  (List.range n).foldl (fun t i => (t.wr64 (a + 16 * i) (b i)).wr64 (a + 16 * i + 8) (c i)) s

section
variable (s) (a : Nat) (b c : Nat → Nat)

theorem State.countersStored_succ (n : Nat) :
    s.countersStored a b c (n + 1) = ((s.countersStored a b c n).wr64 (a + 16 * n) (b n)).wr64 (a + 16 * n + 8) (c n) := by
  show (List.range (n + 1)).foldl _ s = _
  rw [List.range_succ, List.foldl_append]
  rfl

theorem State.rd_countersStored (n : Nat) {o : Nat} (h : o < a) : (s.countersStored a b c n).rd o = s.rd o := by
  induction n with
  | zero => rfl
  | succ n ih => rw [State.countersStored_succ, State.rd_wr64_ne _ (by omega), State.rd_wr64_ne _ (by omega), ih]

/-- Each pair reads as it was stored. -/
theorem State.rd64_countersStored (n : Nat) {i : Nat} (h : i < n) : (s.countersStored a b c n).rd64 (a + 16 * i) = b i % 2 ^ 64 ∧
    (s.countersStored a b c n).rd64 (a + 16 * i + 8) = c i % 2 ^ 64 := by
  induction n with
  | zero => omega
  | succ n ih =>
    rw [State.countersStored_succ]
    by_cases last : i = n
    · rw [last, State.rd64_wr64_ne _ (by omega), State.rd64_wr64_mod, State.rd64_wr64_mod]
      exact ⟨rfl, rfl⟩
    · rw [State.rd64_wr64_ne _ (by omega), State.rd64_wr64_ne _ (by omega), State.rd64_wr64_ne _ (by omega), State.rd64_wr64_ne _ (by omega)]
      exact ih (by omega)

theorem State.regls_countersStored (n : Nat) : (s.countersStored a b c n).regls = s.regls := by
  induction n with
  | zero => rfl
  | succ n ih => rwa [State.countersStored_succ]

end

/-- BLK_SEQ is not among the counters. -/
theorem State.rd64_bumpSeq (s : State) {pg a : Nat} (h : pg + 0x024 < a) : (s.bumpSeq pg).rd64 a = s.rd64 a :=
  State.rd64_wr_ne _ (by omega)

end

/-! ### The obligation -/

/-- Settles O33, by what each row does with the identity, the entry, the tag or the counters. -/
theorem routesAndRequests : Obligations.RoutesAndRequests := by
  intro s
  refine ⟨fun v hh => ⟨fun on => exec_rteSelfWrite hh (State.selfSet_again on _), fun off => exec_rteSelfWrite hh (State.selfSet_once off _)⟩,
    fun v hh => ⟨fun h => exec_routeEntryWrite hh (State.rteWrite_local h), fun h hm => exec_routeEntryWrite hh (State.rteWrite_assisted h hm),
      fun h hm hv hw => exec_routeEntryWrite hh (State.rteWrite_relearns h hm hv hw), fun h hm hv => exec_routeEntryWrite hh (State.rteWrite_ignored h hm hv)⟩,
    fun d hd hh ht => ?switch, rfl,
    fun tag r ht hr => ⟨fun dead => (exec_requestExpire ht hr).trans (congrArg _ (if_pos dead)),
      fun live => (exec_requestExpire ht hr).trans (congrArg _ (if_neg (ne_true_of_eq_false live)))⟩, fun v hh => ?snapshot⟩
  case switch =>
    intro r here other goOn
    refine ⟨fun ho hn => ?_, fun ho hh' h0 => ?_, fun ho hh' => exec_routeSwitch_breaks hd hh ht (State.switchTo_nowhere ho hh')⟩
    · have moves := State.switchTo_other (r := r) ho hn
      rw [exec_routeSwitch_keeps hd hh ht (by rw [moves]; split <;> decide), moves]
    · have stays := State.switchTo_here (r := r) ho hh'
      rw [exec_routeSwitch_keeps hd hh ht (stays.symm ▸ h0), stays]
  case snapshot =>
    intro u r c x
    have stored : s.counterSnapshot (written .rgl1 RGL_CNT_SEL v) =
        u.countersStored (rglFwd + RGL_CNT_DATA) (fun i => Tab.get 0 x.bytes (c * 3 + i)) (fun i => Tab.get 0 x.stalls (c * 3 + i)) 3 := by
      rw [State.counterSnapshot, Nat.mod_eq_of_lt (written_cntSel_lt v)]
      rfl
    refine ⟨_, exec_counterSnapshot hh, ?_, ?_, fun i hi => ?_⟩
    all_goals rw [stored]
    · exact (State.rd_wr_ne _ _ _ (by decide)).trans (State.rd_countersStored _ _ _ _ _ (by decide))
    · exact (State.wr_regls ..).trans (State.regls_countersStored ..)
    · have past : 0x024 < RGL_CNT_DATA := by decide
      obtain ⟨bytes, stalls⟩ := u.rd64_countersStored (rglFwd + RGL_CNT_DATA) (fun i => Tab.get 0 x.bytes (c * 3 + i)) (fun i => Tab.get 0 x.stalls (c * 3 + i)) 3 hi
      exact ⟨(State.rd64_bumpSeq _ (by omega)).trans bytes, (State.rd64_bumpSeq _ (by omega)).trans stalls⟩

end Sys2Proof.Machine
end

section
/-! SUPPORT. Messages between the two ends of a port: heartbeats, the partner's state, and the binding of a port to a span. -/

namespace Sys2Proof.Machine

open Sys2Proof

/-! ### A message of the port's own (R301, R304, R308) -/

/-- A transaction taken as a management message of opcode `n`. -/
abbrev asMgmt (t : Txn) (n : Nat) : Txn := { t with op := n, cls := 3 }

/-- The state once a management message of opcode `n` has left the receive buffer of port `p`: its credits are owed to the partner (R305). -/
abbrev State.delivered (s : State) (p : Nat) (t : Txn) (n : Nat) : State := s.updLink p (fun x => x.owe (asMgmt t n))

section
variable {s : State} {p : Nat} {t : Txn}

theorem State.atLink_delivered (n : Nat) : (s.delivered p t n).atLink p = (s.atLink p).owe (asMgmt t n) :=
  (State.atLink_updLink ..).trans (if_pos rfl)

/-- The arrival of a message changes what its port owes, and no other field of the port. -/
theorem State.link_delivered {α : Type} (n : Nat) (f : LinkSt → α) (hf : ∀ (x : LinkSt) o, f { x with owed := o } = f x) :
    f ((s.delivered p t n).atLink p) = f (s.atLink p) :=
  (congrArg f (State.atLink_delivered n)).trans (hf ..)

section
variable {n : Nat} {f : State → Txn → State} (hp : p < 36) (ht : txnOk t = true) (hk : knownOp t.op = true)
include hp ht hk

/-- A message that a data block carries is taken on a port that is UP. -/
theorem State.arrive_mgmt (h : s.portUp p = true) : s.arrive p t n 3 f = .next (f (s.delivered p t n) (asMgmt t n)) := by
  have up : s.portState p = 3 := beq_iff_eq.mp h
  refine onUnit_next (by simp [hp, ht]) ?_
  simp [up, State.firstData_of_portUp h, h, hk]

/-- A message that a DATA_CLEAR block may carry is taken on every port that is neither DOWN nor HELD. -/
theorem State.arriveClear_takes (h : ¬ (s.portState p = 0 ∨ s.portState p = 4)) : s.arriveClear p t n f = .next (f (s.delivered p t n) (asMgmt t n)) := by
  refine onUnit_next (by simp [hp, ht]) ((if_neg h).trans ?_)
  simp [hk]

end

end

/-! ### The partner of a port (R318, R330) -/

section
variable {s : State} {p : Nat}

/-- The partner's identity, port and INCARN are shown. -/
abbrev State.partnerShown (s : State) (p dev port incarn : Nat) : State :=
  ((s.set (lnkPg p) LNK_PARTNER_DEVICE dev).set (lnkPg p) LNK_PARTNER_PORT port).wr (lnkPg p + LNK_INCARN) incarn

theorem State.partnerIs_same {dev port incarn : Nat} (h : s.rd (lnkPg p + LNK_INCARN) = incarn) :
    s.partnerIs p dev port incarn = s.partnerShown p dev port incarn := by
  simp [State.partnerIs, h]

theorem State.get_partnerShown {dev port incarn : Nat} {f : F} (h : f.off ≠ LNK_PARTNER ∧ f.off ≠ LNK_INCARN) :
    (s.partnerShown p dev port incarn).get (lnkPg p) f = s.get (lnkPg p) f := by
  rw [State.get_wr_ne _ _ _ _ _ (by omega), State.get_set_page _ _ _ _ h.1, State.get_set_page _ _ _ _ h.1]

theorem State.portDev_partnerShown {port incarn : Nat} : (s.partnerShown p (s.portDev p) port incarn).portDev p = s.portDev p := by
  rw [State.portDev, State.get_wr_ne _ _ _ _ _ (by simp [LNK_PARTNER_DEVICE, LNK_INCARN])]
  simp (disch := decide) only [State.get_set_disjoint, State.get_set_self]
  exact Nat.mod_eq_of_lt (bitsOf_lt ..)

/-- A heartbeat of the present INCARN counts the trunk's blocks that the partner has taken. -/
theorem State.acked_heartIn {t : Txn} (h : s.rd (lnkPg p + LNK_INCARN) = leAt t.payload 0 4) (hi : s.inTrunk p = true) :
    ((s.heartIn p t).atTrunk (s.trunkKey p)).acked = leAt t.payload 4 4 := by
  rw [State.heartIn, State.partnerIs_same h]
  generalize hv : s.partnerShown p (s.portDev p) _ _ = v
  have stat {f : F} (hf : f.off = LNK_STAT) : v.get (lnkPg p) f = s.get (lnkPg p) f := by
    rw [← hv, State.get_partnerShown (by rw [hf]; decide)]
  have dev : v.portDev p = s.portDev p := by rw [← hv, State.portDev_partnerShown]
  have trunk : v.inTrunk p = true := by
    rw [← hi]
    simp only [State.inTrunk, State.portUp, State.portState, State.on_eq, stat (f := LNK_STAT_STATE) rfl, stat (f := LNK_STAT_BOUND) rfl, stat (f := LNK_STAT_FWD_POOL) rfl]
  have key : v.trunkKey p = s.trunkKey p := by
    rw [State.trunkKey, State.trunkKey, dev, State.on, State.on, stat (f := LNK_STAT_BOUND) rfl, stat (f := LNK_STAT_PARTITION) rfl,
      stat (f := LNK_STAT_SPAN_SLOT) rfl]
  have counted (a : State) (k n : Nat) : ((a.updTrunk k (fun x => { x with acked := n })).atTrunk k).acked = n := by
    rw [State.atTrunk_updTrunk, if_pos rfl]
  simp only [trunk, if_true, key]
  exact counted ..

end

/-! ### What the security engine holds does not depend on the links -/

section
variable (s : State)

theorem State.sec_transmit (p : Nat) (t : Txn) : (s.transmit p t).sec = s.sec := by
  unfold State.transmit State.toStream
  dsimp only
  split
  · split <;> rfl
  · rfl

theorem State.sec_advertise (ds : List Nat) : (s.advertise ds).sec = s.sec := by
  unfold State.advertise
  split
  · rfl
  · exact foldl_keeps State.sec (fun _ _ => foldl_keeps State.sec (fun _ _ => State.sec_transmit ..) _ _) _ s

theorem State.sec_reachEvent (d : Nat) (up : Bool) : (s.reachEvent d up).sec = s.sec :=
  State.field_of_sansEvents (State.event_sansEvents ..) State.sec fun _ => rfl

theorem State.sec_setRoute (d : Nat) (r : Route) : (s.setRoute d r).sec = s.sec := by
  unfold State.setRoute
  dsimp only
  split <;> split
  · rfl
  · exact State.sec_reachEvent ..
  · exact State.sec_advertise ..
  · exact (State.sec_advertise ..).trans (State.sec_reachEvent ..)

theorem State.sec_learn (d : Nat) : (s.learn d).sec = s.sec := by
  unfold State.learn
  dsimp only
  split
  · rfl
  · split
    · rfl
    · exact State.sec_setRoute ..

theorem State.sec_newIncarn (nb : Nat) : (s.newIncarn nb).sec = s.sec := by
  unfold State.newIncarn
  refine foldl_keeps State.sec (fun u d => ?_) _ _
  dsimp only
  split
  · exact (State.sec_learn ..).trans (State.sec_setRoute ..)
  · rfl

theorem State.sec_partnerIs (p dev port incarn : Nat) : (s.partnerIs p dev port incarn).sec = s.sec := by
  unfold State.partnerIs
  dsimp only
  split
  · exact State.sec_newIncarn ..
  · rfl

end

/-! ### The partner's state (R323, R324, R326, R383) -/

section
variable {s : State} {p : Nat} {t : Txn}

/-- The partner goes down, and an UP port is lost at once. -/
theorem State.stateIn_lost (ha : t.aux = 1 ∨ t.aux = 2) (h : s.portUp p = true) : s.stateIn p t = s.portLost p (3 + t.aux) := (if_pos ha).trans (if_pos h)

/-- A TRAINING port whose partner has named itself. -/
abbrev State.partnerNamed (s : State) (p : Nat) (t : Txn) : State := s.partnerIs p t.src (leAt t.payload 4 1 % 64) (leAt t.payload 0 4)

section
variable (ha : t.aux = 0) (h : s.portState p = 1)
include ha h

theorem State.stateIn_eq : s.stateIn p t = if t.src = (s.partnerNamed p t).self ∨ s.sec.entropyBad = true then (s.partnerNamed p t).trainFails p
    else ((((s.partnerNamed p t).set (lnkPg p) LNK_STAT_STATE 2).sendMgmt p { op := 0x26, payload := ownChain }).sendOffer p) := by
  have up : ¬ (t.aux = 1 ∨ t.aux = 2) := by omega
  rw [State.stateIn, if_neg up, if_neg (not_not.mpr h), ← State.sec_partnerIs s p t.src (leAt t.payload 4 1 % 64) (leAt t.payload 0 4)]

end

/-! ### Binding requests and their answers (R257, R331, R332) -/

/-- Whether the port is bound, or being bound, to the span that a request names. -/
abbrev State.sameSpan (s : State) (p : Nat) (t : Txn) : Prop := s.boundSpan p t.span = true ∧ t.span ≠ 0

theorem State.bindReqIn_retired (h : s.capState 3 p = 2) : s.bindReqIn p t = s.sendMgmt p { op := 0x24, aux := 2 } := if_pos h

section
variable (hc : s.capState 3 p ≠ 2)
include hc

theorem State.bindReqIn_same (hs : s.sameSpan p t) : s.bindReqIn p t = s.sendMgmt p { op := 0x23 } := (if_neg hc).trans (if_pos hs.symm)

variable (hs : ¬ s.sameSpan p t)
include hs

theorem State.bindReqIn_other : s.bindReqIn p t = if s.on (lnkPg p) LNK_STAT_BOUND = true then s.sendMgmt p { op := 0x24, aux := 1 }
    else if (s.atLink p).bindBy ≠ [] ∧ s.self < s.portDev p then s.sendMgmt p { op := 0x24, aux := 1 }
    else ((s.atLink p).bindBy.foldl (fun a part => a.bindFails part 0x0B) s).updLink p (fun x => { x with bindReq := t.span }) :=
  (if_neg hc).trans (if_neg fun h => hs h.symm)

theorem State.bindReqIn_bound (hb : s.on (lnkPg p) LNK_STAT_BOUND = true) : s.bindReqIn p t = s.sendMgmt p { op := 0x24, aux := 1 } :=
  (State.bindReqIn_other hc hs).trans (if_pos hb)

variable (hb : s.on (lnkPg p) LNK_STAT_BOUND = false)
include hb

/-- The lower identity keeps its own bindings. -/
theorem State.bindReqIn_keeps (hl : (s.atLink p).bindBy ≠ []) (hd : s.self < s.portDev p) : s.bindReqIn p t = s.sendMgmt p { op := 0x24, aux := 1 } :=
  (State.bindReqIn_other hc hs).trans ((if_neg (ne_true_of_eq_false hb)).trans (if_pos ⟨hl, hd⟩))

/-- The request is held, and bindings of this end's own have failed. -/
theorem State.bindReqIn_held (h : ¬ ((s.atLink p).bindBy ≠ [] ∧ s.self < s.portDev p)) : s.bindReqIn p t =
    ((s.atLink p).bindBy.foldl (fun a part => a.bindFails part 0x0B) s).updLink p (fun x => { x with bindReq := t.span }) :=
  (State.bindReqIn_other hc hs).trans ((if_neg (ne_true_of_eq_false hb)).trans (if_neg h))

end

theorem State.bindAckIn_none (h : s.binding p = none) : s.bindAckIn p = s := by simp only [State.bindAckIn, h]

theorem State.bindRefuseIn_none (h : s.binding p = none) : s.bindRefuseIn p t = s := by simp only [State.bindRefuseIn, h]

section
variable {part : Nat} (h : s.binding p = some part)
include h

theorem State.bindRefuseIn_some : s.bindRefuseIn p t = s.bindFails part (if t.aux = 2 then 0x0A else 0x0B) := by
  simp only [State.bindRefuseIn, h]
  rfl

theorem State.bindAckIn_bound (hb : s.on (lnkPg p) LNK_STAT_BOUND = true) : s.bindAckIn p = s.bindFails part 0x0A := by
  simp only [State.bindAckIn, h, if_pos hb]
  rfl

theorem State.bindAckIn_binds (hb : s.on (lnkPg p) LNK_STAT_BOUND = false) : s.bindAckIn p =
    ((((s.updLink p (fun x => { x with bindBy := x.bindBy.drop 1 })).bindPort p part (s.atRebind part).slot (s.atRebind part).span).rebindEnd part
      0).neighbourUp (s.portDev p)) := by
  simp only [State.bindAckIn, h, if_neg (ne_true_of_eq_false hb)]

end

theorem State.atLink_unbindIn : (s.unbindIn p).atLink p =
    { s.atLink p with bindReq := 0, draining := if s.on (lnkPg p) LNK_STAT_BOUND then true else (s.atLink p).draining } := by
  have kept : (s.updLink p (fun x => { x with bindReq := 0 })).on (lnkPg p) LNK_STAT_BOUND = s.on (lnkPg p) LNK_STAT_BOUND := rfl
  rw [State.unbindIn, kept]
  cases s.on (lnkPg p) LNK_STAT_BOUND <;> simp [State.atLink_updLink]

theorem State.unbindIn_frame : ∃ l, s.unbindIn p = { s with links := l } := by
  rw [State.unbindIn]
  split
  · exact ⟨_, rfl⟩
  · exact ⟨_, rfl⟩

end

/-! ### The six rows -/

section
variable {s : State} {p : Nat} {t : Txn}

theorem State.binding_delivered (n : Nat) : (s.delivered p t n).binding p = s.binding p := State.link_delivered n (fun x => x.bindBy.head?) fun _ _ => rfl

theorem State.sameSpan_delivered (n : Nat) : (s.delivered p t n).sameSpan p (asMgmt t n) ↔ s.sameSpan p t := by
  have span : (s.delivered p t n).boundSpan p t.span = s.boundSpan p t.span := State.link_delivered n (fun x =>
    (s.on (lnkPg p) LNK_STAT_BOUND && x.bindTo == t.span) || x.bindBy.any (fun q => (s.atRebind q).span == t.span)) fun _ _ => rfl
  exact and_congr_left' (iff_of_eq (congrArg (· = true) span))

variable (hp : p < 36) (ht : txnOk t = true) (hk : knownOp t.op = true)
include hp ht hk

theorem exec_partnerState (h : ¬ (s.portState p = 0 ∨ s.portState p = 4)) :
    exec (.partnerState p t) s = .next ((s.delivered p t 0x21).stateIn p (asMgmt t 0x21)) := State.arriveClear_takes (f := fun s t => s.stateIn p t) hp ht hk h

variable (hu : s.portUp p = true)
include hu

theorem exec_heartbeat : exec (.heartbeat p t) s = .next ((s.delivered p t 0x20).heartIn p (asMgmt t 0x20)) := State.arrive_mgmt (f := fun s t => s.heartIn p t) hp ht hk hu

theorem exec_bindReq : exec (.bindReq p t) s = .next ((s.delivered p t 0x22).bindReqIn p (asMgmt t 0x22)) := State.arrive_mgmt (f := fun s t => s.bindReqIn p t) hp ht hk hu

theorem exec_bindAck : exec (.bindAck p t) s = .next ((s.delivered p t 0x23).bindAckIn p) := State.arrive_mgmt (f := fun s _ => s.bindAckIn p) hp ht hk hu

theorem exec_bindRefuse : exec (.bindRefuse p t) s = .next ((s.delivered p t 0x24).bindRefuseIn p (asMgmt t 0x24)) := State.arrive_mgmt (f := fun s t => s.bindRefuseIn p t) hp ht hk hu

theorem exec_unbind : exec (.unbind p t) s = .next ((s.delivered p t 0x25).unbindIn p) := State.arrive_mgmt (f := fun s _ => s.unbindIn p) hp ht hk hu

end

/-! ### The obligation -/

/-- Settles O37, by what each message does at the port that takes it. -/
theorem portMessagesArrive : Obligations.PortMessagesArrive := by
  intro s p t hp ht hk u pg x
  refine ⟨fun up => ?up, fun trains ha => ?training⟩
  case up =>
    have req {v : State} (h : (u 0x22).bindReqIn p (asMgmt t 0x22) = v) := (exec_bindReq hp ht hk up).trans (congrArg _ h)
    have ack {v : State} (h : (u 0x23).bindAckIn p = v) := (exec_bindAck hp ht hk up).trans (congrArg _ h)
    have refuse {v : State} (h : (u 0x24).bindRefuseIn p (asMgmt t 0x24) = v) := (exec_bindRefuse hp ht hk up).trans (congrArg _ h)
    have bindBy : ((u 0x22).atLink p).bindBy = x.bindBy := State.link_delivered 0x22 LinkSt.bindBy fun _ _ => rfl
    have binding (n : Nat) {b : Option Nat} (h : s.binding p = b) : (u n).binding p = b := (State.binding_delivered n).trans h
    refine ⟨exec_heartbeat hp ht hk up, fun hi hm => State.acked_heartIn (s := u 0x20) hi hm, fun ha => ?lost, fun hc => req (State.bindReqIn_retired hc),
      fun hc hs hb => req (State.bindReqIn_same hc ((State.sameSpan_delivered 0x22).mpr ⟨hb, hs⟩)), fun hc hs => ?request,
      fun h => ⟨ack (State.bindAckIn_none (binding _ h)), refuse (State.bindRefuseIn_none (binding _ h))⟩,
      fun part h => ⟨fun hb => ack (State.bindAckIn_bound (binding _ h) hb), fun hb => ack (State.bindAckIn_binds (binding _ h) hb),
        refuse (State.bindRefuseIn_some (binding _ h))⟩, ?unbind⟩
    case lost =>
      have state : s.portState p = 3 := beq_iff_eq.mp up
      exact (exec_partnerState hp ht hk (by omega)).trans (congrArg _ (State.stateIn_lost (t := asMgmt t 0x21) ha up))
    case request =>
      have other := mt (State.sameSpan_delivered 0x22).mp hs
      have held (hb : s.on pg LNK_STAT_BOUND = false) (h : ¬ (x.bindBy ≠ [] ∧ s.self < s.portDev p)) : exec (.bindReq p t) s =
          .next ((x.bindBy.foldl (fun a part => a.bindFails part 0x0B) (u 0x22)).updLink p (fun x => { x with bindReq := t.span })) := by
        rw [← bindBy] at h ⊢
        exact req (State.bindReqIn_held hc other hb h)
      refine ⟨fun hb => req (State.bindReqIn_bound hc other hb), fun hb => ⟨fun hl => ?_, fun hl hd => ?_, fun hl hd => held hb fun h => hd h.2⟩⟩
      · exact (held hb fun h => h.1 hl).trans (by rw [hl]; rfl)
      · exact req (State.bindReqIn_keeps hc other hb (bindBy.symm ▸ hl) hd)
    case unbind =>
      obtain ⟨l, frame⟩ := State.unbindIn_frame (s := u 0x25) (p := p)
      refine ⟨_, exec_unbind hp ht hk up, ?_, ?_, ?_, ?_⟩
      · rw [State.atLink_unbindIn]
      · rw [State.atLink_unbindIn]
        exact congrArg (fun b => if s.on pg LNK_STAT_BOUND then true else b) (State.link_delivered 0x25 LinkSt.draining fun _ _ => rfl)
      · rw [frame]
        rfl
      · rw [frame]
        exact ⟨fun _ => rfl, fun _ => rfl, fun _ => rfl⟩
  case training =>
    intro v
    have row := (exec_partnerState hp ht hk (by omega)).trans (congrArg _ (State.stateIn_eq (s := u 0x21) (t := asMgmt t 0x21) ha trains))
    refine ⟨fun h => row.trans (congrArg _ (if_pos h)), fun hd he => row.trans (congrArg _ (if_neg ?_))⟩
    exact fun h => h.elim hd (ne_true_of_eq_false he)

end Sys2Proof.Machine
end

section
/-! SUPPORT. The keying of a port, the re-forming of a trunk, and what a neighbour advertises. -/

namespace Sys2Proof.Machine

open Sys2Proof

section
variable {s : State} {p : Nat} {t : Txn}

/-- A field of a port's record that a change keeps, at every port. -/
theorem State.link_updLink {α : Type} {f : LinkSt → LinkSt} (g : LinkSt → α) (m : Nat) (hf : ∀ x, g (f x) = g x) :
    g ((s.updLink p f).atLink m) = g (s.atLink m) := by
  rw [State.atLink_updLink]
  split
  next h => rw [hf, h]
  next => rfl

/-! ### Keying (R324) -/

section
variable (h : s.portState p = 2) (hx : (s.atLink p).keyed = false)
include h hx

theorem State.certIn_keying : s.certIn p t = if Config.chainVerify t.payload = true then
    (s.updLink p (fun x => { x with chain := t.payload, certOk := true })).proofOut p else s.trainFails p := by
  have keying : ¬ (s.portState p ≠ 2 ∨ (s.atLink p).keyed = true) := by simp [h, hx]
  rw [State.certIn, if_neg keying]
  cases Config.chainVerify t.payload <;> rfl

theorem State.offerIn_keying : s.offerIn p t = (s.updLink p (fun x => { x with offer := t.payload.take 129 })).proofOut p := if_pos ⟨h, hx⟩

end

/-- A proof is good when the partner's chain and both offers are there, and it verifies against the leaf key and the transcript. -/
def State.goodProof (s : State) (p : Nat) (t : Txn) : Prop :=
  (s.atLink p).certOk = true ∧ (s.atLink p).offer ≠ [] ∧ (s.atLink p).ownOffer ≠ [] ∧
    Config.ecdsaVerify (Config.leafKey (s.atLink p).chain) (s.transcript p) (t.payload.take 96) = true

theorem State.goodProof_iff : ((s.atLink p).certOk && !(s.atLink p).offer.isEmpty && !(s.atLink p).ownOffer.isEmpty &&
    Config.ecdsaVerify (Config.leafKey (s.atLink p).chain) (s.transcript p) (t.payload.take 96)) = true ↔ s.goodProof p t := by
  show _ ↔ _ ∧ _ ∧ _ ∧ _
  simp only [Bool.and_eq_true, Bool.not_eq_true', List.isEmpty_eq_false_iff, ne_eq, and_assoc]

section
variable (h : s.portState p = 2) (hx : (s.atLink p).keyed = false)
include h hx

/-- A good proof installs keys for both directions, and the offers are forgotten. -/
theorem State.proofIn_good (hg : s.goodProof p t) : s.proofIn p t =
    s.updLink p (fun x => { x.newTxKey with keyed := true, rxKey := x.rxKey + 1, ownOffer := [], offer := [] }) :=
  (if_pos ⟨h, hx⟩).trans (if_pos (State.goodProof_iff.mpr hg))

theorem State.proofIn_bad (hg : ¬ s.goodProof p t) : s.proofIn p t = s.trainFails p :=
  (if_pos ⟨h, hx⟩).trans (if_neg (mt State.goodProof_iff.mp hg))

end

/-! ### A trunk that re-forms (R319) -/

/-- The port's trunk blocks may be taken again. -/
abbrev State.syncHeard (s : State) (p : Nat) : State := s.updLink p (fun x => { x with syncWait := false })

/-- What a port's replay buffer holds counts no longer as its trunk's. -/
abbrev LinkSt.untrunked (x : LinkSt) : LinkSt := { x with replay := x.replay.map (fun b => ({ b with ord := none } : RepBlk)) }

/-- The replay buffers of the ports of a list are no longer the trunk's. -/
abbrev State.untrunk (s : State) (l : List Nat) : State := l.foldl (fun u m => u.updLink m LinkSt.untrunked) s

/-- The trunk of key `k` resumes at the partner's count `n`, once port `p` has heard of it. -/
def State.trunkResumed (s : State) (p k n : Nat) : State := ((s.syncHeard p).untrunk (s.members k)).updTrunk k (fun x => x.resume n)

theorem State.syncIn_loose (h : s.inTrunk p = false) : s.syncIn p t = s := if_pos h

section
variable (h : s.inTrunk p = true)
include h

theorem State.syncIn_heard (hs : (s.atTrunk (s.trunkKey p)).sync = false) : s.syncIn p t = s.syncHeard p :=
  (if_neg (ne_false_of_eq_true h)).trans (if_pos hs)

theorem State.syncIn_resumes (hs : (s.atTrunk (s.trunkKey p)).sync = true) : s.syncIn p t = s.trunkResumed p (s.trunkKey p) (t.aux % 2 ^ 32) :=
  (if_neg (ne_false_of_eq_true h)).trans (if_neg (ne_false_of_eq_true hs))

end

theorem State.untrunk_frame (l : List Nat) : ∃ k, s.untrunk l = { s with links := k } := by
  induction l generalizing s with
  | nil => exact ⟨_, rfl⟩
  | cons m l ih => exact ih (s := s.updLink m LinkSt.untrunked)

/-- A port of the list keeps no block of a trunk, any other port its record. -/
theorem State.atLink_untrunk (l : List Nat) (m : Nat) : (s.untrunk l).atLink m = if m ∈ l then (s.atLink m).untrunked else s.atLink m := by
  induction l generalizing s with
  | nil => rfl
  | cons a l ih =>
    refine (ih (s := s.updLink a LinkSt.untrunked)).trans ?_
    rw [State.atLink_updLink]
    by_cases ha : m = a
    · subst ha
      simp [LinkSt.untrunked]
    · simp [ha]

section
variable {k n : Nat}

theorem State.trunkResumed_frame : ∃ l, s.trunkResumed p k n = { s with links := l }.updTrunk k (fun x => x.resume n) := by
  obtain ⟨l, hl⟩ := (s.syncHeard p).untrunk_frame (s.members k)
  exact ⟨l, congrArg (·.updTrunk k (fun x => x.resume n)) hl⟩

theorem State.atTrunk_trunkResumed : (s.trunkResumed p k n).atTrunk k = (s.atTrunk k).resume n := by
  obtain ⟨l, hl⟩ := s.trunkResumed_frame (p := p) (k := k) (n := n)
  rw [hl, State.atTrunk_updTrunk, if_pos rfl]
  rfl

theorem State.atLink_trunkResumed (m : Nat) : (s.trunkResumed p k n).atLink m =
    if m ∈ s.members k then ((s.syncHeard p).atLink m).untrunked else (s.syncHeard p).atLink m :=
  (s.syncHeard p).atLink_untrunk (s.members k) m

theorem State.replay_trunkResumed {m : Nat} (hm : m ∈ s.members k) :
    ((s.trunkResumed p k n).atLink m).replay = (s.atLink m).replay.map (fun b => ({ b with ord := none } : RepBlk)) := by
  rw [State.atLink_trunkResumed, if_pos hm]
  exact congrArg (List.map _) (State.link_updLink LinkSt.replay m fun _ => by rfl)

theorem State.syncWait_trunkResumed : ((s.trunkResumed p k n).atLink p).syncWait = false := by
  have heard : ((s.syncHeard p).atLink p).syncWait = false := by rw [State.atLink_updLink, if_pos rfl]
  rw [State.atLink_trunkResumed]
  split <;> exact heard

theorem State.trunkResumed_regs : (s.trunkResumed p k n).regs = s.regs := by
  obtain ⟨l, hl⟩ := s.trunkResumed_frame (p := p) (k := k) (n := n)
  rw [hl]
  rfl

theorem State.trunkResumed_sameBytes : s.sameBytes (s.trunkResumed p k n) := by
  obtain ⟨l, hl⟩ := s.trunkResumed_frame (p := p) (k := k) (n := n)
  rw [hl]
  exact ⟨fun _ => rfl, fun _ => rfl, fun _ => rfl⟩

end

/-! ### Routes that a neighbour advertises (R321) -/

theorem State.advIn_assisted (h : s.hostMode 5 = true) : s.advIn p t = s := if_pos h

/-- What a neighbour says of one entry: its hops, 15 withdrawing the route. -/
abbrev Route.advised (r : Route) (nb hops : Nat) : Route :=
  { r with adv := (r.adv.filter (fun a => a.1 != nb)) ++ (if hops = 15 then [] else [(nb, hops)]) }

theorem State.advIn_one (h : s.hostMode 5 = false) (ha : t.aux = 1) (hl : 2 ≤ t.payload.length) : s.advIn p t =
    (s.updRoute (leAt t.payload 0 2 % 4096) (fun r => r.advised (s.portDev p) (leAt t.payload 0 2 / 4096))).learn (leAt t.payload 0 2 % 4096) := by
  have one : min t.aux (t.payload.length / 2) = 1 := by omega
  rw [State.advIn, if_neg (ne_true_of_eq_false h), one]
  rfl

/-! ### The six rows -/

theorem State.transcript_delivered (n : Nat) : (s.delivered p t n).transcript p = s.transcript p := by
  rw [State.transcript, State.atLink_delivered]
  rfl

theorem State.goodProof_delivered (n : Nat) : (s.delivered p t n).goodProof p (asMgmt t n) ↔ s.goodProof p t := by
  show _ ∧ _ ∧ _ ∧ _ ↔ _
  rw [State.transcript_delivered, State.atLink_delivered]
  rfl

section
variable (hp : p < 36) (ht : txnOk t = true) (hk : knownOp t.op = true)
include hp ht hk

section
variable (h : ¬ (s.portState p = 0 ∨ s.portState p = 4))
include h

theorem exec_cert : exec (.cert p t) s = .next ((s.delivered p t 0x26).certIn p (asMgmt t 0x26)) :=
  State.arriveClear_takes (f := fun s t => s.certIn p t) hp ht hk h

theorem exec_keyOffer : exec (.keyOffer p t) s = .next ((s.delivered p t 0x27).offerIn p (asMgmt t 0x27)) :=
  State.arriveClear_takes (f := fun s t => s.offerIn p t) hp ht hk h

theorem exec_keyProof : exec (.keyProof p t) s = .next ((s.delivered p t 0x28).proofIn p (asMgmt t 0x28)) :=
  State.arriveClear_takes (f := fun s t => s.proofIn p t) hp ht hk h

end

section
variable (hu : s.portUp p = true)
include hu

theorem exec_keySwitch : exec (.keySwitch p t) s = .next ((s.delivered p t 0x29).updLink p (fun x => { x with rxKey := x.rxKey + 1, rxGroup := none, rxTrunk := 0 })) :=
  (State.arrive_mgmt (f := fun s _ => s.switchIn p) hp ht hk hu).trans (congrArg _ (if_pos hu))

theorem exec_trunkSync : exec (.trunkSync p t) s = .next ((s.delivered p t 0x2A).syncIn p (asMgmt t 0x2A)) :=
  State.arrive_mgmt (f := fun s t => s.syncIn p t) hp ht hk hu

theorem exec_routeAdv : exec (.routeAdv p t) s = .next ((s.delivered p t 0x2B).advIn p (asMgmt t 0x2B)) :=
  State.arrive_mgmt (f := fun s t => s.advIn p t) hp ht hk hu

end

end

end

/-! ### The obligation -/

/-- Settles O38, by what each message does at the port that takes it. -/
theorem keyingOfAPort : Obligations.KeyingOfAPort := by
  intro s p t hp ht hk r u x
  refine ⟨fun state unkeyed => ?keying, fun up => ⟨?switch, fun loose => ?_, fun joined idle => ?_, fun joined reforms => ?resumes, fun assisted => ?_,
    fun hardware ha hl => ?_⟩⟩
  case keying =>
    have there : ¬ (s.portState p = 0 ∨ s.portState p = 4) := by omega
    have fresh (n : Nat) : ((u n).atLink p).keyed = false := (State.link_delivered n LinkSt.keyed fun _ _ => rfl).trans unkeyed
    refine ⟨(exec_cert hp ht hk there).trans (congrArg _ (State.certIn_keying state (fresh 0x26))),
      (exec_keyOffer hp ht hk there).trans (congrArg _ (State.offerIn_keying state (fresh 0x27))), _, exec_keyProof hp ht hk there, fun good => ?_, fun bad => ?_⟩
    · rw [State.proofIn_good (s := u 0x28) (t := asMgmt t 0x28) state (fresh 0x28) ((State.goodProof_delivered 0x28).mpr good), State.atLink_updLink, if_pos rfl, State.atLink_delivered]
      exact ⟨rfl, rfl, rfl, rfl, rfl, rfl, rfl⟩
    · exact State.proofIn_bad state (fresh 0x28) (mt (State.goodProof_delivered 0x28).mp bad)
  case switch =>
    refine ⟨_, exec_keySwitch hp ht hk up, ?_⟩
    rw [State.atLink_updLink, if_pos rfl, State.atLink_delivered]
    exact ⟨rfl, rfl, rfl, rfl, rfl⟩
  case resumes =>
    intro a n
    have row : exec (.trunkSync p t) s = .next ((u 0x2A).trunkResumed p (s.trunkKey p) n) :=
      (exec_trunkSync hp ht hk up).trans (congrArg _ (State.syncIn_resumes (s := u 0x2A) (t := asMgmt t 0x2A) joined reforms))
    have members : (u 0x2A).members (s.trunkKey p) = s.members (s.trunkKey p) := rfl
    have replay (m : Nat) : ((u 0x2A).atLink m).replay = (s.atLink m).replay := State.link_updLink LinkSt.replay m fun _ => by rfl
    refine ⟨_, row, State.atTrunk_trunkResumed, fun m hm => ?_, State.syncWait_trunkResumed, State.trunkResumed_regs, State.trunkResumed_sameBytes⟩
    rw [State.replay_trunkResumed (members ▸ hm), replay]
  · exact (exec_trunkSync hp ht hk up).trans (congrArg _ (State.syncIn_loose loose))
  · exact (exec_trunkSync hp ht hk up).trans (congrArg _ (State.syncIn_heard joined idle))
  · exact (exec_routeAdv hp ht hk up).trans (congrArg _ (State.advIn_assisted assisted))
  · exact (exec_routeAdv hp ht hk up).trans (congrArg _ (State.advIn_one (t := asMgmt t 0x2B) hardware ha hl))

end Sys2Proof.Machine
end

section
/-! SUPPORT. Blocks on the lanes of a port: what is sent, what a received block does, heartbeats, repeated NAKs, a rekey. -/

namespace Sys2Proof.Machine

open Sys2Proof

section
variable {s : State} {p : Nat}

/-! ### Sending (R296, R298, R299, R301) -/

/-- The record of a port that has put a block on the lanes: no NAK is due, and the credits returned are owed no more. -/
abbrev LinkSt.sent (x : LinkSt) : LinkSt := { x with nakDue := false, owed := Tab.upd 0 x.owed x.returning.1 (fun n => n - x.returning.2) }

theorem State.atLink_putBlock (type lseq : Nat) (gend : Bool) : (s.putBlock p type lseq gend).atLink p = (s.atLink p).sent := by
  have counted : (if (s.atLink p).nakDue then s.errCount (lnkPg p) LNK_RETRY_CNT 1 else s).atLink p = s.atLink p := by
    split
    · exact s.atLink_errCount ..
    · rfl
  have emitted (u : State) (o : Out) : (u.emit o).atLink p = u.atLink p := rfl
  rw [State.putBlock, emitted, State.atLink_updLink, if_pos rfl, counted]

theorem State.atLink_sendIdle : (s.sendIdle p).atLink p = { (s.atLink p).sent with hbSeq := ((s.atLink p).hbSeq + 1) % 2 ^ 32, sinceIdle := 0 } := by
  refine (State.atLink_updLink ..).trans ((if_pos rfl).trans ?_)
  rw [State.atLink_putBlock]
  rfl

/-- The record of a port that has sent a new data block. -/
abbrev LinkSt.dataSent (x : LinkSt) (type : Nat) (gend : Bool) (ord : Option Nat) : LinkSt := { x.sent with
  sinceIdle := x.sinceIdle + 1, txSeq := (x.txSeq + 1) % 4096, replay := x.replay ++ [⟨x.txSeq, type, gend, ord, false⟩],
  groupLen := if gend ∨ type = 2 then 0 else x.groupLen + 1, groups := if gend then x.groups + 1 else x.groups }

theorem State.atLink_sendData (type : Nat) (gend : Bool) (ord : Option Nat) :
    (s.sendData p type gend ord).atLink p = (s.atLink p).dataSent type gend ord := by
  refine (State.atLink_updLink ..).trans ((if_pos rfl).trans ?_)
  rw [State.atLink_putBlock]

/-- Whether the next block of the port's own slots ends its group: it is the 16th, or nothing is left to send. -/
abbrev LinkSt.endsGroup (x : LinkSt) : Prop := x.slots ≤ 15 ∨ 15 ≤ x.groupLen

section
variable (h : (s.atLink p).slots ≠ 0)
include h

/-- The port's own slots go first. -/
theorem State.atLink_sendKeyed_own : (s.sendKeyed p).atLink p =
    { s.atLink p with slots := (s.atLink p).slots - (if decide (s.atLink p).endsGroup then 15 else 16) }.dataSent 1 (decide (s.atLink p).endsGroup) none := by
  simp only [State.sendKeyed, if_pos h, ← Bool.decide_or, State.atLink_sendData, State.atLink_updLink, if_true]

/-- A block that ends its group carries 15 slots. -/
theorem State.atLink_sendKeyed_ends (he : (s.atLink p).endsGroup) :
    (s.sendKeyed p).atLink p = { s.atLink p with slots := (s.atLink p).slots - 15 }.dataSent 1 true none := by
  rw [State.atLink_sendKeyed_own h, decide_eq_true he]
  rfl

theorem State.atLink_sendKeyed_goesOn (he : ¬ (s.atLink p).endsGroup) :
    (s.sendKeyed p).atLink p = { s.atLink p with slots := (s.atLink p).slots - 16 }.dataSent 1 false none := by
  rw [State.atLink_sendKeyed_own h, decide_eq_false he]
  rfl

end

section
variable {data : Bool} (hp : p < 36)
include hp

theorem exec_linkBlockSend_silent (h : s.portState p = 0 ∨ s.portState p = 4) : exec (.linkBlockSend p data) s = .next s :=
  onUnit_next (decide_eq_true hp) (if_pos h)

variable (h : ¬ (s.portState p = 0 ∨ s.portState p = 4))
include h

theorem exec_linkBlockSend_idle (hd : data = false ∨ 1023 ≤ (s.atLink p).sinceIdle) : exec (.linkBlockSend p data) s = .next (s.sendIdle p) :=
  onUnit_next (decide_eq_true hp) ((if_neg h).trans (if_pos hd))

variable (hi : (s.atLink p).sinceIdle < 1023)
include hi

theorem exec_linkBlockSend_full (hr : 1024 ≤ (s.atLink p).replay.length) : exec (.linkBlockSend p true) s = .next s :=
  onUnit_next (decide_eq_true hp) ((if_neg h).trans ((if_neg (by simp [hi])).trans (if_pos hr)))

/-- A keyed port that is not back for less than 1 ms sends under its key. -/
theorem exec_linkBlockSend_keyed (hr : (s.atLink p).replay.length < 1024) (hk : (s.atLink p).keyed = true)
    (hl : ∀ a, (s.atLink p).lostAt = some a → a + 100000 ≤ s.mclk) (hg : ((s.sendKeyed p).atLink p).groups < 2 ^ 48) :
    exec (.linkBlockSend p true) s = .next (s.sendKeyed p) := by
  have back : ¬ (s.atLink p).lostAt.any (fun t => decide (s.mclk < t + 100000)) = true := by
    rw [Option.any_eq_true]
    rintro ⟨a, ha, early⟩
    exact absurd (hl a ha) (Nat.not_le.mpr (of_decide_eq_true early))
  exact onUnit_next (decide_eq_true hp) ((if_neg h).trans ((if_neg (by simp [hi])).trans ((if_neg (Nat.not_le.mpr hr)).trans ((if_neg (ne_false_of_eq_true hk)).trans
    ((if_neg back).trans (if_neg (Nat.not_le.mpr hg)))))))

end

/-! ### Receiving (R294, R295, R298) -/

section
variable {b : Block} (hp : p < 36) (hb : blockOk b = true)
include hp hb

theorem exec_linkBlockReceive_silent (h : s.portState p = 0 ∨ s.portState p = 4) : exec (.linkBlockReceive p b) s = .next s :=
  onUnit_next (by simp [hp, hb]) (if_pos h)

variable (h : ¬ (s.portState p = 0 ∨ s.portState p = 4))
include h

theorem exec_linkBlockReceive_uncorrected (hf : blockFecOk b (s.on (lnkPg p) LNK_STAT_STRONG) = false) :
    exec (.linkBlockReceive p b) s = .next ((s.errCount (lnkPg p) LNK_FEC_UNCORR 1).nakStart p) :=
  onUnit_next (by simp [hp, hb]) ((if_neg h).trans (if_pos hf))

omit hp hb h in
theorem Block.nothing_corrected (he : ∀ n, n ∈ b.fecErrs → n = 0) (hq : ∀ n, n ∈ b.fecEras → n = 0) :
    ¬ (b.fecErrs.any (· != 0) || b.fecEras.any (· != 0)) = true := by
  simpa using ⟨he, hq⟩

variable (hf : blockFecOk b (s.on (lnkPg p) LNK_STAT_STRONG) = true) (hc : ¬ (b.fecErrs.any (· != 0) || b.fecEras.any (· != 0)) = true)
include hf hc

theorem exec_linkBlockReceive_wrong (hw : blockCrcOk b = false ∨ b.type = 3) :
    exec (.linkBlockReceive p b) s = .next ((s.errCount (lnkPg p) LNK_CRC_ERR 1).nakStart p) := by
  refine onUnit_next (by simp [hp, hb]) ((if_neg h).trans ((if_neg (ne_false_of_eq_true hf)).trans ?_))
  simp only [if_neg hc]
  exact if_pos hw

/-- A good IDLE block without a HEARTBEAT acknowledges and returns credits. -/
theorem exec_linkBlockReceive_idle (hw : blockCrcOk b = true) (ht : b.type = 0) (hn : b.nak = false) (hi : idleHeart b = none) :
    exec (.linkBlockReceive p b) s = .next (((s.acks p b.lack).creditReturn p b.crBuf b.crCnt).rekeyDrained p) := by
  refine onUnit_next (by simp [hp, hb]) ((if_neg h).trans ((if_neg (ne_false_of_eq_true hf)).trans ?_))
  simp only [if_neg hc, hw, ht, hn, hi, Bool.true_eq_false, Bool.false_eq_true, or_self, if_false, if_true, ite_self, OfNat.zero_ne_ofNat]

end

/-! ### Heartbeats, repeated NAKs and rekeys (R296, R302, R318) -/

section
variable (hp : p < 36)
include hp

section
variable (hu : s.portUp p = true)
include hu

theorem exec_heartbeatSend_idle (hs : (s.atLink p).slots = 0) : exec (.heartbeatSend p) s = .next (s.sendIdle p) :=
  onUnit_next (decide_eq_true hp) ((if_neg (ne_false_of_eq_true hu)).trans (if_pos hs))

theorem exec_heartbeatSend_message (hs : (s.atLink p).slots ≠ 0) : exec (.heartbeatSend p) s =
    .next ((s.sendMgmt p (s.heartTxn p)).updLink p (fun y => { y with hbSeq := (y.hbSeq + 1) % 2 ^ 32 })) :=
  onUnit_next (decide_eq_true hp) ((if_neg (ne_false_of_eq_true hu)).trans (if_neg hs))

end

theorem exec_nakRepeat (h : (s.atLink p).nakWait = true) : exec (.nakRepeat p) s = .next ((s.updLink p (fun y => { y with nakDue := true })).sendIdle p) :=
  onUnit_next (decide_eq_true hp) (if_pos h)

end

theorem State.rekeyStart_starts (hu : s.portUp p = true) (hr : (s.atLink p).rekey = 0) :
    s.rekeyStart p = (s.updLink p (fun x => { x with rekey := 1, ownOffer := [], offer := [] })).rekeyDrained p :=
  if_neg (by simp [hu, hr])

theorem State.rekeyStart_stays (h : s.portUp p = false ∨ (s.atLink p).rekey ≠ 0) : s.rekeyStart p = s := if_pos h

end

/-! ### The obligation -/

/-- Settles O39, by what each row puts on the lanes and what the port's record becomes. -/
theorem blocksOfAPort : Obligations.BlocksOfAPort := by
  intro s p hp pg x silent
  refine ⟨fun b data h hb => ⟨exec_linkBlockSend_silent hp h, exec_linkBlockReceive_silent hp hb h⟩, fun b h hb => ?receive, fun h => ?send,
    fun up => ⟨exec_heartbeatSend_idle hp up, exec_heartbeatSend_message hp up⟩, exec_nakRepeat hp, fun v hh => ?rekey⟩
  case receive =>
    refine ⟨exec_linkBlockReceive_uncorrected hp hb h, fun hf he hq => ?_⟩
    have clean := Block.nothing_corrected he hq
    exact ⟨exec_linkBlockReceive_wrong hp hb h hf clean, fun hw ht hn hi _ => exec_linkBlockReceive_idle hp hb h hf clean hw ht hn hi⟩
  case send =>
    refine ⟨fun data hd => ⟨_, exec_linkBlockSend_idle hp h hd, ?_⟩, fun hi hr => exec_linkBlockSend_full hp h hi hr, fun hi hr hk hl hs hg => ?_⟩
    · rw [State.atLink_sendIdle]
      exact ⟨rfl, rfl, rfl, rfl, rfl⟩
    · intro ends
      by_cases he : ends
      · have link := State.atLink_sendKeyed_ends hs he
        refine ⟨_, exec_linkBlockSend_keyed hp h hi hr hk hl (link ▸ hg), ?_⟩
        rw [link]
        exact ⟨rfl, rfl, fun _ => ⟨rfl, rfl, rfl⟩, fun hn => absurd he hn, List.length_append⟩
      · have link := State.atLink_sendKeyed_goesOn hs he
        refine ⟨_, exec_linkBlockSend_keyed hp h hi hr hk hl (link ▸ Nat.lt_of_succ_lt hg), ?_⟩
        rw [link]
        exact ⟨rfl, rfl, fun h => absurd h he, fun _ => ⟨rfl, rfl, rfl⟩, List.length_append⟩
  case rekey =>
    intro w t h0 h4 h5
    have row {u : State} (hu : (s.lnkStored p w).rekeyStart p = u) := State.lnkCtl_row hp hh ((State.lnkCtlSet_rekeys h0 h4 h5).trans hu)
    have up : t.portUp p = s.portUp p := congrArg (· == 3) (s.portState_lnkStored p w)
    exact ⟨fun hu hr => row (State.rekeyStart_starts (up.trans hu) hr), fun h => row (State.rekeyStart_stays (up.symm ▸ h))⟩

end Sys2Proof.Machine
end

section
/-! SUPPORT. What a step on an empty queue does. -/

namespace Sys2Proof.Machine

open Sys2Proof

/-- An idle step moves the management clock only, by one count where time passes. -/
theorem State.idle_eq (s : State) : s.idle = { s with mclk := s.mclk + (if s.ticking then 1 else 0) } := by
  unfold State.idle
  cases s.ticking <;> rfl

theorem step_idle {s : State} (h : s.pending = []) : step s = .next s.idle := by
  unfold step
  rw [h]

/-- Settles O1, by what the front command or, on an empty queue, the idle step does. -/
theorem stepRunsFrontCommand : Obligations.StepRunsFrontCommand := by
  refine ⟨fun c rest s => rfl, fun s h => ⟨s.idle, step_idle h, ?_⟩⟩
  rw [State.idle_eq]
  exact ⟨rfl, rfl⟩

end Sys2Proof.Machine
end

section
/-! SUPPORT. The windows into the module: which accesses of BAR2 are performed, and what an access of the debug port finds. -/

namespace Sys2Proof.Machine

open Sys2Proof

variable {s t u : State}

/-! ### Counting (R513) -/

theorem State.rd_of_regs (h : t.regs = s.regs) (a : Nat) : t.rd a = s.rd a := by
  rw [State.rd, State.rd, h]

theorem State.rd_bump_self (s : State) (a n : Nat) : (s.bump a n).rd a = min 0xFFFFFFFF (s.rd a + n) := by
  rw [State.bump_eq, State.rd_wr_self, satAdd, Nat.mod_eq_of_lt (by omega)]

theorem State.rd_bump_ne (s : State) {a n b : Nat} (h : b ≠ a) : (s.bump a n).rd b = s.rd b := State.rd_wr_ne _ _ _ h

theorem State.OnlyRegs.bump (s : State) (a n : Nat) : s.OnlyRegs (s.bump a n) := .wr ..

/-- What leaves the module joins a state that differs in registers only. -/
theorem State.OnlyRegs.emit_eq (h : s.OnlyRegs u) (o : Out) : u.emit o = { s with regs := (u.emit o).regs, out := o :: s.out } :=
  congrArg (State.emit · o) h

/-! ### The check of a BAR2 access (R403, R513) -/

section
variable {l : List (Nat × Nat)} {read : Bool}

/-- The state after an Unsupported Request is counted. -/
def State.urCounted (s : State) : State := s.bump (pciPg + PCI_UR_CNT) 1

theorem State.bar2Check_notReady (hr : s.ready = false) : s.bar2Check l read = (false, s.urCounted) := if_pos hr

section
variable (hr : s.ready = true)
include hr

/-- An access that touches protected state is counted as blocked, and a read as an Unsupported Request besides. -/
theorem State.bar2Check_shut (h : ∃ e, e ∈ l ∧ s.dpaProtected e.1 = true) :
    s.bar2Check l read = (false, if read then (s.bump (secPg + SEC_BAR2_BLOCK) 1).urCounted else s.bump (secPg + SEC_BAR2_BLOCK) 1) :=
  (if_neg (by simp [hr])).trans (if_pos (List.any_eq_true.mpr h))

variable (ho : ¬ ∃ e, e ∈ l ∧ s.dpaProtected e.1 = true)
include ho

theorem State.bar2Check_moving {p : Nat} (h : (l.filterMap (fun e => s.rebalancing e.1)).head? = some p) :
    s.bar2Check l read = (false, (s.bump (partPg p + PART_REBIND_IGN) 1).urCounted) := by
  have opened : ¬ l.any (fun e => s.dpaProtected e.1) = true := fun h => ho (List.any_eq_true.mp h)
  rw [State.bar2Check, if_neg (by simp [hr]), if_neg opened, h]
  rfl

variable (hm : (l.filterMap (fun e => s.rebalancing e.1)).head? = none)
include hm

theorem State.bar2Check_still : s.bar2Check l read = if l.any (fun e => s.bar2Bad e.1) then (false, s.urCounted) else (true, s) := by
  have opened : ¬ l.any (fun e => s.dpaProtected e.1) = true := fun h => ho (List.any_eq_true.mp h)
  rw [State.bar2Check, if_neg (by simp [hr]), if_neg opened, hm]
  rfl

theorem State.bar2Check_bad (h : ∃ e, e ∈ l ∧ s.bar2Bad e.1 = true) : s.bar2Check l read = (false, s.urCounted) :=
  (State.bar2Check_still hr ho hm).trans (if_pos (List.any_eq_true.mpr h))

theorem State.bar2Check_passes (h : ¬ ∃ e, e ∈ l ∧ s.bar2Bad e.1 = true) : s.bar2Check l read = (true, s) :=
  (State.bar2Check_still hr ho hm).trans (if_neg fun any => h (List.any_eq_true.mp any))

end

end

/-! ### Reads and writes through BAR2 -/

section
variable {off len : Nat} (h0 : 0 < len) (h1 : len ≤ 4096) (h2 : off + len ≤ 2 ^ 36)
include h0 h1 h2

theorem bar2_within : (decide (0 < len) && decide (len ≤ 4096) && decide (off + len ≤ 2 ^ 36)) = true := by
  simp only [h0, h1, h2, decide_true, Bool.and_self]

theorem exec_bar2Read_refused (h : s.bar2Check (linePieces (len + 1) (s.bar2Dpa off) len) true = (false, t)) :
    exec (.bar2Read off len) s = .next (t.emit (.unsupported 0)) := by
  refine onUnit_next (bar2_within h0 h1 h2) ?_
  simp only [h]

/-- A read that is performed completes with its bytes, or with Completer Abort. -/
theorem exec_bar2Read_performed {b : Option Bytes} (h : s.bar2Check (linePieces (len + 1) (s.bar2Dpa off) len) true = (true, s))
    (hl : s.bar2Lines (linePieces (len + 1) (s.bar2Dpa off) len) = (u, b)) :
    exec (.bar2Read off len) s = .next (u.emit (match b with
      | some b => .readData 0 b
      | none => .completerAbort 0)) := by
  refine onUnit_next (bar2_within h0 h1 h2) ?_
  simp only [h, hl]
  cases b <;> rfl

variable {data : Bytes} (hd : data.length = len)
include hd

theorem exec_bar2Write_refused (h : s.bar2Check (linePieces (len + 1) (s.bar2Dpa off) len) false = (false, t)) :
    exec (.bar2Write off data) s = .next t := by
  subst hd
  refine onUnit_next (bar2_within h0 h1 h2) ?_
  simp only [h]

/-- A write of one line that is performed stores it, whole or in part, under key index 0. -/
theorem exec_bar2Write_line {a m : Nat} {p : Place} (h : s.bar2Check [(a, m)] false = (true, s))
    (hl : linePieces (len + 1) (s.bar2Dpa off) len = [(a, m)]) (hp : s.place a = some p) :
    exec (.bar2Write off data) s = .next (
      let b := sliceBytes data (a - s.bar2Dpa off) m
      if m = 256 then (s.beat 2 (p.chan / 16)).lineWrite p 0 a b
      else ((s.beat 2 (p.chan / 16)).lineModify p 0 (match s.regionOf a with
        | some r => s.regPart r
        | none => 0) a (fun d => (patchBytes d p.byte b, []))).1) := by
  subst hd
  refine onUnit_next (bar2_within h0 h1 h2) ?_
  simp only [hl, h, List.foldl_cons, List.foldl_nil, hp]
  rfl

end

/-! ### The debug access port (R404) -/

theorem State.dbgRead_range {i n sp w : Nat} (h : dbgRange i n sp w = false) : s.dbgRead i n sp w = .range := if_pos h

theorem State.dbgRead_blocked {i n sp w : Nat} (h : dbgRange i n sp w = true) (hc : s.dbgClosed i n sp w = true) : s.dbgRead i n sp w = .blocked :=
  (if_neg (by simp [h])).trans (if_pos hc)

theorem State.dbgRead_word {i n sp w : Nat} (h : dbgRange i n sp w = true) (hc : s.dbgClosed i n sp w = false) :
    s.dbgRead i n sp w = .word (s.dbgWord i n sp w) :=
  (if_neg (by simp [h])).trans (if_neg (by simp [hc]))


/-- The port's session opened by an access. -/
def State.portOpened (s : State) : State := { s.set dbgPg DBG_TEST_CTL_PORT_OPEN 1 with sec := { s.sec with jtag := true } }

/-- The session after an access, which may close it. -/
def State.portLeft (s : State) (close : Bool) : State :=
  if close then { s.set dbgPg DBG_TEST_CTL_PORT_OPEN 0 with sec := { s.sec with jtag := false } } else s

/-! What is closed to debug accesses depends on the pages of the partitions and of security, and on the line buffers. -/

section
variable (h : ∀ a, 0x14000 ≤ a → t.rd a = s.rd a)
include h

theorem State.isProtected_congr : t.isProtected = s.isProtected :=
  funext fun p => congrArg (bitOf · p) (h _ (by decide))

theorem State.rd_part_congr (p o : Nat) : t.rd (partPg p + o) = s.rd (partPg p + o) :=
  h _ (by simp only [partPg, Pg.base]; omega)

theorem State.chanParts_congr : t.chanParts = s.chanParts := by
  funext c
  unfold State.chanParts
  simp only [Nat.add_assoc, State.rd_part_congr h]

theorem State.crumbClosed_congr : t.crumbClosed = s.crumbClosed := by
  funext n
  unfold State.crumbClosed State.sliceOwner State.holderOf
  simp only [Nat.add_assoc, State.rd_part_congr h, State.isProtected_congr h]

theorem State.islandClosed_congr (i : Nat) : t.islandClosed i = s.islandClosed i := by
  unfold State.islandClosed
  rw [State.crumbClosed_congr h, State.chanParts_congr h, State.isProtected_congr h]

theorem State.dbgClosed_congr (hn : t.nap = s.nap) (i n sp w : Nat) : t.dbgClosed i n sp w = s.dbgClosed i n sp w := by
  have bufs : t.bufs = s.bufs := funext fun c => congrArg (Tab.get [] · c) hn
  unfold State.dbgClosed
  rw [State.crumbClosed_congr h, State.chanParts_congr h, State.isProtected_congr h, bufs]

end

/-- The word of a target depends on the cells, the scratchpads, the shares and the line buffers. -/
theorem State.dbgWord_congr (hc : t.cells = s.cells) (hp : t.spad = s.spad) (hs : t.share = s.share) (hn : t.nap = s.nap) (i n sp w : Nat) :
    t.dbgWord i n sp w = s.dbgWord i n sp w := by
  unfold State.dbgWord State.atCell State.bufs
  rw [hc, hp, hs, hn]

/-- The open session changes nothing that an access of the port looks at. -/
theorem State.dbgRead_portOpened (i n sp w : Nat) : s.portOpened.dbgRead i n sp w = s.dbgRead i n sp w := by
  have above : ∀ a, 0x14000 ≤ a → s.portOpened.rd a = s.rd a := fun a ha =>
    (State.rd_of_regs (s := s.set dbgPg DBG_TEST_CTL_PORT_OPEN 1) rfl a).trans <|
      State.rd_set_ne _ _ _ _ (by simp only [dbgPg, Pg.base, DBG_TEST_CTL_PORT_OPEN]; omega)
  unfold State.dbgRead
  rw [State.dbgClosed_congr above rfl, State.dbgWord_congr (s := s) (t := s.portOpened) rfl rfl rfl rfl]

section
variable {write : Bool} {i n sp w : Nat} {v : Word} {close : Bool}

theorem exec_debugAccessPort_off (h : s.running = false) : exec (.debugAccessPort write i n sp w v close) s = .next s :=
  congrArg Host.Outcome.next (if_pos h)

/-- An access in a session: of device memory, or of a target as the debug page names it. -/
theorem exec_debugAccessPort (h : s.running = true) : exec (.debugAccessPort write i n sp w v close) s =
    .next ((if sp = 6 then s.portOpened.portMem write w v.toNat else match s.dbgRead i n sp w with
      | .range => s.portOpened.emit (.jtag true 0)
      | .blocked => s.portOpened.dbgBlock.emit (.jtag true 0)
      | .word x =>
        if write then
          (if s.halted.contains i then (s.portOpened.dbgPut i n sp w v.toNat).emit (.jtag false 0) else s.portOpened.emit (.jtag true 0))
        else s.portOpened.emit (.jtag false (BitVec.ofNat 32 x))).portLeft close) := by
  have on : ¬ s.running = false := by simp [h]
  rw [← s.dbgRead_portOpened]
  exact congrArg Host.Outcome.next (if_neg on)

end

/-! ### The obligations -/

/-- Settles O53, by the check of a BAR2 access and by what an access of the debug port finds. -/
theorem windowsIntoTheModule : Obligations.WindowsIntoTheModule := by
  intro s
  refine ⟨fun off len h0 h1 h2 => ?bar2, fun write i u sp n v close => ?port⟩
  case bar2 =>
    have read {t : State} := exec_bar2Read_refused (s := s) (t := t) h0 h1 h2
    have write {t : State} {data : Bytes} := exec_bar2Write_refused (s := s) (t := t) (data := data) h0 h1 h2
    refine ⟨fun hr => ⟨read (s.bar2Check_notReady hr), fun data hd => write hd (s.bar2Check_notReady hr)⟩,
      fun hr hs => ⟨read (s.bar2Check_shut hr hs), fun data hd => write hd (s.bar2Check_shut hr hs)⟩,
      fun p hr ho hm => ⟨read (s.bar2Check_moving hr ho hm), fun data hd => write hd (s.bar2Check_moving hr ho hm)⟩,
      fun hr ho hm hb => ⟨read (s.bar2Check_bad hr ho hm hb), fun data hd => write hd (s.bar2Check_bad hr ho hm hb)⟩,
      fun hr ho hm hb => ?performed⟩
    have passes {read : Bool} := s.bar2Check_passes (read := read) hr ho hm hb
    refine ⟨fun u b hl => exec_bar2Read_performed h0 h1 h2 passes hl, fun u hl => exec_bar2Read_performed h0 h1 h2 passes hl, fun data hd => ?_⟩
    have line {e : Nat × Nat} {pl : Place} (he : linePieces (len + 1) (s.bar2Dpa off) len = [e]) (hp : s.place e.1 = some pl) :=
      exec_bar2Write_line h0 h1 h2 hd (he ▸ passes) he hp
    refine ⟨fun e pl he hp hw => ?whole, fun e pl he hp hw => ?part⟩
    case whole => rw [line he hp, if_pos hw, hw]
    case part =>
      refine ⟨_, (line he hp).trans (congrArg Host.Outcome.next (if_neg (Nat.ne_of_lt hw))), fun r hreg => ?_⟩
      simp only [hreg]
  case port =>
    intro o fin
    have opened : s.portOpened = o := rfl
    have left (x : State) : Host.Outcome.next (x.portLeft close) = fin x := rfl
    refine ⟨fun h => exec_debugAccessPort_off ?off, fun hg ho hn => ?on⟩
    case off => obtain h | h | h := h <;> simp [State.running, h]
    case on =>
      have on := exec_debugAccessPort (write := write) (i := i) (n := u) (sp := sp) (w := n) (v := v) (close := close)
        (show s.running = true by simp [State.running, hg, ho, hn])
      rw [left, opened] at on
      refine ⟨fun h6 => ?_, fun h6 hd => ?_, fun h6 hd hc => ?_, fun h6 hd hc => ?word⟩
      · rw [on, if_pos h6]
      · rw [on, if_neg h6, State.dbgRead_range hd]
      · rw [on, if_neg h6, State.dbgRead_blocked hd hc]
      rw [if_neg h6, State.dbgRead_word hd hc] at on
      exact ⟨fun hw => on.trans (congrArg fin (if_neg (ne_true_of_eq_false hw))),
        fun hw hi => on.trans (congrArg fin ((if_pos hw).trans (if_pos (List.contains_iff_mem.mpr hi)))),
        fun hw hi => on.trans (congrArg fin ((if_pos hw).trans (if_neg fun h => hi (List.contains_iff_mem.mp h))))⟩

/-- Settles O60: the access is refused by the check, which counts it. -/
theorem windowAccessToProtectedState : Obligations.WindowAccessToProtectedState := by
  intro s off data h0 h1 h2 hr hs
  have blocked : (s.bump (secPg + SEC_BAR2_BLOCK) 1).rd (secPg + SEC_BAR2_BLOCK) = min 0xFFFFFFFF (s.rd (secPg + SEC_BAR2_BLOCK) + 1) :=
    s.rd_bump_self _ 1
  have write : exec (.bar2Write off data) s = .next (s.bump (secPg + SEC_BAR2_BLOCK) 1) :=
    exec_bar2Write_refused h0 h1 h2 rfl (s.bar2Check_shut hr hs)
  have read : exec (.bar2Read off data.length) s = .next ((s.bump (secPg + SEC_BAR2_BLOCK) 1).urCounted.emit (.unsupported 0)) :=
    exec_bar2Read_refused h0 h1 h2 (s.bar2Check_shut hr hs)
  have counted {a : Nat} (ha : a ≠ pciPg + PCI_UR_CNT) :
      ((s.bump (secPg + SEC_BAR2_BLOCK) 1).urCounted.emit (.unsupported 0)).rd a = (s.bump (secPg + SEC_BAR2_BLOCK) 1).rd a := by
    rw [State.emit_rd]
    exact State.rd_bump_ne _ ha
  refine ⟨⟨_, write, State.OnlyRegs.bump .., fun a ha => State.rd_bump_ne _ (List.ne_of_not_mem_cons ha), blocked⟩,
    ⟨_, read, State.OnlyRegs.emit_eq (.trans (.bump ..) (.bump ..)) _, fun a ha => ?_, ?_⟩⟩
  · obtain ⟨hb, hu⟩ := List.ne_and_not_mem_of_not_mem_cons ha
    exact (counted (List.ne_of_not_mem_cons hu)).trans (State.rd_bump_ne _ hb)
  · exact (counted (by decide)).trans blocked

end Sys2Proof.Machine
end

section
/-! SUPPORT. The mailbox family: a state that its last clause does not cover. -/

namespace Sys2Proof.Machine

open Sys2Proof

/-- A powered module whose alarm 0 stands and whose mask holds a bit above the register's 32. -/
def overwideMask : State := { pins := { pgood := true }, mgmt := { alarm := 1, alarmMask := 2 ^ 32 } }

/-- Refutes O58: its clause on a clear of the sideband's alarms does not bound the mask kept from before. Under a mask of 2^32,
which no write stores, the alert pin is high although alarm 0 stands and the mask's bit 0 is 0. -/
theorem not_mailboxRequests : ¬ Obligations.MailboxRequests := by
  rintro ⟨-, -, -, alarms⟩
  obtain ⟨-, reached⟩ := alarms overwideMask 0
  obtain ⟨⟨t, ht, -, -, pin, -⟩, -⟩ := reached rfl (by decide)
  obtain rfl : ({ overwideMask with pins := { overwideMask.pins with alertN := true } }.wr (mgmtPg + MGMT_ALARM) 1) = t := by
    injection ht
  exact absurd (pin.mp rfl 0 (by decide) rfl) (by decide)

end Sys2Proof.Machine
end

section
/-! SUPPORT. Streams, device interfaces, and the requests of the attestation protocol. -/

namespace Sys2Proof.Machine

open Sys2Proof

variable {s t u : State}

/-! ### Streams (R410) -/

section
variable {i : Nat} {b : Bool}

theorem State.ideSecure_setIde_self : (s.setIde i b).ideSecure i = b := Tab.get_put_self ..

theorem State.ideSecure_setIde_ne {j : Nat} (h : j ≠ i) : (s.setIde i b).ideSecure j = s.ideSecure j := Tab.get_put_ne _ h ..

/-- PCI_LINK_STAT counts the secure streams: at most 16, which its field holds. -/
theorem State.get_ideSecure_setIde :
    (s.setIde i b).get pciPg PCI_LINK_STAT_IDE_SECURE = ((List.range 16).filter (s.setIde i b).ideSecure).length := by
  have few : ((List.range 16).filter (s.setIde i b).ideSecure).length < 2 ^ 5 :=
    Nat.lt_of_le_of_lt (List.length_filter_le ..) (by decide)
  exact (State.get_set_self _ _ _ _ (by decide) (by decide)).trans (Nat.mod_eq_of_lt few)

variable (hi : i < 16)
include hi

theorem stream_there {c : Nat} (hc : c < 5) : (decide (c < 5) && decide (i < 16)) = true := by simp only [hc, hi, decide_true, Bool.and_self]

/-- IDE_KM puts a stream into the secure state or out of it. -/
theorem exec_spdmMessage_ide {c : Nat} (h : c = 3 ∨ c = 4) : ∃ o, exec (.spdmMessage c i) s = .next ((s.setIde i (c == 3)).emit o) := by
  obtain rfl | rfl := h
  · exact ⟨_, onUnit_next (stream_there hi (by decide)) rfl⟩
  · exact ⟨_, onUnit_next (stream_there hi (by decide)) rfl⟩

theorem exec_ideIntegrityFail (h : t = if s.ideSecure i = false then s
    else ((List.range 256).filter (fun f => f != 0 && streamOf f == i)).foldl (fun u f => u.tdiError f 4) ((s.setIde i false).securityAlarm 6 none i)) :
    exec (.ideIntegrityFail i) s = .next t :=
  onUnit_next (decide_eq_true hi) h.symm

end

/-! ### Device interfaces (R411) -/

section
variable {f : Nat} (h1 : 1 ≤ f) (h2 : f < 256)
include h1 h2

theorem function_there : (decide (1 ≤ f) && decide (f < 256)) = true := by simp only [h1, h2, decide_true, Bool.and_self]

theorem exec_lockInterface {p : Nat} (ha : Tab.get none s.attach f = some p) (ht : s.tdi f = 0) (hk : s.keyLocked p = true)
    (hi : s.ideSecure (streamOf f) = true) : exec (.lockInterface f) s = .next (s.setTdi f 1) := by
  refine onUnit_next (function_there h1 h2) (if_pos ⟨ht, ?_, hi⟩)
  rw [ha]
  exact hk

/-- An interface whose function lacks a condition stays as it is. -/
theorem exec_lockInterface_ignored (h : s.tdi f ≠ 0 ∨ Tab.get none s.attach f = none ∨ s.ideSecure (streamOf f) = false ∨
    ∃ p, Tab.get none s.attach f = some p ∧ s.keyLocked p = false) : exec (.lockInterface f) s = .next s := by
  refine onUnit_next (function_there h1 h2) (if_neg fun ⟨ht, hk, hi⟩ => ?_)
  obtain hn | hn | hn | ⟨p, hp, hn⟩ := h
  · exact hn ht
  · rw [hn] at hk
    exact Bool.false_ne_true hk
  · rw [hn] at hi
    exact Bool.false_ne_true hi
  · rw [hp] at hk
    exact Bool.false_ne_true (hn.symm.trans hk)

theorem exec_startInterface (h : t = if s.tdi f = 1 then s.setTdi f 2 else s) : exec (.startInterface f) s = .next t :=
  onUnit_next (function_there h1 h2) h.symm

end

/-- Settles O46, by what each message and each command of an interface does. -/
theorem streamsAndInterfaces : Obligations.StreamsAndInterfaces := by
  intro s
  refine ⟨fun i hi => ?streams, fun f h1 h2 => ?interfaces, onUnit_next (decide_eq_true (by decide : 0 < 256)) (if_pos rfl)⟩
  case streams =>
    refine ⟨onUnit_next (stream_there hi (by decide)) rfl, onUnit_next (stream_there hi (by decide)) rfl, onUnit_next (stream_there hi (by decide)) rfl,
      fun c hc => ?_,
      fun h => exec_ideIntegrityFail hi (if_pos h).symm, fun h => exec_ideIntegrityFail hi (if_neg (by simp [h])).symm⟩
    obtain ⟨o, he⟩ := exec_spdmMessage_ide (s := s) hi hc
    exact ⟨_, he, State.ideSecure_setIde_self, fun j hj => State.ideSecure_setIde_ne hj, State.get_ideSecure_setIde, fun _ => rfl, fun _ => rfl, fun _ => rfl⟩
  case interfaces =>
    exact ⟨fun p => exec_lockInterface h1 h2, exec_lockInterface_ignored h1 h2, fun h => exec_startInterface h1 h2 (if_pos h).symm,
      fun h => exec_startInterface h1 h2 (if_neg h).symm, onUnit_next (function_there h1 h2) rfl,
      onUnit_next (decide_eq_true h2) (if_neg (Nat.ne_of_gt h1)), fun n => ⟨Tab.get_put_self .., fun g hg => Tab.get_put_ne _ hg ..⟩⟩

/-! ### Vendor debug (R405) -/

/-- A field that is cleared on some page is 0 where it was so already. -/
theorem State.get_set_zero {pg x : Nat} {f : F} (hl : f.lo ≤ f.hi) (hw : f.hi < 32) (h : x = pg ∨ s.get x f = 0) : (s.set pg f 0).get x f = 0 := by
  by_cases hx : x = pg
  · rw [hx, State.get_set_self _ _ _ _ hl hw, Nat.zero_mod]
  · rw [State.get_set_ne _ _ _ _ (by omega)]
    exact h.resolve_left hx

/-- The slot is made FREE, with STEP 0. -/
def State.keyFreed (s : State) (k : Nat) : State := (s.set (keyAt k) KEY_STAT_STATE 0).set (keyAt k) KEY_STAT_STEP 0

theorem State.keyState_keyFreed {k j : Nat} (h : k = j ∨ s.keyState k = 0) : (s.keyFreed j).keyState k = 0 := by
  have step : (s.keyFreed j).keyState k = (s.set (keyAt j) KEY_STAT_STATE 0).keyState k := by
    by_cases hk : keyAt k = keyAt j
    · change (State.set _ _ _ _).get (keyAt k) KEY_STAT_STATE = (s.set (keyAt j) KEY_STAT_STATE 0).get (keyAt k) KEY_STAT_STATE
      rw [hk]
      exact State.get_set_disjoint _ _ _ _ rfl (by decide) (by decide) (by decide)
    · exact State.get_set_ne _ _ _ _ (by simp only [KEY_STAT_STATE, KEY_STAT_STEP]; omega)
  exact step.trans (State.get_set_zero (by decide) (by decide) (h.imp_left (congrArg keyAt)))

theorem State.keyState_foldl_keyFreed {k : Nat} {l : List Nat} (h : k ∈ l ∨ s.keyState k = 0) : (l.foldl State.keyFreed s).keyState k = 0 := by
  induction l generalizing s with
  | nil => exact h.resolve_left (by simp)
  | cons j l ih =>
    refine ih ?_
    obtain hm | hz := h
    · obtain rfl | hm := List.mem_cons.mp hm
      · exact .inr (State.keyState_keyFreed (.inl rfl))
      · exact .inl hm
    · exact .inr (State.keyState_keyFreed (.inr hz))

theorem mem_range_drop_one {k n : Nat} (h1 : 1 ≤ k) (h2 : k < n) : k ∈ (List.range n).drop 1 := by
  rw [List.range_eq_range', List.drop_range', List.mem_range'_1]
  omega

/-- Every slot of a list is FREE, and the configuration and the save keys are gone. -/
def State.keysGone (s : State) (l : List Nat) : State :=
  let u := l.foldl State.keyFreed s
  { u with sec := { u.sec with cfgKey := [], saveKey := [] } }

theorem State.zeroiseAll_eq : s.zeroiseAll = s.keysGone ((List.range 256).drop 1) := rfl

theorem State.keyState_keysGone {k : Nat} {l : List Nat} (h : k ∈ l) : (s.keysGone l).keyState k = 0 :=
  (congrArg (bitsOf · _ _) (State.rd_of_regs (s := l.foldl State.keyFreed s) rfl _)).trans (State.keyState_foldl_keyFreed (.inl h))

theorem State.OnlyRegs.keyFreed (k : Nat) : s.OnlyRegs (s.keyFreed k) := .trans (.set ..) (.set ..)

theorem State.OnlyRegs.keysFreed (l : List Nat) : s.OnlyRegs (l.foldl State.keyFreed s) := .foldl (fun _ k => .keyFreed k) l s

/-- The module enters vendor debug: nothing is protected and no key lock holds. -/
def State.vendorEntered (s : State) : State :=
  ((({ s with sec := { s.sec with vendor := true } } : State).wr (secPg + SEC_PROTECT) 0).wr (secPg + SEC_KLOCK) 0).set secPg SEC_UNLOCK_BUSY 0

theorem State.keyAt_above {k : Nat} (h : k < 256) {o : Nat} : secPg + 0x1000 ≤ keyAt k + o := by
  simp only [secPg, keyAt, Pg.base]
  omega

theorem State.rd_vendorEntered_above {a : Nat} (h : secPg + 0x1000 ≤ a) : s.vendorEntered.rd a = s.rd a :=
  (State.rd_set_ne _ _ _ _ (by simp only [SEC_UNLOCK_BUSY]; omega)).trans <| (State.rd_wr_ne _ _ _ (by simp only [SEC_KLOCK]; omega)).trans <|
    (State.rd_wr_ne _ _ _ (by simp only [SEC_PROTECT]; omega)).trans (State.rd_of_regs rfl a)

theorem State.keyState_vendorEntered {k : Nat} (h : k < 256) : s.vendorEntered.keyState k = s.keyState k :=
  congrArg (bitsOf · _ _) (State.rd_vendorEntered_above (State.keyAt_above h))

theorem State.rd_protect_vendorEntered : s.vendorEntered.rd (secPg + SEC_PROTECT) = 0 :=
  (State.rd_set_ne _ _ _ _ (by decide)).trans ((State.rd_wr_ne _ _ _ (by decide)).trans (State.rd_wr_self ..))

theorem State.rd_klock_vendorEntered : s.vendorEntered.rd (secPg + SEC_KLOCK) = 0 := (State.rd_set_ne _ _ _ _ (by decide)).trans (State.rd_wr_self ..)

/-- The state that a token which verifies leads to. -/
def State.debugEntered (s : State) (l : List Nat) : State :=
  (({ s with sec := { s.sec with nonce := s.sec.nonce + 1 } } : State).keysGone l).vendorEntered

section
variable {l : List Nat}

theorem State.mem_debugEntered : (s.debugEntered l).mem = s.mem :=
  (State.OnlyRegs.keysFreed (s := { s with sec := { s.sec with nonce := s.sec.nonce + 1 } }) l).field State.mem rfl

theorem State.spad_debugEntered : (s.debugEntered l).spad = s.spad :=
  (State.OnlyRegs.keysFreed (s := { s with sec := { s.sec with nonce := s.sec.nonce + 1 } }) l).field State.spad rfl

theorem State.share_debugEntered : (s.debugEntered l).share = s.share :=
  (State.OnlyRegs.keysFreed (s := { s with sec := { s.sec with nonce := s.sec.nonce + 1 } }) l).field State.share rfl

theorem State.sec_debugEntered : (s.debugEntered l).sec.vendor = true ∧ (s.debugEntered l).sec.cfgKey = [] ∧ (s.debugEntered l).sec.saveKey = [] :=
  ⟨rfl, rfl, rfl⟩

theorem State.keyState_debugEntered {k : Nat} (h : k < 256) (hl : k ∈ l) : (s.debugEntered l).keyState k = 0 :=
  (State.keyState_vendorEntered h).trans (State.keyState_keysGone hl)

end

/-! ### The attestation protocol (R412 to R416) -/

/-- A report of the state with the signature that is drawn. -/
def State.reported (u : State) (p : Nat) (n : Bytes) : State :=
  let (d, u) := u.draw
  u.emit (.doe 1 0 (u.reportBody p n ++ (List.range 96).map (Config.sigByte d)))

theorem State.reported_eq (u : State) {p d : Nat} {n : Bytes} (h : u.draws = d) : u.reported p n =
    ({ u with draws := d + 1 }).emit (.doe 1 0 (({ u with draws := d + 1 }).reportBody p n ++ (List.range 96).map (Config.sigByte d))) := by
  subst h
  rfl

section
variable (hb : s.attBusy = false)
include hb

theorem exec_attestReport_bad {a p : Nat} {n : Bytes} (h : a ≠ 1 ∨ n.length ≠ 32 ∨ (32 ≤ p ∧ p ≠ 0xFF)) :
    exec (.attestReport a p n) s = .next (s.emit (.doe 1 2 [])) :=
  congrArg Host.Outcome.next ((if_neg (by simp [hb])).trans (if_pos h))

/-- A report counts REPORT_CTR. -/
theorem exec_attestReport {a p : Nat} {n : Bytes} (h : ¬ (a ≠ 1 ∨ n.length ≠ 32 ∨ (32 ≤ p ∧ p ≠ 0xFF))) :
    exec (.attestReport a p n) s = .next ((s.bump64 (attPg + ATT_CTR) 1).reported p n) := by
  have reports : execAttestReport a p n s = .next ((s.bump64 (attPg + ATT_CTR) 1).reported p n) := by
    rw [execAttestReport, if_neg (by simp [hb]), if_neg h]
    rfl
  exact reports

theorem exec_certChainGet {a : Nat} (h : t = if a = 0 then s.emit (.doe 2 0 ownChain)
    else if a = 1 then s.emit (.doe 2 0 s.akChain) else s.emit (.doe 2 2 [])) : exec (.certChainGet a) s = .next t :=
  congrArg Host.Outcome.next ((if_neg (by simp [hb])).trans h.symm)

section
variable {k e : Nat} {key sig : Bytes}

theorem exec_ownerRetire_bad (h : 256 ≤ k ∨ key.length ≠ 97 ∨ sig.length ≠ 96) :
    exec (.ownerRetire k e key sig) s = .next (s.emit (.doe 3 2 [])) :=
  congrArg Host.Outcome.next ((if_neg (by simp [hb])).trans (if_pos h))

theorem exec_ownerRetire (hk : k < 256) (hl : key.length = 97) (hs : sig.length = 96) : exec (.ownerRetire k e key sig) s = .next (
    if s.ownerMay k e key sig then ((s.keyRetire k true).securityAlarm 5 (some k) 0).emit (.doe 3 0 []) else s.emit (.doe 3 3 [])) :=
  congrArg Host.Outcome.next ((if_neg (by simp [hb])).trans (if_neg (by omega)))

end

end

theorem State.ownerMay_iff {k e : Nat} {key sig : Bytes} : s.ownerMay k e key sig = true ↔ s.keyState k = 1 ∧ s.rd (keyAt k + KEY_EPOCH) = e ∧
    leBytes 48 (sha384 key) = s.ownerHash k ∧ Config.ecdsaVerify key (retireMessage k e) sig = true := by
  simp only [State.ownerMay, Bool.and_eq_true, beq_iff_eq, and_assoc]

section
variable {token : Bytes} (hv : s.sec.vendor = false)
include hv

theorem exec_vendorDebugEnter_bad (h : Config.ecdsaVerify Config.debugKey (leBytes 48 identity ++ Config.nonce s.sec.nonce) token = false) :
    exec (.vendorDebugEnter token) s = .next { s with sec := { s.sec with nonce := s.sec.nonce + 1 } } :=
  congrArg Host.Outcome.next ((if_neg (by simp [hv])).trans (if_pos h))

theorem exec_vendorDebugEnter (h : Config.ecdsaVerify Config.debugKey (leBytes 48 identity ++ Config.nonce s.sec.nonce) token = true) :
    exec (.vendorDebugEnter token) s = .next (s.debugEntered ((List.range 256).drop 1)) :=
  congrArg Host.Outcome.next ((if_neg (by simp [hv])).trans (if_neg (by simp [h])))

end

/-- Settles O47, by the answer to each request and by what a token leads to. -/
theorem attestationProtocol : Obligations.AttestationProtocol := by
  intro s
  refine ⟨fun hb => ?busy, fun hb => ?idle, fun token => ?debug⟩
  case busy =>
    exact ⟨fun _ _ _ => congrArg Host.Outcome.next (if_pos hb), fun _ => congrArg Host.Outcome.next (if_pos hb),
      fun _ _ _ _ => congrArg Host.Outcome.next (if_pos hb)⟩
  case idle =>
    have reports {p : Nat} {n : Bytes} := (s.bump64 (attPg + ATT_CTR) 1).reported_eq (p := p) (n := n) ((State.OnlyRegs.bump64 ..).field State.draws rfl)
    refine ⟨fun a p n => exec_attestReport_bad hb,
      fun p n hn hp => ⟨_, by simp, (exec_attestReport hb (by omega)).trans (congrArg Host.Outcome.next reports)⟩, exec_certChainGet hb rfl,
      exec_certChainGet hb rfl, fun a ha => exec_certChainGet hb ?_, fun k e key sig => ⟨exec_ownerRetire_bad hb, fun hk hl hs => ?_⟩⟩
    · rw [if_neg (by omega), if_neg (by omega)]
    · exact ⟨_, exec_ownerRetire hb hk hl hs, fun bad => if_neg fun may => bad ((State.ownerMay_iff).mp may),
        fun good => if_pos ((State.ownerMay_iff).mpr good)⟩
  case debug =>
    refine ⟨fun hv => congrArg Host.Outcome.next (if_pos hv), fun hv => ?_⟩
    cases good : Config.ecdsaVerify Config.debugKey (leBytes 48 identity ++ Config.nonce s.sec.nonce) token with
    | false => exact ⟨_, exec_vendorDebugEnter_bad hv good, rfl, rfl, rfl, fun _ => rfl, nofun⟩
    | true =>
      obtain ⟨vendor, cfg, save⟩ := s.sec_debugEntered (l := (List.range 256).drop 1)
      exact ⟨_, exec_vendorDebugEnter hv good, State.mem_debugEntered, State.spad_debugEntered, State.share_debugEntered, nofun,
        fun _ => ⟨vendor, cfg, save, fun k h1 h2 => State.keyState_debugEntered h2 (mem_range_drop_one h1 h2),
          State.rd_protect_vendorEntered, State.rd_klock_vendorEntered⟩⟩

end Sys2Proof.Machine
end

section
/-! SUPPORT. The recovery page and the debug page: what each write of a request register does. -/

namespace Sys2Proof.Machine

open Sys2Proof

variable {s t u : State} {v : Word}

/-! ### GLB_RCV_APPROVE, GLB_RETIRE_REQ and GLB_CRUMB_CTL (R440, R445, R451, R468) -/

/-- The fields of GLB_RCV_APPROVE stored, before any of its requests. -/
def State.approveStored (s : State) (w : Nat) : State := s.wr (rcvPg + GLB_RCV_APPROVE) (w &&& maskOf 10 3)

section
variable {w : Nat}

theorem State.get_approveStored {f : F} (h : f.off ≠ GLB_RCV_APPROVE) : (s.approveStored w).get rcvPg f = s.get rcvPg f :=
  State.get_wr_ne _ _ _ _ _ (by omega)

theorem State.approveSet_eq (s : State) (w : Nat) : s.approveSet w =
    let t := if bitOf w 0 then (s.approveStored w).recoveryApprove else s.approveStored w
    let u := if bitOf w 1 then t.recoveryHold else t
    if bitOf w 2 then u.recoveryRequest else u := rfl

theorem State.approveSet_approve (h0 : bitOf w 0 = true) (h1 : bitOf w 1 = false) (h2 : bitOf w 2 = false) :
    s.approveSet w = (s.approveStored w).recoveryApprove := by
  simp only [State.approveSet_eq, h0, h1, h2, if_true, Bool.false_eq_true, if_false]

theorem State.approveSet_hold (h0 : bitOf w 0 = false) (h1 : bitOf w 1 = true) (h2 : bitOf w 2 = false) :
    s.approveSet w = (s.approveStored w).recoveryHold := by
  simp only [State.approveSet_eq, h0, h1, h2, if_true, Bool.false_eq_true, if_false]

theorem State.approveSet_request (h0 : bitOf w 0 = false) (h1 : bitOf w 1 = false) (h2 : bitOf w 2 = true) :
    s.approveSet w = (s.approveStored w).recoveryRequest := by
  simp only [State.approveSet_eq, h0, h1, h2, if_true, Bool.false_eq_true, if_false]

end

theorem State.recoveryApprove_idle (h : s.on rcvPg GLB_RCV_STAT_WAIT_APPROVAL = false) : s.recoveryApprove = s := if_pos h

/-- APPROVE with a level waiting runs it, or the higher one that LEVEL holds. -/
theorem State.recoveryApprove_waits {was kind part : Nat} (h : s.on rcvPg GLB_RCV_STAT_WAIT_APPROVAL = true) (hl : s.levelNow = was)
    (hk : s.get rcvPg GLB_RCV_STAT_ENGINE_KIND = kind) (hp : s.get rcvPg GLB_RCV_STAT_PARTITION = part) : s.recoveryApprove =
    s.runLevel (if was < s.get rcvPg GLB_RCV_APPROVE_LEVEL ∧ 4 ≤ s.get rcvPg GLB_RCV_APPROVE_LEVEL ∧ s.get rcvPg GLB_RCV_APPROVE_LEVEL ≤ 6
        then s.get rcvPg GLB_RCV_APPROVE_LEVEL else was)
      (if was = 4 ∨ kind = 0 then part else s.get rcvPg GLB_RCV_APPROVE_PARTITION) := by
  subst hl hk hp
  exact if_neg (ne_false_of_eq_true h)

theorem State.recoveryHold_idle (h : s.on rcvPg GLB_RCV_STAT_WAIT_APPROVAL = false) : s.recoveryHold = s := if_neg (ne_true_of_eq_false h)

theorem State.recoveryHold_waits (h : s.on rcvPg GLB_RCV_STAT_WAIT_APPROVAL = true) : s.recoveryHold = s.set rcvPg GLB_RCV_STAT_HELD 1 := if_pos h

theorem State.recoveryRequest_level (h4 : 4 ≤ s.get rcvPg GLB_RCV_APPROVE_LEVEL) (h6 : s.get rcvPg GLB_RCV_APPROVE_LEVEL ≤ 6) :
    s.recoveryRequest = s.collect 1 3 (s.get rcvPg GLB_RCV_APPROVE_LEVEL) (s.get rcvPg GLB_RCV_APPROVE_PARTITION) := if_pos ⟨h4, h6⟩

theorem State.recoveryRequest_ignored (h : s.get rcvPg GLB_RCV_APPROVE_LEVEL < 4 ∨ 6 < s.get rcvPg GLB_RCV_APPROVE_LEVEL) : s.recoveryRequest = s :=
  if_neg (by omega)

theorem State.retireRequest_busy (h : s.on rcvPg GLB_RETIRE_REQ_BUSY = true) : s.retireRequest = s := if_pos h

/-- The state after a retirement request is taken: BUSY, and the request is collected. -/
def State.retireTaken (s : State) : State :=
  (s.set rcvPg GLB_RETIRE_REQ_BUSY 1).collect 1 1 (s.get rcvPg GLB_RETIRE_REQ_TYPE) (s.get rcvPg GLB_RETIRE_REQ_INDEX)

theorem State.retireRequest_taken (h : s.on rcvPg GLB_RETIRE_REQ_BUSY = false) : s.retireRequest = s.retireTaken := if_neg (ne_true_of_eq_false h)

theorem State.rd_retireTaken (a : Nat) : s.retireTaken.rd a = (s.set rcvPg GLB_RETIRE_REQ_BUSY 1).rd a := State.rd_of_regs rfl a

theorem State.on_busy_retireTaken : s.retireTaken.on rcvPg GLB_RETIRE_REQ_BUSY = true := by
  rw [State.on, State.get, State.rd_retireTaken]
  exact State.on_mark_self s rcvPg GLB_RETIRE_REQ_BUSY true rfl (by decide)

theorem State.on_busy_retireStored (a b : Nat) :
    ((s.set rcvPg GLB_RETIRE_REQ_TYPE a).set rcvPg GLB_RETIRE_REQ_INDEX b).on rcvPg GLB_RETIRE_REQ_BUSY = s.on rcvPg GLB_RETIRE_REQ_BUSY := by
  have index := (s.set rcvPg GLB_RETIRE_REQ_TYPE a).get_set_disjoint rcvPg GLB_RETIRE_REQ_INDEX b (g := GLB_RETIRE_REQ_BUSY) rfl (by decide) (by decide) (by decide)
  have type := s.get_set_disjoint rcvPg GLB_RETIRE_REQ_TYPE a (g := GLB_RETIRE_REQ_BUSY) rfl (by decide) (by decide) (by decide)
  rw [State.on, State.on, index, type]

/-- Settles O50, by what each request bit does once the fields are stored. -/
theorem approvalsAndRequests : Obligations.ApprovalsAndRequests := by
  intro s v hs done
  refine ⟨?approve, ?retire, ?crumbs⟩
  case approve =>
    intro w t was want part
    have row {u : State} (h : s.approveSet w = u) : s.rowWrite 0 true (rcvPg + GLB_RCV_APPROVE) v = done u :=
      (State.rowWrite_pf s true _ v rfl).trans (congrArg Host.Outcome.next ((State.write_rcvApprove v hs).trans (congrArg (State.bumpSeq · rcvPg) h)))
    have waits : t.on rcvPg GLB_RCV_STAT_WAIT_APPROVAL = s.on rcvPg GLB_RCV_STAT_WAIT_APPROVAL := congrArg (· != 0) (State.get_approveStored (by decide))
    have level : t.levelNow = was := State.get_approveStored (by decide)
    have kind : t.get rcvPg GLB_RCV_STAT_ENGINE_KIND = s.get rcvPg GLB_RCV_STAT_ENGINE_KIND := State.get_approveStored (by decide)
    have partition : t.get rcvPg GLB_RCV_STAT_PARTITION = s.get rcvPg GLB_RCV_STAT_PARTITION := State.get_approveStored (by decide)
    refine ⟨fun h0 h1 h2 => ⟨fun h => ?_, fun h => ?_⟩, fun h0 h1 h2 => ⟨fun h => ?_, fun h => ?_⟩, fun h0 h1 h2 => ⟨fun h4 h6 => ?_, fun h => ?_⟩⟩
    · exact row ((State.approveSet_approve h0 h1 h2).trans (State.recoveryApprove_idle (waits.trans h)))
    · exact row ((State.approveSet_approve h0 h1 h2).trans (State.recoveryApprove_waits (waits.trans h) level kind partition))
    · exact row ((State.approveSet_hold h0 h1 h2).trans (State.recoveryHold_idle (waits.trans h)))
    · exact row ((State.approveSet_hold h0 h1 h2).trans (State.recoveryHold_waits (waits.trans h)))
    · exact row ((State.approveSet_request h0 h1 h2).trans (State.recoveryRequest_level h4 h6))
    · exact row ((State.approveSet_request h0 h1 h2).trans (State.recoveryRequest_ignored h))
  case retire =>
    intro w t go
    have row {u : State} (h : t.retireRequest = u) : s.rowWrite 0 true (rcvPg + GLB_RETIRE_REQ_GO.off) v = done u :=
      (State.rowWrite_pf s true _ v rfl).trans (congrArg Host.Outcome.next
        ((State.write_retireReq v hs).trans (congrArg (State.bumpSeq · rcvPg) ((if_pos go).trans h))))
    have busy : t.on rcvPg GLB_RETIRE_REQ_BUSY = s.on rcvPg GLB_RETIRE_REQ_BUSY := State.on_busy_retireStored ..
    refine ⟨fun h => row (State.retireRequest_busy (busy.trans h)), fun h => ⟨_, row (State.retireRequest_taken (busy.trans h)),
      State.on_busy_retireTaken, rfl, fun a ha => ?_⟩⟩
    exact (State.rd_retireTaken a).trans (State.rd_set_ne _ _ _ _ (List.ne_of_not_mem_cons ha))
  case crumbs =>
    intro w clear
    refine (State.rowWrite_pf s true _ v rfl).trans (congrArg Host.Outcome.next ?_)
    exact (State.write_crumbCtl v hs).trans (congrArg (State.bumpSeq · rcvPg) (if_pos clear))

/-! ### Test mode and halted islands (R528) -/

theorem State.halted_clock (s : State) (i : Nat) : (s.clock i).halted = s.halted := rfl

theorem State.not_mem_halted_restart (s : State) (i : Nat) : i ∉ (s.restart i).halted := by
  unfold State.restart
  split
  case isTrue h => exact fun hi => Bool.false_ne_true (h.symm.trans (List.contains_iff_mem.mpr hi))
  case isFalse =>
    have gone : i ∉ s.halted.filter (· != i) := by simp
    dsimp only
    split
    · rw [State.halted_clock]
      exact gone
    · exact gone

/-- What HALT asks of an island, once it is named in DBG_HALT. -/
def State.haltNamed (s : State) (i : Nat) : State := s.set dbgPg DBG_HALT_ISLAND i

section
variable {i : Nat}

theorem State.on_test_haltNamed : (s.haltNamed i).on dbgPg DBG_TEST_CTL_TEST = s.on dbgPg DBG_TEST_CTL_TEST :=
  congrArg (· != 0) (s.get_set_ne dbgPg DBG_HALT_ISLAND i (by decide))

theorem State.islandClosed_haltNamed : (s.haltNamed i).islandClosed i = s.islandClosed i :=
  State.islandClosed_congr (fun a ha => State.rd_set_ne _ _ _ _ (by simp only [dbgPg, Pg.base, DBG_HALT_ISLAND]; omega)) i

theorem State.islandHalt_outside (h : s.on dbgPg DBG_TEST_CTL_TEST = false) : s.islandHalt i = s.haltResult i 2 := if_pos h

section
variable (h : s.on dbgPg DBG_TEST_CTL_TEST = true)
include h

theorem State.islandHalt_cannot (hi : 152 ≤ i) : s.islandHalt i = s.haltResult i 3 := (if_neg (ne_false_of_eq_true h)).trans (if_pos hi)

theorem State.islandHalt_closed (hi : i < 152) (hc : s.islandClosed i = true) : s.islandHalt i = (s.haltResult i 1).dbgBlock :=
  (if_neg (ne_false_of_eq_true h)).trans ((if_neg (Nat.not_le.mpr hi)).trans (if_pos hc))

theorem State.islandHalt_halts (hi : i < 152) (hc : s.islandClosed i = false) :
    s.islandHalt i = (if s.halted.contains i then s else { s with halted := i :: s.halted }).haltResult i 0 :=
  (if_neg (ne_false_of_eq_true h)).trans ((if_neg (Nat.not_le.mpr hi)).trans (if_neg (ne_true_of_eq_false hc)))

end

/-- The island is among the halted ones, the others as before. -/
def State.islandHalted (s : State) (i : Nat) : State := if s.halted.contains i then s else { s with halted := i :: s.halted }

theorem State.mem_halted_islandHalted {j : Nat} : j ∈ (s.islandHalted i).halted ↔ j = i ∨ j ∈ s.halted := by
  unfold State.islandHalted
  split
  case isTrue h =>
    refine ⟨.inr, fun hj => hj.elim (fun e => ?_) id⟩
    exact e ▸ List.contains_iff_mem.mp h
  case isFalse => exact List.mem_cons

theorem State.sameBytes_haltResult {n : Nat} : s.sameBytes ((s.islandHalted i).haltResult i n) := by
  have halted : (s.islandHalted i).mems = s.mems := by
    unfold State.islandHalted
    split
    · rfl
    · exact State.mems_with_halted rfl
  exact State.sameBytes_of_mems (State.set_mems (State.set_mems halted))

theorem State.get_result_haltResult {n : Nat} (hn : n < 4) : (s.haltResult i n).get dbgPg DBG_HALT_RESULT = n := by
  have kept := (s.set dbgPg DBG_HALT_RESULT n).get_set_disjoint dbgPg DBG_HALT_HALTED (if s.halted.contains i then 1 else 0) (g := DBG_HALT_RESULT)
    rfl (by decide) (by decide) (by decide)
  have stored := s.get_set_self dbgPg DBG_HALT_RESULT n (by decide) (by decide)
  exact kept.trans (stored.trans (Nat.mod_eq_of_lt hn))

theorem State.on_halted_haltResult (n : Nat) : (s.haltResult i n).on dbgPg DBG_HALT_HALTED = s.halted.contains i :=
  State.on_mark_self _ _ _ _ rfl (by decide)

end

/-! ### Debug accesses (R529) -/

/-- The three flags of DBG_ACC_CTL cleared, before an access sets one. -/
def State.accCleared (s : State) : State :=
  ((s.set dbgPg DBG_ACC_CTL_BLOCKED 0).set dbgPg DBG_ACC_CTL_RANGE 0).set dbgPg DBG_ACC_CTL_NOT_HALTED 0

theorem State.rd_data_accCleared : s.accCleared.rd (dbgPg + DBG_ACC_DATA) = s.rd (dbgPg + DBG_ACC_DATA) :=
  (State.rd_set_ne _ _ _ _ (by decide)).trans ((State.rd_set_ne _ _ _ _ (by decide)).trans (State.rd_set_ne _ _ _ _ (by decide)))

/-- READ by what it finds at the target. -/
def State.readAnswered (t : State) : DbgRes → State
  | .range => t.set dbgPg DBG_ACC_CTL_RANGE 1
  | .blocked => ((t.set dbgPg DBG_ACC_CTL_BLOCKED 1).wr (dbgPg + DBG_ACC_DATA) 0).dbgBlock
  | .word v => t.wr (dbgPg + DBG_ACC_DATA) v

/-- WRITE of a word by what it finds at the target, and by whether the island is halted. -/
def State.writeAnswered (t : State) (halted : Bool) (i un sp n v : Nat) : DbgRes → State
  | .range => t.set dbgPg DBG_ACC_CTL_RANGE 1
  | .blocked => (t.set dbgPg DBG_ACC_CTL_BLOCKED 1).dbgBlock
  | .word _ => if halted = false then t.set dbgPg DBG_ACC_CTL_NOT_HALTED 1 else t.dbgPut i un sp n v

section
variable {i un sp n : Nat} (hi : s.get dbgPg DBG_ACC_TGT_ISLAND = i) (hu : s.get dbgPg DBG_ACC_TGT_UNIT = un)
  (hs : s.get dbgPg DBG_ACC_TGT_SPACE = sp) (hn : s.get dbgPg DBG_ACC_WORD_WORD = n) {x : DbgRes} (hx : s.dbgRead i un sp n = x)
include hi hu hs hn hx

theorem State.dbgReadReq_eq : s.dbgReadReq = s.accCleared.readAnswered x := by
  rw [State.dbgReadReq, hi, hu, hs, hn, hx]
  cases x <;> rfl

theorem State.dbgWriteReq_eq :
    s.dbgWriteReq = s.accCleared.writeAnswered (s.halted.contains i) i un sp n (s.rd (dbgPg + DBG_ACC_DATA)) x := by
  rw [← State.rd_data_accCleared, State.dbgWriteReq, hi, hu, hs, hn, hx]
  cases x <;> rfl

end

section
variable {i : Nat} {un sp n v x : Nat}

theorem State.writeAnswered_running (h : i ∉ s.halted) :
    t.writeAnswered (s.halted.contains i) i un sp n v (.word x) = t.set dbgPg DBG_ACC_CTL_NOT_HALTED 1 := if_pos (by simpa using h)

theorem State.writeAnswered_halted (h : i ∈ s.halted) : t.writeAnswered (s.halted.contains i) i un sp n v (.word x) = t.dbgPut i un sp n v :=
  if_neg (ne_false_of_eq_true (List.contains_iff_mem.mpr h))

end

/-- Settles O52, by what each request bit of the debug page does. -/
theorem debugPage : Obligations.DebugPage := by
  intro s v hs done
  have row {off : Nat} {u : State} (h : s.write4 0 off v.toNat = u.bumpSeq dbgPg) : s.rowWrite 0 true off v = done u :=
    (State.rowWrite_pf s true off v rfl).trans (congrArg Host.Outcome.next h)
  refine ⟨row (State.write_testCtl v hs), ?halt, ?access⟩
  case halt =>
    intro w i t
    have test : t.on dbgPg DBG_TEST_CTL_TEST = s.on dbgPg DBG_TEST_CTL_TEST := State.on_test_haltNamed
    have closed : t.islandClosed i = s.islandClosed i := State.islandClosed_haltNamed
    refine ⟨fun h8 h9 => ?_, fun h8 h9 => ⟨row ?_, State.not_mem_halted_restart t i⟩⟩
    · have halt {u : State} (h : t.islandHalt i = u) : s.rowWrite 0 true (dbgPg + DBG_HALT) v = done u :=
        row ((State.write_dbgHalt v hs).trans (congrArg (State.bumpSeq · dbgPg) ((if_neg (ne_true_of_eq_false h9)).trans ((if_pos h8).trans h))))
      refine ⟨fun hn => halt (State.islandHalt_outside (test.trans hn)), fun hn => ⟨fun hi => halt (State.islandHalt_cannot (test.trans hn) hi),
        fun hi hc => halt (State.islandHalt_closed (test.trans hn) hi (closed.trans hc)), fun hi hc =>
        ⟨_, halt (State.islandHalt_halts (test.trans hn) hi (closed.trans hc)), ?_⟩⟩⟩
      have here : i ∈ (t.islandHalted i).halted := (State.mem_halted_islandHalted).mpr (.inl rfl)
      exact ⟨here, fun j hj => (State.mem_halted_islandHalted).trans (or_iff_right hj), State.get_result_haltResult (by decide),
        (State.on_halted_haltResult 0).trans (List.contains_iff_mem.mpr here),
        State.sameBytes_haltResult⟩
    · exact (State.write_dbgHalt v hs).trans (congrArg (State.bumpSeq · dbgPg)
        ((if_pos h9).trans (congrArg (State.islandResume · i) (if_neg (ne_true_of_eq_false h8)))))
  case access =>
    intro i un sp n w t range closed
    refine ⟨fun h0 h1 => ?_, fun h0 h1 => ?_⟩
    · have read {u : State} (h : s.dbgReadReq = u) : s.rowWrite 0 true (dbgPg + DBG_ACC_CTL_READ.off) v = done u :=
        row ((State.write_dbgAcc v hs).trans (congrArg (State.bumpSeq · dbgPg) ((if_neg (ne_true_of_eq_false h1)).trans ((if_pos h0).trans h))))
      have found {x : DbgRes} (h : s.dbgRead i un sp n = x) := read (State.dbgReadReq_eq rfl rfl rfl rfl h)
      exact ⟨fun hr => found (State.dbgRead_range hr), fun hr hc => found (State.dbgRead_blocked hr hc), fun hr hc => found (State.dbgRead_word hr hc)⟩
    · have write {u : State} (h : s.dbgWriteReq = u) : s.rowWrite 0 true (dbgPg + DBG_ACC_CTL_READ.off) v = done u :=
        row ((State.write_dbgAcc v hs).trans (congrArg (State.bumpSeq · dbgPg)
          ((if_pos h1).trans ((congrArg State.dbgWriteReq (if_neg (ne_true_of_eq_false h0))).trans h))))
      have found {x : DbgRes} {u : State} (h : s.dbgRead i un sp n = x)
          (hu : s.accCleared.writeAnswered (s.halted.contains i) i un sp n (s.rd (dbgPg + DBG_ACC_DATA)) x = u) :=
        write ((State.dbgWriteReq_eq rfl rfl rfl rfl h).trans hu)
      exact ⟨fun hr => found (State.dbgRead_range hr) rfl, fun hr hc => found (State.dbgRead_blocked hr hc) rfl, fun hr hc =>
        ⟨fun hi => found (State.dbgRead_word hr hc) (State.writeAnswered_running hi), fun hi => found (State.dbgRead_word hr hc) (State.writeAnswered_halted hi)⟩⟩

end Sys2Proof.Machine
end

section
/-! SUPPORT. The security page: protection, the key lock, the key-flow table, the unlock and the fused version. -/

namespace Sys2Proof.Machine

open Sys2Proof

variable {s t u : State} {v : Word}

/-! ### SEC_PROTECT and SEC_KLOCK (R397, R405) -/

theorem mem_onesBelow {n m i : Nat} : i ∈ onesBelow n m ↔ i < n ∧ bitOf m i = true := by
  simp only [onesBelow, List.mem_filter, List.mem_range, bitOf]

/-- A map into which the bits of a list are set. -/
theorem bitOf_or_maskOfList {n p : Nat} {l : List Nat} {b : Bool} (hp : p < 32) (hb : p ∈ l ↔ b = true) :
    bitOf ((n ||| maskOfList l) % 2 ^ 32) p = (bitOf n p || b) := by
  have listed : bitOf (maskOfList l) p = b := Bool.eq_iff_iff.mpr ((bitOf_maskOfList l p).trans hb)
  rw [bitOf] at listed
  simp only [bitOf, Nat.testBit_mod_two_pow, hp, decide_true, Bool.true_and, Nat.testBit_or, listed]

theorem State.rd_bumpSeq_ne (s : State) {pg a : Nat} (h : a ≠ pg + 0x024) : (s.bumpSeq pg).rd a = s.rd a := State.rd_wr_ne _ _ _ h

/-- A register stored and counted in BLK_SEQ: no other register changes. -/
theorem State.sameRegs_wr_bumpSeq (s : State) (a n pg : Nat) : s.sameRegs ((s.wr a n).bumpSeq pg) [a, pg + 0x024] := by
  intro b hb
  obtain ⟨hne, hseq⟩ := List.ne_and_not_mem_of_not_mem_cons hb
  exact (State.rd_bumpSeq_ne _ (List.ne_of_not_mem_cons hseq)).trans (State.rd_wr_ne _ _ _ hne)

theorem written_protect (v : Word) : written .sec SEC_PROTECT v = v.toNat := written_whole rfl (by decide) v

theorem written_klock (v : Word) : written .sec SEC_KLOCK v = v.toNat := written_whole rfl (by decide) v

theorem State.secProtectSet_vendor {n : Nat} (h : s.sec.vendor = true) : s.secProtectSet n = s := if_pos h

theorem State.secProtectSet_open {n : Nat} (h : s.sec.vendor = false) : s.secProtectSet n = s.wr (secPg + SEC_PROTECT)
    (s.rd (secPg + SEC_PROTECT) ||| maskOfList ((onesBelow 32 n).filter fun p => s.partState p == 1 || s.partState p == 2)) :=
  if_neg (ne_true_of_eq_false h)

theorem State.bitOf_secProtectSet {n p : Nat} (hp : p < 32) : bitOf ((s.secProtectSet n).rd (secPg + SEC_PROTECT)) p =
    (bitOf (s.rd (secPg + SEC_PROTECT)) p || (!s.sec.vendor && bitOf n p && (s.partState p == 1 || s.partState p == 2))) := by
  cases h : s.sec.vendor with
  | true => simp [State.secProtectSet_vendor h]
  | false =>
    rw [State.secProtectSet_open h, State.rd_wr_self]
    exact bitOf_or_maskOfList hp (by simp [mem_onesBelow, hp])

theorem State.sameRegs_secProtectSet {n : Nat} : s.sameRegs ((s.secProtectSet n).bumpSeq secPg) [secPg + SEC_PROTECT, secPg + 0x024] := by
  cases h : s.sec.vendor with
  | true =>
    rw [State.secProtectSet_vendor h]
    exact fun a ha => State.rd_bumpSeq_ne s (List.ne_of_not_mem_cons (List.not_mem_of_not_mem_cons ha))
  | false =>
    rw [State.secProtectSet_open h]
    exact s.sameRegs_wr_bumpSeq _ _ _

theorem State.bitOf_keyLockSet {n p : Nat} (hp : p < 32) : bitOf ((s.keyLockSet n).rd (secPg + SEC_KLOCK)) p =
    (bitOf (s.rd (secPg + SEC_KLOCK)) p || (bitOf n p && bitOf (s.rd (secPg + SEC_PROTECT)) p)) := by
  rw [State.keyLockSet, State.rd_wr_self]
  refine bitOf_or_maskOfList hp ?_
  simp [mem_onesBelow, hp, State.isProtected, State.bitAt]

/-! ### The key-flow table (R393, R397) -/

theorem written_kft {k : Nat} (hk : k < 8) (v : Word) : written .sec (0x050 + 4 * k) v = v.toNat := by
  have whole : ∃ r, regAt .sec (0x050 + 4 * k) = some r ∧ r.mask = 2 ^ 32 - 1 := by
    interval_cases k <;> exact ⟨_, rfl, by decide⟩
  obtain ⟨r, hr, hm⟩ := whole
  exact written_whole hr hm v

/-- The row that SEC_KFT_SEL names, in a state. -/
def kftRowOf (p r : Nat) (u : State) : Nat := Tab.get (if r = 0 then 2 ^ 256 - 1 else 2 ^ r) u.sec.kft (p * 256 + r)

section
variable {i n p r : Nat} (hp : s.get secPg SEC_KFT_SEL_PARTITION = p) (hr : s.get secPg SEC_KFT_SEL_ROW = r)
include hp hr

theorem State.kftWriteWord_eq : s.kftWriteWord i n =
    if putBits (kftRowOf p r s) (32 * i + 31) (32 * i) n = kftRowOf p r s then (s, true)
    else if s.keyLocked p then (s.lockViol, false)
    else ({ s with sec := { s.sec with
      kft := Tab.put (if r = 0 then 2 ^ 256 - 1 else 2 ^ r) (p * 256 + r) (putBits (kftRowOf p r s) (32 * i + 31) (32 * i) n) s.sec.kft } }, true) := by
  subst hp hr
  rfl

/-- A write without a key lock is taken: the row holds the word. -/
theorem State.kftWriteWord_taken (h : s.keyLocked p = false) : ∃ t : State, s.kftWriteWord i n = (t, true) ∧
    kftRowOf p r t = putBits (kftRowOf p r s) (32 * i + 31) (32 * i) n ∧ t.regs = s.regs ∧ s.sameBytes t := by
  rw [State.kftWriteWord_eq hp hr]
  by_cases same : putBits (kftRowOf p r s) (32 * i + 31) (32 * i) n = kftRowOf p r s
  · exact ⟨s, if_pos same, same.symm, rfl, (State.OnlyRegs.refl s).sameBytes⟩
  · exact ⟨_, (if_neg same).trans (if_neg (by simp [h])), Tab.get_put_self .., rfl, fun _ => rfl, fun _ => rfl, fun _ => rfl⟩

theorem State.kftWriteWord_dropped (h : s.keyLocked p = true) (hn : putBits (kftRowOf p r s) (32 * i + 31) (32 * i) n ≠ kftRowOf p r s) :
    s.kftWriteWord i n = (s.bump (secPg + SEC_LOCK_VIOL) 1, false) :=
  (State.kftWriteWord_eq hp hr).trans ((if_neg hn).trans (if_pos h))

end

/-! ### The unlock (R398) -/

/-- PARTITION of SEC_UNLOCK taken. -/
def State.unlockNamed (s : State) (p : Nat) : State := s.set secPg SEC_UNLOCK_PARTITION p

theorem State.rd_unlockNamed {p a : Nat} (h : a ≠ secPg + SEC_UNLOCK) : (s.unlockNamed p).rd a = s.rd a := State.rd_set_ne _ _ _ _ h

theorem State.on_busy_unlockNamed {p : Nat} : (s.unlockNamed p).on secPg SEC_UNLOCK_BUSY = s.on secPg SEC_UNLOCK_BUSY :=
  congrArg (· != 0) (s.get_set_disjoint secPg SEC_UNLOCK_PARTITION p rfl (by decide) (by decide) (by decide))

theorem State.keyLocked_unlockNamed {p q : Nat} : (s.unlockNamed p).keyLocked q = s.keyLocked q :=
  congrArg (bitOf · q) (State.rd_unlockNamed (by decide))

section
variable {w : Nat}

theorem State.keyUnlock_ignored (h : bitOf w 5 = false ∨ s.on secPg SEC_UNLOCK_BUSY = true ∨ s.keyLocked (w % 32) = false) :
    s.keyUnlock w = s.unlockNamed (w % 32) := by
  refine if_pos ?_
  change bitOf w 5 = false ∨ (s.unlockNamed (w % 32)).on secPg SEC_UNLOCK_BUSY = true ∨ (s.unlockNamed (w % 32)).keyLocked (w % 32) = false
  rwa [State.on_busy_unlockNamed, State.keyLocked_unlockNamed]

/-- An unlock under way, before any slot is retired. -/
def State.unlockBegun (s : State) (p : Nat) : State :=
  let u := (s.unlockNamed p).set secPg SEC_UNLOCK_BUSY 1
  { u with sec := { u.sec with unlocking := p } }

theorem State.rd_unlockBegun {p a : Nat} (h : a ≠ secPg + SEC_UNLOCK) : (s.unlockBegun p).rd a = s.rd a :=
  (State.rd_of_regs (s := (s.unlockNamed p).set secPg SEC_UNLOCK_BUSY 1) rfl a).trans ((State.rd_set_ne _ _ _ _ h).trans (State.rd_unlockNamed h))

theorem State.on_busy_unlockBegun {p : Nat} : (s.unlockBegun p).on secPg SEC_UNLOCK_BUSY = true := by
  have kept : (s.unlockBegun p).on secPg SEC_UNLOCK_BUSY = ((s.unlockNamed p).mark secPg SEC_UNLOCK_BUSY true).on secPg SEC_UNLOCK_BUSY :=
    congrArg (bitsOf · _ _ != 0) (State.rd_of_regs rfl _)
  exact kept.trans (State.on_mark_self _ _ _ _ rfl (by decide))

/-- The slots of a partition and their states stand in other registers. -/
theorem State.keyState_unlockBegun {p k : Nat} : (s.unlockBegun p).keyState k = s.keyState k :=
  congrArg (bitsOf · _ _) (State.rd_unlockBegun (by simp only [secPg, keyAt, Pg.base, SEC_UNLOCK]; omega))

theorem State.partKeys_unlockBegun {p q : Nat} (hq : q < 32) : (s.unlockBegun p).partKeys q = s.partKeys q := by
  refine List.filter_congr fun k hk => congrArg (k == 0 || bitOf · (k % 32)) (State.rd_unlockBegun ?_)
  have slot : k < 256 := List.mem_range.mp (List.mem_of_mem_drop hk)
  simp only [secPg, partPg, Pg.base, SEC_UNLOCK, PART_KEYS]
  omega

/-- The lock of a partition lifted, BUSY cleared. -/
def State.unlocked (s : State) (p : Nat) : State :=
  (s.wr (secPg + SEC_KLOCK) (putBit (s.rd (secPg + SEC_KLOCK)) p false)).set secPg SEC_UNLOCK_BUSY 0

/-- With nothing to retire, the lock lifts at once. -/
theorem State.keyUnlock_settles (h5 : bitOf w 5 = true) (hb : s.on secPg SEC_UNLOCK_BUSY = false) (hl : s.keyLocked (w % 32) = true)
    (ha : s.attached (w % 32) = []) (hk : ∀ k, k ∈ s.partKeys (w % 32) → s.keyState k = 0) :
    s.keyUnlock w = (s.unlockBegun (w % 32)).unlocked (w % 32) := by
  have keys : (s.unlockBegun (w % 32)).partKeys (w % 32) = s.partKeys (w % 32) := State.partKeys_unlockBegun (Nat.mod_lt _ (by decide))
  have free : ((s.unlockBegun (w % 32)).partKeys (w % 32)).all (fun k => (s.unlockBegun (w % 32)).keyState k == 0) = true := by
    rw [keys, List.all_eq_true]
    exact fun k h => beq_iff_eq.mpr ((State.keyState_unlockBegun).trans (hk k h))
  have none : ((s.unlockBegun (w % 32)).partKeys (w % 32)).filter (fun k => (s.unlockBegun (w % 32)).keyState k != 0) = [] := by
    rw [List.filter_eq_nil_iff]
    exact fun k h => by simpa using List.all_eq_true.mp free k h
  have begun : (s.unlockBegun (w % 32)).partTdiError (w % 32) 2 = s.unlockBegun (w % 32) :=
    congrArg (List.foldl _ (s.unlockBegun (w % 32))) ha
  have settles : (s.unlockBegun (w % 32)).unlockSettle = (s.unlockBegun (w % 32)).unlocked (w % 32) :=
    if_pos ⟨State.on_busy_unlockBegun, free⟩
  have goes : ¬ (bitOf w 5 = false ∨ (s.unlockNamed (w % 32)).on secPg SEC_UNLOCK_BUSY = true ∨ (s.unlockNamed (w % 32)).keyLocked (w % 32) = false) := by
    rw [State.on_busy_unlockNamed, State.keyLocked_unlockNamed, h5, hb, hl]
    decide
  refine (if_neg goes).trans ?_
  show State.unlockSettle (List.foldl _ ((s.unlockBegun (w % 32)).partTdiError (w % 32) 2)
    ((((s.unlockBegun (w % 32)).partTdiError (w % 32) 2).partKeys (w % 32)).filter
      (fun k => ((s.unlockBegun (w % 32)).partTdiError (w % 32) 2).keyState k != 0))) = _
  rw [begun, none]
  exact settles

end

section
variable {p q : Nat}

theorem State.keyLocked_unlocked (hq : q < 32) : (s.unlocked p).keyLocked q = (q != p && s.keyLocked q) := by
  rw [State.keyLocked, State.bitAt, State.unlocked, State.rd_set_ne _ _ _ _ (by decide), State.rd_wr_self, bitOf, Nat.testBit_mod_two_pow,
    testBit_putBit_false]
  simp only [hq, decide_true, Bool.true_and]
  rfl

theorem State.on_busy_unlocked : (s.unlocked p).on secPg SEC_UNLOCK_BUSY = false :=
  State.on_mark_self (s.wr (secPg + SEC_KLOCK) (putBit (s.rd (secPg + SEC_KLOCK)) p false)) secPg SEC_UNLOCK_BUSY false rfl (by decide)

theorem State.keyLocked_unlockBegun : (s.unlockBegun p).keyLocked q = s.keyLocked q := congrArg (bitOf · q) (State.rd_unlockBegun (by decide))

theorem State.sameBytes_unlocked : s.sameBytes (((s.unlockBegun p).unlocked p).bumpSeq secPg) :=
  State.sameBytes_of_mems (State.wr_mems (State.set_mems (State.wr_mems (State.mems_with_sec (State.set_mems (State.set_mems rfl))))))

end

/-! ### COMMIT_SVN (R419) -/

theorem State.get_fused_commitSvn : s.commitSvn.get attPg ATT_SVN_FUSED = s.commitSvn.sec.svnFused % 2 ^ 16 :=
  State.get_set_self _ _ _ _ (by decide) (by decide)

/-- Settles O45, by what each register of the security page does with a word. -/
theorem protectionAndLocks : Obligations.ProtectionAndLocks := by
  intro s v hs
  have row {off : Nat} {u : State} (h : s.write4 0 off v.toNat = u) : s.rowWrite 0 true off v = .next u :=
    (State.rowWrite_pf s true off v rfl).trans (congrArg Host.Outcome.next h)
  refine ⟨⟨_, row (State.write_secProtect v hs), ?_, fun p hp => ?_⟩, ⟨_, row (State.write_secKlock v hs), s.sameRegs_wr_bumpSeq _ _ _, fun p hp => ?_⟩,
    fun i hi => ?kft, ?unlock, ?svn⟩
  · exact State.sameRegs_secProtectSet
  · rw [State.rd_bumpSeq_ne _ (by decide), written_protect]
    exact State.bitOf_secProtectSet hp
  · rw [State.rd_bumpSeq_ne _ (by decide), written_klock]
    exact State.bitOf_keyLockSet hp
  case kft =>
    intro p r row new
    have write {u : State} (h : s.write4 0 (secPg + SEC_KFT_DATA + 4 * i) v.toNat = u) : exec (.kftWrite 0 i v) s = .next u :=
      (State.rowWrite_pf s _ _ v (decide_eq_true hi)).trans (congrArg Host.Outcome.next h)
    have stored := State.write_kft i hi v hs
    rw [written_kft hi] at stored
    refine ⟨fun hl => ?_, fun hl hn => ?_⟩
    · obtain ⟨t, ht, hrow, hregs, hbytes⟩ := State.kftWriteWord_taken (i := i) (n := v.toNat) rfl rfl hl
      rw [ht] at stored
      exact ⟨t.bumpSeq secPg, write stored, hrow, fun a ha => (State.rd_bumpSeq_ne t (List.ne_of_not_mem_cons ha)).trans (State.rd_of_regs hregs a), hbytes⟩
    · rw [State.kftWriteWord_dropped rfl rfl hl hn] at stored
      exact write stored
  case unlock =>
    intro w p t
    have unlock {u : State} (h : s.keyUnlock w = u) : exec (.keyUnlock 0 v) s = .next (u.bumpSeq secPg) :=
      row ((State.write_secUnlock v hs).trans (congrArg (State.bumpSeq · secPg) h))
    refine ⟨fun h => unlock (State.keyUnlock_ignored (h.elim (fun hb => .inr (.inl hb)) .inl)), fun hb h5 =>
      ⟨fun hl => unlock (State.keyUnlock_ignored (.inr (.inr hl))), fun hl ha hk => ⟨_, unlock (State.keyUnlock_settles h5 hb hl ha hk), ?_⟩⟩⟩
    have locked {q : Nat} (hq : q < 32) : (((s.unlockBegun p).unlocked p).bumpSeq secPg).keyLocked q = (q != p && s.keyLocked q) :=
      (congrArg (bitOf · q) (State.rd_bumpSeq_ne _ (by decide))).trans ((State.keyLocked_unlocked hq).trans (by rw [State.keyLocked_unlockBegun]))
    have busy : (((s.unlockBegun p).unlocked p).bumpSeq secPg).on secPg SEC_UNLOCK_BUSY = false :=
      (congrArg (· != 0) (State.get_bumpSeq _ secPg (by decide))).trans State.on_busy_unlocked
    refine ⟨(locked (Nat.mod_lt _ (by decide))).trans (by rw [bne_self_eq_false, Bool.false_and]), busy,
      fun q hq hne => (locked hq).trans (by simp [hne]), State.sameBytes_unlocked⟩
  case svn =>
    intro w h0
    have commits := State.write_secFwCtl v hs
    rw [if_pos h0] at commits
    exact ⟨_, row commits, rfl, (State.get_wr_ne _ _ _ _ _ (by decide)).trans State.get_fused_commitSvn⟩

end Sys2Proof.Machine
end

section
/-! SUPPORT. The ladder of levels: resets of an engine and of a partition, the turns of a tasting, the device-level reset, a power cycle. -/

namespace Sys2Proof.Machine

open Sys2Proof

variable {s t u : State}

/-! ### Engine and partition resets (R435, R436, R440) -/

section
variable {kind i : Nat} (hk : kind ≤ 2) (hi : i < engineCount kind)
include hk hi

theorem engine_there : (decide (kind ≤ 2) && decide (i < engineCount kind)) = true := by simp only [hk, hi, decide_true, Bool.and_self]

/-- With no level in progress the reset is proposed, or it runs at once. -/
theorem exec_engineReset (h0 : s.levelNow = 0) (ht : t = if s.hostMode 3 then s.startLevel 2 kind i (if kind = 0 then (s.sliceOwner i).getD 0 else 0) codeHang true
    else ((s.startLevel 2 kind i (if kind = 0 then (s.sliceOwner i).getD 0 else 0) codeHang false).takeCrumbs 2 codeHang kind i
      (scopeSlices kind i)).engineRun kind i) : exec (.engineReset kind i) s = .next t := by
  refine onUnit_next (engine_there hk hi) (Eq.trans ?_ ht.symm)
  simp only [h0, Nat.reduceLeDiff, Nat.reduceEqDiff, false_and, or_self, if_false]

end

/-- A partition that takes the reset, with no tasting in progress: the level starts and runs. -/
theorem exec_partitionReset (h0 : s.levelNow = 0) {p : Nat} (hp : p < 32) (hs : 2 ≤ s.partState p) (hh : s.hostMode 3 = false)
    (hn : s.rcv.scope = none) : exec (.partitionReset p) s = .next (
      let u := s.startLevel 4 4 0 p s.rcv.cause false
      (u.takeCrumbs 4 s.rcv.cause 4 0 (u.partSlices p)).partitionRun p 4 0) := by
  have stays : s.tasteStop false = s := if_pos (by rw [hn]; rfl)
  refine onUnit_next (decide_eq_true hp) ?_
  simp only [h0, hh, stays, Nat.reduceLeDiff, Nat.reduceEqDiff, false_and, false_or, Nat.not_lt.mpr hs, Bool.false_eq_true, if_false]

theorem exec_partitionReset_ignored {p : Nat} (hp : p < 32) (h : 5 ≤ s.levelNow ∨ s.partState p < 2) : exec (.partitionReset p) s = .next s :=
  onUnit_next (decide_eq_true hp) (if_pos h)

/-! ### Device-level reset and power cycle (R437, R438) -/

section
variable {cause : Nat} (h1 : 1 ≤ cause) (h4 : cause ≤ 4)
include h1 h4

theorem cause_there : (decide (1 ≤ cause) && decide (cause ≤ 4)) = true := by simp only [h1, h4, decide_true, Bool.and_self]

theorem exec_deviceLevelReset_notReady {train : TrainIn} (h : s.ready = false) : exec (.deviceLevelReset cause train) s = .next s :=
  onUnit_next (cause_there h1 h4) (if_pos (.inl h))

/-- A reset that needs no approval, or has it: the third within 600 s is a power cycle. -/
theorem exec_deviceLevelReset {train : TrainIn} (hr : s.ready = true) (h6 : s.levelNow ≠ 6) (ha : cause ≠ 1 ∨ s.hostMode 3 = false ∨ s.rcv.approved = true)
    (ht : t = if 2 ≤ s.lateResets.length then s.powerCycle 2 else (s.deviceDown cause true).bringUp train) :
    exec (.deviceLevelReset cause train) s = .next t := by
  have goes : ¬ (s.ready = false ∨ s.levelNow = 6) := by simp [hr, h6]
  have approved : ¬ (cause = 1 ∧ s.hostMode 3 = true ∧ s.rcv.approved = false) := by
    rintro ⟨hc, hh, hn⟩
    obtain ha | ha | ha := ha
    · exact ha hc
    · exact Bool.false_ne_true (ha.symm.trans hh)
    · exact Bool.false_ne_true (hn.symm.trans ha)
  exact onUnit_next (cause_there h1 h4) ((if_neg goes).trans ((if_neg approved).trans ht.symm))

end

/-- The data plane held in reset at level 6, the output asserted. -/
def State.cycleHeld (s : State) : State :=
  let t := s.unitsReset
  ({ t with ready := false, mclk := s.mclk, rcv := { t.rcv with past := s.rcv.past }, pins := { t.pins with cycleN := false } }).setLevel 6 4 0 0

theorem State.levelNow_setLevel (level kind idx part : Nat) : (s.setLevel level kind idx part).levelNow = level % 8 := by
  have word : (s.setLevel level kind idx part).rd (rcvPg + GLB_RCV_STAT) =
      (level % 8 + kind % 8 * 2 ^ 3 + idx % 256 * 2 ^ 6 + part % 32 * 2 ^ 16) % 2 ^ 32 :=
    (State.rd_of_regs (s := s.wr _ _) rfl _).trans (State.rd_wr_self ..)
  have level : bitsOf ((s.setLevel level kind idx part).rd (rcvPg + GLB_RCV_STAT)) 2 0 = level % 8 := by
    rw [word, bitsOf]
    omega
  exact level

theorem State.cycleHeld_fields : s.cycleHeld.ready = false ∧ s.cycleHeld.pins.cycleN = false ∧ s.cycleHeld.mem = s.mem ∧ s.cycleHeld.mclk = s.mclk := ⟨rfl, rfl, rfl, rfl⟩

/-- A power cycle of a module whose Skeldor is dead records nothing. -/
theorem State.powerCycle_dead {cause : Nat} (h : cause = 3 ∧ 64 ≤ s.mgmt.wdog) :
    s.powerCycle cause = s.cycleHeld.set mgmtPg MGMT_PHASE_PHASE (s.get mgmtPg MGMT_PHASE_PHASE) := if_pos (by simp [h])

/-- A recorded power cycle: its cause, the phase, alarm 9. -/
theorem State.powerCycle_recorded {cause : Nat} (h : ¬ (cause = 3 ∧ 64 ≤ s.mgmt.wdog)) :
    s.powerCycle cause = (({ s.cycleHeld with flash := { s.cycleHeld.flash with cause := cause } } : State).set mgmtPg MGMT_PHASE_PHASE 8).alarm 9 :=
  if_neg (by simpa using h)

theorem State.get_alarm (s : State) (b : Nat) {pg : Nat} {f : F} (h : pg + f.off ≠ mgmtPg + MGMT_ALARM) : (s.alarm b).get pg f = s.get pg f :=
  (congrArg (bitsOf · _ _) (State.rd_of_regs (s := s.wr (mgmtPg + MGMT_ALARM) (s.mgmt.alarm ||| 2 ^ b)) rfl _)).trans (State.get_wr_ne _ _ _ _ _ h)

theorem State.levelNow_cycleHeld : s.cycleHeld.levelNow = 6 := State.levelNow_setLevel ..

/-- What a power cycle does to a state whichever way it ends. -/
def State.Cycled (s t : State) : Prop := t.ready = false ∧ t.pins.cycleN = false ∧ t.levelNow = 6 ∧ t.mem = s.mem ∧ t.mclk = s.mclk

theorem State.cycled_cycleHeld : s.Cycled s.cycleHeld := by
  obtain ⟨ready, cycle, mem, mclk⟩ := s.cycleHeld_fields
  exact ⟨ready, cycle, State.levelNow_cycleHeld, mem, mclk⟩

theorem State.Cycled.flash (h : s.Cycled t) (f : Flash) : s.Cycled { t with flash := f } := by
  obtain ⟨ready, cycle, level, mem, mclk⟩ := h
  exact ⟨ready, cycle, (congrArg (bitsOf · _ _) (State.rd_of_regs rfl _)).trans level, mem, mclk⟩

theorem State.Cycled.phase (h : s.Cycled t) (n : Nat) : s.Cycled (t.set mgmtPg MGMT_PHASE_PHASE n) := by
  obtain ⟨ready, cycle, level, mem, mclk⟩ := h
  exact ⟨ready, cycle, (State.get_set_ne _ _ _ _ (by decide)).trans level, mem, mclk⟩

theorem State.Cycled.alarm (h : s.Cycled t) (b : Nat) : s.Cycled (t.alarm b) := by
  obtain ⟨ready, cycle, level, mem, mclk⟩ := h
  exact ⟨ready, cycle, (State.get_alarm _ _ (by decide)).trans level, mem, mclk⟩

theorem State.cycled_powerCycle {cause : Nat} : s.Cycled (s.powerCycle cause) := by
  by_cases dead : cause = 3 ∧ 64 ≤ s.mgmt.wdog
  · rw [State.powerCycle_dead dead]
    exact s.cycled_cycleHeld.phase _
  · rw [State.powerCycle_recorded dead]
    exact ((s.cycled_cycleHeld.flash _).phase _).alarm _

theorem State.powerCycle_records {cause : Nat} (h : ¬ (cause = 3 ∧ 64 ≤ s.mgmt.wdog)) :
    (s.powerCycle cause).flash.cause = cause ∧ (s.powerCycle cause).get mgmtPg MGMT_PHASE_PHASE = 8 := by
  rw [State.powerCycle_recorded h]
  exact ⟨rfl, (State.get_alarm _ _ (by decide)).trans (State.get_set_self _ _ _ _ (by decide) (by decide))⟩

/-! ### The turns of a tasting (R448, R449) -/

section
variable {x q seq kind i : Nat} {rest : List Nat} {c : Cmd} (hx : s.rcv.suspects = x :: rest) (ht : s.rcv.turn = some (q, seq))
  (hs : s.rcv.scope = some (kind, i)) (h3 : s.levelNow = 3) (hc : s.cmd? q seq = some c)
include hx ht hs h3 hc

/-- The end of a turn, by what it is reported to end with and by whether its command still runs. -/
theorem exec_tastingTurn {outcome : Nat} (ho : outcome ≤ 3) (hu : u =
    if outcome = 2 ∧ s.tasteStale kind i = false then s
    else if outcome = 1 then (if c.work then s else if rest.isEmpty then s.turnOver else ((s.holdCmd q seq).forgetReqs q seq).turnOver)
    else if outcome = 2 then (if c.work then s else s.guilty x q seq kind i)
    else if c.work then s.turnOver else s) : exec (.tastingTurn outcome) s = .next u := by
  refine onUnit_next (decide_eq_true ho) (Eq.trans ?_ hu.symm)
  simp only [hx, ht, hs, hc, h3, ne_eq, not_true_eq_false, if_false]
  cases c.work <;> rfl

end

/-- Settles O49, by what each reset starts and what ends a turn. -/
theorem levelsOfRecovery : Obligations.LevelsOfRecovery := by
  intro s
  refine ⟨fun h0 => ⟨fun kind i hk hi => ?engine, fun p hp => ⟨fun hs => exec_partitionReset_ignored hp (.inr hs),
    fun hs hh hn => exec_partitionReset h0 hp hs hh hn⟩⟩,
    fun p hp h5 => exec_partitionReset_ignored hp (.inl h5), fun cause train h1 h4 => ?device, fun x rest q seq kind i c hx ht hs h3 hc => ?turn⟩
  case engine =>
    intro part
    exact ⟨fun hh => exec_engineReset hk hi h0 (if_neg (ne_true_of_eq_false hh)).symm, fun hh => exec_engineReset hk hi h0 (if_pos hh).symm⟩
  case device =>
    obtain ⟨ready, cycle, level, mem, mclk⟩ := s.cycled_powerCycle (cause := cause)
    refine ⟨exec_deviceLevelReset_notReady h1 h4, fun hr h6 ha => ⟨fun h => ?_, fun h => ?_⟩,
      _, onUnit_next (cause_there h1 h4) rfl, ready, cycle, level, mem, mclk, State.powerCycle_records⟩
    · exact exec_deviceLevelReset h1 h4 hr h6 ha (if_neg (Nat.not_le.mpr h)).symm
    · exact exec_deviceLevelReset h1 h4 hr h6 ha (if_pos h).symm
  case turn =>
    have turn {outcome : Nat} {u : State} := exec_tastingTurn (u := u) hx ht hs h3 hc (outcome := outcome)
    refine ⟨fun hw => ⟨?_, ?_, ?_, ?_⟩, fun hw => ⟨?_, ?_, fun hst => ?_, fun hst => ?_, fun hr => ?_, fun hr => ?_⟩⟩
    · exact turn (by decide) (by simp [hw])
    · exact turn (by decide) (by simp [hw])
    · exact turn (by decide) (by simp [hw])
    · exact turn (by decide) (by simp [hw])
    · exact turn (by decide) (by simp [hw])
    · exact turn (by decide) (by simp [hw])
    · exact turn (by decide) (by simp [hst])
    · exact turn (by decide) (by simp [hw, hst])
    · exact turn (by decide) (by simp [hw, hr])
    · exact turn (by decide) (by simp [hw, hr])

end Sys2Proof.Machine
end

section
/-! SUPPORT. The choice at a regulator: which of the eligible requests issues, and what is counted. -/

namespace Sys2Proof.Machine

open Sys2Proof

variable {s t u : State}

/-! ### Choosing one of a list (R339, R346) -/

/-- Of a request chosen so far and another, the better one. -/
def betterOf (better : Elig → Elig → Prop) [DecidableRel better] : Option Elig → Elig → Option Elig
  | none, e => some e
  | some f, e => if better e f then some e else some f

section
variable {better : Elig → Elig → Prop} [DecidableRel better] {m : Elig → Nat} (hm : ∀ e f, better e f → m e ≤ m f) (hn : ∀ e f, ¬ better e f → m f ≤ m e)
include hm hn

/-- The choice falls on a member with the least measure, where a better one never has a greater measure. -/
theorem foldl_betterOf (l : List Elig) (f : Elig) : ∃ e, l.foldl (betterOf better) (some f) = some e ∧ e ∈ f :: l ∧ ∀ g ∈ f :: l, m e ≤ m g := by
  induction l generalizing f with
  | nil => exact ⟨f, rfl, by simp, by simp⟩
  | cons a l ih =>
    by_cases hb : better a f
    · obtain ⟨e, he, hmem, hle⟩ := ih a
      refine ⟨e, (congrArg (l.foldl (betterOf better)) (if_pos hb)).trans he, List.mem_cons_of_mem _ hmem, fun g hg => ?_⟩
      obtain rfl | hg := List.mem_cons.mp hg
      · exact (hle a (by simp)).trans (hm _ _ hb)
      · exact hle g hg
    · obtain ⟨e, he, hmem, hle⟩ := ih f
      refine ⟨e, (congrArg (l.foldl (betterOf better)) (if_neg hb)).trans he, ?_, fun g hg => ?_⟩
      · obtain rfl | hmem := List.mem_cons.mp hmem
        · simp
        · simp [hmem]
      · obtain rfl | hg := List.mem_cons.mp hg
        · exact hle g (by simp)
        · obtain rfl | hg := List.mem_cons.mp hg
          · exact (hle f (by simp)).trans (hn _ _ hb)
          · exact hle g (by simp [hg])

theorem foldl_betterOf_none {l : List Elig} (hl : l ≠ []) : ∃ e, l.foldl (betterOf better) none = some e ∧ e ∈ l ∧ ∀ g ∈ l, m e ≤ m g := by
  obtain ⟨f, l, rfl⟩ := List.exists_cons_of_ne_nil hl
  exact foldl_betterOf hm hn l f

end

/-- A client nearer in the round after `last`, or the same client's earlier request. -/
abbrev nearerAfter (last : Nat) (e f : Elig) : Prop :=
  (e.client + 34 - last - 1) % 34 < (f.client + 34 - last - 1) % 34 ∨ (e.client = f.client ∧ e.age < f.age)

/-- A request of a lesser measure, or of a lesser client, or an earlier one. -/
abbrev lesserBy (m : Elig → Nat) (e f : Elig) : Prop := m e < m f ∨ (m e = m f ∧ (e.client < f.client ∨ (e.client = f.client ∧ e.age < f.age)))

theorem roundRobin_eq (last : Nat) (l : List Elig) : roundRobin last l = l.foldl (betterOf (nearerAfter last)) none := by
  refine congrArg (List.foldl · none l) (funext fun b => funext fun e => ?_)
  cases b <;> rfl

theorem leastBy_eq (m : Elig → Nat) (l : List Elig) : leastBy m l = l.foldl (betterOf (lesserBy m)) none := by
  refine congrArg (List.foldl · none l) (funext fun b => funext fun e => ?_)
  cases b <;> rfl

theorem roundRobin_some (last : Nat) {l : List Elig} (hl : l ≠ []) : ∃ e, roundRobin last l = some e ∧ e ∈ l := by
  obtain ⟨e, he, hmem, -⟩ := foldl_betterOf_none (better := nearerAfter last) (m := fun _ => 0)
    (fun _ _ _ => Nat.le_refl 0) (fun _ _ _ => Nat.le_refl 0) hl
  exact ⟨e, (roundRobin_eq last l).trans he, hmem⟩

theorem leastBy_some (m : Elig → Nat) {l : List Elig} (hl : l ≠ []) : ∃ e, leastBy m l = some e ∧ e ∈ l ∧ ∀ g ∈ l, m e ≤ m g := by
  rw [leastBy_eq]
  exact foldl_betterOf_none (fun e f h => by omega) (fun e f h => by omega) hl

/-! ### The choice in rate mode (R339) -/

/-- The credit of a request's client-class. -/
def State.creditOf (s : State) (r : Nat) (f : Elig) : Nat := Tab.get 0 (s.atRegl r).credit (f.client * 3 + f.cls)

/-- The requests of a class whose client-class holds the credit for one. -/
def State.richOf (s : State) (r : Nat) (l : List Elig) (c : Nat) : List Elig :=
  l.filter (fun e => e.cls == c && decide (256 ≤ Tab.get 0 (s.atRegl r).credit (e.client * 3 + c)))

section
variable {r c : Nat} {l : List Elig} {e : Elig}

theorem State.mem_richOf : e ∈ s.richOf r l c ↔ e ∈ l ∧ e.cls = c ∧ 256 ≤ s.creditOf r e := by
  simp only [State.richOf, State.creditOf, List.mem_filter, Bool.and_eq_true, beq_iff_eq, decide_eq_true_eq]
  refine and_congr_right fun _ => and_congr_right ?_
  rintro rfl
  rfl

/-- With credit held, the choice is made in the most urgent class that holds some. -/
theorem State.reglPick_rich (hc : c ≤ 2) (hr : s.richOf r l c ≠ []) (hlow : ∀ b < c, s.richOf r l b = []) :
    ∃ e, s.reglPick r l = some (e, 1) ∧ e ∈ s.richOf r l c := by
  obtain ⟨e, he, hmem⟩ := roundRobin_some (Tab.get 0 (s.atRegl r).rr c) hr
  have none {b : Nat} (hb : b < c) : roundRobin (Tab.get 0 (s.atRegl r).rr b) (s.richOf r l b) = none := by rw [hlow b hb]; rfl
  have first : [0, 1, 2].findSome? (fun b => roundRobin (Tab.get 0 (s.atRegl r).rr b) (s.richOf r l b)) = some e := by
    interval_cases c
    · simp only [List.findSome?_cons, he]
    · simp only [List.findSome?_cons, none (b := 0) (by decide), he]
    · simp only [List.findSome?_cons, none (b := 0) (by decide), none (b := 1) (by decide), he]
  refine ⟨e, ?_, hmem⟩
  unfold State.richOf at first
  simp only [State.reglPick, first]

/-- Without credit, the choice is made in the most urgent class present. -/
theorem State.reglPick_poor (hp : ∀ b ≤ 2, s.richOf r l b = []) (hl : ∀ f ∈ l, f.cls ≤ 2) (hc : c ≤ 2) (hr : l.filter (·.cls == c) ≠ [])
    (hlow : ∀ b < c, l.filter (·.cls == b) = []) : ∃ e n, s.reglPick r l = some (e, n) ∧ e ∈ l.filter (·.cls == c) := by
  have first : [0, 1, 2].findSome? (fun b => roundRobin (Tab.get 0 (s.atRegl r).rr b) (s.richOf r l b)) = none := by
    simp only [List.findSome?_cons, hp 0 (by decide), hp 1 (by decide), hp 2 (by decide)]
    rfl
  have no {b : Nat} (hb : b < c) (last : Nat) : roundRobin last (l.filter (·.cls == b)) = none := by rw [hlow b hb]; rfl
  have none {b : Nat} (hb : b < c) (m : Elig → Nat) : leastBy m (l.filter (·.cls == b)) = none := by rw [hlow b hb]; rfl
  unfold State.richOf at first
  interval_cases c
  · obtain ⟨e, he, hmem⟩ := roundRobin_some (Tab.get 0 (s.atRegl r).rr 3) hr
    exact ⟨e, 2, by simp only [State.reglPick, first, he], hmem⟩
  · obtain ⟨e, he, hmem, -⟩ := leastBy_some ((s.atRegl r).vtime ·) hr
    exact ⟨e, 3, by simp only [State.reglPick, first, no (b := 0) (by decide), he], hmem⟩
  · obtain ⟨e, he, hmem, -⟩ := leastBy_some ((s.atRegl r).vtime ·) hr
    have bulk : l.all (·.cls == 2) = true := by
      rw [List.all_eq_true]
      intro f hf
      have h0 := List.filter_eq_nil_iff.mp (hlow 0 (by decide)) f hf
      have h1 := List.filter_eq_nil_iff.mp (hlow 1 (by decide)) f hf
      have h2 := hl f hf
      simp only [beq_iff_eq] at h0 h1 ⊢
      omega
    refine ⟨e, 4, ?_, hmem⟩
    simp only [State.reglPick, first, no (b := 0) (by decide), none (b := 1) (by decide), bulk, true_or, if_true, he, Option.map_some]

end

/-- The choice in rate mode: never none where a request can issue; by credit, then by class. -/
theorem State.reglPick_some {r : Nat} {l : List Elig} (hne : l ≠ []) (hl : ∀ f ∈ l, f.cls ≤ 2) : ∃ e n, s.reglPick r l = some (e, n) ∧ e ∈ l ∧
    ((∃ f, f ∈ l ∧ 256 ≤ s.creditOf r f) → 256 ≤ s.creditOf r e ∧ ∀ f, f ∈ l → 256 ≤ s.creditOf r f → e.cls ≤ f.cls) ∧
    ((∀ f, f ∈ l → s.creditOf r f < 256) → ∀ f, f ∈ l → e.cls ≤ f.cls) := by
  by_cases rich : ∃ c, c ≤ 2 ∧ s.richOf r l c ≠ []
  · obtain ⟨hc, hr⟩ := Nat.find_spec rich
    have lower {f : Elig} (hf : f ∈ l) (hcr : 256 ≤ s.creditOf r f) : Nat.find rich ≤ f.cls :=
      Nat.find_min' rich ⟨hl f hf, List.ne_nil_of_mem ((State.mem_richOf).mpr ⟨hf, rfl, hcr⟩)⟩
    obtain ⟨e, he, hmem⟩ := State.reglPick_rich hc hr fun b hb => by
      by_contra hne
      exact Nat.find_min rich hb ⟨(Nat.le_of_lt hb).trans hc, hne⟩
    obtain ⟨hel, hcls, hcr⟩ := (State.mem_richOf).mp hmem
    exact ⟨e, 1, he, hel, fun _ => ⟨hcr, fun f hf h => hcls ▸ lower hf h⟩, fun none => absurd hcr (Nat.not_le.mpr (none e hel))⟩
  · have poor : ∀ b ≤ 2, s.richOf r l b = [] := fun b hb => by
      by_contra hne
      exact rich ⟨b, hb, hne⟩
    have present : ∃ c, c ≤ 2 ∧ l.filter (·.cls == c) ≠ [] := by
      obtain ⟨f, hf⟩ := List.exists_mem_of_ne_nil l hne
      exact ⟨f.cls, hl f hf, List.ne_nil_of_mem (List.mem_filter.mpr ⟨hf, beq_self_eq_true _⟩)⟩
    obtain ⟨hc, hr⟩ := Nat.find_spec present
    obtain ⟨e, n, he, hmem⟩ := State.reglPick_poor poor hl hc hr fun b hb => by
      by_contra hne
      exact Nat.find_min present hb ⟨(Nat.le_of_lt hb).trans hc, hne⟩
    obtain ⟨hel, hcls⟩ := List.mem_filter.mp hmem
    refine ⟨e, n, he, hel, fun ⟨f, hf, h⟩ => ?_, fun _ f hf => ?_⟩
    · exact absurd (poor f.cls (hl f hf)) (List.ne_nil_of_mem ((State.mem_richOf).mpr ⟨hf, rfl, h⟩))
    · exact beq_iff_eq.mp hcls ▸ Nat.find_min' present ⟨hl f hf, List.ne_nil_of_mem (List.mem_filter.mpr ⟨hf, beq_self_eq_true _⟩)⟩

/-! ### What is waiting and what is counted (R335, R336, R348) -/

theorem queueClass_le (v : Nat) : queueClass v ≤ 2 := by
  unfold queueClass
  split
  · exact Nat.zero_le 2
  · split <;> decide

theorem State.charged_le (s : State) (w : Traffic) : (s.charged w).2 ≤ 2 := by
  cases w with
  | mover q => exact queueClass_le _
  | _ => simp [State.charged]

theorem State.cls_reglWaiting {r : Nat} {w : List Waiting} {f : Elig} (h : f ∈ s.reglWaiting r w) : f.cls ≤ 2 := by
  obtain ⟨x, -, rfl⟩ := List.mem_map.mp (List.mem_filter.mp h).1
  exact s.charged_le x.traffic

/-- BYTES of the client-class served grows by a request's 256 bytes. -/
theorem State.bytes_reglCount (s : State) (r : Nat) (e : Elig) (l : List Elig) : Tab.get 0 ((s.reglCount r e l).atRegl r).bytes (e.client * 3 + e.cls) =
    (Tab.get 0 (s.atRegl r).bytes (e.client * 3 + e.cls) + 256) % 2 ^ 64 := by
  rw [State.reglCount, State.atRegl_updRegl, if_pos rfl]
  exact Tab.get_put_self ..

theorem State.regs_updRegl (s : State) (k : Nat) (f : Regl → Regl) : (s.updRegl k f).regs = s.regs := rfl

theorem State.regs_reglCount (s : State) (r : Nat) (e : Elig) (l : List Elig) : (s.reglCount r e l).regs = s.regs := State.regs_updRegl ..

theorem State.regs_reglCharge (s : State) (r : Nat) (e : Elig) (n : Nat) : (s.reglCharge r e n).regs = s.regs := State.regs_updRegl ..

theorem State.regs_reglEarn (s : State) (r : Nat) : (s.reglEarn r).regs = s.regs := State.regs_updRegl ..

theorem State.regs_reglHold (s : State) (r : Nat) (l : List Elig) : (s.reglHold r l).regs = s.regs := State.regs_updRegl ..

theorem State.bytes_reglCharge (s : State) (r : Nat) (e : Elig) (n : Nat) : ((s.reglCharge r e n).atRegl r).bytes = (s.atRegl r).bytes := by
  rw [State.reglCharge, State.atRegl_updRegl, if_pos rfl]

theorem State.bytes_reglEarn (s : State) (r : Nat) : ((s.reglEarn r).atRegl r).bytes = (s.atRegl r).bytes := by
  rw [State.reglEarn, State.atRegl_updRegl, if_pos rfl]

theorem State.bytes_reglHold (s : State) (r : Nat) (l : List Elig) : ((s.reglHold r l).atRegl r).bytes = (s.atRegl r).bytes := by
  rw [State.reglHold, State.atRegl_updRegl, if_pos rfl]

/-- In queue-share mode the oldest of the slots' holders issues. -/
theorem exec_regulatorIssue_shared {r : Nat} {w : List Waiting} (hr : r < 295) (hs : s.on rglDev RGL_MODE_STAT_QSHARE = true) {l : List Elig}
    (hl : (s.reglHeld r (s.reglWaiting r w)).filter (·.can) = l) :
    (l = [] → exec (.regulatorIssue r w) s = .next (s.reglHold r (s.reglHeld r (s.reglWaiting r w)))) ∧
    ∀ e, leastBy (·.age) l = some e → exec (.regulatorIssue r w) s =
      .next (((s.reglHold r (s.reglHeld r (s.reglWaiting r w))).reglCount r e l).emit (.issue r e.client e.cls e.age)) := by
  subst hl
  refine ⟨fun h => onUnit_next (decide_eq_true hr) ((if_pos hs).trans ?_), fun e he => onUnit_next (decide_eq_true hr) ((if_pos hs).trans ?_)⟩
  · simp only [h]
    rfl
  · simp only [he]

/-- In rate mode credit is earned, and the request picked issues and is charged. -/
theorem exec_regulatorIssue_rate {r : Nat} {w : List Waiting} (hr : r < 295) (hs : s.on rglDev RGL_MODE_STAT_QSHARE = false) {l : List Elig}
    (hl : (s.reglHeld r (s.reglWaiting r w)).filter (·.can) = l) (ht : (s.reglHold r (s.reglHeld r (s.reglWaiting r w))).reglEarn r = t) :
    (t.reglPick r l = none → exec (.regulatorIssue r w) s = .next t) ∧
    ∀ e n, t.reglPick r l = some (e, n) → exec (.regulatorIssue r w) s =
      .next (((t.reglCharge r e n).reglCount r e l).emit (.issue r e.client e.cls e.age)) := by
  subst hl ht
  refine ⟨fun h => onUnit_next (decide_eq_true hr) ((if_neg (ne_true_of_eq_false hs)).trans ?_),
    fun e n he => onUnit_next (decide_eq_true hr) ((if_neg (ne_true_of_eq_false hs)).trans ?_)⟩
  · simp only [h]
  · simp only [he]

theorem State.reglPick_nil (s : State) (r : Nat) : s.reglPick r [] = none := by
  simp [State.reglPick, roundRobin, leastBy]

/-- Settles O40, by the mode of the device and by what the choice falls on. -/
theorem regulatorChoosesOneRequest : Obligations.RegulatorChoosesOneRequest := by
  intro s r w hr held l shared s0
  cases hs : s.on rglDev RGL_MODE_STAT_QSHARE with
  | true =>
    obtain ⟨none, some⟩ := exec_regulatorIssue_shared (w := w) (l := l) hr hs rfl
    refine ⟨fun h => (none h).trans (congrArg Host.Outcome.next (if_pos hs).symm), fun h => ?_⟩
    obtain ⟨e, he, hmem, hold⟩ := leastBy_some (·.age) h
    refine ⟨e, _, hmem, some e he, (State.bytes_reglCount ..).trans ?_, (State.regs_reglCount ..).trans (State.regs_reglHold ..),
      State.sameBytes_of_mems (State.reglCount_mems (State.reglHold_mems rfl)), fun _ => hold, fun h => absurd (hs.symm.trans h) (by decide)⟩
    rw [State.bytes_reglHold]
  | false =>
    obtain ⟨none, some⟩ := exec_regulatorIssue_rate (w := w) (l := l) hr hs rfl rfl
    refine ⟨fun h => (none (h ▸ State.reglPick_nil ..)).trans (congrArg Host.Outcome.next (if_neg (ne_true_of_eq_false hs)).symm), fun h => ?_⟩
    have all : held = s.reglWaiting r w := if_neg (ne_true_of_eq_false hs)
    have classes : ∀ f ∈ l, f.cls ≤ 2 := fun f hf => State.cls_reglWaiting (all ▸ (List.mem_filter.mp hf).1)
    obtain ⟨e, n, he, hmem, rich, poor⟩ := (s0.reglEarn r).reglPick_some h classes
    refine ⟨e, _, hmem, some e n he, (State.bytes_reglCount ..).trans ?_,
      (State.regs_reglCount ..).trans ((State.regs_reglCharge ..).trans ((State.regs_reglEarn ..).trans (State.regs_reglHold ..))),
      State.sameBytes_of_mems (State.reglCount_mems (State.reglCharge_mems (State.reglEarn_mems (State.reglHold_mems rfl)))),
      fun h => absurd (hs.symm.trans h) (by decide), fun _ => ⟨rich, poor⟩⟩
    rw [State.bytes_reglCharge, State.bytes_reglEarn, State.bytes_reglHold]

end Sys2Proof.Machine
end

section
/-! SUPPORT. Power samples, the electrical limiter, the low-input limit. -/

namespace Sys2Proof.Machine

open Sys2Proof

variable {s t u : State}

/-! ### A sample (R350, R356) -/

/-- The sample shown in PWR_INPUT. -/
def State.inputShown (s : State) (mv deciA : Nat) : State := (s.set pwrPg PWR_INPUT_MV mv).set pwrPg PWR_INPUT_DA deciA

theorem State.get_mv_inputShown {mv : Nat} (h : mv < 65536) (deciA : Nat) : (s.inputShown mv deciA).get pwrPg PWR_INPUT_MV = mv := by
  have kept := (s.set pwrPg PWR_INPUT_MV mv).get_set_disjoint pwrPg PWR_INPUT_DA deciA (g := PWR_INPUT_MV) rfl (by decide) (by decide) (by decide)
  exact kept.trans ((s.get_set_self pwrPg PWR_INPUT_MV mv (by decide) (by decide)).trans (Nat.mod_eq_of_lt h))

theorem State.get_da_inputShown (mv : Nat) {deciA : Nat} (h : deciA < 65536) : (s.inputShown mv deciA).get pwrPg PWR_INPUT_DA = deciA :=
  ((s.set pwrPg PWR_INPUT_MV mv).get_set_self pwrPg PWR_INPUT_DA deciA (by decide) (by decide)).trans (Nat.mod_eq_of_lt h)

/-- The counts of samples with one more. -/
def State.sampleCounted (s : State) (mv deciA : Nat) : State :=
  let p := s.power
  let same := decide (p.count + p.stillA ≠ 0) && deciA == p.lastA
  let hi := decide (20000000 < mv * deciA)
  let lo := decide (mv * deciA < 19000000)
  { s with power := { p with
    sum := p.sum + mv * deciA, count := p.count + 1, hiRun := if hi then p.hiRun + 1 else 0,
    loRun := if lo then p.loRun + 1 else 0, judged := false, lastA := deciA,
    stillA := if same then p.stillA + 1 else 0, stillEst := if same && p.stillEst != 0 then p.stillEst else s.estimate } }

/-- The sample judged for plausibility, its energy added. -/
def State.sampleJudged (s : State) (mv deciA : Nat) : State :=
  let bad := decide (s.implausible mv deciA = true)
  let s := if s.implausible mv deciA = true ∧ s.power.bad = false then s.sensorInput (sampleW mv deciA) else s
  let s := { s with power := { s.power with bad := s.power.bad || bad, badNow := s.power.badNow || bad } }
  s.addEnergy (if s.power.bad then 12000 * s.estimate else mv * deciA)

theorem exec_powerSample {mv deciA : Nat} (hm : mv < 65536) (hd : deciA < 65536) (hr : s.running = true) :
    exec (.powerSample mv deciA) s = .next (((s.inputShown mv deciA).sampleCounted mv deciA).sampleJudged mv deciA) :=
  onUnit_next (by simp only [hm, hd, decide_true, Bool.and_self]) (if_neg (ne_false_of_eq_true hr))

/-- What a power state knows of the samples: the epoch's sum and count, the last current, whether the limiter has judged, the two runs. -/
def samplesOf (p : PowerSt) : Nat × Nat × Nat × Bool × Nat × Nat := (p.sum, p.count, p.lastA, p.judged, p.hiRun, p.loRun)

/-- Judging a sample leaves what is known of the samples, PWR_INPUT and the byte memories as they are. -/
def State.Judged (s t : State) : Prop :=
  t.rd (pwrPg + PWR_INPUT) = s.rd (pwrPg + PWR_INPUT) ∧ samplesOf t.power = samplesOf s.power ∧ t.mems = s.mems

theorem State.Judged.trans (h : s.Judged t) (h' : t.Judged u) : s.Judged u := by
  obtain ⟨input, samples, bytes⟩ := h
  obtain ⟨input', samples', bytes'⟩ := h'
  exact ⟨input'.trans input, samples'.trans samples, bytes'.trans bytes⟩

theorem State.Judged.of_power (hp : t.power = s.power) (hi : t.rd (pwrPg + PWR_INPUT) = s.rd (pwrPg + PWR_INPUT)) (hm : t.mems = s.mems) : s.Judged t :=
  ⟨hi, congrArg samplesOf hp, hm⟩

theorem State.rd_alarm (s : State) (b : Nat) {a : Nat} (h : a ≠ mgmtPg + MGMT_ALARM) : (s.alarm b).rd a = s.rd a :=
  (State.rd_of_regs (s := s.wr (mgmtPg + MGMT_ALARM) (s.mgmt.alarm ||| 2 ^ b)) rfl _).trans (State.rd_wr_ne _ _ _ h)

theorem State.rd_event0 (s : State) (typ : Nat) (p : Bytes) {a : Nat} (h : a < Pg.base .evq 0) : (s.event0 typ p).rd a = s.rd a :=
  (s.event_sameBelowEvq 0 typ 0 p).rd_eq a h

theorem State.power_event0 (s : State) (typ : Nat) (p : Bytes) : (s.event0 typ p).power = s.power :=
  State.field_of_sansEvents (s.event_sansEvents 0 typ 0 p) State.power (fun _ => rfl)

theorem State.judged_set (s : State) (f : F) (v : Nat) (h : f.off ≠ PWR_INPUT) : s.Judged (s.set pwrPg f v) :=
  .of_power rfl (State.rd_set_ne _ _ _ _ fun e => h (Nat.add_left_cancel e).symm) (State.set_mems rfl)

theorem State.judged_bumpF (s : State) (f : F) (n : Nat) (h : f.off ≠ PWR_INPUT) : s.Judged (s.bumpF pwrPg f n) := by
  rw [State.bumpF_eq]
  exact s.judged_set f _ h

theorem State.judged_alarm (s : State) (b : Nat) : s.Judged (s.alarm b) := .of_power rfl (State.rd_alarm _ _ (by decide)) (State.alarm_mems rfl)

theorem State.judged_event0 (s : State) (typ : Nat) (p : Bytes) : s.Judged (s.event0 typ p) :=
  .of_power (State.power_event0 ..) (State.rd_event0 _ _ _ (by decide)) (State.event0_mems rfl)

theorem State.judged_sensorInput (s : State) (w : Nat) : s.Judged (s.sensorInput w) :=
  (s.judged_set PWR_STAT_SENSOR 1 (by decide)).trans ((State.judged_alarm _ 3).trans
    ((State.judged_bumpF _ PWR_EVT_CNT_SENSOR 1 (by decide)).trans (State.judged_event0 ..)))

theorem State.judged_energy (s : State) (n : Nat) : s.Judged (s.bump64 (pwrPg + PWR_ENERGY) n) :=
  .of_power ((State.OnlyRegs.bump64 ..).field State.power rfl) (State.rd_bump64_ne _ (by decide) (by decide)) (State.bump64_mems rfl)

theorem State.judged_energyRem (s : State) (n : Nat) : s.Judged { s with power := { s.power with energyRem := n } } :=
  ⟨State.rd_of_regs rfl _, rfl, State.mems_with_power rfl⟩

theorem State.judged_addEnergy (s : State) (e : Nat) : s.Judged (s.addEnergy e) := (s.judged_energy _).trans (State.judged_energyRem ..)

theorem State.judged_bad (s : State) (b n : Bool) : s.Judged { s with power := { s.power with bad := b, badNow := n } } :=
  ⟨State.rd_of_regs rfl _, rfl, State.mems_with_power rfl⟩

theorem State.judged_sampleJudged (s : State) (mv deciA : Nat) : s.Judged (s.sampleJudged mv deciA) := by
  have sensed : s.Judged (if s.implausible mv deciA ∧ s.power.bad = false then s.sensorInput (sampleW mv deciA) else s) := by
    split
    · exact s.judged_sensorInput _
    · exact .of_power rfl rfl rfl
  exact sensed.trans ((State.judged_bad ..).trans (State.judged_addEnergy ..))

/-! ### The limiter (R363) -/

theorem State.limiterDue_iff : s.limiterDue = true ↔ s.power.judged = false ∧ (26000000 ≤ s.get pwrPg PWR_INPUT_MV * s.get pwrPg PWR_INPUT_DA ∨
    10 ≤ s.power.hiRun ∨ (s.power.elecOn = true ∧ 20000000 < s.get pwrPg PWR_INPUT_MV * s.get pwrPg PWR_INPUT_DA)) := by
  change s.limiterDue = true ↔ s.power.judged = false ∧ (26000000 ≤ s.lastPower ∨ 10 ≤ s.power.hiRun ∨ (s.power.elecOn = true ∧ 20000000 < s.lastPower))
  simp only [State.limiterDue, Bool.and_eq_true, Bool.or_eq_true, Bool.not_eq_true', decide_eq_true_eq, or_assoc]

/-- A limit put for each island of a row is the one read there. -/
theorem get_foldl_put (n : Nat) (v : Nat → Nat) (t : Tab Nat) {i : Nat} (h : i < n) :
    Tab.get 96 (((List.range n).map fun i => (i, v i)).foldl (fun t (e : Nat × Nat) => Tab.put 96 e.1 e.2 t) t) i = v i := by
  induction n with
  | zero => exact absurd h (Nat.not_lt_zero i)
  | succ n ih =>
    rw [List.range_succ, List.map_append, List.foldl_append, List.map_cons, List.map_nil, List.foldl_cons, List.foldl_nil, Tab.get_put]
    split
    case isTrue he => rw [he]
    case isFalse hn => exact ih (by omega)

/-- The limits that the limiter sets. -/
def State.elecLimits (s : State) : List (Nat × Nat) := (List.range 136).map (fun i => (i, max 24 ((s.effective i).1 * 3 / 4)))

/-- The limiter comes on, which is counted, or acts again. -/
def State.elecCounted (s : State) : State := if s.power.elecOn then s else s.bump (pwrPg + PWR_ELEC_CNT) 1

/-- The limiter acts with the limits of a list. -/
def State.limited (s : State) (l : List (Nat × Nat)) : State :=
  let t := s.elecCounted
  ({ t with power := { t.power with judged := true, elecOn := true, elec := l.foldl (fun t (e : Nat × Nat) => Tab.put 96 e.1 e.2 t) t.power.elec } } : State).set
    pwrPg PWR_STAT_ELEC 1

theorem exec_elecLimitActivate_ignored (h : s.limiterDue = false) : exec .elecLimitActivate s = .next s := congrArg Host.Outcome.next (if_pos h)

theorem exec_elecLimitActivate (h : s.limiterDue = true) : exec .elecLimitActivate s = .next (s.limited s.elecLimits).clocks :=
  congrArg Host.Outcome.next (if_neg (ne_false_of_eq_true h))

theorem State.rd_count_elecCounted : s.elecCounted.rd (pwrPg + PWR_ELEC_CNT) =
    if s.power.elecOn then s.rd (pwrPg + PWR_ELEC_CNT) else satAdd 0xFFFFFFFF (s.rd (pwrPg + PWR_ELEC_CNT)) 1 := by
  unfold State.elecCounted
  split
  · rfl
  · exact State.rd_bump_self ..

section
variable {l : List (Nat × Nat)}

theorem State.limited_power : (s.limited l).power.elecOn = true ∧ (s.limited l).power.judged = true ∧
    (s.limited l).power.elec = l.foldl (fun t (e : Nat × Nat) => Tab.put 96 e.1 e.2 t) s.elecCounted.power.elec := ⟨rfl, rfl, rfl⟩

theorem State.on_elec_limited : (s.limited l).on pwrPg PWR_STAT_ELEC = true := State.on_mark_self _ pwrPg PWR_STAT_ELEC true rfl (by decide)

theorem State.rd_count_limited : (s.limited l).rd (pwrPg + PWR_ELEC_CNT) = s.elecCounted.rd (pwrPg + PWR_ELEC_CNT) :=
  (State.rd_set_ne _ _ _ _ (by decide)).trans (State.rd_of_regs rfl _)

end

/-! ### The low-input limit (R350) -/

theorem State.get_input_inputLow (f : F) (h : f.off = PWR_INPUT) : ((s.set pwrPg PWR_STAT_INPUT_LOW 1).alarm 4).get pwrPg f = s.get pwrPg f := by
  rw [State.get, State.get, h, State.rd_alarm _ _ (by decide), State.rd_set_ne _ _ _ _ (by decide)]

theorem exec_inputLow (hr : s.running = true) (hn : s.on pwrPg PWR_STAT_INPUT_LOW = false) : exec .inputLow s =
    .next ((((s.set pwrPg PWR_STAT_INPUT_LOW 1).alarm 4).event0 0x13 (leBytes 2 (s.get pwrPg PWR_INPUT_MV))).clocks) := by
  refine congrArg Host.Outcome.next (if_neg ?_)
  rw [hr, hn]
  decide

/-- Settles O41, by what a sample counts and by what the limiter acts on. -/
theorem powerSamplesAndLimiter : Obligations.PowerSamplesAndLimiter := by
  intro s
  refine ⟨fun mv deciA hm hd => ⟨fun hr => ?_, fun hr => ?sample⟩, ?limiter, fun ho hl => congrArg Host.Outcome.next (if_neg (by simp [ho, hl])),
    fun h => congrArg Host.Outcome.next (if_pos h), fun hr hn => ?low, fun h => congrArg Host.Outcome.next (if_pos h)⟩
  · exact onUnit_next (by simp only [hm, hd, decide_true, Bool.and_self]) (if_pos hr)
  case sample =>
    obtain ⟨input, samples, bytes⟩ := ((s.inputShown mv deciA).sampleCounted mv deciA).judged_sampleJudged mv deciA
    simp only [samplesOf, Prod.mk.injEq] at samples
    obtain ⟨sum, count, last, judged, hi, lo⟩ := samples
    have shown (f : F) (hf : f.off = PWR_INPUT) : (((s.inputShown mv deciA).sampleCounted mv deciA).sampleJudged mv deciA).get pwrPg f =
        (s.inputShown mv deciA).get pwrPg f := by
      rw [State.get, State.get, hf, input]
      exact congrArg (bitsOf · _ _) (State.rd_of_regs rfl _)
    refine ⟨_, exec_powerSample hm hd hr, (shown _ rfl).trans (State.get_mv_inputShown hm deciA), (shown _ rfl).trans (State.get_da_inputShown mv hd),
      sum, count, last, judged, hi.trans ?_, lo.trans ?_, State.sameBytes_of_mems (bytes.trans (State.mems_with_power (State.set_mems (State.set_mems rfl))))⟩
    · exact if_congr decide_eq_true_iff rfl rfl
    · exact if_congr decide_eq_true_iff rfl rfl
  case limiter =>
    intro w due
    refine ⟨fun h => exec_elecLimitActivate_ignored (Bool.eq_false_iff.mpr (mt (State.limiterDue_iff).mp h)), fun h => ?_⟩
    obtain ⟨hon, hj, he⟩ := s.limited_power (l := s.elecLimits)
    refine ⟨_, exec_elecLimitActivate ((State.limiterDue_iff).mpr h), hon, hj, State.on_elec_limited,
      fun i hi => ?_, (State.rd_count_limited).trans State.rd_count_elecCounted⟩
    rw [he]
    exact get_foldl_put 136 (fun i => max 24 ((s.effective i).1 * 3 / 4)) _ hi
  case low =>
    rw [State.get_input_inputLow _ rfl]
    exact exec_inputLow hr hn

end Sys2Proof.Machine
end

section
/-! SUPPORT. Writes that a page does not take: the owner's fields under another function's write, a unit under reset, an offset that
names no register, and a write of two bytes. -/

namespace Sys2Proof.Machine

open Sys2Proof

variable {s : State} {p : Pg} {i o pg : Nat} {r : Reg} {f : Fld}

/-! ### The error summary of a page whose PAGE_ERROR record is off (R521) -/

/-- With EVT_EN 0 a page's error is its bit in BLK_ERR_SUM alone. -/
theorem State.raise_quiet (h : s.on pg BLK_CTL_EVT_EN = false) (b : Nat) :
    s.raise pg b = s.set pg BLK_ERR_SUM (s.get pg BLK_ERR_SUM ||| 2 ^ b) := by
  have off : (s.set pg BLK_ERR_SUM (s.get pg BLK_ERR_SUM ||| 2 ^ b)).on pg BLK_CTL_EVT_EN = false :=
    (congrArg (· != 0) (State.get_set_page s pg BLK_ERR_SUM _ (g := BLK_CTL_EVT_EN) (by decide))).trans h
  exact if_neg (fun ⟨_, _, on⟩ => Bool.false_ne_true (off.symm.trans on))

theorem State.bitOf_errSum_set {b n : Nat} (hb : b < 3) : bitOf ((s.set pg BLK_ERR_SUM (n ||| 2 ^ b)).get pg BLK_ERR_SUM) b = true := by
  rw [State.get_set_self _ _ _ _ (by decide) (by decide), bitOf, Nat.testBit_mod_two_pow, Nat.testBit_or, Nat.testBit_two_pow_self,
    decide_eq_true (show b < BLK_ERR_SUM.hi + 1 - BLK_ERR_SUM.lo from hb)]
  simp

/-- A count that stops at the highest value of its 16 bits. -/
theorem State.get_bumpF_16 {c : F} (hl : c.lo ≤ c.hi) (hw : c.hi < 32) (h16 : c.hi + 1 - c.lo = 16) :
    (s.bumpF pg c 1).get pg c = min 0xFFFF (s.get pg c + 1) := by
  rw [State.bumpF_eq, State.get_set_self _ _ _ _ hl hw, h16]
  exact Nat.mod_eq_of_lt (Nat.lt_succ_of_le (Nat.min_le_left ..))

/-! ### A violation (R518) -/

/-- What a violation leaves in the page and in the device's registers, but for the summary. -/
def State.violNoted (s : State) (pg fn : Nat) : State :=
  (((s.bumpF pg BLK_ERR_CNT_VIOL 1).set pg BLK_OWNER_LAST_VIOL fn).bump (glbPg + GLB_VIOL_CNT) 1).wr (glbPg + GLB_VIOL_PAGE)
    (pg / 0x1000 + fn % 256 * 2 ^ 14)

/-- The registers of a page, and of the device, that a violation of the page changes. -/
def violRegs (pg : Nat) : List Nat := [glbPg + GLB_VIOL_CNT, glbPg + GLB_VIOL_PAGE, pg + 0x010, pg + 0x014, pg + 0x020]

section
variable (ha : pg % 0x1000 = 0)
include ha

/-- The device's two registers of violations are in no page's header. -/
theorem header_ne_violRegs {k : Nat} (hk : k < 0x40) : pg + k ≠ glbPg + GLB_VIOL_CNT ∧ pg + k ≠ glbPg + GLB_VIOL_PAGE := by
  have hg : glbPg = 0x10000 := rfl
  have hc : GLB_VIOL_CNT = 0x058 := rfl
  have hp : GLB_VIOL_PAGE = 0x054 := rfl
  omega

theorem State.get_violNoted {c : F} (hc : c.off < 0x40) {fn : Nat} :
    (s.violNoted pg fn).get pg c = ((s.bumpF pg BLK_ERR_CNT_VIOL 1).set pg BLK_OWNER_LAST_VIOL fn).get pg c := by
  obtain ⟨hcnt, hpage⟩ := header_ne_violRegs ha hc
  exact (State.get_wr_ne _ _ _ _ _ hpage).trans (State.get_wr_ne _ _ _ _ _ hcnt)

variable (hq : s.on pg BLK_CTL_EVT_EN = false)
include hq

theorem State.violate_quiet (fn : Nat) : s.violate pg fn = (s.violNoted pg fn).set pg BLK_ERR_SUM ((s.violNoted pg fn).get pg BLK_ERR_SUM ||| 2 ^ 0) := by
  refine State.raise_quiet ?_ 0
  refine (congrArg (· != 0) ?_).trans hq
  exact (State.get_violNoted ha (by decide)).trans ((State.get_set_page _ _ _ _ (by decide)).trans (State.get_set_page _ _ _ _ (by decide)))

theorem State.violate_onlyRegs (fn : Nat) : s.OnlyRegs (s.violate pg fn) :=
  (State.violate_quiet ha hq fn).symm ▸ .trans (.trans (.trans (.trans (.set ..) (.set ..)) (.bump ..)) (.wr ..)) (.set ..)

theorem State.sameRegs_violate (fn : Nat) : s.sameRegs (s.violate pg fn) (violRegs pg) := by
  intro a h
  simp only [violRegs, List.mem_cons, List.not_mem_nil, or_false, not_or] at h
  obtain ⟨hcnt, hpage, hsum, hviol, hlast⟩ := h
  rw [State.violate_quiet ha hq, State.rd_set_ne _ _ _ _ hsum]
  exact (State.rd_wr_ne _ _ _ hpage).trans ((State.rd_bump_ne _ hcnt).trans ((State.rd_set_ne _ _ _ _ hlast).trans (State.rd_set_ne _ _ _ _ hviol)))

theorem State.get_viol_violate (fn : Nat) :
    (s.violate pg fn).get pg BLK_ERR_CNT_VIOL = min 0xFFFF (s.get pg BLK_ERR_CNT_VIOL + 1) := by
  rw [State.violate_quiet ha hq, State.get_set_page _ _ _ _ (by decide), State.get_violNoted ha (by decide), State.get_set_page _ _ _ _ (by decide),
    State.get_bumpF_16 (by decide) (by decide) rfl]

theorem State.get_last_violate {fn : Nat} (hf : fn < 256) : (s.violate pg fn).get pg BLK_OWNER_LAST_VIOL = fn := by
  rw [State.violate_quiet ha hq, State.get_set_page _ _ _ _ (by decide), State.get_violNoted ha (by decide),
    State.get_set_self _ _ _ _ (by decide) (by decide)]
  exact Nat.mod_eq_of_lt hf

theorem State.ownerViol_violate (fn : Nat) : bitOf ((s.violate pg fn).get pg BLK_ERR_SUM) 0 = true := by
  rw [State.violate_quiet ha hq]
  exact State.bitOf_errSum_set (by decide)

theorem State.rd_violCnt_violate (fn : Nat) :
    (s.violate pg fn).rd (glbPg + GLB_VIOL_CNT) = min 0xFFFFFFFF (s.rd (glbPg + GLB_VIOL_CNT) + 1) := by
  have apart {k : Nat} (hk : k < 0x40) : glbPg + GLB_VIOL_CNT ≠ pg + k := (header_ne_violRegs ha hk).1.symm
  rw [State.violate_quiet ha hq, State.rd_set_ne _ _ _ _ (apart (by decide)), State.violNoted, State.rd_wr_ne _ _ _ (by decide), State.rd_bump_self,
    State.rd_set_ne _ _ _ _ (apart (by decide)), State.bumpF_eq, State.rd_set_ne _ _ _ _ (apart (by decide))]

theorem State.rd_violPage_violate (hle : pg < 0x4000000) : (s.violate pg 0).rd (glbPg + GLB_VIOL_PAGE) = pg / 0x1000 := by
  have apart : glbPg + GLB_VIOL_PAGE ≠ pg + 0x010 := (header_ne_violRegs ha (by decide)).2.symm
  rw [State.violate_quiet ha hq, State.rd_set_ne _ _ _ _ apart, State.violNoted, State.rd_wr_self]
  omega

end

/-! ### What another function's write stores (R518, R522) -/

/-- A register is kept at its own place, or, the selected function's dirty-log registers, beyond BAR0. -/
theorem State.home_cases (s : State) (off : Nat) : s.home off = off ∨ 0x4000000 ≤ s.home off := by
  by_cases h : pciPg + 0x204 ≤ off ∧ off < pciPg + 0x224
  · have e : s.home off = 0x4000000 + 0x400 * s.get pciPg PCI_DLOG_SEL_FUNCTION + off % 0x1000 := if_pos h
    exact .inr (by omega)
  · exact .inl (if_neg h)

theorem State.storeFields_other (v off : Nat) : s.storeFields false r off v =
    s.wr (s.home off) (r.flds.foldl (fun w f => f.put false (!Tab.get false s.rwo off) v w) (s.rd (s.home off))) := rfl

/-- An owner's field keeps its value under another function's write. -/
theorem State.rwl_storeFields_other (hs : r.sound = true) (hf : f ∈ r.flds) (hl : f.acc = .rwl) {off : Nat} (ho : off < 0x4000000) (v : Nat) :
    bitsOf ((s.storeFields false r off v).rd off) f.hi f.lo = bitsOf (s.rd off) f.hi f.lo := by
  simp only [Reg.sound, Bool.and_eq_true, List.all_eq_true, decide_eq_true_eq] at hs
  obtain ⟨hfit, hapart⟩ := hs
  rw [State.storeFields_other]
  rcases s.home_cases off with h | h
  · rw [h, State.rd_wr_self, bitsOf_mod_word _ _ _ (hfit f hf).2, fields_put _ _ _ _ (fun g hg => (hfit g hg).1) hapart f hf]
    simp [Fld.put, hl]
  · rw [State.rd_wr_ne _ _ _ (by omega)]

/-- Every other register of BAR0 is as before. -/
theorem State.rd_storeFields_other {off a : Nat} (ha : a < 0x4000000) (hne : a ≠ off) (v : Nat) : (s.storeFields false r off v).rd a = s.rd a := by
  rw [State.storeFields_other]
  rcases s.home_cases off with h | h
  · exact State.rd_wr_ne _ _ _ (h.symm ▸ hne)
  · exact State.rd_wr_ne _ _ _ (by omega)

/-- A write that differs in an owner's field is dropped in a part. -/
theorem State.partDropped_rwl (hf : f ∈ r.flds) (hl : f.acc = .rwl) {off v : Nat}
    (hd : bitsOf v f.hi f.lo ≠ bitsOf (s.readWord off) f.hi f.lo) : s.partDropped r off (v &&& r.mask) = true := by
  refine List.any_eq_true.mpr ⟨f, hf, ?_⟩
  simp [hl, bitsOf_and_mask hf, hd]

/-- The write of another function of which a part is dropped: the parts that are taken, then the violation. -/
theorem State.otherWrite_dropped {off v fn : Nat} (ho : 0x40 ≤ o) (hd : s.partDropped r off v = true) :
    s.otherWrite fn p i o off r v = (s.storeFields false r off (wholeClear p o v)).violate (p.base i) fn := by
  simp only [State.otherWrite, if_neg (Nat.not_lt.mpr ho), hd, if_true]

/-- No field of the two registers of violations is an owner's. -/
theorem regAt_viol : ∀ k ∈ [GLB_VIOL_CNT, GLB_VIOL_PAGE], ∀ r ∈ regAt .glb k, ∀ f ∈ r.flds, f.acc ≠ .rwl := by decide

/-! ### Which writes reach a register -/

section
variable (hi : i < p.count) (ho : o < 0x1000)
include hi ho

theorem State.write4_unnamed (hr : regAt p o = none) (fn v : Nat) : s.write4 fn (p.base i + o) v = s := by
  simp [State.write4, pageAt_base p i o hi ho, base_mod p i o ho, hr]

theorem State.write4_underReset (h : s.pageState p i = 3) (fn v : Nat) : s.write4 fn (p.base i + o) v = s := by
  have shut : s.pageTakes p i = (s, false) := if_pos (.inr h)
  simp only [State.write4, pageAt_base p i o hi ho, base_mod p i o ho, shut]
  cases regAt p o <;> rfl

/-- A write of a register that stands alone by a function that does not own its page. -/
theorem State.write4_other {fn v : Nat} (hr : regAt p o = some r) (hh : r.half = .single) (ready : s.ready = true) (active : s.pageState p i = 1)
    (owns : s.owns fn (p.base i) = false) : s.write4 fn (p.base i + o) v = s.otherWrite fn p i o (p.base i + o) r (v &&& r.mask) := by
  simp [State.write4, pageAt_base p i o hi ho, base_mod p i o ho, hr, hh, State.pageTakes, ready, active, State.oneWrite, owns]

end

/-! ### Accesses of a page by the physical function -/

/-- Counting an Unsupported Request changes no unit's state. -/
theorem State.pageState_urCounted (s : State) (p : Pg) (i : Nat) : s.urCounted.pageState p i = s.pageState p i := by
  have stat (c : F) (h : rcvPg + c.off ≠ pciPg + PCI_UR_CNT) : s.urCounted.get rcvPg c = s.get rcvPg c :=
    congrArg (bitsOf · c.hi c.lo) (State.rd_bump_ne s h)
  have slices (q : Nat) : s.urCounted.partSlices q = s.partSlices q := by
    have far : partPg q + PART_SLICES ≠ pciPg + PCI_UR_CNT := by
      have hp : partPg q = 0x500000 + 0x1000 * q := rfl
      have hu : pciPg + PCI_UR_CNT = 0x14044 := rfl
      omega
    exact congrArg (onesBelow 32) (State.rd_bump_ne s far)
  have entry (typ idx : Nat) : s.urCounted.entryState typ idx = s.entryState typ idx := by
    have cap : s.urCounted.capState typ idx = s.capState typ idx := rfl
    simp only [State.entryState, State.underReset, State.on, cap, slices, stat _ (show rcvPg + GLB_RCV_STAT_LEVEL.off ≠ _ by decide),
      stat GLB_RCV_STAT_ENGINE_KIND (by decide), stat GLB_RCV_STAT_INDEX (by decide), stat GLB_RCV_STAT_PARTITION (by decide),
      stat GLB_RCV_STAT_WAIT_APPROVAL (by decide)]
    congr
  simp only [State.pageState]
  cases pageUnit p i with
  | none => rfl
  | some e => exact entry e.1 e.2

section
variable (hi : i < p.count) (ho : o < 0x1000) (ha : o % 4 = 0)
include hi ho ha

theorem exec_registerWrite_page (v : Word) : exec (.registerWrite 0 (p.base i + o) 4 (v.setWidth 64)) s = .next (s.write4 0 (p.base i + o) v.toNat) := by
  have hle := base_le p i hi
  have hal := base_aligned p i
  exact exec_registerWrite_pf (by omega) (by omega) v s

/-- A write of two bytes is an Unsupported Request and a bad access of the page (R514). -/
theorem exec_registerWrite_short (ready : s.ready = true) (up : s.pageState p i ≠ 3) (v : Word) :
    exec (.registerWrite 0 (p.base i + o) 2 (v.setWidth 64)) s = .next ((s.emit (.unsupported 0)).urCounted.badAccess (p.base i)) := by
  have hle := base_le p i hi
  have hal := base_aligned p i
  have counts : s.badWrite 0 (some (p.base i + o)) = if s.ready && (s.emit (.unsupported 0)).urCounted.pageState p i != 3 then
      (s.emit (.unsupported 0)).urCounted.badAccess (p.base i) else (s.emit (.unsupported 0)).urCounted := by
    rw [State.badWrite, Option.bind_some, pageAt_base p i o hi ho]
    rfl
  have up' : (s.emit (.unsupported 0)).urCounted.pageState p i ≠ 3 := (State.pageState_urCounted ..).trans_ne up
  have place : s.hostWrite 0 (p.base i + o) 2 (v.setWidth 64).toNat = s.badWrite 0 (some ((p.base i + o) / 4 * 4)) := rfl
  have fits : (decide (0 < 256) && decide (p.base i + o + 2 ≤ barSize 0)) = true := by
    simp only [barSize, if_true, Bool.and_eq_true, decide_eq_true_eq]
    omega
  refine (if_pos fits).trans (congrArg Host.Outcome.next ?_)
  rw [place, show (p.base i + o) / 4 * 4 = p.base i + o by omega, counts, if_pos (by simp [ready, up'])]

end

/-- The page's header is apart from the count of Unsupported Requests. -/
theorem header_ne_urCnt {k : Nat} (ha : pg % 0x1000 = 0) (hk : k < 0x40) : pg + k ≠ pciPg + PCI_UR_CNT := by
  have hg : pciPg = 0x14000 := rfl
  have hc : PCI_UR_CNT = 0x044 := rfl
  omega

theorem State.badAccess_quiet (h : s.on pg BLK_CTL_EVT_EN = false) : s.badAccess pg =
    (s.bumpF pg BLK_ERR_CNT_BAD 1).set pg BLK_ERR_SUM ((s.bumpF pg BLK_ERR_CNT_BAD 1).get pg BLK_ERR_SUM ||| 2 ^ 1) :=
  State.raise_quiet ((congrArg (· != 0) (State.get_set_page s pg BLK_ERR_CNT_BAD _ (g := BLK_CTL_EVT_EN) (by decide))).trans h) 1

theorem State.get_bad_badAccess (h : s.on pg BLK_CTL_EVT_EN = false) :
    (s.badAccess pg).get pg BLK_ERR_CNT_BAD = min 0xFFFF (s.get pg BLK_ERR_CNT_BAD + 1) := by
  rw [State.badAccess_quiet h, State.get_set_page _ _ _ _ (by decide), State.get_bumpF_16 (by decide) (by decide) rfl]

theorem State.sameRegs_badAccess (h : s.on pg BLK_CTL_EVT_EN = false) : s.sameRegs (s.badAccess pg) [pg + 0x010, pg + 0x014] := by
  intro a ha
  simp only [List.mem_cons, List.not_mem_nil, or_false, not_or] at ha
  rw [State.badAccess_quiet h, State.rd_set_ne _ _ _ _ ha.1, State.bumpF_eq, State.rd_set_ne _ _ _ _ ha.2]

/-! ### A part of another function's write is dropped -/

/-- A register with an owner's field is neither of the registers of violations. -/
theorem place_ne_viol (hi : i < p.count) (ho : o < 0x1000) (hr : regAt p o = some r) (hf : f ∈ r.flds) (hl : f.acc = .rwl) {k : Nat}
    (hk : k ∈ [GLB_VIOL_CNT, GLB_VIOL_PAGE]) : glbPg + k ≠ p.base i + o := by
  have hk' : k < 0x1000 := by
    have h : ∀ k ∈ [GLB_VIOL_CNT, GLB_VIOL_PAGE], k < 0x1000 := by decide
    exact h k hk
  intro h
  obtain ⟨rfl, -, rfl⟩ := base_inj hi (q := .glb) (j := 0) (by decide) ho hk' h.symm
  exact regAt_viol _ hk r hr f hf hl

/-- Settles O7: the parts of a write that a page takes leave the owner's fields, and what is refused is counted in its page's header. -/
theorem otherWritersAreHeld : Obligations.OtherWritersAreHeld := by
  refine ⟨fun s p i o r f v hi ho ho' hr hh hf hl ready active owns quiet hd => ?_, fun s p i o v hi ho ha h => ?_,
    fun s p i o v hi ho ha h => ?_, fun s p i o v hi ho ha ready up quiet => ?_⟩
  · have hle := base_le p i hi
    have hal := base_aligned p i
    let u := s.storeFields false r (p.base i + o) (wholeClear p o (v.toNat &&& r.mask))
    have header {k : Nat} (hk : k < 0x40) : u.rd (p.base i + k) = s.rd (p.base i + k) := State.rd_storeFields_other (by omega) (by omega) _
    have glb {k : Nat} (hk : k ∈ [GLB_VIOL_CNT, GLB_VIOL_PAGE]) (hlt : glbPg + k < 0x4000000) : u.rd (glbPg + k) = s.rd (glbPg + k) :=
      State.rd_storeFields_other hlt (place_ne_viol hi ho' hr hf hl hk) _
    have hq : u.on (p.base i) BLK_CTL_EVT_EN = false := (congrArg (bitsOf · 0 0 != 0) (header (k := 0x008) (by decide))).trans quiet
    have same := State.sameRegs_violate hal hq 0
    have apart : p.base i + o ∉ violRegs (p.base i) := by
      have hc := place_ne_viol hi ho' hr hf hl (k := GLB_VIOL_CNT) (by decide)
      have hp := place_ne_viol hi ho' hr hf hl (k := GLB_VIOL_PAGE) (by decide)
      simp only [violRegs, List.mem_cons, List.not_mem_nil, or_false, not_or]
      omega
    have seq : p.base i + 0x024 ∉ violRegs (p.base i) := by
      obtain ⟨hc, hp⟩ := header_ne_violRegs hal (k := 0x024) (by decide)
      simp only [violRegs, List.mem_cons, List.not_mem_nil, or_false, not_or]
      omega
    refine ⟨u.violate (p.base i) 0, ?_, ?_, ?_, State.get_last_violate hal hq (by decide), State.ownerViol_violate hal hq 0, ?_,
      State.rd_violPage_violate hal hq (by omega), ?_, ?_⟩
    · rw [exec_registerWrite_page hi ho' (regAt_aligned hr ho), State.write4_other hi ho' hr hh ready active owns,
        State.otherWrite_dropped ho (State.partDropped_rwl hf hl hd)]
    · rw [same _ apart, State.rwl_storeFields_other (regAt_sound hr) hf hl (by omega)]
    · exact (State.get_viol_violate hal hq 0).trans (congrArg (fun n => min 0xFFFF (bitsOf n 15 0 + 1)) (header (k := 0x014) (by decide)))
    · exact (State.rd_violCnt_violate hal hq 0).trans (congrArg (fun n => min 0xFFFFFFFF (n + 1)) (glb (by decide) (by decide)))
    · rw [same _ seq, header (by decide)]
    · exact (State.OnlyRegs.trans (.wr ..) (State.violate_onlyRegs hal hq 0)).sameBytes
  · rw [exec_registerWrite_page hi ho ha, State.write4_underReset hi ho h]
  · rw [exec_registerWrite_page hi ho ha, State.write4_unnamed hi ho h]
  · have hal := base_aligned p i
    let c := (s.emit (.unsupported 0)).urCounted
    have counted {k : Nat} (hk : k < 0x40) : c.rd (p.base i + k) = s.rd (p.base i + k) :=
      (State.rd_bump_ne _ (header_ne_urCnt hal hk)).trans (State.rd_of_regs rfl _)
    have hq : c.on (p.base i) BLK_CTL_EVT_EN = false := (congrArg (bitsOf · 0 0 != 0) (counted (k := 0x008) (by decide))).trans quiet
    have same := State.sameRegs_badAccess hq
    refine ⟨_, exec_registerWrite_short hi ho ha ready up v, ?_, ?_, ?_, ?_, fun a h => ?_⟩
    · rw [State.badAccess_quiet hq]
      rfl
    · rw [same _ ?_]
      · exact (State.rd_bump_self _ _ _).trans (congrArg (fun n => min 0xFFFFFFFF (n + 1)) (State.rd_of_regs rfl _))
      · simp [(header_ne_urCnt hal (k := 0x010) (by decide)).symm, (header_ne_urCnt hal (k := 0x014) (by decide)).symm]
    · exact (State.get_bad_badAccess hq).trans (congrArg (fun n => min 0xFFFF (bitsOf n 31 16 + 1)) (counted (k := 0x014) (by decide)))
    · rw [State.badAccess_quiet hq]
      exact State.bitOf_errSum_set (by decide)
    · obtain ⟨hne, h⟩ := List.ne_and_not_mem_of_not_mem_cons h
      exact (same a h).trans ((State.rd_bump_ne _ hne).trans (State.rd_of_regs rfl _))

end Sys2Proof.Machine
end

section
/-! SUPPORT. A level that starts leaves PERST_N as it stands: each operation that preempting the bindings in its scope can run, in the
order of the model. -/

namespace Sys2Proof.Machine.State

open Sys2Proof

variable {s t : State} {P : Bool} {α β : Type}
/-- The input PERST_N. -/
def perst (s : State) : Bool := s.pins.perstN

/-! ### Choices, folds and records -/

theorem perst_ite {c : Prop} {_ : Decidable c} {a b : State} (ha : a.perst = P) (hb : b.perst = P) : (if c then a else b).perst = P := by
  split
  · exact ha
  · exact hb

theorem perst_ite_fst {c : Prop} {_ : Decidable c} {a b : State × α} (ha : a.1.perst = P) (hb : b.1.perst = P) : (if c then a else b).1.perst = P := by
  split
  · exact ha
  · exact hb

theorem perst_foldl {f : State → α → State} {l : List α} (hf : ∀ s a, s.perst = P → (f s a).perst = P) (h : s.perst = P) :
    (l.foldl f s).perst = P := by
  induction l generalizing s with
  | nil => exact h
  | cons a l ih => exact ih (hf s a h)

theorem perst_foldl_fst {f : State × β → α → State × β} {l : List α} {p : State × β}
    (hf : ∀ p a, p.1.perst = P → (f p a).1.perst = P) (h : p.1.perst = P) : (l.foldl f p).1.perst = P := by
  induction l generalizing p with
  | nil => exact h
  | cons a l ih => exact ih (hf p a h)

theorem perst_of_eq {p : State × α} {a : α} (e : p = (t, a)) (h : p.1.perst = P) : t.perst = P := by
  rw [e] at h
  exact h

theorem with_cells_spad_share_perst {cells' : Tab CellSt} {spad' share' : List Host.Cell} (h : s.perst = P) :
    { s with cells := cells', spad := spad', share := share' }.perst = P := h
theorem with_gates_perst {gates' : List Nat} (h : s.perst = P) : { s with gates := gates' }.perst = P := h
theorem with_latched_perst {latched' : Tab (List (Nat × Nat))} (h : s.perst = P) : { s with latched := latched' }.perst = P := h
theorem with_power_perst {power' : PowerSt} (h : s.perst = P) : { s with power := power' }.perst = P := h
theorem with_rcv_perst {rcv' : RcvSt} (h : s.perst = P) : { s with rcv := rcv' }.perst = P := h
theorem with_reqs_nextTag_perst {reqs' : Tab (Option LinkReq)} {nextTag' : Nat} (h : s.perst = P) :
    { s with reqs := reqs', nextTag := nextTag' }.perst = P :=
  h
theorem with_spad_perst {spad' : List Host.Cell} (h : s.perst = P) : { s with spad := spad' }.perst = P := h
theorem with_spad_share_perst {spad' share' : List Host.Cell} (h : s.perst = P) : { s with spad := spad', share := share' }.perst = P := h

/-! ### The operations, in the order of the model -/

theorem wr_perst (h : s.perst = P) {off v : ℕ} : (s.wr off v).perst = P := h

theorem set_perst (h : s.perst = P) {pg : ℕ} {f : F} {v : ℕ} : (s.set pg f v).perst = P := h

theorem mark_perst (h : s.perst = P) {pg : ℕ} {f : F} {b : Bool} : (s.mark pg f b).perst = P := h

theorem wr64_perst (h : s.perst = P) {off v : ℕ} : (s.wr64 off v).perst = P := h

theorem bump_perst (h : s.perst = P) {off n : ℕ} : (s.bump off n).perst = P := h

theorem bumpF_perst (h : s.perst = P) {pg : ℕ} {f : F} {n : ℕ} : (s.bumpF pg f n).perst = P := h

theorem bump64_perst (h : s.perst = P) {off n : ℕ} : (s.bump64 off n).perst = P := wr64_perst h

theorem updCell_perst (h : s.perst = P) {k : ℕ} {f : CellSt → CellSt} : (s.updCell k f).perst = P := h

theorem updCore_perst (h : s.perst = P) {k : ℕ} {f : CoreSt → CoreSt} : (s.updCore k f).perst = P := h

theorem updSlice_perst (h : s.perst = P) {k : ℕ} {f : SliceSt → SliceSt} : (s.updSlice k f).perst = P := h

theorem updMould_perst (h : s.perst = P) {k : ℕ} {f : Mould → Mould} : (s.updMould k f).perst = P := h

theorem updSegPend_perst (h : s.perst = P) {k : ℕ} {f : SegPend → SegPend} : (s.updSegPend k f).perst = P := h

theorem updRebind_perst (h : s.perst = P) {k : ℕ} {f : Rebind → Rebind} : (s.updRebind k f).perst = P := h

theorem updCtx_perst (h : s.perst = P) {k : ℕ} {f : CtxSt → CtxSt} : (s.updCtx k f).perst = P := h

theorem updPart_perst (h : s.perst = P) {k : ℕ} {f : PartSt → PartSt} : (s.updPart k f).perst = P := h

theorem updLink_perst (h : s.perst = P) {k : ℕ} {f : LinkSt → LinkSt} : (s.updLink k f).perst = P := h

theorem updTrunk_perst (h : s.perst = P) {k : ℕ} {f : TrunkSt → TrunkSt} : (s.updTrunk k f).perst = P := h

theorem updRoute_perst (h : s.perst = P) {k : ℕ} {f : Route → Route} : (s.updRoute k f).perst = P := h

theorem emit_perst (h : s.perst = P) {o : Out} : (s.emit o).perst = P := h

theorem draw_perst (h : s.perst = P) : s.draw.2.perst = P := h

/-- An event changes no pin. -/
theorem perst_of_sansEvents (e : t.sansEvents = s.sansEvents) (h : s.perst = P) : t.perst = P :=
  (State.field_of_sansEvents e State.perst (fun _ => rfl)).trans h

theorem markHostPage_perst (h : s.perst = P) {fn page : ℕ} : (s.markHostPage fn page).perst = P :=
  perst_of_sansEvents (State.markHostPage_sansEvents ..) h

theorem event_perst (h : s.perst = P) {e typ fn : ℕ} {payload : Bytes} : (s.event e typ fn payload).perst = P :=
  perst_of_sansEvents (State.event_sansEvents ..) h

theorem eventAll_perst (h : s.perst = P) {es : List ℕ} {typ fn : ℕ} {payload : Bytes} : (s.eventAll es typ fn payload).perst = P :=
  perst_of_sansEvents (State.eventAll_sansEvents ..) h

theorem event0_perst (h : s.perst = P) {typ : ℕ} {payload : Bytes} : (s.event0 typ payload).perst = P := event_perst h

theorem raise_perst (h : s.perst = P) {pg b : ℕ} : (s.raise pg b).perst = P := perst_of_sansEvents (State.raise_sansEvents ..) h

theorem errCount_perst (h : s.perst = P) {pg off n : ℕ} : (s.errCount pg off n).perst = P := perst_of_sansEvents (State.errCount_sansEvents ..) h

theorem alarm_perst (h : s.perst = P) {b : ℕ} : (s.alarm b).perst = P := h

theorem updCmd_perst (h : s.perst = P) {q seq : ℕ} {f : Cmd → Cmd} : (s.updCmd q seq f).perst = P := h

theorem mapCmds_perst (h : s.perst = P) {p : Cmd → Bool} {f : Cmd → Cmd} : (s.mapCmds p f).perst = P := h

theorem breakCmd_perst (h : s.perst = P) {q seq code srcKind srcId detail remote : ℕ} :
    (s.breakCmd q seq code srcKind srcId detail remote).perst = P := h

theorem capTouch_perst (h : s.perst = P) : s.capTouch.perst = P := h

theorem fault_perst (h : s.perst = P) {row idx what : ℕ} : (s.fault row idx what).perst = P := h

theorem breakAwaiting_perst (h : s.perst = P) {code detail : ℕ} {c : Cmd} : (s.breakAwaiting code detail c).perst = P := h

theorem setLatch_perst (h : s.perst = P) {c : Cmd} : (s.setLatch c).perst = P :=
  perst_ite h (perst_foldl (fun _ _ h => breakAwaiting_perst h) (mapCmds_perst (set_perst (with_latched_perst h))))

theorem fenErr_perst (h : s.perst = P) {f : ℕ} : (s.fenErr f).perst = P := raise_perst (bump_perst h)

theorem breakFence_perst (h : s.perst = P) {f : ℕ} {record : Bytes} : (s.breakFence f record).perst = P := by
  unfold breakFence
  exact
    have h1 := fenErr_perst h
    perst_ite h1 (set_perst (perst_foldl (fun _ _ h => wr_perst h) h1))

theorem brokenEvent_perst (h : s.perst = P) {f code q seq : ℕ} : (s.brokenEvent f code q seq).perst = P := event_perst h

theorem breakFenceOf_perst (h : s.perst = P) {c : Cmd} : (s.breakFenceOf c).perst = P := perst_ite h (brokenEvent_perst (breakFence_perst h))

theorem mouldSettle_perst (h : s.perst = P) {p i : ℕ} : (s.mouldSettle p i).perst = P := perst_ite (updMould_perst h) h

theorem outOfTurn_perst (h : s.perst = P) {c : Cmd} : (s.outOfTurn c).perst = P := by
  unfold outOfTurn
  exact
    have h1 := setLatch_perst (breakFenceOf_perst (updCmd_perst h))
    perst_ite (mouldSettle_perst h1) h1

theorem forceBreak_perst (h : s.perst = P) {c : Cmd} {code : ℕ} : (s.forceBreak c code).perst = P :=
  perst_ite (breakAwaiting_perst h) (perst_ite h (perst_ite (updCmd_perst h) (outOfTurn_perst h)))

theorem keyStartRetire_perst (h : s.perst = P) {k : ℕ} {force : Bool} : (s.keyStartRetire k force).perst = P := by
  unfold keyStartRetire
  exact
    have h1 := perst_ite (set_perst (set_perst (set_perst h))) h
    perst_ite (perst_foldl (fun _ _ h => forceBreak_perst h) h1) h1

theorem securityAlarm_perst (h : s.perst = P) {cause : ℕ} {slot : Option ℕ} {srcId : ℕ} : (s.securityAlarm cause slot srcId).perst = P := by
  unfold securityAlarm
  exact
    have h5 := alarm_perst (eventAll_perst (set_perst (set_perst (set_perst (errCount_perst (wr_perst h))))))
    perst_ite (keyStartRetire_perst h5) h5

theorem storeLine_perst (h : s.perst = P) {chan cl : ℕ} {g : Seal} {data : Bytes} : (s.storeLine chan cl g data).perst = P := h

theorem uncorrected_perst (h : s.perst = P) {chan cl cw : ℕ} : (s.uncorrected chan cl cw).perst = P :=
  fault_perst (set_perst (set_perst (set_perst (errCount_perst h))))

theorem tagFailed_perst (h : s.perst = P) {chan cl : ℕ} {g : Seal} {cause : ℕ} : (s.tagFailed chan cl g cause).perst = P :=
  securityAlarm_perst (set_perst (set_perst (set_perst (errCount_perst h))))

theorem countEras_perst (h : s.perst = P) {chan cl : ℕ} : (s.countEras chan cl).perst = P := perst_ite (bump_perst h) h

theorem fetchLine_perst (h : s.perst = P) {chan cl : ℕ} {want : Seal} {cause : ℕ} : (s.fetchLine chan cl want cause).1.perst = P := by
  unfold fetchLine
  refine perst_ite_fst (uncorrected_perst h) ?_
  exact
    have h1 := countEras_perst h
    perst_ite_fst h1 (perst_ite_fst h1 (tagFailed_perst h1))

theorem setBufs_perst (h : s.perst = P) {chan : ℕ} {l : List NapBuf} : (s.setBufs chan l).perst = P := h

theorem writeBack_perst (h : s.perst = P) {chan : ℕ} {b : NapBuf} : (s.writeBack chan b).perst = P := perst_ite (bump64_perst (storeLine_perst h)) h

theorem dropOther_perst (h : s.perst = P) {chan cl key : ℕ} {wb : Bool} : (s.dropOther chan cl key wb).perst = P := by
  unfold dropOther
  split
  · exact h
  · exact setBufs_perst (perst_ite (writeBack_perst h) h)

theorem makeRoom_perst (h : s.perst = P) {chan : ℕ} : (s.makeRoom chan).perst = P := by
  unfold makeRoom
  refine perst_ite h ?_
  dsimp only
  split
  · exact h
  · exact setBufs_perst (writeBack_perst h)

theorem useBuf_perst (h : s.perst = P) {chan : ℕ} {b : NapBuf} : (s.useBuf chan b).perst = P := h

theorem markBlock_perst (h : s.perst = P) {dpa : ℕ} : (s.markBlock dpa).perst = P := by
  unfold markBlock
  split
  · exact h
  · exact
      have h1 := perst_ite (updPart_perst h) h
      perst_ite (set_perst (updRebind_perst h1)) h1

theorem openBuf_perst (h : s.perst = P) {chan cl key part dpa cause : ℕ} : (s.openBuf chan cl key part dpa cause).1.perst = P := by
  unfold openBuf
  split
  · exact bump64_perst (useBuf_perst h)
  · exact
      have h1 := makeRoom_perst (dropOther_perst h)
      by
        extract_lets
        split
        next t _ e =>
          split
          · exact bump64_perst (useBuf_perst (perst_of_eq e (fetchLine_perst h1)))
          · exact perst_of_eq e (fetchLine_perst h1)

theorem lineRead_perst (h : s.perst = P) {p : Place} {key dpa : ℕ} : (s.lineRead p key dpa).1.perst = P := by
  unfold lineRead
  split
  · exact
      have h1 := bump64_perst h
      perst_ite_fst (useBuf_perst (writeBack_perst h1)) (useBuf_perst h1)
  · exact fetchLine_perst (dropOther_perst h)

theorem lineWrite_perst (h : s.perst = P) {p : Place} {key dpa : ℕ} {data : Bytes} : (s.lineWrite p key dpa data).perst = P :=
  markBlock_perst (storeLine_perst (setBufs_perst h))

theorem lineModify_perst (h : s.perst = P) {p : Place} {key part dpa : ℕ} {f : Bytes → Bytes × Bytes} : (s.lineModify p key part dpa f).1.perst = P := by
  unfold lineModify
  split
  next t _ e =>
    exact perst_of_eq e (openBuf_perst h)
  next t _ e =>
    exact markBlock_perst (useBuf_perst (perst_of_eq e (openBuf_perst h)))

theorem readDev_perst {n key dpa k : ℕ} (h : s.perst = P) : (readDev n s key dpa k).1.perst = P := by
  induction n generalizing s dpa k with
  | zero => exact h
  | succ n ih =>
    unfold readDev
    refine perst_ite_fst h ?_
    split
    · exact h
    · refine perst_ite_fst h ?_
      dsimp only
      split
      next t _ e =>
        have ht : t.perst = P := perst_of_eq e (lineRead_perst h)
        split
        next e => exact perst_of_eq e (ih ht)
        next => exact ih ht
      next e => exact perst_of_eq e (lineRead_perst h)

theorem writeDev_perst {n key part dpa : ℕ} {data : Bytes} (h : s.perst = P) : (writeDev n s key part dpa data).1.perst = P := by
  induction n generalizing s dpa data with
  | zero => exact h
  | succ n ih =>
    unfold writeDev
    refine perst_ite_fst h ?_
    split
    · exact h
    · refine perst_ite_fst h (perst_ite_fst (ih (lineWrite_perst h)) ?_)
      split
      next e => exact ih (perst_of_eq e (lineModify_perst h))
      next => exact lineModify_perst h

theorem devRead_perst (h : s.perst = P) {key dpa n : ℕ} : (s.devRead key dpa n).1.perst = P := readDev_perst h

theorem devWrite_perst (h : s.perst = P) {key part dpa : ℕ} {data : Bytes} : (s.devWrite key part dpa data).1.perst = P := writeDev_perst h

theorem flushChan_perst (h : s.perst = P) {chan : ℕ} {p : NapBuf → Bool} : (s.flushChan chan p).1.perst = P :=
  setBufs_perst (perst_foldl (fun _ _ h => writeBack_perst h) h)

theorem flushTower_perst (h : s.perst = P) {key part : ℕ} {byPart : Bool} {p : NapBuf → Bool} {t : ℕ} : (s.flushTower key part byPart p t).perst = P := by
  unfold flushTower
  split
  next t n e =>
    have ht : t.perst = P := perst_of_eq e (perst_foldl_fst (fun _ _ h => flushChan_perst h) h)
    exact set_perst (mark_perst (perst_ite (set_perst ht) (set_perst ht)))

theorem flushKey_perst (h : s.perst = P) {k : ℕ} : (s.flushKey k).perst = P := perst_foldl (fun _ _ h => flushTower_perst h) h

theorem flushPart_perst (h : s.perst = P) {n : ℕ} : (s.flushPart n).perst = P := perst_foldl (fun _ _ h => flushTower_perst h) h

theorem unlockSettle_perst (h : s.perst = P) : s.unlockSettle.perst = P := perst_ite (set_perst (wr_perst h)) h

theorem keyFinish_perst (h : s.perst = P) {k : ℕ} : (s.keyFinish k).perst = P :=
  unlockSettle_perst (eventAll_perst (set_perst (set_perst (flushKey_perst h))))

theorem keySettle_perst (h : s.perst = P) {k : ℕ} : (s.keySettle k).perst = P := perst_ite (keyFinish_perst h) h

theorem keysSettle_perst (h : s.perst = P) : s.keysSettle.perst = P := perst_foldl (fun _ _ h => keySettle_perst h) h

theorem toStream_perst (h : s.perst = P) {p : ℕ} {t : Txn} : (s.toStream p t).perst = P := perst_ite (updLink_perst h) (updTrunk_perst h)

theorem transmit_perst (h : s.perst = P) {p : ℕ} {t : Txn} : (s.transmit p t).perst = P :=
  perst_ite (emit_perst (toStream_perst (updLink_perst h))) (updLink_perst h)

theorem depart_perst (h : s.perst = P) {p : ℕ} {t : Txn} : (s.depart p t).perst = P := transmit_perst h

theorem issueReq_perst (h : s.perst = P) {r : LinkReq} {t : Txn} {l : List ℕ} : (s.issueReq r t l).perst = P := by
  unfold issueReq
  split
  · exact h
  · exact depart_perst (with_reqs_nextTag_perst h)

theorem sendReq_perst (h : s.perst = P) {c : Cmd} {slot dst : ℕ} {t : Txn} {r0 : LinkReq} : (s.sendReq c slot dst t r0).perst = P := by
  unfold sendReq
  refine perst_ite (updRoute_perst h) ?_
  split
  · exact breakCmd_perst h
  · exact perst_ite (breakCmd_perst h) (issueReq_perst h)

theorem sendMgmt_perst (h : s.perst = P) {p : ℕ} {t : Txn} : (s.sendMgmt p t).perst = P := transmit_perst h

theorem remoteWrite_perst (h : s.perst = P) {c : Cmd} {r : Range} {off : ℕ} {data : Bytes} : (s.remoteWrite c r off data).perst = P := by
  unfold remoteWrite
  split
  · exact breakCmd_perst h
  · exact perst_foldl (fun _ _ h => sendReq_perst h) h

theorem hostRangeWrite_perst (h : s.perst = P) {fn : ℕ} {r : Range} {off : ℕ} {data : Bytes} : (s.hostRangeWrite fn r off data).perst = P :=
  perst_ite h (perst_foldl (fun _ _ h => emit_perst h) (perst_ite (perst_foldl (fun _ _ h => markHostPage_perst h) h) h))

theorem rangeWrite_perst (h : s.perst = P) {c : Cmd} {r : Range} {off : ℕ} {data : Bytes} : (s.rangeWrite c r off data).perst = P := by
  unfold rangeWrite
  refine perst_ite h ?_
  refine perst_ite ?_ (perst_ite (hostRangeWrite_perst h) (remoteWrite_perst h))
  split
  next t _ _ _ e =>
    exact breakCmd_perst (perst_of_eq e (devWrite_perst h))
  next t _ e =>
    exact perst_of_eq e (devWrite_perst h)

theorem rampFrom_perst (h : s.perst = P) {i milli : ℕ} : (s.rampFrom i milli).perst = P := h

theorem fillCount_perst (h : s.perst = P) {i : ℕ} : (s.fillCount i).perst = P := by
  unfold fillCount
  split
  · exact h
  · exact with_power_perst (bump_perst h)

theorem fillStop_perst (h : s.perst = P) {i : ℕ} : (s.fillStop i).perst = P := perst_ite h (with_power_perst (rampFrom_perst (fillCount_perst h)))

theorem unfillSlice_perst (h : s.perst = P) {slice : ℕ} : (s.unfillSlice slice).perst = P := perst_foldl (fun _ _ h => fillStop_perst h) h

theorem mapSlice_perst (h : s.perst = P) {slice : ℕ} {f : CellSt → CellSt} : (s.mapSlice slice f).perst = P := h

theorem cfgValid_perst (h : s.perst = P) {slice : ℕ} {b : Bool} : (s.cfgValid slice b).perst = P := perst_foldl (fun _ _ h => mark_perst h) h

theorem setQuiet_perst (h : s.perst = P) {slice : ℕ} {b : Bool} : (s.setQuiet slice b).perst = P :=
  perst_foldl (fun _ _ h => mark_perst h) (set_perst h)

theorem setGates_perst (h : s.perst = P) {core : ℕ} : (s.setGates core).perst = P := perst_foldl (fun _ _ h => perst_ite (with_gates_perst h) h) h

theorem setAllGates_perst (h : s.perst = P) : s.setAllGates.perst = P := perst_foldl (fun _ _ h => setGates_perst h) h

theorem loadCells_perst (h : s.perst = P) {slice : ℕ} {m : Bytes} : (s.loadCells slice m).perst = P :=
  updSlice_perst (perst_foldl (fun _ _ h => updCell_perst h) (perst_foldl (fun _ _ h => updCell_perst h)
    (perst_foldl (fun _ _ h => updCell_perst h) (mapSlice_perst h))))

theorem rangeRead_perst (h : s.perst = P) {r : Range} {off n : ℕ} : (s.rangeRead r off n).1.perst = P := by
  unfold rangeRead
  refine perst_ite_fst ?_ (draw_perst h)
  split
  next t _ e =>
    exact perst_of_eq e (devRead_perst h)
  next t _ e =>
    exact perst_of_eq e (devRead_perst h)

theorem fillLines_perst (h : s.perst = P) {l : List (ℕ × ℕ)} {b : Bytes} : (s.fillLines l b).perst = P := by
  induction l generalizing s b with
  | nil => exact h
  | cons e l ih => exact perst_ite h (ih (with_spad_perst h))

theorem resFill_perst (h : s.perst = P) {c : Cmd} {slice : ℕ} : (s.resFill c slice).perst = P := by
  unfold resFill
  refine updSlice_perst ?_
  refine perst_foldl (fun _ _ h => ?_) h
  extract_lets
  split
  next t _ e =>
    refine fillLines_perst ?_
    refine perst_of_eq e ?_
    refine perst_foldl_fst (fun _ _ h => ?_) h
    split
    next t _ e =>
      exact perst_of_eq e (rangeRead_perst h)
    next t _ e =>
      exact breakCmd_perst (perst_of_eq e (rangeRead_perst h))

theorem updMovers_perst (h : s.perst = P) {core : ℕ} {f : Tab (List MoverReq) → Tab (List MoverReq)} : (s.updMovers core f).perst = P := h

theorem setMover_perst (h : s.perst = P) {core m : ℕ} {l : List MoverReq} : (s.setMover core m l).perst = P := h

theorem scrubSlice_perst (h : s.perst = P) {slice : ℕ} : (s.scrubSlice slice).perst = P := by
  unfold scrubSlice
  extract_lets core keys s1 s2 s3 s4 s5 s6
  have h1 : s1.perst = P := unfillSlice_perst h
  have h2 : s2.perst = P := with_cells_spad_share_perst h1
  have h5 : s5.perst = P := updCore_perst (updMovers_perst (updSlice_perst h2))
  have h6 : s6.perst = P := by
    unfold s6
    split
    · exact flushPart_perst h5
    · exact h5
  exact cfgValid_perst (bumpF_perst h6)

theorem clearSlice_perst (h : s.perst = P) {slice : ℕ} : (s.clearSlice slice).perst = P := h

theorem flushSlice_perst (h : s.perst = P) {slice q seq : ℕ} : (s.flushSlice slice q seq).perst = P :=
  updSlice_perst (updMovers_perst (mapSlice_perst (unfillSlice_perst h)))

theorem flushCmd_perst (h : s.perst = P) {q seq : ℕ} : (s.flushCmd q seq).perst = P := perst_foldl (fun _ _ h => perst_ite (flushSlice_perst h) h) h

theorem issueQueued_perst (h : s.perst = P) {slice : ℕ} : (s.issueQueued slice).perst = P := by
  unfold issueQueued
  extract_lets core
  split
  next t _ e =>
    have ht : t.perst = P := perst_of_eq e (perst_foldl_fst (p := (s, [])) (fun _ _ h => perst_ite_fst (setMover_perst h) h) h)
    exact updSlice_perst ht

theorem resWriteBack_perst (h : s.perst = P) {c : Cmd} {slice k B : ℕ} : (s.resWriteBack c slice k B).1.perst = P := by
  unfold resWriteBack
  refine perst_foldl_fst (fun _ _ h => ?_) h
  refine perst_foldl_fst (fun _ _ h => ?_) h
  refine perst_ite_fst (rangeWrite_perst h) ?_
  split
  next t e =>
    exact perst_of_eq e (devWrite_perst h)
  next t _ e =>
    exact perst_of_eq e (devWrite_perst h)
  next t _ e =>
    exact perst_of_eq e (devWrite_perst h)

theorem preamble_perst (h : s.perst = P) {c : Cmd} {slice l : ℕ} : (s.preamble c slice l).perst = P := issueQueued_perst (updSlice_perst h)

theorem startCells_perst (h : s.perst = P) {slice phase iter : ℕ} : (s.startCells slice phase iter).perst = P := h

theorem giveTile_perst (h : s.perst = P) {slice : ℕ} {c : Cmd} : (s.giveTile slice c).perst = P := by
  unfold giveTile
  split
  · exact h
  · exact preamble_perst (startCells_perst (setQuiet_perst (updSlice_perst (updCmd_perst h))))

theorem feed_perst (h : s.perst = P) {slice : ℕ} : (s.feed slice).perst = P := by
  unfold feed
  extract_lets x
  split
  · exact h
  · refine perst_ite h ?_
    dsimp only
    split
    · exact h
    · exact perst_ite (giveTile_perst h) (updSlice_perst h)

theorem feedCtx_perst (h : s.perst = P) {x : ℕ} : (s.feedCtx x).perst = P := perst_foldl (fun _ _ h => feed_perst h) h

theorem askBoundary_perst (h : s.perst = P) {q seq : ℕ} : (s.askBoundary q seq).perst = P := h

theorem saveWrite_perst (h : s.perst = P) {ctx dpa : ℕ} {b : Bytes} : (s.saveWrite ctx dpa b).perst = P := by
  unfold saveWrite
  refine perst_foldl (fun _ _ h => ?_) h
  extract_lets
  split
  · exact markBlock_perst (storeLine_perst (setBufs_perst h))
  · exact h

theorem saveRead_perst (h : s.perst = P) {ctx dpa n : ℕ} : (s.saveRead ctx dpa n).1.perst = P := by
  induction n generalizing s dpa with
  | zero => exact h
  | succ n ih =>
    unfold saveRead
    split
    · exact h
    · split
      next e => exact ih (perst_of_eq e (fetchLine_perst (flushChan_perst h)))
      next e => exact perst_of_eq e (fetchLine_perst (flushChan_perst h))

theorem schedStat_perst (h : s.perst = P) {x : ℕ} : (s.schedStat x).perst = P := h

theorem account_perst (h : s.perst = P) {x : ℕ} : (s.account x).perst = P := updCtx_perst (bump64_perst h)

theorem residentsHome_perst (h : s.perst = P) {x : ℕ} {which : ℕ → Bool} : (s.residentsHome x which).perst = P := by
  unfold residentsHome
  refine perst_foldl (fun _ _ h => ?_) h
  refine perst_foldl (fun _ _ h => ?_) h
  refine perst_ite ?_ h
  split
  next t e =>
    exact perst_of_eq e (resWriteBack_perst h)
  next t e =>
    exact breakCmd_perst (perst_of_eq e (resWriteBack_perst h))

theorem residentsFill_perst (h : s.perst = P) {x : ℕ} : (s.residentsFill x).perst = P :=
  perst_foldl (fun _ _ h => perst_foldl (fun _ _ h => perst_ite (resFill_perst h) h) h) h

theorem rebind__perst (h : s.perst = P) {x : ℕ} {f : State → State} (hf : ∀ s, s.perst = P → (f s).perst = P) : (s.rebind_ x f).perst = P :=
  perst_ite (hf _ h) (residentsFill_perst (hf _ (residentsHome_perst h)))

theorem freshSlice_perst (h : s.perst = P) {n : ℕ} : (s.freshSlice n).perst = P :=
  perst_ite (clearSlice_perst (with_spad_share_perst h)) (scrubSlice_perst h)

theorem startQuantum_perst (h : s.perst = P) {x : ℕ} : (s.startQuantum x).perst = P := h

theorem countSwitch_perst (h : s.perst = P) {p : ℕ} : (s.countSwitch p).perst = P := perst_ite (updPart_perst (bump_perst h)) h

theorem give_perst (h : s.perst = P) {x : ℕ} {l : List ℕ} : (s.give x l).perst = P := by
  unfold give
  refine perst_ite h ?_
  exact
    have h1 := account_perst h
    schedStat_perst (feedCtx_perst (countSwitch_perst (rebind__perst (perst_ite (startQuantum_perst h1) h1)
      (fun _ h => perst_foldl (fun _ _ h => updSlice_perst (freshSlice_perst h)) h))))

theorem resume_perst (h : s.perst = P) {x : ℕ} {cfgs : List (Option (ℕ × ℕ × ℕ))} {l : List ℕ} : (s.resume x cfgs l).perst = P := by
  unfold resume
  refine schedStat_perst (countSwitch_perst (updCtx_perst ?_))
  refine perst_foldl (fun _ _ h => ?_) (startQuantum_perst (account_perst h))
  exact
    have h2 := scrubSlice_perst h
    setMover_perst (updSlice_perst (by
      split
      · exact cfgValid_perst (updSlice_perst (loadCells_perst h2))
      · exact h2))

theorem recordLines_perst (h : s.perst = P) {x r : ℕ} {lines : List (ℕ × ℕ)} : (s.recordLines x r lines).1.perst = P := by
  unfold recordLines
  refine perst_foldl_fst (fun a _ h => ?_) h
  obtain ⟨t, _ | b⟩ := a
  · exact h
  · dsimp only
    split
    next e => exact perst_of_eq e (saveRead_perst h)
    next e => exact perst_of_eq e (saveRead_perst h)

theorem resumeFewer_perst (h : s.perst = P) {x : ℕ} {cfgs : List (Option (ℕ × ℕ × ℕ))} {l : List ℕ} : (s.resumeFewer x cfgs l).perst = P := by
  unfold resumeFewer
  refine give_perst ?_
  refine updCtx_perst ?_
  refine perst_foldl (fun _ _ h => ?_) h
  refine perst_foldl (fun _ _ h => ?_) h
  refine perst_ite h ?_
  refine perst_foldl (fun _ _ h => ?_) h
  extract_lets
  split
  next t e =>
    exact breakCmd_perst (perst_of_eq e (recordLines_perst h))
  next t _ e =>
    exact perst_foldl (fun _ _ h => rangeWrite_perst h) (perst_of_eq e (recordLines_perst h))

theorem release_perst (h : s.perst = P) {n : ℕ} : (s.release n).perst = P := by
  unfold release
  split
  · exact h
  · exact
      have h2 := updSlice_perst (clearSlice_perst (unfillSlice_perst (account_perst h)))
      schedStat_perst (perst_ite (updCtx_perst h2) h2)

theorem vacate_perst (h : s.perst = P) {x : ℕ} {rt : Bool} : (s.vacate x rt).perst = P := by
  unfold vacate
  exact
    have h2 := perst_foldl (fun _ _ h => updSlice_perst (unfillSlice_perst h)) (updPart_perst h)
    perst_ite h2 (perst_ite (perst_foldl (fun _ _ h => setMover_perst (saveWrite_perst h)) (updCtx_perst h2))
      (perst_foldl (fun _ _ h => release_perst h) h2))

theorem preempt_perst (h : s.perst = P) {x : ℕ} : (s.preempt x).perst = P :=
  perst_foldl (fun _ _ h => perst_ite h (askBoundary_perst h)) (updCtx_perst h)

theorem serveWaiting_perst (h : s.perst = P) {p : ℕ} {l : List ℕ} : (s.serveWaiting p l).perst = P := by
  induction l generalizing s with
  | nil => exact h
  | cons x l ih =>
    unfold serveWaiting
    refine perst_ite h (perst_ite (ih (set_perst h)) ?_)
    extract_lets mark cap
    have hk {t : State} (ht : t.perst = P) : (mark t).perst = P := updPart_perst ht
    split
    · exact perst_ite (ih (hk (resume_perst h))) (perst_ite (ih (hk (resumeFewer_perst h))) h)
    · exact perst_ite (ih (perst_foldl (fun _ _ h => askBoundary_perst h) h)) (ih (hk (give_perst h)))

theorem serveRt_perst (h : s.perst = P) {p : ℕ} : (s.serveRt p).perst = P := by
  unfold serveRt
  refine perst_foldl (fun _ _ h => ?_) h
  refine perst_ite h ?_
  extract_lets
  split
  · exact perst_ite (resume_perst h) h
  · exact give_perst h

theorem yieldIdle_perst (h : s.perst = P) {p : ℕ} {rt : Bool} : (s.yieldIdle p rt).perst = P :=
  perst_foldl (fun _ _ h => perst_ite h (vacate_perst h)) h

theorem preemptLower_perst (h : s.perst = P) {p : ℕ} : (s.preemptLower p).perst = P := by
  unfold preemptLower
  dsimp only
  split
  · exact h
  · refine perst_ite h ?_
    split
    · exact h
    · exact preempt_perst h

theorem startEntry_perst (h : s.perst = P) {p j : ℕ} : (s.startEntry p j).perst = P := by
  unfold startEntry
  refine perst_ite (updPart_perst h) ?_
  refine perst_ite (updPart_perst (set_perst h)) ?_
  refine updCtx_perst (set_perst ?_)
  split
  · exact perst_ite (resume_perst h) (perst_ite (resumeFewer_perst h) h)
  · exact give_perst h

theorem nextGroup_perst (h : s.perst = P) {n p : ℕ} : (nextGroup n s p).perst = P := by
  induction n generalizing s with
  | zero => exact h
  | succ n ih =>
    unfold nextGroup
    exact perst_ite h (perst_ite h (ih (perst_foldl (fun _ _ h => startEntry_perst h) (set_perst (updPart_perst h)))))

theorem endEntry_perst (h : s.perst = P) {p j : ℕ} : (s.endEntry p j).perst = P := by
  unfold endEntry
  refine perst_ite h ?_
  exact
    have h1 := updPart_perst h
    perst_ite h1 (perst_ite (preempt_perst h1) (vacate_perst h1))

theorem endIdle_perst (h : s.perst = P) {p : ℕ} : (s.endIdle p).perst = P := perst_foldl (fun _ _ h => perst_ite (endEntry_perst h) h) h

theorem schedule_perst (h : s.perst = P) {p : ℕ} : (s.schedule p).perst = P := by
  unfold schedule
  have h1 : ((s.yieldIdle p true).serveRt p).perst = P := serveRt_perst (yieldIdle_perst h)
  refine perst_ite (nextGroup_perst (endIdle_perst h1)) ?_
  refine perst_foldl (fun _ _ h => perst_ite h (schedStat_perst h)) (preemptLower_perst ?_)
  exact perst_ite (serveWaiting_perst h1) (serveWaiting_perst (yieldIdle_perst (serveWaiting_perst h1)))

theorem scheduleFor_perst (h : s.perst = P) {x : ℕ} : (s.scheduleFor x).perst = P := schedule_perst h

theorem chargeOverrun_perst (h : s.perst = P) {x : ℕ} : (s.chargeOverrun x).perst = P := by
  unfold chargeOverrun
  split
  · exact h
  · exact updCtx_perst (perst_ite h (bump_perst (set_perst h)))

theorem preempted_perst (h : s.perst = P) {x : ℕ} : (s.preempted x).perst = P :=
  perst_ite h (scheduleFor_perst (vacate_perst (perst_foldl (fun _ _ h => updCmd_perst h) (chargeOverrun_perst h))))

theorem rebindEnd_perst (h : s.perst = P) {p result : ℕ} : (s.rebindEnd p result).perst = P := by
  unfold rebindEnd
  exact
    have h1 := set_perst (set_perst (set_perst h))
    keysSettle_perst (updRebind_perst (set_perst (perst_ite (set_perst h1) h1)))

theorem heldMark_perst (h : s.perst = P) {n : ℕ} {b : Bool} : (s.heldMark n b).perst = P := h

theorem goOn_perst (h : s.perst = P) {c : Cmd} : (s.goOn c).perst = P :=
  perst_ite (preempted_perst h) (feedCtx_perst (scheduleFor_perst (updCmd_perst h)))

theorem rebalCancel_perst (h : s.perst = P) {p : ℕ} : (s.rebalCancel p).perst = P :=
  perst_foldl (fun _ _ h => perst_ite (set_perst (updSegPend_perst h)) h) h

theorem bindFails_perst (h : s.perst = P) {p result : ℕ} : (s.bindFails p result).perst = P := by
  unfold bindFails
  split
  · exact rebindEnd_perst (updLink_perst h)
  · exact rebindEnd_perst h

theorem unmark_perst (h : s.perst = P) {p : ℕ} : (s.unmark p).perst = P := perst_foldl (fun _ _ h => heldMark_perst (updSlice_perst h)) h

theorem shrinkBreak_perst (h : s.perst = P) {p result : ℕ} : (s.shrinkBreak p result).perst = P :=
  perst_foldl (fun _ _ h => perst_ite (updCmd_perst (flushCmd_perst (breakCmd_perst h))) (goOn_perst h)) (rebindEnd_perst (unmark_perst h))

theorem rebindAbort_perst (h : s.perst = P) {p result : ℕ} : (s.rebindAbort p result).perst = P := by
  unfold rebindAbort
  have resumed {cs : List Cmd} : (cs.foldl (fun s c => s.goOn c) ((s.unmark p).rebindEnd p result)).perst = P :=
    perst_foldl (fun _ _ h => goOn_perst h) (rebindEnd_perst (unmark_perst h))
  have scrubbed {back : List Nat} : (back.foldl (fun s n => s.scrubSlice n) s).perst = P := perst_foldl (fun _ _ h => scrubSlice_perst h) h
  refine perst_ite (perst_ite (rebindEnd_perst h) (perst_ite resumed (perst_ite (perst_ite (shrinkBreak_perst h) h)
    (rebindEnd_perst (setAllGates_perst (capTouch_perst (wr_perst (wr_perst scrubbed)))))))) ?_
  refine perst_ite (perst_ite (rebindEnd_perst h) (perst_ite (rebindEnd_perst (rebalCancel_perst h)) h)) ?_
  refine perst_ite ?_ h
  split
  · exact bindFails_perst (perst_ite h (sendMgmt_perst h))
  · exact bindFails_perst h

theorem preemptRebinds_perst (h : s.perst = P) {slices chans ports : List ℕ} : (s.preemptRebinds slices chans ports).perst = P :=
  perst_foldl (fun _ _ h => rebindAbort_perst h) h

theorem preemptOwn_perst (h : s.perst = P) {p : ℕ} : (s.preemptOwn p).perst = P := perst_ite (rebindAbort_perst h) h

theorem preemptLevel_perst (h : s.perst = P) {level kind idx part : ℕ} : (s.preemptLevel level kind idx part).perst = P :=
  perst_ite (preemptRebinds_perst h) (perst_ite (preemptRebinds_perst (preemptOwn_perst h)) (preemptRebinds_perst h))

theorem setLevel_perst (h : s.perst = P) {level kind idx part : ℕ} : (s.setLevel level kind idx part).perst = P := h

theorem stopSlices_perst (h : s.perst = P) {l : List ℕ} {b : Bool} : (s.stopSlices l b).perst = P := perst_foldl (fun _ _ h => updSlice_perst h) h

theorem reglMode_perst (h : s.perst = P) : s.reglMode.perst = P := perst_ite h h

/-- The state in which a level that does not wait for approval is recorded. -/
def levelBegun (s : State) (level kind idx part code : Nat) : State :=
  let u := { s with rcv := { s.rcv with cause := code, approved := true, drain := none } }
  (((u.preemptLevel level kind idx part).setLevel level kind idx part).stopSlices (u.levelSlices level kind idx part) true).reglMode

theorem startLevel_still {level kind idx part code : ℕ} : s.startLevel level kind idx part code false =
    (s.levelBegun level kind idx part code).event0 0x40
      (leBytes 1 level ++ leBytes 1 kind ++ leBytes 2 idx ++ leBytes 1 part ++ leBytes 1 0) := by
  simp only [startLevel, levelBegun, Bool.false_and, Bool.not_false, Bool.false_eq_true, if_false]

theorem startLevel_perst (h : s.perst = P) {level kind idx part code : ℕ} : (s.startLevel level kind idx part code false).perst = P := by
  rw [startLevel_still]
  exact event0_perst (reglMode_perst (stopSlices_perst (setLevel_perst (preemptLevel_perst (with_rcv_perst h)))))

end Sys2Proof.Machine.State
end

section
/-! SUPPORT. Power, resets, the throttle input and the host link's pins. -/

namespace Sys2Proof.Machine

open Sys2Proof

variable {s : State} {mv : Nat} {train : TrainIn}

/-! ### The stages (R478, R499, R501) -/

/-- The stages run, with DEV_PGOOD. -/
def State.stagesUp (s : State) : State := { s with pins := { s.pins with pwrEn := true, heldOn := false, pgood := true } }

theorem State.stagesOn_runs (h : 48000 ≤ mv ∧ mv < 60500) : s.stagesOn mv train = if s.pins.resetN then s.stagesUp.bringUp train else s.stagesUp :=
  if_neg (by omega)

theorem State.stagesOn_stays (h : ¬ (48000 ≤ mv ∧ mv < 60500)) :
    s.stagesOn mv train = { s with pins := { s.pins with pwrEn := true, heldOn := false } } :=
  if_pos (by omega)

theorem exec_stageStop (hp : s.pins.pgood = true) (h : mv ≤ 46000 ∨ 60500 ≤ mv) : exec (.stageStop mv) s =
    .next { s.powerLost with pins := { s.powerLost.pins with stopLatch := true, offTimer := true, pgood := false } } :=
  congrArg Host.Outcome.next (if_neg (by simp only [hp, Bool.true_eq_false, false_or]; omega))

/-! ### PERST_N (R478, R483) -/

theorem State.rd_reglMode {a : Nat} (h : a < rglDev) : s.reglMode.rd a = s.rd a := by
  have shown (q c : Nat) : ((s.set rglDev RGL_MODE_STAT_QSHARE q).set rglDev RGL_MODE_STAT_CAUSE c).rd a = s.rd a :=
    (State.rd_set_ne _ _ _ _ (by omega)).trans (State.rd_set_ne _ _ _ _ (by omega))
  unfold State.reglMode
  extract_lets cause was t
  split
  · exact (State.rd_of_regs (s := t) rfl a).trans (shown ..)
  · exact shown ..

/-- A level that does not wait for approval is the level in progress. -/
theorem State.levelNow_startLevel {level kind idx part code : Nat} (h : level < 8) :
    (s.startLevel level kind idx part code false).levelNow = level := by
  let u := { s with rcv := { s.rcv with cause := code, approved := true, drain := none } }
  let v := (u.preemptLevel level kind idx part).setLevel level kind idx part
  have slices : (v.stopSlices (u.levelSlices level kind idx part) true).regs = v.regs :=
    foldl_keeps State.regs (f := fun s n => s.updSlice n (fun y => { y with stopped := true })) (fun _ _ => rfl) _ _
  have word : (s.startLevel level kind idx part code false).rd (rcvPg + GLB_RCV_STAT) = v.rd (rcvPg + GLB_RCV_STAT) := by
    rw [State.startLevel_still]
    exact (State.rd_event0 _ _ _ (by decide)).trans ((State.rd_reglMode (by decide)).trans (State.rd_of_regs slices _))
  exact (congrArg (bitsOf · 2 0) word).trans ((State.levelNow_setLevel ..).trans (Nat.mod_eq_of_lt h))

theorem State.levelNow_pciReset : s.pciReset.levelNow = s.levelNow := by
  have word : s.pciReset.rd (rcvPg + GLB_RCV_STAT) = s.rd (rcvPg + GLB_RCV_STAT) :=
    congrArg BitVec.toNat ((Tab.get_clear_out _ _ (.inl (by decide))).trans (Tab.get_clear_out _ _ (.inl (by decide))))
  exact congrArg (bitsOf · 2 0) word

/-- What PERST_N does first: the input stands low, and a READY module with a lower level starts the device-level reset. -/
def State.perstLow (s : State) : State :=
  let u := { s with pins := { s.pins with perstN := false } }
  if u.ready ∧ u.levelNow < 5 then u.startLevel 5 4 0 0 0 false else u

theorem State.perst_perstLow : s.perstLow.pins.perstN = false := by
  have low : { s with pins := { s.pins with perstN := false } }.perst = false := rfl
  exact State.perst_ite (State.startLevel_perst low) low

theorem State.levelNow_perstLow (hr : s.ready = true) (h : s.levelNow < 5) : s.perstLow.levelNow = 5 :=
  (congrArg State.levelNow (if_pos ⟨hr, h⟩)).trans (State.levelNow_startLevel (by decide))

theorem exec_perstNAssert_off (h : s.pins.pgood = false) : exec .perstNAssert s = .next { s with pins := { s.pins with perstN := false } } :=
  congrArg Host.Outcome.next (if_pos h)

theorem exec_perstNAssert (h : s.pins.pgood = true) : exec .perstNAssert s = .next s.perstLow.pciReset :=
  congrArg Host.Outcome.next (if_neg (ne_false_of_eq_true h))

/-! ### The host link (R483, R492) -/

/-- The link up at its generation and width. -/
def State.linkTrained (s : State) (gen width : Nat) : State :=
  ((s.set pciPg PCI_LINK_STAT_GEN gen).set pciPg PCI_LINK_STAT_WIDTH width).set pciPg PCI_LINK_STAT_LINK_UP 1

/-- The link is up, and the capability table shows it. -/
def State.linkUp (t : State) : State := ({ t with pins := { t.pins with linkUp := true } }).capTouch

theorem State.get_linkUp (t : State) (pg : Nat) (f : F) : t.linkUp.get pg f = t.get pg f :=
  congrArg (bitsOf · f.hi f.lo) (State.rd_of_regs (t := t.linkUp) (s := t) rfl _)

theorem State.linkUp_mems (t : State) : t.linkUp.mems = t.mems := State.capTouch_mems (State.mems_with_pins rfl)

theorem exec_pcieLinkUp {gen width : Nat} (h4 : 4 ≤ gen) (h7 : gen ≤ 7) (hw : width ∈ [1, 2, 4, 8, 16]) : exec (.pcieLinkUp gen width) s = .next (
    if s.running = false ∨ s.pins.perstN = false then s
    else (s.linkTrained gen width).linkUp) := by
  have fits : (decide (4 ≤ gen) && decide (gen ≤ 7) && [1, 2, 4, 8, 16].contains width) = true := by
    simp only [h4, h7, decide_true, Bool.true_and]
    exact List.contains_iff_mem.mpr hw
  exact if_pos fits

/-- The link trains with power, out of reset, with PERST_N released and the oscillator running. -/
theorem State.linkDown_iff : (s.running = false ∨ s.pins.perstN = false) ↔
    ¬ (s.pins.pgood = true ∧ s.pins.resetN = true ∧ s.pins.perstN = true ∧ s.pins.oscStopped = false) := by
  rw [State.running]
  cases s.pins.pgood <;> cases s.pins.resetN <;> cases s.pins.perstN <;> cases s.pins.oscStopped <;> decide

theorem State.get_linkTrained {gen width : Nat} (h7 : gen ≤ 7) (hw : width ∈ [1, 2, 4, 8, 16]) :
    (s.linkTrained gen width).get pciPg PCI_LINK_STAT_GEN = gen ∧ (s.linkTrained gen width).get pciPg PCI_LINK_STAT_WIDTH = width ∧
      (s.linkTrained gen width).get pciPg PCI_LINK_STAT_LINK_UP = 1 := by
  have narrow : width < 32 := by
    have h : ∀ w ∈ [1, 2, 4, 8, 16], w < 32 := by decide
    exact h width hw
  have shown (g : F) (ho : g.off = 0x040) (hd : g.hi < 9) (u : State) : (u.set pciPg PCI_LINK_STAT_LINK_UP 1).get pciPg g = u.get pciPg g :=
    u.get_set_disjoint pciPg PCI_LINK_STAT_LINK_UP 1 ho (by decide) (by decide) (.inr hd)
  refine ⟨?_, ?_, State.get_set_self _ _ _ _ (by decide) (by decide)⟩
  · refine (shown PCI_LINK_STAT_GEN rfl (by decide) _).trans ((State.get_set_disjoint _ pciPg PCI_LINK_STAT_WIDTH width
      (g := PCI_LINK_STAT_GEN) rfl (by decide) (by decide) (by decide)).trans ((State.get_set_self _ _ _ _ (by decide) (by decide)).trans ?_))
    exact Nat.mod_eq_of_lt (show gen < 16 by omega)
  · refine (shown PCI_LINK_STAT_WIDTH rfl (by decide) _).trans ((State.get_set_self _ _ _ _ (by decide) (by decide)).trans ?_)
    exact Nat.mod_eq_of_lt narrow

/-! ### DEV_THROTTLE_N (R479) -/

theorem State.pins_event0 (s : State) (typ : Nat) (p : Bytes) : (s.event0 typ p).pins = s.pins :=
  State.field_of_sansEvents (s.event_sansEvents 0 typ 0 p) State.pins (fun _ => rfl)

theorem State.mgmt_event0 (s : State) (typ : Nat) (p : Bytes) : (s.event0 typ p).mgmt = s.mgmt :=
  State.field_of_sansEvents (s.event_sansEvents 0 typ 0 p) State.mgmt (fun _ => rfl)

theorem State.pins_clock (s : State) (i : Nat) : (s.clock i).pins = s.pins := rfl

theorem State.mgmt_clock (s : State) (i : Nat) : (s.clock i).mgmt = s.mgmt := rfl

/-- The clocks move no pin and no alarm. -/
theorem State.clocks_keeps (s : State) : s.clocks.pins = s.pins ∧ s.clocks.mgmt = s.mgmt := by
  have power : s.powerStat.pins = s.pins ∧ s.powerStat.mgmt = s.mgmt := by
    simp only [State.powerStat, State.mark_eq, State.set_pins, State.set_mgmt, and_self]
  rw [State.clocks]
  exact ⟨(foldl_keeps State.pins State.pins_clock _ _).trans power.1, (foldl_keeps State.mgmt State.mgmt_clock _ _).trans power.2⟩

theorem State.clocksOn_keeps (s : State) : s.clocksOn.pins = s.pins ∧ s.clocksOn.mgmt = s.mgmt := by
  rw [State.clocksOn]
  split
  · exact s.clocks_keeps
  · exact ⟨rfl, rfl⟩

/-- The input released and no longer stuck. -/
def State.throttleFreed (s : State) : State := { s with pins := { s.pins with throttle := false, throttleCont := false, stuck := false } }

theorem exec_devThrottleNRelease_stuck (h : s.pins.stuck = true) : exec .devThrottleNRelease s = .next
    ((s.throttleFreed.putAlarm (putBit s.mgmt.alarm 6 false)).event0 0x50 (leBytes 1 1 ++ leBytes 1 0)).clocksOn :=
  congrArg (fun a : State => Host.Outcome.next a.clocksOn) (if_pos h)

theorem exec_inputStuck (ht : s.pins.throttle = true) (hs : s.pins.stuck = false) : exec .inputStuck s = .next
    ((({ s with pins := { s.pins with stuck := true } }).alarm 6).event0 0x50 (leBytes 1 1 ++ leBytes 1 1)) :=
  congrArg Host.Outcome.next (if_neg (by simp [ht, hs]))

theorem bitOf_or_two_pow (n i : Nat) : bitOf (n ||| 2 ^ i) i = true := by
  rw [bitOf, Nat.testBit_or, Nat.testBit_two_pow_self, Bool.or_true]

/-- Settles O59: each pin's row, by the branch of the model that it takes; PERST_N by the operations that its level can run. -/
theorem pinsPowerAndReset : Obligations.PinsPowerAndReset := by
  intro s mv train runs clocked on
  have stages (u : State) : u.stagesOn mv train = on u := by
    by_cases h : runs
    · exact (State.stagesOn_runs h).trans (if_pos h).symm
    · exact (State.stagesOn_stays h).trans (if_neg h).symm
  refine ⟨fun h => ?_, fun h h' => ?_, fun h h' => ?_, fun h => ?_, fun h => ?_, fun h => ?_, fun h => ?_, fun h => ?_, fun h h' => ?_, rfl, fun h => ?_,
    fun h => ?_, fun h => ?_, fun h => ?_, fun h => ?_, fun h => ?_, ?_, rfl, fun gen width h4 h7 hw => ⟨fun h => ?_, fun h => ?_⟩,
    fun tenths toggling => ⟨fun h h' => ?_, fun h => ?_⟩, fun h => ?_, fun h => ?_, fun h => ?_, fun h h' => ?_⟩
  · exact congrArg Host.Outcome.next (if_pos h)
  · exact congrArg Host.Outcome.next ((if_neg (ne_true_of_eq_false h)).trans (if_pos h'))
  · exact congrArg Host.Outcome.next ((if_neg (ne_true_of_eq_false h)).trans ((if_neg (ne_true_of_eq_false h')).trans (stages s)))
  · exact congrArg Host.Outcome.next (if_neg (ne_true_of_eq_false h))
  · exact congrArg Host.Outcome.next ((if_pos h).trans (stages _))
  · exact congrArg Host.Outcome.next (if_pos h)
  · refine ⟨_, congrArg Host.Outcome.next (if_neg (ne_false_of_eq_true h)), rfl, rfl, rfl, rfl, rfl, rfl, fun hl => ?_, fun hl => ?_⟩
    · exact if_neg (ne_true_of_eq_false hl)
    · exact if_pos hl
  · exact congrArg Host.Outcome.next (if_pos h)
  · exact ⟨_, exec_stageStop h h', rfl, rfl, rfl, rfl⟩
  · exact congrArg Host.Outcome.next (if_pos h)
  · exact ⟨_, congrArg Host.Outcome.next (if_neg (ne_false_of_eq_true h)), rfl, rfl, rfl⟩
  · exact congrArg Host.Outcome.next (if_neg (ne_true_of_eq_false h))
  · exact ⟨_, congrArg Host.Outcome.next (if_pos h), rfl, rfl⟩
  · exact congrArg Host.Outcome.next (if_pos h)
  · exact ⟨fun up => congrArg Host.Outcome.next ((if_neg (ne_true_of_eq_false h)).trans (if_pos up)),
      fun down => congrArg Host.Outcome.next ((if_neg (ne_true_of_eq_false h)).trans (if_neg down))⟩
  · cases h : s.pins.pgood with
    | false => exact ⟨_, exec_perstNAssert_off h, rfl, nofun, nofun⟩
    | true =>
      exact ⟨_, exec_perstNAssert h, State.perst_perstLow, fun _ => rfl, fun _ hr hl => State.levelNow_pciReset.trans (State.levelNow_perstLow hr hl)⟩
  · refine (exec_pcieLinkUp h4 h7 hw).trans (congrArg Host.Outcome.next (if_pos ((State.linkDown_iff).mpr h)))
  · obtain ⟨hgen, hwidth, hup⟩ := s.get_linkTrained h7 hw
    refine ⟨_, (exec_pcieLinkUp h4 h7 hw).trans (congrArg Host.Outcome.next (if_neg fun down => (State.linkDown_iff).mp down h)), rfl, ?_, ?_, ?_, ?_⟩
    · exact (State.get_linkUp ..).trans hgen
    · exact (State.get_linkUp ..).trans hwidth
    · exact (State.get_linkUp ..).trans hup
    · exact State.sameBytes_of_mems ((State.linkUp_mems _).trans (State.set_mems (State.set_mems (State.set_mems rfl))))
  · exact congrArg Host.Outcome.next (if_pos ⟨h, h'⟩)
  · exact congrArg Host.Outcome.next (if_neg fun ⟨short, steady⟩ => h.elim (Nat.not_le.mpr short) (ne_true_of_eq_false steady))
  · exact congrArg (fun a : State => Host.Outcome.next a.clocksOn) (if_neg (ne_true_of_eq_false h))
  · refine ⟨_, exec_devThrottleNRelease_stuck h, ?_⟩
    obtain ⟨pins, mgmt⟩ := State.clocksOn_keeps ((s.throttleFreed.putAlarm (putBit s.mgmt.alarm 6 false)).event0 0x50 (leBytes 1 1 ++ leBytes 1 0))
    rw [pins, mgmt, State.pins_event0, State.mgmt_event0]
    exact ⟨rfl, rfl, bitOf_putBit_self ..⟩
  · exact congrArg Host.Outcome.next (if_pos (h.imp_right id))
  · refine ⟨_, exec_inputStuck h h', ?_⟩
    rw [State.pins_event0, State.mgmt_event0]
    exact ⟨rfl, h, bitOf_or_two_pow ..,
      State.sameBytes_of_mems (State.event0_mems (State.alarm_mems (State.mems_with_pins rfl)))⟩

end Sys2Proof.Machine
end
